-- ==== Sys2Proof/Word.lean ====
section
/-!
DEFINITION. The words of the model: bytes and 32-bit register words, and the two shapes every table of the state has
(a sparse table by natural number key, and a sparse byte memory).
-/

namespace Sys2Proof

/-- One byte. -/
abbrev Byte := BitVec 8

/-- One 4-byte register of the window (R437: each register is read and written whole). -/
abbrev Word := BitVec 32

/-- A sparse table: key and value pairs with strictly rising keys. -/
abbrev Tab (α : Type) := List (Nat × α)

/-- A sparse byte memory: address and byte pairs with strictly rising addresses and no zero byte listed. -/
abbrev Mem := List (Nat × BitVec 8)

end Sys2Proof
end

