-- ==== Sys2Proof/Config.lean ====
section
/-!
DEFINITION. The free values: what the spec leaves open and the hardware decides. No constant here has a body, so no
proof can rest on a value of it (notes/assumptions names each).
-/

namespace Sys2Proof.Config

/-- Which lane's draw rounds the sum of level `l` at position `i` in a stochastically rounded vrsum (R130, R162: each lane
draws once, and the rules do not say which draw serves which sum). -/
opaque sumDrawLane (l i : Nat) : Nat

/-- Bits 63:32 that an FP32 result leaves in its scalar register (R117: FP32 operations act on the low 32 bits), by the
result. -/
opaque scalarHigh (low : Nat) : Nat

/-- The result of a scalar shift by 64 or more (Table 5.4), by operand, amount and direction. -/
opaque shiftBeyond (left : Bool) (a b : Nat) : Nat

/-- What a vector register holds after both ports of one bundle write it (R127, R128), by the two values. -/
opaque bothPorts (a b : Nat) : Nat

/-- What pmrd gives for a word number outside 0 to 31 (Table 5.4), by the number. -/
opaque postmarkBeyond (i : Nat) : Nat

/-- The expected count with which a window's free seal is armed (R37 names no count), by function and window: 0 for A, 1
for B. -/
opaque freeSealCount (fn window : Nat) : Nat

/-- The scalars that a die taking over a member holds for a step whose scalar reduction it took no part in (R274 names no
source for them): 0 NORM2, 1 NONFINITE, 2 TOKENS. -/
opaque takerScalar (fn step i : Nat) : Nat

/-- Whether the group that a die joins by taking over a member has passed C in the step (R274 and Table 3.8 tell the two cases
apart; no message tells the taker), by function and step. -/
opaque takerPastC (fn step : Nat) : Bool

/-- The attempt of the step's intake and the function's ABORTS, as a die that takes over a member finds them (R110, R238; no
message tells the taker), by function and step. -/
opaque takerAttempt (fn step : Nat) : Nat
opaque takerAborts (fn step : Nat) : Nat

/-- The CHAIN_LINK that decoding would give for a state leaf whose row is still unrebuilt at an anchoring step seal (R422):
the other members' slots, from which it follows, are not on this die. By function, member, row and step. -/
opaque unrebuiltLink (fn member row step : Nat) : BitVec 64

/-- Whether the other dies of a group have the room that absorbing a member's slots takes (R276), by function and tick, where
the keeper decides within a command that carries no answer of theirs. -/
opaque othersRoom (fn tick : Nat) : Bool

/-- A byte that a proxy answers for a former member's slot whose row cannot be decoded (R280 states none): by function,
offset and tick. -/
opaque proxyLost (fn off tick : Nat) : BitVec 8

/-- FORMAT_ID chosen at the `i`-th format of the floor (R299, Table 11.3). -/
opaque formatId (i : Nat) : Nat

/-- Whether a command entry of LOAD_LEAVES names mask leaves rather than state leaves of its tensor (Table 13.7 gives no
argument that says so), by the 64 bytes of the entry. -/
opaque loadMask (entry : List (BitVec 8)) : Bool

/-- FW_VERSION and SVN of the image placed in slot 0 at manufacture, and the hash in key slot 0 (R388, R391). -/
opaque factoryVersion : Nat
opaque factorySvn : Nat
opaque factoryKey : Nat

end Sys2Proof.Config
end

