-- ==== Sys2Proof/Machine/Tab.lean ====
section
/-!
DEFINITION. Operations on the two sparse shapes of the state: tables by key (`Tab`) and byte memories (`Mem`), each in
one canonical form (strictly rising keys; for a memory also no byte equal to zero, which is what an unlisted address
reads as).
-/

namespace Sys2Proof.Machine

/-- The keys of a table are strictly rising and all above `lo` (a helper of `tabWf`). -/
def tabAbove {α : Type} (lo : Nat) : Tab α → Bool
  | [] => true
  | (k, _) :: t => decide (lo ≤ k) && tabAbove (k + 1) t

/-- The canonical form of a table: strictly rising keys. -/
def tabWf {α : Type} (t : Tab α) : Bool := tabAbove 0 t

/-- The entry of key `i`, if the table lists one. -/
def tabFind {α : Type} : Tab α → Nat → Option α
  | [], _ => none
  | (k, v) :: t, i => if i = k then some v else tabFind t i

/-- Insert entry `v` at key `i` before the first key above it. -/
def tabIns {α : Type} : Tab α → Nat → α → Tab α
  | [], i, v => [(i, v)]
  | (k, w) :: t, i, v => if i < k then (i, v) :: (k, w) :: t else (k, w) :: tabIns t i v

/-- Put entry `v` at key `i` in place of what the table lists there; `none` removes the entry. -/
def tabPut {α : Type} (t : Tab α) (i : Nat) (v : Option α) : Tab α :=
  let rest := t.filter (fun e => decide (e.1 ≠ i))
  match v with
  | some x => tabIns rest i x
  | none => rest

/-- The entry of key `i`, or `d` where the table lists none. -/
def tabGet {α : Type} (d : α) (t : Tab α) (i : Nat) : α := (tabFind t i).getD d

/-- Write `v` at key `i` of a table whose unlisted keys read as `d`: writing `d` removes the entry. -/
def tabSet {α : Type} [DecidableEq α] (d : α) (t : Tab α) (i : Nat) (v : α) : Tab α :=
  tabPut t i (if v = d then none else some v)

/-- Drop every entry whose key lies in `[a, a + n)`. -/
def tabClear {α : Type} (t : Tab α) (a n : Nat) : Tab α :=
  t.filter (fun e => decide (e.1 < a) || decide (a + n ≤ e.1))

/-- The canonical form of a byte memory: strictly rising addresses, and no listed byte is zero. -/
def memWf (m : Mem) : Bool := tabWf m && m.all (fun c => decide (c.2 ≠ 0))

/-- The byte at address `a`; an unlisted address reads as zero. -/
def memRead (m : Mem) (a : Nat) : Byte := tabGet 0 m a

/-- Write one byte. -/
def memWrite (m : Mem) (a : Nat) (b : Byte) : Mem := tabSet 0 m a b

/-- The cells of the bytes `bs` placed from address `a`, zero bytes left out. -/
def cellsOf : Nat → List Byte → Mem
  | _, [] => []
  | a, b :: bs => if b = 0 then cellsOf (a + 1) bs else (a, b) :: cellsOf (a + 1) bs

/-- Write the bytes `bs` from address `a` upward. -/
def memWriteN (m : Mem) (a : Nat) (bs : List Byte) : Mem :=
  m.filter (fun c => decide (c.1 < a)) ++ cellsOf a bs ++ m.filter (fun c => decide (a + bs.length ≤ c.1))

/-- Spread listed cells (rising, none below `a`) over `n` consecutive addresses from `a`. -/
def spread : Mem → Nat → Nat → List Byte
  | _, _, 0 => []
  | [], a, n + 1 => 0 :: spread [] (a + 1) n
  | (k, b) :: t, a, n + 1 => if a = k then b :: spread t (a + 1) n else 0 :: spread ((k, b) :: t) (a + 1) n

/-- The `n` bytes from address `a` upward. -/
def memReadN (m : Mem) (a n : Nat) : List Byte :=
  spread (m.filter (fun c => decide (a ≤ c.1) && decide (c.1 < a + n))) a n

/-- Make `n` bytes from `a` zero. -/
def memZero (m : Mem) (a n : Nat) : Mem := m.filter (fun c => decide (c.1 < a) || decide (a + n ≤ c.1))

/-! ### Little-endian values in byte lists -/

/-- The little-endian value of a byte list. -/
def leVal : List Byte → Nat
  | [] => 0
  | b :: bs => b.toNat + 256 * leVal bs

/-- The value `v` as `n` little-endian bytes (modulo 2^(8·n)). -/
def leBytes : Nat → Nat → List Byte
  | 0, _ => []
  | n + 1, v => BitVec.ofNat 8 v :: leBytes n (v / 256)

/-- The little-endian value of the `n` bytes at offset `o` of a byte list; bytes past its end read as zero. -/
def field (bs : List Byte) (o n : Nat) : Nat := leVal ((bs.drop o).take n)

/-- Replace the bytes from offset `o` of a byte list, which keeps its length. -/
def setBytes (bs : List Byte) (o : Nat) (new : List Byte) : List Byte :=
  (bs.take o ++ new ++ bs.drop (o + new.length)).take bs.length

/-- Replace the `n`-byte little-endian field at offset `o`. -/
def setField (bs : List Byte) (o n v : Nat) : List Byte := setBytes bs o (leBytes n v)

/-- `n` zero bytes. -/
def zeros (n : Nat) : List Byte := List.replicate n 0

/-- Is every byte zero? -/
def allZero (bs : List Byte) : Bool := bs.all (fun b => decide (b = 0))

/-- Exactly `n` bytes of a list: cut, or filled up with zero bytes. -/
def fit (n : Nat) (bs : List Byte) : List Byte := (bs ++ zeros (n - bs.length)).take n

/-! ### Bit fields of natural numbers -/

/-- Bits `hi:lo` of a number. -/
def bits (v hi lo : Nat) : Nat := (v / 2 ^ lo) % 2 ^ (hi + 1 - lo)

/-- Bit `i` of a number. -/
def bit (v i : Nat) : Bool := decide ((v / 2 ^ i) % 2 = 1)

/-- One or zero. -/
def b2n (b : Bool) : Nat := if b then 1 else 0

/-- Set bit `i` of a number to `b`. -/
def putBit (v i : Nat) (b : Bool) : Nat := if bit v i = b then v else if b then v + 2 ^ i else v - 2 ^ i

/-- `⌈a / b⌉`. -/
def ceilDiv (a b : Nat) : Nat := (a + b - 1) / b

/-- `a` rounded up to a multiple of `b`. -/
def roundUp (a b : Nat) : Nat := ceilDiv a b * b

/-- The signed value of the low `w` bits of `v` (two's complement). -/
def signed (w v : Nat) : Int := if v % 2 ^ w < 2 ^ (w - 1) then (v % 2 ^ w : Nat) else ((v % 2 ^ w : Nat) : Int) - (2 ^ w : Nat)

/-- A signed value as `w` bits (two's complement). -/
def unsigned (w : Nat) (i : Int) : Nat := (i % (2 ^ w : Nat)).toNat

end Sys2Proof.Machine
end

