-- ==== Sys2Proof/Machine/Crc.lean ====
section
/-!
DEFINITION. The checks and codes over bytes: CRC-64 (R23) and the field GF(2^8) with the parity coefficients
(R43, R44).
-/

namespace Sys2Proof.Machine

/-- The ECMA-182 polynomial (R23). -/
def crcPoly : Nat := 0x42F0E1EBA9EA3693

/-- One bit of the CRC-64, not reflected (R23). -/
def crcBit (c : Nat) : Nat :=
  if 0x8000000000000000 ≤ c then ((c - 0x8000000000000000) * 2) ^^^ crcPoly else c * 2

/-- `n` bits of the CRC-64. -/
def crcBits : Nat → Nat → Nat
  | 0, c => c
  | n + 1, c => crcBits n (crcBit c)

/-- One byte of the CRC-64, most significant bit first. -/
def crcByte (c : Nat) (b : Byte) : Nat := crcBits 8 (c ^^^ (b.toNat * 0x100000000000000))

/-- CRC-64 of a byte list, taken in ascending address order, from initial value zero (R23). -/
def crc64 (bs : List Byte) : Nat := bs.foldl crcByte 0

/-- One doubling in GF(2^8) modulo 0x11D (R43). -/
def gfDouble (a : Nat) : Nat := if 128 ≤ a then ((a - 128) * 2) ^^^ 0x1D else a * 2

/-- The product of R43 by shift and add over the low `n` bits of `b`. -/
def gfMulN : Nat → Nat → Nat → Nat
  | 0, _, _ => 0
  | n + 1, a, b => (if b % 2 = 1 then a else 0) ^^^ gfMulN n (gfDouble a) (b / 2)

/-- gf_mul (R43): the product of two bytes. -/
def gfMul (a b : Byte) : Byte := BitVec.ofNat 8 (gfMulN 8 a.toNat b.toNat)

/-- `a` to the power `n` in GF(2^8). -/
def gfPow (a : Byte) : Nat → Byte
  | 0 => 1
  | n + 1 => gfMul a (gfPow a n)

/-- gf_inv (R43): `a` to the power 254, which is the inverse of every non-zero `a`. -/
def gfInv (a : Byte) : Byte := gfPow a 254

/-- gf_scale (R43): multiply every byte of an image. -/
def gfScale (a : Byte) (bs : List Byte) : List Byte := bs.map (gfMul a)

/-- XOR of two images, byte by byte; the longer one's rest stands (images of one code have one length). -/
def xorBytes : List Byte → List Byte → List Byte
  | [], bs => bs
  | as, [] => as
  | a :: as, b :: bs => (a ^^^ b) :: xorBytes as bs

/-- The parity coefficient c[p][i] (R44). -/
def coeff (p i : Nat) : Byte := gfInv (BitVec.ofNat 8 ((0xF0 + p) ^^^ i))

end Sys2Proof.Machine
end

