-- ==== Sys2Proof/Machine/Formats.lean ====
section
/-!
DEFINITION. Element formats as the memory layout needs them (Tables 6.1 and 6.2, R147, R151, R158) and leaf formats
(R26, Table 1.3).
-/

namespace Sys2Proof.Machine

/-- Width in bits of an element format (Table 6.1); zero for the reserved code. -/
def fmtBits (code : Nat) : Nat := [32, 16, 16, 8, 8, 6, 6, 4, 32, 16, 8, 4, 16, 96, 64].getD code 0

/-- The code of a format byte (R147). -/
def fbCode (fb : Nat) : Nat := fb % 16

/-- The block-scaling attribute of a format byte (R147). -/
def fbScaled (fb : Nat) : Bool := bit fb 4

/-- Does Table 6.1 allow block scaling for the format? -/
def fmtScalable (code : Nat) : Bool := [3, 4, 5, 6, 7, 10].contains code

/-- Is the format a lane format (Table 6.1)? -/
def fmtLane (code : Nat) : Bool := [0, 1, 2, 8, 9, 10].contains code

/-- The format byte holds no reserved code, no non-zero bits 7:5 and no block scaling that Table 6.1 does not allow
(R147). -/
def fbOk (fb : Nat) : Bool :=
  decide (fb < 32) && decide (fbCode fb ≠ 15) && (!fbScaled fb || fmtScalable (fbCode fb))

/-- Bytes of 32 packed elements (R151, R158). -/
def block32 (code : Nat) : Nat := 4 * fmtBits code

/-- Bytes of one aligned block-scaled record (R158). -/
def alignedRecord (code : Nat) : Nat := roundUp (8 + block32 code) 8

/-- Bytes of one packed block-scaled record (R158). -/
def packedRecord (code : Nat) : Nat := 1 + block32 code

/-- Bytes that `n` elements of a plane of the format byte occupy before rounding up to 64 (R19, R158). 6-bit formats
are packed in groups of four elements, three bytes to a group (R151). -/
def planeBytes (fb n : Nat) : Nat :=
  if fbScaled fb then ceilDiv n 32 * alignedRecord (fbCode fb)
  else if fmtBits (fbCode fb) = 6 then ceilDiv n 4 * 3
  else ceilDiv (n * fmtBits (fbCode fb)) 8

/-- Bytes of `n` elements of a working copy (R36, R151, R158: the packed layout). -/
def wcBytesOf (fb n : Nat) : Nat :=
  if fbScaled fb then ceilDiv n 32 * packedRecord (fbCode fb)
  else if fmtBits (fbCode fb) = 6 then ceilDiv n 4 * 3
  else ceilDiv (n * fmtBits (fbCode fb)) 8

/-- One plane of a leaf format: its format byte and its elements per parameter (R28; 1 for the fixed formats). -/
structure Plane where
  fb : Nat
  per : Nat
  deriving DecidableEq, Repr

/-- The bytes of a body's planes with `p` parameters, each plane rounded up to 64 bytes (R19, R26). -/
def planesBytes (planes : List Plane) (p : Nat) : Nat :=
  (planes.map (fun q => roundUp (planeBytes q.fb (p * q.per)) 64)).sum

/-- The largest `p` below 2^`b` above `acc` for which the planes fit in 65,280 bytes, found bit by bit. -/
def maxFit (planes : List Plane) : Nat → Nat → Nat
  | 0, acc => acc
  | b + 1, acc => if planesBytes planes (acc + 2 ^ b) ≤ 65280 then maxFit planes b (acc + 2 ^ b) else maxFit planes b acc

/-- P of a format by R26: the largest integer for which the planes fit in 65,280 bytes. -/
def computeP (planes : List Plane) : Nat := maxFit planes 18 0

/-- The kinds of leaf format (Table 1.3). -/
inductive LeafKind where
  | state | gradient | mask
  deriving DecidableEq, Repr

/-- A leaf format: kind, planes, P in logical elements (dense for _S24) and elements per plane of the body. -/
structure LeafFormat where
  kind : LeafKind
  planes : List Plane
  p : Nat
  kept : Nat
  s24 : Bool
  deriving DecidableEq, Repr

/-- The fixed leaf formats of Table 1.3. -/
def fixedFormat (code : Nat) : Option LeafFormat :=
  let fp32 : Plane := ⟨0, 1⟩
  let bf16 : Plane := ⟨1, 1⟩
  let lg16 : Plane := ⟨12, 1⟩
  if code = 0x01 then some ⟨.state, [fp32, fp32, fp32], 5440, 5440, false⟩
  else if code = 0x02 then some ⟨.state, [fp32, bf16, lg16], 8160, 8160, false⟩
  else if code = 0x03 then some ⟨.state, [fp32, fp32], 8160, 8160, false⟩
  else if code = 0x04 then some ⟨.state, [fp32], 16320, 16320, false⟩
  else if code = 0x05 then some ⟨.state, [fp32, bf16], 10880, 10880, false⟩
  else if code = 0x06 then some ⟨.state, [fp32], 16320, 16320, false⟩
  else if code = 0x07 then some ⟨.state, [fp32, bf16], 16384, 8256, false⟩
  else if code = 0x08 then some ⟨.state, [fp32, fp32, fp32], 10880, 5440, true⟩
  else if code = 0x09 then some ⟨.state, [fp32, bf16, lg16], 16320, 8160, true⟩
  else if code = 0x10 then some ⟨.gradient, [fp32], 16320, 16320, false⟩
  else if code = 0x11 then some ⟨.gradient, [fp32], 32640, 16320, true⟩
  else if code = 0x18 then some ⟨.mask, [], 696320, 174080, false⟩
  else none

/-- Dense elements of a gradient leaf's span (R29). -/
def gradSpan (s24 : Bool) : Nat := if s24 then 32640 else 16320

/-- Dense positions of a mask leaf's span (R29). -/
def maskSpan : Nat := 696320

/-- Body offset of plane `i` of a format whose planes hold `n` parameters each (R19). -/
def planeOffset (planes : List Plane) (n i : Nat) : Nat := planesBytes (planes.take i) n

end Sys2Proof.Machine
end

