-- ==== Sys2Proof/Machine/Fp.lean ====
section
/-!
DEFINITION. Number formats and rounding (R146 to R163): the exact value of a code, the two rounding modes, the
conversions, the arithmetic of the lane formats, packing (R151), block scaling (R160) and LG16 (R153, R154).

An exact value is a dyadic `±m·2^e`. Where a result is not dyadic (a quotient, a root, an LG16 code's value) it is held
as a truncation with at least 192 significant bits whose last bit is 1: below the last place that any rounding of R161
or R162 looks at, a non-zero rest is all that matters.
-/

namespace Sys2Proof.Machine

/-- An exact value: a NaN, an infinity, or `±m·2^e` (a zero keeps its sign, R150). -/
inductive Num where
  | nan
  | inf (neg : Bool)
  | fin (neg : Bool) (m : Nat) (e : Int)
  deriving DecidableEq, Repr

/-- The number of bits of `m`: zero for zero. -/
def bitLength (m : Nat) : Nat := if m = 0 then 0 else Nat.log2 m + 1

/-- `⌊m·2^e⌋` for a natural `m`. -/
def shiftFloor (m : Nat) (e : Int) : Nat := if 0 ≤ e then m * 2 ^ e.toNat else m / 2 ^ (-e).toNat

/-- Is `m·2^e` an integer? -/
def shiftExact (m : Nat) (e : Int) : Bool := decide (0 ≤ e) || decide (m % 2 ^ (-e).toNat = 0)

/-! ### Layouts (Tables 6.2 and 6.3) -/

/-- A floating-point layout: exponent bits, fraction bits, bias, the code of the largest finite magnitude, whether it has
infinities, and the canonical NaN. -/
structure FloatFmt where
  ebits : Nat
  fbits : Nat
  bias : Nat
  maxCode : Nat
  hasInf : Bool
  nanCode : Option Nat
  deriving DecidableEq, Repr

/-- The layout of a format code, if it is a floating-point format (Tables 6.2 and 6.3). -/
def floatFmt (code : Nat) : Option FloatFmt :=
  if code = 0 then some ⟨8, 23, 127, 0x7F7FFFFF, true, some 0x7FC00000⟩
  else if code = 1 then some ⟨8, 7, 127, 0x7F7F, true, some 0x7FC0⟩
  else if code = 2 then some ⟨5, 10, 15, 0x7BFF, true, some 0x7E00⟩
  else if code = 3 then some ⟨4, 3, 7, 0x7E, false, some 0x7F⟩
  else if code = 4 then some ⟨5, 2, 15, 0x7B, true, some 0x7E⟩
  else if code = 5 then some ⟨3, 2, 3, 0x1F, false, none⟩
  else if code = 6 then some ⟨2, 3, 1, 0x1F, false, none⟩
  else if code = 7 then some ⟨2, 1, 1, 0x7, false, none⟩
  else if code = 14 then some ⟨11, 52, 1023, 0x7FEFFFFFFFFFFFFF, true, some 0x7FF8000000000000⟩
  else none

/-- The width of an integer format (R152), zero for any other. -/
def intWidth (code : Nat) : Nat :=
  if code = 8 then 32 else if code = 9 then 16 else if code = 10 then 8 else if code = 11 then 4 else 0

/-- The exact value of a code of a floating-point layout (R149, Table 6.3). -/
def floatVal (f : FloatFmt) (v : Nat) : Num :=
  let neg := bit v (f.ebits + f.fbits)
  let mag := v % 2 ^ (f.ebits + f.fbits)
  let e := mag / 2 ^ f.fbits
  let frac := mag % 2 ^ f.fbits
  if f.maxCode < mag then
    (if f.hasInf && decide (mag = f.maxCode + 1) then .inf neg else .nan)
  else if e = 0 then .fin neg frac (1 - (f.bias : Int) - f.fbits)
  else .fin neg (2 ^ f.fbits + frac) ((e : Int) - f.bias - f.fbits)

/-- The exact value of an integer. -/
def intNum (i : Int) : Num := .fin (decide (i < 0)) i.natAbs 0

/-! ### LG16 values (R153) -/

/-- The largest `r` with `r^256 ≤ t`, over the `n` low bits. -/
def root256 (t : Nat) : Nat → Nat → Nat
  | 0, r => r
  | n + 1, r => root256 t n (if (r + 2 ^ n) ^ 256 ≤ t then r + 2 ^ n else r)

/-- `⌊2^(j/256)·2^192⌋` for `j` below 256. -/
def lgFrac (j : Nat) : Nat := root256 (2 ^ (j + 49152)) 193 0

/-- The value of an LG16 code (R153). -/
def lgVal (c : Nat) : Num :=
  if c = 0 then .fin false 0 0
  else
    let k := ((c : Int) - 32768) / 256
    let j := (((c : Int) - 32768) % 256).toNat
    if j = 0 then .fin false 1 k else .fin false (2 * lgFrac j + 1) (k - 193)

/-- The exact value of a code of an element format (R149, R152, R153). -/
def valOf (code v : Nat) : Num :=
  match floatFmt code with
  | some f => floatVal f v
  | none => if code = 12 then lgVal v else intNum (signed (intWidth code) v)

/-! ### Rounding (R161 to R163) -/

/-- A rounding mode: to nearest even, or stochastic with bits 63:32 of a draw. -/
inductive Rnd where
  | rne
  | sr (u : Nat)
  deriving DecidableEq, Repr

/-- The rounded multiple of `2^ue` of the magnitude `m·2^e`, in units of `2^ue` (R161, R162). -/
def roundUnits (r : Rnd) (m : Nat) (e ue : Int) : Nat :=
  let lo := shiftFloor m (e - ue)
  if shiftExact m (e - ue) then lo
  else
    match r with
    | .rne =>
      let half := shiftFloor m (e - ue + 1)
      if half % 2 = 0 then lo
      else if shiftExact m (e - ue + 1) then lo + lo % 2
      else lo + 1
    | .sr u =>
      let f := shiftFloor m (e - ue + 32) % 2 ^ 32
      if 2 ^ 32 ≤ f + u then lo + 1 else lo

/-- A sign bit above `w` bits. -/
def withSign (neg : Bool) (w mag : Nat) : Nat := (if neg then 2 ^ w else 0) + mag

/-- The code of the format's NaN; +0 where it has none (Table 6.5). -/
def nanOf (f : FloatFmt) : Nat := f.nanCode.getD 0

/-- The code of an overflowed or infinite magnitude: an infinity, or the largest finite where the format has none or
saturation is asked for (Table 6.5). -/
def overOf (f : FloatFmt) (sat neg : Bool) : Nat :=
  withSign neg (f.ebits + f.fbits) (if f.hasInf && !sat then f.maxCode + 1 else f.maxCode)

/-- Round an exact value to a floating-point layout (R156, R161 to R163, Table 6.5). -/
def toFloat (f : FloatFmt) (sat : Bool) (r : Rnd) : Num → Nat
  | .nan => nanOf f
  | .inf neg => overOf f sat neg
  | .fin neg m e =>
    if m = 0 then withSign neg (f.ebits + f.fbits) 0
    else
      let x : Int := (bitLength m : Int) - 1 + e
      let emin : Int := 1 - (f.bias : Int)
      let top := if emin ≤ x then x else emin
      let n := roundUnits r m e (top - f.fbits)
      let mag : Nat := if n < 2 ^ f.fbits then n else ((top + f.bias).toNat - 1) * 2 ^ f.fbits + n
      if f.maxCode < mag then overOf f sat neg else withSign neg (f.ebits + f.fbits) mag

/-- A rounded integer within the range of `w` bits: beyond it the nearest range limit (Table 6.5). -/
def clampInt (w : Nat) (neg : Bool) (n : Nat) : Nat :=
  if neg then unsigned w (-((min n (2 ^ (w - 1)) : Nat) : Int)) else min n (2 ^ (w - 1) - 1)

/-- Round an exact value to an integer format whose ulp is `2^(-ulp)` (R156). -/
def toInt (w ulp : Nat) (r : Rnd) : Num → Nat
  | .nan => 0
  | .inf neg => clampInt w neg (2 ^ w)
  | .fin neg m e => clampInt w neg (roundUnits r m (e + ulp) 0)

/-- `⌊256·log2(m·2^e)⌋` for a non-zero `m`. -/
def log256 (m : Nat) (e : Int) : Int := (bitLength (m ^ 256) : Int) - 1 + 256 * e

/-- Round an exact value to LG16 (R154). -/
def toLg (r : Rnd) : Num → Nat
  | .nan => 0xFFFF
  | .inf neg => if neg then 0 else 0xFFFF
  | .fin neg m e =>
    if neg || decide (m = 0) then 0
    else
      match r with
      | .rne =>
        let c := 32768 + ((bitLength (m ^ 512) : Int) - 1 + 512 * e + 1) / 2
        if c ≤ 0 then 0 else min c.toNat 0xFFFF
      | .sr u =>
        let c := 32768 + log256 m e
        if 65535 ≤ c then 0xFFFF
        else
          let c0 := c.toNat
          match lgVal c0, lgVal (c0 + 1) with
          | .fin _ m0 e0, .fin _ m1 e1 =>
            let base := min e (min e0 e1)
            let x := shiftFloor m (e - base)
            let v0 := shiftFloor m0 (e0 - base)
            let v1 := shiftFloor m1 (e1 - base)
            if 2 ^ 32 ≤ (x - v0) * 2 ^ 32 / (v1 - v0) + u then c0 + 1 else c0
          | _, _ => c0

/-- Convert an exact value to an element format without block scaling (R156, Table 6.5). -/
def convert (code : Nat) (r : Rnd) (x : Num) : Nat :=
  match floatFmt code with
  | some f => toFloat f false r x
  | none => if code = 12 then toLg r x else toInt (intWidth code) 0 r x

/-! ### Block scaling (R160) -/

/-- The exact value of an element of a block-scaled format before its scale (R152: INT8 elements count 2^−6). -/
def elemVal (code v : Nat) : Num :=
  match valOf code v with
  | .fin neg m e => .fin neg m (if code = 10 then e - 6 else e)
  | x => x

/-- `x·2^k`. -/
def scaleNum (x : Num) (k : Int) : Num :=
  match x with
  | .fin neg m e => .fin neg m (e + k)
  | y => y

/-- Round a scaled value to a block-scaled element, with saturation (R160 step 4). -/
def toElem (code : Nat) (r : Rnd) (x : Num) : Nat :=
  match floatFmt code with
  | some f => toFloat f true r x
  | none => toInt (intWidth code) 6 r x

/-- EMAX of R160 step 3. -/
def blockEmax (code : Nat) : Int :=
  if code = 3 then 8 else if code = 4 then 15 else if code = 5 then 4 else if code = 6 then 2 else if code = 7 then 2 else 0

/-- The unbiased exponent of a non-zero finite value. -/
def numExp : Num → Option Int
  | .fin _ m e => if m = 0 then none else some ((bitLength m : Int) - 1 + e)
  | _ => none

/-- Is the value a NaN or an infinity? -/
def numBad : Num → Bool
  | .fin _ _ _ => false
  | _ => true

/-- The largest of a list of exponents. -/
def maxExp (es : List Int) : Option Int :=
  es.foldl (fun o e => match o with
    | none => some e
    | some m => some (if m < e then e else m)) none

/-- The scale byte of a block (R160 steps 1 to 3). -/
def blockScale (code : Nat) (xs : List Num) : Nat :=
  if xs.any numBad then 0xFF
  else
    match maxExp (xs.filterMap numExp) with
    | none => 0
    | some x => (max (-127) (min 127 (x - blockEmax code)) + 127).toNat

/-- The elements of a block under its scale byte, the `i`-th with rounding `rs i` (R160). -/
def blockElems (code b : Nat) (rs : List Rnd) (xs : List Num) : List Nat :=
  (xs.zip rs).map (fun p => if b = 0xFF then 0 else toElem code p.2 (scaleNum p.1 (127 - (b : Int))))

/-- The value of an element under a scale byte (R160): a NaN under scale 0xFF. -/
def blockVal (code b v : Nat) : Num := if b = 0xFF then .nan else scaleNum (elemVal code v) ((b : Int) - 127)

/-! ### Packing (R151, R158) -/

/-- The low `w·n` bits of a number as `n` elements of `w` bits, element 0 lowest. -/
def splitBits (w v : Nat) : Nat → List Nat
  | 0 => []
  | n + 1 => v % 2 ^ w :: splitBits w (v / 2 ^ w) n

/-- Elements of `w` bits packed into a number, element 0 lowest. -/
def joinBits (w : Nat) : List Nat → Nat
  | [] => 0
  | v :: vs => v % 2 ^ w + 2 ^ w * joinBits w vs

/-- Elements of a format without block scaling packed into bytes (R151). -/
def packElems (code : Nat) (vs : List Nat) : List Byte :=
  leBytes (ceilDiv (vs.length * fmtBits code) 8) (joinBits (fmtBits code) vs)

/-- `n` elements read from bytes (R151). -/
def unpackElems (code n : Nat) (bs : List Byte) : List Nat := splitBits (fmtBits code) (leVal bs) n

/-! ### IEEE arithmetic on exact values (R150, R157) -/

/-- The negation of a value. -/
def numNeg : Num → Num
  | .nan => .nan
  | .inf s => .inf (!s)
  | .fin s m e => .fin (!s) m e

/-- The absolute value. -/
def numAbs : Num → Num
  | .nan => .nan
  | .inf _ => .inf false
  | .fin _ m e => .fin false m e

/-- Exact sum; an exact zero sum of operands of opposite sign is +0 (R150). -/
def numAdd : Num → Num → Num
  | .nan, _ => .nan
  | _, .nan => .nan
  | .inf s, .inf t => if s = t then .inf s else .nan
  | .inf s, _ => .inf s
  | _, .inf t => .inf t
  | .fin s m e, .fin t n f =>
    let b := min e f
    let x : Int := (if s then -1 else 1) * (shiftFloor m (e - b) : Int)
    let y : Int := (if t then -1 else 1) * (shiftFloor n (f - b) : Int)
    if x + y = 0 then .fin (s && t) 0 0 else .fin (decide (x + y < 0)) (x + y).natAbs b

/-- Exact product. -/
def numMul : Num → Num → Num
  | .nan, _ => .nan
  | _, .nan => .nan
  | .inf s, .inf t => .inf (s != t)
  | .inf s, .fin t n _ => if n = 0 then .nan else .inf (s != t)
  | .fin s m _, .inf t => if m = 0 then .nan else .inf (s != t)
  | .fin s m e, .fin t n f => .fin (s != t) (m * n) (e + f)

/-- A truncated magnitude made odd where a rest was cut off. -/
def sticky (q : Nat) (rest : Bool) : Nat := 2 * q + b2n rest

/-- Quotient, to 192 bits and a rest bit. -/
def numDiv : Num → Num → Num
  | .nan, _ => .nan
  | _, .nan => .nan
  | .inf _, .inf _ => .nan
  | .inf s, .fin t _ _ => .inf (s != t)
  | .fin s _ _, .inf t => .fin (s != t) 0 0
  | .fin s m e, .fin t n f =>
    if n = 0 then (if m = 0 then .nan else .inf (s != t))
    else
      let k := 192 + bitLength n - bitLength m
      let q := m * 2 ^ k / n
      .fin (s != t) (sticky q (decide (m * 2 ^ k % n ≠ 0))) (e - f - k - 1)

/-- The floor of the square root, over the `n` low bits of the result. -/
def sqrtBits (t : Nat) : Nat → Nat → Nat
  | 0, r => r
  | n + 1, r => sqrtBits t n (if (r + 2 ^ n) * (r + 2 ^ n) ≤ t then r + 2 ^ n else r)

/-- The floor of the square root. -/
def natSqrt (t : Nat) : Nat := sqrtBits t (bitLength t / 2 + 1) 0

/-- Square root, to at least 192 bits and a rest bit; −0 gives −0 and a negative value NaN. -/
def numSqrt : Num → Num
  | .nan => .nan
  | .inf s => if s then .nan else .inf false
  | .fin s m e =>
    if m = 0 then .fin s 0 0
    else if s then .nan
    else
      let k : Nat := 400 + (e % 2).toNat
      let t := m * 2 ^ k
      let q := natSqrt t
      .fin false (sticky q (decide (q * q ≠ t))) ((e - k) / 2 - 1)

/-- Compare two finite or infinite values; `none` where one is a NaN. Zeros are equal. -/
def numCmp : Num → Num → Option Ordering
  | .nan, _ => none
  | _, .nan => none
  | .inf s, .inf t => some (compare (b2n (!s)) (b2n (!t)))
  | .inf s, .fin _ _ _ => some (if s then .lt else .gt)
  | .fin _ _ _, .inf t => some (if t then .gt else .lt)
  | .fin s m e, .fin t n f =>
    let b := min e f
    let x : Int := (if s then -1 else 1) * (shiftFloor m (e - b) : Int)
    let y : Int := (if t then -1 else 1) * (shiftFloor n (f - b) : Int)
    some (if x < y then .lt else if x = y then .eq else .gt)

/-- Is a value a negative zero? -/
def numNegZero : Num → Bool
  | .fin s m _ => s && decide (m = 0)
  | _ => false

/-- IEEE minimum: a NaN gives a NaN, −0 orders below +0 (R157). -/
def numMin (a b : Num) : Num :=
  match numCmp a b with
  | none => .nan
  | some .lt => a
  | some .gt => b
  | some .eq => if numNegZero a then a else b

/-- IEEE maximum (R157). -/
def numMax (a b : Num) : Num :=
  match numCmp a b with
  | none => .nan
  | some .gt => a
  | some .lt => b
  | some .eq => if numNegZero a then b else a

/-! ### The stochastic source (R164 to R167) -/

/-- The two 64-bit words of a stochastic source. -/
structure Src where
  s0 : Nat
  s1 : Nat
  deriving DecidableEq, Repr

/-- A draw: the output and the source after it (R164). -/
def draw (st : Src) : Nat × Src :=
  let x := st.s0 ^^^ (st.s0 * 2 ^ 23 % 2 ^ 64)
  ((st.s0 + st.s1) % 2 ^ 64, ⟨st.s1, x ^^^ st.s1 ^^^ (x / 2 ^ 18) ^^^ (st.s1 / 2 ^ 5)⟩)

/-- `n` bits of one word of the jump polynomial (R165): the source, and the words gathered. -/
def jumpBits : Nat → Nat → Src → Src → Src × Src
  | 0, _, st, acc => (st, acc)
  | n + 1, w, st, acc =>
    jumpBits n (w / 2) (draw st).2 (if w % 2 = 1 then ⟨acc.s0 ^^^ st.s0, acc.s1 ^^^ st.s1⟩ else acc)

/-- The jump: 2^64 draws onward (R165). -/
def jump (st : Src) : Src :=
  let a := jumpBits 64 0x8A5CD789635D2DFF st ⟨0, 0⟩
  (jumpBits 64 0x121FD2155C472F96 a.1 a.2).2

/-- mix64 (R166). -/
def mix64 (z : Nat) : Nat :=
  let a := (z ^^^ (z / 2 ^ 30)) * 0xBF58476D1CE4E5B9 % 2 ^ 64
  let b := (a ^^^ (a / 2 ^ 27)) * 0x94D049BB133111EB % 2 ^ 64
  b ^^^ (b / 2 ^ 31)

/-- lane0_state (R166). -/
def lane0 (jobSeed step tensor leaf domain : Nat) : Src :=
  let gamma := 0x9E3779B97F4A7C15
  let key := jobSeed ^^^ mix64 (step ^^^ mix64 ((tensor * 2 ^ 32 + leaf) ^^^ mix64 domain))
  ⟨mix64 ((key + gamma) % 2 ^ 64), mix64 ((key + 2 * gamma) % 2 ^ 64)⟩

/-- `n` lanes from a lane's state on, each one jump beyond the last (R167). -/
def lanesFrom : Nat → Src → List Src
  | 0, _ => []
  | n + 1, st => st :: lanesFrom n (jump st)

/-- The rounding of one draw (R162: u is bits 63:32). -/
def srOf (out : Nat) : Rnd := .sr (out / 2 ^ 32)

/-- Each of the first `n` lanes draws once, in ascending order (R168): the roundings, and the lanes after. -/
def drawLanes (n : Nat) (lanes : List Src) : List Rnd × List Src :=
  let ds := (lanes.take n).map draw
  (ds.map (fun d => srOf d.1), ds.map (·.2) ++ lanes.drop n)

end Sys2Proof.Machine
end

