-- ==== Sys2Proof/Machine/CoreState.lean ====
section
/-!
DEFINITION. What the die keeps of program sets (R134, Tables 5.5 to 5.7) and of the update cores (R117 to R133, R138 to
R141, R349).
-/

namespace Sys2Proof.Machine

/-! ### Program sets -/

/-- A directory entry (Table 5.6), with the marks of R136. -/
structure Prog where
  first : Nat
  length : Nat
  leafEntry : Nat
  preludeEntry : Nat
  budget : Nat
  preludeBudget : Nat
  nd : Bool
  tile : Bool
  deriving DecidableEq, Repr

/-- A class entry (Table 5.7). -/
structure ProgClass where
  first : Nat
  last : Nat
  prog : Nat
  phase : Nat
  param : Nat
  deriving DecidableEq, Repr

/-- An accepted program set (R134, R135): what the program store holds. -/
structure ProgSet where
  digest : Nat
  progs : List Prog
  classes : List ProgClass
  params : List (List Byte)
  bundles : List Nat
  deriving DecidableEq, Repr

/-! ### Update cores -/

/-- A loop in progress (R129): its first and last bundle, and the repeats left after the present one. -/
structure LoopSt where
  first : Nat
  last : Nat
  left : Nat
  deriving DecidableEq, Repr

/-- What the port A instruction of the present bundle writes when the bundle ends (R127): a vector register, a lane-mask
register, a tile accumulator, the lane format, or nothing. -/
inductive AWrite where
  | none
  | vec (d v : Nat)
  | mask (d v : Nat)
  | tile (i : Nat) (vals : List Nat)
  | mode (f : Nat)
  deriving DecidableEq, Repr

/-- A stream read issued and not yet served (R132): SRAM address, state-range offset, bytes. -/
structure Srd where
  dst : Nat
  off : Nat
  len : Nat
  deriving DecidableEq, Repr

/-- A leaf run or prelude run (R119, R126). -/
structure CoreRun where
  fn : Nat
  prelude : Bool
  cls : Nat
  /-- The member and row of the leaf. -/
  member : Nat
  row : Nat
  tensor : Nat
  leafIndex : Nat
  /-- The program within the code section (Table 5.6), and the entry the run starts at. -/
  first : Nat
  length : Nat
  entry : Nat
  /-- The bundle to issue next, as an index of the code section. -/
  pc : Nat
  /-- Tick at which the run started, and of the end of its window. -/
  start : Nat
  windowEnd : Nat
  /-- RUN_BUDGET or PRELUDE_BUDGET in cycles. -/
  budget : Nat
  /-- HALT has been executed. -/
  halted : Bool
  /-- A trap that asks for a restart: its code, 2 FETCH_UE or 3 DATA_UE, and the address in frame A or the gradient region
  whose slot must be decoded, if it is there. -/
  again : Option Nat
  decode : Option Nat
  /-- The run has met FETCH_UE, or DATA_UE (Table 5.8). -/
  fetchUe : Bool
  dataUe : Bool
  /-- The tick at which a pass abort left the run behind (R140). -/
  droppedAt : Option Nat
  /-- The port A instruction of the present bundle has issued, and what it writes. -/
  aDone : Bool
  aWrite : AWrite
  loops : List LoopSt
  /-- The earliest cycle at which the next bundle may issue, and the cycles from which registers may be read and units
  used again (R128, R129; keys: 0 s registers, 32 vector, 64 mask, 72 tiles, 80 units). -/
  cycle : Nat
  ready : Tab Nat
  /-- The last vst: its cycle, address, and the bytes it replaced (R129). -/
  lastStore : Option (Nat × Nat × List Byte)
  srds : List Srd
  /-- The planes of the leaf's format: frame offset, bytes, format byte; and the element bound (R122). -/
  planes : List (Nat × Nat × Nat)
  bound : Nat
  deriving DecidableEq, Repr

/-- A core's registers, lane sources, data SRAM and run (R117, R118). An absent register is zero. -/
structure CoreSt where
  s : Tab (BitVec 64) := []
  v : Tab (BitVec 1024) := []
  lm : Tab (BitVec 128) := []
  ta : Tab (List Nat) := []
  /-- The lane format's code. -/
  mode : Nat := 0
  lanes : List Src := []
  sram : Mem := []
  /-- The leaf the core serves, from its stream read to its group-seal arrival: function, area, member, row (R119). -/
  leaf : Option (Nat × Nat × Nat × Nat) := none
  run : Option CoreRun := none
  deriving DecidableEq, Repr

end Sys2Proof.Machine
end

