-- ==== Sys2Proof/Syntax.lean ====
section
/-!
DEFINITION. The commands of the block: one constructor of `Instr` for each row of the command table, with the operands that the
row's command carries. What reaches the die from outside travels in the operands: packets and line frames as bits, what the host or
another die answered to a read, and what a medium, sensor or checking circuit met.
-/
namespace Sys2Proof
/-- Who makes an access through the register window (R438): MF through physical function 0, the management controller
(MF's rights in every respect), or JFn through its own BAR. -/
inductive Source where
  | mf
  | mc
  | jf (n : Fin 64)
  deriving DecidableEq, Repr

/-- A fabric packet as bytes: its 32-byte header and its payload (R199). -/
structure Packet where
  hdr : List Byte
  payload : List Byte
  deriving DecidableEq, Repr

/-- What the host answered to a buffer read: its bytes, or none where the access failed (R370). -/
abbrev HostRead := Option (List Byte)

/-- The slots of one row as the group's members hold them, by member number: a slot's 65,536 bytes as read from that
member, or none where the member is lost or does not answer (R58). This die's own slot is read from its own memory. -/
abbrev RowImages := List (Option (List Byte))

/-- The slots of one row of an area and generation. -/
structure RowOf where
  area : Nat
  gen : Nat
  row : Nat
  images : RowImages
  deriving DecidableEq, Repr

/-- The rows whose other slots an action may have to read. -/
abbrev RowSet := List RowOf

/-- A wheel entry in its turn (R182): the function, the slice, the entry's number in the slice's section, and the turn u. -/
structure ActAt where
  fn : Fin 64
  slice : Fin 16
  entry : Nat
  turn : Nat
  deriving DecidableEq, Repr

/-- An action on an absorbed row (R278): the function, the absorbed member, the row, and the core that works it. -/
structure AbsAt where
  fn : Fin 64
  member : Fin 16
  row : Nat
  core : Fin 32
  deriving DecidableEq, Repr

/-- A queue error met by the packet on its way (R337, Table 12.5): none, a bad header word, a bad payload word, or a bad
pointer of the queue, which flushes it. -/
inductive Upset where
  | none | header | payload | pointer
  deriving DecidableEq, Repr

/-- What the checking hardware meets while a core issues an instruction (Table 5.8): nothing, one or two successive residue
mismatches (R138), an uncorrectable program SRAM word, or an uncorrectable data SRAM word at an address. -/
inductive CoreErr where
  | none
  | residueOnce
  | residueTwice
  | fetchUe
  | dataUe (addr : Nat)
  deriving DecidableEq, Repr

/-- What a code block of the deep tier holds (Table 12.2): a member's slot of a coded area, with the byte of the slot that data
line 0 is; a working copy of a leaf, by tensor and leaf index; the private reserve, with whether the line reads good in its other
copy; a spare block of a remap table; or no frame. -/
inductive BlockOwner where
  | slot (fn member area gen row at_ : Nat)
  | copy (fn tensor leaf : Nat)
  | reserve (other : Bool)
  | spare
  | none
  deriving DecidableEq, Repr

/-- What a near-tier line belongs to (Table 12.4): a function's landing area or park region, the row list of one of its layer
windows, an intent-ledger entry of a core's ring, a near-resident state page with what the line holds, a before-image in the
push area by its place in the order of pushes, or window contents after a fill. -/
inductive NearRegion where
  | landing (fn : Fin 64)
  | rowList (fn : Fin 64)
  | ledger (slice : Fin 16) (core : Fin 32) (entry : Fin 4096)
  | page (owner : BlockOwner)
  | push (i : Nat)
  | window
  deriving DecidableEq, Repr

/-- The results of a run that an audit compares (R350): BODY_DIGEST, FORMAT_EXT and trap status, and the first body line whose
line CRC differs from the original's. -/
structure AuditRes where
  digest : Nat
  ext : List Byte
  trap : Nat
  line : Nat
  deriving DecidableEq, Repr

/-- Where an instruction issues: the slice and core, and what the checking hardware meets. -/
structure Issue where
  slice : Fin 16
  core : Fin 32
  err : CoreErr
  deriving DecidableEq, Repr

/-- The fields of an instruction word of form V (Table 5.3). -/
structure VForm where
  d : Fin 32
  a : Fin 32
  b : Fin 32
  c : Fin 32
  mask : Fin 8
  rnd : Bool
  deriving DecidableEq, Repr

/-- The fields of an instruction word of form M (Table 5.3). -/
structure MForm where
  v : Fin 32
  s : Fin 32
  fmt : Fin 16
  bs : Bool
  mask : Fin 8
  inc : Bool
  rnd : Bool
  deriving DecidableEq, Repr

/-- The fields of an instruction word of form I (Table 5.3). -/
structure IForm where
  d : Fin 32
  a : Fin 32
  imm : BitVec 14
  deriving DecidableEq, Repr

/-- The fields of an instruction word of form L (Table 5.3). -/
structure LForm where
  d : Fin 32
  imm : BitVec 19
  deriving DecidableEq, Repr

/-- The fields of an instruction word of form J (Table 5.3). -/
structure JForm where
  s : Fin 32
  target : BitVec 14
  deriving DecidableEq, Repr

/-- The postmark fields of a decoded leaf that its row does not tell and its old manifest does: FORMAT, ELEM_OFFSET and
ELEM_COUNT (R321). -/
structure DecodedMark where
  format : Nat
  elemOffset : Nat
  elemCount : Nat
  deriving DecidableEq, Repr

/-- How a stop is asked for: a write of LY_FNn_CTRL.STOP, or the post-box command (R359). -/
inductive StopBy where
  | register (src : Source)
  | command
  deriving DecidableEq, Repr

/-- A Bugle arrives as a TC0 packet or as a frame of the line (R238); `fails` are the floor blocks that fail to program. -/
inductive BugleIn where
  | packet (p : Packet)
  | frame (w : BitVec 64) (fails : List Nat)
  deriving DecidableEq, Repr

/-- Who asks for a chip reset (Table 15.4). -/
inductive ResetBy where
  | host | mf | pll | management
  deriving DecidableEq, Repr

/-- The code of a reset request in LY_CLKPWR_RESET_CAUSE. -/
def ResetBy.code : ResetBy → Nat
  | .host => 2
  | .mf => 3
  | .pll => 4
  | .management => 5

/-- A required refresh rate (R178). -/
inductive Rate where
  | x1 | x2 | x4
  deriving DecidableEq, Repr

/-- The factor of a rate. -/
def Rate.times : Rate → Nat
  | .x1 => 1
  | .x2 => 2
  | .x4 => 4

/-- The commands of the block (spec/opcode_table.json, in its order). -/
inductive Instr where
  /-- LOAD_MANIFEST (R31): post-box command that checks a manifest whole and stages it for the next restart. -/
  | loadManifest (n : Fin 64) (b : HostRead)
  /-- LOAD_PROGRAMS (R135): post-box command that checks a program set image and writes it to the function's program regions and the program store. -/
  | loadPrograms (n : Fin 64) (b : HostRead)
  /-- LOAD_WHEEL (R184): post-box command that checks a wheel image and keeps it for the next restart. -/
  | loadWheel (n : Fin 64) (b : HostRead)
  /-- LOAD_LEAVES (R454): post-box command that is accepted while STOPPED and joins the load pass that writes leaves from a host buffer. -/
  | loadLeaves (n : Fin 64) (b : HostRead)
  /-- MIGRATE (R34): post-box command that starts moving one state-range page between the deep and near tiers. -/
  | migrate (n : Fin 64)
  /-- VERIFY_ROWS (R62): post-box command that verifies a range of stripe rows against their pigeonholes in management slots. -/
  | verifyRows (n : Fin 64)
  /-- SET_OWNERSHIP (R215): post-box command that writes the function's ownership table. -/
  | setOwnership (n : Fin 64) (b : HostRead)
  /-- ROUTE_LOAD (R372): post-box command that writes the current route-map generation whole while STOPPED. -/
  | routeLoad (n : Fin 64) (b : HostRead)
  /-- ROUTE_STAGE (R218): post-box command that writes the other route-map generation and names its switch seal. -/
  | routeStage (n : Fin 64) (b : HostRead)
  /-- SAVE_CONTEXT (R373): post-box command that writes the 64-byte context record to a host buffer. -/
  | saveContext (n : Fin 64)
  /-- RESTORE_CONTEXT (R373): post-box command that checks a context record against the retained state and changes nothing. -/
  | restoreContext (n : Fin 64) (b : HostRead)
  /-- STOP (R359): post-box command or CTRL.STOP write that arms a stop at the step seal of a named step. -/
  | stop (n : Fin 64) (by_ : StopBy)
  /-- FIFE_COLLECTIVE (R224): post-box command that opens the software collective in slot offset 7. -/
  | fifeCollective (n : Fin 64) (b : HostRead)
  /-- DECLARE_FAILED (R267): post-box command that makes the keeper declare a member FAILED without confirmers. -/
  | declareFailed (n : Fin 64) (room : Bool)
  /-- EVACUATE (R282): post-box command that sends EVAC_REQ to the keeper at once. -/
  | evacuate (n : Fin 64) (room : Bool)
  /-- REJOIN (R284): post-box command on a fenced die that sends REJOIN_REQ to the keeper. -/
  | rejoin (n : Fin 64)
  /-- CONTRACT (R287): post-box command that lowers the expected contribution counts of buckets from the next intake. -/
  | contract (n : Fin 64) (b : HostRead)
  /-- RESHARD (R289): post-box command that checks a re-shard plan and arms it for the next step seal. -/
  | reshard (n : Fin 64) (b : HostRead)
  /-- SNAPSHOT (R302): post-box command that requests a floor snapshot at the step seal of a named step. -/
  | snapshot (n : Fin 64)
  /-- FLOOR_FORMAT (R299): MF-only command that erases every floor band and starts a new catalog. -/
  | floorFormat (n : Fin 64) (fails : List Nat)
  /-- FLOOR_LIST (R372): post-box command that copies the three catalog parts to a host buffer. -/
  | floorList (n : Fin 64)
  /-- RELOAD (R320): post-box command that checks a re-slice plan and starts a reload as source or target. -/
  | reload (n : Fin 64) (b : HostRead)
  /-- CLEAR_REMAP (R342): MF-only command that clears remap table entries of one channel. -/
  | clearRemap (n : Fin 64)
  /-- TWIN_REPORT (R435): post-box command that writes the 256-byte twin mismatch report to a host buffer. -/
  | twinReport (n : Fin 64)
  /-- NVM_STORE (R384): MF command that captures the named items and appends one configuration record for each. -/
  | nvmStore (n : Fin 64)
  /-- NVM_CLEAR (R384): MF command that writes a clear record for each named item. -/
  | nvmClear (n : Fin 64)
  /-- LOG_READ (R387): MF command that copies log records to a host buffer. -/
  | logRead (n : Fin 64)
  /-- FW_DOWNLOAD (R392): MF command that writes one 4 KiB firmware chunk into the inactive slot. -/
  | fwDownload (n : Fin 64) (b : HostRead)
  /-- FW_VERIFY (R393): MF command that checks the downloaded slot and records it VERIFIED with its digest. -/
  | fwVerify (n : Fin 64)
  /-- FW_ACTIVATE (R394): MF command that loads a verified image into the inactive banks and arms the switch. -/
  | fwActivate (n : Fin 64)
  /-- FW_CONFIRM (R397): MF command that confirms the trial image in one boot-record write. -/
  | fwConfirm (n : Fin 64)
  /-- FW_ABANDON (R396): MF command that ends an activation or trial and returns to the old image. -/
  | fwAbandon (n : Fin 64)
  /-- KEY_ADD (R388): MF command that fills an empty key slot from a signed key record. -/
  | keyAdd (n : Fin 64) (b : HostRead)
  /-- KEY_REVOKE (R388): MF command that makes a key slot REVOKED. -/
  | keyRevoke (n : Fin 64)
  /-- COMMAND_FETCH (R368): completion of copying one command entry from the host ring into the on-chip command queue. -/
  | commandFetch (n : Fin 64) (entry : HostRead)
  /-- START (R358): write of LY_FNn_CTRL.START that applies staged values and runs the restart checks. -/
  | start (src : Source) (n : Fin 64)
  /-- RESET (R362): function reset of a job function by CTRL.RESET, raising a drain. -/
  | reset (src : Source) (n : Fin 64)
  /-- FUNCTION_LEVEL_RESET (R362): PCIe function-level reset of a function's PCIe function. -/
  | functionLevelReset (n : Fin 64)
  /-- ENABLE_BIT_SET (R357): MF write of 1 to a job function's enable bit. -/
  | enableBitSet (src : Source) (n : Fin 64)
  /-- ENABLE_BIT_CLEAR (R357): MF write of 0 to a job function's enable bit, or an SR-IOV VF disable. -/
  | enableBitClear (src : Source) (n : Fin 64)
  /-- VF_ENABLE_CHANGE (R353): change of VF Enable or NumVFs in the SR-IOV capability, acting as enable-bit writes. -/
  | vfEnableChange (k : Fin 64)
  /-- DOORBELL (R368): write to LY_FNn_CMD_TAIL that admits command entries for fetching. -/
  | doorbell (src : Source) (n : Fin 64) (v : BitVec 32)
  /-- ARM (R367): write of PB_CTRL.ARM = 1 that arms the post box. -/
  | arm (src : Source) (n : Fin 64)
  /-- DISARM (R370): write of PB_CTRL.ARM = 0 that disarms the post box. -/
  | disarm (src : Source) (n : Fin 64)
  /-- HOST_LINK_DOWN (R370): host hot reset or link-down that disarms every post box. -/
  | linkDown
  /-- LAUNCH (R174): write of LY_WHEEL_CTRL.LAUNCH that starts echo exchanges and waits for a beacon. -/
  | launch (src : Source)
  /-- SET (R175): write of LY_WHEEL_CTRL.SET that loads the counter from COUNTER_SET. -/
  | setCounter (src : Source)
  /-- LEN_LOG2 (R196): write of the wheel length exponent, ignored with LOCK_VIOLATION while functions run. -/
  | lenLog2 (src : Source) (v : Fin 16)
  /-- ADJ (R176): write of LY_WHEEL_COUNTER_ADJ.ADJ that adds a signed correction to PENDING. -/
  | adj (src : Source) (v : BitVec 16)
  /-- RETRAIN (R249): write of LY_FIFE_CTRL.RETRAIN that starts a hunt now. -/
  | retrain (src : Source)
  /-- BUGLE (R237): write of LY_FNn_FIFE_CTRL.BUGLE that sounds Bugle with cause SOFTWARE. -/
  | bugle (src : Source) (n : Fin 64)
  /-- GATE (R403): write of 1 to a bit of LY_CLKPWR_GATE.SL that gates an unused slice. -/
  | gate (src : Source) (sl : Fin 16)
  /-- UNGATE (R404): write of 0 to a bit of LY_CLKPWR_GATE.SL that powers and initialises a slice. -/
  | ungate (src : Source) (sl : Fin 16)
  /-- SLICE_GATED (R403): completion of gating a slice domain. -/
  | sliceGated (sl : Fin 16)
  /-- SLICE_UNGATED (R404): completion of ungating a slice, after its SRAMs and programs are restored. -/
  | sliceUngated (sl : Fin 16)
  /-- REGION_RESET (R409): write of a LY_CLKPWR_RESET.REGION bit that resets the region's slices and crossbar queues. -/
  | regionReset (src : Source) (q : Fin 4)
  /-- SLICE_RESET (R407): write of a LY_CLKPWR_RESET.SLICE bit that resets one slice. -/
  | sliceReset (src : Source) (sl : Fin 16)
  /-- POSITION (R411): MF write of LY_CLKPWR_POSITION that fixes the die's endpoint. -/
  | position (src : Source) (v : BitVec 32)
  /-- READ_RAW (R343): checker operation that reads a code block into the buffer without correction. -/
  | readRaw (src : Source) (sl : Fin 16) (raw : List Byte) (owner : BlockOwner)
  /-- WRITE_RAW (R343): checker operation that writes the buffer into a code block unchanged. -/
  | writeRaw (src : Source) (sl : Fin 16) (raw : List Byte) (owner : BlockOwner)
  /-- READ_DECODED (R343): checker operation that reads a code block with correction and reports the symbols corrected. -/
  | readDecoded (src : Source) (sl : Fin 16) (raw : List Byte) (owner : BlockOwner)
  /-- WATCH_LOG_CLEAR (R341): write of LY_DRONE_LOG_STATUS.CLEAR that empties the watch log. -/
  | watchLogClear (src : Source)
  /-- CLEAR_COUNTS (R445): write of PAGE_CTRL.CLEAR_COUNTS that clears every RC field of the page in one clock. -/
  | clearCounts (src : Source) (page : BitVec 12)
  /-- LOCK (R444): first write of a page's LOCK register, which fixes LOCKED until the owning reset. -/
  | lock (src : Source) (page : BitVec 12) (v : Bool)
  /-- PUSH_AREA (R306): write of LY_FLOOR_PUSH_AREA, refused on overlap or during a sweep. -/
  | pushArea (src : Source) (v : BitVec 32)
  /-- REMAP (R342): write of a remap entry that copies a block into its spare and redirects its accesses. -/
  | remap (src : Source) (ch : Fin 64) (entry : Fin 16) (v : BitVec 32)
  /-- INT_FORCE (R376): write of INT_FORCE that sets INT_STATUS bits and may request an interrupt. -/
  | intForce (src : Source) (page : BitVec 12) (v : BitVec 32)
  /-- REGISTER_WRITE (R12): write to a register field without a row of its own, by its access type. -/
  | registerWrite (src : Source) (off : BitVec 24) (v : BitVec 32) (whole : Bool)
  /-- READ_CLEAR (R15): read of a register with RC fields that returns and clears them. -/
  | readClear (src : Source) (off : BitVec 24)
  /-- LATCHED_READ (R437): read of a LO register that loads the reader's HI latch. -/
  | latchedRead (src : Source) (off : BitVec 24)
  /-- LANDING_PACKET (R99): arrival of a DATA landing packet, classified and applied, parked or dropped. -/
  | landingPacket (p : Packet) (u : Upset)
  /-- PROBE (R107): arrival of a PROBE landing packet that counts at the probe seal. -/
  | probe (p : Packet) (u : Upset)
  /-- BANK_LINE_UPDATE (R101): A landing bank applies one queued line update to its FX96 accumulators. -/
  | bankLineUpdate (sl : Fin 16) (bank : Fin 16)
  /-- PARK_REPLAY (R102): replay of parked packets once their condition clears. -/
  | parkReplay (n : Fin 64)
  /-- FOLD (R72): arrival of a FOLD packet, folded into the row's mailbag buffer, held or refused. -/
  | fold (p : Packet) (u : Upset)
  /-- NULL_DELTA (R72): arrival of a null delta, which completes a contribution, or of a drain close. -/
  | nullDelta (p : Packet) (u : Upset)
  /-- HELD_ROW_RELEASE (R208): A released mailbag buffer is taken by the oldest held row and its held packets fold. -/
  | heldRowRelease (sl : Fin 16)
  /-- RECEIPT (R74): arrival of a RECEIPT, recorded against the owner's wait or binned. -/
  | receipt (p : Packet) (badHeader : Bool)
  /-- RESEND (R206): resend of a packet named in a resend receipt, after its delay expires. -/
  | resend
  /-- LEAF_PUT (R205): arrival of a LEAF_PUT part written into the staging of its slot. -/
  | leafPut (p : Packet) (u : Upset)
  /-- LOAD (R202): arrival of a memory-form LOAD, answered with LOAD_DATA. -/
  | loadMem (p : Packet) (u : Upset) (via : Option (Fin 16)) (rows : RowSet) (readable : Bool)
  /-- STORE (R202): arrival of a memory-form STORE to the state range, seal window or register window. -/
  | storeMem (p : Packet) (u : Upset)
  /-- FETCH_ADD (R202): arrival of a FETCH_ADD atomic, applied and answered with ATOMIC_DATA. -/
  | fetchAdd (p : Packet) (u : Upset)
  /-- COMPARE_SWAP (R202): arrival of a COMPARE_SWAP atomic, applied and answered with ATOMIC_DATA. -/
  | compareSwap (p : Packet) (u : Upset)
  /-- LOAD_DATA (R201): arrival of a LOAD_DATA response, matched to its request by TAG. -/
  | loadData (p : Packet) (u : Upset)
  /-- ATOMIC_DATA (R201): arrival of an ATOMIC_DATA response, matched to its request by TAG. -/
  | atomicData (p : Packet) (u : Upset)
  /-- EGRESS_ARBITRATION (R210): the egress arbiter picks the next packet to send among the traffic classes. -/
  | egressArbitration
  /-- LINK_FLOW_CONTROL (R211): XOFF or XON for a traffic class arrives from the host links. -/
  | linkFlowControl (tc : Fin 8) (xoff : Bool)
  /-- LANE_COUNT_CHANGE (R222): A link's lane count changes, and the port rate is recomputed. -/
  | laneCountChange (link : Fin 32) (code : Fin 16)
  /-- SHADOW_RETIRE (R220): the shadow route generation retires after its grace time expires. -/
  | shadowRetire (n : Fin 64)
  /-- FIFE_OPEN (R240): arrival of an OPEN message from a tree child, combined and passed up. -/
  | fifeOpen (p : Packet)
  /-- FIFE_ACK (R234): arrival of an ACK that delivers a contribution or arrival. -/
  | fifeAck (p : Packet)
  /-- RESULT (R227): arrival of a collective result, which closes the barrier or reduction at the participant. -/
  | result (p : Packet)
  /-- RECOVERY_DONE (R91): recovery ends and the member arrives at the resume barrier. -/
  | recoveryDone (n : Fin 64) (rows : RowSet)
  /-- BUGLE_PACKET (R238): arrival of a Bugle on TC0 or the line, acted on when current and forwarded. -/
  | buglePacket (b : BugleIn)
  /-- HEARTBEAT_PACKET (R264): arrival of a heartbeat from a watched die, which marks it LIVE. -/
  | heartbeatPacket (p : Packet)
  /-- COUNTS (R235): arrival of a COUNTS report or request of a counts-first exchange. -/
  | counts (p : Packet)
  /-- COUNTS_SEND (R235): A participant sends its COUNTS packet at its scheduled counter value. -/
  | countsSend (n : Fin 64) (j : Fin 64)
  /-- COUNTS_TIMEOUT (R235): A participant lacking counts sends a COUNTS request after its timeout. -/
  | countsTimeout (n : Fin 64)
  /-- PATH_DOWN (R241): arrival of PATH_DOWN, which moves the function's collectives to the TC0 tree. -/
  | pathDown (p : Packet)
  /-- FRAME (R248): A line frame is received and drives the lock states. -/
  | frame (w : BitVec 64) (fails : List Nat)
  /-- PHASE (R252): arrival of the hub's PHASE frame, which may change the die's phase. -/
  | phase (w : BitVec 64) (fails : List Nat)
  /-- ECHO_RSP (R253): arrival of an echo response during a launch, measuring the round trip. -/
  | echoRsp (w : BitVec 64) (fails : List Nat)
  /-- BEACON (R253): arrival of a BEACON pair that loads the counter during a launch. -/
  | beacon (w : BitVec 64) (fails : List Nat)
  /-- HEARTBEAT (R254): arrival of a hub HEARTBEAT frame, compared with the counter for drift. -/
  | heartbeat (w : BitVec 64) (fails : List Nat)
  /-- POWER_WARN (R252): arrival of a POWER WARN frame that starts HOLD. -/
  | powerWarn (w : BitVec 64) (fails : List Nat)
  /-- POWER_CANCEL (R318): arrival of POWER CANCEL with PFAIL_N deasserted, ending HOLD. -/
  | powerCancel (w : BitVec 64) (fails : List Nat)
  /-- LOOP (R256): arrival of a TEST LOOP frame, echoed back. -/
  | testLoop (w : BitVec 64) (fails : List Nat)
  /-- PATTERN (R256): arrival of a TEST PATTERN frame, checked against its predecessor. -/
  | testPattern (w : BitVec 64) (fails : List Nat)
  /-- SCAN (R256): arrival of a TEST SCAN frame, answered and loaded into LY_FIFE_SCAN. -/
  | testScan (w : BitVec 64) (fails : List Nat)
  /-- MESSAGE_REPEAT (R251): A line message is repeated after 64 frames without an ACK. -/
  | messageRepeat
  /-- HUNT_EXPIRY (R249): A hunt ends without lock and the line becomes FIFE_DOWN. -/
  | huntExpiry
  /-- HUNT_RETRY (R249): A new hunt starts each second while the line is FIFE_DOWN. -/
  | huntRetry
  /-- LAUNCH_TIMEOUT (R174): no beacon within 100 ms of LAUNCH, so the launch fails. -/
  | launchTimeout
  /-- COUNTER_CORRECTION (R173): A pending counter correction is applied in a guard slot. -/
  | counterCorrection
  /-- READOUT (R106): wheel action that rounds a sealed bucket's accumulators out to FP32. -/
  | readout (k : ActAt)
  /-- GCOMMIT (R125): wheel action that commits a gradient leaf's postmark and scaled images. -/
  | gcommit (k : ActAt)
  /-- GWRITE (R68): wheel action that writes the gradient leaf to the deep tier. -/
  | gwrite (k : ActAt)
  /-- GSEND (R68): wheel action that sends gradient contributions or null deltas to the holders. -/
  | gsend (k : ActAt)
  /-- GHOLD (R73): wheel action that writes a complete gradient pigeonhole and sends receipts. -/
  | ghold (k : ActAt)
  /-- PRELUDE (R126): wheel action that runs a class's prelude to fill its step area. -/
  | prelude (k : ActAt)
  /-- LREAD (R75): wheel action that streams a leaf and its gradient section into a core. -/
  | lread (k : ActAt) (bad : Bool) (imgs : RowSet)
  /-- RUN (R119): wheel action that starts a leaf run in its run window. -/
  | run (k : ActAt)
  /-- SRD_ACTION (R132): wheel action that serves a run's stream reads. -/
  | srdAction (k : ActAt) (imgs : RowSet)
  /-- REG (R75): wheel action that registers a delta in the intent ledger. -/
  | reg (k : ActAt)
  /-- SEND (R75): wheel action that sends deltas or null deltas to the holders. -/
  | send (k : ActAt)
  /-- LWRITE (R75): wheel action that writes the leaf once every receipt is held and clears the intent. -/
  | lwrite (k : ActAt)
  /-- EMIT (R36): wheel action that emits the working copy and arrives at the group-seal object. -/
  | emit (k : ActAt)
  /-- HOLD (R73): wheel action that reads, folds and writes a complete state pigeonhole and sends receipts. -/
  | hold (k : ActAt) (imgs : RowSet)
  /-- FILL (R37): wheel action that fills a layer window or gathers rows. -/
  | fill (k : ActAt)
  /-- MGMT (R183): wheel action that reserves controller-pair bandwidth for management traffic. -/
  | mgmt (k : ActAt)
  /-- STALL_WATCHDOG (R111): A readout hold reaches STALL_LIMIT and posts a watchdog event. -/
  | stallWatchdog (n : Fin 64)
  /-- GRADIENT_SEAL (R65): every bucket is safe and the scalar partials are delivered. -/
  | gradientSeal (n : Fin 64)
  /-- PASS_START (R64): the pass schedule begins at the first wheel-turn start after C plus the margin. -/
  | passStart (n : Fin 64)
  /-- RERUN_START (R93): A re-run pass begins after the resume barrier closes plus the margin. -/
  | rerunStart (n : Fin 64)
  /-- INTAKE_START (R187): turn 0 of a step's intake schedule begins at a counter turn start. -/
  | intakeStart (n : Fin 64)
  /-- LOAD_PASS_START (R456): the load pass begins at its counter turn start after the start barrier or start value. -/
  | loadPassStart (n : Fin 64)
  /-- RUN_WINDOW_END (R123): A run window ends and the commit sequence forms the digest and delta. -/
  | runWindowEnd (core : Fin 512)
  /-- RUN_BUDGET_EXPIRY (R139): RUN_BUDGET or PRELUDE_BUDGET cycles pass without HALT: BUDGET trap. -/
  | runBudgetExpiry (core : Fin 512)
  /-- RUN_RESTART (R139): A run restarts at the next slot boundary after FETCH_UE or DATA_UE. -/
  | runRestart (core : Fin 512) (imgs : RowSet)
  /-- FABRIC_TIMEOUT (R133): A fabric instruction that is not complete after 10 µs returns zero. -/
  | fabricTimeout (sl : Fin 16) (core : Fin 32)
  /-- NOP (R127): instruction that does nothing in its port. -/
  | nop (at_ : Issue) (portB : Bool) (rest : BitVec 24)
  /-- VADD (R128): vector add. -/
  | vadd (at_ : Issue) (f : VForm)
  /-- VSUB (R128): vector subtract. -/
  | vsub (at_ : Issue) (f : VForm)
  /-- VMUL (R128): vector multiply. -/
  | vmul (at_ : Issue) (f : VForm)
  /-- VFMA (R128): vector fused multiply-add. -/
  | vfma (at_ : Issue) (f : VForm)
  /-- VFNMA (R128): vector fused negative multiply-add. -/
  | vfnma (at_ : Issue) (f : VForm)
  /-- VMIN (R157): vector lanewise minimum. -/
  | vmin (at_ : Issue) (f : VForm)
  /-- VMAX (R157): vector lanewise maximum. -/
  | vmax (at_ : Issue) (f : VForm)
  /-- VDIV (R128): vector correctly rounded divide. -/
  | vdiv (at_ : Issue) (f : VForm)
  /-- VSQRT (R128): vector correctly rounded square root. -/
  | vsqrt (at_ : Issue) (f : VForm)
  /-- VABS (R128): vector absolute value. -/
  | vabs (at_ : Issue) (f : VForm)
  /-- VNEG (R128): vector negate. -/
  | vneg (at_ : Issue) (f : VForm)
  /-- VSIGN (R128): vector sign. -/
  | vsign (at_ : Issue) (f : VForm)
  /-- VSEL (R128): vector select by lane mask. -/
  | vsel (at_ : Issue) (f : VForm)
  /-- VCMP (R128): vector compare into a lane-mask register. -/
  | vcmp (at_ : Issue) (f : VForm)
  /-- VCVT (R156): vector round to a named format, keeping the lane format. -/
  | vcvt (at_ : Issue) (f : VForm)
  /-- VSPLAT (R128): broadcast a scalar register into every lane. -/
  | vsplat (at_ : Issue) (f : VForm)
  /-- VPOWI (R130): vector binary exponentiation by a scalar exponent. -/
  | vpowi (at_ : Issue) (f : VForm)
  /-- VRSUM (R130): vector pairwise tree reduction into lane 0. -/
  | vrsum (at_ : Issue) (f : VForm)
  /-- VMODE (R128): set the lane format for later bundles. -/
  | vmode (at_ : Issue) (f : VForm)
  /-- VXOR (R128): vector bitwise XOR. -/
  | vxor (at_ : Issue) (f : VForm)
  /-- VGFMUL (R347): GF(2^8) multiply of every byte by a scalar, with parity prediction. -/
  | vgfmul (at_ : Issue) (f : VForm)
  /-- VGFMAC (R347): GF(2^8) multiply-accumulate of every byte, with parity prediction. -/
  | vgfmac (at_ : Issue) (f : VForm)
  /-- TZERO (R131): zero a tile accumulator, or raise UNIMPL without tiles. -/
  | tzero (at_ : Issue) (f : VForm)
  /-- TMMA (R131): 8×8 tile matrix multiply-accumulate, or raise UNIMPL without tiles. -/
  | tmma (at_ : Issue) (f : VForm)
  /-- TRD (R131): read four rows of a tile accumulator into a vector register. -/
  | trd (at_ : Issue) (f : VForm)
  /-- VLD (R122): vector load with conversion and the element guard. -/
  | vld (at_ : Issue) (f : MForm)
  /-- VST (R122): vector store with conversion and the element guard. -/
  | vst (at_ : Issue) (f : MForm)
  /-- VLDB (R128): broadcast a 4-byte element into all lanes. -/
  | vldb (at_ : Issue) (f : IForm)
  /-- SLD (R128): scalar 8-byte load. -/
  | sld (at_ : Issue) (f : IForm)
  /-- SLDW (R128): scalar 4-byte zero-extending load. -/
  | sldw (at_ : Issue) (f : IForm)
  /-- SST (R128): scalar 8-byte store. -/
  | sst (at_ : Issue) (f : IForm)
  /-- SLI (R128): load a zero-extended immediate. -/
  | sli (at_ : Issue) (f : LForm)
  /-- SLIH (R128): load an immediate shifted left by 16. -/
  | slih (at_ : Issue) (f : LForm)
  /-- SADD (R128): scalar INT64 add. -/
  | sadd (at_ : Issue) (f : VForm)
  /-- SADDI (R128): scalar INT64 add immediate. -/
  | saddi (at_ : Issue) (f : IForm)
  /-- SSUB (R128): scalar INT64 subtract. -/
  | ssub (at_ : Issue) (f : VForm)
  /-- SMUL (R128): scalar INT64 multiply. -/
  | smul (at_ : Issue) (f : VForm)
  /-- SAND (R128): scalar bitwise AND. -/
  | sand (at_ : Issue) (f : VForm)
  /-- SANDI (R128): scalar bitwise AND immediate. -/
  | sandi (at_ : Issue) (f : IForm)
  /-- SOR (R128): scalar bitwise OR. -/
  | sor (at_ : Issue) (f : VForm)
  /-- SXOR (R128): scalar bitwise XOR. -/
  | sxor (at_ : Issue) (f : VForm)
  /-- SSHL (R128): scalar shift left. -/
  | sshl (at_ : Issue) (f : VForm)
  /-- SSHR (R128): scalar logical shift right. -/
  | sshr (at_ : Issue) (f : VForm)
  /-- SFADD_D (R128): scalar FP64 add. -/
  | sfaddD (at_ : Issue) (f : VForm)
  /-- SFMUL_D (R128): scalar FP64 multiply. -/
  | sfmulD (at_ : Issue) (f : VForm)
  /-- SFFMA_D (R128): scalar FP64 fused multiply-add. -/
  | sffmaD (at_ : Issue) (f : VForm)
  /-- SFDIV_D (R128): scalar FP64 divide. -/
  | sfdivD (at_ : Issue) (f : VForm)
  /-- SFSQRT_D (R128): scalar FP64 square root. -/
  | sfsqrtD (at_ : Issue) (f : VForm)
  /-- SFCVT (R156): scalar conversion between FP32 and FP64. -/
  | sfcvt (at_ : Issue) (f : VForm)
  /-- SFMUL_S (R128): scalar FP32 multiply. -/
  | sfmulS (at_ : Issue) (f : VForm)
  /-- SFADD_S (R128): scalar FP32 add. -/
  | sfaddS (at_ : Issue) (f : VForm)
  /-- BR (R129): unconditional branch. -/
  | br (at_ : Issue) (f : JForm)
  /-- BZ (R129): branch if the scalar register is zero. -/
  | bz (at_ : Issue) (f : JForm)
  /-- BNZ (R129): branch if the scalar register is non-zero. -/
  | bnz (at_ : Issue) (f : JForm)
  /-- BNEG (R129): branch if the scalar register is negative. -/
  | bneg (at_ : Issue) (f : JForm)
  /-- LOOP_INSTRUCTION (R129): repeat the following bundles a scalar count of times. -/
  | loop (at_ : Issue) (f : JForm)
  /-- HALT (R123): end the run. -/
  | halt (at_ : Issue) (f : JForm)
  /-- TRAP (R139): raise the SOFT trap with a code. -/
  | trap (at_ : Issue) (f : JForm)
  /-- SRD (R132): stream read from the state range into the gradient or scratch region. -/
  | srd (at_ : Issue) (f : VForm)
  /-- SWAIT (R128): wait until every stream read of the run completes. -/
  | swait (at_ : Issue) (f : JForm)
  /-- PMRD (R128): read a word of frame A's postmark. -/
  | pmrd (at_ : Issue) (f : IForm)
  /-- PMWX (R128): write a FORMAT_EXT word of frame B. -/
  | pmwx (at_ : Issue) (f : IForm)
  /-- STIME (R133): read the global counter (ND). -/
  | stime (at_ : Issue) (f : LForm)
  /-- FLD (R133): fabric 8-byte load over TC6 (ND). -/
  | fld (at_ : Issue) (f : VForm)
  /-- FST (R216): fabric 8-byte store over TC6, checked by ownership. -/
  | fst (at_ : Issue) (f : VForm)
  /-- FADD (R133): fabric fetch-add (ND). -/
  | fadd (at_ : Issue) (f : VForm)
  /-- FCAS (R133): fabric compare-swap (ND). -/
  | fcas (at_ : Issue) (f : VForm)
  /-- FWAIT (R128): wait until every fabric instruction of the run completes. -/
  | fwait (at_ : Issue) (f : JForm)
  /-- INTENT_REGISTERED (R75): the near-tier intent write is acknowledged and the delta may be sent. -/
  | intentRegistered (n : Fin 64) (member : Fin 16) (row : Nat)
  /-- DEEP_READ_COMPLETE (R327): A deep-tier line read completes and is decoded by the line code. -/
  | deepReadComplete (ch : Fin 64) (block : BitVec 23) (raw : List Byte) (owner : BlockOwner)
  /-- DEEP_WRITE_COMPLETE (R77): A deep-tier leaf or pigeonhole write completes. -/
  | deepWriteComplete (sl : Fin 16)
  /-- NEAR_READ_COMPLETE (R336): A near-tier read returns corrected data or an uncorrectable indication. -/
  | nearReadComplete (region : NearRegion) (uncorrectable : Bool) (imgs : RowImages)
  /-- CHANNEL_RESUME (R331): A halted channel finishes its handling and resumes. -/
  | channelResume (ch : Fin 64) (raw : List Byte) (imgs : RowImages)
  /-- CE_WRITEBACK (R340): A corrected block is written back in a free controller-pair slot. -/
  | ceWriteback (ch : Fin 64) (block : BitVec 23) (overwritten : Bool)
  /-- HARD_FAULT_CHECK (R340): the written-back block is read again, and a hard fault is remapped. -/
  | hardFaultCheck (ch : Fin 64) (block : BitVec 23) (raw : List Byte)
  /-- ERASURE_REENCODE (R335): A pigeonhole with an erasure mark is re-encoded after the group seal. -/
  | erasureReencode (n : Fin 64) (area : Fin 2) (gen : Nat) (row : Nat) (imgs : RowImages)
  /-- RECEIPT_TIMEOUT (R338): A receipt wait reaches RECEIPT_LIMIT and makes an integrity abort. -/
  | receiptTimeout (n : Fin 64)
  /-- SEQUENCER_LOCKSTEP (R348): the sequencer pair disagrees and the die withdraws. -/
  | sequencerLockstep
  /-- DRONE_BLOCK_READ (R344): the Drone reads one code block of a data lap. -/
  | droneBlockRead (ch : Fin 64) (raw : List Byte) (owner : BlockOwner)
  /-- PARITY_LAP_ROW (R345): A parity lap verifies one stripe row. -/
  | parityLapRow (n : Fin 64) (imgs : RowImages)
  /-- AUDIT_SELECT (R349): every 100 ms a run of each core is chosen and its audit copy captured. -/
  | auditSelect (sl : Fin 16) (core : Fin 32)
  /-- AUDITOR_RUN (R350): the auditor core re-runs the audit copy and compares results. -/
  | auditorRun (sl : Fin 16) (res : AuditRes)
  /-- REFEREE_RUN (R350): the referee core re-runs a mismatching audit copy and decides which core failed. -/
  | refereeRun (sl : Fin 16) (res : AuditRes)
  /-- AUDIT_TIMEOUT (R350): an audit is not compared within AUDIT_LIMIT and is dropped. -/
  | auditTimeout (sl : Fin 16)
  /-- OCCUPANCY_WINDOW (R192): the occupancy monitor window ends and channels are reported. -/
  | occupancyWindow (deep : List (List Nat)) (near : List (List Nat))
  /-- POWER_WINDOW (R416): the power monitor window ends and the caps are applied. -/
  | powerWindow (watts : Nat)
  /-- THERMAL_SAMPLE (R417): A temperature reading is taken against WARN_C and TRIP_C. -/
  | thermalSample (temp : BitVec 8) (hot : BitVec 8)
  /-- MARGIN_WINDOW (R282): the link margin window ends and the margin state is set. -/
  | marginWindow (mins : List Nat) (room : Bool)
  /-- REFRESH_INDICATION (R178): A package reports a new required refresh rate. -/
  | refreshIndication (sl : Fin 16) (rate : Rate)
  /-- MSIX_MODERATION (R376): A vector's moderation interval ends and a pending message is sent. -/
  | msixModeration (n : Fin 64) (vec : Fin 32)
  /-- MIGRATION_COPY_DONE (R34): A page migration copy completes and awaits the next step seal. -/
  | migrationCopyDone (n : Fin 64)
  /-- FORMAT_COMPLETE (R57): formatting of the coded areas completes during a restart. -/
  | formatComplete (n : Fin 64)
  /-- DRAIN_COMPLETE (R363): A function's drain completes and it reaches its target state. -/
  | drainComplete (n : Fin 64) (rows : RowSet)
  /-- DRAIN_FORCED (R365): A drain is not done after 100 ms and completes at once. -/
  | drainForced (n : Fin 64)
  /-- HEARTBEAT_SEND (R263): the die sends a heartbeat to a watched die at its rank tick. -/
  | heartbeatSend (rank : Fin 31)
  /-- SUSPECT_TIMEOUT (R264): no heartbeat from a watched die for 16,000 ticks marks it SUSPECT. -/
  | suspectTimeout (rank : Fin 31)
  /-- ISOLATION_TIMEOUT (R264): no heartbeat from any watched die for 160,000 ticks: the die aborts as ISOLATED. -/
  | isolationTimeout
  /-- DECLARE_TIMEOUT (R267): the acting keeper sends CONFIRM_REQ after 160,000 ticks of silence. -/
  | declareTimeout (n : Fin 64) (member : Fin 16)
  /-- MEMBERSHIP_REPEAT (R265): an unanswered membership message is repeated or abandoned. -/
  | membershipRepeat (n : Fin 64)
  /-- EPOCH (R269): arrival of an EPOCH message, adopted at once or kept as a switch. -/
  | epoch (p : Packet) (room : Bool)
  /-- CONFIRM_REQ (R267): arrival of a CONFIRM_REQ, answered SUSPECT, ALIVE or BUSY. -/
  | confirmReq (p : Packet) (room : Bool)
  /-- CONFIRM_RSP (R267): arrival of a CONFIRM_RSP at the keeper. -/
  | confirmRsp (p : Packet) (room : Bool)
  /-- GSEAL (R270): arrival of a member's GSEAL for a step. -/
  | gseal (p : Packet) (room : Bool)
  /-- REPORT (R263): arrival of a REPORT carrying rank and retained epoch. -/
  | report (p : Packet) (room : Bool)
  /-- REJOIN_REQ (R284): arrival of a REJOIN_REQ at the keeper. -/
  | rejoinReq (p : Packet) (room : Bool)
  /-- TRANSFER_DONE (R281): arrival of a TRANSFER_DONE from a transfer source at the keeper. -/
  | transferDone (p : Packet) (room : Bool)
  /-- EVAC_REQ (R283): arrival of an EVAC_REQ at the keeper. -/
  | evacReq (p : Packet) (room : Bool)
  /-- ACK (R265): arrival of a membership ACK. -/
  | membershipAck (p : Packet) (room : Bool)
  /-- TRANSFER_COPY_SLOT (R281): A transfer source sends one slot as LEAF_PUT. -/
  | transferCopySlot (n : Fin 64) (mode : Nat) (subject : Nat) (target : Nat) (imgs : RowSet)
  /-- BACKGROUND_REBUILD (R275): the taker rebuilds one unrebuilt row in the background. -/
  | backgroundRebuild (n : Fin 64) (imgs : RowSet)
  /-- ABSORBED_ROW_WORK (R278): an absorbing die works an absorbed row in free slots. -/
  | absorbedRowWork (k : AbsAt) (code : Nat) (bad : Bool) (imgs : RowSet)
  /-- SWEEP_READ (R304): A snapshot sweep reads one slot in a free controller-pair slot. -/
  | sweepRead (n : Fin 64)
  /-- PUSH_DRAIN (R306): A pushed before-image drains from the push area to the floor. -/
  | pushDrain
  /-- SNAP_SEALED (R308): the sweep completes and index, seal page and catalog are written. -/
  | snapSealed (n : Fin 64) (fails : List Nat)
  /-- FLOOR_PROGRAM_DONE (R296): A floor program or erase completes or reports failure. -/
  | floorProgramDone (ok : Bool) (eraseBad : Nat)
  /-- CATALOG_TIMER (R298): A catalog is written every 60 s while the floor is READY. -/
  | catalogTimer (fails : List Nat)
  /-- VERIFY_DUE (R312): verification of a sealed snapshot starts after seal or every 24 hours. -/
  | verifyDue (id : Nat)
  /-- BAND_REFRESH (R314): A band's read count reaches its limit and its pages are copied. -/
  | bandRefresh (band : Nat) (fails : List Nat)
  /-- FLOOR_MOUNTED (R299): mounting of the floor finds the newest catalog and completes. -/
  | floorMounted (geometryOk : Bool)
  /-- RELOAD_MOVE (R321): A reload source reads, checks or decodes a slot and sends it as LEAF_PUT. -/
  | reloadMove (n : Fin 64) (move : Nat) (readable : Bool) (lost : Bool) (mark : DecodedMark) (imgs : RowImages)
  /-- PFAIL_ASSERT (R413): filtered PFAIL_N assertion begins HOLD and Bellows. -/
  | pfailAssert
  /-- PFAIL_DEASSERT (R318): PFAIL_N deasserted for 10 ms acts as POWER CANCEL when the line is down. -/
  | pfailDeassert (fails : List Nat)
  /-- BELLOWS_DELTAS (R316): bellows stage DELTAS: registered deltas and drain closes are sent. -/
  | bellowsDeltas
  /-- BELLOWS_JOURNAL (R316): bellows stage JOURNAL: floor programs finish and a Bellows catalog is written. -/
  | bellowsJournal (fails : List Nat)
  /-- BELLOWS_DONE (R316): bellows stage DONE: a catalog with resume entries is written. -/
  | bellowsDone (fails : List Nat)
  /-- POWER_ON_RESET (R407): VDD_AON enters or a supply leaves regulation, holding power-on reset. -/
  | powerOnReset (rails : Bool)
  /-- POWER_ON_RESET_END (R407): supplies and reference have been good for 1 ms and power-on reset ends. -/
  | powerOnResetEnd
  /-- CHIP_RESET (R407): chip reset by host, MF, management controller or PLL, sampling the straps. -/
  | chipReset (cause : ResetBy) (strap : BitVec 12)
  /-- REF_LOST (R406): the reference clock is lost and the PLL enters holdover. -/
  | refLost
  /-- HOLDOVER_EXPIRY (R406): holdover ends or the frequency error exceeds 500 ppm: PLL out of lock. -/
  | holdoverExpiry (freqError : Bool) (strap : BitVec 12)
  /-- BOOT (R391): the boot code chooses and verifies the firmware slot to run. -/
  | boot (selfCheck : Bool)
  /-- DEEP_TIER_INIT_DONE (R419): every deep-tier code block has been initialised after power-on. -/
  | deepTierInitDone
  /-- FW_LOADING_DONE (R394): the activated image is in the inactive banks and the boot record is armed. -/
  | fwLoadingDone
  /-- FW_SWITCH_START (R394): the firmware switch begins at a qualifying counter turn start. -/
  | fwSwitchStart
  /-- FW_SWITCH_END (R394): the new image's self-check ends and the control plane is released or returned. -/
  | fwSwitchEnd (ok : Bool)
  /-- PAIR (R426): arrival of a twin PAIR message that arms or fails the comparator. -/
  | pair (p : Packet)
  /-- DIGEST (R428): arrival of a twin DIGEST message, compared with the local leaf's digests. -/
  | digest (p : Packet)
  /-- LINES (R430): arrival of a twin LINES message used to locate the first differing line. -/
  | lines (p : Packet)
  /-- LINE (R430): arrival of a twin LINE message used to locate the first differing byte. -/
  | line (p : Packet)
  /-- TWIN_WAIT_EXPIRY (R428): A REG wait for the partner's DIGEST reaches WAIT and the comparison becomes late. -/
  | twinWaitExpiry (n : Fin 64)
  /-- PARTNER_LOST (R431): the partner falls silent for LOST and the comparator disarms. -/
  | partnerLost
  /-- PLL_LOCK (R405): the on-die PLL reaches lock after power-on reset, the always-on domain moves to the root divider and chip reset may begin. -/
  | pllLock
  /-- REFERENCE_RETURN (R406): the 100 MHz reference returns during holdover and HOLDOVER clears. -/
  | referenceReturn
  /-- RAILS_IN_REGULATION (R418): VDD_LY and VDDQ_NAND come into regulation after VDD_AON, which lets chip reset begin. -/
  | railsInRegulation
  /-- CHANNEL_TRAINING_FAILURE (R331): A deep-tier channel interface reports a training or link failure, so the channel is failed and escalates. -/
  | channelTrainingFailure (ch : Fin 64)
  /-- FLOOR_READ_COMPLETE (R312): A floor page read completes and its inner code and checks are applied, for verification, refresh or reload. -/
  | floorReadComplete (readable : Bool)
  /-- VERIFY_ROW (R62): VERIFY_ROWS verifies, defers or decodes its next row in a management slot and completes after the last row. -/
  | verifyRow (n : Fin 64) (imgs : RowImages)
  /-- MRAM_WRITE_DONE (R386): an MRAM record or chunk write reaches its commit point, completing NVM_STORE, NVM_CLEAR or a compaction. -/
  | mramWriteDone
  /-- FW_VERIFY_DONE (R393): the signature and digest check of a downloaded slot ends, recording VERIFIED or setting VERIFY_FAIL. -/
  | fwVerifyDone
  /-- RESET_DEFERRAL_EXPIRY (R409): 20 ms after HOLD began, a chip reset deferred during HOLD takes effect although Bellows has not reached DONE. -/
  | resetDeferralExpiry
  /-- LOCATION_TIMEOUT (R430): 200 µs after a twin mismatch without complete line location, the report is written without LOCATED and the function is reset. -/
  | locationTimeout
  /-- FRAME_TRANSMIT (R247): at each 8-tick frame boundary the line transmitter sends its next frame: marker, PHASE, HEARTBEAT, BELLOWS repeat, a queued message frame or IDLE, and FC advances. -/
  | frameTransmit
  deriving DecidableEq, Repr

end Sys2Proof
end

