-- ==== Sys2Proof/Machine/State.lean ====
section
/-!
DEFINITION. The state of one Lyith die as plain data, and the state after reset. Every register field lives in `regs`
(by window offset, R436); the rest of the state the spec names has fields of its own.
-/

namespace Sys2Proof.Machine

set_option maxRecDepth 100000

/-! ### The Isnus manifest (R30) -/

/-- Group table entry (Table 2.3). -/
structure GroupEntry where
  group : Nat
  k : Nat
  r : Nat
  flags : Nat
  routeBase : Nat
  groupSeal : Nat
  spareBase : Nat
  spareCount : Nat
  deriving DecidableEq, Repr

/-- Program-defined format descriptor (R28). -/
structure FormatDesc where
  code : Nat
  planes : List Plane
  p : Nat
  deriving DecidableEq, Repr

/-- Binding entry (Table 1.5). -/
structure Binding where
  tensor : Nat
  format : Nat
  flags : Nat
  wcFormat : Nat
  layer : Nat
  elemOffset : Nat
  elemCount : Nat
  group : Nat
  member : Nat
  firstData : Nat
  gradFirst : Nat
  maskFirst : Nat
  wcOffset : Nat
  rowLen : Nat
  deriving DecidableEq, Repr

/-- Intake table entry (Table 4.1). -/
structure IntakeEntry where
  tensor : Nat
  flags : Nat
  contribFormat : Nat
  windowTop : Int
  elemOffset : Nat
  elemCount : Nat
  group : Nat
  member : Nat
  expected : Nat
  bucketSeal : Nat
  probeSeal : Nat
  deriving DecidableEq, Repr

/-- An accepted manifest (Table 1.4 and its four tables). -/
structure Manifest where
  d : Nat
  jobId : Nat
  jobSeed : Nat
  startStep : Nat
  stripeRows : Nat
  gradRows : Nat
  windowSealBase : Nat
  wcBytes : Nat
  digest : Nat
  /-- The twin key (R425). -/
  twinKey : Nat
  groups : List GroupEntry
  formats : List FormatDesc
  bindings : List Binding
  intake : List IntakeEntry
  deriving DecidableEq, Repr

/-- Under what the coded areas were last formatted (R57). -/
structure FmtKey where
  jobId : Nat
  k : Nat
  r : Nat
  group : Nat
  stripeRows : Nat
  gradRows : Nat
  d : Nat
  deriving DecidableEq, Repr

/-! ### Mailbag, hold and contributions awaiting receipts (R71, R206 to R208) -/

/-- Mailbag tracking record of one member (Table 8.8), with the source endpoint to answer and the packet's route
generation. -/
structure BagRec where
  member : Nat
  stamp : Nat
  map : Nat
  count : Nat
  complete : Bool
  isNull : Bool
  src : Nat
  deriving DecidableEq, Repr

/-- A mailbag buffer in reservation (R71): the row and the parity index of the pigeonhole on this die, whether it is a decode reservation (R91), whether the buffer came
from the function's own share (R81), the fold image, and the members' records. -/
structure Bag where
  slice : Nat
  fn : Nat
  area : Nat
  gen : Nat
  row : Nat
  p : Nat
  load : Bool
  decode : Bool
  ownShare : Bool
  /-- The fold image has met an uncorrectable word (R335). -/
  damaged : Bool
  /-- The pigeonhole's write has begun and its channel is halted (R94). -/
  writing : Bool
  image : Mem
  recs : List BagRec
  deriving DecidableEq, Repr

/-- What a contribution awaiting receipts is of (R206). -/
inductive WaitKind where
  | state | grad | load | put
  deriving DecidableEq, Repr

/-- One holder a contribution was sent to: its member number, parity index and die, and whether its WRITTEN receipt
has arrived. -/
structure WaitHolder where
  member : Nat
  p : Nat
  dst : Nat
  done : Bool
  deriving DecidableEq, Repr

/-- A contribution or leaf put sent and kept until its WRITTEN receipts have arrived (R206): the image is δ (R55), a
gradient or loaded image, or the slot of a leaf put. `sent` is false while the intent is registered and no packet has
been sent. -/
structure Wait where
  kind : WaitKind
  fn : Nat
  slice : Nat
  core : Nat
  area : Nat
  gen : Nat
  row : Nat
  member : Nat
  stamp : Nat
  epoch : Nat
  routeGen : Nat
  isNull : Bool
  sent : Bool
  /-- The tick of its flagged packet, for RECEIPT_LIMIT (R338). -/
  sentAt : Nat
  image : Mem
  holders : List WaitHolder
  deriving DecidableEq, Repr

/-- A packet to be sent again after its delay (R206). -/
structure Resend where
  fn : Nat
  due : Nat
  packet : Packet
  deriving DecidableEq, Repr

/-! ### Landing (R98 to R110) -/

/-- The accumulators of one gradient leaf (R102): `vals` lists the FX96 integers modulo 2^96 by kept element of the
leaf, absent ones being zero. -/
structure LeafAcc where
  fn : Nat
  slice : Nat
  row : Nat
  cached : Bool
  vals : Tab Nat
  deriving DecidableEq, Repr

/-- A line update (R100): up to 16 additions to one line of one leaf, queued at a bank, the packet and bucket it is of,
and the window top. An addition is a kept position of the leaf and an FP32 pattern. -/
structure LineUpd where
  slice : Nat
  bank : Nat
  packet : Nat
  fn : Nat
  bucket : Nat
  row : Nat
  top : Int
  adds : List (Nat × Nat)
  deriving DecidableEq, Repr

/-- A landing packet being applied: its arrival number, source, bucket, and whether its flag has yet to count. -/
structure LandPkt where
  id : Nat
  fn : Nat
  src : Nat
  bucket : Nat
  flagged : Bool
  tokens : Nat
  left : Nat
  deriving DecidableEq, Repr

/-- A parked landing packet (R102). -/
structure Parked where
  id : Nat
  fn : Nat
  slice : Nat
  packet : Packet
  deriving DecidableEq, Repr

/-- What a function holds for one AUTO_WINDOW bucket in the open attempt (R107): the largest PROBE_EXP so far and the
window top once the probe seal has fired. -/
structure Probe where
  bucket : Nat
  maxExp : Option Int
  top : Option Int
  deriving DecidableEq, Repr

/-! ### Fabric requests of this die (R201) -/

/-- Who waits for a response. -/
inductive ReqOwner where
  | core (slice core : Nat) (reg : Nat)
  deriving DecidableEq, Repr

/-- A memory-form request sent and not yet answered, matched by TAG (R201). -/
structure Request where
  tag : Nat
  fn : Nat
  owner : ReqOwner
  routeGen : Nat
  /-- The tick at which it was sent (R133). -/
  sentAt : Nat
  deriving DecidableEq, Repr

/-- A generation of a route map: entry words by logical id (Table 8.15). -/
structure RouteGen where
  /-- The generation's number; GEN is its low bit (R218). -/
  number : Nat
  entries : List Nat
  deriving DecidableEq, Repr

/-- Ownership entry (Table 8.14). -/
structure OwnEntry where
  endpoint : Nat
  mask : Nat
  offBase : Nat
  offLimit : Nat
  mode : Nat
  deriving DecidableEq, Repr

/-! ### The post box (R367 to R375) -/

/-- A background command running (R369): opcode, TAG, and the argument its end needs (a step, a count). -/
structure BgCmd where
  op : Nat
  tag : Nat
  arg : Nat
  deriving DecidableEq, Repr

/-- A write Lyith makes to host memory: the function, the address and the bytes. -/
structure HostWrite where
  fn : Nat
  addr : Nat
  bytes : List Byte
  deriving DecidableEq, Repr

/-- A VERIFY_ROWS in progress (R62): TAG, area, generation, next row, rows left, and the four counts. -/
structure VerifyJob where
  tag : Nat
  area : Nat
  gen : Nat
  next : Nat
  left : Nat
  verified : Nat
  reencoded : Nat
  decoded : Nat
  lost : Nat
  deriving DecidableEq, Repr

/-- A page migration (R34): page, destination tier, whether the copy is complete, TAG of the command. -/
structure Migration where
  tag : Nat
  page : Nat
  toNear : Bool
  copied : Bool
  deriving DecidableEq, Repr

/-- An accepted LOAD_LEAVES awaiting its load pass (R454): TAG, tensor, first leaf, whether they are mask leaves, the bodies (none of a rejected mask leaf), and whether the
command has completed. -/
structure LoadJob where
  tag : Nat
  tensor : Nat
  firstLeaf : Nat
  mask : Bool
  bodies : List (List Byte)
  finished : Bool
  deriving DecidableEq, Repr

/-- A seal object (Table 17.12 and Table 17.13). -/
structure SealObj where
  count : Nat := 0
  expected : Nat := 0
  state : Nat := 0
  owner : Nat := 0
  arms : Nat := 0
  late : Nat := 0
  parity : Bool := false
  firedAt : Nat := 0
  deriving DecidableEq, Repr

/-! ### Collectives (R224 to R243) and the Fife line's messages (R251) -/

/-- A combined message of a tree child, as held by the combiner: the child's die, its values by element, the number of
participants combined, and whether its residues checked (R233). -/
structure Kid where
  die : Nat
  vals : List Nat
  count : Nat
  good : Bool
  deriving DecidableEq, Repr

/-- The first part of a message of two parts (R242): sender, kind, SEQ and its limbs. -/
structure Half where
  die : Nat
  kind : Nat
  seq : Nat
  limbs : List Nat
  deriving DecidableEq, Repr

/-- One Fife slot of a function (R224): its SEQ (R228), whether the collective is in progress on this die, its layout,
this die's contribution by element, the participants and the nodes of its tree as route entries, whether it runs on the
line, what this node adds to the tree (values and participants), the messages of the children, whether it has been sent
up and delivered (R234), and whether a RESIDUE result has been met once (R233). -/
structure Coll where
  seq : Nat := 0
  opened : Bool := false
  layout : Nat := 0
  mine : List Nat := []
  parts : List Nat := []
  nodes : List Nat := []
  line : Bool := false
  tree : Option (List Nat × Nat) := none
  treeGood : Bool := false
  kids : List Kid := []
  halves : List Half := []
  up : Bool := false
  delivered : Bool := false
  retried : Bool := false
  deriving DecidableEq, Repr

/-- A message on the Fife line to the hub (R251): its frames' plaintexts, the kind of its first frame, slot and SEQ, the
index of the next frame to send, the tick by which it is repeated, and its repeats. -/
structure LineMsg where
  kind : Nat
  slot : Nat
  seq : Nat
  frames : List Nat
  next : Nat
  due : Option Nat
  repeats : Nat
  deriving DecidableEq, Repr

/-! ### What one command still has to bring about -/

/-- A consequence that falls due within the command that caused it. The agenda is empty between commands. -/
inductive Todo where
  /-- A seal object fired (R449). -/
  | sealFired (i : Nat)
  /-- A collective of a function closed at this participant: slot offset, status, C, values (R227). -/
  | collDone (n off status c : Nat) (vals : List Nat)
  /-- A contribution was delivered (R234). -/
  | delivered (n off : Nat)
  /-- Lyith sounds Bugle for a function with a cause of Table 9.5 (R237). -/
  | sound (n cause : Nat)
  /-- An integrity abort of a function with its cause (R336). -/
  | integrity (n cause : Nat)
  /-- A function abort with a cause of Table 13.4 (R361). -/
  | abort (n cause : Nat)
  /-- A function enters DRAINING with target STOPPED (R359, R361). -/
  | drainStart (n : Nat)
  /-- A pass abort of group scope (R90, R269). -/
  | groupAbort (n : Nat)
  /-- The die withdraws, with its cause (R332). -/
  | withdraw (cause : Nat)
  /-- A trial fault of the firmware (R398). -/
  | trialFault (cause : Nat)
  /-- The drain closes or holders of an aborting function may have become complete (R90). -/
  | drainCheck (n : Nat)
  /-- A gradient leaf or bucket of a function may have become safe (R65). -/
  | gradCheck (n : Nat)
  /-- A channel fails (R331): global channel. -/
  | channelFailed (ch : Nat)
  /-- The member has reached its gradient seal (R65). -/
  | gradSealed (n : Nat)
  /-- A restart step of a function may go on (R358). -/
  | startCheck (n : Nat)
  /-- The member may arrive at the step barrier (R281). -/
  | stepArrive (n : Nat)
  /-- Every WRITTEN receipt of a leaf put is here (R281, R236). -/
  | putDone (n : Nat)
  /-- The die is reported for evacuation (R141, R283). -/
  | evacuate
  /-- A function reset is raised, as by CTRL.RESET (R362, R430). -/
  | resetFn (n : Nat)
  /-- A Fife collective of slot offset, layout and values is to be opened once the firmware switch in progress ends (R395). -/
  | openColl (n off layout : Nat) (vals : List Nat)
  /-- A keeper makes a change again under the epoch that overtook it (R269). -/
  | changeAgain (n : Nat)
  deriving DecidableEq, Repr

/-- A deep-tier slot write that has begun on a halted channel and is repeated when it resumes (R77, R94): the slice, the
function, the member whose slot it is, the slot, and its bytes. -/
structure DeepWrite where
  slice : Nat
  fn : Nat
  member : Nat
  area : Nat
  gen : Nat
  row : Nat
  isHole : Bool
  bytes : List Byte
  deriving DecidableEq, Repr

/-- A completion kept on chip or about to be written (Table 13.9). -/
structure Cpl where
  tag : Nat
  op : Nat
  status : Nat
  detail : Nat
  deriving DecidableEq, Repr

/-! ### Twin mode (R425 to R431) and sweeps (R300 to R308) -/

/-- An entry of the pending table (R429): one of this die's own digests, or the partner's. -/
structure TwinPend where
  own : Bool
  step : Nat
  tensor : Nat
  leaf : Nat
  digest : Nat
  ext : Nat
  slice : Nat
  core : Nat
  /-- The row of the leaf on this die; zero in a partner's entry. -/
  row : Nat
  deriving DecidableEq, Repr

/-- A mismatch being located (R430): this die's entry and the partner's, whether it is late, the tick at which it was
found, the function's row, the partner's line values by part, the first differing line, and the partner's bytes of it. -/
structure TwinMm where
  mine : TwinPend
  theirs : TwinPend
  late : Bool
  since : Nat
  parts : Tab (List Nat)
  line : Option Nat
  theirLine : Option (Nat × List Byte)
  deriving DecidableEq, Repr

/-- The twin comparator (R425 to R431): the function and partner as read at its restart, the last PAIR held, the pending
table oldest first, this die's digests that REG waits on, the leaves compared (step, tensor, leaf), the tick of the partner's last DIGEST or PAIR, a mismatch
being located, and the report kept for TWIN_REPORT. -/
structure TwinSt where
  fn : Option Nat := none
  partner : Nat := 0
  pair : Option (List Byte) := none
  pend : List TwinPend := []
  waiting : List TwinPend := []
  compared : List (Nat × Nat × Nat) := []
  lastAt : Nat := 0
  mm : Option TwinMm := none
  report : Option (List Byte) := none
  deriving DecidableEq, Repr

/-- A sweep of a function (R304 to R308): its snapshot, what the seal page tells, the index by ordinal (an FPA,
0xFFFFFFFE free, 0xFFFFFFFF absent, or 0xFFFFFFFD while the slot's page waits to be programmed), the counts, its bands
in opening order. -/
structure Sweep where
  snapId : Nat
  step : Nat
  epoch : Nat
  sealCounter : Nat
  manifest : Manifest
  group : Nat
  member : Nat
  /-- The pending generations in the order of R304. -/
  gens : List Nat
  index : Tab Nat
  written : Nat
  pushed : Nat
  chainXor : Nat
  endCounter : Nat
  bands : List Nat
  bytes : Nat
  deriving DecidableEq, Repr

/-- A pushed before-image that has not drained (R306): the function, its index ordinal, and the slot. -/
structure Push where
  fn : Nat
  snapId : Nat
  ordinal : Nat
  image : List Byte
  deriving DecidableEq, Repr

/-! ### The member record and the wheel image's header -/

/-- A member in the member record (R259): LIVE or FAILED (Table 10.1), the route entry word of its die, and, while it
is absorbed (R276), the LIVE members S that hold its rows. -/
structure MemEntry where
  live : Bool
  die : Nat
  absorbed : List Nat
  deriving DecidableEq, Repr

/-- A hot spare in the member record: STANDBY or USED (Table 10.1), and the route entry word of its die. -/
structure SpareEntry where
  standby : Bool
  die : Nat
  deriving DecidableEq, Repr

/-- A wheel entry (Table 7.2), with the slice section it stands in. -/
structure WheelEntry where
  slice : Nat
  slot : Nat
  length : Nat
  action : Nat
  core : Nat
  sched : Nat
  firstOnly : Bool
  item : Int
  deriving DecidableEq, Repr

/-- An accepted wheel image (Table 7.1 and its three sections). -/
structure WheelImage where
  lenLog2 : Nat
  refresh : Nat
  scheduleId : Nat
  manifestDigest : Nat
  setDigest : Nat
  segBase : Nat
  segLen : Nat
  passBand : Nat
  passDrain : Nat
  intakeBand : Nat
  intakeDrain : Nat
  mailbagRows : Nat
  place : List Nat
  fillList : List Nat
  nearList : List Nat
  entries : List WheelEntry
  deriving DecidableEq, Repr

/-- A declaration being confirmed (R267): the member concerned, the two confirmers, and those that answered SUSPECT. -/
structure Decl where
  member : Nat
  confirmers : List Nat
  agreed : List Nat
  deriving DecidableEq, Repr

/-- A transfer as the keeper runs it (R281): its MODE, the subject (0x80 + index for a spare id), the route entry of the
target (zero under absorption), the members whose dies have not sent TRANSFER_DONE, and whether the switch has been
sent. -/
structure Xfer where
  mode : Nat
  subject : Nat
  target : Nat
  waits : List Nat
  sent : Bool
  deriving DecidableEq, Repr

/-- A transfer as a source runs it (R281): its MODE of Table 10.6, the subject, the target's route entry (zero under
absorption, where each row goes to the member that will absorb it), the rows still to walk as area, generation and row,
rows written again after the walk passed them, and whether TRANSFER_DONE has been sent. -/
structure Copy where
  mode : Nat
  subject : Nat
  target : Nat
  left : List (Nat × Nat × Nat)
  mirrors : List (Nat × Nat × Nat)
  doneSent : Bool
  deriving DecidableEq, Repr

/-- A membership message sent and not yet answered (R265): the function, the route entry it went to, its MSG_ID, its
bytes, the tick it was last sent, and its repeats. -/
structure MembMsg where
  fn : Nat
  dst : Nat
  id : Nat
  bytes : List Byte
  sentAt : Nat
  repeats : Nat
  deriving DecidableEq, Repr

/-- A watched die (R262, R264): its base address, the tick from which its silence counts, and whether it is SUSPECT. -/
structure Watched where
  die : Nat
  lastAt : Nat
  suspect : Bool
  deriving DecidableEq, Repr

/-- A slot arriving as LEAF_PUT (R205): the function, the receiving slice, the class, the sender's endpoint, the member,
area, generation, row, STAMP_LO and parity bits of its header, the packets here as a map, and the bytes. -/
structure PutStage where
  fn : Nat
  slice : Nat
  tc : Nat
  src : Nat
  member : Nat
  area : Nat
  gen : Nat
  row : Nat
  stamp : Nat
  par : Nat
  map : Nat
  image : Mem
  deriving DecidableEq, Repr

/-- What a membership message says beside the sender's own fields (Table 10.3). -/
structure MembBody where
  kind : Nat
  subject : Nat := 0
  mode : Nat := 0
  live : Nat := 0
  newEpoch : Nat := 0
  die : Nat := 0
  spares : Nat := 0
  rank : Nat := 0
  seqs : List Nat := []
  deriving DecidableEq, Repr

/-- A move of a re-shard plan (Table 10.10). -/
structure ReMove where
  tensor : Nat
  leaf : Nat
  fromP : Nat
  toP : Nat
  newSlot : Nat
  deriving DecidableEq, Repr

/-- An accepted re-shard (R288 to R291): the participants' dies, this die's index, the manifest and wheel image to come
(after the switch, those before it), the moves, the phase (0 accepted, 1 opening barrier, 2 exchange and puts, 3 closing
barrier, 4 free, 5 freeing what an abandoned put phase wrote), the step sealed, S, the counts held by participant, the
participants this die has reported to, received slots being coded, the rows written, and the rows still to free. -/
structure Plan where
  parts : List Nat
  me : Nat
  manifest : Manifest
  wheel : WheelImage
  moves : List ReMove
  phase : Nat
  sealed : Nat
  start : Nat
  counts : List (Nat × Nat)
  told : List Nat
  sentPuts : Bool
  rx : List PutStage
  written : List Nat
  toFree : List Nat
  deriving DecidableEq, Repr

/-! ### The floor (R293 to R324) -/

/-- A band entry (Table 11.6), with the next position to be written in the band. STATE is 0 FREE, 1 OPEN, 2 FULL,
3 SYSTEM; `reads` counts floor-page reads since the last erase. -/
structure BandEnt where
  erase : Nat := 0
  state : Nat := 0
  reads : Nat := 0
  bad : Nat := 0
  owner : Nat := 0
  pos : Nat := 0
  deriving DecidableEq, Repr

/-- A snapshot entry (Table 11.5). -/
structure SnapEnt where
  id : Nat
  state : Nat
  fn : Nat
  verify : Nat
  jobId : Nat
  step : Nat
  sealFpa : Nat
  badPages : Nat
  bytes : Nat
  deriving DecidableEq, Repr

/-- A resume entry (Table 11.4). -/
structure ResumeEnt where
  jobId : Nat := 0
  lastSnap : Nat := 0
  reason : Nat := 0
  stage : Nat := 0
  lastStep : Nat := 0
  counter : Nat := 0
  deriving DecidableEq, Repr

/-- A slot page whose program is in flight (R296): the function and snapshot, its index ordinal, and the slot. -/
structure FlProg where
  fn : Nat
  snapId : Nat
  ordinal : Nat
  image : List Byte
  deriving DecidableEq, Repr

/-- A verification in progress (R312): the snapshot, the pages still to read with the ordinal of a slot page, and the
failing pages. -/
structure VerifyRun where
  snapId : Nat
  left : List (Nat × Option Nat)
  bad : Nat
  deriving DecidableEq, Repr

/-- The floor: its pages by FPA (an erased page is not listed), the factory bad marks by band, the bands, snapshots and
resume entries of the catalog in force, the current system band, the counts of Table 11.3, programs in flight oldest
first, the verification running, and the tick of each snapshot's last verification. -/
structure FloorSt where
  pages : Tab Mem := []
  factory : Tab Nat := []
  bands : Tab BandEnt := []
  snaps : List SnapEnt := []
  resume : Tab ResumeEnt := []
  sysBand : Nat := 0
  bandSeq : Nat := 0
  catSeq : Nat := 0
  formatId : Nat := 0
  formats : Nat := 0
  /-- POWERED_SECONDS at tick `secAt`. -/
  seconds : Nat := 0
  secAt : Nat := 0
  written : Nat := 0
  budget : Nat := 0
  nextSnap : Nat := 1
  mult : Nat := 0
  flights : List FlProg := []
  verify : Option VerifyRun := none
  verified : Tab Nat := []
  /-- The tick of the last catalog, for CATALOG_TIMER. -/
  catAt : Nat := 0
  deriving DecidableEq, Repr

/-- A move of a re-slice plan (Table 11.12), with its place in the move list. -/
structure SliceMove where
  idx : Nat
  tensor : Nat
  leaf : Nat
  ordinal : Nat
  kind : Nat
  newSlot : Nat
  source : Nat
  target : Nat
  deriving DecidableEq, Repr

/-- A source of a re-slice plan (Table 11.11). -/
structure SliceSource where
  die : Nat
  snapId : Nat
  group : Nat
  member : Nat
  fn : Nat
  deriving DecidableEq, Repr

/-- A reload in progress on this die for a function (R320 to R322): the plan's sources, targets, step and moves, this die's
place among the targets, the moves to do as a source and to receive as a target, received slots being coded, the gradient
slots received as data slot and generation, the counts of its completion, and whether a leaf had a wrong FORMAT. -/
structure Reload where
  step : Nat
  sources : List SliceSource
  targets : List Nat
  moves : List SliceMove
  toSend : List SliceMove
  toGet : List SliceMove
  rx : List PutStage
  got : List (Nat × Nat)
  written : Nat
  decoded : Nat
  lost : Nat
  malformed : Bool
  deriving DecidableEq, Repr

/-- The HOLD phase (R252, R316, R318): the tick it began, the phase before it, the Bellows stage reached, the tick PFAIL_N
was deasserted at, whether POWER CANCEL has come and has been carried out, and the functions whose abort barrier closed
in HOLD. -/
structure HoldPhase where
  since : Nat
  before : Nat
  stage : Nat
  calmAt : Option Nat
  cancel : Bool
  ended : Bool
  barriers : List Nat
  deriving DecidableEq, Repr

/-! ### The Fife line and the counter (R174, R244 to R256) -/

/-- A launch in progress (R174): its start, COUNTER_STATE before it, the ID of the echo under way and the tick its first
bit left, and the shortest round trip of the echoes done. -/
structure Launch where
  since : Nat
  before : Nat
  echo : Nat
  leftAt : Option Nat
  best : Option Nat
  deriving DecidableEq, Repr

/-- A message being received on the line: the plaintext of its first frame, and the frames after it so far. -/
structure LineRx where
  head : Nat
  got : List Nat
  deriving DecidableEq, Repr

/-- The Fife line. Transmitter: FC of the next frame and the tick of its boundary (R245), single frames that wait, the
frames until the latest BELLOWS stage is reported again (R255), and the frames sent, oldest first, as 64-bit words.
Receiver: good frames in CONFIRM, frames in ACQUIRE and the markers seen among them as place and FC, the receive count,
bad frames in a row, the hub's phase as last stated, and the message being received. The start of the current hunt and
the tick FIFE_DOWN was entered (R249), the launch, the HIGH half of a beacon, the last PATTERN value, and LINE_DELAY
(R253). -/
structure LineSt where
  txFc : Nat := 0
  txAt : Nat := 0
  single : List Nat := []
  bellIn : Nat := 0
  sent : List Nat := []
  confirm : Nat := 0
  acquire : Nat := 0
  marks : List (Nat × Nat) := []
  rxFc : Nat := 0
  bad : Nat := 0
  hubPhase : Option Nat := none
  rx : Option LineRx := none
  huntSince : Nat := 0
  downSince : Option Nat := none
  launch : Option Launch := none
  high : Option Nat := none
  pattern : Option Nat := none
  delay : Nat := 0
  deriving DecidableEq, Repr

/-- The monitors of the wheel chapter: the occupancy windows ended (R192), and by slice the required refresh rate that
its controller pair reports (0 as 1×) (R178). -/
structure MonitorSt where
  windows : Nat := 0
  rates : Tab Nat := []
  deriving DecidableEq, Repr

/-! ### What the die keeps for one function -/

/-- A hold of a function's schedule (R186): the cause and detail of its deviation record, where it arose, and the
counter and schedule slot at which it began. -/
structure HoldState where
  cause : Nat
  detail : Nat
  slice : Nat
  core : Nat
  sched : Nat
  since : Nat
  position : Nat
  /-- The wheel entry of the slice's section that holds; none for a stream read's hold (R132). -/
  entry : Option Nat
  deriving DecidableEq, Repr

/-- An armed stop (R359): the step, and the TAG of the STOP command that armed it, if a command did. -/
structure StopArm where
  step : Nat
  tag : Option Nat
  deriving DecidableEq, Repr

/-- A drain in progress (R363): whether it is a reset drain (order 8), and the tick of its last start. -/
structure DrainState where
  isReset : Bool
  since : Nat
  deriving DecidableEq, Repr

/-- What happened to the row of a data slot in the running schedule (Table 7.3): which actions are done. -/
structure RowWork where
  /-- The member whose slot it is: this die's own, or one it absorbs (R276). -/
  member : Nat
  area : Nat
  row : Nat
  slice : Nat
  core : Nat
  /-- The leaf is null (gradient) or untouched (state); it takes null deltas. -/
  isNull : Bool
  /-- The leaf's stamp is already that of the pass (R93). -/
  settled : Bool
  /-- READOUT or LREAD done. -/
  loaded : Bool
  /-- RUN begun. -/
  run : Bool
  /-- RUN window ended, or GCOMMIT done. -/
  committed : Bool
  /-- REG done: the intent write is issued. -/
  reg : Bool
  /-- The intent write is acknowledged (R75). -/
  registered : Bool
  /-- SEND or GSEND done. -/
  sent : Bool
  /-- LWRITE or GWRITE done. -/
  written : Bool
  /-- EMIT done, or every receipt of a gradient leaf held. -/
  done : Bool
  /-- Ledger ring index of the intent entry. -/
  ledger : Nat
  /-- The twin comparison of the leaf (R428): 0 none, 1 waiting since tick `twinAt`, 2 matched, 3 late, 4 mismatched. -/
  twin : Nat
  twinAt : Nat
  deriving DecidableEq, Repr

/-- One function's state beside its registers. -/
structure FnSt where
  /-- The accepted manifest in force (R32). -/
  manifest : Option Manifest := none
  /-- The accepted manifest staged for the next restart (R32). -/
  staged : Option Manifest := none
  /-- Under what the coded areas were last formatted (R57). -/
  fmtKey : Option FmtKey := none
  /-- A pass has run under the accepted manifest (Table 13.7, LOAD_LEAVES). -/
  passRun : Bool := false
  /-- The current step t (R64). -/
  step : Nat := 0
  /-- The current step has opened intake (R360). -/
  opened : Bool := false
  /-- The attempt last used (R356, R360). -/
  attempt : Nat := 0
  /-- Passes sealed since the gradient areas were formatted (R39: the first D find no gradient due). -/
  sealedPasses : Nat := 0
  /-- The scalars of the last reduction: NORM2 as FP64 bits, NONFINITE, TOKENS (R66), and its C. -/
  norm2 : Nat := 0
  nonfinite : Bool := false
  tokens : Nat := 0
  /-- The member's own partials in the open attempt: the EX640 sum (R66), the flag and the token sum (R109). -/
  partNorm2 : Nat := 0
  partNonfinite : Bool := false
  partTokens : Nat := 0
  /-- The partials have been handed to the scalar reduction in this attempt (R65). -/
  scalarsSent : Bool := false
  /-- The scalar reduction of the step has closed. -/
  scalarsDone : Bool := false
  /-- Elements saturated in the open attempt and the first bucket of one (R105). -/
  satCount : Nat := 0
  satFirst : Nat := 0
  /-- AUTO_WINDOW buckets' probes in the open attempt (R107). -/
  probes : List Probe := []
  /-- Intake of the current step is open (R99). -/
  intakeOpen : Bool := false
  /-- The gradient seal of the current step has been reached (R65). -/
  gradSealed : Bool := false
  /-- CONTRACT's lowered counts by bucket, from the next intake (R287), and those in force. -/
  contractNext : Tab Nat := []
  contracted : Tab Nat := []
  /-- The pass of the current step runs or has run: its group-seal object is armed (R86). -/
  passOn : Bool := false
  /-- Rows worked by the running schedules. -/
  work : List RowWork := []
  /-- Drain closes of the current step received and not yet spent by an abort: slice and member, once for each (R205). -/
  drainCloses : List (Nat × Nat) := []
  /-- The slices that have flushed in this abort; they bin deltas until the resume barrier closes (R90). -/
  flushed : List Nat := []
  /-- An epoch bump has left intake of this step to go on (R89). -/
  bumped : Bool := false
  /-- A pass abort has begun and the resume barrier has not closed (R90). -/
  aborting : Bool := false
  /-- The abort is of a stopping kind (R361). -/
  abortStops : Bool := false
  /-- The hold of the schedule, if it holds (R186). -/
  hold : Option HoldState := none
  /-- Slip records written in the current step (R193). -/
  slips : Nat := 0
  /-- FILLs executed in the current step (R183). -/
  fills : Nat := 0
  /-- The pages resident in the near tier (R33). -/
  nearPages : List Nat := []
  migration : Option Migration := none
  verify : Option VerifyJob := none
  /-- Accepted LOAD_LEAVES awaiting the load pass (R454). -/
  loads : List LoadJob := []
  /-- A load pass is in progress (R456). -/
  loadPass : Bool := false
  /-- Formatting is in progress, and whether it formats the gradient areas alone (R57). -/
  formatting : Bool := false
  formatGradOnly : Bool := false
  /-- Route generations: current, staged with its switch seal, shadow (R218). -/
  route : RouteGen := ⟨0, []⟩
  routeLoaded : Option (List Nat) := none
  routeStaged : Option (RouteGen × Nat) := none
  routeShadow : Option RouteGen := none
  /-- Ownership table (R215). -/
  own : List OwnEntry := []
  /-- On-chip command queue: entries fetched and not begun (R368, R369). -/
  queue : List (List Byte) := []
  /-- Background commands running (R369). -/
  bg : List BgCmd := []
  /-- Completions kept while ARM is 0 (R370). -/
  cplKept : List Cpl := []
  /-- Deviation records kept while ARM is 0 (R370). -/
  devKept : List (List Byte) := []
  /-- Step and leaf records kept while ARM is 0 (R370). -/
  digKept : List (List Byte) := []
  /-- Event records that fell due since the last function reset (R374). -/
  evSeq : Nat := 0
  /-- Deviation records that fell due since restart (Table 7.5), and those lost since the last OVERFLOW record. -/
  devSeq : Nat := 0
  devLost : Nat := 0
  /-- Step and leaf records that fell due since restart (R423). -/
  digSeq : Nat := 0
  stop : Option StopArm := none
  drain : Option DrainState := none

  /-- The die's role in its group for the function: 0 NONE, 1 MEMBER, 2 SPARE, 3 FENCED (Table 10.13). -/
  role : Nat := 0
  /-- The group number, and the member number (or spare number under ROLE SPARE), as the member record decides. -/
  group : Nat := 0
  self : Nat := 0
  /-- The current membership epoch (R259). -/
  epoch : Nat := 0
  /-- The members' states and dies, and the hot spares' (R259, Table 10.1). -/
  members : List MemEntry := []
  spares : List SpareEntry := []
  /-- Wheel image in force, and the one staged for the next restart (R184). -/
  wheel : Option WheelImage := none
  wheelStaged : Option WheelImage := none

  /-- Switches to a staged route generation since the last STATE_RESET (Table 8.18), and the tick from which the shadow
  has had no old-generation packet in flight (R220). -/
  routeSwitches : Nat := 0
  shadowZeroAt : Option Nat := none
  /-- The eight Fife slots by offset (R224). -/
  colls : Tab Coll := []
  /-- The participants of a permute collective, as route entries (R236). -/
  permuteSet : List Nat := []
  /-- The abort in progress has group scope: an epoch bump (R225). -/
  abortGroup : Bool := false
  /-- The rebuild map (R275): the unrebuilt rows as member taken over, area, generation and row, and how many there were
  at first. -/
  unrebuilt : List (Nat × Nat × Nat × Nat) := []
  rebuildTotal : Nat := 0
  /-- The drain close has been sent in this abort (Table 3.9, order 2). -/
  drained : Bool := false
  /-- An evacuated source sends landing packets of the function on to this route entry (R281). -/
  forwardTo : Option Nat := none
  /-- This die alone aborts: its abort barrier has no other participant (R361). -/
  abortAlone : Bool := false
  /-- The die has arrived at the abort barrier of the abort in progress. -/
  atAbort : Bool := false
  /-- The group barrier of the current step has closed (R93). -/
  groupDone : Bool := false
  /-- C of the scalar reduction, and the value from which the pass or re-run start is computed (R64, R93). -/
  passFrom : Option Nat := none
  /-- The coming pass is a re-run (R93). -/
  rerunDue : Bool := false
  /-- The value from which intake turn 0 is computed, while it has not begun (R187). -/
  intakeFrom : Option Nat := none
  /-- The program set in force and the one staged for the next restart (R135). -/
  progs : Option ProgSet := none
  progsStaged : Option ProgSet := none
  /-- The step areas of the pass by slice and class: key 256 · slice + class (R126). -/
  stepAreas : Tab (List Byte) := []
  /-- The tick of the last program fault (R140). -/
  trapAt : Option Nat := none
  /-- The schedule running (Table 7.18: 0 none, 1 intake, 2 pass), its turn u, the counter value at which turn u began,
  and the slots by which holds have shifted the position in it (R186). -/
  sched : Nat := 0
  turn : Nat := 0
  turnAt : Nat := 0
  shift : Nat := 0
  /-- The code of the last SOFT trap (Table 5.4, trap). -/
  softCode : Nat := 0
  /-- SC of the last sealed step, X(t) so far with the slots folded into it as member and row, whether the next step
  seal anchors the chain (R421, R422), and whether a leaf was registered uncompared in twin mode in this step. -/
  chain : Nat := 0
  xval : Nat := 0
  xslots : List (Nat × Nat) := []
  anchor : Bool := false
  uncompared : Bool := false
  /-- The pass of the current step was re-run (R423). -/
  reran : Bool := false
  /-- The sweep in progress (R304). -/
  sweep : Option Sweep := none
  /-- The failed cores whose runs a buddy has taken in this turn (R141), the holder rows finished in the running schedule
  (area, row and parity index), and whether this step has its ROW_LATE record of an absorbed row (R278). -/
  spared : List Nat := []
  rowsDone : List (Nat × Nat × Nat) := []
  lateRow : Bool := false
  /-- The die sends no coding packet of the function: it is fenced or took itself to be cut off (R264, R271). -/
  mute : Bool := false
  /-- Membership messages sent (R265), and the messages acted on, as sender and MSG_ID. -/
  msgCount : Nat := 0
  seenMsgs : List (Nat × Nat) := []
  /-- The declaration being confirmed, the tick before which a member is not asked about again (R267), and the keeper and
  next epoch for which this die last answered SUSPECT. -/
  decl : Option Decl := none
  /-- A change of this keeper that a later epoch overtook, to be made again under it: its MODE, subject and die (R269). -/
  again : Option (Nat × Nat × Nat) := none
  declNext : Tab Nat := []
  suspectFor : Option (Nat × Nat) := none
  /-- GSEALs held, as member and step (R270); FENCED_EARLY falls due when the bump is complete. -/
  gseals : List (Nat × Nat) := []
  early : Bool := false
  /-- The latest EPOCH adopted or sent, whether a REPORT was sent for one (R269), the switch held, and the EPOCH whose
  adoption waits for the shadow to retire. -/
  lastEpoch : Option (List Byte) := none
  asked : Bool := false
  kept : Option (List Byte) := none
  epochWait : Option (List Byte) := none
  /-- The transfer this keeper runs, the one this die is a source of, and the slots put here as target (member, area,
  generation, row). -/
  xfer : Option Xfer := none
  copy : Option Copy := none
  copied : List (Nat × Nat × Nat × Nat) := []
  /-- Slots kept, and fetched or decoded, in a rejoin (R284), and whether own rows are verified before RUNNING. -/
  rejoinKept : Nat := 0
  rejoinGot : Nat := 0
  rejoinVerify : Bool := false
  /-- FAILED or replaced members whose LOADs are redirected, with their former dies (R280). -/
  proxies : List (Nat × Nat) := []
  /-- This die is being evacuated of the function (R283). -/
  evacuating : Bool := false
  /-- Requests of dies that wait for this keeper, as kind of message, the sender's MEMBER field, and its route entry. -/
  membReqs : List (Nat × Nat × Nat) := []
  /-- The re-shard accepted or running (R289 to R291). -/
  plan : Option Plan := none
  /-- C of the previous step barrier, or the counter at the restart (R301), the steps named by SNAPSHOT commands with their
  TAGs, and the reload in progress. -/
  lastC : Nat := 0
  snapAt : Option (Nat × Nat) := none
  reload : Option Reload := none
  /-- The manifest in force has not run yet: the next restart that passes its checks takes START_STEP (R64). -/
  fresh : Bool := false
  /-- The last restart was cancelled, so the start barrier goes on at its next SEQ (R455). -/
  cancelled : Bool := false
  deriving DecidableEq, Repr

/-! ### Integrity of the deep tier (R325 to R350) -/

/-- A halted channel (R331): the global channel, the block read with errors, and what the block holds. -/
structure Halt where
  ch : Nat
  block : Nat
  owner : BlockOwner
  deriving DecidableEq, Repr

/-- A corrected block to be written back and read again (R340): the global channel, the block, the symbols in error as
line and symbol, and whether the write-back is done. -/
structure BlockFix where
  ch : Nat
  block : Nat
  symbols : List (Nat × Nat)
  written : Bool
  deriving DecidableEq, Repr

/-- An audit copy in a slice's buffer (R349): the function, the core, the leaf and step, the tick of the selection, the
original's results once its window has ended, and the auditor's where they differ. -/
structure Audit where
  fn : Nat
  core : Nat
  tensor : Nat
  leaf : Nat
  step : Nat
  since : Nat
  orig : Option AuditRes
  second : Option AuditRes
  deriving DecidableEq, Repr

/-- Integrity: the halted channels, the ticks of each channel's latest halts, blocks being written back, the channels whose
last hard fault found the remap table full as pairs with the block, raw blocks that the checker wrote, the Drone's next
block by channel, the start of the data lap and whether its lateness is posted, the next row of each function's parity lap,
the lap's start and whether its lateness is posted, the audit of each slice, and the slices whose late audit is posted. -/
structure IntegSt where
  halted : List Halt := []
  haltLog : Tab (List Nat) := []
  fixes : List BlockFix := []
  unmapped : List (Nat × Nat) := []
  blocks : Tab (List Byte) := []
  lapNext : Tab Nat := []
  lapAt : Nat := 0
  lapLate : Bool := false
  rowNext : Tab Nat := []
  rowsAt : Nat := 0
  rowsLate : Bool := false
  audits : Tab Audit := []
  auditLate : List Nat := []
  deriving DecidableEq, Repr

/-! ### The MRAM and firmware update (R379 to R401) -/

/-- A valid configuration record (R381); no body bytes make it a clear record. -/
structure CfgRec where
  item : Nat
  body : List Byte
  seq : Nat
  deriving DecidableEq, Repr

/-- A key slot (Table 14.6): its state, and its hash; none is the hash set at manufacture. -/
structure KeySlot where
  state : Nat
  hash : Option Nat
  deriving DecidableEq, Repr

/-- The boot record (Table 14.10). A digest of none is that of the image placed at manufacture. -/
structure BootRec where
  seq : Nat := 1
  active : Nat := 0
  trial : Option Nat := none
  trialLeft : Nat := 0
  state0 : Nat := 3
  state1 : Nat := 0
  minSvn : Nat := 0
  digest0 : Option Nat := none
  digest1 : Option Nat := some 0
  deriving DecidableEq, Repr

/-- A membership message that arrived during a firmware switch (R395): the packet, its kind, and the operand of its row. -/
structure SwitchMsg where
  packet : Packet
  kind : Nat
  room : Bool
  deriving DecidableEq, Repr

/-- An NVM_STORE or NVM_CLEAR in progress: the opcode, the item mask, the records left to write as item and body, and those
written. -/
structure NvmJob where
  op : Nat
  mask : Nat
  left : List (Nat × List Byte)
  done_ : Nat
  deriving DecidableEq, Repr

/-- The MRAM and the update in progress: the active half of the configuration store, its GENERATION and its records in
order, the last SEQ, the commands that write records (oldest first) and whether a write is in progress, the log by index with
the next SEQ, the key slots, the firmware slots that have been written (another holds what manufacture placed, slot 0 alone an
image), the boot record, and the slot whose image runs. Further: a step seal has passed while the activation is ARMED, the
tick at which the switch began, whether it is a switch back (R398), whether a HOLD cut an activation short (R396), and what
waits for the end of a switch (R395): membership messages, Bugles as function, cause and serial, whether messages acted on now
have been acknowledged already, events as function, code and payload, and completions by function. -/
structure NvmSt where
  half : Nat := 0
  generation : Nat := 1
  recs : List CfgRec := []
  seq : Nat := 0
  jobs : List NvmJob := []
  writing : Bool := false
  log : Tab (List Byte) := []
  logSeq : Nat := 0
  keys : List KeySlot := [⟨1, none⟩, ⟨0, some 0⟩, ⟨0, some 0⟩, ⟨0, some 0⟩]
  slots : Tab Mem := []
  boot : BootRec := {}
  running : Nat := 0
  fwSeal : Bool := false
  back : Bool := false
  cut : Bool := false
  msgs : List SwitchMsg := []
  bugles : List (Nat × Nat × Nat) := []
  acked : Bool := false
  evHeld : List (Nat × Nat × List Byte) := []
  cplHeld : List (Nat × Cpl) := []
  deriving DecidableEq, Repr

/-! ### Power and reset (R402 to R420) -/

/-- Where the die stands in its start-up. `phase`: 0 chip reset has ended and the image does not run yet, 1 the image runs
and the deep tier is being initialised, 2 up, 3 power-on reset, 4 power-on reset has ended and chip reset has not begun.
Further: the rails are in regulation, the PLL is locked, the chip reset deferred in HOLD (R409) as cause, strap word and the
tick at which HOLD began, the tick at which the reference was lost, and whether the soft cap pauses background work (R416). -/
structure PowerSt where
  phase : Nat := 0
  rails : Bool := true
  pll : Bool := true
  deferred : Option (Nat × Nat × Nat) := none
  refLostAt : Option Nat := none
  paused : Bool := false
  deriving DecidableEq, Repr

/-! ### Faults, refusals and the state -/

/-- Why the block can stop with a fault. No meaning of this model raises one: every condition the spec calls an error
is an effect on the state (a flag, a status, an event). -/
inductive Fault where
  /-- Raised by no meaning; kept so that the type is inhabited. Safe: it allows no behaviour. -/
  | unreachable
  deriving DecidableEq, Repr

/-- Why the block can refuse a command. -/
inductive Refusal where
  /-- Raised by an arm of `exec` whose command has no meaning yet. Safe: the model stops. -/
  | notModelled (mnemonic : String)
  deriving DecidableEq, Repr

/-- The two variants of the part (R5): Lyith-F with a floor, Lyith-C without. -/
inductive Variant where
  | F | C
  deriving DecidableEq, Repr

/-- One Lyith die. -/
structure State where
  /-- The commands that wait, first in, first out. -/
  pending : List Instr := []
  variant : Variant := .F
  /-- The registers of the window by window offset; an absent one holds its reset value (R16, R436). -/
  regs : Tab Word := []
  /-- What the last restart of the owning function applied of its RWS registers (R439). -/
  inForce : Tab Word := []
  /-- What the die keeps for each function beside its registers. -/
  fns : Tab FnSt := []
  seals : Tab SealObj := []
  /-- Ticks since reset (R171), and the global counter. -/
  ticks : Nat := 0
  counter : Nat := 0
  /-- The deep tier and the near tier as bytes. -/
  deep : Mem := []
  near : Mem := []
  /-- Writes posted to host memory, and whether the host takes none (R370). -/
  posted : List HostWrite := []
  hostDown : Bool := false
  /-- MSI-X messages sent, the tick of each vector's last message, and vectors that wait (R376). -/
  msi : List (Nat × Nat) := []
  msiLast : Tab Nat := []
  msiPend : List Nat := []
  /-- Fabric packets in egress and sent. -/
  egress : List Packet := []
  sent : List Packet := []
  dlbUsed : Nat := 0
  poisons : List (Nat × Nat) := []
  waits : List Wait := []
  resends : List Resend := []
  requests : List Request := []
  bags : List Bag := []
  held : List (Nat × Packet) := []
  accs : List LeafAcc := []
  updates : List LineUpd := []
  landPkts : List LandPkt := []
  parked : List Parked := []
  /-- TC2 packets that wait at the ingress or the links because they would park and the park region is full (R102). -/
  tc2Held : List Parked := []
  /-- Landing packets that have arrived, for their order (R203). -/
  landSeq : Nat := 0
  /-- LOADs that wait for a leaf's write to complete (R35). -/
  loadWaits : List Packet := []
  /-- The egress arbiter (R210). -/
  tokens : List Nat := []
  deficit : List Nat := []
  turn : Nat := 0
  arbTick : Nat := 0
  fnTurn : List (Option Nat) := []
  fnDeficit : Tab Nat := []
  /-- Consequences that fall due within the command in progress; empty between commands (the model's own field). -/
  agenda : List Todo := []
  /-- Headers of coding packets that were refused with RESEND_HOLD and already counted in HELD (R208). -/
  heldOnce : List (List Byte) := []
  /-- Messages on the Fife line to the hub, oldest first (R251). -/
  lineOut : List LineMsg := []
  /-- The update cores by global core number. -/
  cores : Tab CoreSt := []
  /-- Slot writes begun on halted channels (R94). -/
  deepWrites : List DeepWrite := []
  /-- Before-images pushed and not drained, oldest first (R306). -/
  pushes : List Push := []
  /-- The ring index of each core's next intent entry (R79), by global core number. -/
  ring : Tab Nat := []
  /-- The twin comparator. -/
  twin : TwinSt := {}
  /-- The watch list sorted by die (R262), and this die's rank at other dies as last reported (R263). -/
  watch : List Watched := []
  ranks : Tab Nat := []
  /-- The tick of the last heartbeat sent to each die. -/
  beatAt : Tab Nat := []
  /-- Membership messages awaiting their ACK (R265). -/
  msgs : List MembMsg := []
  /-- Slots arriving as LEAF_PUT. -/
  puts : List PutStage := []
  /-- Link margins (R282): windows ended, and the minima of each link and quantity (key 3 · link + quantity), latest
  first, at most 16. -/
  marginWindows : Nat := 0
  margins : Tab (List Nat) := []
  /-- The floor; on Lyith-C it is never used. -/
  floor : FloorSt := {}
  /-- HOLD and Bellows (R316): the tick at which HOLD began, the phase before it, the stage reached (Table 9.10), and the
  tick from which PFAIL_N has been deasserted. -/
  hold : Option HoldPhase := none
  /-- PFAIL_N is asserted (after its filter). -/
  pfail : Bool := false
  /-- The Fife line, and the wheel chapter's monitors. -/
  line : LineSt := {}
  mon : MonitorSt := {}
  /-- The deep tier's checking, the Drone and the audits. -/
  integ : IntegSt := {}
  /-- The MRAM, firmware and keys. -/
  nvm : NvmSt := {}
  /-- Power, clocks and reset. -/
  pwr : PowerSt := {}
  /-- Virtual functions that the endpoint's SR-IOV capability enables (R353); zero with VF Enable clear. -/
  vfs : Nat := 0
  /-- HI latches by reader and register (R437), the registers whose RWL fields have been written since the owning reset
  (R12), and the word that the last read returned. -/
  latch : Tab Nat := []
  rwl : List Nat := []
  answer : Option Word := none
  deriving DecidableEq, Repr

/-! ### Reset -/

/-- A Lyith-F die right after the chip reset that ends a power-on (R407): every register at its reset value (Table 15.14's
cause of the reset is POWER_ON), the counter at 0 (R171), no function holding anything, the deep tier and the floor
empty, and the MRAM as manufactured. -/
def State.reset : State := { regs := [(0xE058, 0x10000000)] }

end Sys2Proof.Machine
end

