-- ==== Sys2Proof/Machine/Manifest.lean ====
section
/-!
DEFINITION. The Isnus manifest: parsing its tables (R30, Tables 1.4, 1.5, 2.3, 4.1, R28) and the checks of
LOAD_MANIFEST (R31, R45, R46, R97, R147, R159), with the table and index of the first failing entry.
-/

namespace Sys2Proof.Machine

/-! ### Geometry of a group: roles, rows and data slots (R48, R49) -/

/-- n = k + r. -/
def GroupEntry.n (g : GroupEntry) : Nat := g.k + g.r

/-- The role of member `m` in row `j`: (m − j) mod n (R48). -/
def roleOf (n m j : Nat) : Nat := (m + (n - j % n)) % n

/-- Does member `m` hold a data slot of row `j`? -/
def isData (k n m j : Nat) : Bool := decide (roleOf n m j < k)

/-- data_row of R49, within one rotation cycle: the row of the `t`-th data row at or after `u`. -/
def dataRowIn (k n m : Nat) : Nat → Nat → Nat → Nat
  | 0, u, _ => u
  | fuel + 1, u, t =>
    if isData k n m u then (if t = 0 then u else dataRowIn k n m fuel (u + 1) (t - 1))
    else dataRowIn k n m fuel (u + 1) t

/-- data_row (R49): the row of data-slot index `s` of member `m`. -/
def dataRow (k n m s : Nat) : Nat := n * (s / k) + dataRowIn k n m n 0 (s % k)

/-- The data-slot index of member `m` at row `j` (the inverse of R49 on data rows): data rows before `j`. -/
def dataSlot (k n m j : Nat) : Nat :=
  k * (j / n) + ((List.range (j % n)).filter (fun u => isData k n m u)).length

/-! ### Formats and spans -/

/-- The leaf format a code names under a manifest's format table (Table 1.3, R28). -/
def leafFormat (formats : List FormatDesc) (code : Nat) : Option LeafFormat :=
  match fixedFormat code with
  | some f => some f
  | none => (formats.find? (fun d => d.code = code)).map (fun d => ⟨.state, d.planes, d.p, d.p, false⟩)

/-- Number of state leaves of a binding whose format has `p` elements per leaf (R31: a count of zero binds nothing). -/
def stateLeaves (p : Nat) (b : Binding) : Nat := ceilDiv b.elemCount p

/-- Number of aligned spans of length `span` that meet a binding's range (R29). -/
def spanLeaves (span : Nat) (b : Binding) : Nat :=
  if b.elemCount = 0 then 0 else (b.elemOffset + b.elemCount - 1) / span - b.elemOffset / span + 1

/-- The binding is of an _S24 format. -/
def Binding.s24 (b : Binding) : Bool := decide (b.format = 8 ∨ b.format = 9)

/-- Gradient leaves of a binding (R29). -/
def gradLeaves (b : Binding) : Nat := spanLeaves (gradSpan b.s24) b

/-- Mask leaves of a binding (R29); none for a dense format. -/
def maskLeaves (b : Binding) : Nat := if b.s24 then spanLeaves maskSpan b else 0

/-! ### Parsing -/

/-- Parse a group entry (Table 2.3). -/
def parseGroup (e : List Byte) : GroupEntry :=
  ⟨field e 0 2, field e 2 1, field e 3 1, field e 4 1, field e 8 4, field e 0xC 4, field e 0x10 4, field e 0x14 1⟩

/-- The planes of a descriptor's used entries (R28). -/
def parsePlanes (e : List Byte) (n : Nat) : List Plane :=
  (List.range n).map (fun i => ⟨field e (8 + 4 * i) 1, field e (9 + 4 * i) 1⟩)

/-- Parse a format descriptor (R28). -/
def parseFormat (e : List Byte) : FormatDesc := ⟨field e 0 1, parsePlanes e (field e 1 1), field e 4 4⟩

/-- Parse a binding (Table 1.5). -/
def parseBinding (e : List Byte) : Binding :=
  ⟨field e 0 4, field e 4 1, field e 5 1, field e 6 1, field e 7 1, field e 8 6, field e 0x10 6, field e 0x18 2,
   field e 0x1A 1, field e 0x1C 4, field e 0x20 4, field e 0x24 4, field e 0x28 8, field e 0x30 4⟩

/-- Parse an intake entry (Table 4.1). -/
def parseIntake (e : List Byte) : IntakeEntry :=
  ⟨field e 0 4, field e 4 1, field e 5 1, signed 16 (field e 6 2), field e 8 6, field e 0x10 6, field e 0x18 2,
   field e 0x1A 1, field e 0x1C 2, field e 0x20 4, field e 0x24 4⟩

/-- Cut `n` entries of `size` bytes from offset `o`. -/
def entriesAt (bs : List Byte) (size : Nat) : Nat → Nat → List (List Byte)
  | 0, _ => []
  | n + 1, o => (bs.drop o).take size :: entriesAt bs size n (o + size)

/-- Start offsets of the group, format, binding and intake tables and the manifest's end (R30). -/
structure ManifestMap where
  groupAt : Nat
  formatAt : Nat
  bindingAt : Nat
  intakeAt : Nat
  endAt : Nat
  deriving DecidableEq, Repr

/-- The table starts: each at the first 64-byte boundary at or after what precedes it (R30). -/
def manifestMap (bs : List Byte) : ManifestMap :=
  let g := 128
  let f := roundUp (g + 32 * field bs 0x20 4) 64
  let b := roundUp (f + 64 * field bs 0x24 4) 64
  let i := roundUp (b + 64 * field bs 0x28 4) 64
  ⟨g, f, b, i, i + 64 * field bs 0x2C 4⟩

/-- The twin key (R425): CRC-64 of the manifest with JOB_ID, MANIFEST_DIGEST and the groups' ROUTE_BASE and SPARE_BASE
zeroed. -/
def twinKeyOf (bs : List Byte) : Nat :=
  crc64 ((List.range (field bs 0x20 4)).foldl
    (fun b i => setField (setField b (128 + 32 * i + 8) 4 0) (128 + 32 * i + 0x10) 4 0)
    (setField (setField bs 8 8 0) 0x78 8 0))

/-- Parse a manifest (R30). -/
def parseManifest (bs : List Byte) : Manifest :=
  let m := manifestMap bs
  { d := field bs 6 1, jobId := field bs 8 8, jobSeed := field bs 0x10 8, startStep := field bs 0x18 8,
    stripeRows := field bs 0x30 4, gradRows := field bs 0x34 4, windowSealBase := field bs 0x38 4,
    wcBytes := field bs 0x40 8, digest := field bs 0x78 8, twinKey := twinKeyOf bs,
    groups := (entriesAt bs 32 (field bs 0x20 4) m.groupAt).map parseGroup,
    formats := (entriesAt bs 64 (field bs 0x24 4) m.formatAt).map parseFormat,
    bindings := (entriesAt bs 64 (field bs 0x28 4) m.bindingAt).map parseBinding,
    intake := (entriesAt bs 64 (field bs 0x2C 4) m.intakeAt).map parseIntake }

/-! ### The state range (Table 1.6) -/

/-- Bytes of a page (R33 text: 2 MiB, 32 slots). -/
def pageBytes : Nat := 2097152

/-- Start of gradient generation `g` (Table 1.6). -/
def gradStart (m : Manifest) (g : Nat) : Nat :=
  roundUp (m.stripeRows * 65536) pageBytes + g * roundUp (m.gradRows * 65536) pageBytes

/-- Start of working-copy slot `w` (Table 1.6). -/
def wcStart (m : Manifest) (w : Nat) : Nat := gradStart m (m.d + 1) + w * roundUp m.wcBytes pageBytes

/-- Working-copy slots: one for D = 0, two for D ≥ 1 (Table 1.6). -/
def wcSlots (m : Manifest) : Nat := if m.d = 0 then 1 else 2

/-- Bytes of the state range, a whole number of pages (Table 1.6). -/
def rangeBytes (m : Manifest) : Nat := wcStart m (wcSlots m)

/-- Offset of slot `row` of the stripe area (`area` 0) or of gradient generation `gen` (`area` 1). -/
def slotOffset (m : Manifest) (area gen row : Nat) : Nat :=
  (if area = 0 then 0 else gradStart m gen) + row * 65536

/-- The limit of a state range: 448 GiB (R37, R41). -/
def rangeLimit : Nat := 448 * 1073741824

/-- What a byte of the state range is (Table 1.6, R35). -/
inductive RangePart where
  | coded (area gen row : Nat)
  | workingCopy
  | padding
  | outside
  deriving DecidableEq, Repr

/-- The part of gradient area bytes an offset past the stripe area lies in, generation by generation. -/
def gradPart (m : Manifest) (off : Nat) : Nat → Nat → RangePart
  | 0, _ => .padding
  | n + 1, g =>
    if off < gradStart m (g + 1) then
      (if off - gradStart m g < m.gradRows * 65536 then .coded 1 g ((off - gradStart m g) / 65536) else .padding)
    else gradPart m off n (g + 1)

/-- Classify a byte offset of the state range (Table 1.6, R35). -/
def rangePart (m : Manifest) (off : Nat) : RangePart :=
  if off < m.stripeRows * 65536 then .coded 0 0 (off / 65536)
  else if off < gradStart m 0 then .padding
  else if off < gradStart m (m.d + 1) then gradPart m off (m.d + 1) 0
  else if off < wcStart m 1 then (if off - wcStart m 0 < m.wcBytes then .workingCopy else .padding)
  else if off < rangeBytes m then (if off - wcStart m 1 < m.wcBytes then .workingCopy else .padding)
  else .outside

/-! ### The checks of R31 -/

/-- A manifest's failure: table (0 header, 1 group, 2 format, 3 binding, 4 intake) and entry index (Table 13.7). -/
structure Failing where
  table : Nat
  index : Nat
  deriving DecidableEq, Repr

/-- The index of the first entry that fails a test; the test also sees the entries before it. -/
def firstFailing {α : Type} (ok : List α → α → Bool) : List α → List α → Option Nat
  | _, [] => none
  | before, e :: es => if ok before e then firstFailing ok (before ++ [e]) es else some before.length

/-- Header checks: MAGIC, VERSION, BYTES, MANIFEST_DIGEST, zero bytes, D and table counts, window seals and the size
of the state range (R30, R31, R97, R37). -/
def headerOk (bs : List Byte) : Bool :=
  let m := manifestMap bs
  decide (128 ≤ bs.length) && decide (field bs 0 4 = 0x1A5E2F01) && decide (field bs 4 2 = 1) &&
  decide (field bs 6 1 ≤ 3) && decide (field bs 7 1 = 0) && decide (field bs 0x3C 4 = 0) &&
  allZero ((bs.drop 0x48).take 48) && decide (bs.length = m.endAt) &&
  decide (crc64 (setField bs 0x78 8 0) = field bs 0x78 8) &&
  decide (field bs 0x24 4 ≤ 32) && decide (field bs 0x2C 4 ≤ 1048576) &&
  decide (field bs 0x38 4 + 3 < 16384) &&
  allZero ((bs.drop (128 + 32 * field bs 0x20 4)).take (m.formatAt - (128 + 32 * field bs 0x20 4))) &&
  decide (rangeBytes (parseManifest bs) ≤ rangeLimit)

/-- Do two ranges `[a, a+la)` and `[b, b+lb)` meet? -/
def rangesMeet (a la b lb : Nat) : Bool := decide (a < b + lb) && decide (b < a + la)

/-- The logical-id ranges of a group entry: members and spares. -/
def GroupEntry.ranges (g : GroupEntry) : List (Nat × Nat) := [(g.routeBase, g.n), (g.spareBase, g.spareCount)]

/-- Group checks: K and R (R45), zero bytes, spares, GROUP_SEAL, unique GROUP, disjoint logical ids (R46). -/
def groupOk (raw : List Byte) (before : List GroupEntry) (g : GroupEntry) : Bool :=
  decide (2 ≤ g.k) && decide (g.k ≤ 14) && decide (1 ≤ g.r) && decide (g.r ≤ 4) && decide (g.n ≤ 16) &&
  decide (g.flags < 2) && decide (field raw 5 3 = 0) && allZero ((raw.drop 0x15).take 11) &&
  decide (g.spareCount ≤ 8) && decide (g.groupSeal < 16384) &&
  before.all (fun h => decide (h.group ≠ g.group)) &&
  before.all (fun h => h.ranges.all (fun x => g.ranges.all (fun y => !rangesMeet x.1 x.2 y.1 y.2))) &&
  !rangesMeet g.routeBase g.n g.spareBase g.spareCount

/-- Bytes per parameter of a descriptor, in 32nds of a byte (R28). -/
def bytesPerParam32 (planes : List Plane) : Nat :=
  (planes.map (fun q => q.per * (if fbScaled q.fb then alignedRecord (fbCode q.fb) else 4 * fmtBits (fbCode q.fb)))).sum

/-- Descriptor checks (R28). -/
def formatOk (raw : List Byte) (before : List FormatDesc) (d : FormatDesc) : Bool :=
  let n := field raw 1 1
  decide (0x20 ≤ d.code) && decide (d.code ≤ 0x3F) && before.all (fun x => decide (x.code ≠ d.code)) &&
  decide (1 ≤ n) && decide (n ≤ 8) && decide (field raw 2 2 = 0) &&
  d.planes.all (fun q => decide (1 ≤ q.per) && decide (q.per ≤ 16) && fbOk q.fb && decide (fbCode q.fb ≠ 13) &&
    decide (fbCode q.fb ≠ 14)) &&
  (List.range n).all (fun i => decide (field raw (10 + 4 * i) 2 = 0)) &&
  allZero ((raw.drop (8 + 4 * n)).take (32 - 4 * n)) &&
  decide (bytesPerParam32 d.planes ≤ 64 * 32) && decide (d.p = computeP d.planes)

/-- WC_FORMAT allowed (R147), with the element-count conditions of R159. `kept` is the leaf's elements in a plane. -/
def wcFormatOk (b : Binding) (kept : Nat) : Bool :=
  let c := fbCode b.wcFormat
  let unit := if fbScaled b.wcFormat then 32 else if fmtBits c = 6 then 4 else if c = 7 then 2 else 1
  fbOk b.wcFormat && !([8, 9, 11, 12, 13, 14].contains c) && (decide (c ≠ 10) || fbScaled b.wcFormat) &&
  decide (kept % unit = 0) && decide (b.rowLen % unit = 0)

/-- Bytes a binding's working copy takes within a slot (R36, R114). -/
def wcRegion (b : Binding) : Nat :=
  if b.s24 then roundUp (b.wcOffset + wcBytesOf b.wcFormat (b.elemCount / 2)) 64 - b.wcOffset +
    ceilDiv (ceilDiv b.elemCount 4) 2
  else wcBytesOf b.wcFormat b.elemCount

/-- The working copy is emitted (FLAGS bit 1 NO_WC clear). -/
def Binding.hasWc (b : Binding) : Bool := !bit b.flags 1

/-- The data slots of the stripe area a binding takes: its state leaves, then its mask leaves. -/
def stripeSpans (formats : List FormatDesc) (b : Binding) : List (Nat × Nat) :=
  match leafFormat formats b.format with
  | none => []
  | some f => [(b.firstData, stateLeaves f.p b), (b.maskFirst, maskLeaves b)]

/-- Is every slot of a span below the area's row count (R46)? The last slot has the highest row. -/
def spanExists (g : GroupEntry) (member rows : Nat) (s : Nat × Nat) : Bool :=
  decide (s.2 = 0) || decide (dataRow g.k g.n member (s.1 + s.2 - 1) < rows)

/-- Binding checks (R31, R46, R147, R159). -/
def bindingOk (m : Manifest) (raw : List Byte) (before : List Binding) (b : Binding) : Bool :=
  match leafFormat m.formats b.format, m.groups.find? (fun g => g.group = b.group) with
  | some f, some g =>
    decide (f.kind = .state) && decide (b.flags < 4) && decide (field raw 0x1B 1 = 0) &&
    allZero ((raw.drop 0x34).take 12) && decide (field raw 0xE 2 = 0) && decide (field raw 0x16 2 = 0) &&
    decide (b.elemOffset % f.p = 0) && decide (b.member < g.n) &&
    decide (b.elemOffset / f.p + stateLeaves f.p b ≤ 4294967296) &&
    (!b.hasWc || decide (b.wcOffset + wcRegion b ≤ m.wcBytes)) &&
    (decide (b.rowLen = 0) || decide (b.elemCount % b.rowLen = 0)) &&
    (b.s24 || decide (b.maskFirst = 0)) && wcFormatOk b f.kept &&
    before.all (fun c => decide (c.tensor ≠ b.tensor) || !rangesMeet c.elemOffset c.elemCount b.elemOffset b.elemCount) &&
    !rangesMeet b.firstData (stateLeaves f.p b) b.maskFirst (maskLeaves b) &&
    before.all (fun c => decide (c.group ≠ b.group) || decide (c.member ≠ b.member) ||
      ((stripeSpans m.formats c).all (fun x => (stripeSpans m.formats b).all (fun y => !rangesMeet x.1 x.2 y.1 y.2)) &&
       !rangesMeet c.gradFirst (gradLeaves c) b.gradFirst (gradLeaves b))) &&
    (stripeSpans m.formats b).all (spanExists g b.member m.stripeRows) &&
    spanExists g b.member m.gradRows (b.gradFirst, gradLeaves b)
  | _, _ => false

/-- AUTO_WINDOW of an intake entry. -/
def IntakeEntry.auto (e : IntakeEntry) : Bool := bit e.flags 0

/-- COMPRESSED of an intake entry. -/
def IntakeEntry.compressed (e : IntakeEntry) : Bool := bit e.flags 1

/-- The seals an intake entry names. -/
def IntakeEntry.seals (e : IntakeEntry) : List Nat := if e.auto then [e.bucketSeal, e.probeSeal] else [e.bucketSeal]

/-- The binding an intake entry's range lies in (R97). -/
def intakeBinding (m : Manifest) (e : IntakeEntry) : Option Binding :=
  m.bindings.find? (fun b => b.tensor = e.tensor && b.group = e.group && b.member = e.member &&
    decide (b.elemOffset ≤ e.elemOffset) && decide (e.elemOffset + e.elemCount ≤ b.elemOffset + b.elemCount))

/-- Intake checks (R97, R31). -/
def intakeOk (m : Manifest) (raw : List Byte) (before : List IntakeEntry) (e : IntakeEntry) : Bool :=
  match intakeBinding m e with
  | none => false
  | some b =>
    let span := gradSpan b.s24
    decide (e.flags < 4) && decide (field raw 0xE 2 = 0) && decide (field raw 0x16 2 = 0) &&
    decide (field raw 0x1B 1 = 0) && decide (field raw 0x1E 2 = 0) && allZero ((raw.drop 0x28).take 24) &&
    (decide (e.elemOffset % span = 0) || decide (e.elemOffset = b.elemOffset)) &&
    (decide (e.elemCount % span = 0) || decide (e.elemOffset + e.elemCount = b.elemOffset + b.elemCount)) &&
    before.all (fun c => decide (c.tensor ≠ e.tensor) || !rangesMeet c.elemOffset c.elemCount e.elemOffset e.elemCount) &&
    decide (-71 ≤ e.windowTop) && decide (e.windowTop ≤ 127) && decide (e.contribFormat ≤ 1) &&
    (!e.compressed || b.s24) && e.seals.all (fun x => decide (x < 16384)) && e.seals.Nodup &&
    e.seals.all (fun x => !((m.groups.map (fun g => g.groupSeal)).contains x) &&
      !rangesMeet m.windowSealBase 4 x 1 && before.all (fun c => !(c.seals.contains x)))

/-- The first failing table and entry of a manifest image, or none when R31 accepts it. -/
def manifestFailing (bs : List Byte) : Option Failing :=
  if !headerOk bs then some ⟨0, 0⟩ else
  let m := parseManifest bs
  let mp := manifestMap bs
  let rawG := entriesAt bs 32 m.groups.length mp.groupAt
  let rawF := entriesAt bs 64 m.formats.length mp.formatAt
  let rawB := entriesAt bs 64 m.bindings.length mp.bindingAt
  let rawI := entriesAt bs 64 m.intake.length mp.intakeAt
  match firstFailing (fun before (x : List Byte × GroupEntry) => groupOk x.1 (before.map Prod.snd) x.2) []
      (rawG.zip m.groups) with
  | some i => some ⟨1, i⟩
  | none =>
  match firstFailing (fun before (x : List Byte × FormatDesc) => formatOk x.1 (before.map Prod.snd) x.2) []
      (rawF.zip m.formats) with
  | some i => some ⟨2, i⟩
  | none =>
  match firstFailing (fun before (x : List Byte × Binding) => bindingOk m x.1 (before.map Prod.snd) x.2) []
      (rawB.zip m.bindings) with
  | some i => some ⟨3, i⟩
  | none =>
  match firstFailing (fun before (x : List Byte × IntakeEntry) => intakeOk m x.1 (before.map Prod.snd) x.2) []
      (rawI.zip m.intake) with
  | some i => some ⟨4, i⟩
  | none => none

/-! ### Looking things up in an accepted manifest -/

/-- A leaf as the manifest binds it: its binding, its format, and its leaf number within the binding. -/
structure LeafRef where
  binding : Binding
  format : LeafFormat
  /-- 0 for the binding's first leaf. -/
  ordinal : Nat
  kind : LeafKind
  deriving DecidableEq, Repr

/-- Look for the leaf at data slot `s` of member `mem` of group `grp`: stripe area (`area` 0) or gradient (1). -/
def leafAtSlot (m : Manifest) (grp mem area s : Nat) : List Binding → Option LeafRef
  | [] => none
  | b :: bs =>
    match leafFormat m.formats b.format with
    | none => leafAtSlot m grp mem area s bs
    | some f =>
      if b.group = grp ∧ b.member = mem then
        if area = 0 then
          if b.firstData ≤ s ∧ s < b.firstData + stateLeaves f.p b then some ⟨b, f, s - b.firstData, .state⟩
          else if b.maskFirst ≤ s ∧ s < b.maskFirst + maskLeaves b then some ⟨b, f, s - b.maskFirst, .mask⟩
          else leafAtSlot m grp mem area s bs
        else if b.gradFirst ≤ s ∧ s < b.gradFirst + gradLeaves b then some ⟨b, f, s - b.gradFirst, .gradient⟩
        else leafAtSlot m grp mem area s bs
      else leafAtSlot m grp mem area s bs

/-- The leaf that member `mem` of group `g` binds in row `j` of an area, if its slot there is a bound data slot. -/
def leafAt (m : Manifest) (g : GroupEntry) (mem area j : Nat) : Option LeafRef :=
  if isData g.k g.n mem j then leafAtSlot m g.group mem area (dataSlot g.k g.n mem j) m.bindings else none

/-- Dense elements per leaf of the reference's kind. -/
def LeafRef.span (l : LeafRef) : Nat :=
  match l.kind with
  | .state => l.format.p
  | .gradient => gradSpan l.binding.s24
  | .mask => maskSpan

/-- ELEM_OFFSET of the leaf's postmark (R21, R29). -/
def LeafRef.elemOffset (l : LeafRef) : Nat :=
  match l.kind with
  | .state => l.binding.elemOffset + l.ordinal * l.format.p
  | _ => (l.binding.elemOffset / l.span + l.ordinal) * l.span

/-- ELEM_COUNT of the leaf's postmark: to the binding's last element within the leaf (R29). -/
def LeafRef.elemCount (l : LeafRef) : Nat :=
  min l.span (l.binding.elemOffset + l.binding.elemCount - l.elemOffset)

/-- The leaf index within the tensor (R22). -/
def LeafRef.index (l : LeafRef) : Nat := l.elemOffset / l.span

/-- FORMAT code of the leaf's postmark. -/
def LeafRef.code (l : LeafRef) : Nat :=
  match l.kind with
  | .state => l.binding.format
  | .gradient => if l.binding.s24 then 0x11 else 0x10
  | .mask => 0x18

/-- KIND code of the leaf's postmark (Table 1.2). -/
def LeafRef.kindCode (l : LeafRef) : Nat :=
  match l.kind with
  | .state => 1
  | .gradient => 2
  | .mask => 3

/-- Is a data slot of member `mem` at row `j` expected to contribute (R70)? State leaves in the stripe area, bound
gradient slots in a gradient area; in a load pass every bound slot (R70, R55). -/
def expectsContribution (m : Manifest) (g : GroupEntry) (mem area j : Nat) (load : Bool) : Bool :=
  match leafAt m g mem area j with
  | some l => decide (l.kind ≠ .mask) || load
  | none => false

/-- Number of rows of an area (stripe 0, gradient 1). -/
def areaRows (m : Manifest) (area : Nat) : Nat := if area = 0 then m.stripeRows else m.gradRows

/-- The gradient leaves (row-ordinals of the same binding) that a state leaf covers (R29): ordinals from first to last. -/
def coveredGrads (l : LeafRef) : List Nat :=
  let span := gradSpan l.binding.s24
  let first := l.elemOffset / span
  let last := (l.elemOffset + l.elemCount - 1) / span
  if l.elemCount = 0 then [] else
    (List.range (last - first + 1)).map (fun i => first + i - l.binding.elemOffset / span)

/-- The gradient leaves of an intake entry, as ordinals of its binding. -/
def bucketGrads (b : Binding) (e : IntakeEntry) : List Nat :=
  let span := gradSpan b.s24
  if e.elemCount = 0 then [] else
    (List.range ((e.elemOffset + e.elemCount - 1) / span - e.elemOffset / span + 1)).map
      (fun i => e.elemOffset / span + i - b.elemOffset / span)

/-- Bits of the intake table of a member (R97): the pairs of bucket index and entry. -/
def memberIntake (m : Manifest) (grp mem : Nat) : List (Nat × IntakeEntry) :=
  ((List.range m.intake.length).zip m.intake).filter (fun x => decide (x.2.group = grp) && decide (x.2.member = mem))

end Sys2Proof.Machine
end

