-- ==== Sys2Proof/Machine/Regs.lean ====
section
/-!
DEFINITION. The register window's names and layout: the pages of Table 17.1 (R436), the common header (Tables
17.2 to 17.9), and every page-specific register of Tables 17.15 to 17.19 (R452) with its field masks by access type
(R12) and its reset value. One `Fld` per named field of the chapters' field tables.
-/

namespace Sys2Proof.Machine

/-- The kinds of page in the window (Table 17.1 and Table 17.4). -/
inductive PageKind where
  | global | region | slice | fn | wheel | port | fife | drone | floor | nvm | clkpwr | twin | seal
  deriving DecidableEq, Repr

/-- A named field of a register: the register's page offset and the field's bits `hi:lo`. -/
structure Fld where
  off : Nat
  hi : Nat
  lo : Nat
  deriving DecidableEq, Repr

/-- One row of the register index: `count` words from page offset `off`, the masks of the fields of each access type
(R12), the reset value on Lyith-F and on Lyith-C, whether the register is a HI register latched by its LO register
(R437), and whether the configuration store replaces its reset value at chip reset (the index's mark (S)). -/
structure RegDesc where
  off : Nat
  count : Nat
  rw : Nat
  w1c : Nat
  wo : Nat
  rc : Nat
  rws : Nat
  rwl : Nat
  resetF : Nat
  resetC : Nat
  latched : Bool
  stored : Bool
  deriving DecidableEq, Repr

/-! ### The common header -/
/-- PAGE_STATUS.PRESENT (RO). -/
def HDR_PAGE_STATUS_PRESENT : Fld := ⟨0x00C, 31, 31⟩
/-- PAGE_STATUS.POWERED (RO). -/
def HDR_PAGE_STATUS_POWERED : Fld := ⟨0x00C, 30, 30⟩
/-- PAGE_STATUS.FENCED (RO). -/
def HDR_PAGE_STATUS_FENCED : Fld := ⟨0x00C, 29, 29⟩
/-- PAGE_STATUS.FAILED (RO). -/
def HDR_PAGE_STATUS_FAILED : Fld := ⟨0x00C, 28, 28⟩
/-- PAGE_CTRL.CLEAR_COUNTS (WO). -/
def HDR_PAGE_CTRL_CLEAR_COUNTS : Fld := ⟨0x010, 31, 31⟩
/-- ERR_SUMMARY.ESCALATED_UP (W1C). -/
def HDR_ERR_SUMMARY_ESCALATED_UP : Fld := ⟨0x014, 31, 31⟩
/-- ERR_SUMMARY.ESCALATED_IN (W1C). -/
def HDR_ERR_SUMMARY_ESCALATED_IN : Fld := ⟨0x014, 30, 30⟩
/-- ERR_SUMMARY.LOCK (W1C). -/
def HDR_ERR_SUMMARY_LOCK : Fld := ⟨0x014, 11, 11⟩
/-- ERR_SUMMARY.POWER (W1C). -/
def HDR_ERR_SUMMARY_POWER : Fld := ⟨0x014, 10, 10⟩
/-- ERR_SUMMARY.NVM (W1C). -/
def HDR_ERR_SUMMARY_NVM : Fld := ⟨0x014, 9, 9⟩
/-- ERR_SUMMARY.FLOOR (W1C). -/
def HDR_ERR_SUMMARY_FLOOR : Fld := ⟨0x014, 8, 8⟩
/-- ERR_SUMMARY.SEAL (W1C). -/
def HDR_ERR_SUMMARY_SEAL : Fld := ⟨0x014, 7, 7⟩
/-- ERR_SUMMARY.FIFE (W1C). -/
def HDR_ERR_SUMMARY_FIFE : Fld := ⟨0x014, 6, 6⟩
/-- ERR_SUMMARY.FABRIC (W1C). -/
def HDR_ERR_SUMMARY_FABRIC : Fld := ⟨0x014, 5, 5⟩
/-- ERR_SUMMARY.AUDIT (W1C). -/
def HDR_ERR_SUMMARY_AUDIT : Fld := ⟨0x014, 4, 4⟩
/-- ERR_SUMMARY.CORE (W1C). -/
def HDR_ERR_SUMMARY_CORE : Fld := ⟨0x014, 3, 3⟩
/-- ERR_SUMMARY.QUEUE (W1C). -/
def HDR_ERR_SUMMARY_QUEUE : Fld := ⟨0x014, 2, 2⟩
/-- ERR_SUMMARY.SRAM (W1C). -/
def HDR_ERR_SUMMARY_SRAM : Fld := ⟨0x014, 1, 1⟩
/-- ERR_SUMMARY.LINE (W1C). -/
def HDR_ERR_SUMMARY_LINE : Fld := ⟨0x014, 0, 0⟩
/-- LOCK.LOCKED (RWL). -/
def HDR_LOCK_LOCKED : Fld := ⟨0x024, 0, 0⟩
/-- INT_STATUS.ERROR of the pages of R443. -/
def HDR_INT_STATUS_ERROR : Fld := ⟨0x018, 0, 0⟩
/-- LY_FN_INT_STATUS.CPL (W1C; the same bit of INT_ENABLE and INT_FORCE). -/
def FN_INT_CPL : Fld := ⟨0x018, 31, 31⟩
/-- LY_FN_INT_STATUS.EVENT (W1C; the same bit of INT_ENABLE and INT_FORCE). -/
def FN_INT_EVENT : Fld := ⟨0x018, 30, 30⟩
/-- LY_FN_INT_STATUS.OVERFLOW (W1C; the same bit of INT_ENABLE and INT_FORCE). -/
def FN_INT_OVERFLOW : Fld := ⟨0x018, 29, 29⟩
/-- LY_FN_INT_STATUS.DOORBELL_BAD (W1C; the same bit of INT_ENABLE and INT_FORCE). -/
def FN_INT_DOORBELL_BAD : Fld := ⟨0x018, 28, 28⟩
/-- LY_FN_INT_STATUS.STATE_CHANGE (W1C; the same bit of INT_ENABLE and INT_FORCE). -/
def FN_INT_STATE_CHANGE : Fld := ⟨0x018, 27, 27⟩
/-- LY_FN_INT_STATUS.DENIED (W1C; the same bit of INT_ENABLE and INT_FORCE). -/
def FN_INT_DENIED : Fld := ⟨0x018, 26, 26⟩
/-- LY_FN_INT_STATUS.LOCK_VIOLATION (W1C; the same bit of INT_ENABLE and INT_FORCE). -/
def FN_INT_LOCK_VIOLATION : Fld := ⟨0x018, 25, 25⟩
/-- LY_CLKPWR_INT_STATUS.PFAIL (W1C; the same bit of INT_ENABLE and INT_FORCE). -/
def CLKPWR_INT_PFAIL : Fld := ⟨0x018, 5, 5⟩
/-- LY_CLKPWR_INT_STATUS.STRAP_BAD (W1C; the same bit of INT_ENABLE and INT_FORCE). -/
def CLKPWR_INT_STRAP_BAD : Fld := ⟨0x018, 4, 4⟩
/-- LY_CLKPWR_INT_STATUS.THERM_TRIP (W1C; the same bit of INT_ENABLE and INT_FORCE). -/
def CLKPWR_INT_THERM_TRIP : Fld := ⟨0x018, 3, 3⟩
/-- LY_CLKPWR_INT_STATUS.THERM_WARN (W1C; the same bit of INT_ENABLE and INT_FORCE). -/
def CLKPWR_INT_THERM_WARN : Fld := ⟨0x018, 2, 2⟩
/-- LY_CLKPWR_INT_STATUS.PCAP_OVER (W1C; the same bit of INT_ENABLE and INT_FORCE). -/
def CLKPWR_INT_PCAP_OVER : Fld := ⟨0x018, 1, 1⟩
/-- LY_CLKPWR_INT_STATUS.REF_LOST (W1C; the same bit of INT_ENABLE and INT_FORCE). -/
def CLKPWR_INT_REF_LOST : Fld := ⟨0x018, 0, 0⟩
/-- LY_TWIN_INT_STATUS.PARTNER_LOST (W1C; the same bit of INT_ENABLE and INT_FORCE). -/
def TWIN_INT_PARTNER_LOST : Fld := ⟨0x018, 2, 2⟩
/-- LY_TWIN_INT_STATUS.PAIR_FAIL (W1C; the same bit of INT_ENABLE and INT_FORCE). -/
def TWIN_INT_PAIR_FAIL : Fld := ⟨0x018, 1, 1⟩
/-- LY_TWIN_INT_STATUS.MISMATCH (W1C; the same bit of INT_ENABLE and INT_FORCE). -/
def TWIN_INT_MISMATCH : Fld := ⟨0x018, 0, 0⟩
/-! ### LY_GLOBAL_FN_ENABLE_LO -/
/-- LY_GLOBAL_FN_ENABLE_LO.EN (RW). -/
def GLOBAL_FN_ENABLE_LO_EN : Fld := ⟨0x040, 31, 1⟩
/-- LY_GLOBAL_FN_ENABLE_LO.MF (RO). -/
def GLOBAL_FN_ENABLE_LO_MF : Fld := ⟨0x040, 0, 0⟩
/-! ### LY_GLOBAL_FN_ENABLE_HI -/
/-- LY_GLOBAL_FN_ENABLE_HI.EN (RW). -/
def GLOBAL_FN_ENABLE_HI_EN : Fld := ⟨0x044, 31, 0⟩
/-! ### LY_GLOBAL_LOCK_INFO -/
/-- LY_GLOBAL_LOCK_INFO.MULTIPLE (W1C). -/
def GLOBAL_LOCK_INFO_MULTIPLE : Fld := ⟨0x048, 31, 31⟩
/-- LY_GLOBAL_LOCK_INFO.PAGE (RO). -/
def GLOBAL_LOCK_INFO_PAGE : Fld := ⟨0x048, 30, 12⟩
/-- LY_GLOBAL_LOCK_INFO.OFFSET (RO). -/
def GLOBAL_LOCK_INFO_OFFSET : Fld := ⟨0x048, 11, 0⟩
/-! ### LY_GLOBAL_WITHDRAW -/
/-- LY_GLOBAL_WITHDRAW.WITHDRAWN (RO). -/
def GLOBAL_WITHDRAW_WITHDRAWN : Fld := ⟨0x04C, 31, 31⟩
/-- LY_GLOBAL_WITHDRAW.CAUSE (RO). -/
def GLOBAL_WITHDRAW_CAUSE : Fld := ⟨0x04C, 30, 28⟩
/-- LY_GLOBAL_WITHDRAW.CHANNEL (RO). -/
def GLOBAL_WITHDRAW_CHANNEL : Fld := ⟨0x04C, 27, 22⟩
/-! ### LY_GLOBAL_WINDOW_STATUS -/
/-- LY_GLOBAL_WINDOW_STATUS.PARTIAL (W1C). -/
def GLOBAL_WINDOW_STATUS_PARTIAL : Fld := ⟨0x050, 31, 31⟩
/-- LY_GLOBAL_WINDOW_STATUS.SEAL_STRAY (W1C). -/
def GLOBAL_WINDOW_STATUS_SEAL_STRAY : Fld := ⟨0x050, 30, 30⟩
/-- LY_GLOBAL_WINDOW_STATUS.SEAL_CONFLICT (W1C). -/
def GLOBAL_WINDOW_STATUS_SEAL_CONFLICT : Fld := ⟨0x050, 29, 29⟩
/-- LY_GLOBAL_WINDOW_STATUS.STRAYS (RC). -/
def GLOBAL_WINDOW_STATUS_STRAYS : Fld := ⟨0x050, 15, 0⟩
/-! ### LY_GLOBAL_QOS_GRANT -/
/-- LY_GLOBAL_QOS_GRANT.GRANT_BASE (RW). -/
def GLOBAL_QOS_GRANT_GRANT_BASE : Fld := ⟨0x104, 31, 26⟩
/-- LY_GLOBAL_QOS_GRANT.GRANT_LEN (RW). -/
def GLOBAL_QOS_GRANT_GRANT_LEN : Fld := ⟨0x104, 25, 19⟩
/-- LY_GLOBAL_QOS_GRANT.WEIGHT_CAP (RW). -/
def GLOBAL_QOS_GRANT_WEIGHT_CAP : Fld := ⟨0x104, 18, 15⟩
/-! ### LY_GLOBAL_NEAR_GRANT -/
/-- LY_GLOBAL_NEAR_GRANT.NEAR_BASE (RW). -/
def GLOBAL_NEAR_GRANT_NEAR_BASE : Fld := ⟨0x204, 31, 21⟩
/-- LY_GLOBAL_NEAR_GRANT.NEAR_SIZE (RW). -/
def GLOBAL_NEAR_GRANT_NEAR_SIZE : Fld := ⟨0x204, 20, 10⟩
/-! ### LY_Q_FENCE -/
/-- LY_Q_FENCE.FENCED (RO). -/
def Q_FENCE_FENCED : Fld := ⟨0x040, 31, 31⟩
/-- LY_Q_FENCE.POISON (RC). -/
def Q_FENCE_POISON : Fld := ⟨0x040, 15, 0⟩
/-! ### LY_SL_LEDGER_STATUS -/
/-- LY_SL_LEDGER_STATUS.BAD (W1C). -/
def SL_LEDGER_STATUS_BAD : Fld := ⟨0x040, 31, 31⟩
/-- LY_SL_LEDGER_STATUS.HIGH_WATER (RO). -/
def SL_LEDGER_STATUS_HIGH_WATER : Fld := ⟨0x040, 30, 18⟩
/-- LY_SL_LEDGER_STATUS.IN_USE (RO). -/
def SL_LEDGER_STATUS_IN_USE : Fld := ⟨0x040, 17, 0⟩
/-! ### LY_SL_MAILBAG_STATUS -/
/-- LY_SL_MAILBAG_STATUS.RESERVED_ROWS (RO). -/
def SL_MAILBAG_STATUS_RESERVED_ROWS : Fld := ⟨0x044, 31, 26⟩
/-- LY_SL_MAILBAG_STATUS.HIGH_WATER (RO). -/
def SL_MAILBAG_STATUS_HIGH_WATER : Fld := ⟨0x044, 25, 20⟩
/-- LY_SL_MAILBAG_STATUS.DISCARDS (RC). -/
def SL_MAILBAG_STATUS_DISCARDS : Fld := ⟨0x044, 19, 12⟩
/-- LY_SL_MAILBAG_STATUS.HELD (RC). -/
def SL_MAILBAG_STATUS_HELD : Fld := ⟨0x044, 11, 4⟩
/-- LY_SL_MAILBAG_STATUS.DUPLICATES (RC). -/
def SL_MAILBAG_STATUS_DUPLICATES : Fld := ⟨0x044, 3, 0⟩
/-! ### LY_SL_LANDING_STATUS -/
/-- LY_SL_LANDING_STATUS.QUEUE_HIGH_WATER (RO). -/
def SL_LANDING_STATUS_QUEUE_HIGH_WATER : Fld := ⟨0x048, 31, 27⟩
/-- LY_SL_LANDING_STATUS.QUEUE_FULL (RC). -/
def SL_LANDING_STATUS_QUEUE_FULL : Fld := ⟨0x048, 26, 15⟩
/-- LY_SL_LANDING_STATUS.LINES_IN_USE (RO). -/
def SL_LANDING_STATUS_LINES_IN_USE : Fld := ⟨0x048, 14, 0⟩
/-! ### LY_SL_CORE_STATUS -/
/-- LY_SL_CORE_STATUS.FAILED (RO). -/
def SL_CORE_STATUS_FAILED : Fld := ⟨0x04C, 31, 0⟩
/-! ### LY_SL_CORE_COUNT -/
/-- LY_SL_CORE_COUNT.RETRIES (RC). -/
def SL_CORE_COUNT_RETRIES : Fld := ⟨0x050, 31, 16⟩
/-- LY_SL_CORE_COUNT.RESTARTS (RC). -/
def SL_CORE_COUNT_RESTARTS : Fld := ⟨0x050, 15, 0⟩
/-! ### LY_SL_OCCUPANCY -/
/-- LY_SL_OCCUPANCY.CH3 (RO). -/
def SL_OCCUPANCY_CH3 : Fld := ⟨0x054, 31, 24⟩
/-- LY_SL_OCCUPANCY.CH2 (RO). -/
def SL_OCCUPANCY_CH2 : Fld := ⟨0x054, 23, 16⟩
/-- LY_SL_OCCUPANCY.CH1 (RO). -/
def SL_OCCUPANCY_CH1 : Fld := ⟨0x054, 15, 8⟩
/-- LY_SL_OCCUPANCY.CH0 (RO). -/
def SL_OCCUPANCY_CH0 : Fld := ⟨0x054, 7, 0⟩
/-! ### LY_SL_HOT -/
/-- LY_SL_HOT.DEEP (W1C). -/
def SL_HOT_DEEP : Fld := ⟨0x058, 11, 8⟩
/-- LY_SL_HOT.NEAR (W1C). -/
def SL_HOT_NEAR : Fld := ⟨0x058, 7, 0⟩
/-! ### LY_SL_LINE_STATUS -/
/-- LY_SL_LINE_STATUS.FAILED (RO). -/
def SL_LINE_STATUS_FAILED : Fld := ⟨0x05C, 31, 28⟩
/-- LY_SL_LINE_STATUS.HALTED (RO). -/
def SL_LINE_STATUS_HALTED : Fld := ⟨0x05C, 27, 24⟩
/-- LY_SL_LINE_STATUS.REMAP_FULL (W1C). -/
def SL_LINE_STATUS_REMAP_FULL : Fld := ⟨0x05C, 23, 20⟩
/-- LY_SL_LINE_STATUS.ADDRESS (W1C). -/
def SL_LINE_STATUS_ADDRESS : Fld := ⟨0x05C, 19, 16⟩
/-! ### LY_SL_LINE_COUNT -/
/-- LY_SL_LINE_COUNT.CE (RC). -/
def SL_LINE_COUNT_CE : Fld := ⟨0x060, 31, 16⟩
/-- LY_SL_LINE_COUNT.UE (RC). -/
def SL_LINE_COUNT_UE : Fld := ⟨0x060, 15, 8⟩
/-- LY_SL_LINE_COUNT.HALTS (RC). -/
def SL_LINE_COUNT_HALTS : Fld := ⟨0x060, 7, 0⟩
/-! ### LY_SL_CHK_CTRL -/
/-- LY_SL_CHK_CTRL.ENABLE (RW). -/
def SL_CHK_CTRL_ENABLE : Fld := ⟨0x064, 31, 31⟩
/-- LY_SL_CHK_CTRL.GO (WO). -/
def SL_CHK_CTRL_GO : Fld := ⟨0x064, 30, 30⟩
/-- LY_SL_CHK_CTRL.BUSY (RO). -/
def SL_CHK_CTRL_BUSY : Fld := ⟨0x064, 29, 29⟩
/-- LY_SL_CHK_CTRL.STATUS (RO). -/
def SL_CHK_CTRL_STATUS : Fld := ⟨0x064, 28, 27⟩
/-- LY_SL_CHK_CTRL.SYMBOLS (RO). -/
def SL_CHK_CTRL_SYMBOLS : Fld := ⟨0x064, 26, 25⟩
/-- LY_SL_CHK_CTRL.OP (RW). -/
def SL_CHK_CTRL_OP : Fld := ⟨0x064, 1, 0⟩
/-! ### LY_SL_CHK_ADDR -/
/-- LY_SL_CHK_ADDR.CHANNEL (RW). -/
def SL_CHK_ADDR_CHANNEL : Fld := ⟨0x068, 24, 23⟩
/-- LY_SL_CHK_ADDR.BLOCK (RW). -/
def SL_CHK_ADDR_BLOCK : Fld := ⟨0x068, 22, 0⟩
/-! ### LY_SL_AUDIT_STATUS -/
/-- LY_SL_AUDIT_STATUS.FAULT (W1C). -/
def SL_AUDIT_STATUS_FAULT : Fld := ⟨0x06C, 31, 31⟩
/-- LY_SL_AUDIT_STATUS.UNRESOLVED (W1C). -/
def SL_AUDIT_STATUS_UNRESOLVED : Fld := ⟨0x06C, 30, 30⟩
/-- LY_SL_AUDIT_STATUS.CORE (RO). -/
def SL_AUDIT_STATUS_CORE : Fld := ⟨0x06C, 29, 25⟩
/-- LY_SL_AUDIT_STATUS.LINE (RO). -/
def SL_AUDIT_STATUS_LINE : Fld := ⟨0x06C, 24, 15⟩
/-- LY_SL_AUDIT_STATUS.LATE (RC). -/
def SL_AUDIT_STATUS_LATE : Fld := ⟨0x06C, 14, 8⟩
/-- LY_SL_AUDIT_STATUS.AUDITS (RC). -/
def SL_AUDIT_STATUS_AUDITS : Fld := ⟨0x06C, 7, 0⟩
/-! ### LY_SL_REMAP -/
/-- LY_SL_REMAP.VALID (RW). -/
def SL_REMAP_VALID : Fld := ⟨0x400, 31, 31⟩
/-- LY_SL_REMAP.BLOCK (RW). -/
def SL_REMAP_BLOCK : Fld := ⟨0x400, 22, 0⟩
/-! ### LY_SL_CHK_BUF -/
/-- LY_SL_CHK_BUF.WORD (RW). -/
def SL_CHK_BUF_WORD : Fld := ⟨0x800, 31, 0⟩
/-! ### LY_WHEEL_CTRL -/
/-- LY_WHEEL_CTRL.LEN_LOG2 (RW). -/
def WHEEL_CTRL_LEN_LOG2 : Fld := ⟨0x040, 31, 28⟩
/-- LY_WHEEL_CTRL.LAUNCH (WO). -/
def WHEEL_CTRL_LAUNCH : Fld := ⟨0x040, 27, 27⟩
/-- LY_WHEEL_CTRL.SET (WO). -/
def WHEEL_CTRL_SET : Fld := ⟨0x040, 26, 26⟩
/-- LY_WHEEL_CTRL.HOT_PCT (RW). -/
def WHEEL_CTRL_HOT_PCT : Fld := ⟨0x040, 7, 0⟩
/-! ### LY_WHEEL_STATUS -/
/-- LY_WHEEL_STATUS.COUNTER_STATE (RO). -/
def WHEEL_STATUS_COUNTER_STATE : Fld := ⟨0x044, 31, 30⟩
/-- LY_WHEEL_STATUS.LAUNCH_FAIL (W1C). -/
def WHEEL_STATUS_LAUNCH_FAIL : Fld := ⟨0x044, 29, 29⟩
/-- LY_WHEEL_STATUS.LINE_DELAY (RO). -/
def WHEEL_STATUS_LINE_DELAY : Fld := ⟨0x044, 23, 16⟩
/-- LY_WHEEL_STATUS.REFRESH_REQ (RO). -/
def WHEEL_STATUS_REFRESH_REQ : Fld := ⟨0x044, 15, 14⟩
/-- LY_WHEEL_STATUS.REFRESH_SCHED (RO). -/
def WHEEL_STATUS_REFRESH_SCHED : Fld := ⟨0x044, 13, 12⟩
/-! ### LY_WHEEL_COUNTER_LO -/
/-- LY_WHEEL_COUNTER_LO.COUNTER_LO (RO). -/
def WHEEL_COUNTER_LO_COUNTER_LO : Fld := ⟨0x048, 31, 0⟩
/-! ### LY_WHEEL_COUNTER_HI -/
/-- LY_WHEEL_COUNTER_HI.COUNTER_HI (RO). -/
def WHEEL_COUNTER_HI_COUNTER_HI : Fld := ⟨0x04C, 31, 0⟩
/-! ### LY_WHEEL_COUNTER_SET_LO -/
/-- LY_WHEEL_COUNTER_SET_LO.SET_LO (RW). -/
def WHEEL_COUNTER_SET_LO_SET_LO : Fld := ⟨0x050, 31, 0⟩
/-! ### LY_WHEEL_COUNTER_SET_HI -/
/-- LY_WHEEL_COUNTER_SET_HI.SET_HI (RW). -/
def WHEEL_COUNTER_SET_HI_SET_HI : Fld := ⟨0x054, 31, 0⟩
/-! ### LY_WHEEL_COUNTER_ADJ -/
/-- LY_WHEEL_COUNTER_ADJ.PENDING (RO). -/
def WHEEL_COUNTER_ADJ_PENDING : Fld := ⟨0x058, 31, 16⟩
/-- LY_WHEEL_COUNTER_ADJ.ADJ (WO). -/
def WHEEL_COUNTER_ADJ_ADJ : Fld := ⟨0x058, 15, 0⟩
/-! ### LY_PORT_STATUS -/
/-- LY_PORT_STATUS.XOFF_OUT (RO). -/
def PORT_STATUS_XOFF_OUT : Fld := ⟨0x040, 31, 25⟩
/-- LY_PORT_STATUS.XOFF_IN (RO). -/
def PORT_STATUS_XOFF_IN : Fld := ⟨0x040, 24, 18⟩
/-- LY_PORT_STATUS.DEGRADED (RO). -/
def PORT_STATUS_DEGRADED : Fld := ⟨0x040, 17, 17⟩
/-- LY_PORT_STATUS.TC0_OVERRUN (W1C). -/
def PORT_STATUS_TC0_OVERRUN : Fld := ⟨0x040, 16, 16⟩
/-- LY_PORT_STATUS.RATE (RO). -/
def PORT_STATUS_RATE : Fld := ⟨0x040, 10, 0⟩
/-! ### LY_PORT_TC_WEIGHT0 -/
/-- LY_PORT_TC_WEIGHT0.TC4 (RW). -/
def PORT_TC_WEIGHT0_TC4 : Fld := ⟨0x044, 31, 24⟩
/-- LY_PORT_TC_WEIGHT0.TC3 (RW). -/
def PORT_TC_WEIGHT0_TC3 : Fld := ⟨0x044, 23, 16⟩
/-- LY_PORT_TC_WEIGHT0.TC2 (RW). -/
def PORT_TC_WEIGHT0_TC2 : Fld := ⟨0x044, 15, 8⟩
/-- LY_PORT_TC_WEIGHT0.TC1 (RW). -/
def PORT_TC_WEIGHT0_TC1 : Fld := ⟨0x044, 7, 0⟩
/-! ### LY_PORT_TC_WEIGHT1 -/
/-- LY_PORT_TC_WEIGHT1.TC7 (RW). -/
def PORT_TC_WEIGHT1_TC7 : Fld := ⟨0x048, 23, 16⟩
/-- LY_PORT_TC_WEIGHT1.TC6 (RW). -/
def PORT_TC_WEIGHT1_TC6 : Fld := ⟨0x048, 15, 8⟩
/-- LY_PORT_TC_WEIGHT1.TC5 (RW). -/
def PORT_TC_WEIGHT1_TC5 : Fld := ⟨0x048, 7, 0⟩
/-! ### LY_PORT_TC_CAP0 -/
/-- LY_PORT_TC_CAP0.TC4 (RW). -/
def PORT_TC_CAP0_TC4 : Fld := ⟨0x04C, 31, 24⟩
/-- LY_PORT_TC_CAP0.TC3 (RW). -/
def PORT_TC_CAP0_TC3 : Fld := ⟨0x04C, 23, 16⟩
/-- LY_PORT_TC_CAP0.TC2 (RW). -/
def PORT_TC_CAP0_TC2 : Fld := ⟨0x04C, 15, 8⟩
/-- LY_PORT_TC_CAP0.TC1 (RW). -/
def PORT_TC_CAP0_TC1 : Fld := ⟨0x04C, 7, 0⟩
/-! ### LY_PORT_TC_CAP1 -/
/-- LY_PORT_TC_CAP1.TC7 (RW). -/
def PORT_TC_CAP1_TC7 : Fld := ⟨0x050, 23, 16⟩
/-- LY_PORT_TC_CAP1.TC6 (RW). -/
def PORT_TC_CAP1_TC6 : Fld := ⟨0x050, 15, 8⟩
/-- LY_PORT_TC_CAP1.TC5 (RW). -/
def PORT_TC_CAP1_TC5 : Fld := ⟨0x050, 7, 0⟩
/-! ### LY_PORT_LINK_SHARE -/
/-- LY_PORT_LINK_SHARE.SHARE (RW). -/
def PORT_LINK_SHARE_SHARE : Fld := ⟨0x054, 6, 0⟩
/-! ### LY_PORT_LINK -/
/-- LY_PORT_LINK.L7 (RO). -/
def PORT_LINK_L7 : Fld := ⟨0x058, 31, 28⟩
/-- LY_PORT_LINK.L6–L1 (RO). -/
def PORT_LINK_L6_L1 : Fld := ⟨0x058, 27, 4⟩
/-- LY_PORT_LINK.L0 (RO). -/
def PORT_LINK_L0 : Fld := ⟨0x058, 3, 0⟩
/-! ### LY_PORT_DLB_STATUS -/
/-- LY_PORT_DLB_STATUS.WRAPPED (W1C). -/
def PORT_DLB_STATUS_WRAPPED : Fld := ⟨0x068, 31, 31⟩
/-- LY_PORT_DLB_STATUS.NEXT (RO). -/
def PORT_DLB_STATUS_NEXT : Fld := ⟨0x068, 5, 0⟩
/-! ### LY_PORT_DLB_COUNT -/
/-- LY_PORT_DLB_COUNT.TOTAL (RC). -/
def PORT_DLB_COUNT_TOTAL : Fld := ⟨0x06C, 31, 0⟩
/-! ### LY_PORT_COUNT -/
/-- LY_PORT_COUNT.STORE_DROP (RC). -/
def PORT_COUNT_STORE_DROP : Fld := ⟨0x070, 31, 16⟩
/-- LY_PORT_COUNT.REFUSALS (RC). -/
def PORT_COUNT_REFUSALS : Fld := ⟨0x070, 15, 0⟩
/-! ### LY_PORT_WATCH_STATUS -/
/-- LY_PORT_WATCH_STATUS.COUNT (RO). -/
def PORT_WATCH_STATUS_COUNT : Fld := ⟨0x074, 31, 27⟩
/-- LY_PORT_WATCH_STATUS.FULL (W1C). -/
def PORT_WATCH_STATUS_FULL : Fld := ⟨0x074, 26, 26⟩
/-- LY_PORT_WATCH_STATUS.ISOLATED (W1C). -/
def PORT_WATCH_STATUS_ISOLATED : Fld := ⟨0x074, 25, 25⟩
/-! ### LY_PORT_WATCH_SUSPECT -/
/-- LY_PORT_WATCH_SUSPECT.SUSPECT (RO). -/
def PORT_WATCH_SUSPECT_SUSPECT : Fld := ⟨0x078, 30, 0⟩
/-! ### LY_PORT_MARGIN_LIMIT -/
/-- LY_PORT_MARGIN_LIMIT.WARN_PCT (RW). -/
def PORT_MARGIN_LIMIT_WARN_PCT : Fld := ⟨0x07C, 31, 24⟩
/-- LY_PORT_MARGIN_LIMIT.EVAC_PCT (RW). -/
def PORT_MARGIN_LIMIT_EVAC_PCT : Fld := ⟨0x07C, 23, 16⟩
/-- LY_PORT_MARGIN_LIMIT.HORIZON (RW). -/
def PORT_MARGIN_LIMIT_HORIZON : Fld := ⟨0x07C, 15, 8⟩
/-! ### LY_PORT_MARGIN_STATUS -/
/-- LY_PORT_MARGIN_STATUS.STATE (RO). -/
def PORT_MARGIN_STATUS_STATE : Fld := ⟨0x080, 31, 30⟩
/-- LY_PORT_MARGIN_STATUS.QUANTITY (RO). -/
def PORT_MARGIN_STATUS_QUANTITY : Fld := ⟨0x080, 29, 28⟩
/-- LY_PORT_MARGIN_STATUS.LINK (RO). -/
def PORT_MARGIN_STATUS_LINK : Fld := ⟨0x080, 27, 23⟩
/-- LY_PORT_MARGIN_STATUS.WORST_PCT (RO). -/
def PORT_MARGIN_STATUS_WORST_PCT : Fld := ⟨0x080, 22, 15⟩
/-! ### LY_PORT_DLB -/
/-- LY_PORT_DLB.WORD (RO). -/
def PORT_DLB_WORD : Fld := ⟨0x400, 31, 0⟩
/-! ### LY_FIFE_CTRL -/
/-- LY_FIFE_CTRL.RETRAIN (WO). -/
def FIFE_CTRL_RETRAIN : Fld := ⟨0x040, 31, 31⟩
/-- LY_FIFE_CTRL.TEST_ENABLE (RW). -/
def FIFE_CTRL_TEST_ENABLE : Fld := ⟨0x040, 30, 30⟩
/-- LY_FIFE_CTRL.DRIFT_LIMIT (RW). -/
def FIFE_CTRL_DRIFT_LIMIT : Fld := ⟨0x040, 7, 0⟩
/-! ### LY_FIFE_STATUS -/
/-- LY_FIFE_STATUS.LINE (RO). -/
def FIFE_STATUS_LINE : Fld := ⟨0x044, 31, 29⟩
/-- LY_FIFE_STATUS.PHASE (RO). -/
def FIFE_STATUS_PHASE : Fld := ⟨0x044, 28, 27⟩
/-- LY_FIFE_STATUS.LOCK_LOST (W1C). -/
def FIFE_STATUS_LOCK_LOST : Fld := ⟨0x044, 26, 26⟩
/-- LY_FIFE_STATUS.DRIFT_ALARM (W1C). -/
def FIFE_STATUS_DRIFT_ALARM : Fld := ⟨0x044, 25, 25⟩
/-- LY_FIFE_STATUS.DRIFT (RO). -/
def FIFE_STATUS_DRIFT : Fld := ⟨0x044, 15, 8⟩
/-! ### LY_FIFE_COUNT -/
/-- LY_FIFE_COUNT.BAD_FRAMES (RC). -/
def FIFE_COUNT_BAD_FRAMES : Fld := ⟨0x048, 31, 16⟩
/-- LY_FIFE_COUNT.LOCK_LOSSES (RC). -/
def FIFE_COUNT_LOCK_LOSSES : Fld := ⟨0x048, 15, 8⟩
/-- LY_FIFE_COUNT.REPEATS (RC). -/
def FIFE_COUNT_REPEATS : Fld := ⟨0x048, 7, 0⟩
/-! ### LY_FIFE_SCAN -/
/-- LY_FIFE_SCAN.SCAN (RW). -/
def FIFE_SCAN_SCAN : Fld := ⟨0x04C, 31, 0⟩
/-! ### LY_FIFE_TEST -/
/-- LY_FIFE_TEST.ERRORS (RC). -/
def FIFE_TEST_ERRORS : Fld := ⟨0x050, 31, 0⟩
/-! ### LY_DRONE_CTRL -/
/-- LY_DRONE_CTRL.ENABLE (RW). -/
def DRONE_CTRL_ENABLE : Fld := ⟨0x040, 31, 31⟩
/-- LY_DRONE_CTRL.PARITY (RW). -/
def DRONE_CTRL_PARITY : Fld := ⟨0x040, 30, 30⟩
/-- LY_DRONE_CTRL.RATE (RW). -/
def DRONE_CTRL_RATE : Fld := ⟨0x040, 23, 16⟩
/-- LY_DRONE_CTRL.LAP_LIMIT (RW). -/
def DRONE_CTRL_LAP_LIMIT : Fld := ⟨0x040, 15, 0⟩
/-! ### LY_DRONE_STATUS -/
/-- LY_DRONE_STATUS.DRONE_LAP_LATE (W1C). -/
def DRONE_STATUS_DRONE_LAP_LATE : Fld := ⟨0x044, 31, 31⟩
/-- LY_DRONE_STATUS.PARITY_LAP_LATE (W1C). -/
def DRONE_STATUS_PARITY_LAP_LATE : Fld := ⟨0x044, 30, 30⟩
/-- LY_DRONE_STATUS.DATA_PROGRESS (RO). -/
def DRONE_STATUS_DATA_PROGRESS : Fld := ⟨0x044, 29, 20⟩
/-- LY_DRONE_STATUS.PARITY_PROGRESS (RO). -/
def DRONE_STATUS_PARITY_PROGRESS : Fld := ⟨0x044, 19, 10⟩
/-! ### LY_DRONE_LAPS -/
/-- LY_DRONE_LAPS.DATA_LAP (RO). -/
def DRONE_LAPS_DATA_LAP : Fld := ⟨0x048, 31, 16⟩
/-- LY_DRONE_LAPS.PARITY_LAP (RO). -/
def DRONE_LAPS_PARITY_LAP : Fld := ⟨0x048, 15, 0⟩
/-! ### LY_DRONE_PARITY -/
/-- LY_DRONE_PARITY.PARITY_LIMIT (RW). -/
def DRONE_PARITY_PARITY_LIMIT : Fld := ⟨0x04C, 15, 0⟩
/-! ### LY_DRONE_AUDIT -/
/-- LY_DRONE_AUDIT.ENABLE (RW). -/
def DRONE_AUDIT_ENABLE : Fld := ⟨0x050, 31, 31⟩
/-- LY_DRONE_AUDIT.AUDIT_LIMIT (RW). -/
def DRONE_AUDIT_AUDIT_LIMIT : Fld := ⟨0x050, 15, 0⟩
/-! ### LY_DRONE_WATCH -/
/-- LY_DRONE_WATCH.VALID3 (RW). -/
def DRONE_WATCH_VALID3 : Fld := ⟨0x054, 31, 31⟩
/-- LY_DRONE_WATCH.CH3 (RW). -/
def DRONE_WATCH_CH3 : Fld := ⟨0x054, 29, 24⟩
/-- LY_DRONE_WATCH.VALID2–VALID0, CH2–CH0 (RW). -/
def DRONE_WATCH_VALID2_VALID0_CH2_CH0 : Fld := ⟨0x054, 23, 0⟩
/-! ### LY_DRONE_LOG_STATUS -/
/-- LY_DRONE_LOG_STATUS.LOG_FULL (W1C). -/
def DRONE_LOG_STATUS_LOG_FULL : Fld := ⟨0x058, 31, 31⟩
/-- LY_DRONE_LOG_STATUS.CLEAR (WO). -/
def DRONE_LOG_STATUS_CLEAR : Fld := ⟨0x058, 30, 30⟩
/-- LY_DRONE_LOG_STATUS.ENTRIES (RO). -/
def DRONE_LOG_STATUS_ENTRIES : Fld := ⟨0x058, 6, 0⟩
/-! ### LY_DRONE_LOG -/
/-- LY_DRONE_LOG.WORD (RO). -/
def DRONE_LOG_WORD : Fld := ⟨0x800, 31, 0⟩
/-! ### LY_FLOOR_STATUS -/
/-- LY_FLOOR_STATUS.STATE (RO). -/
def FLOOR_STATUS_STATE : Fld := ⟨0x040, 31, 29⟩
/-- LY_FLOOR_STATUS.ENDURANCE_LOW (W1C). -/
def FLOOR_STATUS_ENDURANCE_LOW : Fld := ⟨0x040, 28, 28⟩
/-- LY_FLOOR_STATUS.PUSH_FULL (W1C). -/
def FLOOR_STATUS_PUSH_FULL : Fld := ⟨0x040, 27, 27⟩
/-- LY_FLOOR_STATUS.MULT_LOG2 (RO). -/
def FLOOR_STATUS_MULT_LOG2 : Fld := ⟨0x040, 26, 24⟩
/-- LY_FLOOR_STATUS.FREE_BANDS (RO). -/
def FLOOR_STATUS_FREE_BANDS : Fld := ⟨0x040, 11, 0⟩
/-! ### LY_FLOOR_WEAR -/
/-- LY_FLOOR_WEAR.USED_PERMILLE (RO). -/
def FLOOR_WEAR_USED_PERMILLE : Fld := ⟨0x044, 31, 22⟩
/-- LY_FLOOR_WEAR.LIFE_PERMILLE (RO). -/
def FLOOR_WEAR_LIFE_PERMILLE : Fld := ⟨0x044, 21, 12⟩
/-- LY_FLOOR_WEAR.BAD_BLOCKS (RO). -/
def FLOOR_WEAR_BAD_BLOCKS : Fld := ⟨0x044, 11, 0⟩
/-! ### LY_FLOOR_PUSH_AREA -/
/-- LY_FLOOR_PUSH_AREA.PUSH_BASE (RW). -/
def FLOOR_PUSH_AREA_PUSH_BASE : Fld := ⟨0x048, 31, 21⟩
/-- LY_FLOOR_PUSH_AREA.PUSH_SIZE (RW). -/
def FLOOR_PUSH_AREA_PUSH_SIZE : Fld := ⟨0x048, 20, 11⟩
/-! ### LY_FLOOR_COUNT -/
/-- LY_FLOOR_COUNT.VERIFY_FAIL (RC). -/
def FLOOR_COUNT_VERIFY_FAIL : Fld := ⟨0x04C, 31, 16⟩
/-- LY_FLOOR_COUNT.PROGRAM_FAIL (RC). -/
def FLOOR_COUNT_PROGRAM_FAIL : Fld := ⟨0x04C, 15, 8⟩
/-- LY_FLOOR_COUNT.SKIPPED (RC). -/
def FLOOR_COUNT_SKIPPED : Fld := ⟨0x04C, 7, 0⟩
/-! ### LY_NVM_STATUS -/
/-- LY_NVM_STATUS.HALF (RO). -/
def NVM_STATUS_HALF : Fld := ⟨0x040, 31, 31⟩
/-- LY_NVM_STATUS.COMPACTING (RO). -/
def NVM_STATUS_COMPACTING : Fld := ⟨0x040, 30, 30⟩
/-- LY_NVM_STATUS.BUSY (RO). -/
def NVM_STATUS_BUSY : Fld := ⟨0x040, 29, 29⟩
/-- LY_NVM_STATUS.LOAD_ERRORS (W1C). -/
def NVM_STATUS_LOAD_ERRORS : Fld := ⟨0x040, 15, 0⟩
/-! ### LY_NVM_FW_STATUS -/
/-- LY_NVM_FW_STATUS.STAGE (RO). -/
def NVM_FW_STATUS_STAGE : Fld := ⟨0x044, 31, 28⟩
/-- LY_NVM_FW_STATUS.RUNNING_SLOT (RO). -/
def NVM_FW_STATUS_RUNNING_SLOT : Fld := ⟨0x044, 27, 27⟩
/-- LY_NVM_FW_STATUS.SLOT0 (RO). -/
def NVM_FW_STATUS_SLOT0 : Fld := ⟨0x044, 26, 24⟩
/-- LY_NVM_FW_STATUS.SLOT1 (RO). -/
def NVM_FW_STATUS_SLOT1 : Fld := ⟨0x044, 23, 21⟩
/-- LY_NVM_FW_STATUS.TRIAL_LEFT (RO). -/
def NVM_FW_STATUS_TRIAL_LEFT : Fld := ⟨0x044, 20, 17⟩
/-- LY_NVM_FW_STATUS.ROLLED_BACK (W1C). -/
def NVM_FW_STATUS_ROLLED_BACK : Fld := ⟨0x044, 16, 16⟩
/-- LY_NVM_FW_STATUS.VERIFY_FAIL (W1C). -/
def NVM_FW_STATUS_VERIFY_FAIL : Fld := ⟨0x044, 15, 15⟩
/-- LY_NVM_FW_STATUS.SWITCH_ABORTED (W1C). -/
def NVM_FW_STATUS_SWITCH_ABORTED : Fld := ⟨0x044, 14, 14⟩
/-- LY_NVM_FW_STATUS.CHUNKS (RO). -/
def NVM_FW_STATUS_CHUNKS : Fld := ⟨0x044, 8, 0⟩
/-! ### LY_NVM_FW_CTRL -/
/-- LY_NVM_FW_CTRL.UPDATE_LOCK (RWL). -/
def NVM_FW_CTRL_UPDATE_LOCK : Fld := ⟨0x048, 31, 31⟩
/-- LY_NVM_FW_CTRL.TRIAL_LIMIT (RW). -/
def NVM_FW_CTRL_TRIAL_LIMIT : Fld := ⟨0x048, 19, 16⟩
/-- LY_NVM_FW_CTRL.CONFIRM_STEPS (RW). -/
def NVM_FW_CTRL_CONFIRM_STEPS : Fld := ⟨0x048, 15, 0⟩
/-! ### LY_NVM_FW_VERSION -/
/-- LY_NVM_FW_VERSION.FW_VERSION (RO). -/
def NVM_FW_VERSION_FW_VERSION : Fld := ⟨0x04C, 31, 0⟩
/-! ### LY_NVM_SVN -/
/-- LY_NVM_SVN.MIN_SVN (RO). -/
def NVM_SVN_MIN_SVN : Fld := ⟨0x050, 31, 16⟩
/-- LY_NVM_SVN.RUNNING_SVN (RO). -/
def NVM_SVN_RUNNING_SVN : Fld := ⟨0x050, 15, 0⟩
/-! ### LY_NVM_CONFIRM -/
/-- LY_NVM_CONFIRM.SEALED (RO). -/
def NVM_CONFIRM_SEALED : Fld := ⟨0x054, 15, 0⟩
/-! ### LY_NVM_KEY_STATUS -/
/-- LY_NVM_KEY_STATUS.STATE (RO). -/
def NVM_KEY_STATUS_STATE : Fld := ⟨0x058, 7, 0⟩
/-! ### LY_NVM_STORE_SEQ -/
/-- LY_NVM_STORE_SEQ.SEQ (RO). -/
def NVM_STORE_SEQ_SEQ : Fld := ⟨0x05C, 31, 0⟩
/-! ### LY_NVM_LOG_STATUS -/
/-- LY_NVM_LOG_STATUS.WRAPPED (W1C). -/
def NVM_LOG_STATUS_WRAPPED : Fld := ⟨0x060, 31, 31⟩
/-- LY_NVM_LOG_STATUS.NEXT (RO). -/
def NVM_LOG_STATUS_NEXT : Fld := ⟨0x060, 11, 0⟩
/-! ### LY_CLKPWR_POSITION -/
/-- LY_CLKPWR_POSITION.CHASSIS (RWL). -/
def CLKPWR_POSITION_CHASSIS : Fld := ⟨0x040, 31, 22⟩
/-- LY_CLKPWR_POSITION.BOARD (RWL). -/
def CLKPWR_POSITION_BOARD : Fld := ⟨0x040, 21, 17⟩
/-- LY_CLKPWR_POSITION.PACKAGE (RWL). -/
def CLKPWR_POSITION_PACKAGE : Fld := ⟨0x040, 16, 13⟩
/-- LY_CLKPWR_POSITION.DIE (RWL). -/
def CLKPWR_POSITION_DIE : Fld := ⟨0x040, 12, 12⟩
/-- LY_CLKPWR_POSITION.STRAP_BAD (RO). -/
def CLKPWR_POSITION_STRAP_BAD : Fld := ⟨0x040, 1, 1⟩
/-- LY_CLKPWR_POSITION.VALID (RO). -/
def CLKPWR_POSITION_VALID : Fld := ⟨0x040, 0, 0⟩
/-! ### LY_CLKPWR_STRAP -/
/-- LY_CLKPWR_STRAP.WORD (RO). -/
def CLKPWR_STRAP_WORD : Fld := ⟨0x044, 11, 0⟩
/-! ### LY_CLKPWR_HEALTH -/
/-- LY_CLKPWR_HEALTH.FORCE (RW). -/
def CLKPWR_HEALTH_FORCE : Fld := ⟨0x048, 31, 31⟩
/-- LY_CLKPWR_HEALTH.FORCE_CODE (RW). -/
def CLKPWR_HEALTH_FORCE_CODE : Fld := ⟨0x048, 29, 24⟩
/-- LY_CLKPWR_HEALTH.CODE (RO). -/
def CLKPWR_HEALTH_CODE : Fld := ⟨0x048, 5, 0⟩
/-! ### LY_CLKPWR_GATE -/
/-- LY_CLKPWR_GATE.FLOOR (RO). -/
def CLKPWR_GATE_FLOOR : Fld := ⟨0x04C, 16, 16⟩
/-- LY_CLKPWR_GATE.SL (RW). -/
def CLKPWR_GATE_SL : Fld := ⟨0x04C, 15, 0⟩
/-! ### LY_CLKPWR_DOMAIN_STATUS -/
/-- LY_CLKPWR_DOMAIN_STATUS.AON (RO). -/
def CLKPWR_DOMAIN_STATUS_AON : Fld := ⟨0x050, 19, 19⟩
/-- LY_CLKPWR_DOMAIN_STATUS.FLOOR (RO). -/
def CLKPWR_DOMAIN_STATUS_FLOOR : Fld := ⟨0x050, 18, 18⟩
/-- LY_CLKPWR_DOMAIN_STATUS.PORT (RO). -/
def CLKPWR_DOMAIN_STATUS_PORT : Fld := ⟨0x050, 17, 17⟩
/-- LY_CLKPWR_DOMAIN_STATUS.CTL (RO). -/
def CLKPWR_DOMAIN_STATUS_CTL : Fld := ⟨0x050, 16, 16⟩
/-- LY_CLKPWR_DOMAIN_STATUS.SL (RO). -/
def CLKPWR_DOMAIN_STATUS_SL : Fld := ⟨0x050, 15, 0⟩
/-! ### LY_CLKPWR_RESET -/
/-- LY_CLKPWR_RESET.CHIP (WO). -/
def CLKPWR_RESET_CHIP : Fld := ⟨0x054, 31, 31⟩
/-- LY_CLKPWR_RESET.REGION (WO). -/
def CLKPWR_RESET_REGION : Fld := ⟨0x054, 19, 16⟩
/-- LY_CLKPWR_RESET.SLICE (WO). -/
def CLKPWR_RESET_SLICE : Fld := ⟨0x054, 15, 0⟩
/-! ### LY_CLKPWR_RESET_CAUSE -/
/-- LY_CLKPWR_RESET_CAUSE.CAUSE (RO). -/
def CLKPWR_RESET_CAUSE_CAUSE : Fld := ⟨0x058, 31, 28⟩
/-- LY_CLKPWR_RESET_CAUSE.RETAINED (RO). -/
def CLKPWR_RESET_CAUSE_RETAINED : Fld := ⟨0x058, 27, 27⟩
/-! ### LY_CLKPWR_CLOCK_STATUS -/
/-- LY_CLKPWR_CLOCK_STATUS.PLL_LOCK (RO). -/
def CLKPWR_CLOCK_STATUS_PLL_LOCK : Fld := ⟨0x05C, 31, 31⟩
/-- LY_CLKPWR_CLOCK_STATUS.REF_LOST (W1C). -/
def CLKPWR_CLOCK_STATUS_REF_LOST : Fld := ⟨0x05C, 30, 30⟩
/-- LY_CLKPWR_CLOCK_STATUS.HOLDOVER (RO). -/
def CLKPWR_CLOCK_STATUS_HOLDOVER : Fld := ⟨0x05C, 29, 29⟩
/-! ### LY_CLKPWR_PFAIL -/
/-- LY_CLKPWR_PFAIL.LEVEL (RO). -/
def CLKPWR_PFAIL_LEVEL : Fld := ⟨0x060, 31, 31⟩
/-- LY_CLKPWR_PFAIL.ASSERTED (W1C). -/
def CLKPWR_PFAIL_ASSERTED : Fld := ⟨0x060, 30, 30⟩
/-- LY_CLKPWR_PFAIL.COUNT (RC). -/
def CLKPWR_PFAIL_COUNT : Fld := ⟨0x060, 15, 0⟩
/-! ### LY_CLKPWR_PCAP -/
/-- LY_CLKPWR_PCAP.HARD_W (RW). -/
def CLKPWR_PCAP_HARD_W : Fld := ⟨0x064, 31, 23⟩
/-- LY_CLKPWR_PCAP.SOFT_W (RW). -/
def CLKPWR_PCAP_SOFT_W : Fld := ⟨0x064, 22, 14⟩
/-! ### LY_CLKPWR_TCAP -/
/-- LY_CLKPWR_TCAP.WARN_C (RW). -/
def CLKPWR_TCAP_WARN_C : Fld := ⟨0x068, 31, 24⟩
/-- LY_CLKPWR_TCAP.TRIP_C (RW). -/
def CLKPWR_TCAP_TRIP_C : Fld := ⟨0x068, 23, 16⟩
/-! ### LY_CLKPWR_MONITOR -/
/-- LY_CLKPWR_MONITOR.POWER_W (RO). -/
def CLKPWR_MONITOR_POWER_W : Fld := ⟨0x06C, 31, 23⟩
/-- LY_CLKPWR_MONITOR.TEMP_C (RO). -/
def CLKPWR_MONITOR_TEMP_C : Fld := ⟨0x06C, 22, 15⟩
/-- LY_CLKPWR_MONITOR.HOT (RO). -/
def CLKPWR_MONITOR_HOT : Fld := ⟨0x06C, 14, 10⟩
/-! ### LY_TWIN_CTRL -/
/-- LY_TWIN_CTRL.ENABLE (RW). -/
def TWIN_CTRL_ENABLE : Fld := ⟨0x040, 31, 31⟩
/-- LY_TWIN_CTRL.FN (RW). -/
def TWIN_CTRL_FN : Fld := ⟨0x040, 29, 24⟩
/-- LY_TWIN_CTRL.LOST (RW). -/
def TWIN_CTRL_LOST : Fld := ⟨0x040, 23, 16⟩
/-- LY_TWIN_CTRL.WAIT (RW). -/
def TWIN_CTRL_WAIT : Fld := ⟨0x040, 15, 0⟩
/-! ### LY_TWIN_PARTNER -/
/-- LY_TWIN_PARTNER.DIE (RW). -/
def TWIN_PARTNER_DIE : Fld := ⟨0x044, 31, 12⟩
/-- LY_TWIN_PARTNER.FN (RW). -/
def TWIN_PARTNER_FN : Fld := ⟨0x044, 11, 6⟩
/-! ### LY_TWIN_STATUS -/
/-- LY_TWIN_STATUS.ARMED (RO). -/
def TWIN_STATUS_ARMED : Fld := ⟨0x048, 31, 31⟩
/-- LY_TWIN_STATUS.MISMATCH (W1C). -/
def TWIN_STATUS_MISMATCH : Fld := ⟨0x048, 30, 30⟩
/-- LY_TWIN_STATUS.PAIR_FAIL (W1C). -/
def TWIN_STATUS_PAIR_FAIL : Fld := ⟨0x048, 29, 29⟩
/-- LY_TWIN_STATUS.PARTNER_LOST (W1C). -/
def TWIN_STATUS_PARTNER_LOST : Fld := ⟨0x048, 28, 28⟩
/-- LY_TWIN_STATUS.LOCATED (RO). -/
def TWIN_STATUS_LOCATED : Fld := ⟨0x048, 27, 27⟩
/-- LY_TWIN_STATUS.LATE (RO). -/
def TWIN_STATUS_LATE : Fld := ⟨0x048, 26, 26⟩
/-- LY_TWIN_STATUS.PENDING (RO). -/
def TWIN_STATUS_PENDING : Fld := ⟨0x048, 19, 0⟩
/-! ### LY_TWIN_COUNT -/
/-- LY_TWIN_COUNT.COMPARED (RC). -/
def TWIN_COUNT_COMPARED : Fld := ⟨0x04C, 31, 16⟩
/-- LY_TWIN_COUNT.UNCHECKED (RC). -/
def TWIN_COUNT_UNCHECKED : Fld := ⟨0x04C, 15, 0⟩
/-! ### LY_TWIN_MM_STEP_LO -/
/-- LY_TWIN_MM_STEP_LO.STEP_LO (RO). -/
def TWIN_MM_STEP_LO_STEP_LO : Fld := ⟨0x050, 31, 0⟩
/-! ### LY_TWIN_MM_STEP_HI -/
/-- LY_TWIN_MM_STEP_HI.STEP_HI (RO). -/
def TWIN_MM_STEP_HI_STEP_HI : Fld := ⟨0x054, 31, 0⟩
/-! ### LY_TWIN_MM_TENSOR -/
/-- LY_TWIN_MM_TENSOR.TENSOR_ID (RO). -/
def TWIN_MM_TENSOR_TENSOR_ID : Fld := ⟨0x058, 31, 0⟩
/-! ### LY_TWIN_MM_LEAF -/
/-- LY_TWIN_MM_LEAF.LEAF_INDEX (RO). -/
def TWIN_MM_LEAF_LEAF_INDEX : Fld := ⟨0x05C, 31, 0⟩
/-! ### LY_TWIN_MM_WHERE -/
/-- LY_TWIN_MM_WHERE.SLICE (RO). -/
def TWIN_MM_WHERE_SLICE : Fld := ⟨0x060, 31, 28⟩
/-- LY_TWIN_MM_WHERE.CORE (RO). -/
def TWIN_MM_WHERE_CORE : Fld := ⟨0x060, 27, 23⟩
/-- LY_TWIN_MM_WHERE.P_SLICE (RO). -/
def TWIN_MM_WHERE_P_SLICE : Fld := ⟨0x060, 22, 19⟩
/-- LY_TWIN_MM_WHERE.P_CORE (RO). -/
def TWIN_MM_WHERE_P_CORE : Fld := ⟨0x060, 18, 14⟩
/-- LY_TWIN_MM_WHERE.LINE (RO). -/
def TWIN_MM_WHERE_LINE : Fld := ⟨0x060, 9, 0⟩
/-! ### LY_TWIN_MM_LANE -/
/-- LY_TWIN_MM_LANE.PLANE (RO). -/
def TWIN_MM_LANE_PLANE : Fld := ⟨0x064, 31, 29⟩
/-- LY_TWIN_MM_LANE.ELEMENT (RO). -/
def TWIN_MM_LANE_ELEMENT : Fld := ⟨0x064, 28, 15⟩
/-- LY_TWIN_MM_LANE.LANE (RO). -/
def TWIN_MM_LANE_LANE : Fld := ⟨0x064, 14, 10⟩
/-! ### LY_FN_CTRL -/
/-- LY_FN_CTRL.START (WO). -/
def FN_CTRL_START : Fld := ⟨0x040, 31, 31⟩
/-- LY_FN_CTRL.STOP (WO). -/
def FN_CTRL_STOP : Fld := ⟨0x040, 30, 30⟩
/-- LY_FN_CTRL.RESET (WO). -/
def FN_CTRL_RESET : Fld := ⟨0x040, 29, 29⟩
/-! ### LY_FN_STATE -/
/-- LY_FN_STATE.STATE (RO). -/
def FN_STATE_STATE : Fld := ⟨0x044, 31, 30⟩
/-- LY_FN_STATE.TARGET (RO). -/
def FN_STATE_TARGET : Fld := ⟨0x044, 29, 29⟩
/-- LY_FN_STATE.ENABLE_PENDING (RO). -/
def FN_STATE_ENABLE_PENDING : Fld := ⟨0x044, 28, 28⟩
/-- LY_FN_STATE.STOP_ARMED (RO). -/
def FN_STATE_STOP_ARMED : Fld := ⟨0x044, 27, 27⟩
/-- LY_FN_STATE.DRAIN_FORCED (W1C). -/
def FN_STATE_DRAIN_FORCED : Fld := ⟨0x044, 26, 26⟩
/-- LY_FN_STATE.START_STATUS (RO). -/
def FN_STATE_START_STATUS : Fld := ⟨0x044, 25, 21⟩
/-- LY_FN_STATE.ABORT_CAUSE (RO). -/
def FN_STATE_ABORT_CAUSE : Fld := ⟨0x044, 20, 17⟩
/-- LY_FN_STATE.DRAINS (RO). -/
def FN_STATE_DRAINS : Fld := ⟨0x044, 15, 8⟩
/-! ### LY_FN_PB_CTRL -/
/-- LY_FN_PB_CTRL.ARM (RW). -/
def FN_PB_CTRL_ARM : Fld := ⟨0x048, 31, 31⟩
/-! ### LY_FN_EV_CTRL -/
/-- LY_FN_EV_CTRL.OVERFLOW (RO). -/
def FN_EV_CTRL_OVERFLOW : Fld := ⟨0x04C, 31, 16⟩
/-- LY_FN_EV_CTRL.EV_SIZE_LOG2 (RW). -/
def FN_EV_CTRL_EV_SIZE_LOG2 : Fld := ⟨0x04C, 3, 0⟩
/-! ### LY_FN_CMD_BASE_LO -/
/-- LY_FN_CMD_BASE_LO.BASE_LO (RW). -/
def FN_CMD_BASE_LO_BASE_LO : Fld := ⟨0x050, 31, 6⟩
/-! ### LY_FN_CMD_BASE_HI -/
/-- LY_FN_CMD_BASE_HI.BASE_HI (RW). -/
def FN_CMD_BASE_HI_BASE_HI : Fld := ⟨0x054, 31, 0⟩
/-! ### LY_FN_CPL_BASE_LO -/
/-- LY_FN_CPL_BASE_LO.BASE_LO (RW). -/
def FN_CPL_BASE_LO_BASE_LO : Fld := ⟨0x058, 31, 6⟩
/-! ### LY_FN_CPL_BASE_HI -/
/-- LY_FN_CPL_BASE_HI.BASE_HI (RW). -/
def FN_CPL_BASE_HI_BASE_HI : Fld := ⟨0x05C, 31, 0⟩
/-! ### LY_FN_EV_BASE_LO -/
/-- LY_FN_EV_BASE_LO.BASE_LO (RW). -/
def FN_EV_BASE_LO_BASE_LO : Fld := ⟨0x060, 31, 6⟩
/-! ### LY_FN_EV_BASE_HI -/
/-- LY_FN_EV_BASE_HI.BASE_HI (RW). -/
def FN_EV_BASE_HI_BASE_HI : Fld := ⟨0x064, 31, 0⟩
/-! ### LY_FN_CMD_TAIL -/
/-- LY_FN_CMD_TAIL.TAIL (RW). -/
def FN_CMD_TAIL_TAIL : Fld := ⟨0x068, 31, 0⟩
/-! ### LY_FN_CMD_HEAD -/
/-- LY_FN_CMD_HEAD.HEAD (RO). -/
def FN_CMD_HEAD_HEAD : Fld := ⟨0x06C, 31, 0⟩
/-! ### LY_FN_CPL_HEAD -/
/-- LY_FN_CPL_HEAD.HEAD (RO). -/
def FN_CPL_HEAD_HEAD : Fld := ⟨0x070, 31, 0⟩
/-! ### LY_FN_CPL_TAIL -/
/-- LY_FN_CPL_TAIL.TAIL (RW). -/
def FN_CPL_TAIL_TAIL : Fld := ⟨0x074, 31, 0⟩
/-! ### LY_FN_EV_HEAD -/
/-- LY_FN_EV_HEAD.HEAD (RO). -/
def FN_EV_HEAD_HEAD : Fld := ⟨0x078, 31, 0⟩
/-! ### LY_FN_EV_TAIL -/
/-- LY_FN_EV_TAIL.TAIL (RW). -/
def FN_EV_TAIL_TAIL : Fld := ⟨0x07C, 31, 0⟩
/-! ### LY_FN_MSIX_MAP -/
/-- LY_FN_MSIX_MAP.CPL_VEC (RW). -/
def FN_MSIX_MAP_CPL_VEC : Fld := ⟨0x080, 31, 27⟩
/-- LY_FN_MSIX_MAP.EV_VEC (RW). -/
def FN_MSIX_MAP_EV_VEC : Fld := ⟨0x080, 26, 22⟩
/-- LY_FN_MSIX_MAP.ERR_VEC (RW). -/
def FN_MSIX_MAP_ERR_VEC : Fld := ⟨0x080, 21, 17⟩
/-- LY_FN_MSIX_MAP.MOD (RW). -/
def FN_MSIX_MAP_MOD : Fld := ⟨0x080, 7, 0⟩
/-! ### LY_FN_STATE_CFG -/
/-- LY_FN_STATE_CFG.WINDOW_BASE (RWS). -/
def FN_STATE_CFG_WINDOW_BASE : Fld := ⟨0x0C0, 31, 21⟩
/-- LY_FN_STATE_CFG.WINDOW_SIZE (RWS). -/
def FN_STATE_CFG_WINDOW_SIZE : Fld := ⟨0x0C0, 20, 13⟩
/-- LY_FN_STATE_CFG.NEAR_QUOTA (RWS). -/
def FN_STATE_CFG_NEAR_QUOTA : Fld := ⟨0x0C0, 12, 4⟩
/-! ### LY_FN_STATE_STATUS -/
/-- LY_FN_STATE_STATUS.D (RO). -/
def FN_STATE_STATUS_D : Fld := ⟨0x0C4, 31, 30⟩
/-- LY_FN_STATE_STATUS.PENDING (RO). -/
def FN_STATE_STATUS_PENDING : Fld := ⟨0x0C4, 29, 28⟩
/-- LY_FN_STATE_STATUS.WC_DOUBLE (RO). -/
def FN_STATE_STATUS_WC_DOUBLE : Fld := ⟨0x0C4, 27, 27⟩
/-- LY_FN_STATE_STATUS.MIGRATING (RO). -/
def FN_STATE_STATUS_MIGRATING : Fld := ⟨0x0C4, 26, 26⟩
/-- LY_FN_STATE_STATUS.WRITE_REJECT (W1C). -/
def FN_STATE_STATUS_WRITE_REJECT : Fld := ⟨0x0C4, 25, 25⟩
/-- LY_FN_STATE_STATUS.MANIFEST_VALID (RO). -/
def FN_STATE_STATUS_MANIFEST_VALID : Fld := ⟨0x0C4, 24, 24⟩
/-- LY_FN_STATE_STATUS.ROW_RANGE (W1C). -/
def FN_STATE_STATUS_ROW_RANGE : Fld := ⟨0x0C4, 23, 23⟩
/-- LY_FN_STATE_STATUS.STATE_PAGES (RO). -/
def FN_STATE_STATUS_STATE_PAGES : Fld := ⟨0x0C4, 17, 0⟩
/-! ### LY_FN_CODE_GEOM -/
/-- LY_FN_CODE_GEOM.GROUP (RO). -/
def FN_CODE_GEOM_GROUP : Fld := ⟨0x0C8, 31, 16⟩
/-- LY_FN_CODE_GEOM.MEMBER (RO). -/
def FN_CODE_GEOM_MEMBER : Fld := ⟨0x0C8, 15, 12⟩
/-- LY_FN_CODE_GEOM.K (RO). -/
def FN_CODE_GEOM_K : Fld := ⟨0x0C8, 11, 8⟩
/-- LY_FN_CODE_GEOM.R (RO). -/
def FN_CODE_GEOM_R : Fld := ⟨0x0C8, 7, 5⟩
/-- LY_FN_CODE_GEOM.CHASSIS_SPREAD (RO). -/
def FN_CODE_GEOM_CHASSIS_SPREAD : Fld := ⟨0x0C8, 4, 4⟩
/-- LY_FN_CODE_GEOM.VALID (RO). -/
def FN_CODE_GEOM_VALID : Fld := ⟨0x0C8, 0, 0⟩
/-! ### LY_FN_CODE_STATUS -/
/-- LY_FN_CODE_STATUS.FORMATTING (RO). -/
def FN_CODE_STATUS_FORMATTING : Fld := ⟨0x0CC, 31, 31⟩
/-- LY_FN_CODE_STATUS.VERIFYING (RO). -/
def FN_CODE_STATUS_VERIFYING : Fld := ⟨0x0CC, 30, 30⟩
/-- LY_FN_CODE_STATUS.UNRECOVERABLE (W1C). -/
def FN_CODE_STATUS_UNRECOVERABLE : Fld := ⟨0x0CC, 29, 29⟩
/-- LY_FN_CODE_STATUS.ROLLED_BACK (W1C). -/
def FN_CODE_STATUS_ROLLED_BACK : Fld := ⟨0x0CC, 28, 28⟩
/-- LY_FN_CODE_STATUS.DIGEST_FAIL (W1C). -/
def FN_CODE_STATUS_DIGEST_FAIL : Fld := ⟨0x0CC, 27, 27⟩
/-- LY_FN_CODE_STATUS.LOST_AREA (RO). -/
def FN_CODE_STATUS_LOST_AREA : Fld := ⟨0x0CC, 26, 26⟩
/-- LY_FN_CODE_STATUS.LOST_GEN (RO). -/
def FN_CODE_STATUS_LOST_GEN : Fld := ⟨0x0CC, 25, 24⟩
/-- LY_FN_CODE_STATUS.LOST_ROW (RO). -/
def FN_CODE_STATUS_LOST_ROW : Fld := ⟨0x0CC, 23, 0⟩
/-! ### LY_FN_DECODE_COUNT -/
/-- LY_FN_DECODE_COUNT.HOLES (RC). -/
def FN_DECODE_COUNT_HOLES : Fld := ⟨0x0D0, 31, 16⟩
/-- LY_FN_DECODE_COUNT.LEAVES (RC). -/
def FN_DECODE_COUNT_LEAVES : Fld := ⟨0x0D0, 15, 0⟩
/-! ### LY_FN_STEP_STATUS -/
/-- LY_FN_STEP_STATUS.PHASE (RO). -/
def FN_STEP_STATUS_PHASE : Fld := ⟨0x0D4, 31, 28⟩
/-- LY_FN_STEP_STATUS.RERUN (RO). -/
def FN_STEP_STATUS_RERUN : Fld := ⟨0x0D4, 27, 27⟩
/-- LY_FN_STEP_STATUS.STEP_ABORTED (W1C). -/
def FN_STEP_STATUS_STEP_ABORTED : Fld := ⟨0x0D4, 26, 26⟩
/-- LY_FN_STEP_STATUS.PASS_ABORTED (W1C). -/
def FN_STEP_STATUS_PASS_ABORTED : Fld := ⟨0x0D4, 25, 25⟩
/-- LY_FN_STEP_STATUS.NONFINITE (RO). -/
def FN_STEP_STATUS_NONFINITE : Fld := ⟨0x0D4, 24, 24⟩
/-- LY_FN_STEP_STATUS.PASS_ABORTS (RC). -/
def FN_STEP_STATUS_PASS_ABORTS : Fld := ⟨0x0D4, 15, 0⟩
/-! ### LY_FN_STEP_LO -/
/-- LY_FN_STEP_LO.STEP_LO (RO). -/
def FN_STEP_LO_STEP_LO : Fld := ⟨0x0D8, 31, 0⟩
/-! ### LY_FN_STEP_HI -/
/-- LY_FN_STEP_HI.STEP_HI (RO). -/
def FN_STEP_HI_STEP_HI : Fld := ⟨0x0DC, 31, 0⟩
/-! ### LY_FN_STEP_CTRL -/
/-- LY_FN_STEP_CTRL.START_MARGIN (RWS). -/
def FN_STEP_CTRL_START_MARGIN : Fld := ⟨0x0E0, 31, 24⟩
/-! ### LY_FN_RECOVERY_STATUS -/
/-- LY_FN_RECOVERY_STATUS.ACTIVE (RO). -/
def FN_RECOVERY_STATUS_ACTIVE : Fld := ⟨0x0E4, 31, 31⟩
/-- LY_FN_RECOVERY_STATUS.LEDGER_BAD (W1C). -/
def FN_RECOVERY_STATUS_LEDGER_BAD : Fld := ⟨0x0E4, 30, 30⟩
/-- LY_FN_RECOVERY_STATUS.INTENTS (RO). -/
def FN_RECOVERY_STATUS_INTENTS : Fld := ⟨0x0E4, 17, 0⟩
/-! ### LY_FN_RECOVERY_COUNT -/
/-- LY_FN_RECOVERY_COUNT.FORWARD (RC). -/
def FN_RECOVERY_COUNT_FORWARD : Fld := ⟨0x0E8, 31, 16⟩
/-- LY_FN_RECOVERY_COUNT.BACK (RC). -/
def FN_RECOVERY_COUNT_BACK : Fld := ⟨0x0E8, 15, 0⟩
/-! ### LY_FN_LANDING_AREA -/
/-- LY_FN_LANDING_AREA.AREA_BASE (RWS). -/
def FN_LANDING_AREA_AREA_BASE : Fld := ⟨0x100, 31, 21⟩
/-- LY_FN_LANDING_AREA.AREA_SIZE (RWS). -/
def FN_LANDING_AREA_AREA_SIZE : Fld := ⟨0x100, 20, 11⟩
/-- LY_FN_LANDING_AREA.PARK_SIZE (RWS). -/
def FN_LANDING_AREA_PARK_SIZE : Fld := ⟨0x100, 10, 1⟩
/-! ### LY_FN_LANDING_CACHE -/
/-- LY_FN_LANDING_CACHE.CACHE_LINES (RWS). -/
def FN_LANDING_CACHE_CACHE_LINES : Fld := ⟨0x104, 14, 0⟩
/-! ### LY_FN_INTAKE_CTRL -/
/-- LY_FN_INTAKE_CTRL.STALL_LIMIT (RW). -/
def FN_INTAKE_CTRL_STALL_LIMIT : Fld := ⟨0x108, 31, 16⟩
/-! ### LY_FN_INTAKE_STATUS -/
/-- LY_FN_INTAKE_STATUS.ATTEMPT (RO). -/
def FN_INTAKE_STATUS_ATTEMPT : Fld := ⟨0x10C, 31, 24⟩
/-- LY_FN_INTAKE_STATUS.OVERRANGE (W1C). -/
def FN_INTAKE_STATUS_OVERRANGE : Fld := ⟨0x10C, 23, 23⟩
/-- LY_FN_INTAKE_STATUS.STALLED (RO). -/
def FN_INTAKE_STATUS_STALLED : Fld := ⟨0x10C, 22, 22⟩
/-- LY_FN_INTAKE_STATUS.PARK_FULL (W1C). -/
def FN_INTAKE_STATUS_PARK_FULL : Fld := ⟨0x10C, 21, 21⟩
/-- LY_FN_INTAKE_STATUS.PARKING (RO). -/
def FN_INTAKE_STATUS_PARKING : Fld := ⟨0x10C, 20, 20⟩
/-- LY_FN_INTAKE_STATUS.STALL_BUCKET (RO). -/
def FN_INTAKE_STATUS_STALL_BUCKET : Fld := ⟨0x10C, 19, 0⟩
/-! ### LY_FN_OVERRANGE_INFO -/
/-- LY_FN_OVERRANGE_INFO.FIRST_BUCKET (RO). -/
def FN_OVERRANGE_INFO_FIRST_BUCKET : Fld := ⟨0x110, 31, 12⟩
/-- LY_FN_OVERRANGE_INFO.COUNT (RC). -/
def FN_OVERRANGE_INFO_COUNT : Fld := ⟨0x110, 11, 0⟩
/-! ### LY_FN_INTAKE_COUNT -/
/-- LY_FN_INTAKE_COUNT.STALE (RC). -/
def FN_INTAKE_COUNT_STALE : Fld := ⟨0x114, 31, 22⟩
/-- LY_FN_INTAKE_COUNT.LATE (RC). -/
def FN_INTAKE_COUNT_LATE : Fld := ⟨0x114, 21, 12⟩
/-- LY_FN_INTAKE_COUNT.MALFORMED (RC). -/
def FN_INTAKE_COUNT_MALFORMED : Fld := ⟨0x114, 11, 0⟩
/-! ### LY_FN_PROG_CTRL -/
/-- LY_FN_PROG_CTRL.REFUSE_ND (RWS). -/
def FN_PROG_CTRL_REFUSE_ND : Fld := ⟨0x118, 31, 31⟩
/-- LY_FN_PROG_CTRL.REGION_BASE (RWS). -/
def FN_PROG_CTRL_REGION_BASE : Fld := ⟨0x118, 11, 8⟩
/-- LY_FN_PROG_CTRL.REGION_SIZE (RWS). -/
def FN_PROG_CTRL_REGION_SIZE : Fld := ⟨0x118, 4, 0⟩
/-! ### LY_FN_PROG_STATUS -/
/-- LY_FN_PROG_STATUS.SET_VALID (RO). -/
def FN_PROG_STATUS_SET_VALID : Fld := ⟨0x11C, 31, 31⟩
/-- LY_FN_PROG_STATUS.ND (RO). -/
def FN_PROG_STATUS_ND : Fld := ⟨0x11C, 30, 30⟩
/-- LY_FN_PROG_STATUS.TILE (RO). -/
def FN_PROG_STATUS_TILE : Fld := ⟨0x11C, 29, 29⟩
/-- LY_FN_PROG_STATUS.FAULT (W1C). -/
def FN_PROG_STATUS_FAULT : Fld := ⟨0x11C, 28, 28⟩
/-- LY_FN_PROG_STATUS.FABRIC_TIMEOUT (W1C). -/
def FN_PROG_STATUS_FABRIC_TIMEOUT : Fld := ⟨0x11C, 27, 27⟩
/-- LY_FN_PROG_STATUS.PROGRAMS (RO). -/
def FN_PROG_STATUS_PROGRAMS : Fld := ⟨0x11C, 22, 16⟩
/-- LY_FN_PROG_STATUS.CLASSES (RO). -/
def FN_PROG_STATUS_CLASSES : Fld := ⟨0x11C, 8, 0⟩
/-! ### LY_FN_TRAP_INFO -/
/-- LY_FN_TRAP_INFO.CAUSE (RO). -/
def FN_TRAP_INFO_CAUSE : Fld := ⟨0x120, 31, 24⟩
/-- LY_FN_TRAP_INFO.SLICE (RO). -/
def FN_TRAP_INFO_SLICE : Fld := ⟨0x120, 23, 20⟩
/-- LY_FN_TRAP_INFO.CORE (RO). -/
def FN_TRAP_INFO_CORE : Fld := ⟨0x120, 19, 15⟩
/-- LY_FN_TRAP_INFO.MULTIPLE (W1C). -/
def FN_TRAP_INFO_MULTIPLE : Fld := ⟨0x120, 14, 14⟩
/-- LY_FN_TRAP_INFO.PRELUDE (RO). -/
def FN_TRAP_INFO_PRELUDE : Fld := ⟨0x120, 13, 13⟩
/-- LY_FN_TRAP_INFO.BUNDLE (RO). -/
def FN_TRAP_INFO_BUNDLE : Fld := ⟨0x120, 12, 0⟩
/-! ### LY_FN_TRAP_TENSOR -/
/-- LY_FN_TRAP_TENSOR.TENSOR_ID (RO). -/
def FN_TRAP_TENSOR_TENSOR_ID : Fld := ⟨0x124, 31, 0⟩
/-! ### LY_FN_TRAP_LEAF -/
/-- LY_FN_TRAP_LEAF.LEAF_INDEX (RO). -/
def FN_TRAP_LEAF_LEAF_INDEX : Fld := ⟨0x128, 31, 0⟩
/-! ### LY_FN_SEED_LO -/
/-- LY_FN_SEED_LO.SEED_LO (RO). -/
def FN_SEED_LO_SEED_LO : Fld := ⟨0x130, 31, 0⟩
/-! ### LY_FN_SEED_HI -/
/-- LY_FN_SEED_HI.SEED_HI (RO). -/
def FN_SEED_HI_SEED_HI : Fld := ⟨0x134, 31, 0⟩
/-! ### LY_FN_SRC_CHECK_LO -/
/-- LY_FN_SRC_CHECK_LO.CHECK_LO (RO). -/
def FN_SRC_CHECK_LO_CHECK_LO : Fld := ⟨0x138, 31, 0⟩
/-! ### LY_FN_SRC_CHECK_HI -/
/-- LY_FN_SRC_CHECK_HI.CHECK_HI (RO). -/
def FN_SRC_CHECK_HI_CHECK_HI : Fld := ⟨0x13C, 31, 0⟩
/-! ### LY_FN_WHEEL_CTRL -/
/-- LY_FN_WHEEL_CTRL.START_MODE (RWS). -/
def FN_WHEEL_CTRL_START_MODE : Fld := ⟨0x140, 31, 31⟩
/-- LY_FN_WHEEL_CTRL.REQUIRE_EXACT (RWS). -/
def FN_WHEEL_CTRL_REQUIRE_EXACT : Fld := ⟨0x140, 30, 30⟩
/-- LY_FN_WHEEL_CTRL.HASH_SEL (RWS). -/
def FN_WHEEL_CTRL_HASH_SEL : Fld := ⟨0x140, 29, 29⟩
/-! ### LY_FN_WHEEL_STATUS -/
/-- LY_FN_WHEEL_STATUS.IMAGE_VALID (RO). -/
def FN_WHEEL_STATUS_IMAGE_VALID : Fld := ⟨0x144, 31, 31⟩
/-- LY_FN_WHEEL_STATUS.LAST_EXACT (RO). -/
def FN_WHEEL_STATUS_LAST_EXACT : Fld := ⟨0x144, 30, 30⟩
/-- LY_FN_WHEEL_STATUS.HELD (RO). -/
def FN_WHEEL_STATUS_HELD : Fld := ⟨0x144, 29, 29⟩
/-- LY_FN_WHEEL_STATUS.PLACEMENT_MISMATCH (RO). -/
def FN_WHEEL_STATUS_PLACEMENT_MISMATCH : Fld := ⟨0x144, 28, 28⟩
/-- LY_FN_WHEEL_STATUS.SCHED (RO). -/
def FN_WHEEL_STATUS_SCHED : Fld := ⟨0x144, 27, 26⟩
/-- LY_FN_WHEEL_STATUS.TURN (RO). -/
def FN_WHEEL_STATUS_TURN : Fld := ⟨0x144, 19, 0⟩
/-! ### LY_FN_WHEEL_START_LO -/
/-- LY_FN_WHEEL_START_LO.START_LO (RWS). -/
def FN_WHEEL_START_LO_START_LO : Fld := ⟨0x148, 31, 0⟩
/-! ### LY_FN_WHEEL_START_HI -/
/-- LY_FN_WHEEL_START_HI.START_HI (RWS). -/
def FN_WHEEL_START_HI_START_HI : Fld := ⟨0x14C, 31, 0⟩
/-! ### LY_FN_WHEEL_SLIPS -/
/-- LY_FN_WHEEL_SLIPS.RECORDS (RC). -/
def FN_WHEEL_SLIPS_RECORDS : Fld := ⟨0x150, 31, 16⟩
/-- LY_FN_WHEEL_SLIPS.SKIPPED (RC). -/
def FN_WHEEL_SLIPS_SKIPPED : Fld := ⟨0x150, 15, 0⟩
/-! ### LY_FN_DEV_CTRL -/
/-- LY_FN_DEV_CTRL.LOST (RC). -/
def FN_DEV_CTRL_LOST : Fld := ⟨0x154, 31, 16⟩
/-- LY_FN_DEV_CTRL.SIZE_LOG2 (RWS). -/
def FN_DEV_CTRL_SIZE_LOG2 : Fld := ⟨0x154, 4, 0⟩
/-! ### LY_FN_DEV_BASE_LO -/
/-- LY_FN_DEV_BASE_LO.BASE_LO (RWS). -/
def FN_DEV_BASE_LO_BASE_LO : Fld := ⟨0x158, 31, 6⟩
/-! ### LY_FN_DEV_BASE_HI -/
/-- LY_FN_DEV_BASE_HI.BASE_HI (RWS). -/
def FN_DEV_BASE_HI_BASE_HI : Fld := ⟨0x15C, 31, 0⟩
/-! ### LY_FN_DEV_HEAD -/
/-- LY_FN_DEV_HEAD.HEAD (RO). -/
def FN_DEV_HEAD_HEAD : Fld := ⟨0x160, 31, 0⟩
/-! ### LY_FN_DEV_TAIL -/
/-- LY_FN_DEV_TAIL.TAIL (RW). -/
def FN_DEV_TAIL_TAIL : Fld := ⟨0x164, 31, 0⟩
/-! ### LY_FN_PORT_WEIGHT -/
/-- LY_FN_PORT_WEIGHT.TC7 (RWS). -/
def FN_PORT_WEIGHT_TC7 : Fld := ⟨0x168, 27, 24⟩
/-- LY_FN_PORT_WEIGHT.TC6–TC2 (RWS). -/
def FN_PORT_WEIGHT_TC6_TC2 : Fld := ⟨0x168, 23, 4⟩
/-- LY_FN_PORT_WEIGHT.TC1 (RWS). -/
def FN_PORT_WEIGHT_TC1 : Fld := ⟨0x168, 3, 0⟩
/-! ### LY_FN_ROUTE_CTRL -/
/-- LY_FN_ROUTE_CTRL.ROUTE_SIZE (RWS). -/
def FN_ROUTE_CTRL_ROUTE_SIZE : Fld := ⟨0x16C, 16, 0⟩
/-! ### LY_FN_ROUTE_STATUS -/
/-- LY_FN_ROUTE_STATUS.GEN (RO). -/
def FN_ROUTE_STATUS_GEN : Fld := ⟨0x170, 31, 31⟩
/-- LY_FN_ROUTE_STATUS.STAGED (RO). -/
def FN_ROUTE_STATUS_STAGED : Fld := ⟨0x170, 30, 30⟩
/-- LY_FN_ROUTE_STATUS.SHADOW (RO). -/
def FN_ROUTE_STATUS_SHADOW : Fld := ⟨0x170, 29, 29⟩
/-- LY_FN_ROUTE_STATUS.IN_FLIGHT (RO). -/
def FN_ROUTE_STATUS_IN_FLIGHT : Fld := ⟨0x170, 28, 16⟩
/-- LY_FN_ROUTE_STATUS.GEN_COUNT (RO). -/
def FN_ROUTE_STATUS_GEN_COUNT : Fld := ⟨0x170, 15, 0⟩
/-! ### LY_FN_PORT_STATUS -/
/-- LY_FN_PORT_STATUS.OWN_REFUSED (W1C). -/
def FN_PORT_STATUS_OWN_REFUSED : Fld := ⟨0x174, 31, 31⟩
/-- LY_FN_PORT_STATUS.ROUTE_INVALID (W1C). -/
def FN_PORT_STATUS_ROUTE_INVALID : Fld := ⟨0x174, 30, 30⟩
/-- LY_FN_PORT_STATUS.ROUTE_REFUSED (W1C). -/
def FN_PORT_STATUS_ROUTE_REFUSED : Fld := ⟨0x174, 29, 29⟩
/-- LY_FN_PORT_STATUS.OWN_ENTRIES (RO). -/
def FN_PORT_STATUS_OWN_ENTRIES : Fld := ⟨0x174, 6, 0⟩
/-! ### LY_FN_FIFE_CTRL -/
/-- LY_FN_FIFE_CTRL.SLOT_BASE (RWS). -/
def FN_FIFE_CTRL_SLOT_BASE : Fld := ⟨0x178, 31, 24⟩
/-- LY_FN_FIFE_CTRL.PATH (RWS). -/
def FN_FIFE_CTRL_PATH : Fld := ⟨0x178, 23, 23⟩
/-- LY_FN_FIFE_CTRL.BUGLE (WO). -/
def FN_FIFE_CTRL_BUGLE : Fld := ⟨0x178, 22, 22⟩
/-! ### LY_FN_FIFE_STATUS -/
/-- LY_FN_FIFE_STATUS.PATH_ACTIVE (RO). -/
def FN_FIFE_STATUS_PATH_ACTIVE : Fld := ⟨0x17C, 31, 31⟩
/-- LY_FN_FIFE_STATUS.RESIDUE_FAIL (W1C). -/
def FN_FIFE_STATUS_RESIDUE_FAIL : Fld := ⟨0x17C, 30, 30⟩
/-- LY_FN_FIFE_STATUS.CONFLICT (W1C). -/
def FN_FIFE_STATUS_CONFLICT : Fld := ⟨0x17C, 29, 29⟩
/-- LY_FN_FIFE_STATUS.BUGLE (W1C). -/
def FN_FIFE_STATUS_BUGLE : Fld := ⟨0x17C, 28, 28⟩
/-- LY_FN_FIFE_STATUS.CAUSE (RO). -/
def FN_FIFE_STATUS_CAUSE : Fld := ⟨0x17C, 27, 21⟩
/-- LY_FN_FIFE_STATUS.ABORTS (RO). -/
def FN_FIFE_STATUS_ABORTS : Fld := ⟨0x17C, 15, 8⟩
/-- LY_FN_FIFE_STATUS.OPEN (RO). -/
def FN_FIFE_STATUS_OPEN : Fld := ⟨0x17C, 7, 0⟩
/-! ### LY_FN_FIFE_COUNT -/
/-- LY_FN_FIFE_COUNT.STALE_BUGLES (RC). -/
def FN_FIFE_COUNT_STALE_BUGLES : Fld := ⟨0x180, 31, 16⟩
/-- LY_FN_FIFE_COUNT.REFORMS (RC). -/
def FN_FIFE_COUNT_REFORMS : Fld := ⟨0x180, 15, 0⟩
/-! ### LY_FN_MEMB_EPOCH -/
/-- LY_FN_MEMB_EPOCH.EPOCH (RO). -/
def FN_MEMB_EPOCH_EPOCH : Fld := ⟨0x184, 31, 0⟩
/-! ### LY_FN_MEMB_LIVE -/
/-- LY_FN_MEMB_LIVE.SUSPECT (RO). -/
def FN_MEMB_LIVE_SUSPECT : Fld := ⟨0x188, 31, 16⟩
/-- LY_FN_MEMB_LIVE.LIVE (RO). -/
def FN_MEMB_LIVE_LIVE : Fld := ⟨0x188, 15, 0⟩
/-! ### LY_FN_MEMB_STATUS -/
/-- LY_FN_MEMB_STATUS.ROLE (RO). -/
def FN_MEMB_STATUS_ROLE : Fld := ⟨0x18C, 31, 30⟩
/-- LY_FN_MEMB_STATUS.KEEPER (RO). -/
def FN_MEMB_STATUS_KEEPER : Fld := ⟨0x18C, 29, 29⟩
/-- LY_FN_MEMB_STATUS.KEEPER_MEMBER (RO). -/
def FN_MEMB_STATUS_KEEPER_MEMBER : Fld := ⟨0x18C, 28, 25⟩
/-- LY_FN_MEMB_STATUS.ABSORBING (RO). -/
def FN_MEMB_STATUS_ABSORBING : Fld := ⟨0x18C, 24, 24⟩
/-- LY_FN_MEMB_STATUS.REDUCED (RO). -/
def FN_MEMB_STATUS_REDUCED : Fld := ⟨0x18C, 23, 23⟩
/-- LY_FN_MEMB_STATUS.TRANSFER (RO). -/
def FN_MEMB_STATUS_TRANSFER : Fld := ⟨0x18C, 22, 22⟩
/-- LY_FN_MEMB_STATUS.UNCONFIRMED (W1C). -/
def FN_MEMB_STATUS_UNCONFIRMED : Fld := ⟨0x18C, 21, 21⟩
/-- LY_FN_MEMB_STATUS.NO_CAPACITY (W1C). -/
def FN_MEMB_STATUS_NO_CAPACITY : Fld := ⟨0x18C, 20, 20⟩
/-- LY_FN_MEMB_STATUS.FENCED (W1C). -/
def FN_MEMB_STATUS_FENCED : Fld := ⟨0x18C, 19, 19⟩
/-- LY_FN_MEMB_STATUS.CONTRACTED (RO). -/
def FN_MEMB_STATUS_CONTRACTED : Fld := ⟨0x18C, 18, 18⟩
/-- LY_FN_MEMB_STATUS.PROXY (RO). -/
def FN_MEMB_STATUS_PROXY : Fld := ⟨0x18C, 15, 0⟩
/-! ### LY_FN_MEMB_CTRL -/
/-- LY_FN_MEMB_CTRL.AUTO_EVAC (RWS). -/
def FN_MEMB_CTRL_AUTO_EVAC : Fld := ⟨0x190, 31, 31⟩
/-- LY_FN_MEMB_CTRL.ABSORB_OK (RWS). -/
def FN_MEMB_CTRL_ABSORB_OK : Fld := ⟨0x190, 30, 30⟩
/-! ### LY_FN_REBUILD_STATUS -/
/-- LY_FN_REBUILD_STATUS.ACTIVE (RO). -/
def FN_REBUILD_STATUS_ACTIVE : Fld := ⟨0x194, 31, 31⟩
/-- LY_FN_REBUILD_STATUS.MODE (RO). -/
def FN_REBUILD_STATUS_MODE : Fld := ⟨0x194, 30, 28⟩
/-- LY_FN_REBUILD_STATUS.SUBJECT (RO). -/
def FN_REBUILD_STATUS_SUBJECT : Fld := ⟨0x194, 27, 24⟩
/-! ### LY_FN_REBUILD_LEFT -/
/-- LY_FN_REBUILD_LEFT.ROWS (RO). -/
def FN_REBUILD_LEFT_ROWS : Fld := ⟨0x198, 31, 0⟩
/-! ### LY_FN_REBUILD_COUNT -/
/-- LY_FN_REBUILD_COUNT.ON_DEMAND (RC). -/
def FN_REBUILD_COUNT_ON_DEMAND : Fld := ⟨0x19C, 31, 16⟩
/-- LY_FN_REBUILD_COUNT.BACKGROUND (RC). -/
def FN_REBUILD_COUNT_BACKGROUND : Fld := ⟨0x19C, 15, 0⟩
/-! ### LY_FN_FLOOR_CTRL -/
/-- LY_FN_FLOOR_CTRL.KEEP (RWS). -/
def FN_FLOOR_CTRL_KEEP : Fld := ⟨0x1A0, 31, 28⟩
/-- LY_FN_FLOOR_CTRL.INTERVAL (RWS). -/
def FN_FLOOR_CTRL_INTERVAL : Fld := ⟨0x1A0, 15, 0⟩
/-! ### LY_FN_FLOOR_STATUS -/
/-- LY_FN_FLOOR_STATUS.SWEEPING (RO). -/
def FN_FLOOR_STATUS_SWEEPING : Fld := ⟨0x1A4, 31, 31⟩
/-- LY_FN_FLOOR_STATUS.VERIFYING (RO). -/
def FN_FLOOR_STATUS_VERIFYING : Fld := ⟨0x1A4, 30, 30⟩
/-- LY_FN_FLOOR_STATUS.SNAP_VALID (RO). -/
def FN_FLOOR_STATUS_SNAP_VALID : Fld := ⟨0x1A4, 29, 29⟩
/-- LY_FN_FLOOR_STATUS.ABANDONED (W1C). -/
def FN_FLOOR_STATUS_ABANDONED : Fld := ⟨0x1A4, 28, 28⟩
/-- LY_FN_FLOOR_STATUS.SKIPPED (W1C). -/
def FN_FLOOR_STATUS_SKIPPED : Fld := ⟨0x1A4, 27, 27⟩
/-- LY_FN_FLOOR_STATUS.RELOADING (RO). -/
def FN_FLOOR_STATUS_RELOADING : Fld := ⟨0x1A4, 26, 26⟩
/-- LY_FN_FLOOR_STATUS.PROGRESS (RO). -/
def FN_FLOOR_STATUS_PROGRESS : Fld := ⟨0x1A4, 9, 0⟩
/-! ### LY_FN_FLOOR_STEP_LO -/
/-- LY_FN_FLOOR_STEP_LO.STEP_LO (RO). -/
def FN_FLOOR_STEP_LO_STEP_LO : Fld := ⟨0x1A8, 31, 0⟩
/-! ### LY_FN_FLOOR_STEP_HI -/
/-- LY_FN_FLOOR_STEP_HI.STEP_HI (RO). -/
def FN_FLOOR_STEP_HI_STEP_HI : Fld := ⟨0x1AC, 31, 0⟩
/-! ### LY_FN_FLOOR_SNAP -/
/-- LY_FN_FLOOR_SNAP.SNAP_ID (RO). -/
def FN_FLOOR_SNAP_SNAP_ID : Fld := ⟨0x1B0, 31, 0⟩
/-! ### LY_FN_INTEG_CTRL -/
/-- LY_FN_INTEG_CTRL.RECEIPT_LIMIT (RWS). -/
def FN_INTEG_CTRL_RECEIPT_LIMIT : Fld := ⟨0x1B4, 15, 0⟩
/-! ### LY_FN_INTEG_STATUS -/
/-- LY_FN_INTEG_STATUS.INTEG_ABORT (W1C). -/
def FN_INTEG_STATUS_INTEG_ABORT : Fld := ⟨0x1B8, 31, 31⟩
/-- LY_FN_INTEG_STATUS.CAUSE (RO). -/
def FN_INTEG_STATUS_CAUSE : Fld := ⟨0x1B8, 30, 28⟩
/-- LY_FN_INTEG_STATUS.AUDIT_FAULT (W1C). -/
def FN_INTEG_STATUS_AUDIT_FAULT : Fld := ⟨0x1B8, 27, 27⟩
/-- LY_FN_INTEG_STATUS.ERASED (RC). -/
def FN_INTEG_STATUS_ERASED : Fld := ⟨0x1B8, 15, 0⟩
/-! ### LY_FN_DIG_BASE_LO -/
/-- LY_FN_DIG_BASE_LO.BASE_LO (RWS). -/
def FN_DIG_BASE_LO_BASE_LO : Fld := ⟨0x1C0, 31, 6⟩
/-! ### LY_FN_DIG_BASE_HI -/
/-- LY_FN_DIG_BASE_HI.BASE_HI (RWS). -/
def FN_DIG_BASE_HI_BASE_HI : Fld := ⟨0x1C4, 31, 0⟩
/-! ### LY_FN_DIG_CTRL -/
/-- LY_FN_DIG_CTRL.LOST (RC). -/
def FN_DIG_CTRL_LOST : Fld := ⟨0x1C8, 31, 16⟩
/-- LY_FN_DIG_CTRL.LEAF_TRACE (RWS). -/
def FN_DIG_CTRL_LEAF_TRACE : Fld := ⟨0x1C8, 15, 15⟩
/-- LY_FN_DIG_CTRL.SIZE_LOG2 (RWS). -/
def FN_DIG_CTRL_SIZE_LOG2 : Fld := ⟨0x1C8, 4, 0⟩
/-! ### LY_FN_DIG_HEAD -/
/-- LY_FN_DIG_HEAD.HEAD (RO). -/
def FN_DIG_HEAD_HEAD : Fld := ⟨0x1CC, 31, 0⟩
/-! ### LY_FN_DIG_TAIL -/
/-- LY_FN_DIG_TAIL.TAIL (RW). -/
def FN_DIG_TAIL_TAIL : Fld := ⟨0x1D0, 31, 0⟩
/-! ### LY_FN_CHAIN_LO -/
/-- LY_FN_CHAIN_LO.CHAIN_LO (RO). -/
def FN_CHAIN_LO_CHAIN_LO : Fld := ⟨0x1D8, 31, 0⟩
/-! ### LY_FN_CHAIN_HI -/
/-- LY_FN_CHAIN_HI.CHAIN_HI (RO). -/
def FN_CHAIN_HI_CHAIN_HI : Fld := ⟨0x1DC, 31, 0⟩

/-- The header registers that software can write or clear (Table 17.2): ERR_SUMMARY, INT_STATUS, INT_ENABLE and LOCK.
`irq` is the mask of the page's interrupt bits (R443). -/
def headerRegs (irq : Nat) : List RegDesc :=
  [⟨0x010, 1, 0, 0, 0x80000000, 0, 0, 0, 0, 0, false, false⟩,
   ⟨0x014, 1, 0, 0xC0000FFF, 0, 0, 0, 0, 0, 0, false, false⟩,
   ⟨0x018, 1, 0, irq, 0, 0, 0, 0, 0, 0, false, false⟩,
   ⟨0x01C, 1, irq, 0, 0, 0, 0, 0, 0, 0, false, false⟩,
   ⟨0x020, 1, 0, 0, irq, 0, 0, 0, 0, 0, false, false⟩,
   ⟨0x024, 1, 0, 0, 0, 0, 0, 1, 0, 0, false, false⟩]

/-- The page-specific registers of the GLOBAL page(s), in the order of the index (R452). -/
def globalRegs : List RegDesc :=
  [⟨0x040, 1, 0xFFFFFFFE, 0x0, 0x0, 0x0, 0x0, 0x0, 0x1, 0x1, false, false⟩,
   ⟨0x044, 1, 0xFFFFFFFF, 0x0, 0x0, 0x0, 0x0, 0x0, 0x0, 0x0, false, false⟩,
   ⟨0x048, 1, 0x0, 0x80000000, 0x0, 0x0, 0x0, 0x0, 0x0, 0x0, false, false⟩,
   ⟨0x04C, 1, 0x0, 0x0, 0x0, 0x0, 0x0, 0x0, 0x0, 0x0, false, false⟩,
   ⟨0x050, 1, 0x0, 0xE0000000, 0x0, 0xFFFF, 0x0, 0x0, 0x0, 0x0, false, false⟩,
   ⟨0x104, 63, 0xFFFF8000, 0x0, 0x0, 0x0, 0x0, 0x0, 0x78000, 0x78000, false, false⟩,
   ⟨0x204, 63, 0xFFFFFC00, 0x0, 0x0, 0x0, 0x0, 0x0, 0x0, 0x0, false, false⟩]

/-- The page-specific registers of the Q page(s), in the order of the index (R452). -/
def regionRegs : List RegDesc :=
  [⟨0x040, 1, 0x0, 0x0, 0x0, 0xFFFF, 0x0, 0x0, 0x0, 0x0, false, false⟩]

/-- The page-specific registers of the SL page(s), in the order of the index (R452). -/
def sliceRegs : List RegDesc :=
  [⟨0x040, 1, 0x0, 0x80000000, 0x0, 0x0, 0x0, 0x0, 0x0, 0x0, false, false⟩,
   ⟨0x044, 1, 0x0, 0x0, 0x0, 0xFFFFF, 0x0, 0x0, 0x0, 0x0, false, false⟩,
   ⟨0x048, 1, 0x0, 0x0, 0x0, 0x7FF8000, 0x0, 0x0, 0x0, 0x0, false, false⟩,
   ⟨0x04C, 1, 0x0, 0x0, 0x0, 0x0, 0x0, 0x0, 0x0, 0x0, false, false⟩,
   ⟨0x050, 1, 0x0, 0x0, 0x0, 0xFFFFFFFF, 0x0, 0x0, 0x0, 0x0, false, false⟩,
   ⟨0x054, 1, 0x0, 0x0, 0x0, 0x0, 0x0, 0x0, 0x0, 0x0, false, false⟩,
   ⟨0x058, 1, 0x0, 0xFFF, 0x0, 0x0, 0x0, 0x0, 0x0, 0x0, false, false⟩,
   ⟨0x05C, 1, 0x0, 0xFF0000, 0x0, 0x0, 0x0, 0x0, 0x0, 0x0, false, false⟩,
   ⟨0x060, 1, 0x0, 0x0, 0x0, 0xFFFFFFFF, 0x0, 0x0, 0x0, 0x0, false, false⟩,
   ⟨0x064, 1, 0x80000003, 0x0, 0x40000000, 0x0, 0x0, 0x0, 0x0, 0x0, false, false⟩,
   ⟨0x068, 1, 0x1FFFFFF, 0x0, 0x0, 0x0, 0x0, 0x0, 0x0, 0x0, false, false⟩,
   ⟨0x06C, 1, 0x0, 0xC0000000, 0x0, 0x7FFF, 0x0, 0x0, 0x0, 0x0, false, false⟩,
   ⟨0x400, 64, 0x807FFFFF, 0x0, 0x0, 0x0, 0x0, 0x0, 0x0, 0x0, false, true⟩,
   ⟨0x800, 256, 0xFFFFFFFF, 0x0, 0x0, 0x0, 0x0, 0x0, 0x0, 0x0, false, false⟩]

/-- The page-specific registers of the WHEEL page(s), in the order of the index (R452). -/
def wheelRegs : List RegDesc :=
  [⟨0x040, 1, 0xF00000FF, 0x0, 0xC000000, 0x0, 0x0, 0x0, 0xC000005A, 0xC000005A, false, true⟩,
   ⟨0x044, 1, 0x0, 0x20000000, 0x0, 0x0, 0x0, 0x0, 0x0, 0x0, false, false⟩,
   ⟨0x048, 1, 0x0, 0x0, 0x0, 0x0, 0x0, 0x0, 0x0, 0x0, false, false⟩,
   ⟨0x04C, 1, 0x0, 0x0, 0x0, 0x0, 0x0, 0x0, 0x0, 0x0, true, false⟩,
   ⟨0x050, 1, 0xFFFFFFFF, 0x0, 0x0, 0x0, 0x0, 0x0, 0x0, 0x0, false, false⟩,
   ⟨0x054, 1, 0xFFFFFFFF, 0x0, 0x0, 0x0, 0x0, 0x0, 0x0, 0x0, false, false⟩,
   ⟨0x058, 1, 0x0, 0x0, 0xFFFF, 0x0, 0x0, 0x0, 0x0, 0x0, false, false⟩]

/-- The page-specific registers of the PORT page(s), in the order of the index (R452). -/
def portRegs : List RegDesc :=
  [⟨0x040, 1, 0x0, 0x10000, 0x0, 0x0, 0x0, 0x0, 0x640, 0x640, false, false⟩,
   ⟨0x044, 1, 0xFFFFFFFF, 0x0, 0x0, 0x0, 0x0, 0x0, 0x8402080, 0x8402080, false, true⟩,
   ⟨0x048, 1, 0xFFFFFF, 0x0, 0x0, 0x0, 0x0, 0x0, 0x80808, 0x80808, false, true⟩,
   ⟨0x04C, 1, 0xFFFFFFFF, 0x0, 0x0, 0x0, 0x0, 0x0, 0x64196464, 0x64196464, false, true⟩,
   ⟨0x050, 1, 0xFFFFFF, 0x0, 0x0, 0x0, 0x0, 0x0, 0x646464, 0x646464, false, true⟩,
   ⟨0x054, 1, 0x7F, 0x0, 0x0, 0x0, 0x0, 0x0, 0x28, 0x28, false, true⟩,
   ⟨0x058, 4, 0x0, 0x0, 0x0, 0x0, 0x0, 0x0, 0x0, 0x0, false, false⟩,
   ⟨0x068, 1, 0x0, 0x80000000, 0x0, 0x0, 0x0, 0x0, 0x0, 0x0, false, false⟩,
   ⟨0x06C, 1, 0x0, 0x0, 0x0, 0xFFFFFFFF, 0x0, 0x0, 0x0, 0x0, false, false⟩,
   ⟨0x070, 1, 0x0, 0x0, 0x0, 0xFFFFFFFF, 0x0, 0x0, 0x0, 0x0, false, false⟩,
   ⟨0x074, 1, 0x0, 0x6000000, 0x0, 0x0, 0x0, 0x0, 0x0, 0x0, false, false⟩,
   ⟨0x078, 1, 0x0, 0x0, 0x0, 0x0, 0x0, 0x0, 0x0, 0x0, false, false⟩,
   ⟨0x07C, 1, 0xFFFFFF00, 0x0, 0x0, 0x0, 0x0, 0x0, 0x28194000, 0x28194000, false, true⟩,
   ⟨0x080, 1, 0x0, 0x0, 0x0, 0x0, 0x0, 0x0, 0x0, 0x0, false, false⟩,
   ⟨0x400, 768, 0x0, 0x0, 0x0, 0x0, 0x0, 0x0, 0x0, 0x0, false, false⟩]

/-- The page-specific registers of the FIFE page(s), in the order of the index (R452). -/
def fifeRegs : List RegDesc :=
  [⟨0x040, 1, 0x400000FF, 0x0, 0x80000000, 0x0, 0x0, 0x0, 0x4, 0x4, false, true⟩,
   ⟨0x044, 1, 0x0, 0x6000000, 0x0, 0x0, 0x0, 0x0, 0x20000000, 0x20000000, false, false⟩,
   ⟨0x048, 1, 0x0, 0x0, 0x0, 0xFFFFFFFF, 0x0, 0x0, 0x0, 0x0, false, false⟩,
   ⟨0x04C, 1, 0xFFFFFFFF, 0x0, 0x0, 0x0, 0x0, 0x0, 0x0, 0x0, false, false⟩,
   ⟨0x050, 1, 0x0, 0x0, 0x0, 0xFFFFFFFF, 0x0, 0x0, 0x0, 0x0, false, false⟩]

/-- The page-specific registers of the DRONE page(s), in the order of the index (R452). -/
def droneRegs : List RegDesc :=
  [⟨0x040, 1, 0xC0FFFFFF, 0x0, 0x0, 0x0, 0x0, 0x0, 0xC004003C, 0xC004003C, false, true⟩,
   ⟨0x044, 1, 0x0, 0xC0000000, 0x0, 0x0, 0x0, 0x0, 0x0, 0x0, false, false⟩,
   ⟨0x048, 1, 0x0, 0x0, 0x0, 0x0, 0x0, 0x0, 0x0, 0x0, false, false⟩,
   ⟨0x04C, 1, 0xFFFF, 0x0, 0x0, 0x0, 0x0, 0x0, 0x18, 0x18, false, true⟩,
   ⟨0x050, 1, 0x8000FFFF, 0x0, 0x0, 0x0, 0x0, 0x0, 0x8000076C, 0x8000076C, false, true⟩,
   ⟨0x054, 1, 0xBFFFFFFF, 0x0, 0x0, 0x0, 0x0, 0x0, 0x0, 0x0, false, true⟩,
   ⟨0x058, 1, 0x0, 0x80000000, 0x40000000, 0x0, 0x0, 0x0, 0x0, 0x0, false, false⟩,
   ⟨0x800, 256, 0x0, 0x0, 0x0, 0x0, 0x0, 0x0, 0x0, 0x0, false, true⟩]

/-- The page-specific registers of the FLOOR page(s), in the order of the index (R452). -/
def floorRegs : List RegDesc :=
  [⟨0x040, 1, 0x0, 0x18000000, 0x0, 0x0, 0x0, 0x0, 0x20000000, 0x0, false, false⟩,
   ⟨0x044, 1, 0x0, 0x0, 0x0, 0x0, 0x0, 0x0, 0x0, 0x0, false, false⟩,
   ⟨0x048, 1, 0xFFFFF800, 0x0, 0x0, 0x0, 0x0, 0x0, 0x0, 0x0, false, true⟩,
   ⟨0x04C, 1, 0x0, 0x0, 0x0, 0xFFFFFFFF, 0x0, 0x0, 0x0, 0x0, false, false⟩]

/-- The page-specific registers of the NVM page(s), in the order of the index (R452). -/
def nvmRegs : List RegDesc :=
  [⟨0x040, 1, 0x0, 0xFFFF, 0x0, 0x0, 0x0, 0x0, 0x0, 0x0, false, false⟩,
   ⟨0x044, 1, 0x0, 0x1C000, 0x0, 0x0, 0x0, 0x0, 0x0, 0x0, false, false⟩,
   ⟨0x048, 1, 0xFFFFF, 0x0, 0x0, 0x0, 0x0, 0x80000000, 0x303E8, 0x303E8, false, true⟩,
   ⟨0x04C, 1, 0x0, 0x0, 0x0, 0x0, 0x0, 0x0, 0x0, 0x0, false, false⟩,
   ⟨0x050, 1, 0x0, 0x0, 0x0, 0x0, 0x0, 0x0, 0x0, 0x0, false, false⟩,
   ⟨0x054, 1, 0x0, 0x0, 0x0, 0x0, 0x0, 0x0, 0x0, 0x0, false, false⟩,
   ⟨0x058, 1, 0x0, 0x0, 0x0, 0x0, 0x0, 0x0, 0x0, 0x0, false, false⟩,
   ⟨0x05C, 1, 0x0, 0x0, 0x0, 0x0, 0x0, 0x0, 0x0, 0x0, false, false⟩,
   ⟨0x060, 1, 0x0, 0x80000000, 0x0, 0x0, 0x0, 0x0, 0x0, 0x0, false, false⟩]

/-- The page-specific registers of the CLKPWR page(s), in the order of the index (R452). -/
def clkpwrRegs : List RegDesc :=
  [⟨0x040, 1, 0x0, 0x0, 0x0, 0x0, 0x0, 0xFFFFF000, 0x0, 0x0, false, false⟩,
   ⟨0x044, 1, 0x0, 0x0, 0x0, 0x0, 0x0, 0x0, 0x0, 0x0, false, false⟩,
   ⟨0x048, 1, 0xBF000000, 0x0, 0x0, 0x0, 0x0, 0x0, 0x1, 0x1, false, false⟩,
   ⟨0x04C, 1, 0xFFFF, 0x0, 0x0, 0x0, 0x0, 0x0, 0x0, 0x10000, false, true⟩,
   ⟨0x050, 1, 0x0, 0x0, 0x0, 0x0, 0x0, 0x0, 0xF0000, 0xB0000, false, false⟩,
   ⟨0x054, 1, 0x0, 0x0, 0x800FFFFF, 0x0, 0x0, 0x0, 0x0, 0x0, false, false⟩,
   ⟨0x058, 1, 0x0, 0x0, 0x0, 0x0, 0x0, 0x0, 0x0, 0x0, false, false⟩,
   ⟨0x05C, 1, 0x0, 0x40000000, 0x0, 0x0, 0x0, 0x0, 0x80000000, 0x80000000, false, false⟩,
   ⟨0x060, 1, 0x0, 0x40000000, 0x0, 0xFFFF, 0x0, 0x0, 0x0, 0x0, false, false⟩,
   ⟨0x064, 1, 0xFFFFC000, 0x0, 0x0, 0x0, 0x0, 0x0, 0x55258000, 0x55258000, false, true⟩,
   ⟨0x068, 1, 0xFFFF0000, 0x0, 0x0, 0x0, 0x0, 0x0, 0x5F690000, 0x5F690000, false, true⟩,
   ⟨0x06C, 1, 0x0, 0x0, 0x0, 0x0, 0x0, 0x0, 0x0, 0x0, false, false⟩]

/-- The page-specific registers of the TWIN page(s), in the order of the index (R452). -/
def twinRegs : List RegDesc :=
  [⟨0x040, 1, 0xBFFFFFFF, 0x0, 0x0, 0x0, 0x0, 0x0, 0x6403E8, 0x0, false, false⟩,
   ⟨0x044, 1, 0xFFFFFFC0, 0x0, 0x0, 0x0, 0x0, 0x0, 0x0, 0x0, false, false⟩,
   ⟨0x048, 1, 0x0, 0x70000000, 0x0, 0x0, 0x0, 0x0, 0x0, 0x0, false, false⟩,
   ⟨0x04C, 1, 0x0, 0x0, 0x0, 0xFFFFFFFF, 0x0, 0x0, 0x0, 0x0, false, false⟩,
   ⟨0x050, 1, 0x0, 0x0, 0x0, 0x0, 0x0, 0x0, 0x0, 0x0, false, false⟩,
   ⟨0x054, 1, 0x0, 0x0, 0x0, 0x0, 0x0, 0x0, 0x0, 0x0, true, false⟩,
   ⟨0x058, 1, 0x0, 0x0, 0x0, 0x0, 0x0, 0x0, 0x0, 0x0, false, false⟩,
   ⟨0x05C, 1, 0x0, 0x0, 0x0, 0x0, 0x0, 0x0, 0x0, 0x0, false, false⟩,
   ⟨0x060, 1, 0x0, 0x0, 0x0, 0x0, 0x0, 0x0, 0x0, 0x0, false, false⟩,
   ⟨0x064, 1, 0x0, 0x0, 0x0, 0x0, 0x0, 0x0, 0x0, 0x0, false, false⟩]

/-- The page-specific registers of the FN page(s), in the order of the index (R452). Part 1. -/
def fnRegs1 : List RegDesc :=
  [⟨0x040, 1, 0x0, 0x0, 0xE0000000, 0x0, 0x0, 0x0, 0x0, 0x0, false, false⟩,
   ⟨0x044, 1, 0x0, 0x4000000, 0x0, 0x0, 0x0, 0x0, 0x0, 0x0, false, false⟩,
   ⟨0x048, 1, 0x80000000, 0x0, 0x0, 0x0, 0x0, 0x0, 0x0, 0x0, false, false⟩,
   ⟨0x04C, 1, 0xF, 0x0, 0x0, 0x0, 0x0, 0x0, 0x0, 0x0, false, false⟩,
   ⟨0x050, 1, 0xFFFFFFC0, 0x0, 0x0, 0x0, 0x0, 0x0, 0x0, 0x0, false, false⟩,
   ⟨0x054, 1, 0xFFFFFFFF, 0x0, 0x0, 0x0, 0x0, 0x0, 0x0, 0x0, false, false⟩,
   ⟨0x058, 1, 0xFFFFFFC0, 0x0, 0x0, 0x0, 0x0, 0x0, 0x0, 0x0, false, false⟩,
   ⟨0x05C, 1, 0xFFFFFFFF, 0x0, 0x0, 0x0, 0x0, 0x0, 0x0, 0x0, false, false⟩,
   ⟨0x060, 1, 0xFFFFFFC0, 0x0, 0x0, 0x0, 0x0, 0x0, 0x0, 0x0, false, false⟩,
   ⟨0x064, 1, 0xFFFFFFFF, 0x0, 0x0, 0x0, 0x0, 0x0, 0x0, 0x0, false, false⟩,
   ⟨0x068, 1, 0xFFFFFFFF, 0x0, 0x0, 0x0, 0x0, 0x0, 0x0, 0x0, false, false⟩,
   ⟨0x06C, 1, 0x0, 0x0, 0x0, 0x0, 0x0, 0x0, 0x0, 0x0, false, false⟩,
   ⟨0x070, 1, 0x0, 0x0, 0x0, 0x0, 0x0, 0x0, 0x0, 0x0, false, false⟩,
   ⟨0x074, 1, 0xFFFFFFFF, 0x0, 0x0, 0x0, 0x0, 0x0, 0x0, 0x0, false, false⟩,
   ⟨0x078, 1, 0x0, 0x0, 0x0, 0x0, 0x0, 0x0, 0x0, 0x0, false, false⟩,
   ⟨0x07C, 1, 0xFFFFFFFF, 0x0, 0x0, 0x0, 0x0, 0x0, 0x0, 0x0, false, false⟩,
   ⟨0x080, 1, 0xFFFE00FF, 0x0, 0x0, 0x0, 0x0, 0x0, 0x440000, 0x440000, false, false⟩,
   ⟨0x0C0, 1, 0x0, 0x0, 0x0, 0x0, 0xFFFFFFF0, 0x0, 0x0, 0x0, false, false⟩,
   ⟨0x0C4, 1, 0x0, 0x2800000, 0x0, 0x0, 0x0, 0x0, 0x0, 0x0, false, false⟩,
   ⟨0x0C8, 1, 0x0, 0x0, 0x0, 0x0, 0x0, 0x0, 0x0, 0x0, false, false⟩,
   ⟨0x0CC, 1, 0x0, 0x38000000, 0x0, 0x0, 0x0, 0x0, 0x0, 0x0, false, false⟩,
   ⟨0x0D0, 1, 0x0, 0x0, 0x0, 0xFFFFFFFF, 0x0, 0x0, 0x0, 0x0, false, false⟩,
   ⟨0x0D4, 1, 0x0, 0x6000000, 0x0, 0xFFFF, 0x0, 0x0, 0x0, 0x0, false, false⟩,
   ⟨0x0D8, 1, 0x0, 0x0, 0x0, 0x0, 0x0, 0x0, 0x0, 0x0, false, false⟩,
   ⟨0x0DC, 1, 0x0, 0x0, 0x0, 0x0, 0x0, 0x0, 0x0, 0x0, true, false⟩,
   ⟨0x0E0, 1, 0x0, 0x0, 0x0, 0x0, 0xFF000000, 0x0, 0x8000000, 0x8000000, false, false⟩,
   ⟨0x0E4, 1, 0x0, 0x40000000, 0x0, 0x0, 0x0, 0x0, 0x0, 0x0, false, false⟩,
   ⟨0x0E8, 1, 0x0, 0x0, 0x0, 0xFFFFFFFF, 0x0, 0x0, 0x0, 0x0, false, false⟩,
   ⟨0x100, 1, 0x0, 0x0, 0x0, 0x0, 0xFFFFFFFE, 0x0, 0x0, 0x0, false, false⟩,
   ⟨0x104, 1, 0x0, 0x0, 0x0, 0x0, 0x7FFF, 0x0, 0x0, 0x0, false, false⟩]

/-- The page-specific registers of the FN page(s), in the order of the index (R452). Part 2. -/
def fnRegs2 : List RegDesc :=
  [⟨0x108, 1, 0xFFFF0000, 0x0, 0x0, 0x0, 0x0, 0x0, 0x3E80000, 0x3E80000, false, false⟩,
   ⟨0x10C, 1, 0x0, 0xA00000, 0x0, 0x0, 0x0, 0x0, 0x0, 0x0, false, false⟩,
   ⟨0x110, 1, 0x0, 0x0, 0x0, 0xFFF, 0x0, 0x0, 0x0, 0x0, false, false⟩,
   ⟨0x114, 1, 0x0, 0x0, 0x0, 0xFFFFFFFF, 0x0, 0x0, 0x0, 0x0, false, false⟩,
   ⟨0x118, 1, 0x0, 0x0, 0x0, 0x0, 0x80000F1F, 0x0, 0x0, 0x0, false, false⟩,
   ⟨0x11C, 1, 0x0, 0x18000000, 0x0, 0x0, 0x0, 0x0, 0x0, 0x0, false, false⟩,
   ⟨0x120, 1, 0x0, 0x4000, 0x0, 0x0, 0x0, 0x0, 0x0, 0x0, false, false⟩,
   ⟨0x124, 1, 0x0, 0x0, 0x0, 0x0, 0x0, 0x0, 0x0, 0x0, false, false⟩,
   ⟨0x128, 1, 0x0, 0x0, 0x0, 0x0, 0x0, 0x0, 0x0, 0x0, false, false⟩,
   ⟨0x130, 1, 0x0, 0x0, 0x0, 0x0, 0x0, 0x0, 0x0, 0x0, false, false⟩,
   ⟨0x134, 1, 0x0, 0x0, 0x0, 0x0, 0x0, 0x0, 0x0, 0x0, false, false⟩,
   ⟨0x138, 1, 0x0, 0x0, 0x0, 0x0, 0x0, 0x0, 0x0, 0x0, false, false⟩,
   ⟨0x13C, 1, 0x0, 0x0, 0x0, 0x0, 0x0, 0x0, 0x0, 0x0, true, false⟩,
   ⟨0x140, 1, 0x0, 0x0, 0x0, 0x0, 0xE0000000, 0x0, 0x0, 0x0, false, false⟩,
   ⟨0x144, 1, 0x0, 0x0, 0x0, 0x0, 0x0, 0x0, 0x0, 0x0, false, false⟩,
   ⟨0x148, 1, 0x0, 0x0, 0x0, 0x0, 0xFFFFFFFF, 0x0, 0x0, 0x0, false, false⟩,
   ⟨0x14C, 1, 0x0, 0x0, 0x0, 0x0, 0xFFFFFFFF, 0x0, 0x0, 0x0, false, false⟩,
   ⟨0x150, 1, 0x0, 0x0, 0x0, 0xFFFFFFFF, 0x0, 0x0, 0x0, 0x0, false, false⟩,
   ⟨0x154, 1, 0x0, 0x0, 0x0, 0xFFFF0000, 0x1F, 0x0, 0x0, 0x0, false, false⟩,
   ⟨0x158, 1, 0x0, 0x0, 0x0, 0x0, 0xFFFFFFC0, 0x0, 0x0, 0x0, false, false⟩,
   ⟨0x15C, 1, 0x0, 0x0, 0x0, 0x0, 0xFFFFFFFF, 0x0, 0x0, 0x0, false, false⟩,
   ⟨0x160, 1, 0x0, 0x0, 0x0, 0x0, 0x0, 0x0, 0x0, 0x0, false, false⟩,
   ⟨0x164, 1, 0xFFFFFFFF, 0x0, 0x0, 0x0, 0x0, 0x0, 0x0, 0x0, false, false⟩,
   ⟨0x168, 1, 0x0, 0x0, 0x0, 0x0, 0xFFFFFFF, 0x0, 0x1111111, 0x1111111, false, false⟩,
   ⟨0x16C, 1, 0x0, 0x0, 0x0, 0x0, 0x1FFFF, 0x0, 0x0, 0x0, false, false⟩,
   ⟨0x170, 1, 0x0, 0x0, 0x0, 0x0, 0x0, 0x0, 0x0, 0x0, false, false⟩,
   ⟨0x174, 1, 0x0, 0xE0000000, 0x0, 0x0, 0x0, 0x0, 0x0, 0x0, false, false⟩,
   ⟨0x178, 1, 0x0, 0x0, 0x400000, 0x0, 0xFF800000, 0x0, 0x0, 0x0, false, false⟩,
   ⟨0x17C, 1, 0x0, 0x70000000, 0x0, 0x0, 0x0, 0x0, 0x0, 0x0, false, false⟩,
   ⟨0x180, 1, 0x0, 0x0, 0x0, 0xFFFFFFFF, 0x0, 0x0, 0x0, 0x0, false, false⟩]

/-- The page-specific registers of the FN page(s), in the order of the index (R452). Part 3. -/
def fnRegs3 : List RegDesc :=
  [⟨0x184, 1, 0x0, 0x0, 0x0, 0x0, 0x0, 0x0, 0x0, 0x0, false, false⟩,
   ⟨0x188, 1, 0x0, 0x0, 0x0, 0x0, 0x0, 0x0, 0x0, 0x0, false, false⟩,
   ⟨0x18C, 1, 0x0, 0x380000, 0x0, 0x0, 0x0, 0x0, 0x0, 0x0, false, false⟩,
   ⟨0x190, 1, 0x0, 0x0, 0x0, 0x0, 0xC0000000, 0x0, 0x40000000, 0x40000000, false, false⟩,
   ⟨0x194, 1, 0x0, 0x0, 0x0, 0x0, 0x0, 0x0, 0x0, 0x0, false, false⟩,
   ⟨0x198, 1, 0x0, 0x0, 0x0, 0x0, 0x0, 0x0, 0x0, 0x0, false, false⟩,
   ⟨0x19C, 1, 0x0, 0x0, 0x0, 0xFFFFFFFF, 0x0, 0x0, 0x0, 0x0, false, false⟩,
   ⟨0x1A0, 1, 0x0, 0x0, 0x0, 0x0, 0xF000FFFF, 0x0, 0x2000000F, 0x0, false, false⟩,
   ⟨0x1A4, 1, 0x0, 0x18000000, 0x0, 0x0, 0x0, 0x0, 0x0, 0x0, false, false⟩,
   ⟨0x1A8, 1, 0x0, 0x0, 0x0, 0x0, 0x0, 0x0, 0x0, 0x0, false, false⟩,
   ⟨0x1AC, 1, 0x0, 0x0, 0x0, 0x0, 0x0, 0x0, 0x0, 0x0, true, false⟩,
   ⟨0x1B0, 1, 0x0, 0x0, 0x0, 0x0, 0x0, 0x0, 0x0, 0x0, false, false⟩,
   ⟨0x1B4, 1, 0x0, 0x0, 0x0, 0x0, 0xFFFF, 0x0, 0x3E8, 0x3E8, false, false⟩,
   ⟨0x1B8, 1, 0x0, 0x88000000, 0x0, 0xFFFF, 0x0, 0x0, 0x0, 0x0, false, false⟩,
   ⟨0x1C0, 1, 0x0, 0x0, 0x0, 0x0, 0xFFFFFFC0, 0x0, 0x0, 0x0, false, false⟩,
   ⟨0x1C4, 1, 0x0, 0x0, 0x0, 0x0, 0xFFFFFFFF, 0x0, 0x0, 0x0, false, false⟩,
   ⟨0x1C8, 1, 0x0, 0x0, 0x0, 0xFFFF0000, 0x801F, 0x0, 0x0, 0x0, false, false⟩,
   ⟨0x1CC, 1, 0x0, 0x0, 0x0, 0x0, 0x0, 0x0, 0x0, 0x0, false, false⟩,
   ⟨0x1D0, 1, 0xFFFFFFFF, 0x0, 0x0, 0x0, 0x0, 0x0, 0x0, 0x0, false, false⟩,
   ⟨0x1D8, 1, 0x0, 0x0, 0x0, 0x0, 0x0, 0x0, 0x0, 0x0, false, false⟩,
   ⟨0x1DC, 1, 0x0, 0x0, 0x0, 0x0, 0x0, 0x0, 0x0, 0x0, true, false⟩]

/-- The page-specific registers of the FN page(s) (R452). -/
def fnRegs : List RegDesc := fnRegs1 ++ fnRegs2 ++ fnRegs3

/-- The page-specific registers of a page of kind `k`. A seal page has none (its objects are not registers). -/
def kindRegs : PageKind → List RegDesc
  | .global => globalRegs | .region => regionRegs | .slice => sliceRegs | .fn => fnRegs | .wheel => wheelRegs
  | .port => portRegs | .fife => fifeRegs | .drone => droneRegs | .floor => floorRegs | .nvm => nvmRegs
  | .clkpwr => clkpwrRegs | .twin => twinRegs | .seal => []

/-- The interrupt bits of a page of kind `k` (R443, Tables 13.13, 15.16 and 16.6). -/
def kindIrq : PageKind → Nat
  | .fn => 0xFE000000 | .clkpwr => 0x3F | .twin => 0x7 | _ => 0x1

/-- Every register of a page of kind `k`, header first. -/
def allRegs (k : PageKind) : List RegDesc := headerRegs (kindIrq k) ++ kindRegs k

end Sys2Proof.Machine
end

