-- ==== Sys2Proof/Machine/Ops.lean ====
section
/-!
DEFINITION. The named operations over the state: registers and their fields (R12, R16, R437), the per-function and
per-slice records, the deep and near tiers, and time.
-/

namespace Sys2Proof.Machine

/-! ### Pages of the window (Table 17.1) -/

/-- Window offset of a page. -/
def pgGlobal : Nat := 0
def pgRegion (n : Nat) : Nat := 0x1000 + 0x1000 * n
def pgWheel : Nat := 0x8000
def pgPort : Nat := 0x9000
def pgFife : Nat := 0xA000
def pgDrone : Nat := 0xB000
def pgFloor : Nat := 0xC000
def pgNvm : Nat := 0xD000
def pgClkpwr : Nat := 0xE000
def pgTwin : Nat := 0xF000
def pgSlice (n : Nat) : Nat := 0x10000 + 0x1000 * n
def pgFn (n : Nat) : Nat := 0x20000 + 0x1000 * n

/-- The kind and instance of the page at a window offset; none where Table 17.1 lists no page (R436). -/
def pageAt (a : Nat) : Option (PageKind × Nat) :=
  let p := a / 4096
  if p = 0 then some (.global, 0)
  else if p < 5 then some (.region, p - 1)
  else if p = 8 then some (.wheel, 0)
  else if p = 9 then some (.port, 0)
  else if p = 10 then some (.fife, 0)
  else if p = 11 then some (.drone, 0)
  else if p = 12 then some (.floor, 0)
  else if p = 13 then some (.nvm, 0)
  else if p = 14 then some (.clkpwr, 0)
  else if p = 15 then some (.twin, 0)
  else if 16 ≤ p ∧ p < 32 then some (.slice, p - 16)
  else if 32 ≤ p ∧ p < 96 then some (.fn, p - 32)
  else if 128 ≤ p ∧ p < 194 then some (.seal, p - 128)
  else none

/-- The index row that covers page offset `o` of a page kind (R452). -/
def descAt (k : PageKind) (o : Nat) : Option RegDesc :=
  (allRegs k).find? (fun d => decide (d.off ≤ o) && decide (o < d.off + 4 * d.count) && decide (o % 4 = 0))

/-- The reset value of the register at a window offset (R452). -/
def resetWord (v : Variant) (a : Nat) : Word :=
  match pageAt a with
  | none => 0
  | some (k, _) =>
    match descAt k (a % 4096) with
    | none => 0
    | some d => BitVec.ofNat 32 (match v with | .F => d.resetF | .C => d.resetC)

/-! ### Registers and fields -/

/-- The stored word of the register at a window offset. -/
def wordAt (s : State) (a : Nat) : Word := (tabFind s.regs a).getD (resetWord s.variant a)

/-- Store a register word; the table lists no word equal to its reset value. -/
def setWord (s : State) (a : Nat) (w : Word) : State :=
  { s with regs := tabPut s.regs a (if w = resetWord s.variant a then none else some w) }

/-- The word in force of an RWS register (R12, R439): what the last restart applied. -/
def forceAt (s : State) (a : Nat) : Word := (tabFind s.inForce a).getD (resetWord s.variant a)

/-- A field's value in a word. -/
def fldOf (f : Fld) (w : Nat) : Nat := bits w f.hi f.lo

/-- A word with a field replaced (the value modulo the field's width). -/
def putFld (f : Fld) (w v : Nat) : Nat :=
  w - fldOf f w * 2 ^ f.lo + (v % 2 ^ (f.hi + 1 - f.lo)) * 2 ^ f.lo

/-- Read a field of the page at window offset `pg`. -/
def getF (s : State) (pg : Nat) (f : Fld) : Nat := fldOf f (wordAt s (pg + f.off)).toNat

/-- Write a field of the page at window offset `pg`. -/
def setF (s : State) (pg : Nat) (f : Fld) (v : Nat) : State :=
  setWord s (pg + f.off) (BitVec.ofNat 32 (putFld f (wordAt s (pg + f.off)).toNat v))

/-- The value in force of an RWS field of function `n` (R12). -/
def forceF (s : State) (n : Nat) (f : Fld) : Nat := fldOf f (forceAt s (pgFn n + f.off)).toNat

/-- Add to a counting field, which saturates at its largest value. -/
def addF (s : State) (pg : Nat) (f : Fld) (k : Nat) : State :=
  setF s pg f (min (getF s pg f + k) (2 ^ (f.hi + 1 - f.lo) - 1))

/-- Set a one-bit field. -/
def flagF (s : State) (pg : Nat) (f : Fld) : State := setF s pg f 1

/-- Raise a field to `v` where it is lower (a HIGH_WATER field). -/
def maxF (s : State) (pg : Nat) (f : Fld) (v : Nat) : State := setF s pg f (max (getF s pg f) v)

/-- A field of function `n`'s page. -/
def fnF (s : State) (n : Nat) (f : Fld) : Nat := getF s (pgFn n) f

/-- Write a field of function `n`'s page. -/
def setFnF (s : State) (n : Nat) (f : Fld) (v : Nat) : State := setF s (pgFn n) f v

/-- Make every word of the page at window offset `pg` read its reset value again; RWL locks end and every source's HI
latches are zero (R16, R437). -/
def clearPage (s : State) (pg : Nat) : State :=
  { s with regs := tabClear s.regs pg 4096, inForce := tabClear s.inForce pg 4096,
           rwl := s.rwl.filter (fun a => decide (a / 4096 ≠ pg / 4096)),
           latch := s.latch.filter (fun e => decide (e.1 % 16777216 / 4096 ≠ pg / 4096)) }

/-- A 64-bit value of a LO and HI register pair. -/
def pair (lo hi : Word) : Nat := lo.toNat + hi.toNat * 4294967296

/-! ### Records by number -/

/-- What the die keeps for function `n`. -/
def fnSt (s : State) (n : Nat) : FnSt := tabGet {} s.fns n

/-- Write what the die keeps for function `n`. -/
def setFnSt (s : State) (n : Nat) (x : FnSt) : State := { s with fns := tabSet {} s.fns n x }

/-- Change what the die keeps for function `n`. -/
def modFn (s : State) (n : Nat) (f : FnSt → FnSt) : State := setFnSt s n (f (fnSt s n))

/-- Global core number of core `c` of slice `sl`. -/
def coreIx (sl c : Nat) : Nat := sl * 32 + c

/-! ### Function states (Table 13.1) -/

/-- LY_FNn_STATE.STATE of a function; FN0 always reads 1 (R378). -/
def stateOf (s : State) (n : Nat) : Nat := if n = 0 then 1 else fnF s n FN_STATE_STATE

/-- START_STATUS reads STARTING (R358). -/
def isStarting (s : State) (n : Nat) : Bool := decide (stateOf s n = 1) && decide (fnF s n FN_STATE_START_STATUS = 2)

/-- RUNNING, or STARTING in a load pass, which every rule that admits packets, arrivals or collectives by function
state treats as RUNNING (R456). -/
def actsRunning (s : State) (n : Nat) : Bool :=
  decide (stateOf s n = 2) || (isStarting s n && (fnSt s n).loadPass)

/-- HOLD is in force: no POWER CANCEL has been carried out in it (R316, R318). -/
def holding (s : State) : Bool := match s.hold with | some h => !h.ended | none => false

/-- STARTING, RUNNING or DRAINING (R358). -/
def isBusyFn (s : State) (n : Nat) : Bool := isStarting s n || decide (stateOf s n = 2) || decide (stateOf s n = 3)

/-- Some function of the die is STARTING, RUNNING or DRAINING. -/
def anyBusy (s : State) : Bool := (List.range 64).any (fun n => isBusyFn s n)

/-- The enable bit of JFn (R357); MF is always enabled. -/
def enabled (s : State) (n : Nat) : Bool :=
  decide (n = 0) || bit (wordAt s (if n < 32 then 0x040 else 0x044)).toNat (n % 32)

/-! ### Time -/

/-- Let `n` ticks pass: the tick count advances, and the global counter with it (R171). -/
def advance (s : State) (n : Nat) : State :=
  { s with ticks := s.ticks + n, counter := (s.counter + n) % 2 ^ 64 }

/-- Let time pass until tick `t`, if that is still to come: a row named for a time takes place at that time. -/
def advanceTo (s : State) (t : Nat) : State := advance s (t - s.ticks)

/-- Slots of one turn: LEN (R172). -/
def wheelLen (s : State) : Nat := 2 ^ getF s pgWheel WHEEL_CTRL_LEN_LOG2

/-- The first counter turn start at or after counter value `c` (R172). -/
def turnStartAt (s : State) (c : Nat) : Nat := roundUp c (wheelLen s * 32)

/-! ### Lookup of the function's group -/

/-- The group entry of the active manifest with number `g`. -/
def groupOf (m : Manifest) (g : Nat) : Option GroupEntry := m.groups.find? (fun e => e.group = g)

/-! ### The deep tier: state ranges -/

/-- The deep-tier address that the model gives byte `off` of function `n`'s state range. -/
def rangeAddr (n off : Nat) : Nat := n * 2 ^ 44 + off

/-- Read `len` bytes of function `n`'s state range from the authoritative tier of each page (R33, R34): results never
depend on the tier, so the model keeps one copy of every page's contents. -/
def rangeRead (s : State) (n off len : Nat) : List Byte := memReadN s.deep (rangeAddr n off) len

/-- Write bytes of function `n`'s state range. -/
def rangeWrite (s : State) (n off : Nat) (bs : List Byte) : State :=
  { s with deep := memWriteN s.deep (rangeAddr n off) bs }

/-- Read near-tier bytes. -/
def nearRead (s : State) (a len : Nat) : List Byte := memReadN s.near a len

/-- Write near-tier bytes. -/
def nearWrite (s : State) (a : Nat) (bs : List Byte) : State := { s with near := memWriteN s.near a bs }

/-- The slot of row `row` of an area of function `n` (65,536 bytes), by its active manifest. -/
def slotRead (s : State) (n area gen row : Nat) : List Byte :=
  match (fnSt s n).manifest with
  | none => zeros 65536
  | some m => rangeRead s n (slotOffset m area gen row) 65536

/-- Write the slot of row `row` of an area of function `n`. -/
def slotWrite (s : State) (n area gen row : Nat) (bs : List Byte) : State :=
  match (fnSt s n).manifest with
  | none => s
  | some m => rangeWrite s n (slotOffset m area gen row) bs

/-- XOR bytes into a memory from address `a`. -/
def memXor (m : Mem) (a : Nat) (bs : List Byte) : Mem := memWriteN m a (xorBytes (memReadN m a bs.length) bs)

/-! ### Outputs -/

/-- A posted write to host memory. While the host takes no writes the write is lost (R370). -/
def hostWrite (s : State) (n addr : Nat) (bs : List Byte) : State :=
  if s.hostDown then s else { s with posted := s.posted ++ [⟨n, addr, bs⟩] }

end Sys2Proof.Machine
end

