-- ==== Sys2Proof/Machine/Program.lean ====
section
/-!
DEFINITION. Instruction words (R127, R128, Tables 5.3 and 5.4) and program sets: parsing, the checks of LOAD_PROGRAMS
with the offset of the first failing item (R134 to R136, R148), and lookups by class.
-/

namespace Sys2Proof.Machine

/-! ### Instruction words (Table 5.3) -/

/-- The forms of instruction words. -/
inductive InsForm where
  | v | m | i | l | j | nop
  deriving DecidableEq, Repr

/-- Opcode of an instruction word. -/
def insOp (w : Nat) : Nat := bits w 31 24

/-- A word of form V: opcode, d, a, b, c, mask register, rnd. -/
def wordV (op d a b c mask : Nat) (rnd : Bool) : Nat :=
  op * 2 ^ 24 + d % 32 * 2 ^ 19 + a % 32 * 2 ^ 14 + b % 32 * 2 ^ 9 + c % 32 * 2 ^ 4 + mask % 8 * 2 + b2n rnd

/-- A word of form M: opcode, v, s, fmt, bs, mask register, inc, rnd. -/
def wordM (op v s fmt : Nat) (bs : Bool) (mask : Nat) (inc rnd : Bool) : Nat :=
  op * 2 ^ 24 + v % 32 * 2 ^ 19 + s % 32 * 2 ^ 14 + fmt % 16 * 2 ^ 10 + b2n bs * 2 ^ 9 + mask % 8 * 2 ^ 6 +
    b2n inc * 2 ^ 5 + b2n rnd * 2 ^ 4

/-- A word of form I: opcode, d, a, imm14. -/
def wordI (op d a imm : Nat) : Nat := op * 2 ^ 24 + d % 32 * 2 ^ 19 + a % 32 * 2 ^ 14 + imm % 2 ^ 14

/-- A word of form L: opcode, d, imm19. -/
def wordL (op d imm : Nat) : Nat := op * 2 ^ 24 + d % 32 * 2 ^ 19 + imm % 2 ^ 19

/-- A word of form J: opcode, s, target14. -/
def wordJ (op s target : Nat) : Nat := op * 2 ^ 24 + s % 32 * 2 ^ 19 + target % 2 ^ 14

/-- The form of a port A opcode (Table 5.4). -/
def formA (op : Nat) : Option InsForm :=
  if op = 0 then some .nop
  else if 0x01 ≤ op ∧ op ≤ 0x13 then some .v
  else if 0x20 ≤ op ∧ op ≤ 0x22 then some .v
  else if 0x30 ≤ op ∧ op ≤ 0x32 then some .v
  else none

/-- The form of a port B opcode (Table 5.4). saddi and sandi are of form I. -/
def formB (op : Nat) : Option InsForm :=
  if op = 0 then some .nop
  else if op = 0x80 ∨ op = 0x81 then some .m
  else if op = 0x82 ∨ op = 0x88 ∨ op = 0x89 ∨ op = 0x8A then some .i
  else if op = 0x90 ∨ op = 0x91 then some .l
  else if op = 0x93 ∨ op = 0x97 then some .i
  else if 0x92 ≤ op ∧ op ≤ 0x9B then some .v
  else if 0xA0 ≤ op ∧ op ≤ 0xA7 then some .v
  else if 0xB0 ≤ op ∧ op ≤ 0xB6 then some .j
  else if op = 0xC0 then some .v
  else if op = 0xC1 ∨ op = 0xDC then some .j
  else if op = 0xC8 ∨ op = 0xC9 then some .i
  else if op = 0xD0 then some .l
  else if 0xD8 ≤ op ∧ op ≤ 0xDB then some .v
  else none

/-- The fields shown as zero are zero (R128, Table 5.3). -/
def zeroFieldsOk (f : InsForm) (w : Nat) : Bool :=
  match f with
  | .m => decide (bits w 3 0 = 0)
  | .j => decide (bits w 18 14 = 0)
  | .l => decide (insOp w ≠ 0x91) || decide (bits w 18 16 = 0)
  | _ => true

/-- The formats an instruction names are allowed (R148). -/
def formatsOk (w : Nat) : Bool :=
  let op := insOp w
  if op = 0x80 ∨ op = 0x81 then
    decide (bits w 13 10 < 13) && (!bit w 9 || fmtScalable (bits w 13 10))
  else if op = 0x0F then decide (bits w 7 4 < 13)
  else if op = 0x13 then fmtLane (bits w 7 4)
  else true

/-- An instruction word meets R128 and R148 in its port. -/
def wordOk (portB : Bool) (w : Nat) : Bool :=
  match (if portB then formB (insOp w) else formA (insOp w)) with
  | none => false
  | some f => zeroFieldsOk f w && formatsOk w

/-- A bundle meets R128 and R148. -/
def bundleOk (b : Nat) : Bool := wordOk false (b % 2 ^ 32) && wordOk true (b / 2 ^ 32)

/-- A non-deterministic instruction (R133). -/
def isNd (b : Nat) : Bool := [0xD0, 0xD8, 0xDA, 0xDB].contains (insOp (b / 2 ^ 32))

/-- A tile instruction. -/
def isTile (b : Nat) : Bool := [0x30, 0x31, 0x32].contains (insOp (b % 2 ^ 32))

/-- The branch target or loop body of bundle `i` of a program of `len` bundles lies within the program (R135). A branch
counts its offset from its own bundle. -/
def branchOk (len i b : Nat) : Bool :=
  let w := b / 2 ^ 32
  let op := insOp w
  if 0xB0 ≤ op ∧ op ≤ 0xB3 then
    let t : Int := (i : Int) + signed 14 (bits w 13 0)
    decide (0 ≤ t) && decide (t < len)
  else if op = 0xB4 then decide (i + bits w 13 0 < len)
  else true

/-! ### Parsing (R134) -/

/-- Start offsets of the directory, class table, parameter blocks and bundles, and the image's end. -/
structure ProgMap where
  dirAt : Nat
  classAt : Nat
  paramAt : Nat
  codeAt : Nat
  endAt : Nat
  deriving DecidableEq, Repr

/-- Each section starts 64-byte aligned (R134). -/
def progMap (bs : List Byte) : ProgMap :=
  let c := roundUp (64 + 16 * field bs 6 2) 64
  let p := roundUp (c + 16 * field bs 8 2) 64
  let k := roundUp (p + 1024 * field bs 0xA 2) 64
  ⟨64, c, p, k, k + 8 * field bs 0xC 4⟩

/-- Cut `n` entries of `size` bytes from offset `o`. -/
def cutEntries (bs : List Byte) (size n o : Nat) : List (List Byte) :=
  (List.range n).map (fun i => (bs.drop (o + size * i)).take size)

/-- The bundles of an image. -/
def progBundles (bs : List Byte) : List Nat := (cutEntries bs 8 (field bs 0xC 4) (progMap bs).codeAt).map leVal

/-- Parse a directory entry, marking it ND or TILE by its bundles (R136). -/
def parseProg (code : List Nat) (e : List Byte) : Prog :=
  let first := field e 0 2
  let length := field e 2 2
  let own := (code.drop first).take length
  ⟨first, length, field e 4 2, field e 6 2, field e 8 4, field e 0xC 2, own.any isNd, own.any isTile⟩

/-- Parse a class entry. -/
def parseClass (e : List Byte) : ProgClass := ⟨field e 0 4, field e 4 4, field e 8 1, field e 9 1, field e 0xA 2⟩

/-- Parse a program set. -/
def parseProgs (bs : List Byte) : ProgSet :=
  let m := progMap bs
  let code := progBundles bs
  { digest := field bs 0x38 8,
    progs := (cutEntries bs 16 (field bs 6 2) m.dirAt).map (parseProg code),
    classes := (cutEntries bs 16 (field bs 8 2) m.classAt).map parseClass,
    params := cutEntries bs 1024 (field bs 0xA 2) m.paramAt,
    bundles := code }

/-! ### The checks of R135 -/

/-- A directory entry is in range: its bundles exist, its entries lie within it, its budgets are allowed. -/
def progOk (count : Nat) (raw : List Byte) (p : Prog) : Bool :=
  decide (1 ≤ p.length) && decide (p.first + p.length ≤ count) && decide (p.leafEntry < p.length) &&
  (decide (p.preludeEntry = 0xFFFF) || decide (p.preludeEntry < p.length)) &&
  decide (64 ≤ p.budget) && decide (p.budget ≤ 16777216) &&
  (decide (p.preludeEntry ≠ 0xFFFF) || decide (p.preludeBudget = 0)) && decide (field raw 0xE 2 = 0)

/-- A class entry is in range and meets no earlier class. -/
def classOk (progs params : Nat) (before : List ProgClass) (raw : List Byte) (c : ProgClass) : Bool :=
  decide (c.first ≤ c.last) && decide (c.prog < progs) && decide (c.phase ≤ 1) &&
  (decide (c.param = 0xFFFF) || decide (c.param < params)) && decide (field raw 0xC 4 = 0) &&
  before.all (fun x => decide (x.last < c.first) || decide (c.last < x.first))

/-- The header's own failing item: MAGIC, VERSION, the counts, BYTES, the zero bytes, SET_DIGEST. -/
def progHeaderFailing (bs : List Byte) (regionBytes : Nat) : Option Nat :=
  if bs.length < 64 ∨ field bs 0 4 ≠ 0x1A5E9A01 then some 0
  else if field bs 4 2 ≠ 1 then some 4
  else if field bs 6 2 < 1 ∨ 64 < field bs 6 2 then some 6
  else if field bs 8 2 < 1 ∨ 256 < field bs 8 2 then some 8
  else if 256 < field bs 0xA 2 then some 0xA
  else if field bs 0xC 4 < 1 ∨ 8192 < field bs 0xC 4 ∨ regionBytes < 8 * field bs 0xC 4 ∨ bs.length ≠ (progMap bs).endAt
    then some 0xC
  else if !allZero ((bs.drop 0x10).take 40) then some 0x10
  else if crc64 (setField bs 0x38 8 0) ≠ field bs 0x38 8 then some 0x38
  else none

/-- The index of the first entry of a list that fails a test of its index. -/
def firstBad {α : Type} (ok : Nat → α → Bool) (l : List α) : Option Nat :=
  l.zipIdx.findIdx? (fun e => !ok e.2 e.1)

/-- The offset of the first failing item of a program set image, or none when R135 accepts it. -/
def progsFailing (bs : List Byte) (regionBytes : Nat) : Option Nat :=
  match progHeaderFailing bs regionBytes with
  | some o => some o
  | none =>
    let m := progMap bs
    let set := parseProgs bs
    let rawP := cutEntries bs 16 set.progs.length m.dirAt
    let rawC := cutEntries bs 16 set.classes.length m.classAt
    match firstBad (fun i p => progOk set.bundles.length (rawP.getD i []) p) set.progs with
    | some i => some (m.dirAt + 16 * i)
    | none =>
      match firstBad (fun i c => classOk set.progs.length set.params.length (set.classes.take i) (rawC.getD i []) c)
          set.classes with
      | some i => some (m.classAt + 16 * i)
      | none =>
        match firstBad (fun i b => bundleOk b && set.progs.all (fun p =>
            !(decide (p.first ≤ i) && decide (i < p.first + p.length)) || branchOk p.length (i - p.first) b)) set.bundles with
        | some i => some (m.codeAt + 8 * i)
        | none => none

/-- Some program of the set is ND (R136). -/
def setNd (set : ProgSet) : Bool := set.progs.any (fun p => p.nd)

/-- Some program of the set holds tile instructions. -/
def setTile (set : ProgSet) : Bool := set.progs.any (fun p => p.tile)

/-- The class index of a tensor. -/
def classOf (set : ProgSet) (tensor : Nat) : Option Nat :=
  set.classes.findIdx? (fun c => decide (c.first ≤ tensor) && decide (tensor ≤ c.last))

/-- The class and program of a class index. -/
def classProg (set : ProgSet) (i : Nat) : Option (ProgClass × Prog) :=
  match set.classes[i]? with
  | some c => (set.progs[c.prog]?).map (fun p => (c, p))
  | none => none

/-- PHASE of a tensor's class. -/
def phaseOf (set : ProgSet) (tensor : Nat) : Option Nat :=
  match classOf set tensor with
  | some i => (set.classes[i]?).map (fun c => c.phase)
  | none => none

end Sys2Proof.Machine
end

