-- ==== Sys2Proof/Machine/Flags.lean ====
section
/-!
DEFINITION. The flag computations: MSI-X requests and their moderation (R376), INT_STATUS bits, ERR_SUMMARY bits and
the pages they go to (R442, R443), escalation (R9), and LOCK_VIOLATION (R377).
-/

namespace Sys2Proof.Machine

/-- Ticks of one microsecond (1.25 ns a tick). -/
def ticksPerUs : Nat := 800

/-- Request MSI-X vector `vec` of function `n` (R376): sent at once, or held to the end of the moderation interval. -/
def msiRequest (s : State) (n vec : Nat) : State :=
  let key := n * 32 + vec
  let mod := fnF s n FN_MSIX_MAP_MOD * ticksPerUs
  match tabFind s.msiLast key with
  | some t =>
    if mod ≠ 0 ∧ s.ticks < t + mod then
      { s with msiPend := if s.msiPend.contains key then s.msiPend else s.msiPend ++ [key] }
    else { s with msi := s.msi ++ [(n, vec)], msiLast := tabPut s.msiLast key (some s.ticks) }
  | none => { s with msi := s.msi ++ [(n, vec)], msiLast := tabPut s.msiLast key (some s.ticks) }

/-- The vector that LY_FNn_MSIX_MAP names for a bit of INT_STATUS (Table 13.19). -/
def fnVector (s : State) (n : Nat) (b : Nat) : Nat :=
  if b = 31 then fnF s n FN_MSIX_MAP_CPL_VEC
  else if b = 30 ∨ b = 29 then fnF s n FN_MSIX_MAP_EV_VEC
  else fnF s n FN_MSIX_MAP_ERR_VEC

/-- Offset of INT_ENABLE in every page (Table 17.2). -/
def intEnableOff : Nat := 0x01C

/-- Set a bit of LY_FNn_INT_STATUS; an enabled bit requests its vector (R376). -/
def raiseFn (s : State) (n : Nat) (f : Fld) : State :=
  let s := flagF s (pgFn n) f
  if bit (wordAt s (pgFn n + intEnableOff)).toNat f.lo then msiRequest s n (fnVector s n f.lo) else s

/-- Set a bit of a unit page's INT_STATUS; an enabled bit interrupts MF on ERR_VEC (R443). -/
def raiseUnit (s : State) (pg : Nat) (f : Fld) : State :=
  let s := flagF s pg f
  if bit (wordAt s (pg + intEnableOff)).toNat f.lo then msiRequest s 0 (fnF s 0 FN_MSIX_MAP_ERR_VEC) else s

/-- Does INT_STATUS of the page follow the layout of R443 (bit 0 ERROR)? -/
def hasErrorInt (pg : Nat) : Bool := decide (pg < 0x20000) && decide (pg ≠ pgClkpwr) && decide (pg ≠ pgTwin)

/-- Set one bit of a page's ERR_SUMMARY; a change from 0 to 1 sets ERROR of INT_STATUS where the page has it (R443). -/
def errBit (s : State) (f : Fld) (pg : Nat) : State :=
  let fresh := decide (getF s pg f = 0)
  let s := flagF s pg f
  if fresh && hasErrorInt pg then raiseUnit s pg HDR_INT_STATUS_ERROR else s

/-- Record an error of category `f` that belongs to a slice: its page, its region's page and the global page (R442). -/
def errSlice (s : State) (f : Fld) (sl : Nat) : State :=
  errBit (errBit (errBit s f (pgSlice sl)) f (pgRegion (sl / 4))) f pgGlobal

/-- Record an error that belongs to a function: its page and the global page (R442). -/
def errFn (s : State) (f : Fld) (n : Nat) : State := errBit (errBit s f (pgFn n)) f pgGlobal

/-- Record an error in a unit page and the global page (R442). -/
def errUnit (s : State) (f : Fld) (pg : Nat) : State :=
  if pg = pgGlobal then errBit s f pgGlobal else errBit (errBit s f pg) f pgGlobal

/-- Escalate an error from the page of the lower level to the page of the upper level (R9, R442). -/
def escalate (s : State) (lower upper : Nat) : State :=
  errBit (errBit s HDR_ERR_SUMMARY_ESCALATED_UP lower) HDR_ERR_SUMMARY_ESCALATED_IN upper

/-- A write ignored under RWL or a LOCK_VIOLATION rule (R377), at a window offset. -/
def lockViolation (s : State) (a : Nat) : State :=
  let again := decide (getF s (pgFn 0) FN_INT_LOCK_VIOLATION = 1)
  let s := if again then flagF s pgGlobal GLOBAL_LOCK_INFO_MULTIPLE else s
  let s := setF s pgGlobal GLOBAL_LOCK_INFO_PAGE (a / 4096)
  let s := setF s pgGlobal GLOBAL_LOCK_INFO_OFFSET (a % 4096)
  errUnit (raiseFn s 0 FN_INT_LOCK_VIOLATION) HDR_ERR_SUMMARY_LOCK pgGlobal

end Sys2Proof.Machine
end

