-- ==== Sys2Proof/Machine/Events.lean ====
section
/-!
DEFINITION. What Lyith writes into host rings: event records (R374, R375, Table 13.10), completions (R369, R370,
Table 13.9), deviation records (R194, R195) and the step and leaf records' ring; and the change of a function's STATE
(R357).
-/

namespace Sys2Proof.Machine

/-! ### Event records -/

/-- Is the function's post box armed (R367)? -/
def armed (s : State) (n : Nat) : Bool := decide (fnF s n FN_PB_CTRL_ARM = 1)

/-- Entries of the event ring; zero when there is none (Table 13.16). -/
def evRing (s : State) (n : Nat) : Nat :=
  let l := fnF s n FN_EV_CTRL_EV_SIZE_LOG2
  if 6 ≤ l ∧ l ≤ 12 then 2 ^ l else 0

/-- Free entries of the event ring (R375). -/
def evFree (s : State) (n : Nat) : Nat :=
  evRing s n - (fnF s n FN_EV_HEAD_HEAD + 2 ^ 32 - fnF s n FN_EV_TAIL_TAIL) % 2 ^ 32

/-- Base address of a ring from its LO and HI registers. -/
def ringBase (s : State) (n : Nat) (lo hi : Nat) : Nat := pair (wordAt s (pgFn n + lo)) (wordAt s (pgFn n + hi))

/-- Entries a payload of `len` bytes takes (R374). -/
def evEntries (len : Nat) : Nat := if len ≤ 16 then 1 else if len ≤ 40 then 2 else if len ≤ 64 then 3 else 4

/-- Entry `i` of an event record (R374). -/
def evEntry (code entries seq counter : Nat) (payload : List Byte) (i : Nat) : List Byte :=
  if i = 0 then
    leBytes 2 code ++ leBytes 1 entries ++ [0] ++ leBytes 4 seq ++ leBytes 8 counter ++ fit 16 payload
  else leBytes 2 code ++ leBytes 1 i ++ [0] ++ leBytes 4 seq ++ fit 24 (payload.drop (16 + 24 * (i - 1)))

/-- Write one event record of `e` entries at EV_HEAD and advance EV_HEAD past it (R374). A write the host refuses does
not advance EV_HEAD and counts in OVERFLOW (R370). -/
def evWrite (s : State) (n code e : Nat) (payload : List Byte) : State :=
  let seq := (fnSt s n).evSeq
  let s := modFn s n (fun x => { x with evSeq := (x.evSeq + 1) % 2 ^ 32 })
  if s.hostDown then raiseFn (addF s (pgFn n) FN_EV_CTRL_OVERFLOW 1) n FN_INT_OVERFLOW else
  let head := fnF s n FN_EV_HEAD_HEAD
  let s := (List.range e).foldl (fun s i =>
    hostWrite s n (ringBase s n 0x060 0x064 + 32 * ((head + i) % evRing s n)) (evEntry code e seq s.counter payload i)) s
  raiseFn (setFnF s n FN_EV_HEAD_HEAD (head + e)) n FN_INT_EVENT

/-- Write the OVERFLOW marker once an entry is free (R375). -/
def evMarker (s : State) (n : Nat) : State :=
  let lost := fnF s n FN_EV_CTRL_OVERFLOW
  if lost ≠ 0 ∧ armed s n = true ∧ 1 ≤ evFree s n ∧ s.hostDown = false then
    evWrite (setFnF s n FN_EV_CTRL_OVERFLOW 0) n 0x0001 1 (leBytes 4 lost)
  else s

/-- A firmware switch is in progress, and the control plane waits for its end (R395). -/
def switching (s : State) : Bool := decide (getF s pgNvm NVM_FW_STATUS_STAGE = 5)

/-- An event record falls due for function `n` (R374, R375); during a firmware switch it waits (R395). -/
def postEvent (s : State) (n code : Nat) (payload : List Byte) : State :=
  if switching s then { s with nvm := { s.nvm with evHeld := s.nvm.evHeld ++ [(n, code, payload)] } } else
  let s := evMarker s n
  let e := evEntries payload.length
  if armed s n = true ∧ e ≤ evFree s n ∧ fnF s n FN_EV_CTRL_OVERFLOW = 0 then evWrite s n code e payload
  else
    let s := modFn s n (fun x => { x with evSeq := (x.evSeq + 1) % 2 ^ 32 })
    raiseFn (addF s (pgFn n) FN_EV_CTRL_OVERFLOW 1) n FN_INT_OVERFLOW

/-! ### Completions -/

/-- The 16 bytes of a completion entry whose count after writing is `count` (Table 13.9). -/
def cplBytes (c : Cpl) (count : Nat) : List Byte :=
  leBytes 4 c.tag ++ leBytes 1 c.op ++ leBytes 1 c.status ++ leBytes 2 count ++ leBytes 8 c.detail

/-- Write a completion entry at CPL_HEAD (R369); one the host refuses counts as written (R370). -/
def cplWrite (s : State) (n : Nat) (c : Cpl) : State :=
  let head := fnF s n FN_CPL_HEAD_HEAD
  let s := hostWrite s n (ringBase s n 0x058 0x05C + 16 * (head % 64)) (cplBytes c (head + 1))
  raiseFn (setFnF s n FN_CPL_HEAD_HEAD (head + 1)) n FN_INT_CPL

/-- A completion falls due: written while ARM is 1, kept on chip (at most 64) while it is 0 (R370); during a firmware switch it
waits (R395). -/
def complete (s : State) (n tag op status detail : Nat) : State :=
  let c : Cpl := ⟨tag, op, status, detail⟩
  if switching s then { s with nvm := { s.nvm with cplHeld := s.nvm.cplHeld ++ [(n, c)] } }
  else if armed s n then cplWrite s n c
  else modFn s n (fun x => { x with cplKept := if x.cplKept.length < 64 then x.cplKept ++ [c] else x.cplKept })

/-- Is a background command of the opcode running? -/
def bgRunning (s : State) (n op : Nat) : Bool := (fnSt s n).bg.any (fun c => c.op = op)

/-- Start a background command (R369). -/
def bgStart (s : State) (n op tag arg : Nat) : State := modFn s n (fun x => { x with bg := x.bg ++ [⟨op, tag, arg⟩] })

/-- Complete the oldest running background command of an opcode, if one runs (R369). -/
def bgComplete (s : State) (n op status detail : Nat) : State :=
  match (fnSt s n).bg.find? (fun c => c.op = op) with
  | none => s
  | some c => complete (modFn s n (fun x => { x with bg := x.bg.erase c })) n c.tag op status detail

/-- The TAG and argument of a running background command. -/
def bgFind (s : State) (n op : Nat) : Option BgCmd := (fnSt s n).bg.find? (fun c => c.op = op)

/-! ### Deviation records -/

/-- Records of a ring of 2^l, when `l` lies in its allowed range. -/
def ringSize (l lo hi : Nat) : Nat := if lo ≤ l ∧ l ≤ hi then 2 ^ l else 0

/-- The 64 bytes of a deviation record (Table 7.5). -/
def devBytes (s : State) (n seq cause slice core sched detail since pos skipped : Nat) : List Byte :=
  let job := match (fnSt s n).manifest with | some m => m.jobId | none => 0
  leBytes 8 since ++ leBytes 8 s.counter ++ leBytes 8 job ++ leBytes 8 (fnSt s n).step ++ leBytes 4 seq ++
    leBytes 1 cause ++ leBytes 1 slice ++ leBytes 1 core ++ leBytes 1 sched ++ leBytes 4 detail ++ leBytes 2 pos ++
    leBytes 2 skipped ++ zeros 16

/-- Free records of the deviation ring (R195). -/
def devFree (s : State) (n : Nat) : Nat :=
  ringSize (forceF s n FN_DEV_CTRL_SIZE_LOG2) 6 16 -
    (fnF s n FN_DEV_HEAD_HEAD + 2 ^ 32 - fnF s n FN_DEV_TAIL_TAIL) % 2 ^ 32

/-- Write one record into the deviation ring at DEV_HEAD (R195). -/
def devPut (s : State) (n : Nat) (r : List Byte) : State :=
  let size := ringSize (forceF s n FN_DEV_CTRL_SIZE_LOG2) 6 16
  let head := fnF s n FN_DEV_HEAD_HEAD
  let base := pair (forceAt s (pgFn n + 0x158)) (forceAt s (pgFn n + 0x15C))
  setFnF (hostWrite s n (base + 64 * (head % size)) r) n FN_DEV_HEAD_HEAD (head + 1)

/-- The OVERFLOW record that comes first when space returns (R195). -/
def devOverflow (s : State) (n : Nat) : State :=
  let x := fnSt s n
  if x.devLost ≠ 0 ∧ armed s n = true ∧ 1 ≤ devFree s n then
    devPut (setFnSt s n { x with devLost := 0, devSeq := (x.devSeq + 1) % 2 ^ 32 }) n
      (devBytes s n x.devSeq 0 0xFF 0xFF 0xFF x.devLost s.counter 0 0)
  else s

/-- Is a deviation cause a slip (Table 7.6)? -/
def isSlip (cause : Nat) : Bool := decide (1 ≤ cause) && decide (cause ≤ 0x10)

/-- A deviation record falls due (R194, R195, R370). -/
def deviation (s : State) (n cause slice core sched detail since pos skipped : Nat) : State :=
  let s := devOverflow s n
  let x := fnSt s n
  let r := devBytes s n x.devSeq cause slice core sched detail since pos skipped
  let s := setFnSt s n { x with devSeq := (x.devSeq + 1) % 2 ^ 32,
                                slips := if isSlip cause then x.slips + 1 else x.slips }
  let s := if isSlip cause then addF s (pgFn n) FN_WHEEL_SLIPS_RECORDS 1 else s
  let s := addF s (pgFn n) FN_WHEEL_SLIPS_SKIPPED skipped
  if armed s n = false then
    (if x.devKept.length < 64 then modFn s n (fun y => { y with devKept := y.devKept ++ [r] })
     else modFn (addF s (pgFn n) FN_DEV_CTRL_LOST 1) n (fun y => { y with devLost := y.devLost + 1 }))
  else if 1 ≤ devFree s n ∧ x.devLost = 0 ∧ s.hostDown = false then devPut s n r
  else modFn (addF s (pgFn n) FN_DEV_CTRL_LOST 1) n (fun y => { y with devLost := y.devLost + 1 })

/-- A slip that is not a hold, on a slice and core (0xFF for none). -/
def slip (s : State) (n cause slice core sched detail : Nat) : State :=
  deviation s n cause slice core sched detail s.counter 0 0

/-! ### Step and leaf records (R423, R424) -/

/-- Free records of the digest ring. -/
def digFree (s : State) (n : Nat) : Nat :=
  ringSize (forceF s n FN_DIG_CTRL_SIZE_LOG2) 6 24 -
    (fnF s n FN_DIG_HEAD_HEAD + 2 ^ 32 - fnF s n FN_DIG_TAIL_TAIL) % 2 ^ 32

/-- Write one record into the digest ring at DIG_HEAD. -/
def digPut (s : State) (n : Nat) (r : List Byte) : State :=
  let size := ringSize (forceF s n FN_DIG_CTRL_SIZE_LOG2) 6 24
  let head := fnF s n FN_DIG_HEAD_HEAD
  let base := pair (forceAt s (pgFn n + 0x1C0)) (forceAt s (pgFn n + 0x1C4))
  setFnF (hostWrite s n (base + 64 * (head % size)) r) n FN_DIG_HEAD_HEAD (head + 1)

/-- A step or leaf record falls due; the builder takes its SEQ. -/
def digRecord (s : State) (n : Nat) (build : Nat → List Byte) : State :=
  let x := fnSt s n
  let r := build x.digSeq
  let s := setFnSt s n { x with digSeq := (x.digSeq + 1) % 2 ^ 32 }
  if armed s n = false then
    (if x.digKept.length < 64 then modFn s n (fun y => { y with digKept := y.digKept ++ [r] })
     else addF s (pgFn n) FN_DIG_CTRL_LOST 1)
  else if 1 ≤ digFree s n ∧ s.hostDown = false then digPut s n r
  else addF s (pgFn n) FN_DIG_CTRL_LOST 1

/-! ### A change of STATE -/

/-- Change a function's STATE: INT_STATUS.STATE_CHANGE and the STATE_CHANGE events (R357, Table 13.10). -/
def setFnState (s : State) (n new : Nat) : State :=
  let old := stateOf s n
  if old = new then s else
  let s := raiseFn (setFnF s n FN_STATE_STATE new) n FN_INT_STATE_CHANGE
  let p := leBytes 1 old ++ leBytes 1 new ++ leBytes 1 (fnF s n FN_STATE_START_STATUS) ++
    leBytes 1 (fnF s n FN_STATE_ABORT_CAUSE)
  postEvent (postEvent s n 0x0002 p) 0 0x0002 (p ++ leBytes 1 n)

end Sys2Proof.Machine
end

