-- ==== Sys2Proof/Machine/Seals.lean ====
section
/-!
DEFINITION. Seal objects: the window layout (R447), arming and disarming (R448, R450), arrivals (R449), stray arrivals
(R450), and reading (R451). What follows a firing is the business of the function whose seal it is.
-/

namespace Sys2Proof.Machine

/-- Seal object `i`. -/
def sealAt (s : State) (i : Nat) : SealObj := tabGet {} s.seals i

/-- Write seal object `i`. -/
def setSeal (s : State) (i : Nat) (o : SealObj) : State := { s with seals := tabSet {} s.seals i o }

/-- The seal window offset of object `i` (R447). -/
def sealOffset (i : Nat) : Nat := 0x1000 * (i / 252) + 0x040 + 16 * (i % 252)

/-- The object whose base is a seal window offset, if one is there (R447). -/
def sealOfOffset (o : Nat) : Option Nat :=
  let p := o / 0x1000
  let r := o % 0x1000
  if r < 0x40 ∨ (r - 0x40) % 16 ≠ 0 then none
  else
    let i := 252 * p + (r - 0x40) / 16
    if (r - 0x40) / 16 < 252 ∧ i < 16384 then some i else none

/-- STATUS word of an object (Table 17.13). -/
def sealStatus (o : SealObj) : Nat :=
  o.state * 2 ^ 30 + o.owner * 2 ^ 24 + o.arms * 2 ^ 16 + o.late * 2 ^ 8 + (if o.parity then 128 else 0)

/-- The 16 bytes of an object (Table 17.12). -/
def sealBytes (o : SealObj) : List Byte :=
  leBytes 4 o.count ++ leBytes 4 o.expected ++ leBytes 4 (sealStatus o) ++ leBytes 4 o.firedAt

/-- An object that fires at counter value `c` (R449). -/
def fireObj (o : SealObj) (c : Nat) : SealObj := { o with state := 2, firedAt := c % 2 ^ 32 }

/-- Put a consequence on the agenda of the command in progress. -/
def todo (s : State) (t : Todo) : State := { s with agenda := s.agenda ++ [t] }

/-- Arm object `i` for function `n` with an expected count (R448); a conflicting arm is ignored (R450). An expected
count of zero fires at once (R67). -/
def sealArm (s : State) (n i expected : Nat) : State :=
  let o := sealAt s i
  if o.owner ≠ n ∧ isBusyFn s o.owner = true then
    errUnit (lockViolation (flagF s pgGlobal GLOBAL_WINDOW_STATUS_SEAL_CONFLICT)
      (0x80000 + sealOffset i)) HDR_ERR_SUMMARY_SEAL pgGlobal
  else
    let o : SealObj := { count := 0, expected := expected, state := 1, owner := n, arms := (o.arms + 1) % 256,
                         late := 0, parity := false, firedAt := 0 }
    if expected = 0 then todo (setSeal s i (fireObj o s.counter)) (.sealFired i) else setSeal s i o

/-- Disarm every object that function `n` armed (Table 13.5, order 6). -/
def sealDisarmAll (s : State) (n : Nat) : State :=
  { s with seals := s.seals.map (fun e => if e.2.owner = n then (e.1, { e.2 with state := 0 }) else e) }

/-- `a` arrivals at an object that is armed or fired (R449). The answer says whether it fired now. -/
def arriveObj (o : SealObj) (a c : Nat) : SealObj × Bool :=
  if a = 0 then (o, false)
  else if o.state = 1 then
    let t := o.count + a
    let o := { o with count := min t o.expected, late := min (o.late + (t - o.expected)) 255 }
    if o.expected ≤ t then (fireObj o c, true) else (o, false)
  else if o.state = 2 then ({ o with late := min (o.late + a) 255 }, false)
  else (o, false)

/-- A stray arrival (R450). -/
def sealStray (s : State) : State :=
  errUnit (addF (flagF s pgGlobal GLOBAL_WINDOW_STATUS_SEAL_STRAY) pgGlobal GLOBAL_WINDOW_STATUS_STRAYS 1)
    HDR_ERR_SUMMARY_SEAL pgGlobal

/-- Lyith's own arrival at an object (R449); one at an IDLE object is stray (R450). -/
def sealArrive (s : State) (i a : Nat) : State :=
  let o := sealAt s i
  if o.state = 0 then sealStray s
  else
    let r := arriveObj o a s.counter
    if r.2 then todo (setSeal s i r.1) (.sealFired i) else setSeal s i r.1

/-- Has the object fired under its current arm? -/
def sealFired (s : State) (i : Nat) : Bool := decide ((sealAt s i).state = 2)

end Sys2Proof.Machine
end

