-- ==== Sys2Proof/Machine/Group.lean ====
section
/-!
DEFINITION. Lookups in a function's group: its group entry, live members, holders of a row, the slice of a row, the
routes to members, and which slots this die holds (R46, R48, R181, R217, R219, R259, R276, R277).
-/

namespace Sys2Proof.Machine

/-- The group entry of the die's group under the active manifest. -/
def grpOf (x : FnSt) : Option GroupEntry :=
  match x.manifest with
  | none => none
  | some m => groupOf m x.group

/-- Is member `m` LIVE in the member record? -/
def memLive (x : FnSt) (m : Nat) : Bool := match x.members[m]? with | some e => e.live | none => false

/-- The member numbers of the record that are LIVE, ascending. -/
def liveMembers (x : FnSt) : List Nat := (List.range x.members.length).filter (fun m => memLive x m)

/-- A bit mask of member numbers. -/
def maskOf (l : List Nat) : Nat := (l.eraseDups.map (fun i => 2 ^ i)).sum

/-- Is member `m` absorbed (R276)? -/
def isAbsorbed (x : FnSt) (m : Nat) : Bool := match x.members[m]? with | some e => !e.absorbed.isEmpty | none => false

/-- The member whose die holds the slot of member `m` in row `j`: `m` itself, or S[j mod |S|] while absorbed (R276),
and where that member is absorbed in its turn, the one that holds its slot, through at most `fuel` absorptions. -/
def holderFrom (x : FnSt) (j : Nat) : Nat → Nat → Nat
  | 0, m => m
  | fuel + 1, m =>
    match x.members[m]? with
    | some e => if e.absorbed.isEmpty then m else holderFrom x j fuel (e.absorbed.getD (j % e.absorbed.length) m)
    | none => m

/-- The member whose die holds the slot of member `m` in row `j` (R276). -/
def holderMember (x : FnSt) (m j : Nat) : Nat := holderFrom x j 16 m

/-- Does some die hold the slot of member `m` in row `j` under the current record? -/
def slotHeld (x : FnSt) (m j : Nat) : Bool := memLive x (holderMember x m j)

/-- Does this die hold the slot of member `m` in row `j` (its own, or one it absorbs)? -/
def heldHere (x : FnSt) (m j : Nat) : Bool :=
  decide (x.role = 1) && decide (holderMember x m j = x.self) && memLive x x.self

/-- No die holds the slot of member `m` in row `j`: its member is FAILED and nothing replaces it. -/
def rowLost (x : FnSt) (m j : Nat) : Bool := !slotHeld x m j

/-- The member that holds pigeonhole `p` of row `j` (R48). -/
def holeMember (g : GroupEntry) (j p : Nat) : Nat := (j + g.k + p) % g.n

/-- The parity index of member `m` in row `j`, when it holds a pigeonhole there (R48). -/
def holeIndex (g : GroupEntry) (m j : Nat) : Option Nat :=
  let q := roleOf g.n m j
  if g.k ≤ q then some (q - g.k) else none

/-- The live holders of row `j`: member, parity index (R68, R75). -/
def liveHolders (x : FnSt) (g : GroupEntry) (j : Nat) : List (Nat × Nat) :=
  ((List.range g.r).map (fun p => (holeMember g j p, p))).filter (fun h => slotHeld x h.1 j)

/-- The slice on which row `j` of a coded area lies (R181). -/
def rowSlice (x : FnSt) (j : Nat) : Nat :=
  match x.wheel with
  | none => 0
  | some w => w.place.getD ((j / 32) % 64) 0

/-! ### Routes -/

/-- The die base (bits 31:12) of a route entry or an endpoint. -/
def dieBits (e : Nat) : Nat := e / 4096 * 4096

/-- The function number of a route entry (Table 8.15). -/
def routeFn (e : Nat) : Nat := bits e 11 6

/-- The VALID bit of a route entry. -/
def routeValid (e : Nat) : Bool := bit e 0

/-- This die's endpoint base: LY_CLKPWR_POSITION bits 31:12 (R197, R411). -/
def selfDie (s : State) : Nat := dieBits (wordAt s (pgClkpwr + 0x040)).toNat

/-- The entry of a logical id in a generation, when it is below ROUTE_SIZE and VALID (R217). -/
def routeEntry (g : RouteGen) (id : Nat) : Option Nat :=
  match g.entries[id]? with
  | some e => if routeValid e then some e else none
  | none => none

/-- The generation of a route map that a packet's GEN bit names: current, staged or shadow, whichever holds that
number (R219). -/
def genOf (x : FnSt) (gen : Nat) : Option RouteGen :=
  if x.route.number % 2 = gen then some x.route
  else match x.routeStaged, x.routeShadow with
    | some (g, _), _ => if g.number % 2 = gen then some g else none
    | none, some g => if g.number % 2 = gen then some g else none
    | none, none => none

/-- The die of member `m` for row `j` by the member record (R219, R277). -/
def memberDie (x : FnSt) (m j : Nat) : Nat :=
  match x.members[holderMember x m j]? with
  | some e => e.die
  | none => 0

/-- The low 32 bits of a number. -/
def low32 (v : Nat) : Nat := v % 4294967296

/-- The proxy of member `m`: the first LIVE member after it (R280). -/
def proxyOf (x : FnSt) (m : Nat) : Option Nat :=
  let n := x.members.length
  ((List.range (n - 1)).map (fun i => (m + 1 + i) % n)).find? (fun q => memLive x q)

/-- The sending port redirects a memory-form LOAD for the former die of a failed member to the member's proxy, and drops a
STORE for it: the destination in place of `dst`, none where the packet is dropped (R280). -/
def redirect (x : FnSt) (type dst : Nat) : Option Nat :=
  match x.proxies.find? (fun q => decide (dieBits q.2 = dieBits dst)) with
  | none => some dst
  | some q =>
    if type = 3 then none
    else if type ≠ 1 then some dst
    else match (proxyOf x q.1).bind (fun m => x.members[m]?) with
      | some e => some (dieBits e.die + dst % 4096)
      | none => some dst

end Sys2Proof.Machine
end

