-- ==== Sys2Proof/Machine/Leaf.lean ====
section
/-!
DEFINITION. Slots: postmarks (R21, Tables 1.1, 1.2 and 2.6), when a slot is erased (R25), coded images and tails (R50),
stamps (R53), and the chain link (R24). A slot is its 65,536 bytes.
-/

namespace Sys2Proof.Machine

/-! ### Postmark fields (Table 1.1) -/

/-- KIND. -/
def pmKind (slot : List Byte) : Nat := field slot 0 1
/-- FORMAT. -/
def pmFormat (slot : List Byte) : Nat := field slot 1 1
/-- PM_VERSION. -/
def pmVersion (slot : List Byte) : Nat := field slot 2 1
/-- FLAGS. -/
def pmFlags (slot : List Byte) : Nat := field slot 3 1
/-- TENSOR_ID. -/
def pmTensor (slot : List Byte) : Nat := field slot 0xC 4
/-- STEP_STAMP. -/
def pmStamp (slot : List Byte) : Nat := field slot 0x18 8
/-- LAST_TOUCHED. -/
def pmTouched (slot : List Byte) : Nat := field slot 0x20 8
/-- EPOCH. -/
def pmEpoch (slot : List Byte) : Nat := field slot 0x28 4
/-- LEAF_ID. -/
def pmLeafId (slot : List Byte) : Nat := field slot 0x30 8
/-- BODY_DIGEST. -/
def pmDigest (slot : List Byte) : Nat := field slot 0x38 8
/-- CHAIN_LINK. -/
def pmChain (slot : List Byte) : Nat := field slot 0x40 8
/-- FORMAT_EXT. -/
def pmExt (slot : List Byte) : List Byte := (slot.drop 0x48).take 40
/-- STAMP_LO entry of member `m` (Table 2.7). -/
def pmEntry (slot : List Byte) (m : Nat) : Nat := field slot (0x70 + 4 * m) 4
/-- PRESENT (Table 2.8). -/
def pmPresent (slot : List Byte) : Nat := field slot 0x70 2

/-- The body of a slot. -/
def slotBody (slot : List Byte) : List Byte := (slot.drop 256).take 65280

/-- Recompute PM_CHECK (Table 1.1). -/
def sealPostmark (slot : List Byte) : List Byte := setField slot 0xF8 8 (crc64 (slot.take 0xF8))

/-- A free slot: every byte zero (Table 1.2); the CRC-64 of zero bytes is zero. -/
def freeSlot : List Byte := zeros 65536

/-- CHAIN_LINK of a new body (R24). -/
def chainLink (prev digest stamp : Nat) : Nat := crc64 (leBytes 8 prev ++ leBytes 8 digest ++ leBytes 8 stamp)

/-! ### Building postmarks -/

/-- What of a leaf's postmark does not come from its binding and row. -/
structure LeafMark where
  flags : Nat
  stamp : Nat
  touched : Nat
  epoch : Nat
  chain : Nat
  ext : List Byte
  deriving DecidableEq, Repr

/-- A leaf's slot: its postmark by Table 1.1 and its body (R21, R22). FLAGS.SPARSE24 comes from the binding. -/
def mkLeaf (g : GroupEntry) (member row : Nat) (l : LeafRef) (k : LeafMark) (body : List Byte) : List Byte :=
  sealPostmark (leBytes 1 l.kindCode ++ leBytes 1 l.code ++ [1] ++ leBytes 1 (b2n l.binding.s24 + k.flags) ++
    leBytes 4 l.elemCount ++ leBytes 4 row ++ leBytes 4 l.binding.tensor ++ leBytes 8 l.elemOffset ++
    leBytes 8 k.stamp ++ leBytes 8 k.touched ++ leBytes 4 k.epoch ++ leBytes 2 g.group ++ leBytes 1 member ++
    leBytes 1 (g.k * 16 + g.r) ++ leBytes 4 l.index ++ leBytes 4 l.binding.tensor ++ leBytes 8 (crc64 (fit 65280 body)) ++
    leBytes 8 k.chain ++ fit 40 k.ext ++ zeros 144 ++ fit 65280 body)

/-- A pigeonhole's slot (Table 2.6): `area` 0 with STAMP_LO entries or 1 with PRESENT as `kindArea` (64 bytes), and the
65,344-byte image (R50). -/
def mkHole (g : GroupEntry) (member row area stamp epoch : Nat) (rebuilt : Bool) (kindArea image : List Byte) : List Byte :=
  let body := fit 65280 (image.drop 64)
  sealPostmark (leBytes 1 (0x10 + area) ++ [0, 1] ++ leBytes 1 (if rebuilt then 2 else 0) ++ zeros 4 ++ leBytes 4 row ++
    zeros 12 ++ leBytes 8 stamp ++ zeros 8 ++ leBytes 4 epoch ++ leBytes 2 g.group ++ leBytes 1 member ++
    leBytes 1 (g.k * 16 + g.r) ++ zeros 8 ++ leBytes 8 (crc64 body) ++ zeros 48 ++ fit 64 kindArea ++
    fit 64 image ++ zeros 16 ++ body)

/-! ### Coded images (R50, Table 2.5) -/

/-- The coded image of a data slot: its tail, then its body. -/
def dataImage (slot : List Byte) : List Byte :=
  (slot.drop 0x20).take 8 ++ (slot.drop 0x38).take 56 ++ slotBody slot

/-- The coded image of a pigeonhole: its tail parity, then its body. -/
def holeImage (slot : List Byte) : List Byte := (slot.drop 0xB0).take 64 ++ slotBody slot

/-- The BODY_DIGEST in an image's tail. -/
def imgDigest (img : List Byte) : Nat := field img 8 8

/-- LAST_TOUCHED, CHAIN_LINK and FORMAT_EXT of an image's tail. -/
def imgTouched (img : List Byte) : Nat := field img 0 8
def imgChain (img : List Byte) : Nat := field img 0x10 8
def imgExt (img : List Byte) : List Byte := (img.drop 0x18).take 40

/-! ### Erased slots (R25) -/

/-- KIND fits the slot's position. -/
def kindFits (area : Nat) (isHole : Bool) (kind : Nat) : Bool :=
  if area = 0 then (if isHole then decide (kind = 0x10) else decide (kind = 0 ∨ kind = 1 ∨ kind = 3))
  else (if isHole then decide (kind = 0x11) else decide (kind = 0 ∨ kind = 2))

/-- Lyith treats the slot as erased (R25), the body digest included. -/
def slotErased (epoch area : Nat) (isHole : Bool) (slot : List Byte) : Bool :=
  let kind := pmKind slot
  decide (field slot 0xF8 8 ≠ crc64 (slot.take 0xF8)) ||
  !kindFits area isHole kind ||
  (decide (kind ≠ 0) && decide (pmVersion slot ≠ 1)) ||
  (decide (kind = 0) && !(allZero ((slot.drop 1).take 0xF7) && allZero (slotBody slot))) ||
  decide (pmDigest slot ≠ crc64 (slotBody slot)) ||
  decide (epoch < pmEpoch slot)

/-! ### The slots this die holds: its own, and absorbed ones in parking frames (R276) -/

/-- The address the model gives the parking frame of member `m`'s slot (R276). -/
def frameAddr (n m area gen j : Nat) : Nat := 2 ^ 60 + ((n * 16 + m) * 8 + area * 4 + gen) * 2 ^ 44 + j * 65536

/-- The slot of member `m` in row `j` on this die: in the state range for its own member, else in a parking frame. -/
def heldSlot (s : State) (n m area gen j : Nat) : List Byte :=
  if (fnSt s n).self = m then slotRead s n area gen j else memReadN s.deep (frameAddr n m area gen j) 65536

/-! ### Before-images and the step value -/

/-- The index ordinal of a slot in a sweep's snapshot (R308), if the snapshot holds it. -/
def sweepOrdinal (sw : Sweep) (area gen j : Nat) : Option Nat :=
  if area = 0 then some j
  else (sw.gens.findIdx? (fun g => decide (g = gen))).map (fun i => sw.manifest.stripeRows + i * sw.manifest.gradRows + j)

/-- Index values of R308, and the model's mark of a slot whose page waits to be programmed. -/
def indexFree : Nat := 0xFFFFFFFE
def indexAbsent : Nat := 0xFFFFFFFF
def indexWaits : Nat := 0xFFFFFFFD

/-- Mark a slot of a sweep. -/
def sweepMark (s : State) (n ordinal v : Nat) : State :=
  modFn s n (fun x => { x with sweep := x.sweep.map (fun sw => { sw with index := tabPut sw.index ordinal (some v) }) })

/-- The action code of Table 7.3 that writes a slot of a kind. -/
def writerAction (area : Nat) (isHole : Bool) : Nat :=
  if area = 0 then (if isHole then 0x18 else 0x16) else (if isHole then 0x05 else 0x03)

/-- Slots that the push area holds (R306). -/
def pushRoom (s : State) : Nat := getF s pgFloor FLOOR_PUSH_AREA_PUSH_SIZE * 1024

/-- The before-image push of an unswept slot of this member (R305, R306, R308): a free slot and one that cannot be read
are only marked. A push that finds the push area full waits, which is recorded. -/
def pushBefore (s : State) (n m area gen j : Nat) : State :=
  let x := fnSt s n
  match x.sweep with
  | none => s
  | some sw =>
    if sw.member ≠ m ∨ x.self ≠ m then s else
    match sweepOrdinal sw area gen j with
    | none => s
    | some o =>
      if (tabFind sw.index o).isSome then s else
      let slot := slotRead s n area gen j
      let hole := decide (pmKind slot = 0x10 + area)
      if slotErased x.epoch area hole slot then sweepMark s n o indexAbsent
      else if pmKind slot = 0 then sweepMark s n o indexFree
      else
        let full := decide (pushRoom s ≤ s.pushes.length)
        let s := if full then slip s n 9 (rowSlice x j) 0xFF (if area = 0 then 1 else 0) (writerAction area hole + 256 * 0x21) else s
        let s := if full && decide (0 < pushRoom s) then flagF s pgFloor FLOOR_STATUS_PUSH_FULL else s
        let s := sweepMark { s with pushes := s.pushes ++ [⟨n, sw.snapId, o, slot⟩] } n o indexWaits
        modFn s n (fun x => { x with sweep := x.sweep.map (fun sw => { sw with pushed := sw.pushed + 1 }) })

/-- Fold a state leaf into X(t) at the first write that gives it stamp t (R421). -/
def foldStep (s : State) (n m j : Nat) (slot : List Byte) : State :=
  let x := fnSt s n
  if x.role = 1 ∧ pmKind slot = 1 ∧ pmStamp slot = x.step ∧ (m, j) ∉ x.xslots then
    setFnSt s n { x with xval := x.xval ^^^ pmChain slot, xslots := x.xslots ++ [(m, j)] }
  else s

/-- A write of a slot that a transfer's walk has passed is to be mirrored to the target (R281). -/
def mirrorNote (s : State) (n m area gen j : Nat) : State :=
  match (fnSt s n).copy with
  | some c =>
    if c.subject = m ∧ (area, gen, j) ∉ c.left ∧ (area, gen, j) ∉ c.mirrors then
      modFn s n (fun x => { x with copy := some { c with mirrors := c.mirrors ++ [(area, gen, j)] } })
    else s
  | none => s

/-- Write the slot of member `m` in row `j` on this die: a before-image is pushed first (R305), a transfer mirrors it
(R281), and a leaf of the current step enters the step value (R421). -/
def heldWrite (s : State) (n m area gen j : Nat) (slot : List Byte) : State :=
  let s := pushBefore s n m area gen j
  let s := if (fnSt s n).self = m then slotWrite s n area gen j slot
    else { s with deep := memWriteN s.deep (frameAddr n m area gen j) slot }
  let s := mirrorNote s n m area gen j
  if area = 0 then foldStep s n m j slot else s

/-! ### Stamps (R53) -/

/-- Stamp `a` is newer than `b`. -/
def newer (a b : Nat) : Bool :=
  let d := (a % 2 ^ 32 + 2 ^ 32 - b % 2 ^ 32) % 2 ^ 32
  decide (1 ≤ d) && decide (d ≤ 2 ^ 31 - 1)

/-- Stamp `a` is older than `b`. -/
def older (a b : Nat) : Bool := newer b a

/-- The newest of a list of low stamps (the first for an empty order). -/
def newest : List Nat → Nat
  | [] => 0
  | a :: as => as.foldl (fun x y => if newer y x then y else x) a

/-- The full stamp of an entry: the greatest value not above `full` with the entry's low 32 bits. -/
def fullStamp (full entry : Nat) : Nat :=
  let base := full / 2 ^ 32 * 2 ^ 32 + entry % 2 ^ 32
  if base ≤ full then base else base - 2 ^ 32

end Sys2Proof.Machine
end

