-- ==== Sys2Proof/Machine/Stripe.lean ====
section
/-!
DEFINITION. The stripe code over a row: decoding (R58, R59, R61), re-encoding of pigeonholes (R59), verifying (R62) and
formatting (R57). The other members' slots come as the command's operand; this die reads and writes its own.
-/

namespace Sys2Proof.Machine

/-! ### Matrices over GF(2^8) (R58) -/

/-- The row `r` scaled by `a`. -/
def rowScale (a : Byte) (r : List Byte) : List Byte := r.map (gfMul a)

/-- First row at or below `col` whose entry in column `col` is not zero. -/
def findPivot (m : List (List Byte)) (col : Nat) : Nat :=
  ((List.range m.length).find? (fun i => decide (col ≤ i) && decide ((m.getD i []).getD col 0 ≠ 0))).getD col

/-- One column of Gauss and Jordan elimination. -/
def elimCol (m : List (List Byte)) (col : Nat) : List (List Byte) :=
  let piv := findPivot m col
  let a := m.getD piv []
  let b := m.getD col []
  let m := (m.set piv b).set col a
  let p := rowScale (gfInv (a.getD col 0)) a
  let m := m.set col p
  (List.range m.length).map (fun i =>
    let r := m.getD i []
    if i = col then r else xorBytes r (rowScale (r.getD col 0) p))

/-- gf_invert (R58): the inverse of a square matrix. -/
def gfInvert (mat : List (List Byte)) : List (List Byte) :=
  let n := mat.length
  let aug := (List.range n).map (fun i => mat.getD i [] ++ (List.range n).map (fun j => if i = j then 1 else 0))
  ((List.range n).foldl elimCol aug).map (fun r => r.drop n)

/-! ### One row as it is read -/

/-- What decoding knows of a row: the surviving data roles with image and low stamp, the erased roles, and the usable
pigeonholes by parity index with their slots. -/
structure RowView where
  surv : List (Nat × List Byte × Nat)
  erased : List Nat
  holes : List (Nat × List Byte)
  deriving DecidableEq, Repr

/-- The low stamp that survivor or entry comparison uses for a data slot: STEP_STAMP in the stripe area; in a gradient
area one when the slot is a leaf and zero when it is null (R56), see `holeEntry`. -/
def dataStamp (slot : List Byte) : Nat := low32 (pmStamp slot)

/-- The entry of a pigeonhole for member `m`: STAMP_LO in the stripe area; in a gradient area the pigeonhole's own
STEP_STAMP when PRESENT is set, and the slot's own stamp (so that it never disagrees) when it is clear, because a
survivor whose bit is clear enters as zero and counts as null (R56, R58). -/
def holeEntry (area : Nat) (hole : List Byte) (m survStamp : Nat) : Nat :=
  if area = 0 then pmEntry hole m
  else if bit (pmPresent hole) m then low32 (pmStamp hole) else survStamp

/-- Build the view of row `j` from the members' slots (R58); `slots` lists a member's slot or none where it is lost. -/
def rowView (g : GroupEntry) (epoch area j : Nat) (slots : Nat → Option (List Byte)) : RowView :=
  let get := fun (m : Nat) (hole : Bool) =>
    match slots m with
    | none => none
    | some b => if slotErased epoch area hole b then none else some b
  let roles := (List.range g.k).map (fun i => (i, get ((j + i) % g.n) false))
  { surv := roles.filterMap (fun x => x.2.map (fun b => (x.1, dataImage b, dataStamp b))),
    erased := (roles.filter (fun x => x.2.isNone)).map Prod.fst,
    holes := (List.range g.r).filterMap (fun p => (get (holeMember g j p) true).map (fun b => (p, b))) }

/-- Which choice of R58 is tried. -/
inductive DecodeMode where
  | forward | back
  deriving DecidableEq, Repr

/-- One pass of the refinement of choose (R58). -/
def chooseStep (mode : DecodeMode) (v : RowView) (entry : List Byte → Nat → Nat → Nat) (e : List Nat)
    (h : List (Nat × List Byte)) : List Nat × List (Nat × List Byte) :=
  match mode with
  | .forward =>
    let e := e ++ (v.surv.filter (fun x => !e.contains x.1 &&
      h.any (fun p => older x.2.2 (entry p.2 x.1 x.2.2)))).map (fun x => x.1)
    let want := fun (i : Nat) => newest (h.map (fun p => entry p.2 i 0))
    let h := h.filter (fun p => e.all (fun i => decide (entry p.2 i 0 = want i)))
    let h := h.filter (fun p => !v.surv.any (fun x => !e.contains x.1 && newer x.2.2 (entry p.2 x.1 x.2.2)))
    (e, h)
  | .back =>
    let h := h.filter (fun p => v.surv.all (fun x => e.contains x.1 || decide (entry p.2 x.1 x.2.2 = x.2.2)))
    let h := match h with
      | [] => []
      | p0 :: _ => h.filter (fun p => e.all (fun i => decide (entry p.2 i 0 = entry p0.2 i 0)))
    (e, h)

/-- choose (R58): the refinement repeated until nothing changes (each repeat grows e or shrinks h, so twenty suffice
for at most fourteen roles and four pigeonholes). -/
def choose (mode : DecodeMode) (v : RowView) (entry : List Byte → Nat → Nat → Nat) : List Nat × List (Nat × List Byte) :=
  (List.range 20).foldl (fun x _ => chooseStep mode v entry x.1 x.2) (v.erased, v.holes)

/-- The images that solve_row recovers for the roles `e` from the pigeonholes `h` (R58). -/
def solveImages (e : List Nat) (h : List (Nat × List Byte)) (v : RowView) (enters : Nat → Bool) : List (List Byte) :=
  let s := h.map (fun p => v.surv.foldl (fun acc x =>
    if e.contains x.1 || !enters x.1 then acc else xorBytes acc (gfScale (coeff p.1 x.1) x.2.1)) (holeImage p.2))
  let inv := gfInvert (h.map (fun p => e.map (fun i => coeff p.1 i)))
  inv.map (fun r => (r.zip s).foldl (fun acc x => xorBytes acc (gfScale x.1 x.2)) (zeros 65344))

/-- The outcome of decoding a row: the choice used, the recovered roles with image and entry, the pigeonhole whose full
stamp the entries take, and whether a recovered body failed its digest on the way. -/
structure Decoded where
  mode : DecodeMode
  roles : List (Nat × List Byte × Nat)
  hole : List Byte
  digestFail : Bool
  deriving DecidableEq, Repr

/-- One choice: the recovered roles, or whether its digest check failed. -/
def tryMode (mode : DecodeMode) (v : RowView) (entry : List Byte → Nat → Nat → Nat) (bound : Nat → Bool)
    (enters : List Byte → Nat → Bool) : Option Decoded × Bool :=
  let (e, h) := choose mode v entry
  if h.length < e.length then (none, false) else
  let h0 := (h.head?.map Prod.snd).getD []
  let imgs := solveImages e (h.take e.length) v (enters h0)
  let out := e.zip imgs
  if out.any (fun x => bound x.1 && decide (crc64 (x.2.drop 64) ≠ imgDigest x.2)) then (none, true)
  else (some ⟨mode, out.map (fun x => (x.1, x.2, entry h0 x.1 0)), h0, false⟩, false)

/-- decode_row (R58): forward, then back; none where neither solves the row. The second part says whether a decoded
body failed its digest check. -/
def decodeView (v : RowView) (entry : List Byte → Nat → Nat → Nat) (bound : Nat → Bool)
    (enters : List Byte → Nat → Bool) : Option Decoded × Bool :=
  match tryMode .forward v entry bound enters with
  | (some d, f) => (some d, f)
  | (none, f1) =>
    match tryMode .back v entry bound enters with
    | (some d, f) => (some d, f || f1)
    | (none, f2) => (none, f1 || f2)

/-! ### Decoding on this die -/

/-- The slot of member `m` in row `j` for decoding: none where it is treated as erased (`bad`) or no die holds it, this
die's own memory where it holds the slot, the operand's image otherwise. -/
def slotOf (s : State) (n area gen j : Nat) (imgs : RowImages) (bad : List Nat) (m : Nat) : Option (List Byte) :=
  let x := fnSt s n
  if bad.contains m then none
  else if rowLost x m j then none
  else if heldHere x m j then some (heldSlot s n m area gen j) else (imgs.getD m none).map (fit 65536)

/-- What the manifest binds at data role `i` of row `j`. -/
def roleLeaf (m : Manifest) (g : GroupEntry) (area j i : Nat) : Option LeafRef := leafAt m g ((j + i) % g.n) area j

/-- What is bound there while a re-shard has put slots and not freed them: by either manifest (R291). -/
def roleBound (x : FnSt) (m : Manifest) (g : GroupEntry) (area j i : Nat) : Option LeafRef :=
  match roleLeaf m g area j i, x.plan with
  | some l, _ => some l
  | none, some p => if p.phase = 0 then none else roleLeaf p.manifest g area j i
  | none, none => none

/-- Write a slot of row `j` of member `m` when this die holds it. -/
def putHeld (s : State) (n m area gen j : Nat) (slot : List Byte) : State :=
  if heldHere (fnSt s n) m j then heldWrite s n m area gen j slot else s

/-- The slot that a decoded role is written as (R59). -/
def decodedSlot (x : FnSt) (mf : Manifest) (g : GroupEntry) (epoch area j : Nat) (d : Decoded) (r : Nat × List Byte × Nat) :
    List Byte :=
  let m := (j + r.1) % g.n
  match roleBound x mf g area j r.1 with
  | none => freeSlot
  | some l =>
    if area = 1 ∧ bit (pmPresent d.hole) m = false then freeSlot
    else
      mkLeaf g m j l ⟨2, if area = 0 then fullStamp (pmStamp d.hole) r.2.2 else pmStamp d.hole, imgTouched r.2.1, epoch,
        imgChain r.2.1, imgExt r.2.1⟩ (r.2.1.drop 64)

/-- The slots of a row after decoding, by member: decoded ones replaced. -/
def settledSlots (x : FnSt) (mf : Manifest) (g : GroupEntry) (epoch area j : Nat) (d : Decoded)
    (slots : Nat → Option (List Byte)) : Nat → Option (List Byte) :=
  fun m => match d.roles.find? (fun r => decide ((j + r.1) % g.n = m)) with
    | some r => some (decodedSlot x mf g epoch area j d r)
    | none => slots m

/-- The image that pigeonhole `p` of row `j` must hold for given data slots (R51). In a gradient area a slot whose leaf is not of
the step `stamp` is null for it and enters as zero (R56). -/
def wantedHole (g : GroupEntry) (area stamp p j : Nat) (slots : Nat → Option (List Byte)) : List Byte :=
  (List.range g.k).foldl (fun acc i =>
    match slots ((j + i) % g.n) with
    | some b => if area = 1 ∧ ¬(pmKind b = 2 ∧ pmStamp b = stamp) then acc else xorBytes acc (gfScale (coeff p i) (dataImage b))
    | none => acc) (zeros 65344)

/-- The 64-byte kind area of a re-encoded pigeonhole: entries equal to the data stamps, or PRESENT for the leaves. -/
def kindAreaOf (g : GroupEntry) (area j stamp : Nat) (slots : Nat → Option (List Byte)) : List Byte :=
  if area = 0 then
    ((List.range 16).map (fun m => if isData g.k g.n m j ∧ m < g.n then
      (match slots m with | some b => leBytes 4 (dataStamp b) | none => zeros 4) else zeros 4)).flatten
  else
    leBytes 2 ((List.range g.n).map (fun m => if isData g.k g.n m j then
      (match slots m with | some b => if pmKind b = 2 ∧ pmStamp b = stamp then 2 ^ m else 0 | none => 0) else 0)).sum
      ++ zeros 62

/-- The greater of two full stamps. -/
def maxStamp (l : List Nat) : Nat := l.foldl max 0

/-- A pigeonhole is erased, lost or not current for every data role (R59, R53, R56). -/
def holeStale (g : GroupEntry) (epoch area j : Nat) (slots : Nat → Option (List Byte)) (hole : Option (List Byte)) : Bool :=
  match hole with
  | none => true
  | some b => slotErased epoch area true b ||
    (List.range g.k).any (fun i =>
      let m := (j + i) % g.n
      match slots m with
      | none => true
      | some d => if area = 0 then decide (dataStamp d ≠ pmEntry b m)
                  else bit (pmPresent b) m && !(decide (pmKind d = 2) && decide (pmStamp d = pmStamp b)))

/-- The STEP_STAMP of a re-encoded pigeonhole: the newest data stamp or the pigeonhole's previous one, whichever is later (R59). -/
def holeStampOf (g : GroupEntry) (epoch area j : Nat) (slots : Nat → Option (List Byte)) (prev : Option (List Byte)) : Nat :=
  let stamps := (List.range g.k).filterMap (fun i => (slots ((j + i) % g.n)).map pmStamp)
  let prior := match prev with
    | some b => if slotErased epoch area true b then 0 else pmStamp b
    | none => 0
  max (maxStamp stamps) prior

/-- A re-encoded pigeonhole (R59). -/
def reencoded (g : GroupEntry) (epoch area j p : Nat) (slots : Nat → Option (List Byte)) (prev : Option (List Byte)) : List Byte :=
  let stamp := holeStampOf g epoch area j slots prev
  mkHole g (holeMember g j p) j area stamp epoch true (kindAreaOf g area j stamp slots) (wantedHole g area stamp p j slots)

/-- Record an unrecoverable row (R61). -/
def markUnrecoverable (s : State) (n area gen j : Nat) : State :=
  let s := setFnF s n FN_CODE_STATUS_UNRECOVERABLE 1
  let s := setFnF s n FN_CODE_STATUS_LOST_AREA area
  let s := setFnF s n FN_CODE_STATUS_LOST_GEN gen
  let s := setFnF s n FN_CODE_STATUS_LOST_ROW j
  postEvent s n 0x0016 (leBytes 1 area ++ leBytes 1 gen ++ leBytes 4 j ++ leBytes 2 (fnSt s n).group)

/-- What came of decoding or verifying a row. -/
structure RowResult where
  state : State
  decoded : Nat
  reencoded : Nat
  lost : Bool

/-- Decode row `j` (R58, R59, R61): write the decoded data slots and re-encoded pigeonholes that this die holds; the counts
take every slot of the row that the decoding settles, as R62's completion does. The slots of the members `bad` are treated
as erased. -/
def decodeRow (s : State) (n area gen j : Nat) (imgs : RowImages) (bad : List Nat) : RowResult :=
  let x := fnSt s n
  match x.manifest, grpOf x with
  | some mf, some g =>
    let slots := slotOf s n area gen j imgs bad
    let v := rowView g x.epoch area j slots
    let bound := fun i => (roleBound x mf g area j i).isSome
    let entry := fun hole i surv => holeEntry area hole ((j + i) % g.n) surv
    let enters := fun hole i => decide (area = 0) || bit (pmPresent hole) ((j + i) % g.n)
    let (res, fail) := decodeView v entry bound enters
    let s := if fail then flagF s (pgFn n) FN_CODE_STATUS_DIGEST_FAIL else s
    match res with
    | none => ⟨markUnrecoverable s n area gen j, 0, 0, true⟩
    | some d =>
      let s := if d.mode = .back then flagF s (pgFn n) FN_CODE_STATUS_ROLLED_BACK else s
      let after := settledSlots x mf g x.epoch area j d slots
      let mine := d.roles.filter (fun r => heldHere x ((j + r.1) % g.n) j)
      let s := mine.foldl (fun s r => putHeld s n ((j + r.1) % g.n) area gen j (decodedSlot x mf g x.epoch area j d r)) s
      let stale := (List.range g.r).filter (fun p => holeStale g x.epoch area j after (slots (holeMember g j p)))
      let s := (stale.filter (fun p => heldHere x (holeMember g j p) j)).foldl (fun s p =>
        putHeld s n (holeMember g j p) area gen j (reencoded g x.epoch area j p after (slots (holeMember g j p)))) s
      let s := addF s (pgFn n) FN_DECODE_COUNT_LEAVES d.roles.length
      ⟨addF s (pgFn n) FN_DECODE_COUNT_HOLES stale.length, d.roles.length, stale.length, false⟩
  | _, _ => ⟨s, 0, 0, false⟩

/-- The members whose slots of the row this die took over and has not rebuilt (R275). -/
def unrebuiltAt (x : FnSt) (area gen j : Nat) : List Nat :=
  (x.unrebuilt.filter (fun q => decide (q.2 = (area, gen, j)))).map (fun q => q.1)

/-- The row leaves the rebuild map; the last one ends the rebuild (R275, Tables 10.15 and 10.16). -/
def rebuiltRow (s : State) (n area gen j : Nat) : State :=
  let x := fnSt s n
  if (unrebuiltAt x area gen j).isEmpty then s else
  let left := x.unrebuilt.filter (fun q => decide (q.2 ≠ (area, gen, j)))
  let s := setFnF (modFn s n (fun x => { x with unrebuilt := left })) n FN_REBUILD_LEFT_ROWS left.length
  if left.isEmpty then
    let mode := fnF s n FN_REBUILD_STATUS_MODE
    let member := fnF s n FN_REBUILD_STATUS_SUBJECT
    let s := setFnF (setFnF (setFnF s n FN_REBUILD_STATUS_ACTIVE 0) n FN_REBUILD_STATUS_MODE 0) n FN_REBUILD_STATUS_SUBJECT 0
    postEvent s n 0x0054 (leBytes 1 mode ++ leBytes 1 member ++ leBytes 4 x.rebuildTotal)
  else s

/-- Decode a row on demand or in the background: slots not rebuilt count as lost (R275), and the row leaves the rebuild
map, counted in ON_DEMAND or BACKGROUND. -/
def rebuildRow (s : State) (n area gen j : Nat) (imgs : RowImages) (bad : List Nat) (demand : Bool) : RowResult :=
  let own := unrebuiltAt (fnSt s n) area gen j
  let r := decodeRow s n area gen j imgs (own ++ bad)
  let s := if own.isEmpty then r.state
    else addF r.state (pgFn n) (if demand then FN_REBUILD_COUNT_ON_DEMAND else FN_REBUILD_COUNT_BACKGROUND) 1
  { r with state := rebuiltRow s n area gen j }

/-- The operand's images of a row of an area and generation. -/
def imgsOf (rows : RowSet) (area gen j : Nat) : RowImages :=
  match rows.find? (fun q => decide (q.area = area) && decide (q.gen = gen) && decide (q.row = j)) with
  | some q => q.images
  | none => []

/-- Does some slot of row `j` read as erased, or is its member lost (R62)? -/
def rowNeedsDecode (s : State) (n area gen j : Nat) (imgs : RowImages) : Bool :=
  let x := fnSt s n
  match grpOf x with
  | none => false
  | some g => (List.range g.n).any (fun m =>
      match slotOf s n area gen j imgs [] m with
      | none => true
      | some b => slotErased x.epoch area (!isData g.k g.n m j) b)

/-- verify_row (R62) for a row with no leaf in the ledger: decode it, or count each pigeonhole that disagrees with the data
and re-encode those that this die holds. -/
def verifyRow (s : State) (n area gen j : Nat) (imgs : RowImages) : RowResult :=
  if rowNeedsDecode s n area gen j imgs then decodeRow s n area gen j imgs [] else
  let x := fnSt s n
  match grpOf x with
  | none => ⟨s, 0, 0, false⟩
  | some g =>
    let slots := slotOf s n area gen j imgs []
    let bad := (List.range g.r).filter (fun p =>
      let hole := slots (holeMember g j p)
      holeStale g x.epoch area j slots hole ||
        decide (hole.map holeImage ≠ some (wantedHole g area (holeStampOf g x.epoch area j slots hole) p j slots)))
    let s := (bad.filter (fun p => heldHere x (holeMember g j p) j)).foldl (fun s p => putHeld s n (holeMember g j p) area gen j
      (reencoded g x.epoch area j p slots (slots (holeMember g j p)))) s
    ⟨addF s (pgFn n) FN_DECODE_COUNT_HOLES bad.length, 0, bad.length, false⟩

/-! ### Formatting (R57) -/

/-- The slot that formatting writes for this die's member at row `j` of an area. -/
def formattedSlot (x : FnSt) (m : Manifest) (g : GroupEntry) (area j : Nat) : List Byte :=
  if isData g.k g.n x.self j then freeSlot
  else mkHole g x.self j area m.startStep x.epoch false (zeros 64) (zeros 65344)

/-- Format the rows `j`, `j + 1`, … of an area. -/
def formatRows (s : State) (n : Nat) (m : Manifest) (g : GroupEntry) (area gen : Nat) : Nat → Nat → State
  | 0, _ => s
  | k + 1, j => formatRows (slotWrite s n area gen j (formattedSlot (fnSt s n) m g area j)) n m g area gen k (j + 1)

/-- Format the gradient generations from 0 to `d`. -/
def formatGrads (s : State) (n : Nat) (m : Manifest) (g : GroupEntry) : State :=
  (List.range (m.d + 1)).foldl (fun s gen => formatRows s n m g 1 gen m.gradRows 0) s

/-- Format all coded areas. -/
def formatAll (s : State) (n : Nat) (m : Manifest) (g : GroupEntry) : State :=
  formatGrads (formatRows s n m g 0 0 m.stripeRows 0) n m g

end Sys2Proof.Machine
end

