-- ==== Sys2Proof/Machine/CoreOps.lean ====
section
/-!
DEFINITION. The update core's operations: registers and lanes (R117), the data SRAM's rights (R118), the element guard
(R122), when a bundle issues (R129), traps, program faults and failed cores (R138 to R141), and the issue of an
instruction in each port (R127).
-/

namespace Sys2Proof.Machine

/-! ### Registers and lanes -/

/-- A core's state by global core number. -/
def coreSt (s : State) (i : Nat) : CoreSt := tabGet {} s.cores i

/-- Write a core's state. -/
def setCore (s : State) (i : Nat) (c : CoreSt) : State := { s with cores := tabSet {} s.cores i c }

/-- A scalar register; s0 reads zero (R117). -/
def sReg (c : CoreSt) (r : Nat) : Nat := if r = 0 then 0 else (tabGet 0 c.s r).toNat

/-- Write a scalar register; a write to s0 is ignored (R117). -/
def setS (c : CoreSt) (r v : Nat) : CoreSt := if r = 0 then c else { c with s := tabSet 0 c.s r (BitVec.ofNat 64 v) }

/-- A vector register. -/
def vReg (c : CoreSt) (r : Nat) : Nat := (tabGet 0 c.v r).toNat

/-- Write a vector register. -/
def setV (c : CoreSt) (r v : Nat) : CoreSt := { c with v := tabSet 0 c.v r (BitVec.ofNat 1024 v) }

/-- A lane-mask register; lm0 reads all ones (R117). -/
def lmReg (c : CoreSt) (r : Nat) : Nat := if r = 0 then 2 ^ 128 - 1 else (tabGet 0 c.lm r).toNat

/-- Write a lane-mask register; lm0 cannot be written (R117). -/
def setLm (c : CoreSt) (r v : Nat) : CoreSt := if r = 0 then c else { c with lm := tabSet 0 c.lm r (BitVec.ofNat 128 v) }

/-- A tile accumulator: 64 FP32 patterns, row by row. -/
def tileReg (c : CoreSt) (i : Nat) : List Nat := tabGet (List.replicate 64 0) c.ta i

/-- Write a tile accumulator. -/
def setTileReg (c : CoreSt) (i : Nat) (v : List Nat) : CoreSt := { c with ta := tabSet (List.replicate 64 0) c.ta i v }

/-- Width of a lane of the lane format. -/
def laneBits (c : CoreSt) : Nat := fmtBits c.mode

/-- The lane count (R117). -/
def laneCount (c : CoreSt) : Nat := 1024 / laneBits c

/-- The lanes of a vector register, lane 0 first. -/
def lanesOf (c : CoreSt) (r : Nat) : List Nat := splitBits (laneBits c) (vReg c r) (laneCount c)

/-- The first `n` bits of a mask register. -/
def maskBits (c : CoreSt) (m n : Nat) : List Bool := (List.range n).map (fun i => bit (lmReg c m) i)

/-- Lanes of width `w` merged under a mask into what register `d` held: a lane whose bit is clear keeps its value. -/
def mergeLanes (c : CoreSt) (w d mask : Nat) (new : List Nat) : Nat :=
  let n := 1024 / w
  joinBits w ((((splitBits w (vReg c d) n).zip new).zip (maskBits c mask n)).map (fun p => if p.2 then p.1.2 else p.1.1))

/-- Is the lane format an integer format? -/
def intMode (c : CoreSt) : Bool := decide (0 < intWidth c.mode)

/-- The exact value of a lane. -/
def laneVal (c : CoreSt) (v : Nat) : Num := valOf c.mode v

/-- Round an exact value to the lane format. -/
def laneRound (c : CoreSt) (r : Rnd) (x : Num) : Nat := convert c.mode r x

/-- The signed value of an integer lane. -/
def laneInt (c : CoreSt) (v : Nat) : Int := signed (laneBits c) v

/-- An integer result wrapped to the lane width (R152). -/
def laneWrap (c : CoreSt) (i : Int) : Nat := unsigned (laneBits c) i

/-! ### The data SRAM (Table 5.1) -/

/-- May the run read the byte at a data SRAM address (Table 5.1; R126 for a prelude run)? -/
def sramReadable (prelude : Bool) (a : Nat) : Bool :=
  if prelude then decide (0x30000 ≤ a) && decide (a < 0x3E900)
  else decide (a < 0x10000) || (decide (0x10100 ≤ a) && decide (a < 0x3E900))

/-- May the run write the byte at a data SRAM address? -/
def sramWritable (prelude : Bool) (a : Nat) : Bool :=
  if prelude then (decide (0x30000 ≤ a) && decide (a < 0x3E000)) || (decide (0x3E400 ≤ a) && decide (a < 0x3E800))
  else decide (0x10100 ≤ a) && decide (a < 0x3E000)

/-- Every byte of a range has a right. -/
def rangeRight (ok : Nat → Bool) (a n : Nat) : Bool := decide (a + n ≤ 0x40000) && (List.range n).all (fun i => ok (a + i))

/-- Bytes that a vld or vst moves (R129). -/
def transferBytes (c : CoreSt) (fmt : Nat) (bs : Bool) : Nat :=
  if bs then laneCount c / 32 * alignedRecord fmt else laneCount c * fmtBits fmt / 8

/-- The plane of a frame that a frame offset lies in: its start. -/
def planeStart (r : CoreRun) (f : Nat) : Option Nat :=
  (r.planes.find? (fun p => decide (p.1 ≤ f) && decide (f < p.1 + p.2.1))).map (fun p => p.1)

/-- The end of the last plane, as a frame offset. -/
def planesEnd (r : CoreRun) : Nat := r.planes.foldl (fun m p => max m (p.1 + p.2.1)) 0x100

/-- Frame offset of lane `i`'s first byte in a transfer that starts at frame offset `f`. -/
def laneByte (fmt : Nat) (bs : Bool) (f i : Nat) : Nat :=
  if bs then f + i / 32 * alignedRecord fmt + 8 + i % 32 * fmtBits fmt / 8 else f + i * fmtBits fmt / 8

/-- The element guard (R122): lane `i`'s element index within its plane lies below the bound. A lane outside every plane
is not guarded. -/
def guardOk (r : CoreRun) (fmt : Nat) (bs : Bool) (f i : Nat) : Bool :=
  match planeStart r (laneByte fmt bs f i) with
  | none => true
  | some p =>
    let ix := if bs then (f - p) / alignedRecord fmt * 32 + i else (f - p) * 8 / fmtBits fmt + i
    decide (ix < r.bound)

/-- The address of a block-scaled transfer is the start of a record (R158): where it lies in a plane, a whole number of
records from the plane's start. -/
def recordStart (r : CoreRun) (fmt : Nat) (bs : Bool) (f : Nat) : Bool :=
  !bs || (match planeStart r f with
    | some p => decide ((f - p) % alignedRecord fmt = 0)
    | none => true)

/-! ### When a bundle issues (R128, R129) -/

/-- Registers a port A word reads (keys of `CoreRun.ready`). -/
def readsA (w : Nat) : List Nat :=
  let op := insOp w
  let d := bits w 23 19
  let a := bits w 18 14
  let b := bits w 13 9
  let c := bits w 8 4
  let m := 64 + bits w 3 1
  if op = 0x04 ∨ op = 0x05 then [32 + a, 32 + b, 32 + c, m]
  else if op = 0x09 ∨ op = 0x0A ∨ op = 0x0B ∨ op = 0x0C ∨ op = 0x0F ∨ op = 0x12 then [32 + a, m]
  else if op = 0x10 then [a, m]
  else if op = 0x11 ∨ op = 0x21 then [32 + a, b, m]
  else if op = 0x22 then [32 + a, b, 32 + d, m]
  else if op = 0x13 ∨ op = 0x30 ∨ op = 0x00 then []
  else if op = 0x31 then [32 + a, 32 + b]
  else if op = 0x32 then [72 + a % 4, m]
  else [32 + a, 32 + b, m]

/-- Registers a port B word reads. -/
def readsB (w : Nat) : List Nat :=
  let op := insOp w
  let d := bits w 23 19
  let a := bits w 18 14
  let b := bits w 13 9
  if op = 0x80 then [a, 64 + bits w 8 6]
  else if op = 0x81 then [a, 32 + d, 64 + bits w 8 6]
  else if op = 0x82 ∨ op = 0x88 ∨ op = 0x89 ∨ op = 0x93 ∨ op = 0x97 ∨ op = 0xA4 ∨ op = 0xA5 then [a]
  else if op = 0x8A then [a, d]
  else if (0x92 ≤ op ∧ op ≤ 0x9B) ∨ (0xA0 ≤ op ∧ op ≤ 0xA7) then (if op = 0xA2 then [a, b, bits w 8 4] else [a, b])
  else if op = 0xB1 ∨ op = 0xB2 ∨ op = 0xB3 ∨ op = 0xB4 ∨ op = 0xC9 then [d]
  else if op = 0xC0 then [d, a, b]
  else if op = 0xD8 then [a, b]
  else if op = 0xD9 ∨ op = 0xDA then [a, b, d]
  else if op = 0xDB then [a, b, bits w 8 4, d]
  else []

/-- Cycles until a port A word's result may be read (Table 5.4), and the register it writes. -/
def latencyA (w : Nat) : Nat × Option Nat :=
  let op := insOp w
  let d := 32 + bits w 23 19
  if op = 0x00 ∨ op = 0x13 then (1, none)
  else if op = 0x0E then (3, some (64 + bits w 6 4))
  else if op = 0x30 then (1, some (72 + bits w 20 19))
  else if op = 0x31 then (12, some (72 + bits w 20 19))
  else if op = 0x06 ∨ op = 0x07 ∨ op = 0x0A ∨ op = 0x0B ∨ op = 0x0C ∨ op = 0x0D ∨ op = 0x10 then (2, some d)
  else if op = 0x08 ∨ op = 0x09 ∨ op = 0x12 then (12, some d)
  else if op = 0x11 then (72, some d)
  else if op = 0x20 then (1, some d)
  else if op = 0x21 ∨ op = 0x22 then (18, some d)
  else (4, some d)

/-- Cycles until a port B word's result may be read, and the register it writes. -/
def latencyB (w : Nat) : Nat × Option Nat :=
  let op := insOp w
  let d := bits w 23 19
  if op = 0x80 ∨ op = 0x82 then (6, some (32 + d))
  else if op = 0x88 ∨ op = 0x89 then (4, some d)
  else if op = 0x95 then (3, some d)
  else if 0x90 ≤ op ∧ op ≤ 0x9B then (1, some d)
  else if op = 0xA3 ∨ op = 0xA4 then (20, some d)
  else if 0xA0 ≤ op ∧ op ≤ 0xA7 then (4, some d)
  else if op = 0xC8 ∨ op = 0xD0 then (2, some d)
  else (1, none)

/-- The unit a word occupies for more than one cycle, and for how many (Table 5.4). -/
def occupies (w : Nat) : Option (Nat × Nat) :=
  let op := insOp w
  if op = 0x11 then some (80, 68)
  else if op = 0x21 then some (81, 16)
  else if op = 0x22 then some (82, 16)
  else if op = 0x31 then some (83, 8)
  else if op = 0xA3 then some (84, 20)
  else if op = 0xA4 then some (85, 20)
  else none

/-- The cycle at which a bundle issues: once every register it reads may be read and every unit it needs is free. -/
def issueCycle (r : CoreRun) (bundle : Nat) : Nat :=
  let a := bundle % 2 ^ 32
  let b := bundle / 2 ^ 32
  let keys := readsA a ++ readsB b ++ ((occupies a).map (fun u => u.1)).toList ++ ((occupies b).map (fun u => u.1)).toList
  keys.foldl (fun t k => max t (tabGet 0 r.ready k)) r.cycle

/-- Mark a register's readiness. -/
def markReady (t : Tab Nat) (at_ : Nat) (l : Nat × Option Nat) : Tab Nat :=
  match l.2 with
  | some k => if k = 0 then t else tabSet 0 t k (at_ + l.1)
  | none => t

/-- Mark a unit's occupancy. -/
def markBusy (t : Tab Nat) (at_ : Nat) (o : Option (Nat × Nat)) : Tab Nat :=
  match o with
  | some (k, n) => tabSet 0 t k (at_ + n)
  | none => t

/-- The scoreboard after a bundle issued at its cycle; a taken branch costs 3 cycles. -/
def afterIssue (r : CoreRun) (bundle : Nat) (taken : Bool) : CoreRun :=
  let t := issueCycle r bundle
  let a := bundle % 2 ^ 32
  let b := bundle / 2 ^ 32
  { r with cycle := t + (if taken then 3 else 1),
           ready := markBusy (markBusy (markReady (markReady r.ready t (latencyA a)) t (latencyB b)) t (occupies a)) t (occupies b) }

/-! ### Failed cores, traps and program faults -/

/-- Has core `i` failed (R141)? -/
def coreFailed (s : State) (i : Nat) : Bool := bit (getF s (pgSlice (i / 32)) SL_CORE_STATUS_FAILED) (i % 32)

/-- The buddy of core `i` (R117). -/
def buddyOf (i : Nat) : Nat := i ^^^ 1

/-- Does the function's wheel image give runs to a core? -/
def runsOn (x : FnSt) (i : Nat) : Bool :=
  match x.wheel with
  | none => false
  | some w => w.entries.any (fun e => decide (e.slice = i / 32) && decide (e.core = i % 32) && decide (e.action = 0x12))

/-- The row a core served is to be read and run again, on its buddy (R141). -/
def reworkLeaf (s : State) (l : Option (Nat × Nat × Nat × Nat)) : State :=
  match l with
  | some (n, area, member, row) => modFn s n (fun x => { x with work := x.work.map (fun w =>
      if w.area = area ∧ w.member = member ∧ w.row = row then { w with loaded := false, run := false } else w) })
  | none => s

/-- A core fails (R141): it takes no further runs until chip reset. With its buddy failed too, every function with runs on
the pair aborts with CORE_PAIR and the die is reported for evacuation. -/
def failCore (s : State) (i code : Nat) : State :=
  if coreFailed s i then s else
  let sl := i / 32
  let leaf := (coreSt s i).leaf
  let s := setF s (pgSlice sl) SL_CORE_STATUS_FAILED (putBit (getF s (pgSlice sl) SL_CORE_STATUS_FAILED) (i % 32) true)
  let s := postEvent (errSlice s HDR_ERR_SUMMARY_CORE sl) 0 0x0021 (leBytes 1 sl ++ leBytes 1 (i % 32) ++ leBytes 1 code)
  let s := setCore s i { coreSt s i with run := none, leaf := none }
  if coreFailed s (buddyOf i) then
    let s := escalate s (pgSlice sl) (pgRegion (sl / 4))
    let s := escalate s (pgRegion (sl / 4)) pgGlobal
    let hit := (List.range 64).filter (fun n => actsRunning s n && (runsOn (fnSt s n) i || runsOn (fnSt s n) (buddyOf i)))
    todo (hit.foldl (fun s n => todo s (.abort n 3)) s) .evacuate
  else reworkLeaf s leaf

/-- TRAP_INFO of a program fault (Table 5.15). -/
def trapInfo (s : State) (i code : Nat) (r : CoreRun) (multiple : Bool) : State :=
  let s := setFnF (setFnF s r.fn FN_TRAP_INFO_CAUSE code) r.fn FN_TRAP_INFO_SLICE (i / 32)
  let s := setFnF (setFnF s r.fn FN_TRAP_INFO_CORE (i % 32)) r.fn FN_TRAP_INFO_PRELUDE (b2n r.prelude)
  let s := setFnF (setFnF s r.fn FN_TRAP_INFO_BUNDLE r.pc) r.fn FN_TRAP_INFO_MULTIPLE (b2n multiple)
  let s := setFnF s r.fn FN_TRAP_TENSOR_TENSOR_ID (if r.prelude then 0 else r.tensor)
  setFnF s r.fn FN_TRAP_LEAF_LEAF_INDEX (if r.prelude then r.cls else r.leafIndex)

/-- A program fault (R140). A second one in the same tick sets MULTIPLE, and the record names the lowest core; one that
meets an abort under way is recorded and adds no second abort. -/
def programFault (s : State) (i code : Nat) (r : CoreRun) : State :=
  let n := r.fn
  let x := fnSt s n
  let same := decide (x.trapAt = some s.ticks)
  let former := coreIx (fnF s n FN_TRAP_INFO_SLICE) (fnF s n FN_TRAP_INFO_CORE)
  let s := if same && decide (former ≤ i) then setFnF s n FN_TRAP_INFO_MULTIPLE 1 else trapInfo s i code r same
  let s := flagF (modFn s n (fun x => { x with trapAt := some s.ticks })) (pgFn n) FN_PROG_STATUS_FAULT
  let s := errFn s HDR_ERR_SUMMARY_CORE n
  let s := postEvent s n 0x0020 (leBytes 4 (wordAt s (pgFn n + 0x120)).toNat ++ leBytes 4 (fnF s n FN_TRAP_TENSOR_TENSOR_ID) ++
    leBytes 4 (fnF s n FN_TRAP_LEAF_LEAF_INDEX) ++ leBytes 8 x.step)
  if x.aborting then s else todo s (.abort n 2)

/-- A trap that is a program fault ends the run at once (R139, Table 5.8). -/
def trapRun (s : State) (i code : Nat) (r : CoreRun) : State :=
  programFault (setCore s i { coreSt s i with run := none, leaf := none }) i code r

/-- One residue or parity mismatch: counted, the bundle issues again, a deviation record (R138, R347). -/
def residueRetry (s : State) (i : Nat) (n : Nat) : State :=
  let s := errSlice (addF s (pgSlice (i / 32)) SL_CORE_COUNT_RETRIES 1) HDR_ERR_SUMMARY_CORE (i / 32)
  slip s n 0x0C (i / 32) (i % 32) 1 i

/-- FETCH_UE (code 2) or DATA_UE (code 3): the run is to restart, or the core fails at the second in one run (Table
5.8). -/
def ueTrap (s : State) (i code : Nat) (decode : Option Nat) (c : CoreSt) (r : CoreRun) : State :=
  let s := errSlice s HDR_ERR_SUMMARY_SRAM (i / 32)
  if (if code = 2 then r.fetchUe else r.dataUe) then failCore s i code
  else setCore s i { c with run := some { r with
    again := some code, decode := decode, fetchUe := r.fetchUe || decide (code = 2), dataUe := r.dataUe || decide (code = 3) } }

/-! ### Issue -/

/-- Scalar registers that await a fabric response (R133). -/
def awaited (s : State) (i : Nat) : List Nat :=
  s.requests.filterMap (fun q => match q.owner with
    | .core sl c r => if coreIx sl c = i then some r else none)

/-- The bundle a run issues next. -/
def bundleAt (s : State) (r : CoreRun) : Nat :=
  match (fnSt s r.fn).progs with
  | some set => set.bundles.getD r.pc 0
  | none => 0

/-- The run of a core that can issue `word` in a port now: the run is in progress, its next bundle holds the word there,
the other port is as it must be, and no register the word reads awaits the fabric. -/
def readyRun (s : State) (i : Nat) (portB : Bool) (word : Nat) : Option CoreRun :=
  match (coreSt s i).run with
  | none => none
  | some r =>
    let b := bundleAt s r
    let here := if portB then b / 2 ^ 32 else b % 2 ^ 32
    let live := match r.droppedAt with | none => true | some t => decide (t = s.ticks)
    let reads := (if portB then readsB word else readsA word).filter (fun k => k < 32)
    if !r.halted && decide (r.again = none) && live && decide (here = word) && decide (r.aDone = portB) &&
      (fnSt s r.fn).progs.isSome && reads.all (fun k => !(awaited s i).contains k) then some r else none

/-- What the checking hardware meets before the instruction takes effect: the state in which it goes on, or the state in
which the run is stopped. -/
def meetErr (s : State) (i : Nat) (e : CoreErr) (residue : Bool) (c : CoreSt) (r : CoreRun) : State × Bool :=
  match e with
  | .none => (s, true)
  | .residueOnce => if residue then (residueRetry s i r.fn, true) else (s, true)
  | .residueTwice => if residue then (failCore (residueRetry s i r.fn) i 1, false) else (s, true)
  | .fetchUe => (ueTrap s i 2 none c r, false)
  | .dataUe a => (ueTrap s i 3 (if a < 0x10000 ∨ (0x20000 ≤ a ∧ a < 0x30000) then some a else none) c r, false)

/-- What a port A instruction brings about: a trap, or its write and the lane sources after it. -/
inductive ARes where
  | trap (code : Nat)
  | write (w : AWrite) (lanes : List Src)

/-- Issue a port A instruction (R127): its write takes effect when its bundle ends, so that the port B instruction of the
bundle reads what stood before. A bundle that would issue at or past the budget is a BUDGET trap (Table 5.8). -/
def issueA (s : State) (at_ : Issue) (word : Nat) (residue : Bool) (f : CoreSt → CoreRun → ARes) : State :=
  let i := coreIx at_.slice at_.core
  match readyRun s i false word with
  | none => s
  | some r =>
    let c := coreSt s i
    if r.budget ≤ issueCycle r (bundleAt s r) then trapRun s i 0x13 r else
    match meetErr s i at_.err residue c r with
    | (s, false) => s
    | (s, true) =>
      match f c r with
      | .trap k => trapRun s i k r
      | .write w lanes => setCore s i { c with lanes := lanes, run := some { r with aDone := true, aWrite := w } }

/-- What a port B instruction brings about: a trap, a wait (the instruction does not issue yet), or the state and core after it, the
vector register it writes, the bundle that follows where it is not the next one, and whether that is a taken branch. -/
inductive BRes where
  | trap (code : Nat)
  /-- The SOFT trap with the code of its instruction. -/
  | soft (code : Nat)
  | wait (s : State)
  | done (s : State) (c : CoreSt) (vec : Option (Nat × Nat)) (next : Option Nat) (taken : Bool)

/-- The next bundle after the last bundle `pc` of anything, with the loops then in progress (R129). -/
def loopNext : List LoopSt → Nat → Nat × List LoopSt
  | [], pc => (pc + 1, [])
  | l :: rest, pc =>
    if pc = l.last then
      (if 0 < l.left then (l.first, { l with left := l.left - 1 } :: rest) else loopNext rest pc)
    else (pc + 1, l :: rest)

/-- Apply the write of a bundle's port A instruction, beside the vector register that port B wrote. -/
def applyA (c : CoreSt) (w : AWrite) (vec : Option (Nat × Nat)) : CoreSt :=
  let c := match w with
    | .none => c
    | .vec d v => setV c d v
    | .mask d v => setLm c d v
    | .tile t v => setTileReg c t v
    | .mode f => { c with mode := f }
  match vec, w with
  | some (d, v), .vec d' v' => if d = d' then setV c d (Config.bothPorts v' v % 2 ^ 1024) else setV c d v
  | some (d, v), _ => setV c d v
  | none, _ => c

/-- A bundle ends: both ports' results stand, and the next bundle follows; one outside the program is a REGION trap
(Table 5.8). -/
def endBundle (s : State) (i : Nat) (c : CoreSt) (vec : Option (Nat × Nat)) (next : Option Nat) (taken : Bool) : State :=
  match c.run with
  | none => setCore s i c
  | some r =>
    let b := bundleAt s r
    let step : Nat × List LoopSt := match next with
      | some t => (t, r.loops)
      | none => loopNext r.loops r.pc
    let r' : CoreRun := { afterIssue r b taken with pc := step.1, loops := step.2, aDone := false, aWrite := .none }
    let c := { applyA c r.aWrite vec with run := some r' }
    if r'.halted ∨ (r.first ≤ step.1 ∧ step.1 < r.first + r.length) then setCore s i c
    else trapRun (setCore s i c) i 0x15 r'

/-- Issue a port B instruction, which ends its bundle (R127). -/
def issueB (s : State) (at_ : Issue) (word : Nat) (residue : Bool) (f : State → CoreSt → CoreRun → BRes) : State :=
  let i := coreIx at_.slice at_.core
  match readyRun s i true word with
  | none => s
  | some r =>
    let c := coreSt s i
    match meetErr s i at_.err residue c r with
    | (s, false) => s
    | (s, true) =>
      match f s c r with
      | .trap k => trapRun s i k r
      | .soft k => trapRun (modFn s r.fn (fun x => { x with softCode := k })) i 0x14 r
      | .wait s => s
      | .done s c vec next taken => endBundle s i c vec next taken

end Sys2Proof.Machine
end

