-- ==== Sys2Proof/Machine/CoreScalar.lean ====
section
/-!
DEFINITION. Port B: loads and stores (R122, R129, R150, R156, R158, R160), scalar arithmetic, and control (Table 5.4,
R128, R129, R139).
-/

namespace Sys2Proof.Machine

/-- The words of instructions by form. -/
def bWordV (f : VForm) (op : Nat) : Nat := wordV op f.d f.a f.b f.c f.mask f.rnd
def bWordM (f : MForm) (op : Nat) : Nat := wordM op f.v f.s f.fmt f.bs f.mask f.inc f.rnd
def bWordI (f : IForm) (op : Nat) : Nat := wordI op f.d f.a f.imm.toNat
def bWordL (f : LForm) (op : Nat) : Nat := wordL op f.d f.imm.toNat
def bWordJ (f : JForm) (op : Nat) : Nat := wordJ op f.s f.target.toNat

/-- s(a) + imm14 modulo 2^64. -/
def immAddr (c : CoreSt) (f : IForm) : Nat := unsigned 64 ((sReg c f.a : Int) + signed 14 f.imm.toNat)

/-! ### Vector loads and stores -/

/-- The draws of a rounding port B vector instruction: its roundings, and the lanes after. -/
def drawsB (c : CoreSt) (rnd : Bool) : List Rnd × List Src :=
  if rnd then drawLanes (laneCount c) c.lanes else (List.replicate (laneCount c) .rne, c.lanes)

/-- Data SRAM bytes as a vld sees them: bytes of a vst issued fewer than 2 cycles earlier are as they were before it
(R129). -/
def vldBytes (c : CoreSt) (r : CoreRun) (now a n : Nat) : List Byte :=
  let bs := memReadN c.sram a n
  match r.lastStore with
  | none => bs
  | some (t, sa, old) =>
    if now < t + 2 then
      (bs.zipIdx a).map (fun p => if sa ≤ p.2 ∧ p.2 < sa + old.length then old.getD (p.2 - sa) 0 else p.1)
    else bs

/-- The exact values of a transfer's elements (R151, R158, R160). -/
def elemsOf (fmt : Nat) (bs : Bool) (n : Nat) (raw : List Byte) : List Num :=
  if bs then
    ((List.range (n / 32)).map (fun k =>
      let rec_ := (raw.drop (k * alignedRecord fmt)).take (alignedRecord fmt)
      (unpackElems fmt 32 (rec_.drop 8)).map (blockVal fmt (field rec_ 0 1)))).flatten
  else (unpackElems fmt n raw).map (valOf fmt)

/-- vld (R122, R129, R156): a lane at or above the element bound of a plane of frame A loads zero. -/
def vldOp (s : State) (at_ : Issue) (f : MForm) : State :=
  issueB s at_ (bWordM f 0x80) false (fun s c r =>
    let fmt := (f.fmt : Nat)
    let a := sReg c f.s
    let n := laneCount c
    let size := transferBytes c fmt f.bs
    if r.prelude && f.rnd then .trap 0x12
    else if a % 8 ≠ 0 ∨ rangeRight (sramReadable r.prelude) a size = false ∨ recordStart r fmt f.bs a = false then .trap 0x11
    else
      let dr := drawsB c f.rnd
      let vals := elemsOf fmt f.bs n (vldBytes c r (issueCycle r (bundleAt s r)) a size)
      let new := ((vals.zip dr.1).zipIdx).map (fun p =>
        if a < 0x10000 ∧ guardOk r fmt f.bs a p.2 = false then 0 else laneRound c p.1.2 p.1.1)
      let c' := { c with lanes := dr.2 }
      let c' := if f.inc then setS c' f.s (a + size) else c'
      .done s c' (some (f.v, mergeLanes c (laneBits c) f.v f.mask new)) none false)

/-- The lanes a vst stores: those its mask register enables and, in frame B, the element guard admits. -/
def storedLanes (c : CoreSt) (r : CoreRun) (f : MForm) (a : Nat) : List Bool :=
  ((maskBits c f.mask (laneCount c)).zipIdx).map (fun p =>
    p.1 && (!(decide (0x10000 ≤ a) && decide (a < 0x20000)) || guardOk r f.fmt f.bs (a - 0x10000) p.2))

/-- The bytes a vst leaves at its address: stored lanes' elements replace the old ones; under block scaling each block is
encoded from its stored lanes (R160). -/
def vstBytes (c : CoreSt) (f : MForm) (keep : List Bool) (rs : List Rnd) (old : List Byte) : List Byte :=
  let fmt := (f.fmt : Nat)
  let vals := (lanesOf c f.v).map (laneVal c)
  if f.bs then
    ((List.range (laneCount c / 32)).map (fun k =>
      let rec_ := (old.drop (k * alignedRecord fmt)).take (alignedRecord fmt)
      let ks := (keep.drop (32 * k)).take 32
      let xs := (((vals.drop (32 * k)).take 32).zip ks).map (fun p => if p.2 then p.1 else .fin false 0 0)
      let b := blockScale fmt xs
      let es := blockElems fmt b ((rs.drop (32 * k)).take 32) xs
      let olds := unpackElems fmt 32 (rec_.drop 8)
      if ks.any id then
        fit (alignedRecord fmt) (leBytes 1 b ++ zeros 7 ++
          packElems fmt (((es.zip olds).zip ks).map (fun p => if p.2 then p.1.1 else p.1.2)))
      else rec_)).flatten
  else
    let es := (vals.zip rs).map (fun p => convert fmt p.2 p.1)
    let olds := unpackElems fmt (laneCount c) old
    packElems fmt (((es.zip olds).zip keep).map (fun p => if p.2 then p.1.1 else p.1.2))

/-- vst (R122, R129, R156): a store to frame B beyond the last plane is ILLEGAL_ADDR. -/
def vstOp (s : State) (at_ : Issue) (f : MForm) : State :=
  issueB s at_ (bWordM f 0x81) false (fun s c r =>
    let fmt := (f.fmt : Nat)
    let a := sReg c f.s
    let size := transferBytes c fmt f.bs
    let inB := decide (0x10000 ≤ a) && decide (a < 0x20000)
    if r.prelude && f.rnd then .trap 0x12
    else if a % 8 ≠ 0 ∨ rangeRight (sramWritable r.prelude) a size = false ∨
        (inB = true ∧ (0x10000 + planesEnd r < a + size ∨ recordStart r fmt f.bs (a - 0x10000) = false)) then .trap 0x11
    else
      let dr := drawsB c f.rnd
      let old := memReadN c.sram a size
      let new := vstBytes c f (storedLanes c r f a) dr.1 old
      let c' := { c with lanes := dr.2, sram := memWriteN c.sram a new,
                         run := some { r with lastStore := some (issueCycle r (bundleAt s r), a, old) } }
      let c' := if f.inc then setS c' f.s (a + size) else c'
      .done s c' none none false)

/-- vldb: the 4-byte element at s(a) + imm14 in all lanes, bits unchanged (R150); s(a) is a multiple of 8 (R129). -/
def vldbOp (s : State) (at_ : Issue) (f : IForm) : State :=
  issueB s at_ (bWordI f 0x82) false (fun s c r =>
    let a := immAddr c f
    if sReg c f.a % 8 ≠ 0 ∨ rangeRight (sramReadable r.prelude) a 4 = false then .trap 0x11
    else
      let v := leVal (memReadN c.sram a 4)
      .done s c (some (f.d, joinBits (laneBits c) (List.replicate (laneCount c) v))) none false)

/-! ### Scalar loads and stores -/

/-- A scalar load of `n` bytes, zero-extended. -/
def scalarLoad (s : State) (at_ : Issue) (f : IForm) (op n : Nat) : State :=
  issueB s at_ (bWordI f op) false (fun s c r =>
    let a := immAddr c f
    if rangeRight (sramReadable r.prelude) a n = false then .trap 0x11
    else .done s (setS c f.d (leVal (memReadN c.sram a n))) none none false)

/-- sld. -/
def sldOp (s : State) (at_ : Issue) (f : IForm) : State := scalarLoad s at_ f 0x88 8

/-- sldw. -/
def sldwOp (s : State) (at_ : Issue) (f : IForm) : State := scalarLoad s at_ f 0x89 4

/-- sst. -/
def sstOp (s : State) (at_ : Issue) (f : IForm) : State :=
  issueB s at_ (bWordI f 0x8A) false (fun s c r =>
    let a := immAddr c f
    if rangeRight (sramWritable r.prelude) a 8 = false then .trap 0x11
    else .done s { c with sram := memWriteN c.sram a (leBytes 8 (sReg c f.d)) } none none false)

/-! ### Scalar arithmetic -/

/-- sli. -/
def sliOp (s : State) (at_ : Issue) (f : LForm) : State :=
  issueB s at_ (bWordL f 0x90) true (fun s c _ => .done s (setS c f.d f.imm.toNat) none none false)

/-- slih. -/
def slihOp (s : State) (at_ : Issue) (f : LForm) : State :=
  issueB s at_ (bWordL f 0x91) true (fun s c _ => .done s (setS c f.d (f.imm.toNat % 65536 * 65536)) none none false)

/-- A scalar INT64 instruction of two registers, modulo 2^64. -/
def intOp (s : State) (at_ : Issue) (f : VForm) (op : Nat) (g : Nat → Nat → Nat) : State :=
  issueB s at_ (bWordV f op) true (fun s c _ => .done s (setS c f.d (g (sReg c f.a) (sReg c f.b) % 2 ^ 64)) none none false)

/-- A scalar INT64 instruction of a register and a signed immediate. -/
def intImmOp (s : State) (at_ : Issue) (f : IForm) (op : Nat) (g : Nat → Nat → Nat) : State :=
  issueB s at_ (bWordI f op) true (fun s c _ =>
    .done s (setS c f.d (g (sReg c f.a) (unsigned 64 (signed 14 f.imm.toNat)) % 2 ^ 64)) none none false)

/-- sadd, saddi, ssub, smul, sand, sandi, sor, sxor. -/
def saddOp (s : State) (at_ : Issue) (f : VForm) : State := intOp s at_ f 0x92 (· + ·)
def saddiOp (s : State) (at_ : Issue) (f : IForm) : State := intImmOp s at_ f 0x93 (· + ·)
def ssubOp (s : State) (at_ : Issue) (f : VForm) : State := intOp s at_ f 0x94 (fun a b => a + (2 ^ 64 - b))
def smulOp (s : State) (at_ : Issue) (f : VForm) : State := intOp s at_ f 0x95 (· * ·)
def sandOp (s : State) (at_ : Issue) (f : VForm) : State := intOp s at_ f 0x96 (· &&& ·)
def sandiOp (s : State) (at_ : Issue) (f : IForm) : State := intImmOp s at_ f 0x97 (· &&& ·)
def sorOp (s : State) (at_ : Issue) (f : VForm) : State := intOp s at_ f 0x98 (· ||| ·)
def sxorOp (s : State) (at_ : Issue) (f : VForm) : State := intOp s at_ f 0x99 (· ^^^ ·)

/-- sshl; the result of an amount of 64 or more is a free value. -/
def sshlOp (s : State) (at_ : Issue) (f : VForm) : State :=
  intOp s at_ f 0x9A (fun a b => if b < 64 then a * 2 ^ b else Config.shiftBeyond true a b)

/-- sshr: logical; the result of an amount of 64 or more is a free value. -/
def sshrOp (s : State) (at_ : Issue) (f : VForm) : State :=
  intOp s at_ f 0x9B (fun a b => if b < 64 then a / 2 ^ b else Config.shiftBeyond false a b)

/-- A scalar floating-point instruction: under rnd lane 0 draws once (R168); in a prelude run that is ILLEGAL_OP (R126). -/
def floatOp (s : State) (at_ : Issue) (f : VForm) (op : Nat) (g : CoreSt → Rnd → Nat) : State :=
  issueB s at_ (bWordV f op) true (fun s c r =>
    if r.prelude && f.rnd then .trap 0x12
    else
      let dr := if f.rnd then drawLanes 1 c.lanes else ([.rne], c.lanes)
      .done s (setS { c with lanes := dr.2 } f.d (g c (dr.1.headD .rne))) none none false)

/-- An FP64 instruction of up to three registers. -/
def fp64Op (s : State) (at_ : Issue) (f : VForm) (op : Nat) (g : Num → Num → Num → Num) : State :=
  floatOp s at_ f op (fun c r => convert 14 r (g (valOf 14 (sReg c f.a)) (valOf 14 (sReg c f.b)) (valOf 14 (sReg c f.c))))

/-- An FP32 result in a scalar register: bits 63:32 are free. -/
def fp32In (v : Nat) : Nat := v + 2 ^ 32 * (Config.scalarHigh v % 2 ^ 32)

/-- An FP32 instruction on the low 32 bits of its registers. -/
def fp32Op (s : State) (at_ : Issue) (f : VForm) (op : Nat) (g : Num → Num → Num) : State :=
  floatOp s at_ f op (fun c r =>
    fp32In (convert 0 r (g (valOf 0 (sReg c f.a % 2 ^ 32)) (valOf 0 (sReg c f.b % 2 ^ 32)))))

/-- sfadd.d, sfmul.d, sffma.d, sfdiv.d, sfsqrt.d. -/
def sfaddDOp (s : State) (at_ : Issue) (f : VForm) : State := fp64Op s at_ f 0xA0 (fun a b _ => numAdd a b)
def sfmulDOp (s : State) (at_ : Issue) (f : VForm) : State := fp64Op s at_ f 0xA1 (fun a b _ => numMul a b)
def sffmaDOp (s : State) (at_ : Issue) (f : VForm) : State := fp64Op s at_ f 0xA2 (fun a b c => numAdd (numMul a b) c)
def sfdivDOp (s : State) (at_ : Issue) (f : VForm) : State := fp64Op s at_ f 0xA3 (fun a b _ => numDiv a b)
def sfsqrtDOp (s : State) (at_ : Issue) (f : VForm) : State := fp64Op s at_ f 0xA4 (fun a _ _ => numSqrt a)

/-- sfcvt: c bit 0 selects FP32 to FP64 (exact) or FP64 to FP32 (R156). -/
def sfcvtOp (s : State) (at_ : Issue) (f : VForm) : State :=
  floatOp s at_ f 0xA5 (fun c r =>
    if bit f.c 0 then fp32In (convert 0 r (valOf 14 (sReg c f.a)))
    else convert 14 .rne (valOf 0 (sReg c f.a % 2 ^ 32)))

/-- sfmul.s, sfadd.s. -/
def sfmulSOp (s : State) (at_ : Issue) (f : VForm) : State := fp32Op s at_ f 0xA6 numMul
def sfaddSOp (s : State) (at_ : Issue) (f : VForm) : State := fp32Op s at_ f 0xA7 numAdd

/-! ### Control (R129, R123, R139) -/

/-- The bundle a taken branch goes to; one that would lie below the code section lies outside every program. -/
def branchTo (r : CoreRun) (f : JForm) : Nat :=
  let t : Int := (r.pc : Int) + signed 14 f.target.toNat
  if t < 0 then 2 ^ 20 else t.toNat

/-- A branch taken under a condition of its register. -/
def branchOp (s : State) (at_ : Issue) (f : JForm) (op : Nat) (cond : Nat → Bool) : State :=
  issueB s at_ (bWordJ f op) false (fun s c r =>
    if cond (sReg c f.s) then .done s c none (some (branchTo r f)) true else .done s c none none false)

/-- br, bz, bnz, bneg. -/
def brOp (s : State) (at_ : Issue) (f : JForm) : State := branchOp s at_ f 0xB0 (fun _ => true)
def bzOp (s : State) (at_ : Issue) (f : JForm) : State := branchOp s at_ f 0xB1 (fun v => decide (v = 0))
def bnzOp (s : State) (at_ : Issue) (f : JForm) : State := branchOp s at_ f 0xB2 (fun v => decide (v ≠ 0))
def bnegOp (s : State) (at_ : Issue) (f : JForm) : State := branchOp s at_ f 0xB3 (fun v => decide (2 ^ 63 ≤ v))

/-- loop: repeat the next target14 bundles s times; a count of zero skips them (R11, R129). -/
def loopOp (s : State) (at_ : Issue) (f : JForm) : State :=
  issueB s at_ (bWordJ f 0xB4) false (fun s c r =>
    let k := sReg c f.s
    let len := f.target.toNat
    if k = 0 ∨ len = 0 then
      let after := loopNext r.loops (r.pc + len)
      .done s { c with run := some { r with loops := after.2 } } none (some after.1) false
    else .done s { c with run := some { r with loops := ⟨r.pc + 1, r.pc + len, k - 1⟩ :: r.loops } } none none false)

/-- halt: the end of the run (R123); a prelude's step area is kept (R126). -/
def haltOp (s : State) (at_ : Issue) (f : JForm) : State :=
  issueB s at_ (bWordJ f 0xB5) false (fun s c r =>
    let s := if r.prelude then modFn s r.fn (fun x => { x with
        stepAreas := tabPut x.stepAreas (256 * at_.slice + r.cls) (some (memReadN c.sram 0x3E400 1024)) }) else s
    .done s { c with run := some { r with halted := true } } none none false)

/-- trap: the SOFT trap with its code. -/
def trapOp (s : State) (at_ : Issue) (f : JForm) : State :=
  issueB s at_ (bWordJ f 0xB6) false (fun _ _ _ => .soft f.target.toNat)

/-- NOP in port B. -/
def nopB (s : State) (at_ : Issue) (rest : Nat) : State :=
  issueB s at_ (rest % 2 ^ 24) false (fun s c _ => .done s c none none false)

end Sys2Proof.Machine
end

