-- ==== Sys2Proof/Machine/CoreVector.lean ====
section
/-!
DEFINITION. Port A: the vector, GF and tile instructions (Table 5.4, R128, R130, R131, R150, R152, R157, R347).
-/

namespace Sys2Proof.Machine

/-- The word of a form V instruction. -/
def vWord (f : VForm) (op : Nat) : Nat := wordV op f.d f.a f.b f.c f.mask f.rnd

/-- A vector instruction: under rnd every lane of the lane count draws once (R130, R168; in a prelude run that is
ILLEGAL_OP, R126), the lanes' results merge into d under the mask register. -/
def vectorOp (s : State) (at_ : Issue) (f : VForm) (op : Nat) (g : CoreSt → List Rnd → List Nat) : State :=
  issueA s at_ (vWord f op) true (fun c r =>
    if r.prelude && f.rnd then .trap 0x12
    else
      let n := laneCount c
      let dr := if f.rnd then drawLanes n c.lanes else (List.replicate n .rne, c.lanes)
      .write (.vec f.d (mergeLanes c (laneBits c) f.d f.mask (g c dr.1))) dr.2)

/-- A lanewise instruction of three operands: exact values rounded once, or integers wrapped. -/
def lanes3 (c : CoreSt) (f : VForm) (rs : List Rnd) (fl : Num → Num → Num → Num) (int : Int → Int → Int → Int) : List Nat :=
  (((lanesOf c f.a).zip ((lanesOf c f.b).zip (lanesOf c f.c))).zip rs).map (fun p =>
    let a := p.1.1
    let b := p.1.2.1
    let d := p.1.2.2
    if intMode c then laneWrap c (int (laneInt c a) (laneInt c b) (laneInt c d))
    else laneRound c p.2 (fl (laneVal c a) (laneVal c b) (laneVal c d)))

/-- A lanewise instruction of two operands. -/
def lanes2 (c : CoreSt) (f : VForm) (rs : List Rnd) (fl : Num → Num → Num) (int : Int → Int → Int) : List Nat :=
  lanes3 c f rs (fun a b _ => fl a b) (fun a b _ => int a b)

/-- A lanewise instruction of one operand. -/
def lanes1 (c : CoreSt) (f : VForm) (rs : List Rnd) (fl : Num → Num) (int : Int → Int) : List Nat :=
  lanes3 c f rs (fun a _ _ => fl a) (fun a _ _ => int a)

/-! ### Vector arithmetic -/

/-- vadd. -/
def vaddOp (s : State) (at_ : Issue) (f : VForm) : State :=
  vectorOp s at_ f 0x01 (fun c rs => lanes2 c f rs numAdd (· + ·))

/-- vsub. -/
def vsubOp (s : State) (at_ : Issue) (f : VForm) : State :=
  vectorOp s at_ f 0x02 (fun c rs => lanes2 c f rs (fun a b => numAdd a (numNeg b)) (· - ·))

/-- vmul. -/
def vmulOp (s : State) (at_ : Issue) (f : VForm) : State :=
  vectorOp s at_ f 0x03 (fun c rs => lanes2 c f rs numMul (· * ·))

/-- vfma: one rounding. -/
def vfmaOp (s : State) (at_ : Issue) (f : VForm) : State :=
  vectorOp s at_ f 0x04 (fun c rs => lanes3 c f rs (fun a b d => numAdd (numMul a b) d) (fun a b d => a * b + d))

/-- vfnma: c − a × b, one rounding. -/
def vfnmaOp (s : State) (at_ : Issue) (f : VForm) : State :=
  vectorOp s at_ f 0x05 (fun c rs => lanes3 c f rs (fun a b d => numAdd (numNeg (numMul a b)) d) (fun a b d => d - a * b))

/-- vmin (R157, R152). -/
def vminOp (s : State) (at_ : Issue) (f : VForm) : State :=
  vectorOp s at_ f 0x06 (fun c rs => lanes2 c f rs numMin min)

/-- vmax (R157, R152). -/
def vmaxOp (s : State) (at_ : Issue) (f : VForm) : State :=
  vectorOp s at_ f 0x07 (fun c rs => lanes2 c f rs numMax max)

/-- vdiv: integers toward zero, a division by zero giving 0 (R152). -/
def vdivOp (s : State) (at_ : Issue) (f : VForm) : State :=
  vectorOp s at_ f 0x08 (fun c rs => lanes2 c f rs numDiv (fun a b => if b = 0 then 0 else Int.tdiv a b))

/-- vsqrt: the floor of an integer's root, 0 for a negative one (R152). -/
def vsqrtOp (s : State) (at_ : Issue) (f : VForm) : State :=
  vectorOp s at_ f 0x09 (fun c rs => lanes1 c f rs numSqrt (fun a => if a < 0 then 0 else (natSqrt a.toNat : Int)))

/-- vabs. -/
def vabsOp (s : State) (at_ : Issue) (f : VForm) : State :=
  vectorOp s at_ f 0x0A (fun c rs => lanes1 c f rs numAbs (fun a => (a.natAbs : Int)))

/-- vneg. -/
def vnegOp (s : State) (at_ : Issue) (f : VForm) : State :=
  vectorOp s at_ f 0x0B (fun c rs => lanes1 c f rs numNeg (fun a => -a))

/-- The sign of a value: +1, −1, the same zero, or a NaN (Table 5.4). -/
def numSign : Num → Num
  | .nan => .nan
  | .inf s => .fin s 1 0
  | .fin s m _ => if m = 0 then .fin s 0 0 else .fin s 1 0

/-- vsign. -/
def vsignOp (s : State) (at_ : Issue) (f : VForm) : State :=
  vectorOp s at_ f 0x0C (fun c rs => lanes1 c f rs numSign (fun a => if a < 0 then -1 else if a = 0 then 0 else 1))

/-- vsel: a where the mask register's bit is set, otherwise b; bits move unchanged (R150). -/
def vselOp (s : State) (at_ : Issue) (f : VForm) : State :=
  issueA s at_ (vWord f 0x0D) true (fun c r =>
    if r.prelude && f.rnd then .trap 0x12
    else
      let n := laneCount c
      let lanes := if f.rnd then (drawLanes n c.lanes).2 else c.lanes
      .write (.vec f.d (joinBits (laneBits c)
        ((((lanesOf c f.a).zip (lanesOf c f.b)).zip (maskBits c f.mask n)).map (fun p => if p.2 then p.1.1 else p.1.2)))) lanes)

/-- A comparison of two lanes (Table 5.4): 0 equal, 1 less, 2 less or equal, 3 unordered. -/
def cmpLanes (c : CoreSt) (op a b : Nat) : Bool :=
  let o := if intMode c then some (compare (laneInt c a) (laneInt c b)) else numCmp (laneVal c a) (laneVal c b)
  match o with
  | none => decide (op = 3)
  | some .eq => decide (op = 0 ∨ op = 2)
  | some .lt => decide (op = 1 ∨ op = 2)
  | some .gt => false

/-- vcmp: writes lm(c bits 2:0); bits of lanes beyond the lane count are cleared, a masked lane's bit stays. -/
def vcmpOp (s : State) (at_ : Issue) (f : VForm) : State :=
  issueA s at_ (vWord f 0x0E) true (fun c r =>
    if r.prelude && f.rnd then .trap 0x12
    else
      let n := laneCount c
      let lanes := if f.rnd then (drawLanes n c.lanes).2 else c.lanes
      let d := (f.c : Nat) % 8
      let res := (((lanesOf c f.a).zip (lanesOf c f.b)).zip ((maskBits c f.mask n).zip (maskBits c d n))).map
        (fun p => if p.2.1 then cmpLanes c ((f.c : Nat) / 8) p.1.1 p.1.2 else p.2.2)
      .write (.mask d (joinBits 1 (res.map b2n))) lanes)

/-- vcvt: each lane rounded to the format of c bits 3:0 and held in the lane format (R156). -/
def vcvtOp (s : State) (at_ : Issue) (f : VForm) : State :=
  vectorOp s at_ f 0x0F (fun c rs => ((lanesOf c f.a).zip rs).map (fun p =>
    let fmt := (f.c : Nat) % 16
    laneRound c .rne (valOf fmt (convert fmt p.2 (laneVal c p.1)))))

/-- vsplat: the low lane-width bits of scalar register a in every lane; a NaN is written canonical (R150). -/
def vsplatOp (s : State) (at_ : Issue) (f : VForm) : State :=
  vectorOp s at_ f 0x10 (fun c _ =>
    let v := sReg c f.a % 2 ^ laneBits c
    let v := if laneVal c v = .nan then laneRound c .rne .nan else v
    List.replicate (laneCount c) v)

/-- The FP32 product, rounded to nearest even. -/
def mul32 (a b : Nat) : Nat := convert 0 .rne (numMul (valOf 0 a) (valOf 0 b))

/-- Is an FP32 pattern a zero of either sign? -/
def zero32 (a : Nat) : Bool := decide (a % 2 ^ 31 = 0)

/-- vpowi's procedure in FP32 (R130): the running result, the running square, the exponent. -/
def powi32 : Nat → Nat → Nat → Nat → Nat
  | 0, r, _, _ => r
  | n + 1, r, b, e =>
    if e = 0 then r
    else
      let r := if e % 2 = 1 then mul32 r b else r
      let e := e / 2
      if e = 0 then r
      else if zero32 b then mul32 r 0
      else if b = 0x3F800000 then r
      else powi32 n r (mul32 b b) e

/-- Integer powers wrapped to `w` bits (R152). -/
def powiInt (w : Nat) : Nat → Nat → Nat → Nat → Nat
  | 0, r, _, _ => r
  | n + 1, r, b, e => if e = 0 then r else powiInt w n (if e % 2 = 1 then r * b % 2 ^ w else r) (b * b % 2 ^ w) (e / 2)

/-- vpowi: lanewise by the procedure of R130 in FP32, the result in the lane format. -/
def vpowiOp (s : State) (at_ : Issue) (f : VForm) : State :=
  vectorOp s at_ f 0x11 (fun c _ =>
    let e := sReg c f.b
    (lanesOf c f.a).map (fun a =>
      if intMode c then powiInt (laneBits c) 64 1 a e
      else laneRound c .rne (valOf 0 (powi32 64 0x3F800000 (convert 0 .rne (laneVal c a)) e))))

/-- Sums of neighbours of one level of vrsum's tree (R130). -/
def pairSums (c : CoreSt) (rs : List Rnd) (l : Nat) (vs : List Nat) : List Nat :=
  (List.range (vs.length / 2)).map (fun i =>
    let a := vs.getD (2 * i) 0
    let b := vs.getD (2 * i + 1) 0
    if intMode c then laneWrap c (laneInt c a + laneInt c b)
    else laneRound c (rs.getD (Config.sumDrawLane l i % laneCount c) .rne) (numAdd (laneVal c a) (laneVal c b)))

/-- The tree of vrsum, level by level. -/
def sumTree (c : CoreSt) (rs : List Rnd) : Nat → Nat → List Nat → Nat
  | 0, _, vs => vs.headD 0
  | n + 1, l, vs => sumTree c rs n (l + 1) (pairSums c rs l vs)

/-- vrsum: lane 0 holds the pairwise sum, the other lanes zero. -/
def vrsumOp (s : State) (at_ : Issue) (f : VForm) : State :=
  vectorOp s at_ f 0x12 (fun c rs =>
    sumTree c rs (Nat.log2 (laneCount c)) 0 (lanesOf c f.a) :: List.replicate (laneCount c - 1) 0)

/-- vmode: the lane format for later bundles. -/
def vmodeOp (s : State) (at_ : Issue) (f : VForm) : State :=
  issueA s at_ (vWord f 0x13) true (fun c r =>
    if r.prelude && f.rnd then .trap 0x12
    else .write (.mode ((f.c : Nat) % 16)) (if f.rnd then (drawLanes (laneCount c) c.lanes).2 else c.lanes))

/-- vxor: bitwise. -/
def vxorOp (s : State) (at_ : Issue) (f : VForm) : State :=
  vectorOp s at_ f 0x20 (fun c _ => ((lanesOf c f.a).zip (lanesOf c f.b)).map (fun p => p.1 ^^^ p.2))

/-! ### GF (R128, R347) -/

/-- The product of every byte of a register by the low byte of a scalar. -/
def gfProduct (c : CoreSt) (f : VForm) : Nat :=
  let k : Byte := BitVec.ofNat 8 (sReg c f.b)
  leVal ((leBytes 128 (vReg c f.a)).map (gfMul k))

/-- vgfmul. -/
def vgfmulOp (s : State) (at_ : Issue) (f : VForm) : State :=
  vectorOp s at_ f 0x21 (fun c _ => splitBits (laneBits c) (gfProduct c f) (laneCount c))

/-- vgfmac. -/
def vgfmacOp (s : State) (at_ : Issue) (f : VForm) : State :=
  vectorOp s at_ f 0x22 (fun c _ => splitBits (laneBits c) (vReg c f.d ^^^ gfProduct c f) (laneCount c))

/-! ### Tiles (R131) -/

/-- A tile instruction: UNIMPL without tiles (R6, R131). -/
def tileOp (s : State) (at_ : Issue) (f : VForm) (op : Nat) (g : CoreSt → Option AWrite) : State :=
  issueA s at_ (vWord f op) true (fun c r =>
    if s.variant = .C then .trap 0x10
    else if r.prelude && f.rnd then .trap 0x12
    else match g c with
      | none => .trap 0x12
      | some w => .write w (if f.rnd then (drawLanes (laneCount c) c.lanes).2 else c.lanes))

/-- tzero. -/
def tzeroOp (s : State) (at_ : Issue) (f : VForm) : State :=
  tileOp s at_ f 0x30 (fun _ => some (.tile ((f.d : Nat) % 4) (List.replicate 64 0)))

/-- Element (i, q) of a matrix in lane order, transposed when asked for. -/
def matElem (m : List Nat) (tr : Bool) (i q : Nat) : Nat := if tr then m.getD (8 * q + i) 0 else m.getD (8 * i + q) 0

/-- One element of tmma: eight FP32 multiply-adds in ascending q (R131). -/
def mmaElem (code : Nat) (a b : List Nat) (ta tb : Bool) (i j acc : Nat) : Nat :=
  (List.range 8).foldl (fun t q =>
    convert 0 .rne (numAdd (numMul (valOf code (matElem a ta i q)) (valOf code (matElem b tb q j))) (valOf 0 t))) acc

/-- tmma: the lane format must be BF16 or FP16, else ILLEGAL_OP. -/
def tmmaOp (s : State) (at_ : Issue) (f : VForm) : State :=
  tileOp s at_ f 0x31 (fun c =>
    if c.mode = 1 ∨ c.mode = 2 then
      let t := (f.d : Nat) % 4
      let acc := tileReg c t
      let a := lanesOf c f.a
      let b := lanesOf c f.b
      some (.tile t ((List.range 64).map (fun k =>
        mmaElem c.mode a b (bit f.c 0) (bit f.c 1) (k / 8) (k % 8) (acc.getD k 0))))
    else none)

/-- trd: four rows of a tile as 32 FP32 lanes. -/
def trdOp (s : State) (at_ : Issue) (f : VForm) : State :=
  tileOp s at_ f 0x32 (fun c =>
    let h := (f.c : Nat) % 2
    some (.vec f.d (mergeLanes c 32 f.d f.mask (((tileReg c ((f.a : Nat) % 4)).drop (32 * h)).take 32))))

/-- NOP in port A. -/
def nopA (s : State) (at_ : Issue) (rest : Nat) : State :=
  issueA s at_ (rest % 2 ^ 24) false (fun c _ => .write .none c.lanes)

end Sys2Proof.Machine
end

