-- ==== Sys2Proof/Decode.lean ====
section
/-!
DEFINITION. Decoding. No row of spec/opcode_table.json gives a command any bits, so no word of the table spells one. The
instructions of the update cores have words of their own (R127, R128, Tables 5.3 and 5.4): their decoder and encoder stand here.
-/

namespace Sys2Proof

/-- The command that a word spells by the table's bits: none, since no row has bits. -/
def decodeTableWord (_nbits _w : Nat) : Option Instr := none

end Sys2Proof

namespace Sys2Proof.Machine

/-! ### The fields of a core instruction word (Table 5.3) -/

/-- Form V. -/
def readV (w : Nat) : VForm :=
  ⟨Fin.ofNat 32 (bits w 23 19), Fin.ofNat 32 (bits w 18 14), Fin.ofNat 32 (bits w 13 9), Fin.ofNat 32 (bits w 8 4),
   Fin.ofNat 8 (bits w 3 1), bit w 0⟩

/-- Form M. -/
def readM (w : Nat) : MForm :=
  ⟨Fin.ofNat 32 (bits w 23 19), Fin.ofNat 32 (bits w 18 14), Fin.ofNat 16 (bits w 13 10), bit w 9,
   Fin.ofNat 8 (bits w 8 6), bit w 5, bit w 4⟩

/-- Form I. -/
def readI (w : Nat) : IForm :=
  ⟨Fin.ofNat 32 (bits w 23 19), Fin.ofNat 32 (bits w 18 14), BitVec.ofNat 14 (bits w 13 0)⟩

/-- Form L. -/
def readL (w : Nat) : LForm := ⟨Fin.ofNat 32 (bits w 23 19), BitVec.ofNat 19 (bits w 18 0)⟩

/-- Form J. -/
def readJ (w : Nat) : JForm := ⟨Fin.ofNat 32 (bits w 23 19), BitVec.ofNat 14 (bits w 13 0)⟩

/-- The instruction that a word of port A spells for a place of issue; none for a word that R128 or R148 refuses. -/
def decodeA (at_ : Issue) (w : Nat) : Option Instr :=
  if wordOk false w = false then none else
  match insOp w with
  | 0x00 => some (.nop at_ false (BitVec.ofNat 24 w))
  | 0x01 => some (.vadd at_ (readV w))
  | 0x02 => some (.vsub at_ (readV w))
  | 0x03 => some (.vmul at_ (readV w))
  | 0x04 => some (.vfma at_ (readV w))
  | 0x05 => some (.vfnma at_ (readV w))
  | 0x06 => some (.vmin at_ (readV w))
  | 0x07 => some (.vmax at_ (readV w))
  | 0x08 => some (.vdiv at_ (readV w))
  | 0x09 => some (.vsqrt at_ (readV w))
  | 0x0A => some (.vabs at_ (readV w))
  | 0x0B => some (.vneg at_ (readV w))
  | 0x0C => some (.vsign at_ (readV w))
  | 0x0D => some (.vsel at_ (readV w))
  | 0x0E => some (.vcmp at_ (readV w))
  | 0x0F => some (.vcvt at_ (readV w))
  | 0x10 => some (.vsplat at_ (readV w))
  | 0x11 => some (.vpowi at_ (readV w))
  | 0x12 => some (.vrsum at_ (readV w))
  | 0x13 => some (.vmode at_ (readV w))
  | 0x20 => some (.vxor at_ (readV w))
  | 0x21 => some (.vgfmul at_ (readV w))
  | 0x22 => some (.vgfmac at_ (readV w))
  | 0x30 => some (.tzero at_ (readV w))
  | 0x31 => some (.tmma at_ (readV w))
  | 0x32 => some (.trd at_ (readV w))
  | _ => none

/-- The instruction that a word of port B spells. -/
def decodeB (at_ : Issue) (w : Nat) : Option Instr :=
  if wordOk true w = false then none else
  match insOp w with
  | 0x00 => some (.nop at_ true (BitVec.ofNat 24 w))
  | 0x80 => some (.vld at_ (readM w))
  | 0x81 => some (.vst at_ (readM w))
  | 0x82 => some (.vldb at_ (readI w))
  | 0x88 => some (.sld at_ (readI w))
  | 0x89 => some (.sldw at_ (readI w))
  | 0x8A => some (.sst at_ (readI w))
  | 0x90 => some (.sli at_ (readL w))
  | 0x91 => some (.slih at_ (readL w))
  | 0x92 => some (.sadd at_ (readV w))
  | 0x93 => some (.saddi at_ (readI w))
  | 0x94 => some (.ssub at_ (readV w))
  | 0x95 => some (.smul at_ (readV w))
  | 0x96 => some (.sand at_ (readV w))
  | 0x97 => some (.sandi at_ (readI w))
  | 0x98 => some (.sor at_ (readV w))
  | 0x99 => some (.sxor at_ (readV w))
  | 0x9A => some (.sshl at_ (readV w))
  | 0x9B => some (.sshr at_ (readV w))
  | 0xA0 => some (.sfaddD at_ (readV w))
  | 0xA1 => some (.sfmulD at_ (readV w))
  | 0xA2 => some (.sffmaD at_ (readV w))
  | 0xA3 => some (.sfdivD at_ (readV w))
  | 0xA4 => some (.sfsqrtD at_ (readV w))
  | 0xA5 => some (.sfcvt at_ (readV w))
  | 0xA6 => some (.sfmulS at_ (readV w))
  | 0xA7 => some (.sfaddS at_ (readV w))
  | 0xB0 => some (.br at_ (readJ w))
  | 0xB1 => some (.bz at_ (readJ w))
  | 0xB2 => some (.bnz at_ (readJ w))
  | 0xB3 => some (.bneg at_ (readJ w))
  | 0xB4 => some (.loop at_ (readJ w))
  | 0xB5 => some (.halt at_ (readJ w))
  | 0xB6 => some (.trap at_ (readJ w))
  | 0xC0 => some (.srd at_ (readV w))
  | 0xC1 => some (.swait at_ (readJ w))
  | 0xC8 => some (.pmrd at_ (readI w))
  | 0xC9 => some (.pmwx at_ (readI w))
  | 0xD0 => some (.stime at_ (readL w))
  | 0xD8 => some (.fld at_ (readV w))
  | 0xD9 => some (.fst at_ (readV w))
  | 0xDA => some (.fadd at_ (readV w))
  | 0xDB => some (.fcas at_ (readV w))
  | 0xDC => some (.fwait at_ (readJ w))
  | _ => none

/-- The word of a core instruction of port A. -/
def encodeA (i : Instr) : Option Nat :=
  match i with
  | .nop _ false rest => some rest.toNat
  | .vadd _ f => some (vWord f 0x01)
  | .vsub _ f => some (vWord f 0x02)
  | .vmul _ f => some (vWord f 0x03)
  | .vfma _ f => some (vWord f 0x04)
  | .vfnma _ f => some (vWord f 0x05)
  | .vmin _ f => some (vWord f 0x06)
  | .vmax _ f => some (vWord f 0x07)
  | .vdiv _ f => some (vWord f 0x08)
  | .vsqrt _ f => some (vWord f 0x09)
  | .vabs _ f => some (vWord f 0x0A)
  | .vneg _ f => some (vWord f 0x0B)
  | .vsign _ f => some (vWord f 0x0C)
  | .vsel _ f => some (vWord f 0x0D)
  | .vcmp _ f => some (vWord f 0x0E)
  | .vcvt _ f => some (vWord f 0x0F)
  | .vsplat _ f => some (vWord f 0x10)
  | .vpowi _ f => some (vWord f 0x11)
  | .vrsum _ f => some (vWord f 0x12)
  | .vmode _ f => some (vWord f 0x13)
  | .vxor _ f => some (vWord f 0x20)
  | .vgfmul _ f => some (vWord f 0x21)
  | .vgfmac _ f => some (vWord f 0x22)
  | .tzero _ f => some (vWord f 0x30)
  | .tmma _ f => some (vWord f 0x31)
  | .trd _ f => some (vWord f 0x32)
  | _ => none

/-- The word of a core instruction of port B. -/
def encodeB (i : Instr) : Option Nat :=
  match i with
  | .nop _ true rest => some rest.toNat
  | .vld _ f => some (bWordM f 0x80)
  | .vst _ f => some (bWordM f 0x81)
  | .vldb _ f => some (bWordI f 0x82)
  | .sld _ f => some (bWordI f 0x88)
  | .sldw _ f => some (bWordI f 0x89)
  | .sst _ f => some (bWordI f 0x8A)
  | .sli _ f => some (bWordL f 0x90)
  | .slih _ f => some (bWordL f 0x91)
  | .sadd _ f => some (bWordV f 0x92)
  | .saddi _ f => some (bWordI f 0x93)
  | .ssub _ f => some (bWordV f 0x94)
  | .smul _ f => some (bWordV f 0x95)
  | .sand _ f => some (bWordV f 0x96)
  | .sandi _ f => some (bWordI f 0x97)
  | .sor _ f => some (bWordV f 0x98)
  | .sxor _ f => some (bWordV f 0x99)
  | .sshl _ f => some (bWordV f 0x9A)
  | .sshr _ f => some (bWordV f 0x9B)
  | .sfaddD _ f => some (bWordV f 0xA0)
  | .sfmulD _ f => some (bWordV f 0xA1)
  | .sffmaD _ f => some (bWordV f 0xA2)
  | .sfdivD _ f => some (bWordV f 0xA3)
  | .sfsqrtD _ f => some (bWordV f 0xA4)
  | .sfcvt _ f => some (bWordV f 0xA5)
  | .sfmulS _ f => some (bWordV f 0xA6)
  | .sfaddS _ f => some (bWordV f 0xA7)
  | .br _ f => some (bWordJ f 0xB0)
  | .bz _ f => some (bWordJ f 0xB1)
  | .bnz _ f => some (bWordJ f 0xB2)
  | .bneg _ f => some (bWordJ f 0xB3)
  | .loop _ f => some (bWordJ f 0xB4)
  | .halt _ f => some (bWordJ f 0xB5)
  | .trap _ f => some (bWordJ f 0xB6)
  | .srd _ f => some (bWordV f 0xC0)
  | .swait _ f => some (bWordJ f 0xC1)
  | .pmrd _ f => some (bWordI f 0xC8)
  | .pmwx _ f => some (bWordI f 0xC9)
  | .stime _ f => some (bWordL f 0xD0)
  | .fld _ f => some (bWordV f 0xD8)
  | .fst _ f => some (bWordV f 0xD9)
  | .fadd _ f => some (bWordV f 0xDA)
  | .fcas _ f => some (bWordV f 0xDB)
  | .fwait _ f => some (bWordJ f 0xDC)
  | _ => none

end Sys2Proof.Machine
end

