-- ==== Sys2Proof/Machine/LineCode.lean ====
section
/-!
DEFINITION. The line code of the deep tier (R325 to R327): RS(68,64) over the field of R43, and the code block with its check
line and TAG.
-/

namespace Sys2Proof.Machine

/-- α^i, α being 0x02. -/
def alphaPow (i : Nat) : Byte := gfPow 2 i

/-- The generator's coefficients of x^3, x^2, x and 1 (R326). -/
def rsGen : List Byte := [0x0F, 0x36, 0x78, 0x40]

/-- One step of the division by g(x): the remainder register k0 to k3 after a data byte. -/
def rsStep (k : List Byte) (d : Byte) : List Byte :=
  let f := d ^^^ k.getD 0 0
  (List.range 4).map (fun i => k.getD (i + 1) 0 ^^^ gfMul f (rsGen.getD i 0))

/-- Check bytes k0 to k3 of a data line (R326). -/
def rsCheck (data : List Byte) : List Byte := data.foldl rsStep [0, 0, 0, 0]

/-- S_i = r(α^i) of a codeword of 68 symbols, highest power first (R327). -/
def syndrome (w : List Byte) (i : Nat) : Byte := w.foldl (fun acc b => gfMul acc (alphaPow i) ^^^ b) 0

/-- A data line as it was read: its data and check bytes after correction, the symbols corrected (0 to 63 data, 64 to 67 check),
and whether it is uncorrectable. -/
structure LineRead where
  data : List Byte
  check : List Byte
  errs : List Nat
  bad : Bool
  deriving DecidableEq, Repr

/-- The powers of x, 0 to 67, whose locator is a root of X² + s1·X + s2. -/
def locate (s1 s2 : Byte) : List Nat :=
  (List.range 68).filter (fun p => let x := alphaPow p; decide (gfMul x x ^^^ gfMul s1 x ^^^ s2 = 0))

/-- A codeword with the value `v` added at power `p` of x. -/
def flipAt (w : List Byte) (p : Nat) (v : Byte) : List Byte := w.set (67 - p) (w.getD (67 - p) 0 ^^^ v)

/-- The decoder of R327: up to two symbols are corrected. -/
def decodeLine (data check : List Byte) : LineRead :=
  let w := data ++ check
  let s0 := syndrome w 0
  let s1 := syndrome w 1
  let s2 := syndrome w 2
  let s3 := syndrome w 3
  let give := fun (w : List Byte) (ps : List Nat) => (⟨w.take 64, w.drop 64, ps.map (fun p => 67 - p), false⟩ : LineRead)
  let fail : LineRead := ⟨data, check, [], true⟩
  if s0 = 0 ∧ s1 = 0 ∧ s2 = 0 ∧ s3 = 0 then ⟨data, check, [], false⟩
  else
    let det := gfMul s1 s1 ^^^ gfMul s0 s2
    if det = 0 then
      -- one symbol: S1/S0 = S2/S1 = S3/S2 is its locator
      if s0 = 0 ∨ gfMul s2 s2 ≠ gfMul s1 s3 ∨ s1 = 0 then fail
      else match (List.range 68).find? (fun p => decide (gfMul s0 (alphaPow p) = s1)) with
        | some p => if gfMul s1 (alphaPow p) = s2 ∧ gfMul s2 (alphaPow p) = s3 then give (flipAt w p s0) [p] else fail
        | none => fail
    else
      let d := gfInv det
      let e1 := gfMul d (gfMul s1 s2 ^^^ gfMul s0 s3)
      let e2 := gfMul d (gfMul s2 s2 ^^^ gfMul s1 s3)
      match locate e1 e2 with
      | [p, q] =>
        let xp := alphaPow p
        let xq := alphaPow q
        let vp := gfMul (s1 ^^^ gfMul s0 xq) (gfInv (xp ^^^ xq))
        let vq := s0 ^^^ vp
        if vp = 0 ∨ vq = 0 then fail else give (flipAt (flipAt w p vp) q vq) [p, q]
      | _ => fail

/-- Block address of a block of a global channel (R325). -/
def blockAddr (ch block : Nat) : Nat := ch * 2 ^ 23 + block

/-- TAG of a block (Table 12.1). -/
def blockTag (ch block : Nat) : Nat := crc64 (leBytes 8 (blockAddr ch block)) % 2 ^ 32

/-- A block of 1,024 bytes as R327 returns it: whether it is an address fault, and its 15 data lines. -/
structure BlockRead where
  address : Bool
  lines : List LineRead
  deriving DecidableEq, Repr

/-- Read a block; an address fault makes every line uncorrectable (R327). -/
def decodeBlock (ch block : Nat) (raw : List Byte) : BlockRead :=
  let raw := fit 1024 raw
  let bad := decide (field raw 0x3FC 4 ≠ blockTag ch block)
  ⟨bad, (List.range 15).map (fun i =>
    let data := (raw.drop (64 * i)).take 64
    let check := (raw.drop (960 + 4 * i)).take 4
    if bad then ⟨data, check, [], true⟩ else decodeLine data check)⟩

/-- The lines in error. -/
def BlockRead.ce (b : BlockRead) : Nat := (b.lines.filter (fun l => !l.errs.isEmpty)).length
def BlockRead.ue (b : BlockRead) : Nat := (b.lines.filter (fun l => l.bad)).length
def BlockRead.clean (b : BlockRead) : Bool := decide (b.ce = 0) && decide (b.ue = 0)

/-- The symbols in error as line and symbol. -/
def BlockRead.symbols (b : BlockRead) : List (Nat × Nat) :=
  (b.lines.zipIdx.map (fun q => q.1.errs.map (fun k => (q.2, k)))).flatten

/-- The most symbols corrected in one codeword. -/
def BlockRead.most (b : BlockRead) : Nat := (b.lines.map (fun l => l.errs.length)).foldl max 0

/-- LINE_MAP of the watch log (Table 12.6): a line whose data is in error, and bit 15 for the check line or TAG. -/
def BlockRead.map (b : BlockRead) : Nat :=
  let lines := ((b.lines.zipIdx.filter (fun q => q.1.bad || q.1.errs.any (fun k => decide (k < 64)))).map (fun q => 2 ^ q.2)).sum
  let check := b.address || b.lines.any (fun l => l.errs.any (fun k => decide (64 ≤ k)))
  lines + (if check then 2 ^ 15 else 0)

/-- The bytes of a block with data and check bytes as read and the TAG of its address. -/
def blockBytes (ch block : Nat) (lines : List LineRead) : List Byte :=
  (lines.map (fun l => l.data)).flatten ++ (lines.map (fun l => l.check)).flatten ++ leBytes 4 (blockTag ch block)

end Sys2Proof.Machine
end

