-- ==== Sys2Proof/Machine/MramLog.lean ====
section
/-!
DEFINITION. The MRAM log (R387, Tables 14.4 and 14.5).
-/

namespace Sys2Proof.Machine

/-- Records of the log area. -/
def logRecords : Nat := 4096

/-- The 64 bytes of a log record. -/
def logBytes (counter seq code : Nat) (data : List Byte) : List Byte :=
  let b := leBytes 8 counter ++ leBytes 4 seq ++ leBytes 2 code ++ zeros 2 ++ fit 40 data
  b ++ leBytes 8 (crc64 b)

/-- Write a log record at index SEQ mod 4,096. -/
def logWrite (s : State) (code : Nat) (data : List Byte) : State :=
  let q := s.nvm.logSeq
  let i := q % logRecords
  let s := if (tabFind s.nvm.log i).isSome then flagF s pgNvm NVM_LOG_STATUS_WRAPPED else s
  let s := { s with nvm := { s.nvm with log := tabPut s.nvm.log i (some (logBytes s.counter q code data)), logSeq := (q + 1) % 2 ^ 32 } }
  setF s pgNvm NVM_LOG_STATUS_NEXT ((q + 1) % logRecords)

end Sys2Proof.Machine
end

