-- ==== Sys2Proof/Machine/WheelImage.lean ====
section
/-!
DEFINITION. Wheel images (R180 to R185, Tables 7.1 to 7.3): parsing, the checks of LOAD_WHEEL with the offset of the first
failing item, and the restart's checks of windows.
-/

namespace Sys2Proof.Machine

/-! ### Actions (Table 7.3) -/

/-- Action codes. -/
def actReadout : Nat := 0x01
def actGcommit : Nat := 0x02
def actGwrite : Nat := 0x03
def actGsend : Nat := 0x04
def actGhold : Nat := 0x05
def actPrelude : Nat := 0x10
def actLread : Nat := 0x11
def actRun : Nat := 0x12
def actSrd : Nat := 0x13
def actReg : Nat := 0x14
def actSend : Nat := 0x15
def actLwrite : Nat := 0x16
def actEmit : Nat := 0x17
def actHold : Nat := 0x18
def actFill : Nat := 0x20
def actMgmt : Nat := 0x21

/-- The schedules in which an action may stand: 0 intake, 1 pass. -/
def actScheds (a : Nat) : List Nat :=
  if 1 ≤ a ∧ a ≤ 5 then [0] else if 0x10 ≤ a ∧ a ≤ 0x18 then [1] else if a = actFill ∨ a = actMgmt then [0, 1] else []

/-- Actions on a row. -/
def actOnRow (a : Nat) : Bool := decide (1 ≤ a ∧ a ≤ 5) || decide (0x11 ≤ a ∧ a ≤ 0x18)

/-- Unit numbers, as UNIT_OVERRUN names them (Table 7.6). -/
def unitStream : Nat := 0x20
def unitController : Nat := 0x21
def unitReadout : Nat := 0x22
def unitLedger : Nat := 0x23
def unitFabric : Nat := 0x24

/-- Actions that use the core of their entry. -/
def actUsesCore (a : Nat) : Bool := [actReadout, actGcommit, actPrelude, actRun, actEmit].contains a

/-- The units an entry owns. -/
def unitsOf (e : WheelEntry) : List Nat :=
  let a := e.action
  (if actUsesCore a then [e.core] else []) ++
  (if a = actLread ∨ a = actSrd ∨ a = actFill then [unitStream] else []) ++
  (if [actGwrite, actGhold, actLread, actLwrite, actEmit, actHold, actMgmt].contains a then [unitController] else []) ++
  (if a = actReadout then [unitReadout] else []) ++ (if a = actReg then [unitLedger] else []) ++
  (if a = actGsend ∨ a = actSend then [unitFabric] else [])

/-- Capacity of a unit (R183). -/
def unitCap (u : Nat) : Nat := if u = unitLedger then 8 else if u = unitFabric then 32 else 1

/-- The predecessor whose end an action of a row must not precede (Table 7.3): the action its condition names, and for
LWRITE the SEND that its receipts answer. -/
def actBefore (a : Nat) : Option Nat :=
  if a = actGcommit then some actReadout
  else if a = actGwrite ∨ a = actGsend then some actGcommit
  else if a = actRun then some actLread
  else if a = actReg then some actRun
  else if a = actSend then some actReg
  else if a = actLwrite then some actSend
  else if a = actEmit then some actLwrite
  else none

/-! ### Parsing -/

/-- Start offsets of the fill list, the near list and the sixteen slice sections, and the end of the image (R180). -/
structure WheelMap where
  nearAt : Nat
  slicesAt : Nat
  endAt : Nat
  deriving DecidableEq, Repr

/-- Entries of slice `sl`: intake and pass. -/
def intakeCount (bs : List Byte) (sl : Nat) : Nat := field bs (0x60 + 4 * sl) 2
def passCount (bs : List Byte) (sl : Nat) : Nat := field bs (0x62 + 4 * sl) 2

/-- Where the section of slice `sl` starts: after those of the lower slices, the first 64-byte aligned. -/
def sliceAt (bs : List Byte) (start sl : Nat) : Nat :=
  start + 16 * ((List.range sl).map (fun i => intakeCount bs i + passCount bs i)).sum

/-- The map of an image. -/
def wheelMap (bs : List Byte) : WheelMap :=
  let near := roundUp (256 + field bs 0x30 2) 64
  let slices := roundUp (near + 4 * field bs 0x2C 4) 64
  ⟨near, slices, sliceAt bs slices 16⟩

/-- Parse an entry of slice `sl` (Table 7.2). -/
def parseWheelEntry (sl : Nat) (e : List Byte) : WheelEntry :=
  ⟨sl, field e 0 2, field e 2 2, field e 4 1, field e 5 1, field e 6 1, bit (field e 7 1) 0, signed 32 (field e 8 4)⟩

/-- The raw entries of slice `sl`. -/
def rawEntries (bs : List Byte) (sl : Nat) : List (List Byte) :=
  cutEntries bs 16 (intakeCount bs sl + passCount bs sl) (sliceAt bs (wheelMap bs).slicesAt sl)

/-- Parse a wheel image. -/
def parseWheel (bs : List Byte) : WheelImage :=
  let m := wheelMap bs
  { lenLog2 := field bs 6 1, refresh := field bs 7 1, scheduleId := field bs 8 8, manifestDigest := field bs 0x10 8,
    setDigest := field bs 0x18 8, segBase := field bs 0x20 2, segLen := field bs 0x22 2, passBand := field bs 0x24 2,
    passDrain := field bs 0x26 2, intakeBand := field bs 0x28 2, intakeDrain := field bs 0x2A 2,
    mailbagRows := field bs 0x32 1,
    place := (List.range 64).map (fun i => bits (field bs (0x40 + i / 2) 1) (4 * (i % 2) + 3) (4 * (i % 2))),
    fillList := ((bs.drop 256).take (field bs 0x30 2)).map BitVec.toNat,
    nearList := (cutEntries bs 4 (field bs 0x2C 4) m.nearAt).map leVal,
    entries := ((List.range 16).map (fun sl => (rawEntries bs sl).map (parseWheelEntry sl))).flatten }

/-- The entries of one slice, in image order; an entry's number is its place here. -/
def sliceEntries (w : WheelImage) (sl : Nat) : List WheelEntry := w.entries.filter (fun e => decide (e.slice = sl))

/-- Rows of a band of a schedule. -/
def bandOf (w : WheelImage) (sched : Nat) : Nat := if sched = 0 then w.intakeBand else w.passBand

/-! ### The checks of R184 -/

/-- LEN of the image. -/
def WheelImage.len (w : WheelImage) : Nat := 2 ^ w.lenLog2

/-- The segment is the whole wheel. -/
def WheelImage.whole (w : WheelImage) : Bool := decide (w.segBase = 0) && decide (64 * w.segLen = w.len)

/-- How often an entry owns schedule slot `p` of a turn: a long entry of a whole wheel runs on through later turns. -/
def ownsSlot (w : WheelImage) (e : WheelEntry) (p : Nat) : Nat :=
  let turn := w.len - 1
  let d := (p + turn - e.slot) % turn
  if d < e.length then (e.length - d - 1) / turn + 1 else 0

/-- Offsets of the refresh positions in a group of 64 slots (R178). -/
def refreshOffsets (rate : Nat) : List Nat := if rate = 1 then [32] else if rate = 2 then [0, 32] else [0, 16, 32, 48]

/-- An entry by itself: its fields, its place in the segment, and the refresh positions (R173, R178, R179, R182). -/
def entryFits (w : WheelImage) (raw : List Byte) (inIntake : Bool) (e : WheelEntry) : Bool :=
  decide (e.slot + 2 ≤ w.len) && decide (1 ≤ e.length) && (actScheds e.action).contains e.sched &&
  decide ((e.sched = 0) = (inIntake = true)) && decide (field raw 7 1 < 2) && decide (field raw 0xC 4 = 0) &&
  (if actUsesCore e.action then decide (e.core < 32) else decide (e.core = 0)) &&
  (actOnRow e.action || decide (e.action = actPrelude) || decide (e.item = 0)) &&
  (decide (e.action ≠ actPrelude) || (e.firstOnly && decide (0 ≤ e.item) && decide (e.item < 256))) &&
  decide (64 * w.segBase ≤ e.slot) &&
  (w.whole || decide (e.slot + e.length ≤ min (64 * (w.segBase + w.segLen)) (w.len - 1))) &&
  (!(unitsOf e).contains unitController ||
    (List.range (w.len - 1)).all (fun p => !(refreshOffsets w.refresh).contains (p % 64) || decide (ownsSlot w e p = 0)))

/-- No unit of an entry exceeds its capacity where the entry starts; a unit over its capacity somewhere is so where one
of its entries starts. Entries of one schedule run together, FIRST_ONLY ones as if in every turn. -/
def unitsFit (w : WheelImage) (e : WheelEntry) : Bool :=
  let others := w.entries.filter (fun f => decide (f.slice = e.slice) && decide (f.sched = e.sched))
  (unitsOf e).all (fun u => decide
    (((others.filter (fun f => (unitsOf f).contains u)).map (fun f => ownsSlot w f e.slot)).sum ≤ unitCap u))

/-- A row action's ITEM differs from the others of its action modulo BAND. -/
def itemAlone (w : WheelImage) (e : WheelEntry) : Bool :=
  !actOnRow e.action || decide (e.action = actSrd) ||
    decide ((w.entries.filter (fun f => decide (f.slice = e.slice) && decide (f.action = e.action) &&
      decide ((f.item - e.item) % (bandOf w e.sched : Int) = 0))).length = 1)

/-- The entry of an action that handles the same rows. -/
def sameRows (w : WheelImage) (e : WheelEntry) (a : Nat) : Option WheelEntry :=
  w.entries.find? (fun f => decide (f.slice = e.slice) && decide (f.action = a) &&
    decide ((f.item - e.item) % (bandOf w e.sched : Int) = 0))

/-- For every row, the action starts no earlier than the end of its predecessor: the turns of two entries for one row
differ by the difference of their ITEMs in bands. -/
def orderFits (w : WheelImage) (e : WheelEntry) : Bool :=
  match actBefore e.action with
  | none => true
  | some a => match sameRows w e a with
    | none => true
    | some p => decide ((p.slot : Int) + p.length ≤ (p.item - e.item) / (bandOf w e.sched : Int) * w.len + e.slot)

/-- Every residue of BAND has an entry of every row action but SRD, in the slice. -/
def residuesCovered (w : WheelImage) (sl : Nat) : Bool :=
  [actReadout, actGcommit, actGwrite, actGsend, actGhold, actLread, actRun, actReg, actSend, actLwrite, actEmit, actHold].all
    (fun a => decide ((w.entries.filter (fun f => decide (f.slice = sl) && decide (f.action = a))).length =
      bandOf w (if a ≤ 5 then 0 else 1)))

/-- Rows of a slice whose SEND or GSEND has begun and whose HOLD or GHOLD has not ended, at slot `p` of a turn once the
schedule runs: for each pair of entries, the turns in between. -/
def openRows (w : WheelImage) (sl sched p : Nat) : Nat :=
  ((w.entries.filter (fun e => decide (e.slice = sl) && decide (e.action = if sched = 0 then actGsend else actSend))).map
    (fun e => match sameRows w e (if sched = 0 then actGhold else actHold) with
      | none => 0
      | some h =>
        let span : Int := (e.item - h.item) / (bandOf w sched : Int) * w.len + h.slot + h.length - e.slot
        let d : Int := ((p + w.len - e.slot) % w.len : Nat)
        if d < span then ((span - d - 1) / w.len).toNat + 1 else 0)).sum

/-- The rows with open holder work fit MAILBAG_ROWS in every slot. -/
def mailbagFits (w : WheelImage) : Bool :=
  (List.range 16).all (fun sl => [0, 1].all (fun c => (List.range w.len).all (fun p => decide (openRows w sl c p ≤ w.mailbagRows))))

/-- Entries are sorted by SLOT and then by ACTION within each group. -/
def sortedAfter (es : List WheelEntry) (i : Nat) (e : WheelEntry) : Bool :=
  match i with
  | 0 => true
  | k + 1 => match es[k]? with
    | some p => decide (p.sched < e.sched) || decide (p.slot < e.slot) || (decide (p.slot = e.slot) && decide (p.action ≤ e.action))
    | none => true

/-- The header's own failing item. -/
def wheelHeaderFailing (bs : List Byte) (w : WheelImage) : Option Nat :=
  if bs.length < 256 ∨ field bs 0 4 ≠ 0x1A5E7E01 then some 0
  else if field bs 4 2 ≠ 1 then some 4
  else if w.lenLog2 < 8 ∨ 12 < w.lenLog2 then some 6
  else if w.refresh ≠ 1 ∧ w.refresh ≠ 2 ∧ w.refresh ≠ 4 then some 7
  else if w.segLen = 0 ∨ w.len < 64 * (w.segBase + w.segLen) then some 0x22
  else if w.passBand = 0 ∨ 4096 < w.passBand then some 0x24
  else if 255 < w.passDrain then some 0x26
  else if w.intakeBand = 0 ∨ 4096 < w.intakeBand then some 0x28
  else if 255 < w.intakeDrain then some 0x2A
  else if 256 < field bs 0x30 2 then some 0x30
  else if w.mailbagRows = 0 ∨ 32 < w.mailbagRows then some 0x32
  else if !allZero ((bs.drop 0x33).take 13) then some 0x33
  else match (List.range 16).find? (fun sl => decide (8192 < intakeCount bs sl) || decide (8192 < passCount bs sl)) with
    | some sl => some (0x60 + 4 * sl)
    | none =>
      if !allZero ((bs.drop 0xA0).take 88) then some 0xA0
      else if bs.length ≠ (wheelMap bs).endAt ∨ 8388608 < bs.length then some 0x2C
      else if crc64 (setField bs 0xF8 8 0) ≠ field bs 0xF8 8 then some 0xF8
      else none

/-- The near list is ascending. -/
def nearFailing (bs : List Byte) (w : WheelImage) : Option Nat :=
  (((List.range w.nearList.length).find? (fun i => decide (0 < i) && decide (w.nearList.getD i 0 ≤ w.nearList.getD (i - 1) 0)))).map
    (fun i => (wheelMap bs).nearAt + 4 * i)

/-- The first failing entry of a slice's section, as an image offset. -/
def sliceFailing (bs : List Byte) (w : WheelImage) (sl : Nat) : Option Nat :=
  let es := sliceEntries w sl
  let raw := rawEntries bs sl
  (firstBad (fun i e => entryFits w (raw.getD i []) (decide (i < intakeCount bs sl)) e && sortedAfter es i e && unitsFit w e &&
    itemAlone w e && orderFits w e) es).map (fun i => sliceAt bs (wheelMap bs).slicesAt sl + 16 * i)

/-- The offset of the first failing item of a wheel image, or none when R184 accepts it. A residue that no entry covers is
reported at its slice's ENTRY_COUNT, a slot with too many open rows at MAILBAG_ROWS. -/
def wheelFailing (bs : List Byte) : Option Nat :=
  let w := parseWheel bs
  match wheelHeaderFailing bs w with
  | some o => some o
  | none => match nearFailing bs w with
    | some o => some o
    | none => match (List.range 16).findSome? (sliceFailing bs w) with
      | some o => some o
      | none => match (List.range 16).find? (fun sl => !residuesCovered w sl) with
        | some sl => some (0x60 + 4 * sl)
        | none => if mailbagFits w then none else some 0x32

/-! ### Row queues (R181, R182) -/

/-- Rows of an area that lie on a slice under a placement, ascending: the slice's row queue. -/
def rowQueue (w : WheelImage) (sl rows : Nat) : List Nat :=
  (List.range rows).filter (fun j => decide (w.place.getD (j / 32 % 64) 0 = sl))

/-- Turns of a schedule: U. -/
def scheduleTurns (w : WheelImage) (sched rows : Nat) : Nat :=
  let longest := (List.range 16).foldl (fun q sl => max q (rowQueue w sl rows).length) 0
  ceilDiv longest (bandOf w sched) + (if sched = 0 then w.intakeDrain else w.passDrain)

/-- The row that an entry handles in turn `u`, if it is not idle there. -/
def entryRow (w : WheelImage) (e : WheelEntry) (u rows : Nat) : Option Nat :=
  let q : Int := u * bandOf w e.sched + e.item
  if q < 0 then none else (rowQueue w e.slice rows)[q.toNat]?

/-! ### The restart's walk of windows (R185) -/

/-- Every RUN window holds the RUN_BUDGET of each class whose leaves fall in it, every PRELUDE window its
PRELUDE_BUDGET. -/
def windowsHold (w : WheelImage) (set : ProgSet) (m : Manifest) (g : GroupEntry) (member : Nat) : Bool :=
  w.entries.all (fun e =>
    if e.action = actPrelude then
      (match classProg set e.item.toNat with
       | some (_, p) => decide (p.preludeBudget ≤ 64 * e.length)
       | none => true)
    else if e.action = actRun then
      ((rowQueue w e.slice m.stripeRows).zipIdx).all (fun r =>
        decide ((r.2 - e.item : Int) % (bandOf w 1 : Int) ≠ 0) ||
        (match leafAt m g member 0 r.1 with
         | some l => decide (l.kind ≠ .state) || (match (classOf set l.binding.tensor).bind (classProg set) with
            | some (_, p) => decide (p.budget ≤ 64 * e.length)
            | none => true)
         | none => true))
    else true)

end Sys2Proof.Machine
end

