-- ==== Sys2Proof/Machine/Floor.lean ====
section
/-!
DEFINITION. The floor (ch. 11): page addresses and bands (R293, R294, R296, R297), the catalog and mounting (R298, R299),
snapshots and their sweeps (R300 to R311), verification (R312), and wear (R313 to R315).
-/

namespace Sys2Proof.Machine

/-- Change the floor. -/
def modFloor (s : State) (f : FloorSt → FloorSt) : State := { s with floor := f s.floor }

/-- The floor exists and is READY. -/
def floorReady (s : State) : Bool := decide (s.variant = .F) && decide (getF s pgFloor FLOOR_STATUS_STATE = 2)

/-! ### Addresses, bands and pages (R294, R296) -/

/-- A floor page address. -/
def fpaOf (band pos : Nat) : Nat := band * 65536 + pos

/-- The bit of BAD of a position's block: 16 · target + channel (Table 11.2). -/
def blockBit (pos : Nat) : Nat := pos % 128

def bandAt (s : State) (b : Nat) : BandEnt := tabGet {} s.floor.bands b
def setBand (s : State) (b : Nat) (e : BandEnt) : State := modFloor s (fun f => { f with bands := tabSet {} f.bands b e })

/-- The first usable position of a band at or after `p`: among 128 consecutive positions every block occurs once. -/
def usableFrom (e : BandEnt) (p : Nat) : Option Nat :=
  ((List.range 128).map (fun i => p + i)).find? (fun q => decide (q < 65536) && !bit e.bad (blockBit q))

/-- Free bands, in number. -/
def freeBands (s : State) : List Nat := ((List.range 4094).map (fun i => i + 2)).filter (fun b => decide ((bandAt s b).state = 0))

/-- Floor blocks marked bad. -/
def badBlocks (s : State) : Nat :=
  (s.floor.bands.map (fun e => ((List.range 128).map (fun i => b2n (bit e.2.bad i))).sum)).sum

/-- POWERED_SECONDS now. -/
def poweredSeconds (s : State) : Nat := s.floor.seconds + (s.ticks - s.floor.secAt) / 800000000

/-- The service life in powered seconds, and the budget set at format (R315). -/
def serviceLife : Nat := 220903200
def floorBudget : Nat := 3 * (12 * 2 ^ 40) * 255675 / 100

/-- Show the floor's registers (Tables 11.13, 11.14). -/
def showFloor (s : State) : State :=
  let s := setF (setF s pgFloor FLOOR_STATUS_FREE_BANDS (freeBands s).length) pgFloor FLOOR_STATUS_MULT_LOG2 s.floor.mult
  let used := if s.floor.budget = 0 then 0 else min 1023 (s.floor.written * 1000 / s.floor.budget)
  let s := setF s pgFloor FLOOR_WEAR_USED_PERMILLE used
  let s := setF s pgFloor FLOOR_WEAR_LIFE_PERMILLE (min 1023 (poweredSeconds s * 1000 / serviceLife))
  setF s pgFloor FLOOR_WEAR_BAD_BLOCKS (min 0xFFF (badBlocks s))

/-- Store a page and count its bytes (R313). -/
def storePage (s : State) (fpa : Nat) (data : List Byte) : State :=
  modFloor s (fun f => { f with pages := tabPut f.pages fpa (some (cellsOf 0 (fit 65536 data))), written := f.written + 65536 })

/-- A program or erase of a block fails: the block is marked bad (R296). A page whose program failed holds nothing that
passes a check. -/
def blockFails (s : State) (b pos : Nat) (pageToo : Bool) : State :=
  let e := bandAt s b
  let s := setBand s b { e with bad := putBit e.bad (blockBit pos) true }
  let s := errUnit (addF s pgFloor FLOOR_COUNT_PROGRAM_FAIL 1) HDR_ERR_SUMMARY_FLOOR pgFloor
  if pageToo then modFloor s (fun f => { f with pages := tabPut f.pages (fpaOf b pos) (some []) }) else s

/-- Program a page at the band's next usable position; a page whose FPA is listed in `fails` fails and is written again at
the next one. -/
def progPage (fails : List Nat) (s : State) (b : Nat) (data : List Byte) : Nat → State × Option Nat
  | 0 => (s, none)
  | fuel + 1 =>
    let e := bandAt s b
    match usableFrom e e.pos with
    | none => (s, none)
    | some p =>
      let s := setBand s b { e with pos := p + 1 }
      if fails.contains (fpaOf b p) then progPage fails (blockFails s b p true) b data fuel
      else (storePage s (fpaOf b p) data, some (fpaOf b p))

/-- A page as bytes; none when it is erased. -/
def readPage (s : State) (fpa : Nat) : Option (List Byte) := (tabFind s.floor.pages fpa).map (fun m => memReadN m 0 65536)

/-- Close a page with its CHECK at 0xFFF8. -/
def checkedPage (bs : List Byte) : List Byte := let b := fit 0xFFF8 bs; b ++ leBytes 8 (crc64 b)

/-- CHECK of a page holds. -/
def pageChecks (b : List Byte) : Bool := decide (field b 0xFFF8 8 = crc64 (b.take 0xFFF8))

/-- The band header (Table 11.2). -/
def bandHeader (b kind seq owner erase bad : Nat) : List Byte :=
  checkedPage (leBytes 4 0x1A5EF102 ++ leBytes 2 b ++ leBytes 2 kind ++ leBytes 8 seq ++ leBytes 4 owner ++ leBytes 4 erase ++ leBytes 16 bad)

/-- Erase a band and write its header (R297); blocks in `eraseBad` fail to erase. -/
def openBandRaw (fails : List Nat) (eraseBad : Nat) (s : State) (b kind owner : Nat) : State :=
  let e := bandAt s b
  let newBad := (List.range 128).filter (fun i => bit eraseBad i && !bit e.bad i)
  let s := modFloor s (fun f => { f with pages := tabClear f.pages (b * 65536) 65536, bandSeq := f.bandSeq + 1 })
  let s := setBand s b { e with erase := e.erase + 1, state := if kind = 0 then 3 else 1, reads := 0, owner := owner, pos := 0 }
  let s := newBad.foldl (fun s i => blockFails s b i false) s
  (progPage fails s b (bandHeader b kind s.floor.bandSeq owner (bandAt s b).erase (bandAt s b).bad) 129).1

/-! ### The catalog (R298, Tables 11.3 to 11.6) -/

/-- A resume entry's bytes. -/
def resumeBytes (e : ResumeEnt) : List Byte :=
  leBytes 8 e.jobId ++ leBytes 4 e.lastSnap ++ leBytes 1 e.reason ++ leBytes 1 e.stage ++ zeros 2 ++ leBytes 8 e.lastStep ++ leBytes 8 e.counter

/-- A snapshot entry's bytes. -/
def snapBytes (e : SnapEnt) : List Byte :=
  leBytes 4 e.id ++ leBytes 1 e.state ++ leBytes 1 e.fn ++ leBytes 1 e.verify ++ [0] ++ leBytes 8 e.jobId ++ leBytes 8 e.step ++
    leBytes 4 e.sealFpa ++ leBytes 4 e.badPages ++ leBytes 8 e.bytes ++ zeros 24

/-- A band entry's bytes. -/
def bandBytes (e : BandEnt) : List Byte :=
  leBytes 4 e.erase ++ leBytes 1 e.state ++ [0] ++ leBytes 2 (min 0xFFFF (e.reads / 1024)) ++ leBytes 16 e.bad ++
    leBytes 4 (if e.state = 0 ∨ e.state = 3 then 0 else e.owner)

/-- The newest locally sealed snapshot of a function. -/
def newestSnap (s : State) (n : Nat) : Option SnapEnt :=
  (s.floor.snaps.filter (fun e => decide (e.fn = n) && decide (e.state = 2))).foldl (fun a e => match a with
    | none => some e
    | some b => if b.step ≤ e.step then some e else some b) none

/-- Take the resume entries of the functions with an active manifest anew (Table 11.4); `reason` other than 0 names a
Bellows catalog or a cancelled warning. -/
def takeResume (s : State) (reason stage : Nat) : State :=
  (List.range 64).foldl (fun s n =>
    match (fnSt s n).manifest with
    | none => s
    | some m =>
      let e := newestSnap s n
      let r : ResumeEnt := {
        jobId := m.jobId, lastSnap := (e.map (fun e => e.id)).getD 0,
        reason := if reason ≠ 0 then reason else if isBusyFn s n then 0 else 3, stage := stage,
        lastStep := (e.map (fun e => e.step)).getD 0, counter := s.counter }
      modFloor s (fun f => { f with resume := tabSet {} f.resume n r })) s

/-- Part `i` of the catalog. -/
def catalogPart (s : State) (flags pos i : Nat) : List Byte :=
  let f := s.floor
  let head := leBytes 4 0x1A5EF103 ++ leBytes 2 1 ++ leBytes 1 i ++ leBytes 1 flags ++ leBytes 8 f.catSeq
  if i = 0 then
    checkedPage (head ++ leBytes 8 f.formatId ++ leBytes 8 (poweredSeconds s) ++ leBytes 8 f.written ++ leBytes 8 f.budget ++
      leBytes 4 (fpaOf f.sysBand pos) ++ leBytes 4 f.nextSnap ++ leBytes 1 f.mult ++ zeros 7 ++
      ((List.range 64).map (fun n => resumeBytes (tabGet {} f.resume n))).flatten ++ fit 4096 (f.snaps.map snapBytes).flatten)
  else checkedPage (head ++ ((List.range 2048).map (fun b => bandBytes (bandAt s (2048 * (i - 1) + b)))).flatten)

/-- Three consecutive usable positions of a band from its next position. -/
def threePositions (e : BandEnt) : Option (Nat × Nat × Nat) :=
  (usableFrom e e.pos).bind (fun a => (usableFrom e (a + 1)).bind (fun b => (usableFrom e (b + 1)).map (fun c => (a, b, c))))

/-- Write a catalog set (R298): a part that fails to program makes the set start again behind it, and a system band
without room gives way to the other. -/
def catalogTry (fails : List Nat) (flags : Nat) : Nat → State → State
  | 0, s => s
  | fuel + 1, s =>
    let b := s.floor.sysBand
    match threePositions (bandAt s b) with
    | none =>
      let s := modFloor s (fun f => { f with sysBand := 1 - b })
      catalogTry fails flags fuel (openBandRaw fails 0 s (1 - b) 0 0)
    | some (p0, p1, p2) =>
      match [p0, p1, p2].find? (fun p => fails.contains (fpaOf b p)) with
      | some p => catalogTry fails flags fuel (blockFails (setBand s b { bandAt s b with pos := p + 1 }) b p true)
      | none =>
        let s := setBand s b { bandAt s b with pos := p2 + 1 }
        let s := modFloor s (fun f => { f with catSeq := f.catSeq + 1 })
        let parts := [catalogPart s flags (p2 + 1) 0, catalogPart s flags (p2 + 1) 1, catalogPart s flags (p2 + 1) 2]
        [p0, p1, p2].zip parts |>.foldl (fun s q => storePage s (fpaOf b q.1) q.2) s

/-- Write a catalog whose resume entries carry a reason and stage. -/
def writeCatalog (fails : List Nat) (s : State) (flags reason stage : Nat) : State :=
  if s.variant = .C then s else
  let s := catalogTry fails flags 400 (takeResume s reason stage)
  showFloor (modFloor s (fun f => { f with catAt := s.ticks }))

/-- A new catalog in the normal course. -/
def newCatalog (fails : List Nat) (s : State) : State := writeCatalog fails s 0 0 0

/-- Open the FREE band with the lowest ERASE_COUNT for a snapshot (R297, R313), and write a catalog. -/
def openBand (fails : List Nat) (eraseBad : Nat) (s : State) (owner : Nat) : State × Option Nat :=
  let pick := (freeBands s).foldl (fun (a : Option Nat) b => match a with
    | none => some b
    | some c => if (bandAt s b).erase < (bandAt s c).erase then some b else some c) none
  match pick with
  | none => (s, none)
  | some b => (newCatalog fails (openBandRaw fails eraseBad s b 1 owner), some b)

/-- Return a snapshot's bands to FREE. -/
def freeOwned (s : State) (id : Nat) : State :=
  modFloor s (fun f => { f with bands := f.bands.map (fun e =>
    if (e.2.state = 1 ∨ e.2.state = 2) ∧ e.2.owner = id then (e.1, { e.2 with state := 0, owner := 0 }) else e) })

/-- Change a snapshot's entry. -/
def modSnap (s : State) (id : Nat) (g : SnapEnt → SnapEnt) : State :=
  modFloor s (fun f => { f with snaps := f.snaps.map (fun e => if e.id = id then g e else e) })

/-- The snapshot entry with an id. -/
def snapOf (s : State) (id : Nat) : Option SnapEnt := s.floor.snaps.find? (fun e => decide (e.id = id))

/-- Show a function's snapshot registers (Tables 11.18 to 11.20). -/
def showSnap (s : State) (n : Nat) : State :=
  if s.variant = .C then s else
  let e := newestSnap s n
  let step := (e.map (fun e => e.step)).getD 0
  let s := setFnF (setFnF s n FN_FLOOR_STATUS_SNAP_VALID (b2n e.isSome)) n FN_FLOOR_SNAP_SNAP_ID ((e.map (fun e => e.id)).getD 0)
  let s := setFnF (setFnF s n FN_FLOOR_STEP_LO_STEP_LO (step % 2 ^ 32)) n FN_FLOOR_STEP_HI_STEP_HI (step / 2 ^ 32)
  let s := setFnF s n FN_FLOOR_STATUS_SWEEPING (b2n (fnSt s n).sweep.isSome)
  match (fnSt s n).sweep with
  | none => setFnF s n FN_FLOOR_STATUS_PROGRESS 0
  | some sw =>
    let total := sw.manifest.stripeRows + sw.gens.length * sw.manifest.gradRows
    let swept := (sw.index.filter (fun q => decide (q.2 ≠ indexWaits))).length
    setFnF s n FN_FLOOR_STATUS_PROGRESS (if total = 0 then 0 else min 1000 (swept * 1000 / total))

/-! ### Formatting and mounting (R299) -/

/-- FLOOR_FORMAT: every band is erased, and the counts start anew. -/
def floorFormat (s : State) (fails : List Nat) : State :=
  let old := s.floor
  let s := modFloor s (fun f => { f with
    pages := [], snaps := [], resume := [], sysBand := 0, bandSeq := 0, catSeq := 0, formats := f.formats + 1,
    formatId := Config.formatId f.formats % 2 ^ 64, seconds := 0, secAt := s.ticks, written := 0, budget := floorBudget,
    nextSnap := 1, mult := 0, flights := [], verify := none, verified := [],
    bands := (List.range 4096).foldl (fun t b =>
      let e := tabGet {} old.bands b
      let v : BandEnt := { erase := 1, state := if b < 2 then 3 else 0, bad := tabGet 0 old.factory b }
      tabSet {} t b (if e.state = 3 ∧ b < 2 then v else v)) [] })
  let s := openBandRaw fails 0 (setBand s 0 { bandAt s 0 with erase := 0 }) 0 0 0
  let s := newCatalog fails (setF s pgFloor FLOOR_STATUS_STATE 2)
  (List.range 64).foldl showSnap s

/-- The band header of a system band, if a valid one is found among its first positions. -/
def headerOf (s : State) (b : Nat) : Option (List Byte) :=
  (List.range 129).findSome? (fun p => match readPage s (fpaOf b p) with
    | some d => if field d 0 4 = 0x1A5EF102 ∧ field d 4 2 = b ∧ field d 6 2 = 0 ∧ pageChecks d then some d else none
    | none => none)

/-- A page is part `i` of a catalog. -/
def isPart (d : List Byte) (i : Nat) : Bool := decide (field d 0 4 = 0x1A5EF103) && decide (field d 4 2 = 1) && decide (field d 6 1 = i) && pageChecks d

/-- Three pages form a valid set. -/
def validSet (a b c : Option (List Byte)) : Option (List (List Byte)) :=
  match a, b, c with
  | some x, some y, some z =>
    if isPart x 0 && isPart y 1 && isPart z 2 && decide (field x 8 8 = field y 8 8) && decide (field y 8 8 = field z 8 8) then some [x, y, z] else none
  | _, _, _ => none

/-- The last valid set of a system band, scanning its usable positions in steps of one, and the position after the last
written one. -/
def scanBand (s : State) (b : Nat) (usable : Nat → Bool) : Option (List (List Byte)) × Nat :=
  let ps := (List.range 65536).filter usable
  let written := ps.takeWhile (fun p => (tabFind s.floor.pages (fpaOf b p)).isSome)
  let sets := (List.range written.length).filterMap (fun i =>
    validSet (readPage s (fpaOf b (written.getD i 0))) (readPage s (fpaOf b (written.getD (i + 1) 65536)))
      (readPage s (fpaOf b (written.getD (i + 2) 65536))))
  (sets.getLast?, (written.getLast?.map (fun p => p + 1)).getD 0)

/-- Parse a resume, snapshot and band entry. -/
def parseResume (e : List Byte) : ResumeEnt := ⟨field e 0 8, field e 8 4, field e 0xC 1, field e 0xD 1, field e 0x10 8, field e 0x18 8⟩
def parseSnap (e : List Byte) : SnapEnt :=
  ⟨field e 0 4, field e 4 1, field e 5 1, field e 6 1, field e 8 8, field e 0x10 8, field e 0x18 4, field e 0x1C 4, field e 0x20 8⟩
def parseBand (e : List Byte) : BandEnt := ⟨field e 0 4, field e 4 1, 1024 * field e 6 2, field e 8 16, field e 0x18 4, 0⟩

/-- mount() of R299 for a floor whose geometry is sufficient: the newest valid catalog becomes the one in force, SWEEPING
snapshots are ABANDONED, and their bands and those of RETIRED ones are FREE. The scan passes over the blocks that the
floor knows to be bad. -/
def mount (s : State) : State :=
  let seqOf := fun b => match headerOf s b with | some d => field d 8 8 + 1 | none => 0
  let first := if seqOf 0 < seqOf 1 then 1 else 0
  let look := fun b => scanBand s b (fun p => !bit (bandAt s b).bad (blockBit p))
  let found := match (look first).1 with
    | some c => some (first, c)
    | none => (look (1 - first)).1.map (fun c => (1 - first, c))
  match found with
  | none => setF s pgFloor FLOOR_STATUS_STATE 3
  | some (b, parts) =>
    let c := parts.getD 0 []
    let snaps := ((List.range 64).map (fun i => parseSnap ((c.drop (0x840 + 64 * i)).take 64))).filter (fun e => decide (e.id ≠ 0))
    let snaps := snaps.map (fun e => if e.state = 1 then { e with state := 3 } else e)
    let bands := (List.range 4096).foldl (fun t i =>
      let e := parseBand (((parts.getD (1 + i / 2048) []).drop (0x10 + 28 * (i % 2048))).take 28)
      let live := snaps.any (fun q => decide (q.id = e.owner) && decide (q.state = 2))
      let e := if e.state = 1 ∨ e.state = 2 then (if live then { e with pos := 65536 } else { e with state := 0, owner := 0 }) else e
      tabSet {} t i (if i = b then { e with pos := (look b).2 } else if i < 2 then { e with pos := 65536 } else e)) []
    let seq := max (seqOf 0) (seqOf 1) - 1
    let s := modFloor s (fun f => { f with
      snaps := snaps, bands := bands, sysBand := b, bandSeq := max seq f.bandSeq, catSeq := field c 8 8, formatId := field c 0x10 8,
      seconds := field c 0x18 8, secAt := s.ticks, written := field c 0x20 8, budget := field c 0x28 8, nextSnap := field c 0x34 4,
      mult := field c 0x38 1, flights := [], verify := none,
      resume := (List.range 64).foldl (fun t n => tabSet {} t n (parseResume ((c.drop (0x40 + 32 * n)).take 32))) [] })
    newCatalog [] (setF s pgFloor FLOOR_STATUS_STATE 2)

/-- FLOOR_MOUNTED: mounting ends; a target with a smaller geometry, or none, fails the floor (R293). -/
def floorMounted (s : State) (geometryOk : Bool) : State :=
  if s.variant = .C ∨ getF s pgFloor FLOOR_STATUS_STATE ≠ 1 then s
  else if geometryOk then (List.range 64).foldl showSnap (mount s)
  else setF s pgFloor FLOOR_STATUS_STATE 4

/-! ### Starting and ending a sweep (R300 to R303, R307, R308, R311) -/

/-- The pending generations in the order in which later intakes overwrite them (R304). -/
def pendingGens (m : Manifest) (step : Nat) : List Nat := (List.range m.d).map (fun i => (step + 1 + i + (m.d + 1) - m.d) % (m.d + 1))

/-- Bands that a snapshot may take (R311). -/
def bandEstimate (m : Manifest) : Nat :=
  let slots := m.stripeRows + m.d * m.gradRows
  ceilDiv (65536 * slots + 4 * ceilDiv slots 16384 * 16384 + 131072) (4 * 2 ^ 30) + 1

/-- Bands of live snapshots. -/
def liveBands (s : State) : Nat := (s.floor.bands.filter (fun e => decide (e.2.state = 1 ∨ e.2.state = 2))).length

/-- A snapshot is retired and its bands are FREE. -/
def retire (s : State) (id : Nat) : State := freeOwned (modSnap s id (fun e => { e with state := 4 })) id

/-- The SEALED snapshots of a function, oldest first. -/
def sealedSnaps (s : State) (n : Nat) : List SnapEnt :=
  (s.floor.snaps.filter (fun e => decide (e.fn = n) && decide (e.state = 2)))

/-- Retire the function's oldest SEALED snapshot while more than one remains and the new one does not fit (R311). -/
def makeRoom (n need : Nat) : Nat → State → State
  | 0, s => s
  | fuel + 1, s =>
    if liveBands s + need ≤ 3072 ∧ need ≤ (freeBands s).length then s
    else match sealedSnaps s n with
      | a :: _ :: _ => makeRoom n need fuel (newCatalog [] (retire s a.id))
      | _ => s

/-- A snapshot is skipped (R303). -/
def snapSkipped (s : State) (n step : Nat) : State :=
  postEvent (errFn (addF (flagF s (pgFn n) FN_FLOOR_STATUS_SKIPPED) pgFloor FLOOR_COUNT_SKIPPED 1)
    HDR_ERR_SUMMARY_FLOOR n) n 0x0061 (leBytes 8 step)

/-- Add a snapshot entry in a free place of the 64: an empty one, else the oldest RETIRED or ABANDONED one. -/
def addSnap (s : State) (e : SnapEnt) : Option State :=
  let f := s.floor
  if f.snaps.length < 64 then some (modFloor s (fun f => { f with snaps := f.snaps ++ [e] }))
  else match f.snaps.find? (fun q => decide (3 ≤ q.state)) with
    | some q => some (modFloor s (fun f => { f with snaps := f.snaps.erase q ++ [e] }))
    | none => none

/-- A snapshot of `step` begins at its step seal, C_s being `c` (R301 to R303, R305, R311). The flag says whether it
began. -/
def snapshotBegin (s : State) (n step c : Nat) : State × Bool :=
  let x := fnSt s n
  match x.manifest with
  | none => (s, false)
  | some m =>
    if x.sweep.isSome || !floorReady s || decide (x.role ≠ 1) then (snapSkipped s n step, false)
    else
      let need := bandEstimate m
      let s := makeRoom n need 64 s
      if 3072 < liveBands s + need ∨ (freeBands s).length < need then (snapSkipped s n step, false)
      else
        let id := s.floor.nextSnap
        match addSnap s ⟨id, 1, n, 0, m.jobId, step, 0, 0, 0⟩ with
        | none => (snapSkipped s n step, false)
        | some s =>
          let s := modFloor s (fun f => { f with nextSnap := if f.nextSnap + 1 = 2 ^ 32 then 1 else f.nextSnap + 1 })
          let sw : Sweep := ⟨id, step, x.epoch, c, m, x.group, x.self, pendingGens m step, [], 0, 0, 0, 0, [], 0⟩
          (showSnap (modFn s n (fun x => { x with sweep := some sw })) n, true)

/-- The governor of R315 at a due point. -/
def governor (s : State) : State :=
  let snapping := (List.range 64).filter (fun n => decide (stateOf s n = 2) && decide (n ≠ 0) && decide (forceF s n FN_FLOOR_CTRL_KEEP ≠ 0) &&
    decide (forceF s n FN_FLOOR_CTRL_INTERVAL ≠ 0))
  let rate := snapping.map (fun n => (((newestSnap s n).map (fun e => e.bytes)).getD 0, 60 * forceF s n FN_FLOOR_CTRL_INTERVAL))
  let prod := (rate.map (fun r => r.2)).prod
  let num := (rate.map (fun r => r.1 * (prod / max 1 r.2))).sum
  let left := s.floor.budget - s.floor.written
  let span := max (serviceLife - poweredSeconds s) 86400
  let fits := fun k => decide (num * span ≤ left * 2 ^ k * prod)
  let k := ((List.range 7).find? fits).getD 6
  let s := modFloor s (fun f => { f with mult := k })
  let s := showFloor s
  if fits k then s
  else postEvent (errUnit (flagF s pgFloor FLOOR_STATUS_ENDURANCE_LOW) HDR_ERR_SUMMARY_FLOOR pgFloor) 0 0x0064 (leBytes 1 k ++ leBytes 2 (getF s pgFloor FLOOR_WEAR_USED_PERMILLE))

/-- At the step seal of `step` with C_s = `c`: the snapshot that falls due begins (R301, R302). -/
def snapshotDue (s : State) (n step c : Nat) : State :=
  let x := fnSt s n
  let s := modFn s n (fun x => { x with lastC := c })
  if s.variant = .C ∨ stateOf s n ≠ 2 then s else
  let i := forceF s n FN_FLOOR_CTRL_INTERVAL * 48000000000
  let keep := decide (forceF s n FN_FLOOR_CTRL_KEEP ≠ 0)
  let point := keep && decide (i ≠ 0) && decide (x.lastC / max 1 i < c / max 1 i)
  let s := if point then governor s else s
  let byTime := point && decide (c / max 1 i % 2 ^ s.floor.mult = 0)
  let byCmd := match x.snapAt with | some (t, _) => decide (t = step) && keep | none => false
  if byTime || byCmd then
    let id := s.floor.nextSnap
    let (s, began) := snapshotBegin s n step c
    if byCmd then
      if began then modFn s n (fun x => { x with snapAt := some (step, id) })
      else bgComplete (modFn s n (fun x => { x with snapAt := none })) n 0x18 7 0
    else s
  else match x.snapAt with
    | some (t, _) => if t = step then bgComplete (modFn s n (fun x => { x with snapAt := none })) n 0x18 7 0 else s
    | none => s

/-- The SNAPSHOT command that waits for a sweep completes. -/
def snapCommand (s : State) (n step status detail : Nat) : State :=
  match (fnSt s n).snapAt with
  | some (t, _) => if t = step then bgComplete (modFn s n (fun x => { x with snapAt := none })) n 0x18 status detail else s
  | none => s

/-- A sweep is abandoned (R307). -/
def sweepAbandon (s : State) (n : Nat) : State :=
  match (fnSt s n).sweep with
  | none => s
  | some sw =>
    let s := freeOwned (modSnap s sw.snapId (fun e => { e with state := 3 })) sw.snapId
    let s := { s with pushes := s.pushes.filter (fun p => decide (p.snapId ≠ sw.snapId)) }
    let s := modFloor s (fun f => { f with flights := f.flights.filter (fun p => decide (p.snapId ≠ sw.snapId)) })
    let s := errFn (flagF (modFn s n (fun x => { x with sweep := none })) (pgFn n) FN_FLOOR_STATUS_ABANDONED)
      HDR_ERR_SUMMARY_FLOOR n
    let s := postEvent s n 0x0062 (leBytes 4 sw.snapId ++ leBytes 8 sw.step)
    showFloor (showSnap (snapCommand s n sw.step 7 0) n)

/-! ### Sweeping (R304 to R306, R308) -/

/-- Take rows from lists in turn. -/
def inTurn (ls : List (List Nat)) : List Nat :=
  ((List.range ((ls.map List.length).foldl max 0)).map (fun i => ls.filterMap (fun l => l[i]?))).flatten

/-- The slots of a sweep in its order (R304). -/
def sweepOrder (x : FnSt) (sw : Sweep) : List (Nat × Nat × Nat) :=
  (sw.gens.map (fun g => (List.range sw.manifest.gradRows).map (fun j => (1, g, j)))).flatten ++
    (match x.wheel with
     | some w => (inTurn ((List.range 16).map (fun sl => rowQueue w sl sw.manifest.stripeRows))).map (fun j => (0, 0, j))
     | none => (List.range sw.manifest.stripeRows).map (fun j => (0, 0, j)))

/-- Put a slot page in flight. -/
def fly (s : State) (p : FlProg) : State := modFloor s (fun f => { f with flights := f.flights ++ [p] })

/-- SWEEP_READ: the sweep of a function reads its next unswept slot. Nothing is swept in HOLD (Table 11.9). -/
def sweepRead (s : State) (n : Nat) : State :=
  let x := fnSt s n
  match (if holding s then none else x.sweep) with
  | none => s
  | some sw =>
    match (sweepOrder x sw).find? (fun q => match sweepOrdinal sw q.1 q.2.1 q.2.2 with
        | some o => (tabFind sw.index o).isNone
        | none => false) with
    | none => s
    | some (area, gen, j) =>
      match sweepOrdinal sw area gen j, grpOf x with
      | some o, some g =>
        let slot := slotRead s n area gen j
        let hole := !isData g.k g.n x.self j
        if slotErased x.epoch area hole slot then showSnap (sweepMark s n o indexAbsent) n
        else if pmKind slot = 0 then showSnap (sweepMark s n o indexFree) n
        else fly (sweepMark s n o indexWaits) ⟨n, sw.snapId, o, slot⟩
      | _, _ => s

/-- PUSH_DRAIN: the oldest pushed before-image goes to the floor (R306). -/
def pushDrain (s : State) : State :=
  match s.pushes with
  | [] => s
  | p :: rest => if holding s then s else fly { s with pushes := rest } ⟨p.fn, p.snapId, p.ordinal, p.image⟩

/-- The slot page of a flight lands at a page address: its index entry, and the counts of the seal page. -/
def slotWritten (s : State) (p : FlProg) (fpa : Nat) : State :=
  let data := decide (pmKind p.image = 1 ∨ pmKind p.image = 2 ∨ pmKind p.image = 3)
  let s := sweepMark s p.fn p.ordinal fpa
  modFn s p.fn (fun x => { x with sweep := x.sweep.map (fun sw => { sw with
    written := sw.written + 1, chainXor := if data then sw.chainXor ^^^ pmChain p.image else sw.chainXor, endCounter := s.counter }) })

/-- FLOOR_PROGRAM_DONE: the oldest program in flight completes at its band's next usable position, or reports failure
(R296); `eraseBad` lists the blocks that fail to erase if a band is opened for it. -/
def programDone (s : State) (ok : Bool) (eraseBad : Nat) : State :=
  match s.floor.flights with
  | [] => s
  | p :: rest =>
    match (fnSt s p.fn).sweep with
    | none => modFloor s (fun f => { f with flights := rest })
    | some sw =>
      if sw.snapId ≠ p.snapId then modFloor s (fun f => { f with flights := rest })
      else
        let cur := sw.bands.getLast?.bind (fun b => (usableFrom (bandAt s b) (bandAt s b).pos).map (fun q => (b, q)))
        let (s, at_) := match cur with
          | some q => (s, some q)
          | none =>
            let s := match sw.bands.getLast? with
              | some b => setBand s b { bandAt s b with state := 2 }
              | none => s
            if 3072 ≤ liveBands s then (s, none) else
            match openBand [] eraseBad s sw.snapId with
            | (s, some b) =>
              let s := modFn s p.fn (fun x => { x with sweep := x.sweep.map (fun sw => { sw with bands := sw.bands ++ [b] }) })
              (s, (usableFrom (bandAt s b) (bandAt s b).pos).map (fun q => (b, q)))
            | (s, none) => (s, none)
        match at_ with
        | none => showSnap (sweepMark (modFloor s (fun f => { f with flights := rest })) p.fn p.ordinal indexAbsent) p.fn
        | some (b, q) =>
          let s := setBand s b { bandAt s b with pos := q + 1 }
          if ok then
            let s := storePage (modFloor s (fun f => { f with flights := rest })) (fpaOf b q) p.image
            showFloor (showSnap (slotWritten s p (fpaOf b q)) p.fn)
          else showFloor (blockFails s b q true)

/-- Program a page of a snapshot, opening a further band when the last one is full; the bands are given and answered. -/
def progSnap (fails : List Nat) (id : Nat) (st : State × List Nat × List Nat) (data : List Byte) : State × List Nat × List Nat :=
  let (s, bands, out) := st
  let tryIn := fun (s : State) (b : Nat) => progPage fails s b data 129
  let first := match bands.getLast? with
    | some b => tryIn s b
    | none => (s, none)
  match first with
  | (s, some fpa) => (s, bands, out ++ [fpa])
  | (s, none) =>
    let s := match bands.getLast? with | some b => setBand s b { bandAt s b with state := 2 } | none => s
    match openBand fails 0 s id with
    | (s, some b) =>
      (match tryIn s b with
       | (s, some fpa) => (s, bands ++ [b], out ++ [fpa])
       | (s, none) => (s, bands ++ [b], out))
    | (s, none) => (s, bands, out)

/-- The index pages of a snapshot (R308). -/
def indexPages (index : Tab Nat) (total : Nat) : List (List Byte) :=
  (List.range (ceilDiv total 16384)).map (fun i => fit 65536 (((List.range 16384).map (fun k =>
    leBytes 4 (if 16384 * i + k < total then tabGet indexAbsent index (16384 * i + k) else 0))).flatten))

/-- The seal page (Table 11.7). -/
def sealPage (n : Nat) (g : GroupEntry) (sw : Sweep) (absent : Nat) (fpas : List Nat) : List Byte :=
  let m := sw.manifest
  checkedPage (fit 0x100 (leBytes 4 0x1A5EF101 ++ leBytes 2 1 ++ leBytes 1 n ++ leBytes 1 m.d ++ leBytes 4 sw.snapId ++ leBytes 4 sw.epoch ++
    leBytes 8 m.jobId ++ leBytes 8 sw.step ++ leBytes 8 m.digest ++ leBytes 8 sw.sealCounter ++ leBytes 2 sw.group ++ leBytes 1 sw.member ++
    leBytes 1 (g.k * 16 + g.r) ++ leBytes 4 m.stripeRows ++ leBytes 4 m.gradRows ++ leBytes 4 fpas.length ++ leBytes 4 sw.written ++
    leBytes 4 absent ++ leBytes 4 sw.pushed ++ zeros 4 ++ leBytes 8 sw.chainXor ++ leBytes 8 sw.endCounter) ++
    (fpas.map (leBytes 4)).flatten)

/-- Floor bytes of a snapshot: what its bands hold of it, header pages included. -/
def snapSize (s : State) (bands : List Nat) : Nat :=
  65536 * ((bands.map (fun b => (s.floor.pages.filter (fun q => decide (q.1 / 65536 = b))).length)).sum)

/-- SNAP_SEALED: every slot is swept; the index, the seal page and a catalog are written (R308), and older snapshots beyond
KEEP are retired (R311). -/
def snapSealed (s : State) (n : Nat) (fails : List Nat) : State :=
  let x := fnSt s n
  match x.sweep, (x.sweep.bind (fun sw => groupOf sw.manifest sw.group)) with
  | some sw, some g =>
    let total := sw.manifest.stripeRows + sw.gens.length * sw.manifest.gradRows
    if holding s ∨ (List.range total).any (fun o => match tabFind sw.index o with | some v => decide (v = indexWaits) | none => true) then s
    else
      let absent := (sw.index.filter (fun q => decide (q.2 = indexAbsent))).length
      let (s, bands, fpas) := (indexPages sw.index total).foldl (progSnap fails sw.snapId) (s, sw.bands, [])
      let (s, bands, last) := progSnap fails sw.snapId (s, bands, []) (sealPage n g sw absent fpas)
      match last with
      | [] => sweepAbandon s n
      | sealFpa :: _ =>
        let s := bands.foldl (fun s b => setBand s b { bandAt s b with state := 2 }) s
        let s := modSnap s sw.snapId (fun e => { e with state := 2, sealFpa := sealFpa, bytes := snapSize s bands })
        let s := modFn s n (fun x => { x with sweep := none })
        let old := sealedSnaps s n
        let s := (old.take (old.length - forceF s n FN_FLOOR_CTRL_KEEP)).foldl (fun s e => retire s e.id) s
        let s := newCatalog fails s
        let s := postEvent s n 0x0060 (leBytes 4 sw.snapId ++ leBytes 8 sw.step)
        showSnap (snapCommand s n sw.step 0 sw.snapId) n
  | _, _ => s

/-- CATALOG_TIMER: a catalog every 60 s while the floor is READY. -/
def catalogTimer (s : State) (fails : List Nat) : State :=
  if floorReady s && !holding s then newCatalog fails (advanceTo s (s.floor.catAt + 48000000000)) else s

/-! ### Reading pages: verification, refresh and reload (R312, R314, R321) -/

/-- The index ordinals and FPAs of a sealed snapshot, from its seal and index pages. -/
def snapIndex (s : State) (e : SnapEnt) : List Nat × List Nat :=
  match readPage s e.sealFpa with
  | none => ([], [])
  | some d =>
    let ip := (List.range (field d 0x3C 4)).map (fun i => field d (0x100 + 4 * i) 4)
    (ip, (ip.map (fun f => match readPage s f with
      | some p => (List.range 16384).map (fun k => field p (4 * k) 4)
      | none => [])).flatten)

/-- Ordinals of a snapshot: those of its seal page's rows. -/
def snapTotal (s : State) (e : SnapEnt) : Nat :=
  match readPage s e.sealFpa with
  | some d => field d 0x34 4 + field d 7 1 * field d 0x38 4
  | none => 0

/-- Count a read of a page in its band (R314). -/
def countRead (s : State) (fpa : Nat) : State :=
  let b := fpa / 65536
  setBand s b { bandAt s b with reads := (bandAt s b).reads + 1 }

/-- The row of an index ordinal of a snapshot. -/
def ordinalRow (d : List Byte) (o : Nat) : Nat :=
  let sr := field d 0x34 4
  if o < sr then o else (o - sr) % max 1 (field d 0x38 4)

/-- The checks of a slot page (R312). -/
def slotPageOk (sealP slot : List Byte) (o : Nat) : Bool :=
  decide (field slot 0xF8 8 = crc64 (slot.take 0xF8)) && decide (pmDigest slot = crc64 (slotBody slot)) &&
    decide (field slot 8 4 = ordinalRow sealP o)

/-- VERIFY_DUE: after the seal, and every 24 hours (R312). -/
def verifyDue (s : State) (id : Nat) : State :=
  match snapOf s id with
  | none => s
  | some e =>
    if e.state ≠ 2 ∨ s.floor.verify.isSome ∨ !floorReady s ∨ holding s then s
    else
      let s := match tabFind s.floor.verified id with
        | some t => advanceTo s (t + 69120000000000)
        | none => s
      let (ip, ords) := snapIndex s e
      let slots := (ords.take (snapTotal s e)).zipIdx.filter (fun q => decide (q.1 < 0xFFFFFFFE))
      let left := (e.sealFpa, none) :: ip.map (fun f => (f, none)) ++ slots.map (fun q => (q.1, some q.2))
      let s := modFloor s (fun f => { f with verify := some ⟨id, left, 0⟩ })
      setFnF s e.fn FN_FLOOR_STATUS_VERIFYING 1

/-- Verification ends (R312). -/
def verifyEnd (s : State) (v : VerifyRun) : State :=
  let s := modFloor s (fun f => { f with verify := none, verified := tabPut f.verified v.snapId (some s.ticks) })
  match snapOf s v.snapId with
  | none => s
  | some e =>
    let r := if v.bad = 0 then 1 else 2
    let s := modSnap s v.snapId (fun e => { e with verify := r, badPages := v.bad })
    let s := setFnF s e.fn FN_FLOOR_STATUS_VERIFYING 0
    postEvent s e.fn 0x0063 (leBytes 4 v.snapId ++ leBytes 1 r ++ leBytes 4 v.bad)

/-- FLOOR_READ_COMPLETE: the next page of the verification in progress, `readable` by the inner code, is checked (R312). -/
def floorReadComplete (s : State) (readable : Bool) : State :=
  match s.floor.verify with
  | none => s
  | some v =>
    match v.left, (snapOf s v.snapId).bind (fun e => readPage s e.sealFpa) with
    | [], _ => verifyEnd s v
    | (fpa, o) :: rest, sp =>
      let ok := readable && (match readPage s fpa, o, sp with
        | some d, some o, some sp => slotPageOk sp d o
        | some d, none, _ => pageChecks d || decide (field d 0 4 ≠ 0x1A5EF101)
        | _, _, _ => false)
      let s := countRead s fpa
      let s := if ok then s else errFn (addF s pgFloor FLOOR_COUNT_VERIFY_FAIL 1) HDR_ERR_SUMMARY_FLOOR ((snapOf s v.snapId).map (fun e => e.fn) |>.getD 0)
      let v := { v with left := rest, bad := v.bad + b2n (!ok) }
      let s := modFloor s (fun f => { f with verify := some v })
      if rest = [] then verifyEnd s v else s

/-- BAND_REFRESH: every page of the band's snapshot that lies in the band is copied into a new band, then a new index, seal
page and catalog are written, and the old band is freed (R314). A reload defers it. -/
def bandRefresh (s : State) (b : Nat) (fails : List Nat) : State :=
  let e := bandAt s b
  match snapOf s e.owner with
  | none => s
  | some q =>
    if e.reads < 4194304 ∨ q.state ≠ 2 ∨ !floorReady s ∨ holding s ∨ (List.range 64).any (fun n => (fnSt s n).reload.isSome) then s
    else match readPage s q.sealFpa with
      | none => s
      | some sp =>
        let total := snapTotal s q
        let ords := (snapIndex s q).2.take total
        let moved := ords.filter (fun f => decide (f < 0xFFFFFFFE) && decide (f / 65536 = b))
        let (s, bands, fpas) := moved.foldl (fun st f => match readPage st.1 f with
          | some d => progSnap fails q.id st d
          | none => (st.1, st.2.1, st.2.2 ++ [indexAbsent])) (s, [], [])
        let map := moved.zip fpas
        let index := (ords.zipIdx).foldl (fun t o => tabPut t o.2 (some (((map.find? (fun p => decide (p.1 = o.1))).map (fun p => p.2)).getD o.1))) []
        let (s, bands, ips) := (indexPages index total).foldl (progSnap fails q.id) (s, bands, [])
        let body := (sp.take 0x100) ++ (ips.map (leBytes 4)).flatten
        let (s, bands, last) := progSnap fails q.id (s, bands, []) (checkedPage body)
        match last with
        | [] => s
        | sf :: _ =>
          let s := bands.foldl (fun s c => setBand s c { bandAt s c with state := 2 }) s
          let s := modSnap s q.id (fun e => { e with sealFpa := sf })
          let s := newCatalog fails s
          showFloor (setBand s b { bandAt s b with state := 0, owner := 0 })

end Sys2Proof.Machine
end

