-- ==== Sys2Proof/Machine/Fabric.lean ====
section
/-!
DEFINITION. The fabric port: headers and their check (R199, R200), sending, the dead-letter bin (R214), receipts
(R206), contributions in packets (R205), ownership (R216), the route map (R217 to R220), the egress arbiter (R210),
flow control (R211), link rates (R222), and the memory-form requests (R202).
-/

namespace Sys2Proof.Machine

/-! ### Header fields (Tables 8.3 to 8.5) -/

def hDst (p : Packet) : Nat := field p.hdr 0 4
def hSrc (p : Packet) : Nat := field p.hdr 4 4
def hType (p : Packet) : Nat := field p.hdr 8 1 % 32
def hTc (p : Packet) : Nat := field p.hdr 8 1 / 32
def hFlag (p : Packet) : Bool := bit (field p.hdr 9 1) 0
def hGen (p : Packet) : Nat := bits (field p.hdr 9 1) 1 1
def hPoison (p : Packet) : Bool := bit (field p.hdr 9 1) 2
def hLen (p : Packet) : Nat := field p.hdr 0xA 1
def hFn (p : Packet) : Nat := field p.hdr 0xB 1
def hTag (p : Packet) : Nat := field p.hdr 0xC 2
def hCheck (p : Packet) : Nat := field p.hdr 0xE 2
def hSlice (p : Packet) : Nat := bits (hDst p) 11 8
/-- Memory form. -/
def hOffset (p : Packet) : Nat := field p.hdr 0x10 6
def hBytes (p : Packet) : Nat := field p.hdr 0x16 2
def hStatus (p : Packet) : Nat := field p.hdr 0x18 1
def hSpace (p : Packet) : Nat := hOffset p / 2 ^ 44
def hAddr (p : Packet) : Nat := hOffset p % 2 ^ 44
/-- Coding form. -/
def hRow (p : Packet) : Nat := field p.hdr 0x10 4
def hStamp (p : Packet) : Nat := field p.hdr 0x14 4
def hEpoch (p : Packet) : Nat := field p.hdr 0x18 4
def hImg (p : Packet) : Nat := field p.hdr 0x1C 2
def hArea (p : Packet) : Nat := bits (field p.hdr 0x1E 1) 1 0
def hAreaGen (p : Packet) : Nat := bits (field p.hdr 0x1E 1) 3 2
def hLoad (p : Packet) : Bool := bit (field p.hdr 0x1E 1) 4
def hMember (p : Packet) : Nat := bits (field p.hdr 0x1F 1) 3 0
def hParity (p : Packet) : Nat := bits (field p.hdr 0x1F 1) 5 4
def hReceipt (p : Packet) : Nat := bits (field p.hdr 0x1F 1) 7 6

/-- HCHECK of a header (Table 8.3): the low 16 bits of its CRC-64 taken with HCHECK zero. -/
def headerCheck (hdr : List Byte) : Nat := crc64 (setField hdr 0xE 2 0) % 65536

/-- A whole header: common fields and the 16 bytes of its form, with HCHECK. -/
def mkHeader (dst src type tc flags len fn tag : Nat) (form : List Byte) : List Byte :=
  let h := leBytes 4 dst ++ leBytes 4 src ++ leBytes 1 (tc * 32 + type) ++ leBytes 1 flags ++ leBytes 1 len ++
    leBytes 1 fn ++ leBytes 2 tag ++ leBytes 2 0 ++ fit 16 form
  setField h 0xE 2 (headerCheck h)

/-- The memory form (Table 8.4). -/
def memForm (offset nbytes status : Nat) : List Byte := leBytes 6 offset ++ leBytes 2 nbytes ++ leBytes 1 status ++ zeros 7

/-- The coding form (Table 8.5). -/
def codingForm (row stamp epoch img areaByte memberByte : Nat) : List Byte :=
  leBytes 4 row ++ leBytes 4 stamp ++ leBytes 4 epoch ++ leBytes 2 img ++ leBytes 1 areaByte ++ leBytes 1 memberByte

/-- FLAGS byte of a header. -/
def flagsByte (flag : Bool) (gen : Nat) : Nat := b2n flag + 2 * (gen % 2)

/-- The AREA byte of a coding header (Table 8.5). -/
def areaByte (area gen : Nat) (load : Bool) : Nat := area + 4 * gen + (if load then 16 else 0)

/-- A payload padded to whole 64-byte units. -/
def padPayload (bs : List Byte) : List Byte := bs ++ zeros (roundUp bs.length 64 - bs.length)

/-- Wire bytes of a packet: 32 + LEN × 64 (R210). -/
def wireBytes (p : Packet) : Nat := 32 + hLen p * 64

/-- Put a packet into its class's egress queue. -/
def sendPacket (s : State) (p : Packet) : State := { s with egress := s.egress ++ [p] }

/-- The GEN number of the function's current route generation. -/
def curGen (s : State) (n : Nat) : Nat := (fnSt s n).route.number % 2

/-! ### The header check (R200) -/

/-- Is the class allowed for the type (Table 8.6)? -/
def typeClassOk (p : Packet) : Bool :=
  let t := hType p
  let c := hTc p
  if t = 1 then decide (3 ≤ c)
  else if t = 2 then decide (3 ≤ c)
  else if t = 3 then decide (2 ≤ c)
  else if t = 4 ∨ t = 5 ∨ t = 6 then decide (c = 6)
  else if t = 8 ∨ t = 9 ∨ t = 10 then decide (c = 1)
  else if t = 11 then decide (3 ≤ c) && decide (c ≤ 5)
  else if t = 16 then decide (c = 0)
  else false

/-- Is the type a coding type (FOLD, NULL_DELTA, RECEIPT, LEAF_PUT)? -/
def isCoding (t : Nat) : Bool := decide (t = 8 ∨ t = 9 ∨ t = 10 ∨ t = 11)

/-- Is the type a memory-form request? -/
def isRequest (t : Nat) : Bool := decide (t = 1 ∨ t = 3 ∨ t = 4 ∨ t = 5)

/-- Does the space accept the request type in its class, with its FN (Table 8.2)? -/
def spaceOk (p : Packet) : Bool :=
  let sp := hSpace p
  let t := hType p
  let c := hTc p
  if sp = 0 then decide (3 ≤ c) && decide (c ≤ 6)
  else if sp = 1 then decide (t = 3 ∨ t = 4) && decide (c = 6 ∨ c = 7)
  else if sp = 2 then decide (t = 3) && decide (c = 2) && decide (hAddr p = 0)
  else if sp = 3 then decide (t = 1 ∨ t = 3) && decide (c = 7) && decide (hFn p = 0)
  else false

/-- A header with none of the faults of R200. -/
def headerOk' (p : Packet) : Bool :=
  let t := hType p
  decide (p.hdr.length = 32) && decide (hCheck p = headerCheck p.hdr) && typeClassOk p && decide (hLen p ≤ 64) &&
  decide (p.payload.length = hLen p * 64) && decide (field p.hdr 9 1 < 8) && decide (hFn p < 64) &&
  decide (hDst p % 8 = 0) && decide (hSrc p % 8 = 0) &&
  (if isCoding t then
     decide (field p.hdr 0x1E 1 < 32) && decide (hArea p ≤ 1) && decide (hImg p ≤ 1023) &&
     (decide (t = 10) || decide (hReceipt p = 0)) && (decide (t = 8 ∨ t = 11) || decide (hLen p = 0))
   else if t = 16 then true
   else
     allZero ((p.hdr.drop 0x19).take 7) && decide (hOffset p % 8 = 0) && decide (hBytes p % 8 = 0) &&
     decide (hBytes p ≤ 4096) &&
     (if t = 1 then decide (hLen p = 0)
      else if t = 3 ∨ t = 2 then decide (hBytes p ≤ hLen p * 64)
      else decide (hLen p = 1) && decide (hBytes p = 8)) &&
     (!isRequest t || (decide (hStatus p = 0) && spaceOk p)))

/-! ### Dead-letter bin (R214) -/

/-- Store a byte list as consecutive register words from a window offset. -/
def wordsAt (s : State) (a : Nat) (bs : List Byte) : Nat → State
  | 0 => s
  | n + 1 => wordsAt (setWord s (a + 4 * n) (BitVec.ofNat 32 (field bs (4 * n) 4))) a bs n

/-- Bin a packet with a cause (R214, Tables 8.12 and 8.13). -/
def bin (s : State) (p : Packet) (cause slice : Nat) : State :=
  let first := decide (getF s pgPort PORT_DLB_STATUS_WRAPPED = 0) && decide (getF s pgPort PORT_DLB_COUNT_TOTAL = 0)
  let i := getF s pgPort PORT_DLB_STATUS_NEXT
  let entry := fit 32 p.hdr ++ leBytes 8 s.counter ++ leBytes 1 cause ++ leBytes 1 slice ++ zeros 6
  let used := s.dlbUsed
  let s := wordsAt s (pgPort + 0x400 + 48 * i) entry 12
  let s := { s with dlbUsed := min 64 (used + 1) }
  let s := if used = 64 then flagF s pgPort PORT_DLB_STATUS_WRAPPED else s
  let s := setF s pgPort PORT_DLB_STATUS_NEXT (i + 1)
  let s := addF s pgPort PORT_DLB_COUNT_TOTAL 1
  let s := errUnit s HDR_ERR_SUMMARY_FABRIC pgPort
  if first then postEvent s 0 0x0030 entry else s

/-- Count a memory-form packet dropped without response (R200, R202). -/
def storeDrop (s : State) : State :=
  errUnit (addF s pgPort PORT_COUNT_STORE_DROP 1) HDR_ERR_SUMMARY_FABRIC pgPort

/-- A poisoned delivery from a region's crossbar ports: counted, and the 16th within 2^20 ticks fences the region
(R339). -/
def notePoison (s : State) (sl : Nat) : State :=
  let q := sl / 4
  let s := addF s (pgRegion q) Q_FENCE_POISON 1
  let recent := (s.poisons.filter (fun e => decide (e.1 = q) && decide (s.ticks < e.2 + 2 ^ 20))) ++ [(q, s.ticks)]
  let others := s.poisons.filter (fun e => decide (e.1 ≠ q))
  let s := { s with poisons := others ++ recent }
  let s := errUnit s HDR_ERR_SUMMARY_FABRIC pgPort
  if 16 ≤ recent.length ∧ getF s (pgRegion q) Q_FENCE_FENCED = 0 then
    postEvent (flagF s (pgRegion q) Q_FENCE_FENCED) 0 0x0075 (leBytes 1 q)
  else s

/-! ### Receipts (R206) -/

/-- Send a RECEIPT for a coding packet: `status` by Table 8.7, `tag` the refused packet's index or zero. It goes to the
packet's SRC and names the function there as the packet's member record names it. -/
def sendReceipt (s : State) (n : Nat) (dst src fnThere row stamp areaB holder par status tag : Nat) : State :=
  if (fnSt s n).mute then s else
  let s := if status = 0 then s else addF s pgPort PORT_COUNT_REFUSALS 1
  let s := if status = 0 then s else errUnit s HDR_ERR_SUMMARY_FABRIC pgPort
  sendPacket s ⟨mkHeader dst src 10 1 (flagsByte false (curGen s n)) 0 fnThere tag
    (codingForm row stamp (fnSt s n).epoch 0 areaB (holder + 16 * par + 64 * status)), []⟩

/-- The function number a member's die gives the job, from the member record (Table 8.15). -/
def fnAtMember (x : FnSt) (m j : Nat) : Nat := routeFn (memberDie x m j)

/-- Answer a received coding packet with a receipt. -/
def answerReceipt (s : State) (n : Nat) (p : Packet) (status : Nat) : State :=
  let x := fnSt s n
  sendReceipt s n (hSrc p) (hDst p) (fnAtMember x (hMember p) (hRow p)) (hRow p) (hStamp p) (field p.hdr 0x1E 1)
    x.self (hParity p) status (if status = 0 then 0 else hImg p / 64)

/-! ### Contributions as packets (R205) -/

/-- Payload bytes of packet `i` of an image of 65,344 bytes, or of a slot of 65,536. -/
def partBytes (total i : Nat) : Nat := min 4096 (total - 4096 * i)

/-- Packet `i` of a contribution or leaf put: type 8 FOLD (class 1) or 11 LEAF_PUT (class `tc`). -/
def partPacket (type tc dst src fn gen row stamp epoch areaB memberB total : Nat) (img : List Byte) (i : Nat) : Packet :=
  let body := (img.drop (4096 * i)).take (partBytes total i)
  let last := decide (i = 15)
  ⟨mkHeader dst src type tc (flagsByte last gen) (partBytes total i / 64) fn (if last then 16 else 0)
    (codingForm row stamp epoch (64 * i) areaB memberB), body⟩

/-- The endpoint of slice `sl`, core 0, of a die (R197, R204). -/
def sliceEndpoint (die sl : Nat) : Nat := dieBits die + sl * 256

/-- A translation that met no VALID entry (R217). -/
def routeInvalid (s : State) (n id : Nat) : State :=
  postEvent (errFn (flagF s (pgFn n) FN_PORT_STATUS_ROUTE_INVALID) HDR_ERR_SUMMARY_FABRIC n) n 0x0033 (leBytes 4 id)

/-- Send the packets of a wait of function `n` to one holder, LEAF_PUTs in class `k`: 16 FOLDs of the image scaled by the
holder's coefficient, one NULL_DELTA, or 16 LEAF_PUTs (R205). A null leaf put is the postmark alone, sent first in a
rejoin as one flagged LEAF_PUT of 256 bytes (R284). Nothing is sent to an entry with VALID clear (R217). -/
def sendTo (s : State) (w : Wait) (k n : Nat) (h : WaitHolder) : State :=
  if (fnSt s n).mute then s
  else if routeValid h.dst = false then
    routeInvalid s n ((match grpOf (fnSt s n) with | some g => g.routeBase | none => 0) + h.member)
  else
  let src := sliceEndpoint (selfDie s) w.slice
  let dst := sliceEndpoint h.dst w.slice
  let areaB := areaByte w.area w.gen (decide (w.kind = .load))
  let memberB := w.member + 16 * h.p
  let members := match grpOf (fnSt s n) with | some g => g.n | none => 1
  if w.isNull ∧ w.kind = .put then
    sendPacket s ⟨mkHeader dst src 11 k (flagsByte true w.routeGen) 4 (routeFn h.dst) 1
      (codingForm w.row (low32 w.stamp) w.epoch 0 areaB memberB), memReadN w.image 0 256⟩
  else if w.isNull then
    sendPacket s ⟨mkHeader dst src 9 1 (flagsByte true w.routeGen) 0 (routeFn h.dst) 0
      (codingForm w.row (low32 w.stamp) w.epoch 0 areaB memberB), []⟩
  else
    let total := if w.kind = .put then 65536 else 65344
    let raw := memReadN w.image 0 total
    let img := if w.kind = .put then raw else gfScale (coeff h.p (roleOf members w.member w.row)) raw
    let type := if w.kind = .put then 11 else 8
    (List.range 16).foldl (fun s i => sendPacket s (partPacket type k dst src (routeFn h.dst) w.routeGen w.row
      (low32 w.stamp) w.epoch areaB memberB total img i)) s

/-! ### Ownership (R216) -/

/-- The mode the ownership table gives a request: 0 NONE, 1 READ, 2 OWN; the lowest-indexed matching entry decides. -/
def ownMode (own : List OwnEntry) (dst off len : Nat) : Nat :=
  match own.find? (fun e => decide (dst &&& e.mask = e.endpoint &&& e.mask) && decide (e.offBase ≤ off) &&
    decide (off + len ≤ e.offLimit)) with
  | some e => if e.mode = 1 ∨ e.mode = 2 then e.mode else 0
  | none => 0

/-- A request refused by the ownership table (R216). -/
def ownRefused (s : State) (n dst off : Nat) : State :=
  postEvent (errFn (flagF s (pgFn n) FN_PORT_STATUS_OWN_REFUSED) HDR_ERR_SUMMARY_FABRIC n) n 0x0032
    (leBytes 4 dst ++ leBytes 8 off)

/-! ### Route generations (R218 to R220) -/

/-- The staged generation of function `n` becomes current and the former one the shadow (R218). -/
def routeSwitch (s : State) (n : Nat) : State :=
  let x := fnSt s n
  match x.routeStaged with
  | none => s
  | some (g, _) =>
    setFnSt s n { x with route := g, routeStaged := none, routeShadow := some x.route,
                         routeSwitches := (x.routeSwitches + 1) % 65536, shadowZeroAt := none }

/-- Old-generation packets in flight (R220): issued under the shadow and still in egress, awaiting a response or a
WRITTEN receipt, or received under the shadow's GEN and not yet applied (held). -/
def oldInFlight (s : State) (n : Nat) : Nat :=
  match (fnSt s n).routeShadow with
  | none => 0
  | some g =>
    let b := g.number % 2
    (s.egress.filter (fun p => decide (hGen p = b) &&
      g.entries.any (fun e => decide (dieBits e = dieBits (hDst p)) && decide (routeFn e = hFn p)))).length +
    (s.waits.filter (fun w => decide (w.fn = n) && decide (w.routeGen % 2 = b) && w.sent)).length +
    (s.requests.filter (fun r => decide (r.fn = n) && decide (r.routeGen % 2 = b))).length +
    (s.held.filter (fun e => decide (hFn e.2 = n) && decide (hGen e.2 = b))).length

/-! ### Link rates (R221, R222) -/

/-- Bandwidth of a lane code in GB/s (Table 8.16). -/
def laneRate (code : Nat) : Nat := [0, 8, 16, 32, 64, 128].getD code 0

/-- Lane code of link `i` in LY_PORT_LINKk. -/
def laneCode (s : State) (i : Nat) : Nat := bits (wordAt s (pgPort + 0x058 + 4 * (i / 8))).toNat (4 * (i % 8) + 3) (4 * (i % 8))

/-- The sum over the 32 links (R221). -/
def aggregate (s : State) : Nat := ((List.range 32).map (fun i => laneRate (laneCode s i))).sum

/-- Recompute the port rate and DEGRADED (R222). -/
def setRate (s : State) : State :=
  let rate := min 1600 (getF s pgPort PORT_LINK_SHARE_SHARE * aggregate s / 100)
  setF (setF s pgPort PORT_STATUS_RATE rate) pgPort PORT_STATUS_DEGRADED (b2n (decide (rate < 1600)))

/-! ### The egress arbiter (R210) -/

/-- Weight of class `tc` (1 to 7). -/
def tcWeight (s : State) (tc : Nat) : Nat :=
  if tc ≤ 4 then bits (wordAt s (pgPort + 0x044)).toNat (8 * tc - 1) (8 * (tc - 1))
  else bits (wordAt s (pgPort + 0x048)).toNat (8 * (tc - 4) - 1) (8 * (tc - 5))

/-- Cap of class `tc` in percent (1 to 7). -/
def tcCap (s : State) (tc : Nat) : Nat :=
  if tc ≤ 4 then bits (wordAt s (pgPort + 0x04C)).toNat (8 * tc - 1) (8 * (tc - 1))
  else bits (wordAt s (pgPort + 0x050)).toNat (8 * (tc - 4) - 1) (8 * (tc - 5))

/-- The 4-bit weight of function `n` in class `tc`, limited by WEIGHT_CAP (R210, R366). FN0's PORT_WEIGHT is absent and
reads zero; it takes no grant, so its packets count with weight 1. -/
def fnWeight (s : State) (n tc : Nat) : Nat :=
  if n = 0 then 1
  else min (bits (forceAt s (pgFn n + 0x168)).toNat (4 * tc - 1) (4 * (tc - 1)))
    (bits (wordAt s (0x100 + 4 * n)).toNat 18 15)

/-- Which function of this die a queued packet belongs to: the sender keeps it with the packet. -/
def egressFn (p : Packet) : Nat := hFn p

/-- The packets of class `tc` in the egress queue. -/
def classQueue (s : State) (tc : Nat) : List Packet := s.egress.filter (fun p => decide (hTc p = tc))

/-- Bytes a class's cap adds in one tick, in hundredths (R210): cap/100 × port_bytes_per_tick, and
port_bytes_per_tick is the port rate in GB/s × 1.25. Kept as tokens in units of 1/400 byte. -/
def capRefill (s : State) (tc : Nat) : Nat := tcCap s tc * getF s pgPort PORT_STATUS_RATE * 5

/-- Refill the caps of TC1 to TC7 for the ticks since the last call (R210). -/
def refill (s : State) : State :=
  let dt := s.ticks - s.arbTick
  let tokens := (List.range 8).map (fun tc =>
    if tc = 0 then 0 else min (s.tokens.getD tc 0 + dt * capRefill s tc) (65536 * 400))
  { s with tokens := tokens, arbTick := s.ticks }

/-- The head packet of a class among its functions, by the functions' deficits (R210): the first packet of the function
whose turn it is. A function with weight zero waits for the others. -/
def classHead (s : State) (tc : Nat) : Option Packet :=
  let q := classQueue s tc
  let live := q.filter (fun p => decide (0 < fnWeight s (egressFn p) tc))
  let cand := if live.isEmpty then q else live
  match s.fnTurn.getD tc none with
  | some n => match cand.find? (fun p => decide (egressFn p = n)) with
    | some p => some p
    | none => cand.head?
  | none => cand.head?

/-- The classes ready to send (R210). -/
def readyClasses (s : State) : List Nat :=
  [1, 2, 3, 4, 5, 6, 7].filter (fun tc =>
    match classHead s tc with
    | none => false
    | some p => !bit (getF s pgPort PORT_STATUS_XOFF_IN) (tc - 1) && decide (wireBytes p * 400 ≤ s.tokens.getD tc 0))

/-- Replace the entry of one of the eight classes. -/
def listSet (l : List Nat) (i v : Nat) : List Nat := (List.range 8).map (fun k => if k = i then v else l.getD k 0)

/-- The deficit loop of R210 over the live classes, with fuel enough for one packet of any size. -/
def pickClass (s : State) (live : List Nat) : Nat → State × Option Nat
  | 0 => (s, none)
  | fuel + 1 =>
    let tc := live.getD (s.turn % live.length) 1
    match classHead s tc with
    | none => (s, none)
    | some p =>
      if wireBytes p ≤ s.deficit.getD tc 0 then
        ({ s with deficit := listSet s.deficit tc (s.deficit.getD tc 0 - wireBytes p),
                  tokens := listSet s.tokens tc (s.tokens.getD tc 0 - wireBytes p * 400) }, some tc)
      else
        pickClass { s with deficit := listSet s.deficit tc (s.deficit.getD tc 0 + max (tcWeight s tc) 1 * 64),
                           turn := s.turn + 1 } live fuel

/-- Hand a packet to the links: it leaves egress and joins what the die has sent. -/
def handOff (s : State) (p : Packet) : State :=
  let s := { s with egress := s.egress.erase p, sent := s.sent ++ [p] }
  let tc := hTc p
  if (classQueue s tc).isEmpty then { s with deficit := listSet s.deficit tc 0 } else s

/-- After a packet of function `n` the class's turn passes on once the function has spent its weight (R210). -/
def passTurn (s : State) (tc : Nat) (p : Packet) : State :=
  let key := tc * 64 + egressFn p
  let d := tabGet 0 s.fnDeficit key
  let d := if d < wireBytes p then d + max (fnWeight s (egressFn p) tc) 1 * 4160 else d
  let d := d - wireBytes p
  let others := (classQueue s tc).filter (fun q => decide (egressFn q ≠ egressFn p))
  let next := if d < wireBytes p then (others.head?.map egressFn) else some (egressFn p)
  { s with fnDeficit := tabSet 0 s.fnDeficit key d, fnTurn := (List.range 8).map (fun k => if k = tc then next else s.fnTurn.getD k none) }

/-- next_packet of R210: the arbiter hands one packet to the links, if any is ready. -/
def arbitrate (s : State) : State :=
  match (classQueue s 0).head? with
  | some p => handOff s p
  | none =>
    let s := refill s
    let ready := readyClasses s
    if ready.isEmpty then s else
    let live := ready.filter (fun tc => decide (0 < tcWeight s tc))
    let live := if live.isEmpty then ready else live
    match pickClass s live 1024 with
    | (s, some tc) =>
      (match classHead s tc with
       | some p => handOff (passTurn s tc p) p
       | none => s)
    | (s, none) => s

end Sys2Proof.Machine
end

