-- ==== Sys2Proof/Machine/Collective.lean ====
section
/-!
DEFINITION. Collectives: layouts and their operations (R230 to R233), FIFE packets (R242), scopes (R225), the combining
trees (R240), opening, combining, results, re-forming and cancelling (R226 to R228, R233). A collective that closes at
this participant is put on the agenda as `collDone`.
-/

namespace Sys2Proof.Machine

/-! ### Layouts (R230, Table 9.4) -/

/-- Operations of elements. -/
inductive CollOp where
  | sum | min | max | or | and
  deriving DecidableEq, Repr

/-- Elements of a layout with their limbs; none for a reserved layout. -/
def layoutElems (l : Nat) : Option (List (CollOp × Nat)) :=
  [some [], some [(.sum, 20), (.sum, 2), (.or, 1)], some [(.sum, 2)], some [(.sum, 20)], some [(.min, 2), (.max, 2)],
   some [(.min, 2)], some [(.max, 2)], some [(.or, 2)], some [(.and, 2)]].getD l none

/-- Limbs of a value, in the sending order of its operation (R230). -/
def elemLimbs (op : CollOp) (k v : Nat) : List Nat :=
  let l := (List.range k).map (fun i => v / 2 ^ (32 * i) % 2 ^ 32)
  if op = .min ∨ op = .max then l.reverse else l

/-- The value of limbs. -/
def elemValue (op : CollOp) (l : List Nat) : Nat :=
  let l := if op = .min ∨ op = .max then l.reverse else l
  l.foldr (fun x acc => x % 2 ^ 32 + 2 ^ 32 * acc) 0

/-- All limbs of the values of a layout. -/
def valsLimbs (es : List (CollOp × Nat)) (vals : List Nat) : List Nat :=
  ((es.zip vals).map (fun x => elemLimbs x.1.1 x.1.2 x.2)).flatten

/-- The values that limbs hold. -/
def limbsVals : List (CollOp × Nat) → List Nat → List Nat
  | [], _ => []
  | (op, k) :: es, l => elemValue op (l.take k) :: limbsVals es (l.drop k)

/-- The operation on two values of a width of `k` limbs (R230). -/
def elemOp (op : CollOp) (k a b : Nat) : Nat :=
  match op with
  | .sum => (a + b) % 2 ^ (32 * k)
  | .min => if signed (32 * k) a ≤ signed (32 * k) b then a else b
  | .max => if signed (32 * k) a ≤ signed (32 * k) b then b else a
  | .or => a ||| b
  | .and => a &&& b

/-- Combine the values of two contributions (R232). -/
def combineVals (es : List (CollOp × Nat)) (a b : List Nat) : List Nat :=
  (es.zip (a.zip b)).map (fun x => elemOp x.1.1 x.1.2 x.2.1 x.2.2)

/-- The residue of a value of `k` limbs: the sum of its bytes mod 255 (R233). -/
def residueOf (k v : Nat) : Nat := (((leBytes (4 * k) v).map BitVec.toNat).sum) % 255

/-- The residues that travel with values: one for each SUM element (R233). -/
def residues (es : List (CollOp × Nat)) (vals : List Nat) : List Nat :=
  ((es.zip vals).filter (fun x => decide (x.1.1 = .sum))).map (fun x => residueOf x.1.2 x.2)

/-! ### FIFE packets (R242, Table 9.6) -/

/-- The Fife form. -/
def fifeForm (kind slot seq layoutPart count status cause value : Nat) : List Byte :=
  leBytes 1 kind ++ leBytes 1 slot ++ leBytes 1 seq ++ leBytes 1 layoutPart ++ leBytes 2 count ++ leBytes 1 status ++
    leBytes 1 cause ++ leBytes 8 value

def fKind (p : Packet) : Nat := field p.hdr 0x10 1
def fSlot (p : Packet) : Nat := field p.hdr 0x11 1
def fSeq (p : Packet) : Nat := field p.hdr 0x12 1
def fLayout (p : Packet) : Nat := bits (field p.hdr 0x13 1) 3 0
def fPart (p : Packet) : Nat := bits (field p.hdr 0x13 1) 4 4
def fCount (p : Packet) : Nat := field p.hdr 0x14 2
def fStatus (p : Packet) : Nat := field p.hdr 0x16 1
def fCause (p : Packet) : Nat := field p.hdr 0x17 1
def fValue (p : Packet) : Nat := field p.hdr 0x18 8

/-- Send one FIFE packet to a route entry's die and function. -/
def sendFife (s : State) (n entry : Nat) (form payload : List Byte) : State :=
  let pl := padPayload payload
  sendPacket s ⟨mkHeader (dieBits entry) (selfDie s) 0x10 0 (flagsByte false (curGen s n)) (pl.length / 64)
    (routeFn entry) 0 form, pl⟩

/-- Send an OPEN or RESULT with values: one part, or two when the layout has more than 16 limbs (R242). -/
def sendVals (s : State) (n entry kind slot seq layout count status value : Nat) (vals : List Nat) : State :=
  let es := (layoutElems layout).getD []
  let limbs := valsLimbs es vals
  let tail := (residues es vals).map (fun r => BitVec.ofNat 8 r)
  let bytes := fun (l : List Nat) => (l.map (leBytes 4)).flatten
  if limbs.length ≤ 16 then
    sendFife s n entry (fifeForm kind slot seq (layout + 32) count status 0 value) (bytes limbs ++ tail)
  else
    sendFife (sendFife s n entry (fifeForm kind slot seq layout count status 0 value) (bytes (limbs.take 16)))
      n entry (fifeForm kind slot seq (layout + 48) count status 0 value) (bytes (limbs.drop 16) ++ tail)

/-! ### Scopes (R225, R260) -/

/-- Insert a route entry into a list sorted by die, one entry for each die. -/
def insertDie (e : Nat) : List Nat → List Nat
  | [] => [e]
  | x :: xs => if dieBits e < dieBits x then e :: x :: xs else if dieBits e = dieBits x then x :: xs else x :: insertDie e xs

/-- A list of route entries sorted by die. -/
def sortDies (l : List Nat) : List Nat := l.foldl (fun acc e => insertDie e acc) []

/-- The live members of the die's group, as route entries. -/
def groupSet (x : FnSt) : List Nat := sortDies ((x.members.filter (fun m => m.live)).map (fun m => m.die))

/-- The members of the other groups that the current route generation translates. -/
def otherDies (x : FnSt) : List Nat :=
  match x.manifest with
  | none => []
  | some m => ((m.groups.filter (fun g => decide (g.group ≠ x.group))).map (fun g =>
      (List.range g.n).filterMap (fun i => routeEntry x.route (g.routeBase + i)))).flatten

/-- The live set of the function (R260). -/
def liveSet (x : FnSt) : List Nat := sortDies (x.members.filterMap (fun m => if m.live then some m.die else none) ++ otherDies x)

/-- The chassis of an endpoint. -/
def chassisOf (e : Nat) : Nat := e / 2 ^ 22

/-- The relays: of each chassis the participant with the lowest endpoint (R240). The list is sorted by endpoint and so by
chassis. -/
def relaysOf : List Nat → List Nat
  | [] => []
  | e :: es => e :: (relaysOf es).filter (fun x => decide (chassisOf x ≠ chassisOf e))

/-- Position of this die in a list of nodes. -/
def myIndex (s : State) (nodes : List Nat) : Option Nat := nodes.findIdx? (fun e => decide (dieBits e = selfDie s))

/-- Route entries of the children of node `i` (R240). -/
def childrenOf (nodes : List Nat) (i : Nat) : List Nat :=
  (List.range 4).filterMap (fun c => nodes[4 * i + 1 + c]?)

/-! ### Slots -/

/-- The slot at an offset. -/
def collAt (x : FnSt) (off : Nat) : Coll := tabGet {} x.colls off

/-- Write the slot at an offset, and LY_FNn_FIFE_STATUS.OPEN with it. -/
def setColl (s : State) (n off : Nat) (c : Coll) : State :=
  let s := modFn s n (fun x => { x with colls := tabSet {} x.colls off c })
  setFnF s n FN_FIFE_STATUS_OPEN (putBit (fnF s n FN_FIFE_STATUS_OPEN) off c.opened)

/-- The Fife slot number of a slot offset. -/
def slotNo (s : State) (n off : Nat) : Nat := (forceF s n FN_FIFE_CTRL_SLOT_BASE + off) % 256

/-- The slot offset of a Fife slot number of a function. -/
def slotOff (s : State) (n slot : Nat) : Option Nat :=
  let b := forceF s n FN_FIFE_CTRL_SLOT_BASE
  if b ≤ slot ∧ slot < b + 8 then some (slot - b) else none

/-- Queue a message on the line (R251). -/
def lineQueue (s : State) (kind slot seq : Nat) (frames : List Nat) : State :=
  { s with lineOut := s.lineOut ++ [⟨kind, slot, seq, frames, 0, none, 0⟩] }

/-- The DATA and RESIDUE frames of values (Table 9.10). -/
def dataFrames (layout : Nat) (vals : List Nat) : List Nat :=
  let es := (layoutElems layout).getD []
  let limbs := valsLimbs es vals
  let r := residues es vals
  (List.range limbs.length).map (fun i => 0x2 * 2 ^ 36 + (i % 16) * 2 ^ 32 + limbs.getD i 0) ++
    (if r.isEmpty then [] else [0x3 * 2 ^ 36 + r.getD 1 0 * 256 + r.getD 0 0])

/-- KEY: the low 5 bits of JOB_ID. -/
def keyOf (x : FnSt) : Nat := match x.manifest with | some m => m.jobId % 32 | none => 0

/-- Messages of a collective that have not begun to be sent, or wait for their ACK, are dropped with it: OPEN and RELAY of
its slot and SEQ. -/
def lineDrop (s : State) (slot seq : Nat) : State :=
  { s with lineOut := s.lineOut.filter (fun m =>
      !(decide (m.slot = slot) && decide (m.seq = seq) && decide (m.kind = 1 ∨ m.kind = 6) &&
        (decide (m.next = 0) || decide (m.frames.length ≤ m.next)))) }

/-- End the use of a slot: its SEQ increments and everything of the collective is dropped (R228). -/
def collEnd (s : State) (n off : Nat) : State :=
  let c := collAt (fnSt s n) off
  setColl (lineDrop s (slotNo s n off) c.seq) n off { seq := (c.seq + 1) % 256 }

/-- The participants of slot offset `off` under the current record: group scope for the group barrier and for the abort
and resume barriers of an epoch bump, the permute set, and function scope otherwise (Tables 9.1 and 9.2). -/
def scopeSet (x : FnSt) (off : Nat) : List Nat :=
  if off = 1 then groupSet x
  else if (off = 3 ∨ off = 4) ∧ x.abortAlone = true then [memberDie x x.self 0]
  else if (off = 3 ∨ off = 4) ∧ x.abortGroup = true then groupSet x
  else if off = 6 then sortDies x.permuteSet
  else liveSet x

/-- Does the slot's collective run on the line (Table 9.2, R241)? -/
def onLine (s : State) (n off : Nat) : Bool :=
  decide (fnF s n FN_FIFE_STATUS_PATH_ACTIVE = 0) &&
    !(decide (off = 1) || decide (off = 6) || (decide (off = 3 ∨ off = 4) && (fnSt s n).abortGroup))

/-- Deliver the machine's or tree's result: down to the children, and at this die (R227, R240). A relay hands it to the
hub instead and closes when the hub's FINAL result comes. -/
def collResult (s : State) (n off status cval : Nat) (vals : List Nat) : State :=
  let c := collAt (fnSt s n) off
  let kids := match myIndex s c.nodes with
    | some i => childrenOf c.nodes i
    | none => []
  let s := kids.foldl (fun s e => sendVals s n e 5 (slotNo s n off) c.seq c.layout 0 status cval vals) s
  if c.line then
    lineQueue s 6 (slotNo s n off) c.seq
      ((0x6 * 2 ^ 36 + slotNo s n off * 2 ^ 28 + c.seq * 2 ^ 20 + status * 2 ^ 16) ::
        ([0x2 * 2 ^ 36 + cval % 2 ^ 32, 0x2 * 2 ^ 36 + 2 ^ 32 + cval / 2 ^ 32 % 2 ^ 32] ++ dataFrames c.layout vals))
  else todo s (.collDone n off status cval vals)

/-- Combine at this node once it has its own part and every child's (R240): the root closes with its counter (R227), any
other node sends the combined message to its parent. -/
def collCombine (s : State) (n off : Nat) : State :=
  let c := collAt (fnSt s n) off
  match c.tree, myIndex s c.nodes with
  | some (v, k), some i =>
    let es := (layoutElems c.layout).getD []
    let need := childrenOf c.nodes i
    let have_ := need.filterMap (fun e => c.kids.find? (fun q => decide (q.die = dieBits e)))
    if have_.length < need.length ∨ c.up = true then s
    else
      let vals := have_.foldl (fun acc q => combineVals es acc q.vals) v
      let count := have_.foldl (fun acc q => acc + q.count) k
      let good := c.treeGood && have_.all (fun q => q.good)
      let s := setColl s n off { c with up := true }
      if i = 0 then collResult s n off (if good then 0 else 3) s.counter vals
      else match c.nodes[(i - 1) / 4]? with
        | some p => sendVals s n p 1 (slotNo s n off) c.seq c.layout count (if good then 0 else 3) 0 vals
        | none => s
  | _, _ => s

/-- Open slot `off` with values: on the line, an OPEN message to the hub; else into the tree (R224, R240, R251). During a
firmware switch the opening waits (R395). -/
def collOpen (s : State) (n off layout : Nat) (vals : List Nat) : State :=
  if switching s then todo s (.openColl n off layout vals) else
  let x := fnSt s n
  let c := collAt x off
  let parts := scopeSet x off
  if onLine s n off then
    let mine := parts.filter (fun e => decide (chassisOf e = chassisOf (selfDie s)))
    let multi := decide (mine.length < parts.length)
    let nodes := if multi then relaysOf parts else []
    let s := setColl s n off { c with opened := true, layout := layout, mine := vals, parts := parts, nodes := nodes,
                                      line := true, tree := none, up := false, delivered := false }
    lineQueue s 1 (slotNo s n off) c.seq
      ((0x1 * 2 ^ 36 + slotNo s n off * 2 ^ 28 + c.seq * 2 ^ 20 + layout * 2 ^ 16 + (mine.length - 1) * 2 ^ 6 +
        b2n multi * 32 + keyOf x) :: dataFrames layout vals)
  else
    collCombine (setColl s n off { c with opened := true, layout := layout, mine := vals, parts := parts, nodes := parts,
                                          line := false, tree := some (vals, 1), treeGood := true, up := false,
                                          delivered := false }) n off

/-- Re-form slot `off` (R226, R228): the next SEQ, the new set, and the arrival again if this die had arrived. -/
def collReform (s : State) (n off : Nat) : State :=
  let c := collAt (fnSt s n) off
  if c.opened || !c.kids.isEmpty then
    let s := addF s (pgFn n) FN_FIFE_COUNT_REFORMS 1
    let s := setColl (lineDrop s (slotNo s n off) c.seq) n off { seq := (c.seq + 1) % 256, retried := c.retried }
    if c.opened then collOpen s n off c.layout c.mine else s
  else s

/-- Cancel slot `off` (R228, R238): every child of a held collective is answered with the status, and the use ends. -/
def collCancel (s : State) (n off status : Nat) : State :=
  let c := collAt (fnSt s n) off
  if c.opened || !c.kids.isEmpty then
    let s := c.kids.foldl (fun s q => sendFife s n (q.die + (c.nodes.find? (fun e => decide (dieBits e = q.die))).getD 0 % 4096)
      (fifeForm 4 (slotNo s n off) c.seq c.layout 0 status 0 0) []) s
    collEnd s n off
  else s

/-- A message of a newer SEQ cancels the held collective: each participant is answered CANCELLED, the slot takes the newer
SEQ, and an arrival of this die opens again at once under it (R226, R228). -/
def collNewer (s : State) (n off seq : Nat) : State :=
  let c := collAt (fnSt s n) off
  let s := collCancel s n off 1
  let s := setColl s n off { seq := seq }
  if c.opened && decide (off ≠ 0) then collOpen s n off c.layout c.mine else s

/-- Is SEQ `a` newer than `b` (R228)? -/
def seqNewer (a b : Nat) : Bool :=
  let d := (a + 256 - b) % 256
  decide (1 ≤ d) && decide (d ≤ 127)

/-- Values and residue check of the parts of a message (R233, R242). -/
def messageVals (layout : Nat) (limbs : List Nat) (tail : List Byte) : List Nat × Bool :=
  let es := (layoutElems layout).getD []
  let vals := limbsVals es limbs
  let r := residues es vals
  (vals, decide (r = (tail.take r.length).map BitVec.toNat))

/-- The limbs in a payload of `k` limbs. -/
def payloadLimbs (pl : List Byte) (k : Nat) : List Nat := (List.range k).map (fun i => field pl (4 * i) 4)

/-- Join a FIFE message's parts: the values and whether the residues hold, once its LAST part is here. -/
def joinParts (s : State) (n off : Nat) (p : Packet) : State × Option (List Nat × Bool) :=
  let total := ((layoutElems (fLayout p)).getD []).foldl (fun a e => a + e.2) 0
  let c := collAt (fnSt s n) off
  let same := fun (h : Half) => decide (h.die = dieBits (hSrc p)) && decide (h.kind = fKind p) && decide (h.seq = fSeq p)
  if total ≤ 16 then (s, some (messageVals (fLayout p) (payloadLimbs p.payload total) (p.payload.drop (4 * total))))
  else if fPart p = 0 then
    (setColl s n off { c with halves := c.halves.filter (fun h => !same h) ++
      [⟨dieBits (hSrc p), fKind p, fSeq p, payloadLimbs p.payload 16⟩] }, none)
  else match c.halves.find? same with
    | none => (s, none)
    | some h =>
      (setColl s n off { c with halves := c.halves.filter (fun q => !same q) },
       some (messageVals (fLayout p) (h.limbs ++ payloadLimbs p.payload (total - 16)) (p.payload.drop (4 * (total - 16)))))

/-- Answer a message with an ACK. -/
def sendAck (s : State) (n : Nat) (p : Packet) (fnThere status : Nat) : State :=
  sendFife s n (dieBits (hSrc p) + fnThere * 64) (fifeForm 4 (fSlot p) (fSeq p) (fLayout p) 0 status 0 0) []

/-- The function number that a die gives the job, from the record and the route map. -/
def fnAtDie (x : FnSt) (die : Nat) : Nat :=
  match (liveSet x ++ x.members.map (fun m => m.die) ++ x.spares.map (fun m => m.die) ++ x.permuteSet).find?
      (fun e => decide (dieBits e = die)) with
  | some e => routeFn e
  | none => 0

/-- An OPEN from a tree child (R240, R228). -/
def recvOpen (s : State) (n off : Nat) (p : Packet) : State :=
  let x := fnSt s n
  let c := collAt x off
  let fnT := fnAtDie x (dieBits (hSrc p))
  if seqNewer c.seq (fSeq p) then sendAck s n p fnT 1
  else
    let s := if seqNewer (fSeq p) c.seq then collNewer s n off (fSeq p) else s
    let c := collAt (fnSt s n) off
    if (c.opened || !c.kids.isEmpty) && decide (c.layout ≠ fLayout p) then sendAck s n p fnT 2
    else
      match joinParts s n off p with
      | (s, none) => s
      | (s, some (vals, good)) =>
        let c := collAt (fnSt s n) off
        let kid : Kid := ⟨dieBits (hSrc p), vals, fCount p, good && decide (fStatus p ≠ 3)⟩
        let s := setColl s n off { c with layout := fLayout p,
                                          kids := c.kids.filter (fun q => decide (q.die ≠ kid.die)) ++ [kid] }
        collCombine (sendAck s n p fnT 0) n off

/-- What a participant does with a result's or acknowledgement's status other than OK (R228, R233): CANCELLED opens the
collective again under the next SEQ (the scalar reduction ends), RESIDUE re-forms once, any other status ends it. -/
def collFailed (s : State) (n off status cval : Nat) (vals : List Nat) : State :=
  let c := collAt (fnSt s n) off
  if (status = 1 ∧ off ≠ 0) ∨ (status = 4 ∧ off = 5) then
    let s := collEnd s n off
    if c.opened then collOpen s n off c.layout c.mine else s
  else if status = 3 ∧ c.retried = false then
    collReform (setColl s n off { c with retried := true }) n off
  else if status = 2 then
    collEnd (errFn (todo (flagF s (pgFn n) FN_FIFE_STATUS_CONFLICT) (.collDone n off status cval vals))
      HDR_ERR_SUMMARY_FIFE n) n off
  else if status = 4 ∨ status = 1 then collEnd s n off
  else collEnd (todo s (.collDone n off status cval vals)) n off

/-- A RESULT from the tree's parent, or the hub's final one: passed to the children and taken (R240). -/
def recvResult (s : State) (n off seq status cval : Nat) (vals : List Nat) : State :=
  let c := collAt (fnSt s n) off
  if c.seq ≠ seq then s
  else collResult s n off status cval vals

/-- Take a result that reached this participant: `collDone` of the agenda with status OK ends the slot's use. -/
def collTake (s : State) (n off status cval : Nat) (vals : List Nat) : State :=
  if status = 0 then collEnd s n off else collFailed s n off status cval vals

/-- An ACK of this die's contribution (R234). -/
def recvAck (s : State) (n off seq status : Nat) : State :=
  let c := collAt (fnSt s n) off
  if c.seq ≠ seq ∨ c.opened = false then s
  else if status = 0 then todo (setColl s n off { c with delivered := true }) (.delivered n off)
  else collFailed s n off status 0 []

end Sys2Proof.Machine
end

