-- ==== Sys2Proof/Machine/Mailbag.lean ====
section
/-!
DEFINITION. The holder's mailbag and the owner's waits: admission of coding packets (R212, R213), reservations (R71,
R81), folding and tracking (R72, R207), the hold (R208), completion and the writing of pigeonholes (R73, R335), flush
(Table 3.9), receipts and resends (R74, R206).
-/

namespace Sys2Proof.Machine

/-! ### Admission (R212, R213, Table 8.12) -/

/-- The die of member `m` in the record. -/
def dieOfMember (x : FnSt) (m : Nat) : Nat := match x.members[m]? with | some e => dieBits e.die | none => 0

/-- A re-shard runs: its load contributions follow its own rules (R290). -/
def planRuns (x : FnSt) : Bool := match x.plan with | some p => decide (p.phase ≠ 0) | none => false

/-- The row that a move gives a leaf at the member it goes to, or had it in at the member it leaves (`free`), under the
group of this die. -/
def moveRow (x : FnSt) (m : Manifest) (g : GroupEntry) (p : Plan) (mv : ReMove) (mem : Nat) (free : Bool) : Option Nat :=
  let row := dataRow g.k g.n mem mv.newSlot
  if !free then (if p.parts.getD mv.toP 0 = dieOfMember x mem then some row else none)
  else if p.parts.getD mv.fromP 0 = dieOfMember x mem then
    (List.range m.stripeRows).find? (fun j => match leafAt m g mem 0 j with
      | some l => decide (l.binding.tensor = mv.tensor) && decide (l.index = mv.leaf)
      | none => false)
  else none

/-- The manifest under which the slots that a re-shard frees were bound: the active one until the switch, the kept one
after it. -/
def planOld (x : FnSt) (p : Plan) : Option Manifest := if p.phase = 4 then some p.manifest else x.manifest

/-- The members whose slot in a row the re-shard changes in its present phase (R290): puts until the closing barrier,
frees from there on. -/
def planMembers (x : FnSt) (g : GroupEntry) (p : Plan) (row : Nat) : List Nat :=
  let free := decide (3 ≤ p.phase)
  match planOld x p with
  | none => []
  | some m => (List.range g.n).filter (fun mem => p.moves.any (fun mv => decide (moveRow x m g p mv mem free = some row)))

/-- The stamp is that of the step being landed or passed, or START_STEP in a load pass. -/
def stampOk (x : FnSt) (stamp : Nat) : Bool :=
  decide (stamp = low32 x.step) ||
    (x.loadPass && match x.manifest with | some m => decide (stamp = low32 m.startStep) | none => false)

/-- MEMBER under generation GEN translates to SRC's die (R219, R277); `row` selects the absorbing die. -/
def routeMatches (x : FnSt) (g : GroupEntry) (gen : RouteGen) (member row src : Nat) : Bool :=
  let m := if row = 0xFFFFFFFF then member else holderMember x member row
  match routeEntry gen (g.routeBase + m) with
  | some e => decide (dieBits e = dieBits src)
  | none => false

/-- The row lies in its area, this die holds pigeonhole `p` of it, and a contribution of `member` is expected there. -/
def rowExpected (x : FnSt) (m : Manifest) (g : GroupEntry) (area gen row member p : Nat) (load : Bool) : Bool :=
  decide (row < areaRows m area) && (decide (area = 0 ∧ gen = 0) || decide (area = 1 ∧ gen ≤ m.d)) &&
    decide (p < g.r) && heldHere x (holeMember g row p) row && decide (member < g.n) &&
    (if planRuns x && load then (match x.plan with
        | some q => decide (area = 0) && (decide (q.phase = 5) || (planMembers x g q row).contains member)
        | none => false)
      else expectsContribution m g member area row load)

/-- What the checks before the mailbag decide about a coding packet. -/
inductive Verdict where
  | apply
  | ahead
  | bin (cause : Nat)
  deriving DecidableEq, Repr

/-- The checks of R200, R212 and R213 for a FOLD, NULL_DELTA or LEAF_PUT; `placed` says whether the row test (NO_ROW) or
the arming test of the type holds, with `cause` its cause. -/
def codingVerdict (s : State) (n : Nat) (p : Packet) (okHeader inWindow : Bool) (placed : Bool) (cause : Nat) : Verdict :=
  let x := fnSt s n
  if !okHeader then .bin 9
  else if hType p = 11 ∧ hTc p = 5 then (if placed then .apply else .bin cause)
  else if hEpoch p < x.epoch then .bin 1
  else if x.epoch < hEpoch p then .ahead
  else if inWindow then .bin 2
  else if !stampOk x (hStamp p) && decide (hType p ≠ 11) && !((planRuns x || x.reload.isSome) && hLoad p) then .bin 3
  else match genOf x (hGen p), grpOf x with
    | none, _ => .bin 4
    | some gen, some g =>
      if hType p ≠ 11 ∧ routeMatches x g gen (hMember p) (hRow p) (hSrc p) = false then .bin 5
      else if !placed then .bin cause
      else if !(actsRunning s n || decide (stateOf s n = 3) || decide (hType p = 11) || x.reload.isSome) then .bin 8
      else .apply
    | some _, none => if !placed then .bin cause else .bin 8

/-! ### Reservations (R71, R81) -/

/-- A bag is of the row and parity index. -/
def Bag.isRow (b : Bag) (sl n area gen row p : Nat) : Bool :=
  decide (b.slice = sl) && decide (b.fn = n) && decide (b.area = area) && decide (b.gen = gen) && decide (b.row = row) &&
    decide (b.p = p)

/-- The contribution reservation of a row, if one is held. -/
def bagFind (s : State) (sl n area gen row p : Nat) : Option Bag :=
  s.bags.find? (fun b => b.isRow sl n area gen row p && !b.decode)

/-- Some reservation, of either sort, is held for the row on this die (R60). -/
def rowReserved (s : State) (n area gen row : Nat) : Bool :=
  s.bags.any (fun b => decide (b.fn = n) && decide (b.area = area) && decide (b.gen = gen) && decide (b.row = row))

/-- A function's share of each slice's mailbag: MAILBAG_ROWS of its wheel image while it is STARTING, RUNNING or
DRAINING (R81). -/
def shareOf (s : State) (n : Nat) : Nat :=
  if isBusyFn s n then (match (fnSt s n).wheel with | some w => w.mailbagRows | none => 0) else 0

/-- Where a new reservation of function `n` on a slice would take its buffer: its own share, the remainder, or nowhere. -/
def bufferSource (s : State) (sl n : Nat) : Option Bool :=
  let here := s.bags.filter (fun b => decide (b.slice = sl))
  if here.length ≥ 32 then none
  else if (here.filter (fun b => decide (b.fn = n) && b.ownShare)).length < shareOf s n then some true
  else if (here.filter (fun b => !b.ownShare)).length + ((List.range 64).map (shareOf s)).sum < 32 then some false
  else none

/-- Show the number of reserved buffers of a slice in LY_SLn_MAILBAG_STATUS. -/
def showBags (s : State) (sl : Nat) : State :=
  let k := (s.bags.filter (fun b => decide (b.slice = sl))).length
  maxF (setF s (pgSlice sl) SL_MAILBAG_STATUS_RESERVED_ROWS k) (pgSlice sl) SL_MAILBAG_STATUS_HIGH_WATER k

/-- Make a reservation for a row, or none when no buffer is free for the function. -/
def reserve (s : State) (sl n area gen row p : Nat) (load decode : Bool) : Option State :=
  match bufferSource s sl n with
  | none => none
  | some own => some (showBags { s with bags := s.bags ++ [⟨sl, n, area, gen, row, p, load, decode, own, false, false, [], []⟩] } sl)

/-- Release a row's reservations. -/
def release (s : State) (sl n area gen row p : Nat) : State :=
  showBags { s with bags := s.bags.filter (fun b => !b.isRow sl n area gen row p) } sl

/-- Replace a bag. -/
def putBag (s : State) (b : Bag) : State :=
  { s with bags := s.bags.map (fun c => if c.isRow b.slice b.fn b.area b.gen b.row b.p && !c.decode then b else c) }

/-! ### Tracking (R207) -/

/-- Set bits of a 16-bit map. -/
def popcount16 (m : Nat) : Nat := ((List.range 16).map (fun i => b2n (bit m i))).sum

/-- The record of a member, fresh where none is. -/
def Bag.recOf (b : Bag) (member : Nat) : Option BagRec := b.recs.find? (fun r => decide (r.member = member))

/-- Put a member's record. -/
def Bag.putRec (b : Bag) (r : BagRec) : Bag :=
  { b with recs := b.recs.filter (fun q => decide (q.member ≠ r.member)) ++ [r] }

/-- Fold one packet into a row's buffer (R72, R207); the second part says whether it was a duplicate. -/
def foldPacket (b : Bag) (p : Packet) : Bag × Bool :=
  let old := (b.recOf (hMember p)).getD ⟨hMember p, hStamp p, 0, 0, false, false, hSrc p⟩
  if old.complete then (b, true)
  else if hType p = 9 then
    (b.putRec { old with complete := true, isNull := true, stamp := hStamp p, src := hSrc p }, false)
  else if bit old.map (hImg p / 64) then (b, true)
  else
    let map := old.map + 2 ^ (hImg p / 64)
    let count := if hFlag p then hTag p else old.count
    let r := { old with map := map, count := count, stamp := hStamp p, src := hSrc p,
                        complete := decide (count ≠ 0) && decide (popcount16 map = count) }
    (({ b with image := memXor b.image (64 * hImg p) (p.payload.take (65344 - 64 * hImg p)) }).putRec r, false)

/-- The members from which a row expects a contribution (R70). -/
def expectedMembers (m : Manifest) (g : GroupEntry) (area row : Nat) (load : Bool) : List Nat :=
  (List.range g.n).filter (fun i => expectsContribution m g i area row load)

/-- Every expected contribution of the row is complete (R73). -/
def bagComplete (x : FnSt) (b : Bag) : Bool :=
  match x.manifest, grpOf x with
  | some m, some g =>
    !b.decode && (match (if b.load then x.plan else none) with
      | some q => if q.phase = 5 then b.recs.map (fun (r : BagRec) => r.member) else planMembers x g q b.row
      | none => expectedMembers m g b.area b.row b.load).all (fun i => match b.recOf i with | some r => r.complete | none => false)
  | _, _ => false

/-- Every contribution of the row that is complete is null. -/
def Bag.allNull (b : Bag) : Bool := b.recs.all (fun r => r.isNull)

/-! ### Receipts (R74, R206) -/

/-- Arrive at the function's group-seal object for one row (R86, Table 3.7). -/
def groupArrive (s : State) (n : Nat) : State :=
  let x := fnSt s n
  match grpOf x with
  | some g => if x.passOn && !x.aborting then sealArrive s g.groupSeal 1 else s
  | none => s

/-- Mark a holder's WRITTEN receipt in the wait of a contribution; a leaf put has one receiver, whatever the receipt's
MEMBER. -/
def markReceipt (w : Wait) (holder p : Nat) : Wait :=
  { w with holders := w.holders.map (fun h =>
      if w.kind = .put ∨ (h.member = holder ∧ h.p = p) then { h with done := true } else h) }

/-- Every receipt of a wait is held. -/
def Wait.allDone (w : Wait) : Bool := w.holders.all (fun h => h.done)

/-- The sent wait of a row and stamp that also meets `ok`. -/
def waitFor (s : State) (n area gen row stamp : Nat) (ok : Wait → Bool) : Option Wait :=
  s.waits.find? (fun w => decide (w.fn = n) && decide (w.area = area) && decide (w.gen = gen) && decide (w.row = row) &&
    decide (low32 w.stamp = stamp) && w.sent && ok w)

/-- The wait still lacks the receipt of a holder. -/
def Wait.lacks (w : Wait) (holder p : Nat) : Bool :=
  w.holders.any (fun h => (decide (w.kind = .put) || (decide (h.member = holder) && decide (h.p = p))) && !h.done)

/-- A receipt can be of a wait: it is of a loaded slot exactly when the receipt says so, and a leaf put's comes from the
die the put went to. -/
def Wait.answers (w : Wait) (p : Packet) : Bool :=
  decide (decide (w.kind = .load) = hLoad p) &&
    (decide (w.kind ≠ .put) || w.holders.any (fun h => decide (dieBits h.dst = dieBits (hSrc p))))

/-- The wait that a receipt answers: one that lacks it, else any of the row and stamp. -/
def waitOf (s : State) (n : Nat) (p : Packet) : Option Wait :=
  match waitFor s n (hArea p) (hAreaGen p) (hRow p) (hStamp p) (fun w => w.answers p && w.lacks (hMember p) (hParity p)) with
  | some w => some w
  | none => waitFor s n (hArea p) (hAreaGen p) (hRow p) (hStamp p) (fun w => w.answers p)

/-- Replace a wait. -/
def putWait (s : State) (old new : Wait) : State := { s with waits := s.waits.map (fun w => if w = old then new else w) }

/-- Drop a wait. -/
def dropWait (s : State) (w : Wait) : State := { s with waits := s.waits.erase w }

/-- What follows when every receipt of a wait is held: a gradient leaf is safe (R69); a loaded slot or a leaf put is
done; a state delta waits for LWRITE. -/
def waitSettled (s : State) (w : Wait) : State :=
  if w.allDone then
    match w.kind with
    | .state => if w.isNull then dropWait s w else s
    | .grad => todo (dropWait s w) (.gradCheck w.fn)
    | .load => todo s (.startCheck w.fn)
    | .put => todo (dropWait s w) (.putDone w.fn)
  else s

/-- Ledger address of entry `idx` of core `c` of slice `sl` (R79, R453). -/
def ledgerAddr (sl c idx : Nat) : Nat := sl * 4194304 + c * 4096 * 32 + 32 * idx

/-- Note a receipt in RECEIPTS of the delta's intent entry (Table 3.6; diagnostic only). -/
def ledgerReceipt (s : State) (w : Wait) (p : Nat) : State :=
  match (fnSt s w.fn).work.find? (fun k => decide (k.member = w.member) && decide (k.area = 0) && decide (k.row = w.row)) with
  | some k =>
    let a := ledgerAddr k.slice k.core k.ledger
    let e := nearRead s a 32
    if w.kind = .state ∧ field e 0 1 = 1 then
      let e := setField e 2 1 (putBit (field e 2 1) p true)
      nearWrite s a (setField e 0x1C 4 (crc64 (e.take 0x1C) % 2 ^ 32))
    else s
  | none => s

/-- Apply a WRITTEN receipt from a holder to a wait. -/
def applyWritten (s : State) (w : Wait) (holder p : Nat) : State :=
  let w' := markReceipt w holder p
  waitSettled (ledgerReceipt (putWait s w w') w p) w'

/-- Send the receipts of a released row: one for each contribution (R73); one this die owes itself is applied at once
(R277). -/
def sendReceipts (s : State) (b : Bag) (g : GroupEntry) : State :=
  let x := fnSt s b.fn
  b.recs.foldl (fun s r =>
    let p := b.p
    if dieBits r.src = selfDie s then
      match waitFor s b.fn b.area b.gen b.row r.stamp (fun w => decide (w.member = r.member)) with
      | some w => applyWritten s w (holeMember g b.row p) p
      | none => s
    else sendReceipt s b.fn r.src (sliceEndpoint (selfDie s) b.slice) (fnAtMember x r.member b.row) b.row r.stamp
      (areaByte b.area b.gen b.load) (holeMember g b.row p) p 0 0) s

/-! ### Writing a complete row (R73, R335) -/

/-- The pigeonhole slot that R73 writes: the old one read, the fold image XORed in for a state row, entries of the
non-null contributors set (zero for a slot that a re-shard frees, R290), the stamp of the pass. -/
def foldedHole (x : FnSt) (g : GroupEntry) (b : Bag) (m : Nat) (old : List Byte) (stamp : Nat) : List Byte :=
  let fold := memReadN b.image 0 65344
  let part := b.recs.filter (fun r => r.complete && !r.isNull)
  let freeing := match x.plan with | some p => decide (3 ≤ p.phase) | none => false
  if b.area = 0 then
    let kind := (List.range 16).map (fun i => match part.find? (fun r => decide (r.member = i)) with
      | some r => leBytes 4 (if b.load && freeing then 0 else r.stamp)
      | none => leBytes 4 (pmEntry old i))
    mkHole g m b.row 0 stamp x.epoch false kind.flatten (xorBytes (holeImage old) fold)
  else
    mkHole g m b.row 1 stamp x.epoch false (leBytes 2 ((part.map (fun r => 2 ^ r.member)).sum) ++ zeros 62) fold

/-- The erasure mark of a damaged buffer (R335): a postmark of 0xFF bytes, the body as it was. -/
def erasureMark (old : List Byte) : List Byte := List.replicate 256 (0xFF : Byte) ++ old.drop 256

/-- The step that R73 writes into the pigeonhole: the current one; for a loaded row START_STEP, the step sealed where a
re-shard runs, and in a reload's gradient row the newest of the steps folded (R290, R321). -/
def holeStamp (x : FnSt) (mf : Manifest) (b : Bag) : Nat :=
  if b.load = false then x.step
  else if planRuns x then (match x.plan with | some p => p.sealed | none => mf.startStep)
  else
    let part := b.recs.filter (fun r => !r.isNull)
    if x.reload.isSome ∧ b.area = 1 ∧ part ≠ [] then (part.map (fun r => fullStamp mf.startStep r.stamp)).foldl max 0
    else mf.startStep

/-- Write the pigeonhole of a complete row, `old` being the pigeonhole as read (R73, R335). -/
def writeHole (s : State) (b : Bag) (old : List Byte) : State :=
  let x := fnSt s b.fn
  match x.manifest, grpOf x with
  | some mf, some g =>
    let m := holeMember g b.row b.p
    heldWrite s b.fn m b.area b.gen b.row
      (if b.damaged then erasureMark old else foldedHole x g b m old
        (holeStamp x mf b))
  | _, _ => s

/-- Release a row that is written or needs no write: receipts, the buffer, and the group-seal arrival of a state row of
the pass or load pass (R73, R456, Table 3.7). -/
def finishRow (s : State) (b : Bag) : State :=
  match grpOf (fnSt s b.fn) with
  | none => s
  | some g =>
    let s := release (sendReceipts s b g) b.slice b.fn b.area b.gen b.row b.p
    let s := modFn s b.fn (fun x => { x with rowsDone := x.rowsDone ++ [(b.area, b.row, b.p)] })
    if b.area = 0 ∧ (b.load = false ∨ (fnSt s b.fn).loadPass = true) then groupArrive s b.fn else s

/-- The row needs no write: a state row whose contributions are all null (R54, R73). -/
def Bag.noWrite (b : Bag) : Bool := decide (b.area = 0) && b.allNull && !b.damaged

/-- A row may have become complete: one that needs no write ends at once, a row of a load pass is written at once (no
wheel entry schedules it); any other waits for its HOLD or GHOLD. -/
def rowProgress (s : State) (b : Bag) : State :=
  let x := fnSt s b.fn
  if bagComplete x b then
    if b.noWrite then finishRow s b
    else if b.load then
      match grpOf x with
      | some g => finishRow (writeHole s b (heldSlot s b.fn (holeMember g b.row b.p) b.area b.gen b.row)) b
      | none => s
    else s
  else s

/-! ### FOLD and NULL_DELTA (R72, R208) -/

/-- Held packets of a slice. -/
def heldOn (s : State) (sl : Nat) : List (Nat × Packet) := s.held.filter (fun h => decide (h.1 = sl))

/-- Two coding packets are of one row. -/
def sameRow (p q : Packet) : Bool :=
  decide (hFn p = hFn q) && decide (hArea p = hArea q) && decide (hAreaGen p = hAreaGen q) && decide (hRow p = hRow q) &&
    decide (hParity p = hParity q)

/-- Count a packet the first time it is held or refused (R208). -/
def countHeld (s : State) (sl : Nat) (p : Packet) : State :=
  if s.heldOnce.contains p.hdr then s
  else slip (addF s (pgSlice sl) SL_MAILBAG_STATUS_HELD 1) (hFn p) 8 sl 0xFF 0xFF (hRow p)

/-- Fold a packet into its row's reservation, and see whether the row is complete. -/
def foldInto (s : State) (b : Bag) (p : Packet) : State :=
  let (b', dup) := foldPacket b p
  let s := { s with heldOnce := s.heldOnce.erase p.hdr }
  if dup then addF s (pgSlice b.slice) SL_MAILBAG_STATUS_DUPLICATES 1
  else rowProgress (putBag s b') b'


/-- Does the holder's own pigeonhole already carry this step (R89)? -/
def alreadyWritten (s : State) (n : Nat) (p : Packet) : Bool :=
  let x := fnSt s n
  match grpOf x with
  | some g => x.bumped && decide (hArea p = 1) && (
      let h := heldSlot s n (holeMember g (hRow p) (hParity p)) 1 (hAreaGen p) (hRow p)
      !slotErased x.epoch 1 true h && decide (low32 (pmStamp h) = hStamp p) && decide (pmStamp h = x.step))
  | none => false

/-- Is the row of a pigeonhole this die took over still unrebuilt (R275)? -/
def rowUnrebuilt (x : FnSt) (area gen row : Nat) : Bool := x.unrebuilt.any (fun q => decide (q.2 = (area, gen, row)))

/-- A FOLD or NULL_DELTA that passed the checks (R72, R208). -/
def admitFold (s : State) (sl n : Nat) (p : Packet) : State :=
  let hold := fun (s : State) => { s with held := s.held ++ [(sl, p)] }
  match bagFind s sl n (hArea p) (hAreaGen p) (hRow p) (hParity p) with
  | some b => foldInto s b p
  | none =>
    if alreadyWritten s n p then answerReceipt s n p 0
    else if (heldOn s sl).any (fun h => sameRow h.2 p) then
      if (heldOn s sl).length < 16 then hold s
      else let s := countHeld s sl p
           answerReceipt { s with heldOnce := if s.heldOnce.contains p.hdr then s.heldOnce else s.heldOnce ++ [p.hdr] } n p 1
    else
      let waitsForBuffer := (heldOn s sl).any (fun h => (bufferSource s sl (hFn h.2)).isSome)
      match if waitsForBuffer || rowUnrebuilt (fnSt s n) (hArea p) (hAreaGen p) (hRow p) then none
            else reserve s sl n (hArea p) (hAreaGen p) (hRow p) (hParity p) (hLoad p) false with
      | some s =>
        (match bagFind s sl n (hArea p) (hAreaGen p) (hRow p) (hParity p) with
         | some b => foldInto s b p
         | none => s)
      | none =>
        let s := countHeld s sl p
        if (heldOn s sl).length < 16 then hold s
        else answerReceipt { s with heldOnce := if s.heldOnce.contains p.hdr then s.heldOnce else s.heldOnce ++ [p.hdr] } n p 1

/-- A pointer error flushes the slice's hold: each discarded packet is a poisoned delivery (R337). -/
def flushHold (s : State) (sl : Nat) : State :=
  let out := heldOn s sl
  let s := errSlice { s with held := s.held.filter (fun h => decide (h.1 ≠ sl)) } HDR_ERR_SUMMARY_QUEUE sl
  out.foldl (fun s h => answerReceipt (notePoison s sl) (hFn h.2) h.2 2) s

/-- A packet of the function that its header allows carries the shadow's GEN: the shadow's grace restarts (R220). -/
def touchShadow (s : State) (p : Packet) : State :=
  match (fnSt s (hFn p)).routeShadow with
  | some g =>
    if headerOk' p = true ∧ g.number % 2 = hGen p then modFn s (hFn p) (fun x => { x with shadowZeroAt := none }) else s
  | none => s

/-- Poison of a coding packet: asked for again (R207, Table 12.5). -/
def poisoned (s : State) (sl n : Nat) (p : Packet) : State := answerReceipt (notePoison s sl) n p 2

/-- Arrival of a FOLD (R72) or NULL_DELTA, apart from a drain close's effect. -/
def recvCoding (s : State) (p : Packet) (u : Upset) : State :=
  let sl := hSlice p
  let n := hFn p
  let s := if u = .none then s else errSlice s HDR_ERR_SUMMARY_QUEUE sl
  let s := if u = .pointer then flushHold s sl else s
  let x := fnSt s n
  let placed := match x.manifest, grpOf x with
    | some m, some g => rowExpected x m g (hArea p) (hAreaGen p) (hRow p) (hMember p) (hParity p) (hLoad p)
    | _, _ => false
  match codingVerdict s n p (headerOk' p && decide (u ≠ .header)) (x.flushed.contains sl) placed 6 with
  | .bin c => bin s p c sl
  | .ahead => answerReceipt s n p 3
  | .apply =>
    if hPoison p || decide (u = .payload) || decide (u = .pointer) then poisoned s sl n p else admitFold s sl n p

/-! ### The hold's release (R208) -/

/-- The oldest held row of a slice takes a free buffer, and its held packets fold in arrival order. -/
def holdRelease (s : State) (sl : Nat) : State :=
  match (heldOn s sl).find? (fun h => (bufferSource s sl (hFn h.2)).isSome &&
      !rowUnrebuilt (fnSt s (hFn h.2)) (hArea h.2) (hAreaGen h.2) (hRow h.2)) with
  | none => s
  | some h =>
    let p := h.2
    match reserve s sl (hFn p) (hArea p) (hAreaGen p) (hRow p) (hParity p) (hLoad p) false with
    | none => s
    | some s =>
      let mine := (heldOn s sl).filter (fun q => sameRow q.2 p)
      let s := { s with held := s.held.filter (fun q => !(decide (q.1 = sl) && sameRow q.2 p)) }
      mine.foldl (fun s q =>
        match bagFind s sl (hFn p) (hArea p) (hAreaGen p) (hRow p) (hParity p) with
        | some b => foldInto s b q.2
        | none => s) s

/-! ### Flush (Table 3.9, order 3) -/

/-- Every begun contribution of the row is complete. -/
def Bag.begunComplete (b : Bag) : Bool := b.recs.all (fun r => r.complete)

/-- Flush one reserved row: written as R73 requires without receipts when every begun contribution is complete, else
discarded. -/
def flushBag (s : State) (b : Bag) : State :=
  let x := fnSt s b.fn
  let s' := if b.begunComplete then
      (if b.noWrite then s else match grpOf x with
        | some g => writeHole s b (heldSlot s b.fn (holeMember g b.row b.p) b.area b.gen b.row)
        | none => s)
    else addF s (pgSlice b.slice) SL_MAILBAG_STATUS_DISCARDS 1
  release s' b.slice b.fn b.area b.gen b.row b.p

/-- Flush the rows of function `n` on one slice; its held packets go to the bin, and the abort window opens. -/
def flushSlice (s : State) (n sl : Nat) : State :=
  let s := (s.bags.filter (fun b => decide (b.fn = n) && decide (b.slice = sl) && !b.decode)).foldl flushBag s
  let out := (heldOn s sl).filter (fun h => decide (hFn h.2 = n))
  let s := { s with held := s.held.filter (fun h => !(decide (h.1 = sl) && decide (hFn h.2 = n))) }
  let s := out.foldl (fun s h => bin s h.2 2 sl) s
  modFn s n (fun x => { x with flushed := if x.flushed.contains sl then x.flushed else x.flushed ++ [sl] })

/-! ### RECEIPT (R74, R206, R212) -/

/-- Answer a RESEND or a refusal of a sent contribution or leaf put (R206, R284): a leaf put of which the postmark alone
was sent goes whole; any other packet goes again after its delay. -/
def putRepeat (s : State) (n : Nat) (p : Packet) (w : Wait) : State :=
  let h := hMember p
  if w.kind = .put ∧ w.isNull then
    let w' := { w with isNull := false }
    w'.holders.foldl (fun s q => sendTo s w' w.core n q) (putWait s w w')
  else
    let dst := (w.holders.find? (fun q => decide (w.kind = .put) || (decide (q.member = h) && decide (q.p = hParity p)))).getD
      ⟨h, hParity p, dieBits (hSrc p) + hFn p * 64 + 1, false⟩
    let probe := sendTo { s with egress := [] } w (if w.kind = .put then w.core else 1) n dst
    match probe.egress[if w.isNull then 0 else hTag p % 16]? with
    | some q => { s with resends := s.resends ++ [⟨n, s.ticks + 1024, q⟩] }
    | none => s

/-- Apply a receipt of a leaf put of class TC5, which is of no epoch (R321). -/
def putReceipt (s : State) (n : Nat) (p : Packet) (w : Wait) : State :=
  if hReceipt p = 0 then applyWritten s w (hMember p) (hParity p) else putRepeat s n p w

/-- Arrival of a RECEIPT at the owner. -/
def recvReceipt (s : State) (p : Packet) (badHeader : Bool) : State :=
  let sl := hSlice p
  let n := hFn p
  let x := fnSt s n
  if badHeader || !headerOk' p then bin s p 9 sl else
  let w := waitOf s n p
  let h := hMember p
  let sendEpoch := match w with | some w => w.epoch | none => x.epoch
  let own : Bool := match w with | some (w : Wait) => decide (w.kind = .put) && decide (w.core = 5) | none => false
  if own then (match w with | some w => putReceipt s n p w | none => s)
  else if hEpoch p < x.epoch ∧ hEpoch p < sendEpoch then bin s p 1 sl
  else match genOf x (hGen p), grpOf x with
    | none, _ => bin s p 4 sl
    | some _, none => bin s p 8 sl
    | some gen, some g =>
      if routeMatches x g gen h (hRow p) (hSrc p) = false ∧ x.role = 1 ∧ (w.map (fun (w : Wait) => decide (w.kind = .put))) ≠ some true
      then bin s p 5 sl
      else if !(actsRunning s n || decide (stateOf s n = 3) || x.reload.isSome) then bin s p 8 sl
      else match w with
        | none => bin s p 0x0A sl
        | some w =>
          if x.aborting && decide (w.kind ≠ .put) && (decide (hReceipt p = 0) || x.drained) then bin s p 0x0A sl
          else if hReceipt p = 0 then applyWritten s w h (hParity p)
          else putRepeat s n p w

/-- The oldest resend that is due leaves, once its 1,024 ticks have passed (R206). -/
def resendDue (s : State) : State :=
  match s.resends with
  | [] => s
  | r :: rest =>
    let s := advanceTo { s with resends := rest } r.due
    if (fnSt s r.fn).mute then s else sendPacket s r.packet

end Sys2Proof.Machine
end

