-- ==== Sys2Proof/Machine/Landing.lean ====
section
/-!
DEFINITION. Landing: the descriptor and classes (R98, R99), banks and lines (R100, R101), space and parking (R102), the
FX96 window (R103 to R106), probes (R107), bucket seals (R109), attempts (R110), sparse intake (R112, R113), and the
member's partials and gradient seal (R65, R66).
-/

namespace Sys2Proof.Machine

/-! ### FX96 (R104, R106) -/

/-- Length in bits of a number. -/
def bitlen (a : Nat) : Nat := if a = 0 then 0 else Nat.log2 a + 1

/-- What a conversion to FX96 gives: the integer, whether it was above the window, whether it was not finite. -/
structure Fx where
  val : Int
  above : Bool
  nonfinite : Bool
  deriving DecidableEq, Repr

/-- fx96_from_fp32 (R104): x is a 32-bit pattern, `top` the window top. -/
def fx96OfFp32 (x : Nat) (top : Int) : Fx :=
  let e := bits x 30 23
  let f := bits x 22 0
  if e = 255 then ⟨0, false, true⟩
  else
    let m : Nat := if e = 0 then f else f + 0x800000
    let p : Int := if e = 0 then -149 else (e : Int) - 150
    let shift : Int := p - top + 78
    let above := decide (0 ≤ shift) && decide (m ≠ 0) && decide (79 < bitlen m + shift.toNat)
    let n : Nat :=
      if above then 2 ^ 79 - 1
      else if 0 ≤ shift then m * 2 ^ shift.toNat
      else if 24 ≤ (-shift).toNat then 0 else m / 2 ^ (-shift).toNat
    ⟨if bit x 31 then -(n : Int) else n, above, false⟩

/-- fp32_from_fx96 (R106): the FP32 pattern of an accumulator, and whether it is an infinity. -/
def fp32OfFx96 (n : Int) (top : Int) : Nat × Bool :=
  if n = 0 then (0, false) else
  let s : Nat := if n < 0 then 2 ^ 31 else 0
  let a := n.natAbs
  let lead : Int := (bitlen a : Int) - 1
  let ulp : Int := max (lead + top - 78 - 23) (-149)
  let drop : Int := ulp - (top - 78)
  let m : Nat :=
    if drop ≤ 0 then a * 2 ^ (-drop).toNat
    else
      let d := drop.toNat
      let q := a / 2 ^ d
      let rest := a % 2 ^ d
      let half := 2 ^ (d - 1)
      if half < rest ∨ (rest = half ∧ q % 2 = 1) then q + 1 else q
  let ulp := if m = 2 ^ 24 then ulp + 1 else ulp
  let m := if m = 2 ^ 24 then 2 ^ 23 else m
  if m < 2 ^ 23 then (s + m, false)
  else if 127 < ulp + 23 then (s + 0x7F800000, true)
  else (s + (ulp + 23 + 127).toNat * 2 ^ 23 + (m - 2 ^ 23), false)

/-- The exact EX640 term of an FP32 value's square (R231); a NaN or infinity adds zero. -/
def squareTerm (x : Nat) : Nat :=
  let e := bits x 30 23
  let f := bits x 22 0
  if e = 255 then 0
  else
    let m := if e = 0 then f else f + 0x800000
    let p : Int := if e = 0 then -149 else (e : Int) - 150
    m * m * 2 ^ (2 * p + 300).toNat

/-! ### Descriptors (R98) -/

/-- A landing descriptor with its data. -/
structure Landing where
  bucket : Nat
  stepLo : Nat
  attempt : Nat
  kind : Nat
  count : Nat
  probeExp : Int
  offset : Nat
  tokens : Nat
  reserved : Bool
  data : List Byte
  deriving DecidableEq, Repr

/-- Parse a landing payload (Table 4.2). -/
def parseLanding (b : List Byte) : Landing :=
  ⟨bits (field b 0 4) 19 0, field b 4 4, field b 8 1, field b 9 1, field b 0xA 2, signed 16 (field b 0xC 2),
   field b 0x10 6, field b 0x18 8,
   decide (bits (field b 0 4) 31 20 ≠ 0) || decide (field b 0xE 2 ≠ 0) || decide (field b 0x16 2 ≠ 0) ||
     !allZero ((b.drop 0x20).take 32), b.drop 64⟩

/-- The bucket of the member's intake table with an index (R97). -/
def bucketOf (x : FnSt) (b : Nat) : Option IntakeEntry :=
  match x.manifest with
  | none => none
  | some m => match m.intake[b]? with
    | some e => if e.group = x.group ∧ e.member = x.self then some e else none
    | none => none

/-- Bytes of a contribution element. -/
def contribBytes (e : IntakeEntry) : Nat := if e.contribFormat = 1 then 2 else 4

/-- The packet is malformed (Table 4.3). -/
def landMalformed (x : FnSt) (d : Landing) : Bool :=
  match bucketOf x d.bucket with
  | none => true
  | some e =>
    let held := if e.compressed then d.count / 2 else d.count
    decide (1 < d.kind) || d.reserved ||
    (decide (d.kind = 1) && (decide (d.count ≠ 0) || decide (d.offset ≠ 0))) ||
    (decide (d.kind = 0) && decide (0 < d.count) &&
      (decide (d.offset < e.elemOffset) || decide (e.elemOffset + e.elemCount < d.offset + d.count) ||
       (e.compressed && (decide (d.offset % 4 ≠ 0) || decide (d.count % 4 ≠ 0))) ||
       decide (d.data.length < held * contribBytes e)))

/-- Classes of landing packets (Table 4.3). -/
inductive LandClass where
  | current | early | stale | malformed | late
  deriving DecidableEq, Repr

/-- The seal of a bucket has fired. -/
def bucketFired (s : State) (x : FnSt) (b : Nat) : Bool :=
  match bucketOf x b with | some e => sealFired s e.bucketSeal | none => false

/-- The attempt that the coming restart opens (R360). -/
def nextAttempt (x : FnSt) : Nat := if x.opened then (x.attempt + 1) % 256 else 0

/-- The class of a landing packet (R99). A packet that belongs to no open or coming intake is stale whatever its
content; one that is early is examined when it is replayed. -/
def landClass (s : State) (n : Nat) (d : Landing) : LandClass :=
  let x := fnSt s n
  let mine := decide (d.stepLo = low32 x.step) && decide (d.attempt = x.attempt)
  if isStarting s n then (if d.stepLo = low32 x.step ∧ d.attempt = nextAttempt x then .early else .stale)
  else if !actsRunning s n then .stale
  else if !x.opened then (if mine then .early else .stale)
  else if decide (d.stepLo = low32 (x.step + 1)) && decide (d.attempt = 0) then .early
  else if !mine then .stale
  else if landMalformed x d then .malformed
  else if !x.intakeOpen || bucketFired s x d.bucket then .late
  else .current

/-! ### Where elements go (R29, R100, R112, R113) -/

/-- The bank of a line of leaf index `leaf` (R100). -/
def bankOf (leaf line : Nat) : Nat :=
  let l := (leaf * 1020 + line) % 2 ^ 32
  ((List.range 8).foldl (fun acc i => acc ^^^ (l / 2 ^ (4 * i))) 0) % 16

/-- The kept positions of a pattern code (Table 4.6). -/
def keptOf (code : Nat) : List Nat :=
  [[0, 1], [0, 2], [0, 3], [1, 2], [1, 3], [2, 3]].getD code []

/-- The pattern code of group `g` of a mask leaf's body (R112). -/
def maskCode (body : List Byte) (g : Nat) : Nat :=
  (field body (3 * g / 8) 2 / 2 ^ (3 * g % 8)) % 8

/-- The body of the mask leaf that covers a dense element of a binding, on this die. -/
def maskBody (s : State) (n : Nat) (b : Binding) (elem : Nat) : List Byte :=
  let x := fnSt s n
  match grpOf x with
  | none => []
  | some g =>
    let slot := b.maskFirst + (elem / maskSpan - b.elemOffset / maskSpan)
    slotBody (slotRead s n 0 0 (dataRow g.k g.n b.member slot))

/-- The kept index (0 or 1 within its group) of a dense element of an _S24 binding, if it is kept. -/
def keptIndex (s : State) (n : Nat) (b : Binding) (elem : Nat) : Option Nat :=
  (keptOf (maskCode (maskBody s n b elem) (elem % maskSpan / 4))).findIdx? (fun p => decide (p = elem % 4))

/-- The gradient row of a tensor element of a binding, and its position among the leaf's values. -/
def gradRowOf (g : GroupEntry) (b : Binding) (elem : Nat) : Nat :=
  dataRow g.k g.n b.member (b.gradFirst + (elem / gradSpan b.s24 - b.elemOffset / gradSpan b.s24))

/-- The additions of a DATA packet: leaf index, gradient row, position among the leaf's values, FP32 pattern. -/
def landAdds (s : State) (n : Nat) (e : IntakeEntry) (b : Binding) (g : GroupEntry) (d : Landing) :
    List (Nat × Nat × Nat × Nat) :=
  let span := gradSpan b.s24
  let pat := fun (i : Nat) => if contribBytes e = 2 then field d.data (2 * i) 2 * 65536 else field d.data (4 * i) 4
  if e.compressed then
    (List.range (d.count / 2)).map (fun i =>
      let elem := d.offset + i / 2 * 4
      (elem / span, gradRowOf g b elem, elem % span / 4 * 2 + i % 2, pat i))
  else (List.range d.count).filterMap (fun i =>
    let elem := d.offset + i
    if b.s24 then
      (keptIndex s n b elem).map (fun k => (elem / span, gradRowOf g b elem, elem % span / 4 * 2 + k, pat i))
    else some (elem / span, gradRowOf g b elem, elem % span, pat i))

/-- The leaves that a packet's element range touches, kept or not, as gradient rows. -/
def landRows (g : GroupEntry) (b : Binding) (d : Landing) : List Nat :=
  if d.count = 0 then [] else
  let span := gradSpan b.s24
  (List.range ((d.offset + d.count - 1) / span - d.offset / span + 1)).map (fun i =>
    gradRowOf g b ((d.offset / span + i) * span))

/-! ### Space (R102) -/

/-- Near-tier leaves that a function's landing area holds beside its park region: 195,840 bytes each. -/
def areaLeaves (s : State) (n : Nat) : Nat :=
  (forceF s n FN_LANDING_AREA_AREA_SIZE - forceF s n FN_LANDING_AREA_PARK_SIZE) * 67108864 / 195840

/-- The gradient row's accumulators are allocated. -/
def accHeld (s : State) (n row : Nat) : Bool := s.accs.any (fun a => decide (a.fn = n) && decide (a.row = row))

/-- Show the allocated lines of a slice. -/
def showLines (s : State) (sl : Nat) : State :=
  setF s (pgSlice sl) SL_LANDING_STATUS_LINES_IN_USE
    (1020 * (s.accs.filter (fun a => decide (a.slice = sl) && a.cached)).length)

/-- Allocate a gradient leaf's accumulators, from the function's share of the slice's bank cache first; none where there
is no space. -/
def accAlloc (s : State) (n row : Nat) : Option State :=
  if accHeld s n row then some s else
  let sl := rowSlice (fnSt s n) row
  let used := 1020 * (s.accs.filter (fun a => decide (a.fn = n) && decide (a.slice = sl) && a.cached)).length
  if used + 1020 ≤ forceF s n FN_LANDING_CACHE_CACHE_LINES then
    some (showLines { s with accs := s.accs ++ [⟨n, sl, row, true, []⟩] } sl)
  else if (s.accs.filter (fun a => decide (a.fn = n) && !a.cached)).length < areaLeaves s n then
    some { s with accs := s.accs ++ [⟨n, sl, row, false, []⟩] }
  else none

/-- Allocate several leaves, or none of them. -/
def accAllocAll (s : State) (n : Nat) : List Nat → Option State
  | [] => some s
  | r :: rs => match accAlloc s n r with
    | none => none
    | some s => accAllocAll s n rs

/-! ### Applying a packet (R100, R101, R109) -/

/-- Queue one line update at its bank; one that finds 16 queued is counted and waits at the port (R101). -/
def queueUpd (s : State) (u : LineUpd) : State :=
  let k := (s.updates.filter (fun v => decide (v.slice = u.slice) && decide (v.bank = u.bank))).length
  let s := if 16 ≤ k then addF s (pgSlice u.slice) SL_LANDING_STATUS_QUEUE_FULL 1 else s
  let s := maxF s (pgSlice u.slice) SL_LANDING_STATUS_QUEUE_HIGH_WATER (min 16 (k + 1))
  { s with updates := s.updates ++ [u] }

/-- Group additions into line updates: consecutive additions of one leaf and line, at most 16. -/
def splitLines : List (Nat × Nat × Nat × Nat) → List (Nat × Nat × List (Nat × Nat)) → List (Nat × Nat × List (Nat × Nat))
  | [], acc => acc.reverse
  | (leaf, row, pos, pat) :: rest, acc =>
    match acc with
    | (l, r, adds) :: acc' =>
      if l = leaf ∧ r = row ∧ (adds.head?.map (fun a => a.1 / 16)) = some (pos / 16) ∧ adds.length < 16 then
        splitLines rest ((l, r, adds ++ [(pos, pat)]) :: acc')
      else splitLines rest ((leaf, row, [(pos, pat)]) :: acc)
    | [] => splitLines rest [(leaf, row, [(pos, pat)])]

/-- A packet that is applied and whose earlier packets of the same source are applied counts its arrival (R109, R203). -/
def landArrive (s : State) (k : LandPkt) : State :=
  let x := fnSt s k.fn
  match bucketOf x k.bucket with
  | none => s
  | some e =>
    let s := modFn s k.fn (fun x => { x with partTokens := (x.partTokens + k.tokens) % 2 ^ 64 })
    sealArrive s e.bucketSeal 1

/-- Finish every packet with no line update left: an unflagged one leaves, a flagged one counts once no earlier packet
of its source to the function is still in flight or parked. -/
def landProgress : Nat → State → State
  | 0, s => s
  | fuel + 1, s =>
    match s.landPkts.find? (fun k => decide (k.left = 0) && (!k.flagged ||
        (s.landPkts.all (fun q => !(decide (q.fn = k.fn) && decide (q.src = k.src) && decide (q.id < k.id))) &&
         s.parked.all (fun q => !(decide (q.fn = k.fn) && decide (hSrc q.packet = k.src) && decide (q.id < k.id)))))) with
    | none => s
    | some k =>
      let s := { s with landPkts := s.landPkts.erase k }
      landProgress fuel (if k.flagged then landArrive s k else s)

/-- The window top in force for a bucket: WINDOW_TOP, or what its probes fixed (R107). -/
def bucketTop (x : FnSt) (b : Nat) (e : IntakeEntry) : Option Int :=
  if e.auto then (match x.probes.find? (fun p => decide (p.bucket = b)) with | some p => p.top | none => none)
  else some e.windowTop

/-- Apply a current DATA packet, or none when it must be parked (R102). -/
def landData (s : State) (n id : Nat) (p : Packet) (d : Landing) : Option State :=
  let x := fnSt s n
  match bucketOf x d.bucket, x.manifest, grpOf x with
  | some e, some m, some g =>
    (match bucketTop x d.bucket e, intakeBinding m e with
     | some top, some b =>
       let blocked := hFlag p && s.parked.any (fun q => decide (q.fn = n) && decide (hSrc q.packet = hSrc p) &&
         decide (q.id < id) && decide ((parseLanding q.packet.payload).bucket = d.bucket))
       if blocked then none else
       (match accAllocAll s n (landRows g b d) with
        | none => none
        | some s =>
          let upds := splitLines (landAdds s n e b g d) []
          let s := upds.foldl (fun s u => queueUpd s ⟨rowSlice x u.2.1, bankOf u.1 ((u.2.2.head?.map (fun a => a.1)).getD 0 / 16),
            id, n, d.bucket, u.2.1, top, u.2.2⟩) s
          let s := { s with landPkts := s.landPkts ++ [⟨id, n, hSrc p, d.bucket, hFlag p,
            if hFlag p then d.tokens else 0, upds.length⟩] }
          some (landProgress s.landPkts.length s))
     | _, _ => none)
  | _, _, _ => some s

/-- Apply a current PROBE packet (R107, R108). -/
def landProbe (s : State) (n : Nat) (flagged : Bool) (d : Landing) : State :=
  let x := fnSt s n
  match bucketOf x d.bucket with
  | none => s
  | some e =>
    if !e.auto then s
    else if sealFired s e.probeSeal then addF s (pgFn n) FN_INTAKE_COUNT_LATE 1
    else
      let old := (x.probes.find? (fun p => decide (p.bucket = d.bucket))).getD ⟨d.bucket, none, none⟩
      let new : Option Int := if d.probeExp = -32768 then old.maxExp else
        some (match old.maxExp with | some v => max v d.probeExp | none => d.probeExp)
      let s := modFn s n (fun x => { x with probes := x.probes.filter (fun p => decide (p.bucket ≠ d.bucket)) ++ [⟨d.bucket, new, none⟩] })
      if flagged then sealArrive s e.probeSeal 1 else s

/-- The probe seal of a bucket fires: E is the largest PROBE_EXP, clamped, or WINDOW_TOP (R107). -/
def probeFired (s : State) (n b : Nat) (e : IntakeEntry) : State :=
  modFn s n (fun x =>
    let old := (x.probes.find? (fun p => decide (p.bucket = b))).getD ⟨b, none, none⟩
    let top : Int := match old.maxExp with | some v => max (-71) (min 127 v) | none => e.windowTop
    { x with probes := x.probes.filter (fun p => decide (p.bucket ≠ b)) ++ [⟨b, old.maxExp, some top⟩] })

/-- A malformed packet: counted, an event, and a flagged one's arrival (Table 4.3). -/
def landBad (s : State) (n id : Nat) (p : Packet) (d : Landing) : State :=
  let x := fnSt s n
  let s := postEvent (addF s (pgFn n) FN_INTAKE_COUNT_MALFORMED 1) n 0x0013 (leBytes 4 d.bucket ++ leBytes 4 (hSrc p))
  match bucketOf x d.bucket with
  | none => s
  | some e =>
    if !hFlag p then s
    else if d.kind = 0 then
      let s := { s with landPkts := s.landPkts ++ [⟨id, n, hSrc p, d.bucket, true, 0, 0⟩] }
      landProgress s.landPkts.length s
    else if d.kind = 1 ∧ e.auto = true then sealArrive s e.probeSeal 1
    else s

/-- Process a landing packet now; none when it must be parked (R99, R102). -/
def landTry (s : State) (n id : Nat) (p : Packet) : Option State :=
  let d := parseLanding p.payload
  match landClass s n d with
  | .early => none
  | .stale => some (addF s (pgFn n) FN_INTAKE_COUNT_STALE 1)
  | .late => some (addF s (pgFn n) FN_INTAKE_COUNT_LATE 1)
  | .malformed => some (landBad s n id p d)
  | .current => if d.kind = 1 then some (landProbe s n (hFlag p) d) else landData s n id p d

/-! ### Parking (R102) -/

/-- Bytes of a function's parked payloads. -/
def parkedBytes (s : State) (n : Nat) : Nat :=
  ((s.parked.filter (fun q => decide (q.fn = n))).map (fun q => q.packet.payload.length)).sum

/-- The port asserts XOFF for TC2 while a slice has at most 2 of its 16 TC2 slots free, and XON at 4 (Table 8.10). -/
def tc2Flow (s : State) : State :=
  let worst := (List.range 16).foldl (fun a sl => max a (s.tc2Held.filter (fun q => decide (q.slice = sl))).length) 0
  let on := bit (getF s pgPort PORT_STATUS_XOFF_OUT) 1
  let now := if 14 ≤ worst then true else if worst ≤ 12 then false else on
  setF s pgPort PORT_STATUS_XOFF_OUT (putBit (getF s pgPort PORT_STATUS_XOFF_OUT) 1 now)

/-- Show PARKING. -/
def showParking (s : State) (n : Nat) : State :=
  setFnF s n FN_INTAKE_STATUS_PARKING (b2n (s.parked.any (fun q => decide (q.fn = n))))

/-- Park a packet, or hold it at the ingress while the park region is full. -/
def park (s : State) (n sl id : Nat) (p : Packet) : State :=
  if parkedBytes s n + p.payload.length ≤ forceF s n FN_LANDING_AREA_PARK_SIZE * 67108864 then
    showParking { s with parked := s.parked ++ [⟨id, n, sl, p⟩] } n
  else
    let s := if forceF s n FN_LANDING_AREA_PARK_SIZE = 0 then s else flagF s (pgFn n) FN_INTAKE_STATUS_PARK_FULL
    tc2Flow { s with tc2Held := s.tc2Held ++ [⟨id, n, sl, p⟩] }

/-- Replay parked packets in park order: each whose condition has cleared is processed (R102). -/
def replay (s : State) (n : Nat) (l : List Parked) : State :=
  l.foldl (fun s q =>
    if q.fn = n ∧ q ∈ s.parked then
      match landTry { s with parked := s.parked.erase q } n q.id q.packet with
      | some s => s
      | none => s
    else s) s

/-- Packets held at the ingress enter once they need not park or there is room. -/
def retryHeld (s : State) (l : List Parked) : State :=
  l.foldl (fun s q =>
    let s' := { s with tc2Held := s.tc2Held.erase q }
    match landTry s' q.fn q.id q.packet with
    | some s => s
    | none => if parkedBytes s' q.fn + q.packet.payload.length ≤ forceF s' q.fn FN_LANDING_AREA_PARK_SIZE * 67108864
        then park s' q.fn q.slice q.id q.packet else s) s

/-- PARK_REPLAY for function `n`. -/
def parkReplay (s : State) (n : Nat) : State :=
  let s := showParking (replay s n s.parked) n
  tc2Flow (retryHeld s s.tc2Held)

/-- A landing packet reaches its function (R98, R99, R281). -/
def landArrival (s : State) (n sl : Nat) (p : Packet) : State :=
  match (fnSt s n).forwardTo with
  | some e => sendPacket s ⟨mkHeader (dieBits e + sl * 256) (sliceEndpoint (selfDie s) sl) 3 2
      (flagsByte (hFlag p) (curGen s n)) (p.payload.length / 64) (routeFn e) 0 (memForm (2 * 2 ^ 44) p.payload.length 0), p.payload⟩
  | none =>
    let id := s.landSeq
    let s := { s with landSeq := id + 1 }
    match landTry s n id p with
    | some s => s
    | none => park s n sl id p

/-! ### A bank applies a line update (R101, R103 to R105) -/

/-- Add one FP32 pattern to an accumulator (R103). -/
def accAdd (s : State) (u : LineUpd) (pos pat : Nat) : State :=
  let fx := fx96OfFp32 pat u.top
  let s := if fx.nonfinite then modFn s u.fn (fun x => { x with partNonfinite := true }) else s
  let s := if fx.above then
      let first := decide (fnF s u.fn FN_INTAKE_STATUS_OVERRANGE = 0)
      let s := if first then setFnF s u.fn FN_OVERRANGE_INFO_FIRST_BUCKET u.bucket else s
      let s := addF (flagF s (pgFn u.fn) FN_INTAKE_STATUS_OVERRANGE) (pgFn u.fn) FN_OVERRANGE_INFO_COUNT 1
      modFn s u.fn (fun x => { x with satCount := x.satCount + 1, satFirst := if x.satCount = 0 then u.bucket else x.satFirst })
    else s
  { s with accs := s.accs.map (fun a => if a.fn = u.fn ∧ a.row = u.row then
      { a with vals := tabSet 0 a.vals pos (unsigned 96 ((tabGet 0 a.vals pos : Nat) + fx.val)) } else a) }

/-- The oldest line update of a bank is applied. -/
def bankApply (s : State) (sl bank : Nat) : State :=
  match s.updates.find? (fun u => decide (u.slice = sl) && decide (u.bank = bank)) with
  | none => s
  | some u =>
    let s := { s with updates := s.updates.erase u }
    let s := u.adds.foldl (fun s a => accAdd s u a.1 a.2) s
    let s := { s with landPkts := s.landPkts.map (fun k => if k.id = u.packet then { k with left := k.left - 1 } else k) }
    landProgress s.landPkts.length s

/-! ### Readout (R106) -/

/-- Round out the accumulators of a gradient row: the FP32 patterns by position; NORM2 and NONFINITE are updated and the
lines released. None where no packet touched the leaf. -/
def readout (s : State) (n row : Nat) (top : Int) : Option (State × List Nat) :=
  match s.accs.find? (fun a => decide (a.fn = n) && decide (a.row = row)) with
  | none => none
  | some a =>
    let outs := (List.range 16320).map (fun i => fp32OfFx96 (signed 96 (tabGet 0 a.vals i)) top)
    let sum := outs.foldl (fun acc o => acc + squareTerm o.1) 0
    let s := modFn s n (fun x => { x with partNorm2 := (x.partNorm2 + sum) % 2 ^ 640,
                                          partNonfinite := x.partNonfinite || outs.any (fun o => o.2) })
    some (showLines { s with accs := s.accs.erase a } a.slice, outs.map Prod.fst)

/-! ### Intake of a step: opening, discarding, partials, gradient seal -/

/-- The count a bucket's seals are armed with: EXPECTED, or what CONTRACT lowered it to (R287). -/
def bucketExpected (x : FnSt) (b : Nat) (e : IntakeEntry) : Nat := tabGet e.expected x.contracted b

/-- The member's buckets. -/
def myBuckets (x : FnSt) : List (Nat × IntakeEntry) :=
  match x.manifest with
  | none => []
  | some m => memberIntake m x.group x.self

/-- Arm the bucket and probe seals of the member (R67, R107). -/
def armBuckets (s : State) (n : Nat) : State :=
  let x := fnSt s n
  (myBuckets x).foldl (fun s q =>
    let s := sealArm s n q.2.bucketSeal (bucketExpected x q.1 q.2)
    if q.2.auto then sealArm s n q.2.probeSeal (bucketExpected x q.1 q.2) else s) s

/-- Discard what landed in the open attempt: accumulators, line updates, parked packets of the step, probes, partials
(R88, R110). Early packets of the next step stay. -/
def discardLanded (s : State) (n : Nat) : State :=
  let x := fnSt s n
  let mine := fun (q : Parked) => decide (q.fn = n) && decide ((parseLanding q.packet.payload).stepLo = low32 x.step)
  let s := { s with accs := s.accs.filter (fun a => decide (a.fn ≠ n)), updates := s.updates.filter (fun u => decide (u.fn ≠ n)),
                    landPkts := s.landPkts.filter (fun k => decide (k.fn ≠ n)), parked := s.parked.filter (fun q => !mine q),
                    waits := s.waits.filter (fun w => !(decide (w.fn = n) && decide (w.kind = .grad))) }
  let s := (List.range 16).foldl showLines s
  let s := modFn s n (fun x => { x with
    probes := [], partNorm2 := 0, partNonfinite := false, partTokens := 0, satCount := 0,
    satFirst := 0, scalarsSent := false, scalarsDone := false, work := x.work.filter (fun w => decide (w.area ≠ 1)) })
  showParking s n

/-- The work record of a member's row. -/
def workAt (x : FnSt) (member area row : Nat) : Option RowWork :=
  x.work.find? (fun w => decide (w.member = member) && decide (w.area = area) && decide (w.row = row))

/-- The work record of a row of this die's own member. -/
def workOf (x : FnSt) (area row : Nat) : Option RowWork := workAt x x.self area row

/-- The gradient rows of a bucket on this member. -/
def bucketRows (x : FnSt) (e : IntakeEntry) : List Nat :=
  match x.manifest, grpOf x with
  | some m, some g => match intakeBinding m e with
    | some b => (bucketGrads b e).map (fun o => dataRow g.k g.n b.member (b.gradFirst + o))
    | none => []
  | _, _ => []

/-- A gradient leaf is safe: sent, and no receipt is owed (R69). -/
def gradSafe (s : State) (n row : Nat) : Bool :=
  (match workOf (fnSt s n) 1 row with | some w => w.sent | none => false) &&
    s.waits.all (fun w => !(decide (w.fn = n) && decide (w.area = 1) && decide (w.row = row) && decide (w.kind = .grad)))

/-- Every bucket is safe: it has sealed and every gradient leaf it covers is safe. The partials are then ready: the scalars
phase begins at the gradient seal (R65, R66, Table 3.1). -/
def partialsReady (s : State) (n : Nat) : Bool :=
  let x := fnSt s n
  (myBuckets x).all (fun q => sealFired s q.2.bucketSeal && (bucketRows x q.2).all (fun r => gradSafe s n r))

/-- Hand the partials to the scalar reduction once they are ready (R65, Table 9.1). -/
def partialsCheck (s : State) (n : Nat) : State :=
  let x := fnSt s n
  if x.intakeOpen && !x.scalarsSent && partialsReady s n then
    let s := modFn s n (fun x => { x with scalarsSent := true })
    collOpen s n 0 1 [x.partNorm2, x.partTokens, b2n x.partNonfinite]
  else s

/-- No schedule of the function runs (Table 7.18). -/
def schedStop (s : State) (n : Nat) : State :=
  setFnF (setFnF (modFn s n (fun x => { x with sched := 0, turn := 0, shift := 0 })) n FN_WHEEL_STATUS_SCHED 0) n FN_WHEEL_STATUS_TURN 0

/-- The member reaches its gradient seal when every bucket is safe and its partials are delivered (R65). -/
def gradSealCheck (s : State) (n : Nat) : State :=
  let x := fnSt s n
  let delivered := x.scalarsDone || (collAt x 0).delivered
  if x.intakeOpen && x.scalarsSent && delivered && partialsReady s n && !x.aborting then
    let s := modFn s n (fun x => { x with gradSealed := true, intakeOpen := false })
    let s := setFnF s n FN_STEP_STATUS_PHASE 2
    let s := if x.satCount = 0 then s
      else postEvent s n 0x0011 (leBytes 8 x.step ++ leBytes 4 x.satFirst ++ leBytes 4 x.satCount)
    todo s (.gradSealed n)
  else s

/-- Open intake of the current step with an attempt number (R86, R110). -/
def openIntake (s : State) (n attempt : Nat) : State :=
  let s := modFn s n (fun x => { x with
    intakeOpen := true, gradSealed := false, opened := true, attempt := attempt, probes := [],
    partNorm2 := 0, partNonfinite := false, partTokens := 0, satCount := 0, satFirst := 0, scalarsSent := false, scalarsDone := false,
    passOn := false, bumped := false, slips := 0, fills := 0, lateRow := false, uncompared := false, reran := false,
    xslots := [], xval := 0, work := [], rowsDone := [], drainCloses := [], groupDone := false, contracted := x.contractNext,
    intakeFrom := match x.intakeFrom with | some c => some c | none => some s.counter })
  let s := setFnF s n FN_MEMB_STATUS_CONTRACTED (b2n (!(fnSt s n).contracted.isEmpty))
  let s := schedStop (setFnF (setFnF s n FN_STEP_STATUS_PHASE 1) n FN_INTAKE_STATUS_ATTEMPT attempt) n
  let s := setFnF s n FN_FIFE_STATUS_ABORTS 0
  partialsCheck (armBuckets s n) n

/-- An abort during the copy abandons a page migration: the page stays in its source tier (R34). -/
def migrationDrop (s : State) (n : Nat) : State :=
  match (fnSt s n).migration with
  | some g => if g.copied then s
      else bgComplete (setFnF (modFn s n (fun x => { x with migration := none })) n FN_STATE_STATUS_MIGRATING 0) n 0x05 0xD 0
  | none => s

/-- A step abort (R88, R110): the landed contributions are discarded, the seals re-armed, the next attempt opens. -/
def stepAbort (s : State) (n : Nat) : State :=
  let s := migrationDrop s n
  if (fnSt s n).opened = false then s else
  let s := discardLanded s n
  let x := fnSt s n
  let a := (x.attempt + 1) % 256
  let s := flagF s (pgFn n) FN_STEP_STATUS_STEP_ABORTED
  let s := modFn s n (fun x => { x with
    attempt := a, intakeOpen := true, gradSealed := false, intakeFrom := some s.counter,
    rowsDone := x.rowsDone.filter (fun q => decide (q.1 = 0)) })
  let s := schedStop s n
  let s := setFnF (setFnF s n FN_INTAKE_STATUS_ATTEMPT a) n FN_STEP_STATUS_PHASE 1
  let s := setFnF (setFnF s n FN_INTAKE_STATUS_STALLED 0) n FN_WHEEL_STATUS_HELD 0
  let s := modFn s n (fun x => { x with hold := none })
  partialsCheck (postEvent (armBuckets s n) n 0x0010 (leBytes 8 x.step ++ leBytes 1 a)) n

end Sys2Proof.Machine
end

