-- ==== Sys2Proof/Machine/TrainStep.lean ====
section
/-!
DEFINITION. Interruptions of a step: Bugle (R237 to R239), the pass abort sequence (R90, Table 3.9), drain closes,
flush, the abort and resume barriers, recovery (R91, R92) and what starts a pass or a re-run (R64, R93).
-/

namespace Sys2Proof.Machine

/-! ### The intent ledger (R79, R80, Table 3.6) -/

/-- A ledger entry's CHECK passes and its STATE is FREE or INTENT. -/
def entryOk (e : List Byte) : Bool :=
  decide (field e 0x1C 4 = crc64 (e.take 0x1C) % 2 ^ 32) && decide (field e 0 1 ≤ 1)

/-- An INTENT entry. -/
def intentEntry (fn row stamp digest epoch : Nat) : List Byte :=
  let e := [1] ++ leBytes 1 fn ++ [0, 0] ++ leBytes 4 row ++ leBytes 8 stamp ++ leBytes 8 digest ++ leBytes 4 epoch
  e ++ leBytes 4 (crc64 e % 2 ^ 32)

/-- Indices of ledger entries with a listed byte, ascending; every other entry is FREE (all zero, whose CHECK holds). -/
def ledgerListed (s : State) : List Nat :=
  ((s.near.filter (fun c => decide (c.1 < 67108864))).map (fun c => c.1 / 32)).foldl
    (fun acc i => if acc.head? = some i then acc else i :: acc) [] |>.reverse

/-- Slice of a ledger entry index. -/
def ledgerSlice (i : Nat) : Nat := i / 131072

/-- Change the number of INTENT entries of a slice, and its high-water mark in units of 32 rounded up. -/
def ledgerUse (s : State) (sl : Nat) (up : Bool) : State :=
  let k := getF s (pgSlice sl) SL_LEDGER_STATUS_IN_USE
  let k := if up then k + 1 else k - 1
  maxF (setF s (pgSlice sl) SL_LEDGER_STATUS_IN_USE k) (pgSlice sl) SL_LEDGER_STATUS_HIGH_WATER (ceilDiv k 32)

/-- Write an entry FREE. -/
def ledgerFree (s : State) (i : Nat) : State :=
  let e := nearRead s (32 * i) 32
  let s := if entryOk e && decide (field e 0 1 = 1) then ledgerUse s (ledgerSlice i) false else s
  { s with near := memZero s.near (32 * i) 32 }

/-! ### Leaving work behind -/

/-- Leaf runs in progress of a function are abandoned (Table 3.9 order 1, Table 13.5 order 1). -/
def dropCores (s : State) (n : Nat) : State :=
  { s with cores := s.cores.map (fun c => (c.1, match c.2.run with
    | some r => if r.fn = n ∧ r.droppedAt = none then { c.2 with run := some { r with droppedAt := some s.ticks }, leaf := none } else c.2
    | none => match c.2.leaf with
      | some (f, _) => if f = n then { c.2 with leaf := none } else c.2
      | none => c.2)) }

/-- End a hold of the function's schedule without a record. -/
def dropHold (s : State) (n : Nat) : State :=
  setFnF (setFnF (modFn s n (fun x => { x with hold := none })) n FN_INTAKE_STATUS_STALLED 0) n FN_WHEEL_STATUS_HELD 0

/-- The live holders of a row as waits for their receipts (R68, R75). -/
def holdersOf (x : FnSt) (g : GroupEntry) (row : Nat) : List WaitHolder :=
  (liveHolders x g row).map (fun h => ⟨h.1, h.2, memberDie x h.1 row, false⟩)

/-- Deliver a packet of this die to itself: a contribution a die owes to itself as holder folds locally (R277). -/
def localFolds (s : State) (ps : List Packet) : State :=
  ps.foldl (fun s p => if hType p = 8 ∨ hType p = 9 then recvCoding s p .none else s) s

/-- Send a wait's packets to every holder that has not receipted it, this die's own share folding locally. -/
def sendWait (s : State) (w : Wait) (tc : Nat) : State :=
  let w' := { w with sent := true, sentAt := s.ticks }
  let s := putWait s w w'
  w.holders.foldl (fun s h =>
    if h.done then s
    else if dieBits h.dst = selfDie s then
      localFolds s (sendTo { s with egress := [] } w' tc w.fn h).egress
    else sendTo s w' tc w.fn h) s

/-- Send every remaining packet: registered deltas not yet sent, then owed resends (Table 3.9 order 2, R206). -/
def drainSend (s : State) (n : Nat) : State :=
  let s := (s.waits.filter (fun w => decide (w.fn = n) && decide (w.kind = .state) && !w.sent)).foldl (fun s w => sendWait s w 1) s
  let owed := s.resends.filter (fun r => decide (r.fn = n))
  (if (fnSt s n).mute then [] else owed).foldl (fun s r => sendPacket s r.packet) { s with resends := s.resends.filter (fun r => decide (r.fn ≠ n)) }

/-- Send the drain close from every slice to every other live member (R205). -/
def sendCloses (s : State) (n : Nat) : State :=
  let x := fnSt s n
  if x.mute then s else
  let others := (liveMembers x).filter (fun m => decide (m ≠ x.self))
  (List.range 16).foldl (fun s sl => others.foldl (fun s m =>
    let die := match x.members[m]? with | some e => e.die | none => 0
    sendPacket s ⟨mkHeader (sliceEndpoint die sl) (sliceEndpoint (selfDie s) sl) 9 1 (flagsByte true (curGen s n)) 0
      (routeFn die) 0 (codingForm 0xFFFFFFFF (low32 x.step) x.epoch 0 (areaByte 0 0 false) x.self), []⟩) s) s

/-! ### The pass abort (R90, Table 3.9) -/

/-- Orders 1 and 2: stop registering, drop the runs, drain, send the drain closes. The packets of registered deltas are
all sent here, so their waits end: receipts are ignored from now on. -/
def passAbort (s : State) (n : Nat) (group alone stops : Bool) : State :=
  let s := migrationDrop s n
  let s := setFnF (addF (flagF s (pgFn n) FN_STEP_STATUS_PASS_ABORTED) (pgFn n) FN_STEP_STATUS_PASS_ABORTS 1)
    n FN_STEP_STATUS_PHASE 6
  let s := setFnF s n FN_STEP_STATUS_RERUN 0
  let s := modFn s n (fun x => { x with
    aborting := true, abortGroup := group, abortAlone := alone, abortStops := stops || x.abortStops, passOn := false,
    passFrom := none, work := [] })
  let s := schedStop (dropHold (dropCores s n) n) n
  let s := if alone then s else sendCloses (drainSend s n) n
  let s := { s with waits := s.waits.filter (fun w => !(decide (w.fn = n) && decide (w.kind = .state))),
                    resends := s.resends.filter (fun r => decide (r.fn ≠ n)),
                    twin := if s.twin.fn = some n then { s.twin with waiting := [] } else s.twin }
  todo (modFn s n (fun x => { x with drained := true })) (.drainCheck n)

/-- Every other live member's drain close is held for a slice. -/
def closesHeld (x : FnSt) (sl : Nat) : Bool :=
  (liveMembers x).all (fun m => decide (m = x.self) || x.drainCloses.contains (sl, m))

/-- Orders 3 to 5: each slice flushes, at once after an epoch bump or when this die aborts alone and otherwise when its
drain closes are here; once all have flushed the die arrives at the abort barrier. In HOLD a die arrives and stays
there (R316, R361). -/
def drainCheck (s : State) (n : Nat) : State :=
  if !(fnSt s n).aborting then s else
  let s := (List.range 16).foldl (fun s sl =>
    let x := fnSt s n
    if !x.flushed.contains sl && (x.abortGroup || x.abortAlone || closesHeld x sl) then flushSlice s n sl else s) s
  let x := fnSt s n
  if 16 ≤ x.flushed.length ∧ (collAt x 3).opened = false ∧ fnF s n FN_RECOVERY_STATUS_ACTIVE = 0 ∧
      (collAt x 4).opened = false ∧ x.atAbort = false then
    collOpen (modFn s n (fun x => { x with atAbort := true })) n 3 0 []
  else s

/-- A drain close arrives (R205). It may come before this die has heard the Bugle of its abort, or during the abort before:
each close counts for one abort, and the abort window drops none. -/
def recvClose (s : State) (p : Packet) (u : Upset) : State :=
  let sl := hSlice p
  let n := hFn p
  match codingVerdict s n p (headerOk' p && decide (u ≠ .header)) false true 6 with
  | .bin c => bin s p c sl
  | .ahead => answerReceipt s n p 3
  | .apply =>
    let s := modFn s n (fun x => { x with drainCloses := x.drainCloses ++ [(sl, hMember p)] })
    todo s (.drainCheck n)

/-- Recovery begins when the abort barrier closes (order 6). -/
def recoveryStart (s : State) (n : Nat) : State :=
  setFnF (setFnF s n FN_RECOVERY_STATUS_ACTIVE 1) n FN_STEP_STATUS_PHASE 7

/-- The decode reservation of a row, made at its lowest-indexed live holder and released once the row is settled (R91): where this
die is that holder the slice's buffers show it. -/
def decodeReserve (s : State) (n j : Nat) : State :=
  let x := fnSt s n
  match (grpOf x).bind (fun g => (liveHolders x g j).head?) with
  | some (m, p) =>
    if heldHere x m j then
      match reserve s (rowSlice x j) n 0 0 j p false true with
      | some t => release t (rowSlice x j) n 0 0 j p
      | none => s
    else s
  | none => s

/-- Settle one intent entry of recovery (R91): decode the row, compare the leaf with the entry, free the entry. -/
def recoverEntry (s : State) (n i : Nat) (imgs : Nat → RowImages) : State :=
  let e := nearRead s (32 * i) 32
  let j := field e 4 4
  let stamp := field e 8 8
  let digest := field e 0x10 8
  let x := fnSt s n
  let s := decodeReserve s n j
  let s := match grpOf x with
    | some g => if (liveHolders x g j).isEmpty then markUnrecoverable s n 0 0 j else (decodeRow s n 0 0 j (imgs j) []).state
    | none => s
  let mine := match grpOf x with
    | some g => (List.range g.n).filter (fun m => heldHere x m j && isData g.k g.n m j)
    | none => []
  let same := fun (s : State) (m : Nat) => decide (pmStamp (heldSlot s n m 0 0 j) = stamp)
  let whole := fun (s : State) (m : Nat) => same s m && decide (pmDigest (heldSlot s n m 0 0 j) = digest)
  let torn := mine.filter (fun m => same s m && !whole s m)
  let s := if mine.any (whole s) || torn.isEmpty then s
    else (decodeRow (flagF s (pgFn n) FN_CODE_STATUS_DIGEST_FAIL) n 0 0 j (imgs j) torn).state
  let s := if mine.any (same s) then addF s (pgFn n) FN_RECOVERY_COUNT_FORWARD 1 else addF s (pgFn n) FN_RECOVERY_COUNT_BACK 1
  ledgerFree s i

/-- The stripe rows whose slot on this member lies on a slice. -/
def rowsOnSlice (x : FnSt) (sl : Nat) : List Nat :=
  match x.manifest with
  | some m => (List.range m.stripeRows).filter (fun j => decide (rowSlice x j = sl))
  | none => []

/-- recover (R91): every entry of the function is settled; a bad entry marks its slice, whose rows are then verified and
its bad entries freed (R80). `imgs` gives the other members' slots by row. -/
def recover (s : State) (n : Nat) (imgs : Nat → RowImages) : State :=
  let listed := ledgerListed s
  let bad := listed.filter (fun i => !entryOk (nearRead s (32 * i) 32))
  let mine := listed.filter (fun i => let e := nearRead s (32 * i) 32; entryOk e && decide (field e 0 1 = 1) && decide (field e 1 1 = n))
  let s := setFnF s n FN_RECOVERY_STATUS_INTENTS mine.length
  let s := setFnF s n FN_RECOVERY_STATUS_LEDGER_BAD (b2n (!bad.isEmpty))
  let s := bad.foldl (fun s i => flagF s (pgSlice (ledgerSlice i)) SL_LEDGER_STATUS_BAD) s
  let s := mine.foldl (fun s i => recoverEntry s n i imgs) s
  let slices := (bad.map ledgerSlice).eraseDups
  let s := slices.foldl (fun s sl => (rowsOnSlice (fnSt s n) sl).foldl (fun s j => (verifyRow s n 0 0 j (imgs j)).state) s) s
  bad.foldl (fun s i => { s with near := memZero s.near (32 * i) 32 }) s

/-- Recovery, which began at the abort barrier's close, ends: a stopping abort drains, any other arrives at the resume
barrier (orders 6 and 7, R361). -/
def recoveryDone (s : State) (n : Nat) (imgs : Nat → RowImages) : State :=
  if fnF s n FN_RECOVERY_STATUS_ACTIVE = 0 then s else
  let s := setFnF (recover s n imgs) n FN_RECOVERY_STATUS_ACTIVE 0
  if (fnSt s n).abortStops then todo s (.drainStart n)
  else collOpen s n 4 0 []

/-- One close of each slice and member is spent. -/
def spentCloses (l : List (Nat × Nat)) : List (Nat × Nat) := l.eraseDups.foldl (fun r c => r.erase c) l

/-- The abort is over: the abort window closes and the drain closes that it took are spent. -/
def abortOver (s : State) (n : Nat) : State :=
  modFn s n (fun x => { x with
    aborting := false, abortGroup := false, abortAlone := false, abortStops := false, flushed := [],
    drainCloses := if x.aborting then spentCloses x.drainCloses else x.drainCloses,
    drained := false, atAbort := false })

/-- The resume barrier closed at C (order 8): the re-run waits for its turn start; a member whose group barrier had closed
re-runs nothing and arrives at the step barrier again (R93). -/
def resumed (s : State) (n c : Nat) : State :=
  let s := abortOver s n
  let x := fnSt s n
  if x.groupDone then
    todo (setFnF s n FN_STEP_STATUS_PHASE 5) (.stepArrive n)
  else
    setFnF (modFn s n (fun x => { x with passFrom := some c, rerunDue := true })) n FN_STEP_STATUS_PHASE 2

/-! ### Bugle (R237 to R239) -/

/-- The function's current serial (R238). -/
def bugleSerial (s : State) (n : Nat) : Nat := (fnSt s n).step % 256 * 256 + fnF s n FN_FIFE_STATUS_ABORTS

/-- Forward a Bugle: in three frames on the line, in phases RUN and HOLD, unless it came from there, and to the tree's neighbours other than the one it came from
(R239). -/
def bugleSend (s : State) (n cause serial : Nat) (fromDie : Option Nat) (fromLine : Bool) : State :=
  let x := fnSt s n
  let onLine_ := decide (fnF s n FN_FIFE_STATUS_PATH_ACTIVE = 0)
  let frame := 0x7 * 2 ^ 36 + slotNo s n 0 * 2 ^ 28 + keyOf x * 2 ^ 23 + cause % 128 * 2 ^ 16 + serial
  let phase := getF s pgFife FIFE_STATUS_PHASE
  let s := if fromLine ∨ ¬(phase = 1 ∨ phase = 2) then s
    else (List.range 3).foldl (fun s _ => lineQueue s 7 (slotNo s n 0) 0 [frame]) s
  let nodes := if onLine_ then relaysOf (liveSet x) else liveSet x
  match myIndex s nodes with
  | none => s
  | some i =>
    let near := childrenOf nodes i ++ (if i = 0 then [] else (nodes[(i - 1) / 4]?).toList)
    (near.filter (fun e => decide (some (dieBits e) ≠ fromDie))).foldl (fun s e =>
      sendFife s n e (fifeForm 7 0 0 0 0 0 cause serial) []) s

/-- A Bugle's cause names a stopping kind (R361): PROGRAM_FAULT or CORE_PAIR. -/
def stoppingCause (cause : Nat) : Bool := decide (cause = 4 ∨ cause = 5)

/-- Every collective of the function in progress is cancelled with ABORTED (R238); a software collective's command and a
permute end with it (R236). -/
def cancelAll (s : State) (n : Nat) : State :=
  let soft := (collAt (fnSt s n) 7).opened
  let s := (List.range 8).foldl (fun s off => collCancel s n off 4) s
  let s := if soft then bgComplete s n 0x10 0x0D 0 else s
  if (fnSt s n).permuteSet.isEmpty then s
  else todo (bgComplete (modFn s n (fun x => { x with permuteSet := [] })) n 0x15 0x07 0) (.startCheck n)

/-- Act on a current Bugle (R238, Table 3.8): before C a step abort, at or after C a pass abort; a stopping cause runs
Table 3.9 wherever the step stands (R361). -/
def bugleAct (s : State) (n cause : Nat) (alone : Bool) : State :=
  let serial := fnF s n FN_FIFE_STATUS_ABORTS
  let s := setFnF s n FN_FIFE_STATUS_ABORTS (serial + 1)
  let s := setFnF (flagF s (pgFn n) FN_FIFE_STATUS_BUGLE) n FN_FIFE_STATUS_CAUSE cause
  let s := cancelAll s n
  let s := if cause = 4 then setFnF s n FN_STATE_ABORT_CAUSE 2 else if cause = 5 then setFnF s n FN_STATE_ABORT_CAUSE 3 else s
  if (fnSt s n).scalarsDone || stoppingCause cause || (fnSt s n).abortStops || alone then
    passAbort (abortOver (setFnF s n FN_RECOVERY_STATUS_ACTIVE 0) n) n false alone
      (stoppingCause cause || (fnSt s n).abortStops || alone)
  else stepAbort s n

/-- Lyith sounds Bugle for a function that is RUNNING (R237): it sends it and acts on it. -/
def bugleSound (s : State) (n cause : Nat) (alone : Bool) : State :=
  if !actsRunning s n then s
  else bugleAct (bugleSend s n cause (bugleSerial s n) none false) n cause alone

/-- A Bugle arrives with a cause and serial: acted on and forwarded when current, counted when not (R238, R239);
during a firmware switch it is forwarded at once and acted on at its end (R395). -/
def bugleRecv (s : State) (n cause serial : Nat) (fromDie : Option Nat) (fromLine : Bool) : State :=
  if !actsRunning s n then s
  else if serial = bugleSerial s n then
    let s := bugleSend s n cause serial fromDie fromLine
    if switching s then { s with nvm := { s.nvm with bugles := s.nvm.bugles ++ [(n, cause, serial)] } }
    else bugleAct s n cause false
  else addF s (pgFn n) FN_FIFE_COUNT_STALE_BUGLES 1

/-! ### Starting a pass (R64, R86, R93, Table 3.7) -/

/-- START_MARGIN in ticks. -/
def startMargin (s : State) (n : Nat) : Nat := forceF s n FN_STEP_CTRL_START_MARGIN * 1024

/-- The slots this die owns: its member's, and those it absorbs, as pairs of member and row. -/
def absorbedRows (x : FnSt) (rows : Nat) : List (Nat × Nat) :=
  ((List.range x.members.length).map (fun m =>
    if m ≠ x.self ∧ isAbsorbed x m = true then ((List.range rows).filter (fun j => heldHere x m j)).map (fun j => (m, j)) else [])).flatten

/-- A slot of the stripe area arrives at the group-seal object when the pass starts: a mask leaf, a free or unbound slot,
or a pigeonhole whose row expects nothing (Table 3.7). -/
def arrivesAtStart (m : Manifest) (g : GroupEntry) (mem j : Nat) (load : Bool) : Bool :=
  if isData g.k g.n mem j then !expectsContribution m g mem 0 j load
  else (expectedMembers m g 0 j load).isEmpty

/-- Arm the group-seal object and make the arrivals that fall due when the pass starts (R86). -/
def armPass (s : State) (n : Nat) (load : Bool) : State :=
  let x := fnSt s n
  match x.manifest, grpOf x with
  | some m, some g =>
    let slots := (List.range m.stripeRows).map (fun j => (x.self, j)) ++ absorbedRows x m.stripeRows
    let now := (slots.filter (fun q => arrivesAtStart m g q.1 q.2 load)).length
    let s := modFn s n (fun x => { x with
      passOn := true, work := x.work.filter (fun w => decide (w.area = 1)),
      rowsDone := x.rowsDone.filter (fun q => decide (q.1 = 1)) })
    sealArrive (sealArm s n g.groupSeal slots.length) g.groupSeal now
  | _, _ => s

end Sys2Proof.Machine
end

