-- ==== Sys2Proof/Machine/Hold.lean ====
section
/-!
DEFINITION. The schedule's position, its holds and the turns they cost (R172, R186, R194).
-/

namespace Sys2Proof.Machine

/-- First slot of a function's segment, and the slots of the segment that are schedule positions: the guard slot is none
(R173, R179). -/
def segStart (w : WheelImage) : Nat := 64 * w.segBase
def ownLen (w : WheelImage) (len : Nat) : Nat := min (64 * w.segLen) (len - 1 - segStart w)

/-- Counter slots from the turn's start to the position that lies `i` own slots after the segment's start: the position
advances only in the function's own segment, turn after turn (R186). -/
def ownSlot (w : WheelImage) (len i : Nat) : Nat :=
  i / max 1 (ownLen w len) * len + segStart w + i % max 1 (ownLen w len)

/-- Own slots that have passed at `c` counter slots from the turn's start. -/
def ownIndex (w : WheelImage) (len c : Nat) : Nat := c / len * ownLen w len + min (ownLen w len) (c % len - segStart w)

/-- Counter value at which schedule slot `slot` of the running turn falls due, with a shift. -/
def slotAtShift (s : State) (x : FnSt) (shift slot : Nat) : Nat :=
  match x.wheel with
  | none => x.turnAt
  | some w => x.turnAt + 32 * ownSlot w (wheelLen s) (slot - segStart w + shift)

/-- Counter value at which schedule slot `slot` of the running turn falls due. -/
def slotAt (s : State) (x : FnSt) (slot : Nat) : Nat := slotAtShift s x x.shift slot

/-- The schedule slot at which the running schedule stands. -/
def posNow (s : State) (x : FnSt) : Nat :=
  match x.wheel with
  | none => 0
  | some w => segStart w + (ownIndex w (wheelLen s) ((s.counter - x.turnAt) / 32) - x.shift)

/-- End of the latest entry of a turn of the running schedule, over entries that end within the turn (R186). -/
def turnEnd (x : FnSt) (len : Nat) : Nat :=
  match x.wheel with
  | none => 0
  | some w => w.entries.foldl (fun m e =>
      if e.sched + 1 = x.sched ∧ e.slot + e.length ≤ len ∧ (e.firstOnly = false ∨ x.turn = 0) then max m (e.slot + e.length)
      else m) 0

/-- Counter value at which the next turn begins, with a shift: the first counter turn start at or after the end of the
turn's latest entry (R186). -/
def nextTurnAt (s : State) (x : FnSt) (shift : Nat) : Nat :=
  let e := turnEnd x (wheelLen s)
  max (x.turnAt + 32 * wheelLen s) (if e = 0 then 0 else turnStartAt s (slotAtShift s x shift (e - 1) + 32))

/-- The function holds, if it does not hold already (R186). -/
def holdStart (s : State) (n cause detail slice core sched position : Nat) (entry : Option Nat) : State :=
  match (fnSt s n).hold with
  | some _ => s
  | none =>
    let s := modFn s n (fun x => { x with hold := some ⟨cause, detail, slice, core, sched, s.counter, position, entry⟩ })
    let s := setFnF s n FN_WHEEL_STATUS_HELD 1
    if cause = 1 then setFnF (setFnF s n FN_INTAKE_STATUS_STALLED 1) n FN_INTAKE_STATUS_STALL_BUCKET detail else s

/-- The hold ends at the first slot boundary at or after now; the position shifts by the slots held, and the record tells
the counter turns this costs (R186, R194). The hold does not count against RECEIPT_LIMIT (R338). -/
def holdEnd (s : State) (n : Nat) : State :=
  match (fnSt s n).hold with
  | none => s
  | some h =>
    let s := advance s (roundUp s.counter 32 - s.counter)
    let x := fnSt s n
    let slots := match x.wheel with
      | some w => ownIndex w (wheelLen s) ((s.counter - x.turnAt) / 32) - ownIndex w (wheelLen s) ((h.since - x.turnAt) / 32)
      | none => 0
    let skipped := (nextTurnAt s x (x.shift + slots) - nextTurnAt s x x.shift) / (32 * wheelLen s)
    let s := modFn s n (fun x => { x with hold := none, shift := x.shift + slots })
    let held := s.counter - h.since
    let s := { s with waits := s.waits.map (fun w => if w.fn = n ∧ w.sent = true then { w with sentAt := w.sentAt + min held (s.ticks - w.sentAt) } else w) }
    let s := setFnF (setFnF s n FN_WHEEL_STATUS_HELD 0) n FN_INTAKE_STATUS_STALLED 0
    deviation s n h.cause h.slice h.core h.sched h.detail h.since h.position skipped

/-- The state rows that this member binds, with their leaves. -/
def stateRows (x : FnSt) : List (Nat × LeafRef) :=
  match x.manifest, grpOf x with
  | some m, some g => (List.range m.stripeRows).filterMap (fun j =>
      match leafAt m g x.self 0 j with
      | some l => if l.kind = .state then some (j, l) else none
      | none => none)
  | _, _ => []

/-- PHASE of a leaf's class under the program set in force. -/
def leafPhase (x : FnSt) (tensor : Nat) : Nat :=
  match x.progs with
  | some p => (phaseOf p tensor).getD 1
  | none => 1

/-- Every phase-0 leaf of the member has been written or passed over in this pass (R132, Table 7.3). -/
def phase0Done (x : FnSt) : Bool :=
  (stateRows x).all (fun q => decide (leafPhase x q.2.binding.tensor ≠ 0) ||
    (match workOf x 0 q.1 with
     | some w => w.written || (w.loaded && w.isNull) || w.settled
     | none => false))

end Sys2Proof.Machine
end

