-- ==== Sys2Proof/Machine/Twin.lean ====
section
/-!
DEFINITION. Twin mode: the comparator, its messages, the pending table, and the location of a mismatch (R425 to R431,
R434, Tables 16.2, 16.3 and 16.7).
-/

namespace Sys2Proof.Machine

/-! ### Messages (R427) -/

/-- The PAIR message of function `n` (Table 16.3). -/
def pairMsg (s : State) (n : Nat) : List Byte :=
  let x := fnSt s n
  let g := match grpOf x with | some g => g.k * 16 + g.r | none => 0
  fit 64 ([1] ++ zeros 7 ++ leBytes 8 x.step ++ leBytes 8 ((x.manifest.map (fun m => m.twinKey)).getD 0) ++
    leBytes 8 ((x.progs.map (fun p => p.digest)).getD 0) ++ leBytes 8 ((x.wheel.map (fun w => w.scheduleId)).getD 0) ++
    leBytes 8 ((x.manifest.map (fun m => m.jobSeed)).getD 0) ++ leBytes 1 g ++ leBytes 1 x.self)

/-- The DIGEST message of an entry. -/
def digestMsg (p : TwinPend) : List Byte :=
  fit 64 ([2] ++ zeros 3 ++ leBytes 4 p.tensor ++ leBytes 8 p.step ++ leBytes 4 p.leaf ++ leBytes 1 p.slice ++
    leBytes 1 p.core ++ zeros 2 ++ leBytes 8 p.digest ++ leBytes 8 p.ext)

/-- The CRC-64 of each 64-byte line of a body (R123). -/
def lineValues (body : List Byte) : List Nat := (List.range 1020).map (fun i => crc64 ((body.drop (64 * i)).take 64))

/-- A LINES message: part `k` of an entry's line values. -/
def linesMsg (p : TwinPend) (k : Nat) (vals : List Nat) : List Byte :=
  fit 1664 ([3] ++ leBytes 1 k ++ zeros 2 ++ leBytes 4 p.tensor ++ leBytes 8 p.step ++ leBytes 4 p.leaf ++ zeros 12 ++
    (((vals.drop (204 * k)).take 204).map (leBytes 8)).flatten)

/-- A LINE message. -/
def lineMsg (p : TwinPend) (l : Nat) (body : List Byte) : List Byte :=
  fit 96 ([4, 0] ++ leBytes 2 l ++ leBytes 4 p.tensor ++ leBytes 8 p.step ++ leBytes 4 p.leaf ++ zeros 12 ++
    (body.drop (64 * l)).take 64)

/-- Send a twin message: a TC7 STORE to space 0x3 at offset 0x800 of the partner's twin page (R427). -/
def twinSend (s : State) (msg : List Byte) : State :=
  let pl := padPayload msg
  sendPacket s ⟨mkHeader (dieBits s.twin.partner) (selfDie s) 3 7 (flagsByte false (curGen s 0)) (pl.length / 64) 0 0
    (memForm (3 * 2 ^ 44 + pgTwin + 0x800) msg.length 0), pl⟩

/-- The bytes of a message kind, and whether its reserved bytes are zero (R427). -/
def twinMsgOk (b : List Byte) : Bool :=
  let k := field b 0 1
  if k = 1 then decide (b.length = 64) && allZero ((b.drop 1).take 7) && allZero ((b.drop 0x32).take 14)
  else if k = 2 then decide (b.length = 64) && allZero ((b.drop 1).take 3) && allZero ((b.drop 0x16).take 2) &&
    allZero (b.drop 0x28)
  else if k = 3 then decide (b.length = 1664) && decide (field b 1 1 ≤ 4) && allZero ((b.drop 2).take 2) &&
    allZero ((b.drop 0x14).take 12)
  else if k = 4 then decide (b.length = 96) && decide (field b 1 1 = 0) && decide (field b 2 2 < 1020) &&
    allZero ((b.drop 0x14).take 12)
  else false

/-! ### Arming (R425, R426, R431) -/

/-- The comparator is armed. -/
def twinArmed (s : State) : Bool := decide (getF s pgTwin TWIN_STATUS_ARMED = 1)

/-- The twinned function is `n`. -/
def isTwin (s : State) (n : Nat) : Bool := decide (s.twin.fn = some n)

/-- Write the pending table, and PENDING. -/
def setPend (s : State) (l : List TwinPend) : State :=
  setF { s with twin := { s.twin with pend := l } } pgTwin TWIN_STATUS_PENDING (min l.length 0xFFFFF)

/-- Disarm: the pending entries are discarded and counted (R431). -/
def twinOff (s : State) : State :=
  let s := addF s pgTwin TWIN_COUNT_UNCHECKED s.twin.pend.length
  setPend (setF { s with twin := { s.twin with waiting := [], compared := [] } } pgTwin TWIN_STATUS_ARMED 0) []

/-- Disarm for good: nothing is compared until the next restart of the function (R431). -/
def twinDisarm (s : State) (n : Nat) : State :=
  if isTwin s n then
    let s := if twinArmed s then twinOff s else s
    { s with twin := { s.twin with fn := none } }
  else s

/-- A PAIR from the partner is held: the comparator arms when it equals its own, and sets PAIR_FAIL otherwise (R426). -/
def twinTest (s : State) (n : Nat) : State :=
  match s.twin.pair with
  | none => s
  | some p =>
    let s := { s with twin := { s.twin with pair := none } }
    if p = pairMsg s n then setF s pgTwin TWIN_STATUS_ARMED 1
    else raiseUnit (flagF s pgTwin TWIN_STATUS_PAIR_FAIL) pgTwin TWIN_INT_PAIR_FAIL

/-- The configuration is read at a restart of FN (R425). -/
def twinRestart (s : State) (n : Nat) : State :=
  if getF s pgTwin TWIN_CTRL_FN ≠ n then s
  else
    let s := twinDisarm s n
    if getF s pgTwin TWIN_CTRL_ENABLE = 1 ∧ s.variant = .F then
      { s with twin := { s.twin with fn := some n, partner := (wordAt s (pgTwin + 0x044)).toNat } }
    else s

/-- The function enters RUNNING: PAIR is sent (R426). -/
def twinEnter (s : State) (n : Nat) : State :=
  if isTwin s n then
    let s := { s with twin := { s.twin with lastAt := s.ticks } }
    twinTest (twinSend s (pairMsg s n)) n
  else s

/-! ### Comparing (R428, R429) -/

/-- Two entries are of one leaf of one step. -/
def sameLeaf (a b : TwinPend) : Bool := decide (a.step = b.step) && decide (a.tensor = b.tensor) && decide (a.leaf = b.leaf)

/-- Set the twin status of a state row's work. -/
def setTwin (s : State) (n row v : Nat) : State :=
  modFn s n (fun x => { x with work := x.work.map (fun w =>
    if w.member = x.self ∧ w.area = 0 ∧ w.row = row then { w with twin := v, twinAt := s.ticks } else w) })

/-- Frame B's body of a core. -/
def frameB (s : State) (sl c : Nat) : List Byte := memReadN (coreSt s (coreIx sl c)).sram 0x10100 65280

/-- Frame B of the core that ran an entry's leaf still holds the leaf. -/
def holdsLeaf (s : State) (n : Nat) (p : TwinPend) : Bool :=
  decide ((coreSt s (coreIx p.slice p.core)).leaf = some (n, 0, (fnSt s n).self, p.row))

/-- A mismatch (R430): REG of the leaf does not start, and LINES go to the partner while frame B holds the leaf. One
mismatch is located at a time. -/
def twinMismatch (s : State) (n : Nat) (mine theirs : TwinPend) (late : Bool) : State :=
  let s := setTwin s n mine.row 4
  if s.twin.mm.isSome then s else
  let s := { s with twin := { s.twin with mm := some ⟨mine, theirs, late, s.ticks, [], none, none⟩ } }
  if holdsLeaf s n mine then
    let vals := lineValues (frameB s mine.slice mine.core)
    (List.range 5).foldl (fun s k => twinSend s (linesMsg mine k vals)) s
  else s

/-- Compare the two sides of a leaf. -/
def twinCompare (s : State) (n : Nat) (mine theirs : TwinPend) (late : Bool) : State :=
  let s := addF s pgTwin TWIN_COUNT_COMPARED 1
  let s := { s with twin := { s.twin with compared := s.twin.compared ++ [(mine.step, mine.tensor, mine.leaf)] } }
  if mine.digest = theirs.digest ∧ mine.ext = theirs.ext then (if late then s else setTwin s n mine.row 2)
  else twinMismatch s n mine theirs late

/-- Add an entry to the pending table; a full one evicts its oldest (R429). -/
def pendAdd (s : State) (p : TwinPend) : State :=
  if 1048576 ≤ s.twin.pend.length then setPend (addF s pgTwin TWIN_COUNT_UNCHECKED 1) (s.twin.pend.drop 1 ++ [p])
  else setPend s (s.twin.pend ++ [p])

/-- A leaf's digest is ready at the end of its run window (R428): DIGEST is sent, and the leaf is compared at once when
the partner's is held. -/
def twinLocal (s : State) (n : Nat) (mine : TwinPend) : State :=
  if !(isTwin s n && twinArmed s) then s else
  let s := twinSend s (digestMsg mine)
  let s := { s with twin := { s.twin with waiting := s.twin.waiting.filter (fun p => !sameLeaf p mine) } }
  match s.twin.pend.find? (fun p => !p.own && sameLeaf p mine) with
  | some p => twinCompare (setPend s (s.twin.pend.erase p)) n mine p false
  | none => setTwin { s with twin := { s.twin with waiting := s.twin.waiting ++ [mine] } } n mine.row 1

/-- WAIT has passed (or is zero): the comparison becomes late (R428, R429). -/
def twinLate (s : State) (n row : Nat) : State :=
  match s.twin.waiting.find? (fun p => decide (p.row = row)) with
  | none => setTwin s n row 3
  | some p => setTwin (pendAdd { s with twin := { s.twin with waiting := s.twin.waiting.erase p } } p) n row 3

/-- WAIT in ticks. -/
def twinWait (s : State) : Nat := getF s pgTwin TWIN_CTRL_WAIT * ticksPerUs

/-! ### Locating a mismatch (R430, R434) -/

/-- Bytes of a body that precede plane `i` of a format. -/
def planeAt (f : LeafFormat) (i : Nat) : Nat := planeOffset f.planes (if f.kept = 0 then f.p else f.kept) i

/-- The plane, element and lane of a body byte (R434). -/
def locateByte (f : LeafFormat) (b : Nat) : Nat × Nat × Nat :=
  let i := ((List.range f.planes.length).filter (fun i => decide (planeAt f i ≤ b))).length - 1
  let fb := match f.planes[i]? with | some p => p.fb | none => 0
  let o := b - planeAt f i
  let e :=
    if fbScaled fb then
      let r := alignedRecord (fbCode fb)
      32 * (o / r) + (if o % r < 8 then 0 else (o % r - 8) * 8 / fmtBits (fbCode fb))
    else o * 8 / fmtBits (fbCode fb)
  (i, e, e % 32)

/-- The leaf format of a tensor under the function's manifest. -/
def tensorFormat (x : FnSt) (tensor : Nat) : Option LeafFormat :=
  match x.manifest with
  | none => none
  | some m => (m.bindings.find? (fun b => decide (b.tensor = tensor))).bind (fun b => leafFormat m.formats b.format)

/-- The report is written, MISMATCH is set, the comparator disarms, and the function is reset (R430, Table 16.7). -/
def twinReport (s : State) (n : Nat) (mm : TwinMm) (located : Option (Nat × List Byte × List Byte)) : State :=
  let l := match located with | some t => t.1 | none => 0
  let mineL := match located with | some t => t.2.1 | none => zeros 64
  let theirL := match located with | some t => t.2.2 | none => zeros 64
  let b := (List.range 64).find? (fun i => decide (mineL.getD i 0 ≠ theirL.getD i 0))
  let place := match b, tensorFormat (fnSt s n) mm.mine.tensor with
    | some b, some f => locateByte f (64 * l + b)
    | _, _ => (0, 0, 0)
  let set := fun (s : State) (f : Fld) (v : Nat) => setF s pgTwin f v
  let s := set (set s TWIN_MM_STEP_LO_STEP_LO (low32 mm.mine.step)) TWIN_MM_STEP_HI_STEP_HI (mm.mine.step / 2 ^ 32)
  let s := set (set s TWIN_MM_TENSOR_TENSOR_ID mm.mine.tensor) TWIN_MM_LEAF_LEAF_INDEX mm.mine.leaf
  let s := set (set s TWIN_MM_WHERE_SLICE mm.mine.slice) TWIN_MM_WHERE_CORE mm.mine.core
  let s := set (set s TWIN_MM_WHERE_P_SLICE mm.theirs.slice) TWIN_MM_WHERE_P_CORE mm.theirs.core
  let s := set (set s TWIN_MM_WHERE_LINE l) TWIN_MM_LANE_PLANE place.1
  let s := set (set s TWIN_MM_LANE_ELEMENT place.2.1) TWIN_MM_LANE_LANE place.2.2
  let s := set (set s TWIN_STATUS_LOCATED (b2n located.isSome)) TWIN_STATUS_LATE (b2n mm.late)
  let report := fit 256 (leBytes 8 mm.mine.step ++ leBytes 4 mm.mine.tensor ++ leBytes 4 mm.mine.leaf ++
    leBytes 8 mm.mine.digest ++ leBytes 8 mm.theirs.digest ++ leBytes 4 (wordAt s (pgTwin + 0x060)).toNat ++
    leBytes 4 (wordAt s (pgTwin + 0x064)).toNat ++ leBytes 4 (b2n located.isSome + 2 * b2n mm.late) ++ zeros 20 ++
    mineL ++ theirL)
  let s := { s with twin := { s.twin with mm := none, report := some report } }
  let s := raiseUnit (flagF s pgTwin TWIN_STATUS_MISMATCH) pgTwin TWIN_INT_MISMATCH
  todo (twinDisarm s n) (.resetFn n)

/-- Location goes on (R430): with all five LINES the first differing line is found and sent; with the partner's bytes of
it the report is complete. -/
def twinLocate (s : State) (n : Nat) : State :=
  match s.twin.mm with
  | none => s
  | some mm =>
    if holdsLeaf s n mm.mine = false ∧ mm.line = none then s else
    let body := frameB s mm.mine.slice mm.mine.core
    let found := match mm.line with
      | some l => some l
      | none =>
        if mm.parts.length < 5 then none else
        let theirs := (mm.parts.map (fun p => p.2)).flatten
        let ours := lineValues body
        (List.range 1020).find? (fun i => decide (ours.getD i 0 ≠ theirs.getD i 0))
    let s := match mm.line, found with
      | none, some l => twinSend s (lineMsg mm.mine l body)
      | _, _ => s
    let mm := { mm with line := found }
    let s := { s with twin := { s.twin with mm := some mm } }
    match found, mm.theirLine with
    | some l, some (l', bs) => if l = l' ∧ holdsLeaf s n mm.mine then twinReport s n mm (some (l, (body.drop (64 * l)).take 64, bs)) else s
    | _, _ => s

/-! ### Messages from the partner -/

/-- A PAIR arrives (R426): while armed it disarms the comparator; it is tested once the function runs. -/
def recvPair (s : State) (msg : List Byte) : State :=
  let s := { s with twin := { s.twin with pair := some msg, lastAt := s.ticks } }
  let s := if twinArmed s then twinOff s else s
  match s.twin.fn with
  | some n => if actsRunning s n then twinTest s n else s
  | none => s

/-- A DIGEST arrives (R428, R429). One of a leaf already compared, whose slot carries the step, is dropped. -/
def recvDigest (s : State) (msg : List Byte) : State :=
  match s.twin.fn with
  | none => s
  | some n =>
    let s := { s with twin := { s.twin with lastAt := s.ticks } }
    if !twinArmed s then s else
    let p : TwinPend := ⟨false, field msg 8 8, field msg 4 4, field msg 0x10 4, field msg 0x18 8, field msg 0x20 8,
      field msg 0x14 1, field msg 0x15 1, 0⟩
    match s.twin.waiting.find? (sameLeaf p) with
    | some w => twinCompare { s with twin := { s.twin with waiting := s.twin.waiting.erase w } } n w p false
    | none => match s.twin.pend.find? (fun q => q.own && sameLeaf q p) with
      | some w => twinCompare (setPend s (s.twin.pend.erase w)) n w p true
      | none =>
        let row := ((stateRows (fnSt s n)).find? (fun q => decide (q.2.binding.tensor = p.tensor) && decide (q.2.index = p.leaf))).map (fun q => q.1)
        let done := match row with | some j => decide (pmStamp (slotRead s n 0 0 j) = p.step) | none => true
        if s.twin.compared.contains (p.step, p.tensor, p.leaf) && done then s else pendAdd s p

/-- A LINES message arrives. -/
def recvLines (s : State) (msg : List Byte) : State :=
  match s.twin.fn, s.twin.mm with
  | some n, some mm =>
    if field msg 4 4 = mm.mine.tensor ∧ field msg 8 8 = mm.mine.step ∧ field msg 0x10 4 = mm.mine.leaf then
      let vals := (List.range 204).map (fun i => field msg (0x20 + 8 * i) 8)
      twinLocate { s with twin := { s.twin with mm := some { mm with parts := tabPut mm.parts (field msg 1 1) (some vals) } } } n
    else s
  | _, _ => s

/-- A LINE message arrives. -/
def recvLine (s : State) (msg : List Byte) : State :=
  match s.twin.fn, s.twin.mm with
  | some n, some mm =>
    if field msg 4 4 = mm.mine.tensor ∧ field msg 8 8 = mm.mine.step ∧ field msg 0x10 4 = mm.mine.leaf then
      twinLocate { s with twin := { s.twin with mm := some { mm with theirLine := some (field msg 2 2, (msg.drop 0x20).take 64) } } } n
    else s
  | _, _ => s

/-- The comparator takes a STORE whole (R427). -/
def twinStore (s : State) (src : Nat) (msg : List Byte) : State :=
  if !twinMsgOk msg || decide (s.variant = .C) || (s.twin.fn.isSome && decide (dieBits src ≠ dieBits s.twin.partner)) then s
  else
    let k := field msg 0 1
    if k = 1 then recvPair s msg
    else if k = 2 then recvDigest s msg
    else if k = 3 then recvLines s msg
    else recvLine s msg

/-- A packet is a twin message of a kind. -/
def twinPacket (s : State) (p : Packet) (kind : Nat) : State :=
  let msg := p.payload.take (hBytes p)
  if headerOk' p ∧ hType p = 3 ∧ hSpace p = 3 ∧ hAddr p = pgTwin + 0x800 ∧ hPoison p = false ∧ field msg 0 1 = kind then
    twinStore s (hSrc p) msg
  else s

/-! ### The comparator's timers -/

/-- TWIN_WAIT_EXPIRY: the wait of the leaf that REG holds on reaches WAIT. -/
def waitExpiry (s : State) (n : Nat) : State :=
  match (fnSt s n).work.find? (fun w => decide (w.twin = 1)) with
  | none => s
  | some w => if isTwin s n && twinArmed s then twinLate (advanceTo s (w.twinAt + twinWait s)) n w.row else s

/-- PARTNER_LOST: the partner has been silent for LOST while the pending table was not empty (R431). -/
def partnerLost (s : State) : State :=
  match s.twin.fn with
  | none => s
  | some n =>
    let lost := getF s pgTwin TWIN_CTRL_LOST
    if twinArmed s = false ∨ lost = 0 ∨ s.twin.pend = [] then s
    else
      let s := advanceTo s (s.twin.lastAt + lost * 8000000)
      twinDisarm (raiseUnit (flagF s pgTwin TWIN_STATUS_PARTNER_LOST) pgTwin TWIN_INT_PARTNER_LOST) n

/-- LOCATION_TIMEOUT: 160,000 ticks after the mismatch without a complete location (R430). -/
def locationTimeout (s : State) : State :=
  match s.twin.fn, s.twin.mm with
  | some n, some mm => twinReport (advanceTo s (mm.since + 160000)) n mm none
  | _, _ => s

end Sys2Proof.Machine
end

