-- ==== Sys2Proof/Machine/WheelWork.lean ====
section
/-!
DEFINITION. What the wheel's actions do on a row (Table 7.3): readout and commit of gradient leaves (R68, R106, R125), the
state leaf on its owner (R75, R76, R83, R84, R93), working copies (R36, R114, R124), and the holder's writes (R73). Each
has its condition (R183) and its work.
-/

namespace Sys2Proof.Machine

/-- What an action works on: the function, the slice, the core that serves it, the member and row of its slot, and the
other slots it may have to read. -/
structure ActOn where
  n : Nat
  sl : Nat
  core : Nat
  m : Nat
  j : Nat
  rows : RowSet
  deriving DecidableEq, Repr

/-- What an action's condition says (R183, R186): it is idle, it waits under a deviation cause with a detail, or it
starts. -/
inductive Cond where
  | idle
  | wait (cause detail : Nat)
  | go
  deriving DecidableEq, Repr

/-- The global number of the action's core. -/
def ActOn.ix (k : ActOn) : Nat := coreIx k.sl k.core

/-- UNIT_OVERRUN of an action at a unit (Table 7.6). -/
def overrun (action unit : Nat) : Cond := .wait 9 (action + 256 * unit)

/-! ### Work records -/

/-- The work record of the action's row. -/
def ActOn.work (k : ActOn) (x : FnSt) (area : Nat) : RowWork :=
  (workAt x k.m area k.j).getD
    { member := k.m, area := area, row := k.j, slice := k.sl, core := k.core, isNull := false, settled := false,
      loaded := false, run := false, committed := false, reg := false, registered := false, sent := false, written := false,
      done := false, ledger := 0, twin := 0, twinAt := 0 }

/-- Replace a work record. -/
def putWork (s : State) (n : Nat) (w : RowWork) : State :=
  modFn s n (fun x => { x with work := x.work.filter (fun v =>
    !(decide (v.member = w.member) && decide (v.area = w.area) && decide (v.row = w.row))) ++ [w] })

/-- The leaf that the manifest binds at the action's slot. -/
def ActOn.leaf (k : ActOn) (x : FnSt) (area : Nat) : Option LeafRef :=
  match x.manifest, grpOf x with
  | some m, some g => leafAt m g k.m area k.j
  | _, _ => none

/-- The core serves no leaf and runs nothing; an abandoned run (Table 3.9, order 1) holds no core. -/
def coreFree (s : State) (i : Nat) : Bool :=
  (coreSt s i).leaf.isNone && (match (coreSt s i).run with | none => true | some r => r.droppedAt.isSome)

/-- The core serves the action's leaf. -/
def ActOn.serves (s : State) (k : ActOn) (area : Nat) : Bool := decide ((coreSt s k.ix).leaf = some (k.n, area, k.m, k.j))

/-- The core takes the leaf and some bytes of its data SRAM. -/
def takeLeaf (s : State) (k : ActOn) (area a : Nat) (bs : List Byte) : State :=
  let c := coreSt s k.ix
  setCore s k.ix { c with leaf := some (k.n, area, k.m, k.j), sram := memWriteN c.sram a bs }

/-- The core is free for another leaf. -/
def freeCore (s : State) (i : Nat) (leaf : Nat × Nat × Nat × Nat) : State :=
  let c := coreSt s i
  if c.leaf = some leaf then setCore s i { c with leaf := none } else s

/-- The slot that frame A (0) or frame B (0x10000) of a core holds. -/
def frameSlot (s : State) (i base : Nat) : List Byte := memReadN (coreSt s i).sram base 65536

/-! ### Deep-tier slots: reads with decoding on demand, writes that a halted channel delays -/

/-- The slot of the action's member in a row of an area, as this die holds it or as read from the die that does. -/
def ActOn.slot (k : ActOn) (s : State) (area gen j : Nat) : List Byte :=
  let x := fnSt s k.n
  if heldHere x k.m j then heldSlot s k.n k.m area gen j else ((imgsOf k.rows area gen j).getD k.m none).getD freeSlot

/-- A slot that reads as erased, or that this die took over and has not rebuilt, is decoded before its use (R94, R275),
with a DECODE record. -/
def ActOn.settle (k : ActOn) (s : State) (area gen j : Nat) (bad : Bool) : State :=
  let x := fnSt s k.n
  if heldHere x k.m j && (bad || slotErased x.epoch area false (heldSlot s k.n k.m area gen j) ||
      (unrebuiltAt x area gen j).contains k.m) then
    let s := slip s k.n 0x0E k.sl 0xFF (if x.sched = 1 then 0 else if x.sched = 2 then 1 else 0xFF) j
    (rebuildRow s k.n area gen j (imgsOf k.rows area gen j) (if bad then [k.m] else []) true).state
  else s

/-- Some channel of a slice is halted (R331). -/
def sliceHalted (s : State) (sl : Nat) : Bool := decide (getF s (pgSlice sl) SL_LINE_STATUS_HALTED ≠ 0)

/-- Write a slot, or note the write that a halted channel delays (R77, R94). The answer says whether it is done. -/
def slotStore (s : State) (d : DeepWrite) : State × Bool :=
  if sliceHalted s d.slice then ({ s with deepWrites := s.deepWrites ++ [d] }, false)
  else (heldWrite s d.fn d.member d.area d.gen d.row d.bytes, true)

/-! ### Contributions -/

/-- The wait of a contribution of the action's slot (R206). -/
def mkWait (x : FnSt) (k : ActOn) (kind : WaitKind) (area gen stamp : Nat) (isNull : Bool) (image : List Byte) : Wait :=
  { kind := kind, fn := k.n, slice := k.sl, core := k.core, area := area, gen := gen, row := k.j, member := k.m, stamp := stamp,
    epoch := x.epoch, routeGen := x.route.number, isNull := isNull, sent := false, sentAt := 0, image := cellsOf 0 image,
    holders := match grpOf x with | some g => holdersOf x g k.j | none => [] }

/-- Send a wait that stands in the list; with no live holder it is settled at once. -/
def launchWait (s : State) (w : Wait) : State :=
  let s := sendWait s w 1
  if w.holders.isEmpty then waitSettled s { w with sent := true, sentAt := s.ticks } else s

/-- Send a contribution of the action's slot. -/
def contribute (s : State) (w : Wait) : State := launchWait { s with waits := s.waits ++ [w] } w

/-! ### Gradient leaves (R68, R106, R125) -/

/-- The bucket of the member whose leaves include a gradient row. -/
def rowBucket (x : FnSt) (j : Nat) : Option (Nat × IntakeEntry) := (myBuckets x).find? (fun q => (bucketRows x q.2).contains j)

/-- Gradient generation of the open intake (R39). -/
def landGen (x : FnSt) : Nat := match x.manifest with | some m => x.step % (m.d + 1) | none => 0

/-- Gradient generation that the pass applies (R39). -/
def passGen (x : FnSt) : Nat := match x.manifest with | some m => (x.step + 1) % (m.d + 1) | none => 0

/-- READOUT's condition. A leaf of no bucket takes no contribution. -/
def condReadout (s : State) (k : ActOn) : Cond :=
  let x := fnSt s k.n
  if (k.leaf x 1).isNone || (k.work x 1).loaded then .idle
  else match rowBucket x k.j with
    | none => .go
    | some (b, e) =>
      if sealFired s e.bucketSeal = false then .wait 1 b
      else if accHeld s k.n k.j && !coreFree s k.ix then overrun actReadout k.core
      else .go

/-- READOUT: the accumulators are rounded out into frame B, or the leaf is null. -/
def readoutWork (s : State) (k : ActOn) : State :=
  let x := fnSt s k.n
  let w := k.work x 1
  let top := match rowBucket x k.j with | some (b, e) => (bucketTop x b e).getD e.windowTop | none => 0
  match readout s k.n k.j top with
  | none => putWork s k.n { w with isNull := true, loaded := true }
  | some (s, pats) => putWork (takeLeaf s k 1 0x10100 (pats.map (leBytes 4)).flatten) k.n { w with loaded := true }

/-- GCOMMIT's condition. -/
def condGcommit (s : State) (k : ActOn) : Cond :=
  let x := fnSt s k.n
  let w := k.work x 1
  if (k.leaf x 1).isNone || w.committed || (w.loaded && w.isNull) then .idle
  else if !w.loaded then overrun actGcommit unitReadout
  else .go

/-- GCOMMIT: the postmark of the gradient leaf (R68). -/
def gcommitWork (s : State) (k : ActOn) : State :=
  let x := fnSt s k.n
  match k.leaf x 1, grpOf x with
  | some l, some g =>
    let body := frameB s k.sl k.core
    let old := heldSlot s k.n k.m 1 (landGen x) k.j
    let slot := mkLeaf g k.m k.j l ⟨0, x.step, x.step, x.epoch, chainLink (pmChain old) (crc64 body) x.step, zeros 40⟩ body
    putWork (takeLeaf s k 1 0x10000 slot) k.n { k.work x 1 with committed := true, core := k.core }
  | _, _ => s

/-- GWRITE's condition. -/
def condGwrite (s : State) (k : ActOn) : Cond :=
  let x := fnSt s k.n
  let w := k.work x 1
  if (k.leaf x 1).isNone || w.written || (w.loaded && w.isNull) then .idle
  else if !w.committed then overrun actGwrite w.core
  else .go

/-- The core of a gradient leaf is free once the leaf is written and sent. -/
def gradRelease (s : State) (n : Nat) (w : RowWork) : State :=
  if w.written && w.sent then freeCore s (coreIx w.slice w.core) (n, 1, w.member, w.row) else s

/-- A gradient leaf is written. -/
def gwriteDone (s : State) (n m j gen : Nat) : State :=
  match workAt (fnSt s n) m 1 j with
  | none => s
  | some w =>
    let w := { w with written := true }
    gradRelease (putWork (rebuiltRow s n 1 gen j) n w) n w

/-- GWRITE. -/
def gwriteWork (s : State) (k : ActOn) : State :=
  let x := fnSt s k.n
  let w := k.work x 1
  let gen := landGen x
  let r := slotStore s ⟨k.sl, k.n, k.m, 1, gen, k.j, false, frameSlot s (coreIx k.sl w.core) 0x10000⟩
  if r.2 then gwriteDone r.1 k.n k.m k.j gen else r.1

/-- GSEND's condition. -/
def condGsend (s : State) (k : ActOn) : Cond :=
  let x := fnSt s k.n
  let w := k.work x 1
  if (k.leaf x 1).isNone || w.sent then .idle
  else if w.committed || (w.loaded && w.isNull) then .go
  else overrun actGsend (if w.loaded then w.core else unitReadout)

/-- GSEND: gradient contributions or null deltas. -/
def gsendWork (s : State) (k : ActOn) : State :=
  let x := fnSt s k.n
  let w := { k.work x 1 with sent := true }
  let img := if w.isNull then [] else dataImage (frameSlot s (coreIx k.sl w.core) 0x10000)
  let s := contribute s (mkWait x k .grad 1 (landGen x) x.step w.isNull img)
  todo (gradRelease (putWork s k.n w) k.n w) (.gradCheck k.n)

/-! ### The state leaf: stream read (R75 step 1, R83, R93, R120) -/

/-- The rows of the gradient leaves that a state leaf covers, with their ordinals (R29). -/
def coveredRows (x : FnSt) (l : LeafRef) : List (Nat × Nat) :=
  match grpOf x with
  | some g => (coveredGrads l).map (fun o => (o, dataRow g.k g.n l.binding.member (l.binding.gradFirst + o)))
  | none => []

/-- The slot of a covered gradient leaf holds a gradient of step t − D: it is not null (R39, R68). -/
def gradPresent (x : FnSt) (slot : List Byte) : Bool :=
  match x.manifest with
  | some m => decide (pmKind slot = 2) && decide (pmStamp slot + m.d = x.step)
  | none => false

/-- The part of a state leaf's gradient section that one covered gradient leaf holds, null ones as zero bytes. -/
def sectionPart (l : LeafRef) (o : Nat) (slot : Option (List Byte)) : List Byte :=
  let span := gradSpan l.binding.s24
  let h := if l.binding.s24 then 2 else 1
  let start := (l.binding.elemOffset / span + o) * span
  let lo := max start l.elemOffset
  let hi := min (start + span) (l.elemOffset + l.elemCount)
  let len := 4 * ((hi - lo) / h)
  match slot with
  | some b => fit len (((slotBody b).drop (4 * ((lo - start) / h))).take len)
  | none => zeros len

/-- LREAD's condition. -/
def condLread (s : State) (k : ActOn) : Cond :=
  let x := fnSt s k.n
  match k.leaf x 0 with
  | none => .idle
  | some l =>
    if l.kind ≠ .state ∨ (k.work x 0).loaded = true then .idle
    else if !coreFree s k.ix then overrun actLread k.core
    else if leafPhase x l.binding.tensor = 1 ∧ phase0Done x = false then .wait 4 k.j
    else .go

/-- LREAD: the leaf and its gradient section enter the core; an untouched leaf's slot alone, with D ≥ 1, and a settled
leaf's. `bad` says that the stream read met an uncorrectable word. -/
def lreadWork (s : State) (k : ActOn) (bad : Bool) : State :=
  let x := fnSt s k.n
  match k.leaf x 0, x.manifest with
  | some l, some m =>
    let s := k.settle s 0 0 k.j bad
    let slot := k.slot s 0 0 k.j
    if slotErased x.epoch 0 false slot ∨ pmKind slot ≠ 1 then s else
    let w := { k.work (fnSt s k.n) 0 with loaded := true, slice := k.sl, core := k.core }
    if pmStamp slot = x.step then putWork (takeLeaf s k 0 0x10000 slot) k.n { w with settled := true }
    else
      let gen := passGen x
      let covered := if x.sealedPasses < m.d then [] else coveredRows x l
      let s := covered.foldl (fun s q => k.settle s 1 gen q.2 false) s
      let grads := covered.map (fun q =>
        let b := k.slot s 1 gen q.2
        (q.1, if gradPresent x b then some b else none))
      if grads.all (fun q => q.2.isNone) then
        let s := putWork s k.n { w with isNull := true }
        if m.d = 0 then s else takeLeaf s k 0 0x10000 slot
      else
        let part := (grads.map (fun q => sectionPart l q.1 q.2)).flatten
        let s := takeLeaf s k 0 0 slot
        let c := coreSt s k.ix
        putWork (setCore s k.ix { c with sram := memWriteN (memZero c.sram 0x20000 0x10000) 0x20000 part }) k.n w
  | _, _ => s

/-! ### Runs (R119 to R121, R126) -/

/-- The planes of a leaf format as a core's frame holds them: offset, bytes, format byte. -/
def framePlanes (f : LeafFormat) : List (Nat × Nat × Nat) :=
  let n := if f.kept = 0 then f.p else f.kept
  (f.planes.zipIdx).map (fun q => (256 + planeAt f q.2, planeBytes q.1.fb (n * q.1.per), q.1.fb))

/-- RUN_FLAGS (Table 5.2). -/
def runFlags (x : FnSt) (prelude : Bool) : Nat := b2n x.nonfinite + 2 * b2n x.reran + 4 * b2n prelude

/-- The run context (Table 5.2); a prelude run has no leaf. -/
def runContext (x : FnSt) (m : Manifest) (cls skip : Nat) (leaf : Option LeafRef) : List Byte :=
  fit 256 (leBytes 8 x.step ++ leBytes 8 skip ++ leBytes 8 x.norm2 ++ leBytes 8 x.tokens ++
    leBytes 4 (runFlags x leaf.isNone) ++ leBytes 4 ((leaf.map (fun l => l.elemCount)).getD 0) ++
    leBytes 8 ((leaf.map (fun l => l.elemOffset)).getD 0) ++ leBytes 4 ((leaf.map (fun l => l.binding.tensor)).getD 0) ++
    leBytes 4 ((leaf.map (fun l => l.index)).getD 0) ++ leBytes 1 m.d ++ leBytes 1 ((leaf.map (fun l => l.code)).getD 0) ++
    leBytes 2 cls ++ zeros 4 ++ leBytes 8 m.startStep)

/-- The data SRAM at the start of a run (R120): frame A and the gradient region stand, frame B's FORMAT_EXT is a copy of
frame A's, its body and the scratch region are zero, the parameter block, step area and context are in place. -/
def runSram (sram : Mem) (params step ctx : List Byte) : Mem :=
  let ext := memReadN sram 0x48 40
  let sram := memZero (memZero sram 0x10000 0x10000) 0x30000 0x10000
  memWriteN (memWriteN (memWriteN (memWriteN sram 0x10048 ext) 0x3E000 params) 0x3E400 step) 0x3E800 ctx

/-- The parameter block of a class. -/
def paramBlock (set : ProgSet) (cl : ProgClass) : List Byte := set.params.getD cl.param (zeros 1024)

/-- Begin a run on a core: every register is zero, the lane format is FP32, and what the core still awaited from the
fabric is dropped. -/
def beginRun (s : State) (i : Nat) (sram : Mem) (lanes : List Src) (r : CoreRun) : State :=
  let s := { s with requests := s.requests.filter (fun q => match q.owner with
    | .core a b _ => decide (coreIx a b ≠ i)) }
  setCore s i { leaf := (coreSt s i).leaf, sram := sram, lanes := lanes, run := some r }

/-- A run of a program from an entry, not yet begun. -/
def mkRun (s : State) (n cls : Nat) (p : Prog) (prelude : Bool) (ticks : Nat) : CoreRun :=
  { fn := n, prelude := prelude, cls := cls, member := 0, row := 0, tensor := 0, leafIndex := 0, first := p.first,
    length := p.length, entry := p.first + (if prelude then p.preludeEntry else p.leafEntry),
    pc := p.first + (if prelude then p.preludeEntry else p.leafEntry), start := s.ticks, windowEnd := s.ticks + ticks,
    budget := if prelude then p.preludeBudget else p.budget, halted := false, again := none, decode := none, fetchUe := false,
    dataUe := false, droppedAt := none, aDone := false, aWrite := .none, loops := [], cycle := 0, ready := [],
    lastStore := none, srds := [], planes := [], bound := 0 }

/-- Start a leaf run on the core that holds the leaf; `old` carries what an earlier start of the same run met. -/
def startLeafRun (s : State) (n i member j ticks : Nat) (old : Option CoreRun) : State :=
  let x := fnSt s n
  match x.manifest, grpOf x, x.progs with
  | some m, some g, some set =>
    (match leafAt m g member 0 j with
     | none => s
     | some l => match (classOf set l.binding.tensor).bind (fun c => (classProg set c).map (fun q => (c, q))) with
       | none => s
       | some (cls, cl, p) =>
         let c := coreSt s i
         let skip := x.step - m.d - pmTouched (memReadN c.sram 0 256) - 1
         let ctx := runContext x m cls skip (some l)
         let area := (tabFind x.stepAreas (256 * (i / 32) + cls)).getD (zeros 1024)
         let h := if l.binding.s24 then 2 else 1
         let r : CoreRun := mkRun s n cls p false ticks
         let r : CoreRun := { r with
           member := member, row := j, tensor := l.binding.tensor, leafIndex := l.index, planes := framePlanes l.format,
           bound := l.elemCount / h, fetchUe := (old.map (fun o => o.fetchUe)).getD false,
           dataUe := (old.map (fun o => o.dataUe)).getD false }
         beginRun s i (runSram c.sram (paramBlock set cl) area ctx)
           (lanesFrom 128 (lane0 m.jobSeed x.step l.binding.tensor l.index 1)) r)
  | _, _, _ => s

/-- Start a prelude run of a class (R126). The step area begins as zero. -/
def startPrelude (s : State) (n i cls ticks : Nat) (old : Option CoreRun) : State :=
  let x := fnSt s n
  match x.manifest, x.progs with
  | some m, some set =>
    (match classProg set cls with
     | none => s
     | some (cl, p) =>
       let c := coreSt s i
       let r : CoreRun := mkRun s n cls p true ticks
       let r : CoreRun := { r with
         fetchUe := (old.map (fun o => o.fetchUe)).getD false, dataUe := (old.map (fun o => o.dataUe)).getD false }
       beginRun s i (runSram c.sram (paramBlock set cl) (zeros 1024) (runContext x m cls 0 none)) [] r)
  | _, _ => s

/-- RUN's condition. -/
def condRun (s : State) (k : ActOn) : Cond :=
  let x := fnSt s k.n
  let w := k.work x 0
  match k.leaf x 0 with
  | none => .idle
  | some l =>
    if l.kind ≠ .state ∨ w.run = true ∨ (w.loaded && (w.isNull || w.settled)) = true then .idle
    else if !w.loaded then overrun actRun unitStream
    else .go

/-- RUN. -/
def runWork (s : State) (k : ActOn) (ticks : Nat) : State :=
  let w := k.work (fnSt s k.n) 0
  putWork (startLeafRun s k.n (coreIx k.sl w.core) k.m k.j ticks none) k.n { w with run := true }

/-- The window of an audited run ends: its BODY_DIGEST, FORMAT_EXT and trap status enter the audit copy (R349). -/
def auditNote (s : State) (i tensor leaf step : Nat) (r : AuditRes) : State :=
  match tabFind s.integ.audits (i / 32) with
  | some (a : Audit) =>
    if a.core = i % 32 ∧ a.tensor = tensor ∧ a.leaf = leaf ∧ a.step = step ∧ a.orig = none then
      { s with integ := { s.integ with audits := tabPut s.integ.audits (i / 32) (some { a with orig := some r }) } }
    else s
  | none => s

/-- The window of a leaf run ends (R123): the new postmark (R76) is formed in frame B, and the twin comparison begins
(R428). -/
def commitLeaf (s : State) (i : Nat) (r : CoreRun) : State :=
  let n := r.fn
  let x := fnSt s n
  let c := coreSt s i
  match x.manifest, grpOf x, workAt x r.member 0 r.row with
  | some m, some g, some w =>
    (match leafAt m g r.member 0 r.row with
     | none => s
     | some l =>
       let old := memReadN c.sram 0 256
       let body := memReadN c.sram 0x10100 65280
       let slot := mkLeaf g r.member r.row l ⟨0, x.step, x.step - m.d, x.epoch, chainLink (pmChain old) (crc64 body) x.step,
         memReadN c.sram 0x10048 40⟩ body
       let s := setCore s i { c with run := none, sram := memWriteN c.sram 0x10000 (slot.take 256) }
       let s := auditNote (putWork s n { w with committed := true }) i r.tensor r.leafIndex x.step ⟨pmDigest slot, pmExt slot, 0, 0⟩
       if r.member = x.self then
         twinLocal s n ⟨true, x.step, r.tensor, r.leafIndex, pmDigest slot, crc64 (pmExt slot), i / 32, i % 32, r.row⟩
       else s)
  | _, _, _ => setCore s i { c with run := none }

/-! ### Registering and sending (R75 steps 4 and 5, R79, R80) -/

/-- The number of the ledger entry of a core's ring (Table 3.6). -/
def ledgerIx (sl c idx : Nat) : Nat := sl * 131072 + c * 4096 + idx

/-- REG's condition. -/
def condReg (s : State) (k : ActOn) : Cond :=
  let x := fnSt s k.n
  let w := k.work x 0
  if (k.leaf x 0).isNone || w.reg || (w.loaded && (w.isNull || w.settled)) || decide (w.twin = 4) then .idle
  else if !w.committed then overrun actReg w.core
  else if w.twin = 1 ∧ twinWait s ≠ 0 then .wait 6 k.j
  else
    let i := coreIx k.sl w.core
    let e := nearRead s (32 * ledgerIx k.sl w.core (tabGet 0 s.ring i % 4096)) 32
    if entryOk e ∧ field e 0 1 = 1 then .wait 5 i else .go

/-- REG: the intent entry is written to the core's next ring entry; a bad entry there is overwritten (R80). -/
def regWork (s : State) (k : ActOn) : State :=
  let w := k.work (fnSt s k.n) 0
  let s := if w.twin = 1 then twinLate s k.n k.j else s
  let x := fnSt s k.n
  let w := k.work x 0
  let i := coreIx k.sl w.core
  let idx := tabGet 0 s.ring i % 4096
  let a := 32 * ledgerIx k.sl w.core idx
  let s := if entryOk (nearRead s a 32) then s else flagF s (pgSlice k.sl) SL_LEDGER_STATUS_BAD
  let slot := frameSlot s i 0x10000
  let s := nearWrite s a (intentEntry k.n k.j x.step (pmDigest slot) x.epoch)
  let s := ledgerUse { s with ring := tabSet 0 s.ring i ((idx + 1) % 4096) } k.sl true
  modFn (putWork s k.n { w with reg := true, ledger := idx }) k.n (fun x =>
    { x with uncompared := x.uncompared || decide (w.twin ≠ 2) })

/-- The near-tier write of an intent entry is acknowledged: the delta (R55) is registered. -/
def intentAcked (s : State) (n m j : Nat) : State :=
  let x := fnSt s n
  match workAt x m 0 j with
  | none => s
  | some w =>
    if !w.reg || w.registered then s else
    let i := coreIx w.slice w.core
    let delta := xorBytes (dataImage (frameSlot s i 0)) (dataImage (frameSlot s i 0x10000))
    let k : ActOn := ⟨n, w.slice, w.core, m, j, []⟩
    putWork { s with waits := s.waits ++ [mkWait x k .state 0 0 x.step false delta] } n { w with registered := true }

/-- SEND's condition. -/
def condSend (s : State) (k : ActOn) : Cond :=
  let x := fnSt s k.n
  let w := k.work x 0
  match k.leaf x 0 with
  | none => .idle
  | some l =>
    if l.kind ≠ .state ∨ w.sent = true ∨ w.twin = 4 then .idle
    else if !w.loaded then overrun actSend unitStream
    else if w.isNull || w.settled || w.registered then .go
    else overrun actSend (if w.committed then unitLedger else w.core)

/-- SEND: deltas, or null deltas of an untouched or settled leaf. With D = 0 an untouched leaf is then done (R83). -/
def sendWork (s : State) (k : ActOn) : State :=
  let x := fnSt s k.n
  let w := { k.work x 0 with sent := true }
  if w.isNull || w.settled then
    let s := contribute s (mkWait x k .state 0 0 x.step true [])
    if w.isNull ∧ (x.manifest.map (fun m => m.d)) = some 0 then groupArrive (putWork s k.n { w with done := true }) k.n
    else putWork s k.n w
  else
    let s := putWork s k.n w
    match s.waits.find? (fun v => decide (v.fn = k.n) && decide (v.kind = .state) && decide (v.row = k.j) &&
        decide (v.member = k.m) && !v.sent) with
    | some v => launchWait s v
    | none => s

/-! ### Writing the leaf (R75 steps 6 to 8, R424) -/

/-- The wait of a sent delta. -/
def deltaWait (s : State) (n m j : Nat) : Option Wait :=
  s.waits.find? (fun v => decide (v.fn = n) && decide (v.kind = .state) && decide (v.row = j) && decide (v.member = m) &&
    v.sent && !v.isNull)

/-- LWRITE's condition. -/
def condLwrite (s : State) (k : ActOn) : Cond :=
  let x := fnSt s k.n
  let w := k.work x 0
  match k.leaf x 0 with
  | none => .idle
  | some l =>
    if l.kind ≠ .state ∨ w.written = true ∨ (w.loaded && (w.isNull || w.settled)) = true ∨ w.twin = 4 then .idle
    else if !w.sent then overrun actLwrite unitFabric
    else match deltaWait s k.n k.m k.j with
      | some v => if v.allDone then .go else .wait 6 k.j
      | none => .wait 6 k.j

/-- The leaf record of Table 16.1. -/
def leafRecord (x : FnSt) (slot : List Byte) (w : RowWork) (seq : Nat) : List Byte :=
  [2, 0] ++ leBytes 2 x.group ++ leBytes 4 seq ++ leBytes 8 x.step ++ leBytes 8 (pmChain slot) ++ leBytes 8 (pmDigest slot) ++
    leBytes 8 (pmLeafId slot) ++ leBytes 8 (pmTouched slot) ++ leBytes 4 (w.slice + 16 * w.core) ++ leBytes 1 w.member ++
    zeros 11

/-- The leaf is written: its intent entry clears. -/
def lwriteDone (s : State) (n m j : Nat) : State :=
  let x := fnSt s n
  match workAt x m 0 j with
  | none => s
  | some w =>
    let slot := heldSlot s n m 0 0 j
    let s := ledgerFree s (ledgerIx w.slice w.core w.ledger)
    let s := match deltaWait s n m j with | some v => dropWait s v | none => s
    let s := if forceF s n FN_DIG_CTRL_LEAF_TRACE = 1 then digRecord s n (leafRecord x slot w) else s
    putWork s n { w with written := true }

/-- LWRITE: the leaf with the current EPOCH is written from frame B. -/
def lwriteWork (s : State) (k : ActOn) : State :=
  let x := fnSt s k.n
  let w := k.work x 0
  let slot := sealPostmark (setField (frameSlot s (coreIx k.sl w.core) 0x10000) 0x28 4 x.epoch)
  let r := slotStore s ⟨k.sl, k.n, k.m, 0, 0, k.j, false, slot⟩
  if r.2 then lwriteDone r.1 k.n k.m k.j else r.1

/-! ### Working copies (R36, R84, R114, R124) -/

/-- Rounded values of a working copy: `xs` in WC_FORMAT, block-scaled ones in packed records (R158). -/
def wcValues (fb : Nat) : List Num → List Rnd → List Byte
  | xs, rs =>
    let code := fbCode fb
    if fbScaled fb then
      ((List.range (ceilDiv xs.length 32)).map (fun i =>
        let bx := (xs.drop (32 * i)).take 32
        let b := blockScale code bx
        leBytes 1 b ++ fit (block32 code) (packElems code (blockElems code b ((rs.drop (32 * i)).take 32) bx)))).flatten
    else packElems code ((xs.zip rs).map (fun q => convert code q.2 q.1))

/-- The draws of `n` elements in groups of 128 lanes: element e takes the next draw of lane e mod 128. -/
def emitDraws : Nat → Nat → List Src → List Rnd
  | 0, _, _ => []
  | fuel + 1, n, lanes =>
    if n = 0 then [] else
    let d := drawLanes (min n 128) lanes
    d.1 ++ emitDraws fuel (n - 128) d.2

/-- The metadata nibble of a pattern code (Table 4.6). -/
def maskNibble (code : Nat) : Nat := [4, 8, 0xC, 9, 0xD, 0xE].getD code 0

/-- Working-copy slot that the pass of the current step writes (R36). -/
def wcWriteSlot (x : FnSt) (m : Manifest) : Nat := if m.d = 0 then 0 else (x.step + 1) % 2

/-- Emit the working copy of a state leaf from plane 0 of a body into working-copy slot `w`, with the rounding draws of step
`step` (R84). -/
def emitWcAt (s : State) (n : Nat) (m : Manifest) (l : LeafRef) (body : List Byte) (step w : Nat) : State :=
  let b := l.binding
  if !b.hasWc || decide (b.format = 6 ∨ b.format = 7) then s else
  let h := if b.s24 then 2 else 1
  let cnt := l.elemCount / h
  let fb := match l.format.planes[0]? with | some p => p.fb | none => 0
  let xs := (elemsOf (fbCode fb) (fbScaled fb) (roundUp cnt 32) body).take cnt
  let rs := emitDraws (cnt / 128 + 1) cnt (lanesFrom 128 (lane0 m.jobSeed step b.tensor l.index 0))
  let base := wcStart m w + b.wcOffset
  let o := l.elemOffset - b.elemOffset
  let s := rangeWrite s n (base + wcBytesOf b.wcFormat (o / h)) (wcValues b.wcFormat xs rs)
  if b.s24 then
    let meta_ := wcStart m w + roundUp (b.wcOffset + wcBytesOf b.wcFormat (b.elemCount / 2)) 64
    let nibs := (List.range (ceilDiv l.elemCount 4)).map (fun i =>
      let e := l.elemOffset + 4 * i
      maskNibble (maskCode (maskBody s n b e) (e % maskSpan / 4)))
    rangeWrite s n (meta_ + o / 8) (leBytes (ceilDiv nibs.length 2) (joinBits 4 nibs))
  else s

/-- EMIT's working copy: of frame B's body, in the current step. -/
def emitWc (s : State) (n : Nat) (m : Manifest) (l : LeafRef) (body : List Byte) : State :=
  emitWcAt s n m l body (fnSt s n).step (wcWriteSlot (fnSt s n) m)

/-- EMIT's condition. -/
def condEmit (s : State) (k : ActOn) : Cond :=
  let x := fnSt s k.n
  let w := k.work x 0
  match k.leaf x 0 with
  | none => .idle
  | some l =>
    if l.kind ≠ .state ∨ w.done = true ∨ w.twin = 4 then .idle
    else if !w.loaded then overrun actEmit unitStream
    else if w.isNull || w.settled then (if w.sent then .go else overrun actEmit unitFabric)
    else if w.written then .go else overrun actEmit unitController

/-- EMIT: the working copy, then the group-seal arrival; the core is free. A die emits no working copy of an absorbed
leaf: its state range holds none. -/
def emitWork (s : State) (k : ActOn) : State :=
  let x := fnSt s k.n
  let w := k.work x 0
  match k.leaf x 0, x.manifest with
  | some l, some m =>
    let s := if k.m = x.self then emitWc s k.n m l (frameB s k.sl w.core) else s
    let s := freeCore s (coreIx k.sl w.core) (k.n, 0, k.m, k.j)
    groupArrive (putWork s k.n { w with done := true }) k.n
  | _, _ => s

/-! ### The holder's writes (R73) -/

/-- The member's pigeonhole of a row awaits contributions in the running schedule, with its parity index. -/
def holdDue (x : FnSt) (k : ActOn) (area : Nat) : Option Nat :=
  match x.manifest, grpOf x with
  | some m, some g => match holeIndex g k.m k.j with
    | none => none
    | some p => if (expectedMembers m g area k.j false).isEmpty || x.rowsDone.contains (area, k.j, p) then none else some p
  | _, _ => none

/-- The condition of HOLD (`area` 0) and GHOLD (1). -/
def condHold (s : State) (k : ActOn) (area : Nat) : Cond :=
  let x := fnSt s k.n
  match holdDue x k area with
  | none => .idle
  | some p =>
    let gen := if area = 0 then 0 else landGen x
    match bagFind s k.sl k.n area gen k.j p with
    | some b => if b.writing then overrun (if area = 0 then actHold else actGhold) unitController
        else if bagComplete x b then .go else .wait 7 k.j
    | none =>
      if (heldOn s k.sl).any (fun h => decide (hFn h.2 = k.n) && decide (hArea h.2 = area) && decide (hAreaGen h.2 = gen) &&
          decide (hRow h.2 = k.j) && decide (hParity h.2 = p)) then .wait 8 k.j else .wait 7 k.j

/-- HOLD and GHOLD: the complete pigeonhole is written; receipts. An old pigeonhole that reads as erased is re-encoded
first. -/
def holdWork (s : State) (k : ActOn) (area : Nat) : State :=
  let x := fnSt s k.n
  match holdDue x k area, x.manifest, grpOf x with
  | some p, some _, some g =>
    let gen := if area = 0 then 0 else landGen x
    (match bagFind s k.sl k.n area gen k.j p with
     | none => s
     | some b =>
       let old := heldSlot s k.n k.m area gen k.j
       let s := if area = 0 ∧ slotErased x.epoch 0 true old = true then
           (rebuildRow (slip s k.n 0x0E k.sl 0xFF 1 k.j) k.n 0 0 k.j (imgsOf k.rows 0 0 k.j) [] true).state
         else s
       let old := heldSlot s k.n k.m area gen k.j
       if b.damaged then finishRow (writeHole s b old) b
       else
         let slot := foldedHole x g b k.m old x.step
         let r := slotStore s ⟨k.sl, k.n, k.m, area, gen, k.j, true, slot⟩
         if r.2 then finishRow r.1 b else putBag r.1 { b with writing := true })
  | _, _, _ => s

/-! ### A delayed write completes (R77, R94) -/

/-- The channel has resumed and the write is repeated whole; what waited for it follows. -/
def deepDone (s : State) (d : DeepWrite) : State :=
  let s := heldWrite { s with deepWrites := s.deepWrites.erase d } d.fn d.member d.area d.gen d.row d.bytes
  let s := slip s d.fn 0x0F d.slice 0xFF (if d.area = 0 then 1 else 0) d.row
  if d.isHole then
    match s.bags.find? (fun b => decide (b.fn = d.fn) && decide (b.area = d.area) && decide (b.gen = d.gen) &&
        decide (b.row = d.row) && b.writing) with
    | some b => finishRow s b
    | none => s
  else if d.area = 1 then gwriteDone s d.fn d.member d.row d.gen
  else lwriteDone s d.fn d.member d.row

/-- DEEP_WRITE_COMPLETE: the oldest delayed write of a slice none of whose channels is halted any more. -/
def deepWriteComplete (s : State) (sl : Nat) : State :=
  if sliceHalted s sl then s else
  match s.deepWrites.find? (fun d => decide (d.slice = sl)) with
  | some d => deepDone s d
  | none => s

end Sys2Proof.Machine
end

