-- ==== Sys2Proof/Machine/Membership.lean ====
section
/-!
DEFINITION. Membership (ch. 10): the watch list and heartbeats (R262 to R264), membership messages (R265), the keeper,
declarations and epoch bumps (R266 to R273), adoption (R268, R269, R226), takeover and absorption (R274 to R276),
transfers and rejoin (R281 to R285), and link margins (R282).
-/

namespace Sys2Proof.Machine

/-! ### Placement (R46, R47) -/

/-- Do the members' and spares' dies meet the board and chassis tests of R46? -/
def placementOk (g : GroupEntry) (mems spares : List Nat) : Bool :=
  decide (((mems ++ spares).map (fun e => e / 2 ^ 17)).Nodup) &&
    (!bit g.flags 0 || mems.all (fun e => decide ((mems.filter (fun f => decide (chassisOf f = chassisOf e))).length ≤ g.r)))

/-- The dies of the LIVE members, and of the STANDBY spares, of a record. -/
def liveDies (ms : List MemEntry) : List Nat := (ms.filter (fun e => e.live)).map (fun e => e.die)
def standbyDies (sp : List SpareEntry) : List Nat := (sp.filter (fun e => e.standby)).map (fun e => e.die)

/-- Indices of the STANDBY spares, ascending. -/
def standbyOf (x : FnSt) : List Nat :=
  (List.range x.spares.length).filter (fun i => match x.spares[i]? with | some e => e.standby | none => false)

/-- A member moved to a spare's die passes the tests of R47. -/
def spareFits (x : FnSt) (g : GroupEntry) (m i : Nat) : Bool :=
  match x.spares[i]? with
  | none => false
  | some sp => placementOk g (liveDies (x.members.set m ⟨true, sp.die, []⟩)) (standbyDies (x.spares.set i { sp with standby := false }))

/-- The lowest-indexed STANDBY spare that can hold member `m` (Table 10.5). -/
def pickSpare (x : FnSt) (m : Nat) : Option Nat :=
  match grpOf x with
  | none => none
  | some g => (standbyOf x).find? (fun i => spareFits x g m i)

/-- Bytes of the parking frames that this die holds for function `n` (R276). -/
def parkedBytesOf (s : State) (n : Nat) : Nat :=
  let x := fnSt s n
  match x.manifest with
  | none => 0
  | some m =>
    let others := (List.range x.members.length).filter (fun q => decide (q ≠ x.self) && isAbsorbed x q)
    let count := fun (rows : Nat) => (others.map (fun q => ((List.range rows).filter (fun j => heldHere x q j)).length)).sum
    65536 * (count m.stripeRows + (m.d + 1) * count m.gradRows)

/-- Headroom of the die less its parking frames (R41). -/
def headroom (s : State) : Nat :=
  rangeLimit - ((List.range 64).map (fun n =>
    (match (fnSt s n).manifest with | some m => rangeBytes m | none => 0) + parkedBytesOf s n)).sum

/-- May the survivors absorb member `m` (Table 10.5, R276)? This die's headroom is its own; `room` says whether every
other survivor has it. -/
def absorbOk (s : State) (n m : Nat) (room : Bool) : Bool :=
  let x := fnSt s n
  let left := ((liveMembers x).filter (fun q => decide (q ≠ m))).length
  match x.manifest with
  | some mf => decide (forceF s n FN_MEMB_CTRL_ABSORB_OK = 1) && room && decide (left ≠ 0) &&
      decide (ceilDiv (rangeBytes mf) left ≤ headroom s)
  | none => false

/-! ### The watch list (R262) -/

/-- The dies that share a group with this die in a function that is RUNNING or DRAINING. -/
def watchSet (s : State) : List Nat :=
  let of := fun n => let x := fnSt s n
    if (stateOf s n = 2 ∨ stateOf s n = 3) ∧ (x.role = 1 ∨ x.role = 2) ∧ n ≠ 0 then liveDies x.members ++ standbyDies x.spares else []
  (sortDies (((List.range 64).map of).flatten.map dieBits)).filter (fun d => decide (d ≠ selfDie s))

/-- Show SUSPECT in the port page and in every function's page (R264). -/
def showSuspects (s : State) : State :=
  let bad := (s.watch.filter (fun w => w.suspect)).map (fun w => w.die)
  let s := setF s pgPort PORT_WATCH_SUSPECT_SUSPECT
    (maskOf ((List.range s.watch.length).filter (fun i => match s.watch[i]? with | some w => w.suspect | none => false)))
  (List.range 64).foldl (fun s n =>
    let x := fnSt s n
    if x.members = [] then s
    else setFnF s n FN_MEMB_LIVE_SUSPECT (maskOf ((liveMembers x).filter (fun m =>
      match x.members[m]? with | some e => bad.contains (dieBits e.die) | none => false)))) s

/-- The watch list is formed anew; a die that joins counts its silence from now (R262, R264). -/
def watchUpdate (s : State) : State :=
  let l := ((watchSet s).take 31).map (fun d => (s.watch.find? (fun w => decide (w.die = d))).getD ⟨d, s.ticks, false⟩)
  showSuspects (setF { s with watch := l } pgPort PORT_WATCH_STATUS_COUNT l.length)

/-- This die's rank for a die: its position in the list (R262). -/
def rankOf (s : State) (die : Nat) : Option Nat := s.watch.findIdx? (fun w => decide (w.die = die))

/-- HEARTBEAT_SEND: to the watched die of rank `i`, at the next tick at which the counter mod 4,000 is 128 × R (R263). -/
def heartbeatSend (s : State) (i : Nat) : State :=
  match s.watch[i]? with
  | none => s
  | some w =>
    match tabFind s.ranks w.die with
    | none => s
    | some r =>
      if getF s pgGlobal GLOBAL_WITHDRAW_WITHDRAWN = 1 then s else
      let wait := (128 * r + 4000 - s.counter % 4000) % 4000
      let wait := if wait = 0 ∧ tabFind s.beatAt w.die = some s.ticks then 4000 else wait
      let s := advance s wait
      let flags := b2n ((List.range 64).any (fun n => (fnSt s n).evacuating)) +
        2 * b2n (decide (getF s pgPort PORT_MARGIN_STATUS_STATE ≠ 0))
      let form := leBytes 1 8 ++ [0] ++ leBytes 1 i ++ leBytes 1 flags ++ zeros 4 ++ leBytes 8 s.counter
      sendPacket { s with beatAt := tabPut s.beatAt w.die (some s.ticks) }
        ⟨mkHeader w.die (selfDie s) 0x10 0 (flagsByte false (curGen s 0)) 0 0 0 form, []⟩

/-- A heartbeat arrives (R263, R264). -/
def recvHeartbeat (s : State) (p : Packet) : State :=
  let d := dieBits (hSrc p)
  if headerOk' p = false ∨ hType p ≠ 0x10 ∨ fKind p ≠ 8 ∨ (rankOf s d).isNone then s
  else
    showSuspects { s with ranks := tabPut s.ranks d (some (field p.hdr 0x12 1)),
                          watch := s.watch.map (fun w => if w.die = d then ⟨d, s.ticks, false⟩ else w) }

/-- SUSPECT_TIMEOUT for the watched die of rank `i` (R264). -/
def suspectTimeout (s : State) (i : Nat) : State :=
  match s.watch[i]? with
  | none => s
  | some w =>
    if w.suspect then s else
    let s := advanceTo s (w.lastAt + 16000)
    showSuspects { s with watch := s.watch.map (fun v => if v.die = w.die then { v with suspect := true } else v) }

/-- ISOLATION_TIMEOUT: no heartbeat from any watched die for 160,000 ticks (R264). -/
def isolationTimeout (s : State) : State :=
  let fns := (List.range 64).filter (fun n => decide (stateOf s n = 2 ∨ stateOf s n = 3) && decide (n ≠ 0) &&
    decide ((fnSt s n).role = 1 ∨ (fnSt s n).role = 2) && !(fnSt s n).mute)
  if s.watch = [] ∨ fns = [] then s else
  let s := advanceTo s (s.watch.foldl (fun m w => max m w.lastAt) 0 + 160000)
  let s := flagF s pgPort PORT_WATCH_STATUS_ISOLATED
  fns.foldl (fun s n => todo (modFn s n (fun x => { x with mute := true })) (.abort n 5)) s

/-! ### Membership messages (R265) -/

/-- The sender's MEMBER field. -/
def memberByteOf (x : FnSt) : Nat := if x.role = 1 ∨ x.role = 3 then x.self else if x.role = 2 then 0x80 + x.self else 0xFF

/-- The 64 bytes of a message. -/
def membBytes (s : State) (n id : Nat) (b : MembBody) : List Byte :=
  let x := fnSt s n
  let m := leBytes 1 b.kind ++ leBytes 1 (memberByteOf x) ++ leBytes 2 x.group ++ leBytes 4 x.epoch ++ leBytes 4 id ++
    leBytes 4 (selfDie s) ++ leBytes 8 x.step ++ leBytes 1 b.subject ++ leBytes 1 b.mode ++ leBytes 2 b.live ++
    leBytes 4 b.newEpoch ++ leBytes 4 b.die ++ leBytes 2 b.spares ++ leBytes 1 b.rank ++
    fit 8 (b.seqs.map (fun q => BitVec.ofNat 8 q)) ++ zeros 9
  m ++ leBytes 8 (crc64 m)

/-- Fields of a received message. -/
def mmKind (m : List Byte) : Nat := field m 0 1
def mmMember (m : List Byte) : Nat := field m 1 1
def mmGroup (m : List Byte) : Nat := field m 2 2
def mmEpoch (m : List Byte) : Nat := field m 4 4
def mmId (m : List Byte) : Nat := field m 8 4
def mmSender (m : List Byte) : Nat := field m 0xC 4
def mmStep (m : List Byte) : Nat := field m 0x10 8
def mmSubject (m : List Byte) : Nat := field m 0x18 1
def mmModeByte (m : List Byte) : Nat := field m 0x19 1
def mmMode (m : List Byte) : Nat := mmModeByte m % 128
def mmSwitch (m : List Byte) : Bool := bit (mmModeByte m) 7
def mmLive (m : List Byte) : Nat := field m 0x1A 2
def mmNewEpoch (m : List Byte) : Nat := field m 0x1C 4
def mmDie (m : List Byte) : Nat := field m 0x20 4
def mmSpares (m : List Byte) : Nat := field m 0x24 2
def mmRank (m : List Byte) : Nat := field m 0x26 1
def mmSeq (m : List Byte) (i : Nat) : Nat := field m (0x27 + i) 1

/-- The STORE that carries a message to the mailbox of the destination function's page. -/
def membStore (s : State) (dst : Nat) (m : List Byte) : State :=
  if getF s pgGlobal GLOBAL_WITHDRAW_WITHDRAWN = 1 then s else
  sendPacket s ⟨mkHeader (dieBits dst) (selfDie s) 3 7 (flagsByte false (curGen s 0)) 1 0 0
    (memForm (3 * 2 ^ 44 + pgFn (routeFn dst) + 0xF00) 64 0), m⟩

/-- Send a message that is repeated until it is answered. -/
def membSend (s : State) (n dst : Nat) (b : MembBody) : State :=
  let id := (fnSt s n).msgCount
  let m := membBytes s n id b
  let s := modFn s n (fun x => { x with msgCount := (x.msgCount + 1) % 2 ^ 32 })
  membStore { s with msgs := s.msgs ++ [⟨n, dst, id, m, s.ticks, 0⟩] } dst m

/-- Answer a message with an ACK of the same MSG_ID; one acted on after a firmware switch has been answered (R395). -/
def membAck (s : State) (n : Nat) (m : List Byte) (status : Nat) : State :=
  if s.nvm.acked then s else
  let die := mmSender m
  membStore s (dieBits die + fnAtDie (fnSt s n) (dieBits die) * 64) (membBytes s n (mmId m) { kind := 0xF, mode := status })

/-- The route entries of the other members and spares of the record. -/
def recordDies (s : State) (x : FnSt) : List Nat :=
  (sortDies (liveDies x.members ++ standbyDies x.spares)).filter (fun e => decide (dieBits e ≠ selfDie s))

/-! ### Showing the record (R292) -/

/-- The keeper: the lowest-numbered LIVE member (R266). -/
def keeperOf (x : FnSt) : Option Nat := (liveMembers x).head?

/-- This die is the keeper. -/
def amKeeper (x : FnSt) : Bool := decide (x.role = 1) && decide (keeperOf x = some x.self)

/-- Show the member record in the function's registers. -/
def showRecord (s : State) (n : Nat) : State :=
  let x := fnSt s n
  let f := fun (s : State) (fl : Fld) (v : Nat) => setFnF s n fl v
  let s := f (f s FN_MEMB_EPOCH_EPOCH x.epoch) FN_MEMB_LIVE_LIVE (maskOf (liveMembers x))
  let s := f (f s FN_MEMB_STATUS_ROLE x.role) FN_MEMB_STATUS_KEEPER (b2n (amKeeper x))
  let s := f s FN_MEMB_STATUS_KEEPER_MEMBER ((keeperOf x).getD 0)
  let s := f s FN_MEMB_STATUS_ABSORBING
    (b2n (decide (x.role = 1) && x.members.any (fun e => e.absorbed.contains x.self)))
  let s := f s FN_MEMB_STATUS_REDUCED (b2n (x.members.any (fun e => !e.absorbed.isEmpty)))
  let s := f s FN_MEMB_STATUS_TRANSFER (b2n (x.xfer.isSome || x.copy.isSome || !x.copied.isEmpty))
  let s := f s FN_MEMB_STATUS_PROXY
    (if x.role = 1 then maskOf ((x.proxies.map (fun q => q.1)).filter (fun m => decide (proxyOf x m = some x.self))) else 0)
  f s FN_CODE_GEOM_MEMBER (if x.role = 1 then x.self else 0)

/-! ### Applying a change (R269, Table 10.6) -/

/-- The members after a change. -/
def changedMembers (x : FnSt) (mode subj die live : Nat) : List MemEntry :=
  let alive := (List.range x.members.length).filter (fun i => bit live i)
  let ms := match x.members[subj]? with
    | none => x.members
    | some e =>
      if mode = 1 ∨ mode = 4 ∨ mode = 5 ∨ mode = 7 then x.members.set subj ⟨true, die, []⟩
      else if mode = 2 then x.members.set subj ⟨false, e.die, alive⟩
      else if mode = 3 then x.members.set subj ⟨false, e.die, []⟩
      else x.members
  ms.mapIdx (fun i e => { e with live := bit live i })

/-- The spares after a change. -/
def changedSpares (x : FnSt) (mode subj die spares : Nat) : List SpareEntry :=
  let sp := if mode = 6 then x.spares.set (subj - 0x80) ⟨true, die⟩ else x.spares
  sp.mapIdx (fun i e => { e with standby := bit spares i })

/-- The logical id whose route entry a change writes. -/
def changedId (g : GroupEntry) (mode subj : Nat) : Nat := if mode = 6 then g.spareBase + (subj - 0x80) else g.routeBase + subj

/-- The coded rows in the order of background rebuild: pending gradient generations as passes consume them, then the
stripe rows (R275). -/
def rebuildOrder (x : FnSt) : List (Nat × Nat × Nat) :=
  match x.manifest with
  | none => []
  | some m =>
    ((List.range (m.d + 1)).map (fun i => (List.range m.gradRows).map (fun j => (1, (x.step + 1 + i) % (m.d + 1), j)))).flatten ++
      (List.range m.stripeRows).map (fun j => (0, 0, j))

/-- The slots that this die holds under `new` and did not hold under `old`, as member, area, generation and row. -/
def newSlots (old new : FnSt) : List (Nat × Nat × Nat × Nat) :=
  ((rebuildOrder new).map (fun q => ((List.range new.members.length).filter (fun m =>
    heldHere new m q.2.2 && !heldHere old m q.2.2)).map (fun m => (m, q)))).flatten

/-- Zero the parking frames of member `m` that this die no longer holds (R281). -/
def freeFrames (s : State) (n m : Nat) (old new : FnSt) : State :=
  (rebuildOrder new).foldl (fun s q =>
    if heldHere old m q.2.2 && !heldHere new m q.2.2 then
      { s with deep := memZero s.deep (frameAddr n m q.1 q.2.1 q.2.2) 65536 } else s) s

/-- Drop a transfer that this die runs as keeper, source or target (R281): a target's copied slots count as unrebuilt. -/
def transferDrop (s : State) (n : Nat) : State :=
  let s := { s with waits := s.waits.filter (fun w => !(decide (w.fn = n) && decide (w.kind = .put) && decide (w.core = 3))),
                    puts := s.puts.filter (fun p => !(decide (p.fn = n) && decide (p.tc = 3))) }
  let s := if (fnSt s n).copy.isSome then setFnF (setFnF (setFnF (setFnF s n FN_REBUILD_STATUS_ACTIVE 0) n
      FN_REBUILD_STATUS_MODE 0) n FN_REBUILD_STATUS_SUBJECT 0) n FN_REBUILD_LEFT_ROWS 0 else s
  modFn s n (fun x => { x with xfer := none, copy := none, copied := [], kept := none, evacuating := false })

/-- The new holder of a member marks its rows unrebuilt, but for those put by a transfer (R274, R276, R281). -/
def markUnrebuilt (s : State) (n : Nat) (old : FnSt) (mode subj : Nat) : State :=
  let x := fnSt s n
  let fresh := (newSlots old x).filter (fun q => !x.copied.contains q && !x.unrebuilt.contains q)
  let left := x.unrebuilt.filter (fun q => heldHere x q.1 q.2.2.2) ++ fresh
  let s := modFn s n (fun x => { x with unrebuilt := left, rebuildTotal := if fresh = [] then x.rebuildTotal else left.length })
  let s := setFnF s n FN_REBUILD_LEFT_ROWS left.length
  if fresh = [] then s
  else setFnF (setFnF (setFnF s n FN_REBUILD_STATUS_ACTIVE 1) n FN_REBUILD_STATUS_MODE mode) n FN_REBUILD_STATUS_SUBJECT subj

/-- MODE of LY_FNn_REBUILD_STATUS for a MODE of Table 10.6 (Table 10.15). -/
def rebuildMode (mode : Nat) : Nat := [0, 1, 2, 0, 3, 4, 4, 5].getD mode 0

/-- Re-form the collectives whose participants change (R226); a permute is abandoned when the live set changes (R236). -/
def reformAll (s : State) (n : Nat) (setChanged : Bool) : State :=
  let s := collReform s n 1
  let aborts := setChanged || (fnSt s n).abortGroup
  let s := if aborts then collReform (collReform s n 3) n 4 else s
  if setChanged then
    let s := collReform (collReform (collReform s n 2) n 5) n 7
    if (collAt (fnSt s n) 6).opened || !(fnSt s n).permuteSet.isEmpty then
      todo (bgComplete (modFn (collCancel s n 6 1) n (fun x => { x with permuteSet := [] })) n 0x15 7 0) (.startCheck n)
    else s
  else s

/-- R89: an epoch bump that leaves intake to go on. Waits for the fenced die's receipts are satisfied, reserved gradient
rows are discarded, and gradient contributions with an owed receipt are sent again under the new epoch. -/
def bumpIntake (s : State) (n : Nat) : State :=
  let x := fnSt s n
  match grpOf x with
  | none => s
  | some _ =>
    let s := modFn s n (fun x => { x with bumped := true })
    let gone := s.bags.filter (fun b => decide (b.fn = n) && decide (b.area = 1) && !b.decode)
    let s := gone.foldl (fun s b => release s b.slice b.fn b.area b.gen b.row b.p) s
    let mine := s.waits.filter (fun w => decide (w.fn = n) && decide (w.kind = .grad))
    mine.foldl (fun s w =>
      let hs := (w.holders.filter (fun h => slotHeld x h.member w.row)).map (fun h => { h with dst := memberDie x h.member w.row })
      let w' := { w with holders := hs, epoch := x.epoch, routeGen := x.route.number % 2 }
      let s := putWait s w w'
      if w'.allDone then waitSettled s w'
      else if w.sent then sendWait s w' 1 else s) s

/-- What the functions of the group do at a change that is no switch (R269, Table 3.8). -/
def bumpAct (s : State) (n : Nat) : State :=
  let x := fnSt s n
  if x.role ≠ 1 ∨ !actsRunning s n then s
  else if x.aborting then todo (modFn s n (fun x => { x with abortGroup := true })) (.drainCheck n)
  else if x.scalarsDone then todo s (.groupAbort n)
  else bumpIntake s n

/-- A die that becomes the holder of a member takes the slots' SEQ and the step (R226, R274). After a switch it opens intake
of the next step. After a bump it joins its group: at or after C the pass abort from the abort barrier on, before C the intake
that goes on (R89). How it learns which of the two, and the attempt and ABORTS of the step, is not stated, nor are the scalars
of a step it took no part in. -/
def takeOver (s : State) (n : Nat) (m : List Byte) (switch : Bool) : State :=
  let s := (List.range 8).foldl (fun s off => setColl s n off { seq := mmSeq m off }) s
  let t := if switch then mmStep m + 1 else mmStep m
  let s := modFn s n (fun x => { x with
    step := t, opened := true, attempt := 0, sched := 0, hold := none, anchor := true,
    norm2 := Config.takerScalar n t 0, nonfinite := bit (Config.takerScalar n t 1) 0, tokens := Config.takerScalar n t 2 })
  let s := setFnF (setFnF s n FN_STEP_LO_STEP_LO (t % 2 ^ 32)) n FN_STEP_HI_STEP_HI (t / 2 ^ 32)
  if !actsRunning s n then s
  else if switch then openIntake s n 0
  else if Config.takerPastC n t = false then
    let s := openIntake s n (Config.takerAttempt n t % 256)
    modFn (setFnF s n FN_FIFE_STATUS_ABORTS (Config.takerAborts n t % 256)) n (fun x => { x with bumped := true })
  else
    let s := setFnF (setFnF s n FN_STEP_STATUS_PHASE 6) n FN_FIFE_STATUS_ABORTS (Config.takerAborts n t % 256)
    todo (modFn s n (fun x => { x with
      aborting := true, abortGroup := true, flushed := List.range 16, drained := true, scalarsDone := true })) (.drainCheck n)

/-- The role after a change: role and own number. -/
def roleAfter (s : State) (x : FnSt) (m : List Byte) : Nat × Nat :=
  let mode := mmMode m
  let subj := mmSubject m
  let mine := decide (dieBits (mmDie m) = selfDie s)
  if mode = 6 then (if mine then (2, subj - 0x80) else (x.role, x.self))
  else if (mode = 1 ∨ mode = 4 ∨ mode = 5 ∨ mode = 7) ∧ mine then (1, subj)
  else if x.role = 1 ∧ x.self = subj then (if mmSwitch m then (0, 0) else (3, x.self))
  else (x.role, x.self)

/-- R269, orders 1 to 4: the record, the route generation, the epoch, and Table 3.8. -/
def adoptNow (s : State) (n : Nat) (m : List Byte) : State :=
  let x := fnSt s n
  match grpOf x with
  | none => s
  | some g =>
    let mode := mmMode m
    let subj := mmSubject m
    let (role, self) := roleAfter s x m
    let s := if role = x.role ∧ self = x.self then s else sweepAbandon (twinDisarm s n) n
    let x := fnSt s n
    let former := match x.members[subj]? with | some e => e.die | none => 0
    let ms := changedMembers x mode subj (mmDie m) (mmLive m)
    let sp := changedSpares x mode subj (mmDie m) (mmSpares m)
    let staged := x.routeStaged.isSome
    let ents := x.route.entries.set (changedId g mode subj) (mmDie m)
    let s := setFnSt s n { x with
      members := ms, spares := sp, role := role, self := self, epoch := mmNewEpoch m, lastEpoch := some m, asked := false,
      route := ⟨x.route.number + 1, ents⟩, routeShadow := some x.route, routeStaged := none, shadowZeroAt := none,
      routeSwitches := (x.routeSwitches + 1) % 65536, decl := none, suspectFor := none,
      proxies := x.proxies.filter (fun q => decide (q.1 ≠ subj)) ++ (if 1 ≤ mode ∧ mode ≤ 3 then [(subj, former)] else []) }
    let s := if staged then postEvent s n 0x0034 (leBytes 4 (mmNewEpoch m)) else s
    let s := markUnrebuilt s n x (rebuildMode mode) (if mode = 6 then 0 else subj)
    let s := (List.range x.members.length).foldl (fun s q => if q = x.self then s else freeFrames s n q x (fnSt s n)) s
    let taker := decide (role = 1) && (decide (x.role ≠ 1) || decide (x.self ≠ self))
    let s := if taker then takeOver s n m (mmSwitch m) else s
    let s := watchUpdate (showRecord s n)
    let s := if taker then s else reformAll s n (decide (groupSet x ≠ groupSet (fnSt s n)))
    if role = 3 ∧ x.role = 1 then
      let s := flagF (modFn s n (fun x => { x with mute := true })) (pgFn n) FN_MEMB_STATUS_FENCED
      let s := postEvent s n 0x0052 (leBytes 2 x.group ++ leBytes 4 (mmNewEpoch m))
      if isBusyFn s n then todo s (.abort n 4) else s
    else if role = 0 ∧ x.role = 1 then
      let s := modFn s n (fun x => { x with mute := true, forwardTo := if mmDie m = 0 then none else some (mmDie m) })
      let s := postEvent s n 0x0055 (leBytes 1 mode ++ leBytes 1 subj ++ leBytes 4 (mmNewEpoch m))
      let s := bgComplete s n 0x12 0 (mmNewEpoch m)
      if isBusyFn s n then todo s (.abort n 7) else s
    else
      let s := if 1 ≤ mode ∧ mode ≤ 3 ∧ mmSwitch m = false ∧ role = 1 ∧ !taker then
        postEvent s n 0x0050 (leBytes 2 x.group ++ leBytes 1 subj ++ leBytes 1 mode ++ leBytes 4 (mmNewEpoch m) ++ leBytes 4 (mmDie m))
        else s
      let s := if mode = 3 then
          let s := postEvent (flagF s (pgFn n) FN_MEMB_STATUS_NO_CAPACITY) n 0x0053 (leBytes 2 x.group ++ leBytes 1 subj)
          if isBusyFn s n then todo s (.abort n 6) else s
        else if mmSwitch m || taker || decide (mode = 6) then s
        else bumpAct s n
      if (mode = 5 ∨ mode = 6) ∧ dieBits (mmDie m) = selfDie s then
        let s := modFn s n (fun x => { x with mute := false })
        if mode = 5 ∧ mmSwitch m = false then modFn s n (fun x => { x with rejoinVerify := true })
        else bgComplete s n 0x13 0 ((fnSt s n).rejoinKept * 2 ^ 32 + (fnSt s n).rejoinGot)
      else s

/-- Adopt an EPOCH, or wait for the shadow to retire first (R269). A bump that is no switch abandons a transfer. -/
def adopt (s : State) (n : Nat) (m : List Byte) : State :=
  let s := if mmSwitch m then s else transferDrop s n
  if (fnSt s n).routeShadow.isSome then modFn s n (fun x => { x with epochWait := some m })
  else
    let s := adoptNow (modFn s n (fun x => { x with epochWait := none })) n m
    let s := if (fnSt s n).again.isSome then todo s (.changeAgain n) else s
    if mmSwitch m then showRecord (transferDrop s n) n else s

/-- The shadow has retired: a waiting adoption goes on. -/
def shadowGone (s : State) (n : Nat) : State :=
  match (fnSt s n).epochWait with
  | some m => adopt s n m
  | none => s

/-- The held switch of a step is adopted at its step seal (R269). -/
def adoptSwitch (s : State) (n step : Nat) : State :=
  match (fnSt s n).kept with
  | some m => if mmStep m = step then adopt s n m else s
  | none => s

/-- A die outside the step barrier, the target of a switch, adopts it when it learns from a packet that the group has
gone on to the new epoch (the model's choice). -/
def adoptLate (s : State) (n epoch : Nat) : State :=
  match (fnSt s n).kept with
  | some m => if (fnSt s n).role ≠ 1 ∧ mmNewEpoch m ≤ epoch then adopt s n m else s
  | none => s

/-! ### The keeper (R266 to R268, R273, R281 to R285) -/

/-- EPOCH messages of function `n` that are not answered. -/
def epochsOpen (s : State) (n : Nat) : Bool := s.msgs.any (fun q => decide (q.fn = n) && decide (mmKind q.bytes = 1))

/-- The masks after a change. -/
def liveAfter (x : FnSt) (mode subj : Nat) : Nat :=
  let l := (liveMembers x).filter (fun q => decide (q ≠ subj))
  maskOf (if mode = 2 ∨ mode = 3 ∨ mode = 6 then (if mode = 6 then liveMembers x else l) else subj :: l)
def sparesAfter (x : FnSt) (mode subj die : Nat) : Nat :=
  let keep := (standbyOf x).filter (fun i => match x.spares[i]? with | some e => decide (dieBits e.die ≠ dieBits die) | none => false)
  maskOf (if mode = 6 then (subj - 0x80) :: standbyOf x else if mode = 1 ∨ mode = 4 ∨ mode = 7 then keep else standbyOf x)

/-- Send EPOCH to a list of dies. -/
def epochSend (s : State) (n : Nat) (b : MembBody) (dies : List Nat) : State := dies.foldl (fun s e => membSend s n e b) s

/-- One epoch bump (R268). The subject's former die and its new one are told beside the record's. -/
def bump (s : State) (n mode subj die : Nat) : State :=
  let x := fnSt s n
  let former := match x.members[subj]? with | some e => [e.die] | none => []
  let late := decide (1 ≤ mode ∧ mode ≤ 3) && memLive x subj && !x.gseals.contains (subj, x.step) && actsRunning s n
  let b : MembBody := { kind := 1, subject := subj, mode := mode, live := liveAfter x mode subj, newEpoch := x.epoch + 1,
                        die := die, spares := sparesAfter x mode subj die }
  let dies := (sortDies (recordDies s x ++ former ++ (if die = 0 then [] else [die]))).filter (fun e => decide (dieBits e ≠ selfDie s))
  let s := adopt s n (membBytes s n 0 b)
  let s := modFn s n (fun x => { x with early := late })
  let b := { b with seqs := (List.range 8).map (fun off => (collAt (fnSt s n) off).seq) }
  epochSend s n b dies

/-- Declare member `m` FAILED with the first replacement of Table 10.5 that can be made (R268, R273). -/
def declareFailed (s : State) (n m : Nat) (room : Bool) : State :=
  let x := fnSt s n
  match pickSpare x m with
  | some i => bump s n 1 m (match x.spares[i]? with | some e => e.die | none => 0)
  | none => if absorbOk s n m room then bump s n 2 m 0 else bump s n 3 m 0

/-- The keeper sends the switch once every source is done, unless it has arrived at the step barrier of the step (R281). -/
def switchTry (s : State) (n : Nat) : State :=
  let x := fnSt s n
  match x.xfer with
  | some t =>
    if !t.waits.isEmpty ∨ t.sent ∨ (collAt x 2).opened ∨ epochsOpen s n then s
    else
      let b : MembBody := { kind := 1, subject := t.subject, mode := t.mode + 128, live := liveAfter x t.mode t.subject,
                            newEpoch := x.epoch + 1, die := t.target, spares := sparesAfter x t.mode t.subject t.target,
                            seqs := (List.range 8).map (fun off => (collAt x off).seq) }
      let dies := (sortDies (recordDies s x ++ (if t.target = 0 then [] else [t.target]))).filter (fun e => decide (dieBits e ≠ selfDie s))
      let s := modFn s n (fun x => { x with kept := some (membBytes s n 0 b), xfer := some { t with sent := true } })
      epochSend (postEvent s n 0x0055 (leBytes 1 t.mode ++ leBytes 1 t.subject ++ leBytes 4 (x.epoch + 1))) n b dies
  | none => s

/-- May this die arrive at the step barrier? The keeper waits for the answers to its switch (R281). -/
def stepClear (s : State) (n : Nat) : Bool :=
  match (fnSt s n).kept with
  | some m => !(decide (mmStep m = (fnSt s n).step) && epochsOpen s n)
  | none => true

/-- Start a transfer at the keeper, its sources being the dies that hold the subject's slots. -/
def xferStart (s : State) (n mode subj target : Nat) : State :=
  let x := fnSt s n
  let srcs := match x.members[subj]? with
    | some e => if e.absorbed.isEmpty then [subj] else e.absorbed.filter (fun q => memLive x q)
    | none => []
  showRecord (modFn s n (fun x => { x with xfer := some ⟨mode, subj, target, srcs, false⟩ })) n

/-- The status with which the keeper answers a request of another die; `none` while it takes the request up or lets it
wait (R283, R284). -/
def keeperServe (s : State) (n kind member die : Nat) (room : Bool) : State × Nat :=
  let x := fnSt s n
  if kind = 8 then
    match pickSpare x member with
    | some i => (xferStart s n 4 member (match x.spares[i]? with | some e => e.die | none => 0), 0)
    | none => if absorbOk s n member room then (xferStart s n 2 member 0, 0) else (s, 9)
  else
    let vacant := (List.range x.spares.length).find? (fun i => match x.spares[i]? with | some e => !e.standby | none => false)
    let entry := dieBits die + routeFn die * 64 + 1
    match vacant, x.members[member]? with
    | some i, _ =>
      (match grpOf x with
       | some g => if placementOk g (liveDies x.members) (standbyDies (x.spares.set i ⟨true, entry⟩)) then (bump s n 6 (0x80 + i) entry, 0)
                   else (s, 0xA)
       | none => (s, 0xA))
    | none, some e =>
      if e.live then (s, 0xA)
      else if !e.absorbed.isEmpty then (xferStart s n 5 member entry, 0)
      else if stateOf s n = 1 ∧ isStarting s n = false then (bump s n 5 member entry, 0)
      else (s, 0xA)
    | none, none => (s, 0xA)

/-- The keeper is free for the next change. -/
def keeperFree (s : State) (n : Nat) : Bool :=
  let x := fnSt s n
  amKeeper x && x.decl.isNone && x.xfer.isNone && !epochsOpen s n && x.epochWait.isNone

/-- A free keeper takes up a waiting request, or moves the lowest-numbered absorbed member to a STANDBY spare (R285). -/
def keeperIdle (s : State) (n : Nat) (room : Bool) : State :=
  let x := fnSt s n
  if !keeperFree s n then s else
  match x.membReqs with
  | r :: rest => (keeperServe (modFn s n (fun x => { x with membReqs := rest })) n r.1 r.2.1 r.2.2 room).1
  | [] =>
    match (List.range x.members.length).find? (fun m => isAbsorbed x m) with
    | none => s
    | some m =>
      match pickSpare x m with
      | some i => if stateOf s n = 2 then xferStart s n 7 m (match x.spares[i]? with | some e => e.die | none => 0) else s
      | none => s

/-- After an answer or an abandoned message: the bump is complete once no EPOCH is open (R268, R270). -/
def bumpCheck (s : State) (n : Nat) : State :=
  if epochsOpen s n then s else
  let x := fnSt s n
  let s := if x.early then todo (modFn s n (fun x => { x with early := false })) (.sound n 3) else s
  let s := if x.kept.isNone then bgComplete s n 0x11 0 x.epoch else s
  keeperIdle (todo s (.stepArrive n)) n (Config.othersRoom n s.ticks)

/-- The change that a later epoch overtook starts again under it, where it is still to be made (R269). -/
def changeAgain (s : State) (n : Nat) : State :=
  match (fnSt s n).again with
  | none => s
  | some (mode, subj, die) =>
    let s := { s with msgs := s.msgs.filter (fun q => !(decide (q.fn = n) && decide (mmKind q.bytes = 1) &&
      decide (mmNewEpoch q.bytes ≤ (fnSt s n).epoch))) }
    let s := modFn s n (fun x => { x with again := none })
    let x := fnSt s n
    if !amKeeper x then s
    else if 1 ≤ mode ∧ mode ≤ 3 ∧ memLive x subj = true then declareFailed s n subj (Config.othersRoom n s.ticks)
    else if (mode = 5 ∧ memLive x subj = false) ∨
        (mode = 6 ∧ (match x.spares[subj - 0x80]? with | some e => !e.standby | none => false) = true) then bump s n mode subj die
    else bumpCheck s n

/-! ### Messages that arrive -/

/-- An EPOCH (R269). -/
def recvEpoch (s : State) (n : Nat) (m : List Byte) : State :=
  let x := fnSt s n
  if mmNewEpoch m ≤ x.epoch then membAck s n m 1
  else
    let s := membAck s n m 0
    if mmNewEpoch m = x.epoch + 1 ∨ x.asked then
      if mmSwitch m then modFn s n (fun x => { x with kept := some m, asked := false }) else adopt s n m
    else
      let s := modFn s n (fun x => { x with asked := true })
      membSend s n (dieBits (mmSender m) + fnAtDie x (dieBits (mmSender m)) * 64)
        { kind := 5, live := maskOf (liveMembers x), newEpoch := x.epoch, spares := maskOf (standbyOf x),
          rank := (rankOf s (dieBits (mmSender m))).getD 0 }

/-- The entry of a sender. -/
def senderEntry (x : FnSt) (m : List Byte) : Nat := dieBits (mmSender m) + fnAtDie x (dieBits (mmSender m)) * 64 + 1

/-- The watched die of member `m` has been silent for `t` ticks. -/
def silentFor (s : State) (x : FnSt) (m t : Nat) : Bool :=
  match x.members[m]? with
  | some e => (match s.watch.find? (fun w => decide (w.die = dieBits e.die)) with
    | some w => decide (w.lastAt + t ≤ s.ticks)
    | none => false)
  | none => false

/-- A CONFIRM_REQ (R267). -/
def recvConfirmReq (s : State) (n : Nat) (m : List Byte) : State :=
  let s := membAck s n m 0
  let x := fnSt s n
  let next := mmEpoch m + 1
  let st := if !silentFor s x (mmSubject m) 16000 then 1
    else match x.suspectFor with
      | some (k, e) => if e = next ∧ k ≠ dieBits (mmSender m) then 2 else 0
      | none => 0
  let s := if st = 0 then modFn s n (fun x => { x with suspectFor := some (dieBits (mmSender m), next) }) else s
  membSend s n (senderEntry x m) { kind := 3, subject := mmSubject m, mode := st }

/-- An attempt to declare ends without confirmation (R267). -/
def unconfirmed (s : State) (n m : Nat) : State :=
  let s := flagF s (pgFn n) FN_MEMB_STATUS_UNCONFIRMED
  let s := postEvent s n 0x0051 (leBytes 2 (fnSt s n).group ++ leBytes 1 m)
  modFn s n (fun x => { x with decl := none, declNext := tabPut x.declNext m (some (s.ticks + 160000)) })

/-- A CONFIRM_RSP at the keeper (R267). -/
def recvConfirmRsp (s : State) (n : Nat) (m : List Byte) (room : Bool) : State :=
  let s := membAck s n m 0
  match (fnSt s n).decl with
  | none => s
  | some d =>
    if d.member ≠ mmSubject m ∨ !d.confirmers.contains (mmMember m) then s
    else if mmModeByte m ≠ 0 then unconfirmed s n d.member
    else
      let d' := { d with agreed := if d.agreed.contains (mmMember m) then d.agreed else d.agreed ++ [mmMember m] }
      let s := modFn s n (fun x => { x with decl := some d' })
      if 2 ≤ d'.agreed.length then declareFailed (modFn s n (fun x => { x with decl := none })) n d.member room else s

/-- The acting keeper for a declaration about member `m`, and its confirmers (R266). -/
def actingKeeper (x : FnSt) (m : Nat) : Option Nat := (liveMembers x).find? (fun q => decide (q ≠ m))
def confirmersOf (x : FnSt) (m : Nat) : List Nat :=
  ((liveMembers x).filter (fun q => decide (q ≠ m) && decide (some q ≠ actingKeeper x m))).take 2

/-- The route entry of member `m`. -/
def memberEntry (x : FnSt) (m : Nat) : Nat := match x.members[m]? with | some e => e.die | none => 0

/-- DECLARE_TIMEOUT: 160,000 ticks without a heartbeat of a member (R267). -/
def declareTimeout (s : State) (n m : Nat) : State :=
  let x := fnSt s n
  if x.role ≠ 1 ∨ !memLive x m ∨ m = x.self ∨ actingKeeper x m ≠ some x.self ∨ x.decl.isSome ∨ (epochsOpen s n && x.kept.isNone) ∨
      !(stateOf s n = 2 ∨ stateOf s n = 3) then s
  else match s.watch.find? (fun w => decide (w.die = dieBits (memberEntry x m))) with
    | none => s
    | some w =>
      let s := advanceTo s (max (w.lastAt + 160000) (tabGet 0 x.declNext m))
      let cs := confirmersOf x m
      if cs.length < 2 then unconfirmed s n m
      else
        let s := modFn s n (fun x => { x with decl := some ⟨m, cs, []⟩ })
        cs.foldl (fun s c => membSend s n (memberEntry x c) { kind := 2, subject := m }) s

/-- A GSEAL (R270). -/
def recvGseal (s : State) (n : Nat) (m : List Byte) : State :=
  let s := membAck s n m 0
  let q := (mmMember m, mmStep m)
  modFn s n (fun x => { x with gseals := if x.gseals.contains q then x.gseals else x.gseals.filter (fun g => decide (g.1 ≠ q.1)) ++ [q] })

/-- Send GSEAL to every other LIVE member (R270). -/
def sendGseal (s : State) (n : Nat) : State :=
  let x := fnSt s n
  let s := modFn s n (fun x => { x with gseals := x.gseals.filter (fun g => decide (g.1 ≠ x.self)) ++ [(x.self, x.step)] })
  (liveDies x.members).foldl (fun s e => if dieBits e = selfDie s then s else membSend s n e { kind := 4 }) s

/-- The REPORT that this die sends to another. -/
def reportTo (s : State) (n e : Nat) : State :=
  let x := fnSt s n
  membSend s n e { kind := 5, live := maskOf (liveMembers x), newEpoch := x.epoch, spares := maskOf (standbyOf x),
                   rank := (rankOf s (dieBits e)).getD 0 }

/-- REPORT to every other member and spare at restart (Table 10.4). -/
def sendReports (s : State) (n : Nat) : State := (recordDies s (fnSt s n)).foldl (fun s e => reportTo s n e) s

/-- A REPORT: the rank, and for a die that is behind the latest EPOCH (R263, R269). -/
def recvReport (s : State) (n : Nat) (m : List Byte) : State :=
  let s := membAck s n m 0
  let s := { s with ranks := tabPut s.ranks (dieBits (mmSender m)) (some (mmRank m)) }
  let x := fnSt s n
  match x.lastEpoch with
  | some e =>
    if mmNewEpoch m < x.epoch ∧ mmNewEpoch e = x.epoch then
      let b : MembBody := ⟨1, mmSubject e, mmMode e, maskOf (liveMembers x), x.epoch, mmDie e, maskOf (standbyOf x), 0,
        (List.range 8).map (fun off => (collAt x off).seq)⟩
      membSend s n (senderEntry x m) b
    else s
  | none => s

/-- A request of another die at the keeper: taken up at once, or kept while the keeper is busy; one that cannot be met is
answered with the completion status of its command. -/
def recvRequest (s : State) (n : Nat) (m : List Byte) (room : Bool) : State :=
  let x := fnSt s n
  if !amKeeper x then membAck s n m 0
  else if keeperFree s n then
    let r := keeperServe s n (mmKind m) (mmMember m) (senderEntry x m) room
    membAck r.1 n m r.2
  else membAck (modFn s n (fun x => { x with membReqs := x.membReqs ++ [(mmKind m, mmMember m, senderEntry x m)] })) n m 0

/-- A source has finished its walk (R281). -/
def transferDoneAt (s : State) (n member : Nat) : State :=
  match (fnSt s n).xfer with
  | some t => switchTry (modFn s n (fun x => { x with xfer := some { t with waits := t.waits.filter (fun q => decide (q ≠ member)) } })) n
  | none => s

/-- A TRANSFER_DONE at the keeper. -/
def recvTransferDone (s : State) (n : Nat) (m : List Byte) : State := transferDoneAt (membAck s n m 0) n (mmMember m)

/-- An ACK (R265, R269): the message is answered; STALE makes the keeper ask for the later epoch. -/
def recvMembAck (s : State) (n : Nat) (m : List Byte) : State :=
  match s.msgs.find? (fun q => decide (q.fn = n) && decide (q.id = mmId m) && decide (dieBits q.dst = dieBits (mmSender m))) with
  | none => s
  | some q =>
    let s := { s with msgs := s.msgs.erase q }
    let st := mmModeByte m
    let k := mmKind q.bytes
    if k = 1 then
      if st = 1 ∧ (fnSt s n).epoch < mmEpoch m then
        let next := if mmSwitch q.bytes then (fnSt s n).again else some (mmMode q.bytes, mmSubject q.bytes, mmDie q.bytes)
        reportTo (modFn s n (fun x => { x with asked := true, again := next })) n q.dst
      else bumpCheck s n
    else if k = 8 ∧ st ≠ 0 then bgComplete (modFn s n (fun x => { x with evacuating := false })) n 0x12 st 0
    else if k = 6 ∧ st ≠ 0 then bgComplete s n 0x13 st 0
    else s

/-- The membership message in a packet, with the function of its mailbox. -/
def membOf (p : Packet) : Option (Nat × List Byte) :=
  if headerOk' p ∧ hType p = 3 ∧ hSpace p = 3 ∧ hPoison p = false ∧ hBytes p = 64 ∧ pgFn 0 ≤ hAddr p ∧ hAddr p < pgFn 64 ∧
      hAddr p % 4096 = 0xF00 then
    let m := p.payload.take 64
    if field m 0x38 8 = crc64 (m.take 0x38) then some ((hAddr p - pgFn 0) / 4096, m) else none
  else none

/-- A message of a kind arrives: acted on once, and acknowledged again when it is repeated (R265). During a firmware switch it
is acknowledged, and acted on at its end (R395). -/
def recvMemb (s : State) (p : Packet) (kind : Nat) (room : Bool) : State :=
  match membOf p with
  | none => s
  | some (n, m) =>
    let key := (dieBits (mmSender m), mmId m)
    if mmKind m ≠ kind then s
    else if mmGroup m ≠ (fnSt s n).group then (if kind = 0xF then s else membAck s n m 0)
    else if switching s then
      let s := if kind = 0xF then s else membAck s n m (b2n (decide (kind = 1 ∧ mmNewEpoch m ≤ (fnSt s n).epoch)))
      { s with nvm := { s.nvm with msgs := s.nvm.msgs ++ [⟨p, kind, room⟩] } }
    else if kind = 0xF then recvMembAck s n m
    else if (fnSt s n).seenMsgs.contains key then membAck s n m 0
    else
      let s := modFn s n (fun x => { x with seenMsgs := x.seenMsgs ++ [key] })
      let s := if kind = 1 then s else adoptLate s n (mmEpoch m)
      if kind = 1 then recvEpoch s n m
      else if kind = 2 then recvConfirmReq s n m
      else if kind = 3 then recvConfirmRsp s n m room
      else if kind = 4 then recvGseal s n m
      else if kind = 5 then recvReport s n m
      else if kind = 7 then recvTransferDone s n m
      else recvRequest s n m room

/-- MEMBERSHIP_REPEAT: the oldest unanswered message of a function is sent again, or abandoned after eight repeats
(R265). -/
def membRepeat (s : State) (n : Nat) : State :=
  match s.msgs.find? (fun q => decide (q.fn = n) && s.msgs.all (fun r => decide (r.fn ≠ n) || decide (q.sentAt ≤ r.sentAt))) with
  | none => s
  | some q =>
    let s := advanceTo s (q.sentAt + 8192)
    if q.repeats < 8 then
      membStore { s with msgs := s.msgs.map (fun r => if r = q then { q with sentAt := s.ticks, repeats := q.repeats + 1 } else r) } q.dst q.bytes
    else
      let s := { s with msgs := s.msgs.erase q }
      let k := mmKind q.bytes
      if k = 1 then bumpCheck s n
      else if k = 2 then (match (fnSt s n).decl with | some d => unconfirmed s n d.member | none => s)
      else if k = 8 then bgComplete (modFn s n (fun x => { x with evacuating := false })) n 0x12 7 0
      else if k = 6 then bgComplete s n 0x13 7 0
      else s

/-! ### Requests of this die -/

/-- Ask the keeper for evacuation (R282); a keeper asks itself. -/
def evacRequest (s : State) (n : Nat) (room : Bool) : State :=
  let x := fnSt s n
  if x.role ≠ 1 then s else
  let s := modFn s n (fun x => { x with evacuating := true })
  if amKeeper x then
    if keeperFree s n then
      let r := keeperServe s n 8 x.self 0 room
      if r.2 = 0 then r.1 else bgComplete (modFn r.1 n (fun x => { x with evacuating := false })) n 0x12 r.2 0
    else modFn s n (fun x => { x with membReqs := x.membReqs ++ [(8, x.self, 0)] })
  else match keeperOf x with
    | some k => membSend s n (memberEntry x k) { kind := 8 }
    | none => s

/-- Ask the keeper to be taken back (R284). -/
def rejoinRequest (s : State) (n : Nat) : State :=
  let x := fnSt s n
  let s := modFn s n (fun x => { x with rejoinKept := 0, rejoinGot := 0 })
  match (liveMembers x).head? with
  | some k => membSend s n (memberEntry x k) { kind := 6 }
  | none => bgComplete s n 0x13 0xA 0

/-! ### A transfer at its source (R281, R284) -/

/-- The die that a slot of row `j` goes to. -/
def copyTarget (x : FnSt) (c : Copy) (j : Nat) : Nat :=
  if c.mode = 2 then
    let l := (liveMembers x).filter (fun q => decide (q ≠ c.subject))
    memberEntry x (l.getD (j % max 1 l.length) 0)
  else c.target

/-- A source starts its walk: the rows of the subject that this die holds, in row order. -/
def copyStart (s : State) (n mode subj target : Nat) : State :=
  let x := fnSt s n
  let rows := match x.manifest with
    | none => []
    | some m => (((List.range m.stripeRows).map (fun j => (0, 0, j))) ++
        ((List.range (m.d + 1)).map (fun g => (List.range m.gradRows).map (fun j => (1, g, j)))).flatten)
  let mine := rows.filter (fun q => heldHere x subj q.2.2)
  if mine = [] ∨ x.copy.isSome ∨ !(mode = 2 ∨ mode = 4 ∨ mode = 5 ∨ mode = 7) ∨ stateOf s n ≠ 2 then s
  else
    let s := modFn s n (fun x => { x with copy := some ⟨mode, subj, target, mine, [], false⟩ })
    let s := setFnF (setFnF (setFnF s n FN_REBUILD_STATUS_ACTIVE 1) n FN_REBUILD_STATUS_MODE (if mode = 2 then 3 else rebuildMode mode))
      n FN_REBUILD_STATUS_SUBJECT subj
    showRecord (setFnF s n FN_REBUILD_LEFT_ROWS mine.length) n

/-- A source is done when its walk is complete and every put is receipted (R281). -/
def copyCheck (s : State) (n : Nat) : State :=
  let x := fnSt s n
  match x.copy with
  | some c =>
    if !c.left.isEmpty ∨ !c.mirrors.isEmpty ∨ c.doneSent ∨
        s.waits.any (fun w => decide (w.fn = n) && decide (w.kind = .put) && decide (w.core = 3)) then s
    else
      let s := setFnF (modFn s n (fun x => { x with copy := some { c with doneSent := true } })) n FN_REBUILD_STATUS_ACTIVE
        (b2n (!x.unrebuilt.isEmpty))
      if amKeeper x then transferDoneAt s n x.self
      else match keeperOf x with
        | some k => membSend s n (memberEntry x k) { kind := 7, subject := c.subject }
        | none => s
  | none => s

/-- TRANSFER_COPY_SLOT: the next slot of the walk, or of the mirror, goes to the target as a LEAF_PUT in TC3; a slot not
rebuilt here is decoded first. In a rejoin its postmark goes first (R284). -/
def copySlot (s : State) (n mode subj target : Nat) (imgs : RowSet) : State :=
  let s := if (fnSt s n).copy.isNone then copyStart s n mode subj target else s
  match (fnSt s n).copy with
  | none => s
  | some c =>
    if c.mode ≠ mode ∨ c.subject ≠ subj ∨ (fnSt s n).mute then s else
    match c.mirrors, c.left with
    | [], [] => copyCheck s n
    | ms, l =>
      let q := (ms ++ l).headD (0, 0, 0)
      let walk := ms.isEmpty
      let s := if (unrebuiltAt (fnSt s n) q.1 q.2.1 q.2.2).isEmpty then s
        else (rebuildRow s n q.1 q.2.1 q.2.2 (imgsOf imgs q.1 q.2.1 q.2.2) [] true).state
      let c := { c with mirrors := ms.drop 1, left := if walk then l.drop 1 else l }
      let s := modFn s n (fun x => { x with copy := some c })
      let s := if walk then setFnF s n FN_REBUILD_LEFT_ROWS c.left.length else s
      let x := fnSt s n
      let slot := heldSlot s n subj q.1 q.2.1 q.2.2
      let w : Wait := ⟨.put, n, rowSlice x q.2.2, 3, q.1, q.2.1, q.2.2, subj, pmStamp slot, x.epoch, x.route.number % 2,
        decide (mode = 5) && walk, true, s.ticks, cellsOf 0 slot, [⟨subj, 0, copyTarget x c q.2.2, false⟩]⟩
      w.holders.foldl (fun s h => sendTo s w 3 n h) { s with waits := s.waits ++ [w] }

/-! ### A transfer at its target -/

/-- A LEAF_PUT in TC3 is armed for a slot: its sender is a die of the group, and this die is a spare, a die that rejoins,
or the member that will absorb the row (R205, R281). -/
def transferArmed (s : State) (n : Nat) (p : Packet) : Bool :=
  let x := fnSt s n
  let src := dieBits (hSrc p)
  let fromGroup := (liveDies x.members).any (fun e => decide (dieBits e = src))
  let l := (liveMembers x).filter (fun q => decide (q ≠ hMember p))
  decide (hTc p = 3) && fromGroup && decide (hMember p < x.members.length) &&
    (match x.manifest with | some m => decide (hRow p < areaRows m (hArea p)) | none => false) &&
    (decide (x.role = 2) || (decide (x.role = 3) && bgRunning s n 0x13) ||
      (decide (x.role = 1) && decide (l[hRow p % max 1 l.length]? = some x.self) && memLive x (hMember p)))

/-- Write a slot at the place that this die will hold it in: the state range for its own future member, a parking frame
for an absorbed one. -/
def targetWrite (s : State) (n m area gen row : Nat) (slot : List Byte) : State :=
  if (fnSt s n).role = 1 then { s with deep := memWriteN s.deep (frameAddr n m area gen row) slot }
  else slotWrite s n area gen row slot

/-- A slot put by a transfer is complete: written unchanged into the same row (R281), counted for a rejoin (R284). -/
def transferWrite (s : State) (n m area gen row : Nat) (slot : List Byte) : State :=
  let s := targetWrite s n m area gen row slot
  showRecord (modFn s n (fun x => { x with
    copied := if x.copied.contains (m, area, gen, row) then x.copied else x.copied ++ [(m, area, gen, row)],
    rejoinGot := if x.role = 3 ∧ !x.copied.contains (m, area, gen, row) then x.rejoinGot + 1 else x.rejoinGot })) n

/-- The postmark of a rejoin: the target keeps its slot when both agree and its own body matches (R284). -/
def postmarkKept (own pm : List Byte) : Bool :=
  decide (pmKind own = pmKind pm) && decide (pmStamp own = pmStamp pm) && decide (pmDigest own = pmDigest pm) &&
    decide (pmChain own = pmChain pm) && decide (pmDigest own = crc64 (slotBody own))

/-- The slot that the rejoining die kept in a row. -/
def transferKeep (s : State) (n m area gen row : Nat) : State :=
  modFn s n (fun x => { x with copied := if x.copied.contains (m, area, gen, row) then x.copied else x.copied ++ [(m, area, gen, row)],
                               rejoinKept := x.rejoinKept + 1 })

/-! ### Background rebuild and rejoin verification (R275, R284) -/

/-- Does rejoin verification keep the slot of this die in a row (R284, rows with no replacement)? -/
def verifyKeeps (s : State) (n area gen j : Nat) (imgs : RowImages) : Bool :=
  let x := fnSt s n
  match grpOf x with
  | none => false
  | some g =>
    let own := heldSlot s n x.self area gen j
    let slots := slotOf s n area gen j imgs []
    let hole := !isData g.k g.n x.self j
    if slotErased x.epoch area hole own then false
    else if hole then
      (List.range g.k).all (fun i => match slots ((j + i) % g.n) with
        | some b => decide (holeEntry area own ((j + i) % g.n) (dataStamp b) = dataStamp b)
        | none => true)
    else
      (List.range g.r).all (fun p => match slots (holeMember g j p) with
        | some b => slotErased x.epoch area true b || decide (holeEntry area b x.self (dataStamp own) = dataStamp own)
        | none => true)

/-- BACKGROUND_REBUILD: the first unrebuilt row, or in a rejoin's verification the row is kept where it agrees. -/
def backgroundRebuild (s : State) (n : Nat) (imgs : RowSet) : State :=
  let x := fnSt s n
  match x.unrebuilt with
  | [] => s
  | q :: _ =>
    let (area, gen, j) := q.2
    let im := imgsOf imgs area gen j
    if !(actsRunning s n || (x.rejoinVerify && isStarting s n)) then s
    else if x.rejoinVerify then
      let s := if verifyKeeps s n area gen j im then
          rebuiltRow (modFn s n (fun x => { x with rejoinKept := x.rejoinKept + 1 })) n area gen j
        else (rebuildRow (modFn s n (fun x => { x with rejoinGot := x.rejoinGot + 1 })) n area gen j im [] false).state
      if (fnSt s n).unrebuilt.isEmpty then
        let y := fnSt s n
        todo (bgComplete (modFn s n (fun x => { x with rejoinVerify := false })) n 0x13 0 (y.rejoinKept * 2 ^ 32 + y.rejoinGot)) (.startCheck n)
      else s
    else (rebuildRow s n area gen j im [] false).state

/-! ### Link margins (R282) -/

/-- The least-squares line through the minima, latest first, reaches a limit within `h` windows. -/
def lineReaches (l : List Nat) (limit h : Nat) : Bool :=
  if l.length < 16 ∨ h = 0 then false else
  let pts := (List.range 16).map (fun (i : Nat) => ((i : Int), ((l.reverse.getD i 0 : Nat) : Int)))
  let sy := (pts.map (fun p => p.2)).sum
  let sxy := (pts.map (fun p => p.1 * p.2)).sum
  let val := fun (x : Int) => 680 * sy + (16 * sxy - 120 * sy) * (2 * x - 15)
  decide (val 15 ≤ 10880 * (limit : Int)) || decide (val (15 + h) ≤ 10880 * (limit : Int))

/-- Index and value of the least element. -/
def leastOf (l : List Nat) : Nat × Nat :=
  (l.zipIdx.foldl (fun (a : Option (Nat × Nat)) q => match a with
    | none => some (q.2, q.1)
    | some (i, v) => if q.1 < v then some (q.2, q.1) else some (i, v)) none).getD (0, 0)

/-- MARGIN_WINDOW: the window of 2^30 ticks ends with a minimum for each link and quantity. -/
def marginWindow (s : State) (mins : List Nat) (room : Bool) : State :=
  let s := advanceTo s ((s.marginWindows + 1) * 2 ^ 30)
  let hist := (List.range 96).map (fun i => ((min (mins.getD i 255) 255) :: tabGet [] s.margins i).take 16)
  let s := { s with marginWindows := s.marginWindows + 1,
                    margins := (List.range 96).foldl (fun t i => tabPut t i (some (hist.getD i []))) s.margins }
  let warn := getF s pgPort PORT_MARGIN_LIMIT_WARN_PCT
  let evac := getF s pgPort PORT_MARGIN_LIMIT_EVAC_PCT
  let h := getF s pgPort PORT_MARGIN_LIMIT_HORIZON
  let below := fun (lim k : Nat) => hist.any (fun l => match l[k]? with | some v => decide (v < lim) | none => false)
  let run4 := fun (lim : Nat) => (List.range 4).all (fun k => below lim k)
  let st := if run4 evac || hist.any (fun l => lineReaches l evac h) then 2 else if run4 warn then 1 else 0
  let old := getF s pgPort PORT_MARGIN_STATUS_STATE
  let (i, v) := leastOf (hist.map (fun l => l.headD 255))
  let s := setF (setF (setF (setF s pgPort PORT_MARGIN_STATUS_STATE st) pgPort PORT_MARGIN_STATUS_QUANTITY (i % 3))
    pgPort PORT_MARGIN_STATUS_LINK (i / 3)) pgPort PORT_MARGIN_STATUS_WORST_PCT v
  let w := leBytes 4 (wordAt s (pgPort + 0x080)).toNat
  if st = 1 ∧ old ≠ 1 then postEvent s 0 0x0056 w
  else if st = 2 ∧ old ≠ 2 then
    let s := postEvent s 0 0x0057 w
    (List.range 64).foldl (fun s n =>
      if n ≠ 0 ∧ stateOf s n = 2 ∧ forceF s n FN_MEMB_CTRL_AUTO_EVAC = 1 then evacRequest s n room else s) s
  else s

end Sys2Proof.Machine
end

