-- ==== Sys2Proof/Machine/Bellows.lean ====
section
/-!
DEFINITION. Leaving the line path (R241), and HOLD with its Bellows stages (R252, R316 to R318, Tables 9.11 and 11.9).
-/

namespace Sys2Proof.Machine

/-! ### The path (R241) -/

/-- A function's collectives move from the line to the TC0 tree: PATH_DOWN to the participants of its chassis when this
die's own line is the cause, and every collective in progress on the line re-forms. -/
def pathDown (s : State) (n : Nat) (tell : Bool) : State :=
  if isBusyFn s n = false ∨ fnF s n FN_FIFE_STATUS_PATH_ACTIVE = 1 then s
  else
    let x := fnSt s n
    let moved := (List.range 8).filter (fun off =>
      let c := collAt x off
      (c.opened && c.line) || (!c.opened && !c.kids.isEmpty && onLine s n off))
    let s := setFnF s n FN_FIFE_STATUS_PATH_ACTIVE 1
    let near := (liveSet x).filter (fun e => decide (chassisOf e = chassisOf (selfDie s)) && decide (dieBits e ≠ selfDie s))
    let s := if tell then near.foldl (fun s e => sendFife s n e (fifeForm 0x11 0 0 0 0 0 0 0) []) s else s
    moved.foldl (fun s off => collReform s n off) s

/-- The line leaves LOCKED, or the phase leaves RUN: every function on the line changes path. -/
def allPathsDown (s : State) : State := (List.range 64).foldl (fun s n => pathDown s n true) s

/-! ### HOLD -/

/-- Report a Bellows stage on the line, and repeat it every 64 frames (R255). -/
def reportStage (s : State) (stage : Nat) : State :=
  { s with line := { s.line with single := s.line.single ++ [0xE * 2 ^ 36 + stage * 2 ^ 32], bellIn := 64 } }

/-- Change the HOLD record. -/
def modHold (s : State) (f : HoldPhase → HoldPhase) : State := { s with hold := s.hold.map f }

/-- A stage is reached. -/
def reachStage (s : State) (stage : Nat) : State := reportStage (modHold s (fun h => { h with stage := stage })) stage

/-- HOLD begins and its stage STOPPED is reached: the functions leave the line, sweeps are abandoned and the push area
discarded, and Bugle is sounded for each RUNNING function (R316). -/
def enterHold (s : State) : State :=
  let before := match s.hold with | some h => h.before | none => getF s pgFife FIFE_STATUS_PHASE
  let s := setF { s with hold := some ⟨s.ticks, before, 0, none, false, false, []⟩ } pgFife FIFE_STATUS_PHASE 2
  let s := (List.range 64).foldl (fun s n => sweepAbandon s n) (allPathsDown s)
  let s := { s with pushes := [] }
  let s := (List.range 64).foldl (fun s n => if stateOf s n = 2 then bugleSound s n 2 false else s) s
  reachStage s 1

/-- PFAIL_N asserted, or POWER WARN: HOLD begins from LAUNCH or RUN (Table 9.11), and anew when it comes after a cancelled
warning before the hub has named a phase. -/
def holdWanted (s : State) : State :=
  let phase := getF s pgFife FIFE_STATUS_PHASE
  if phase = 0 ∨ phase = 1 ∨ (phase = 2 ∧ holding s = false) then enterHold s else s

/-- The functions whose abort barrier closed in HOLD go on with recovery, after a catalog with REASON CANCELLED (R318). -/
def cancelHold (s : State) (fails : List Nat) : State :=
  match s.hold with
  | none => s
  | some h =>
    let s := if floorReady s then writeCatalog fails s 0 2 h.stage else s
    let s := modHold s (fun h => { h with ended := true, cancel := false, barriers := [] })
    h.barriers.foldl (fun s n => if (fnSt s n).aborting then recoveryStart s n else s) s

/-- POWER CANCEL has come and PFAIL_N is deasserted: the warning is withdrawn. -/
def cancelCheck (s : State) (fails : List Nat) : State :=
  match s.hold with
  | none => s
  | some h => if h.cancel && !h.ended && !s.pfail then cancelHold s fails else s

/-- Leave HOLD for a phase. -/
def leaveHold (s : State) (phase : Nat) : State := setF { s with hold := none } pgFife FIFE_STATUS_PHASE phase

/-- PFAIL_ASSERT. -/
def pfailAssert (s : State) : State :=
  holdWanted (modHold { s with pfail := true } (fun h => { h with calmAt := none }))

/-- PFAIL_DEASSERT. While the line is FIFE_DOWN, 8,000,000 ticks of it act as POWER CANCEL with the hub's PHASE (R318). -/
def pfailDeassert (s : State) (fails : List Nat) : State :=
  let s := modHold { s with pfail := false } (fun h => { h with calmAt := some (h.calmAt.getD s.ticks) })
  match s.hold with
  | none => s
  | some h =>
    if getF s pgFife FIFE_STATUS_LINE = 5 ∧ h.ended = false then
      leaveHold (cancelHold (advanceTo s (h.calmAt.getD s.ticks + 8000000)) fails) h.before
    else cancelCheck s fails

/-- BELLOWS_DELTAS: every registered delta is sent and every deep-tier write that had begun is complete. Lyith-C is DONE
straight after (R255). -/
def bellowsDeltas (s : State) : State :=
  match s.hold with
  | none => s
  | some h =>
    if h.stage = 1 ∧ h.ended = false ∧ s.deepWrites.isEmpty = true ∧
        s.waits.all (fun w => w.sent || decide (w.kind ≠ .state)) = true then
      let s := reachStage s 2
      if s.variant = .C then reachStage s 4 else s
    else s

/-- BELLOWS_JOURNAL: every floor program in flight has completed, and a catalog with FLAGS.BELLOWS is written. -/
def bellowsJournal (s : State) (fails : List Nat) : State :=
  match s.hold with
  | none => s
  | some h =>
    if h.stage = 2 ∧ h.ended = false ∧ s.floor.flights.isEmpty = true ∧ s.variant = .F then
      reachStage (if floorReady s then writeCatalog fails s 1 1 3 else s) 3
    else s

/-- BELLOWS_DONE: a catalog whose resume entries carry REASON BELLOWS and STAGE DONE. -/
def bellowsDone (s : State) (fails : List Nat) : State :=
  match s.hold with
  | none => s
  | some h =>
    if h.stage = 3 ∧ h.ended = false then reachStage (if floorReady s then writeCatalog fails s 1 1 4 else s) 4 else s

end Sys2Proof.Machine
end

