-- ==== Sys2Proof/Machine/Line.lean ====
section
/-!
DEFINITION. The Fife line (R244 to R256): frames, the transmitter, the receiver's lock states, messages and their
acknowledgement, phases, echoes, beacons, heartbeats and the TEST phase.
-/

namespace Sys2Proof.Machine

/-! ### Frames (R244 to R247) -/

/-- One step of the scrambler: the output so far and the 17-bit state (R245). -/
def keyStep (q : Nat × Nat) : Nat × Nat :=
  (q.1 * 2 + bits q.2 16 16, (q.2 * 2 + (bits q.2 16 16 + bits q.2 13 13) % 2) % 131072)

/-- `n` steps of the scrambler. -/
def keyRun : Nat → Nat × Nat → Nat × Nat
  | 0, q => q
  | n + 1, q => keyRun n (keyStep q)

/-- keystream(FC) (R245). -/
def keystream (fc : Nat) : Nat := (keyRun 40 (0, 65536 + (fc % 65536 ^^^ 0xA5A5))).1

/-- One bit of the CRC-8. -/
def crc8Bit (c : Nat) : Nat := if 128 ≤ c then ((c - 128) * 2) ^^^ 7 else c * 2

/-- One byte of the CRC-8. -/
def crc8Byte (c b : Nat) : Nat := crc8Bit (crc8Bit (crc8Bit (crc8Bit (crc8Bit (crc8Bit (crc8Bit (crc8Bit (c ^^^ b))))))))

/-- CHECK of a 40-bit PAYLOAD, bits 47:40 of the frame first (R246). -/
def lineCheck (p : Nat) : Nat := [bits p 39 32, bits p 31 24, bits p 23 16, bits p 15 8, bits p 7 0].foldl crc8Byte 0

/-- The frame of a plaintext at FC. -/
def lineFrame (fc plain : Nat) : Nat :=
  let p := plain ^^^ keystream fc
  0xC6D5 * 2 ^ 48 + p * 256 + lineCheck p

/-- PAYLOAD of a frame. -/
def linePayload (w : Nat) : Nat := bits w 47 8

/-- SYNC and CHECK hold. -/
def syncOk (w : Nat) : Bool := decide (bits w 63 48 = 0xC6D5) && decide (bits w 7 0 = lineCheck (linePayload w))

/-- KIND of a plaintext. -/
def pKind (p : Nat) : Nat := bits p 39 36
def pSlot (p : Nat) : Nat := bits p 35 28
def pSeq (p : Nat) : Nat := bits p 27 20
def pStatus (p : Nat) : Nat := bits p 19 16
def pSub (p : Nat) : Nat := bits p 35 32
def pData (p : Nat) : Nat := bits p 31 0

/-- Every field that Table 9.10 shows as zero is zero (R250). -/
def zeroOk (p : Nat) : Bool :=
  match pKind p with
  | 0x0 => decide (p = 0)
  | 0x3 => decide (bits p 35 16 = 0)
  | 0x4 | 0x6 => decide (bits p 15 0 = 0)
  | 0x5 => decide (bits p 14 0 = 0)
  | 0x8 => decide (bits p 35 32 = 0)
  | 0x9 => decide (bits p 33 0 = 0)
  | 0xA | 0xB => decide (bits p 35 8 = 0)
  | 0xD | 0xE => decide (pData p = 0)
  | _ => true

/-- FC is a reserved position (R247). -/
def reservedFc (fc : Nat) : Bool := decide (fc % 64 = 0) || decide (fc % 64 = 1) || decide (fc % 1024 = 32)

/-- A frame at a reserved position decodes as R247 requires; the hub's phase is the one it last stated. -/
def reservedOk (hub : Option Nat) (fc p : Nat) : Bool :=
  if fc % 64 = 0 then decide (p = 0)
  else if fc % 64 = 1 then decide (pKind p = 9)
  else if fc % 1024 = 32 then (match hub with
    | some ph => if ph = 1 then decide (pKind p = 8) else decide (p = 0)
    | none => decide (pKind p = 8) || decide (p = 0))
  else true

/-! ### The lock states (R248, R249, Table 9.9) -/

def lineState (s : State) : Nat := getF s pgFife FIFE_STATUS_LINE
def linePhase (s : State) : Nat := getF s pgFife FIFE_STATUS_PHASE

/-- Change the line's state. -/
def modLine (s : State) (f : LineSt → LineSt) : State := { s with line := f s.line }

/-- The FIFE_LINE event to MF. -/
def lineEvent (s : State) : State := postEvent s 0 0x0040 (leBytes 4 (wordAt s (pgFife + 0x044)).toNat)

/-- The receiver is in HUNT: frame boundaries, the receive count and a message under way are forgotten. -/
def toHunt (s : State) : State :=
  let was := lineState s
  let s := modLine (setF s pgFife FIFE_STATUS_LINE 1) (fun l =>
    { l with confirm := 0, acquire := 0, marks := [], bad := 0, rx := none, hubPhase := none, high := none })
  if was = 4 then allPathsDown s else s

/-- A hunt begins (R249). -/
def huntStart (s : State) : State := modLine (toHunt s) (fun l => { l with huntSince := s.ticks, downSince := none })

/-- Lock is lost (Table 9.9): also when 15 repeats without an ACK force the receiver into HUNT (R251). -/
def lockLost (s : State) : State :=
  let s := addF (flagF s pgFife FIFE_STATUS_LOCK_LOST) pgFife FIFE_COUNT_LOCK_LOSSES 1
  lineEvent (huntStart (errUnit s HDR_ERR_SUMMARY_FIFE pgFife))

/-- Count a bad frame. -/
def badFrame (s : State) : State := errUnit (addF s pgFife FIFE_COUNT_BAD_FRAMES 1) HDR_ERR_SUMMARY_FIFE pgFife

/-- FC of a marker: the f, a multiple of 64, whose keystream the PAYLOAD equals. -/
def markerFc (w : Nat) : Option Nat :=
  let f := bits (linePayload w) 38 23 ^^^ 0xA5A5
  if f % 64 = 0 ∧ linePayload w = keystream f then some f else none

/-- A frame in HUNT, CONFIRM or ACQUIRE (Table 9.9). -/
def acquireFrame (s : State) (w : Nat) : State :=
  let ok := syncOk w
  match lineState s with
  | 1 => if ok then modLine (setF s pgFife FIFE_STATUS_LINE 2) (fun l => { l with confirm := 1 }) else s
  | 2 =>
    if !ok then toHunt (badFrame s)
    else if 8 ≤ s.line.confirm + 1 then
      modLine (setF s pgFife FIFE_STATUS_LINE 3) (fun l => { l with confirm := 0, acquire := 0, marks := [] })
    else modLine s (fun l => { l with confirm := l.confirm + 1 })
  | 3 =>
    if !ok then toHunt (badFrame s)
    else
      let l := s.line
      match markerFc w with
      | some f =>
        if l.marks.any (fun q => decide (q.1 + 64 = l.acquire) && decide ((q.2 + 64) % 65536 = f)) then
          modLine (setF s pgFife FIFE_STATUS_LINE 4) (fun l =>
            { l with acquire := 0, marks := [], rxFc := (f + 1) % 65536, bad := 0, rx := none, hubPhase := none, high := none,
                     downSince := none })
        else if 130 ≤ l.acquire + 1 then toHunt s
        else modLine s (fun l => { l with acquire := l.acquire + 1, marks := l.marks ++ [(l.acquire, f)] })
      | none => if 130 ≤ l.acquire + 1 then toHunt s else modLine s (fun l => { l with acquire := l.acquire + 1 })
  | _ => s

/-- HUNT_EXPIRY: the hunt's 50 ms are over without lock (R249). -/
def huntExpiry (s : State) : State :=
  if 1 ≤ lineState s ∧ lineState s ≤ 3 then
    let s := advanceTo s (s.line.huntSince + 40000000)
    let s := setF (toHunt s) pgFife FIFE_STATUS_LINE 5
    allPathsDown (lineEvent (modLine s (fun l => { l with downSince := some s.ticks })))
  else s

/-- HUNT_RETRY: a second after FIFE_DOWN was entered (R249). -/
def huntRetry (s : State) : State :=
  match s.line.downSince with
  | some t => if lineState s = 5 then huntStart (advanceTo s (t + 800000000)) else s
  | none => s

/-! ### Messages (R251) -/

/-- The function whose collectives use a Fife slot on the line, with the slot's offset. -/
def slotFn (s : State) (slot : Nat) : Option (Nat × Nat) :=
  (((List.range 64).filter (fun n => isBusyFn s n && decide (forceF s n FN_FIFE_CTRL_PATH = 0))).filterMap (fun n =>
    (slotOff s n slot).map (fun off => (n, off)))).head?

/-- Queue an ACK with STATUS OK. -/
def lineAck (s : State) (slot seq : Nat) : State := lineQueue s 4 slot seq [0x4 * 2 ^ 36 + slot * 2 ^ 28 + seq * 2 ^ 20]

/-- Frames that follow a RESULT: C, the limbs of the layout, and the residues. -/
def resultFrames (layout : Nat) : Nat :=
  let es := (layoutElems layout).getD []
  2 + es.foldl (fun a e => a + e.2) 0 + b2n (es.any (fun e => decide (e.1 = .sum)))

/-- A whole RESULT (R227, R240, R251): it acknowledges this die's OPEN, and is acknowledged. FINAL closes the collective
here; the chassis result of a wider scope is the relay's part of the relay tree. -/
def lineResult (s : State) (head : Nat) (got : List Nat) : State :=
  let slot := pSlot head
  let seq := pSeq head
  let status := pStatus head
  let s := lineAck s slot seq
  let s := { s with lineOut := s.lineOut.filter (fun m => !(decide (m.kind = 1) && decide (m.slot = slot) && decide (m.seq = seq))) }
  match slotFn s slot with
  | none => s
  | some (n, off) =>
    let c := collAt (fnSt s n) off
    if c.seq ≠ seq ∨ c.opened = false ∨ c.line = false then s
    else
      let es := (layoutElems c.layout).getD []
      let limbs := ((got.drop 2).take (es.foldl (fun a e => a + e.2) 0)).map pData
      let vals := limbsVals es limbs
      let res := (got.drop (2 + limbs.length)).head?.getD 0
      let good := decide (residues es vals = [bits res 7 0, bits res 15 8].take (residues es vals).length)
      let cval := pData (got.getD 0 0) + pData (got.getD 1 0) * 2 ^ 32
      if bit head 15 ∨ ¬(status = 0 ∨ status = 3) then todo s (.collDone n off status cval vals)
      else
        let s := if c.delivered then s else todo (setColl s n off { c with delivered := true }) (.delivered n off)
        let c := collAt (fnSt s n) off
        match myIndex s c.nodes, c.tree with
        | some _, none =>
          let k := (c.parts.filter (fun e => decide (chassisOf e = chassisOf (selfDie s)))).length
          collCombine (setColl s n off { c with tree := some (vals, k), treeGood := good && decide (status = 0) }) n off
        | _, _ => s

/-- An ACK from the hub: of the RELAY that waits for it, or else of this die's OPEN (R234). -/
def lineAcked (s : State) (p : Nat) : State :=
  let mine := fun (k : Nat) (m : LineMsg) => decide (m.kind = k) && decide (m.slot = pSlot p) && decide (m.seq = pSeq p) &&
    decide (m.frames.length ≤ m.next)
  if s.lineOut.any (mine 6) then { s with lineOut := s.lineOut.filter (fun m => !mine 6 m) }
  else if s.lineOut.any (mine 1) then
    let s := { s with lineOut := s.lineOut.filter (fun m => !mine 1 m) }
    match slotFn s (pSlot p) with
    | some (n, off) => recvAck s n off (pSeq p) (pStatus p)
    | none => s
  else s

/-- MESSAGE_REPEAT: the first message to fall due without an ACK is sent again; after 15 repeats the receiver is forced into
HUNT. -/
def messageRepeat (s : State) : State :=
  let wait := s.lineOut.filterMap (fun m => m.due.map (fun d => (d, m)))
  match wait.foldl (fun a q => match a with | some b => if q.1 < b.1 then some q else a | none => some q) (none : Option (Nat × LineMsg)) with
  | none => s
  | some (d, m) =>
    let s := advanceTo s d
    if 15 ≤ m.repeats then
      let s := { s with lineOut := s.lineOut.erase m }
      if lineState s = 4 then lockLost s else huntStart s
    else
      { addF s pgFife FIFE_COUNT_REPEATS 1 with
        lineOut := s.lineOut.map (fun q => if q = m then { m with next := 0, due := none, repeats := m.repeats + 1 } else q) }

/-! ### What single frames do -/

/-- The hub's PHASE frame (Table 9.11). -/
def linePhaseFrame (s : State) (ph : Nat) : State :=
  let s := modLine s (fun l => { l with hubPhase := some ph })
  let cur := linePhase s
  let set := fun (s : State) (p : Nat) => setF s pgFife FIFE_STATUS_PHASE p
  let toLaunch := fun (s : State) => if s.pfail then holdWanted (set s 0) else set s 0
  if cur = 0 then
    (if ph = 1 then set s 1
     else if ph = 3 ∧ getF s pgFife FIFE_CTRL_TEST_ENABLE = 1 then modLine (set s 3) (fun l => { l with pattern := none })
     else s)
  else if cur = 1 then
    (if ph = 0 ∧ (List.range 64).all (fun n => decide (stateOf s n ≠ 2 ∨ n = 0) && decide (stateOf s n ≠ 3)) = true then
      toLaunch (allPathsDown s) else s)
  else if cur = 2 then
    (match s.hold with
     | some h => if h.ended ∧ s.pfail = false ∧ ph ≤ 1 then leaveHold s ph else s
     | none => s)
  else if ph = 0 then toLaunch s else s

/-- An echo response during a launch (R253): after the 16th echo the shortest round trip stands, and before it the next
echo is requested. -/
def echoResponse (s : State) (id : Nat) : State :=
  match s.line.launch with
  | none => s
  | some q =>
    match q.leftAt with
    | none => s
    | some t =>
      if q.echo ≠ id ∨ 16 ≤ q.echo then s
      else
        let rtt := s.ticks - t
        let q := { q with best := some (match q.best with | some b => min b rtt | none => rtt), echo := q.echo + 1, leftAt := none }
        modLine s (fun l => { l with launch := some q,
                                     single := if q.echo < 16 then l.single ++ [0xA * 2 ^ 36 + q.echo] else l.single })

/-- Half of a BEACON pair: the LOW frame that follows a HIGH frame loads the counter once the echoes are done, 4 ticks
after its first bit (R174, R253). -/
def beaconFrame (s : State) (sub v : Nat) : State :=
  if sub = 0 then modLine s (fun l => { l with high := some v })
  else if sub ≠ 1 then s
  else
    let high := s.line.high
    let s := modLine s (fun l => { l with high := none })
    match high, s.line.launch with
    | some h, some q =>
      match q.best with
      | some b =>
        if q.echo < 16 then s
        else
          let d := (b - 128 + 1) / 2
          let s := advance s 4
          let s := setF { s with counter := (h * 2 ^ 32 + v + d + 4) % 2 ^ 64 } pgWheel WHEEL_STATUS_COUNTER_STATE 2
          modLine (setF s pgWheel WHEEL_STATUS_LINE_DELAY (min d 255)) (fun l => { l with launch := none, delay := d })
      | none => s
    | _, _ => s

/-- A HEARTBEAT compared with the counter (R254). -/
def heartbeatFrame (s : State) (v : Nat) : State :=
  let d := signed 32 (unsigned 32 ((s.counter : Int) + 4 - (s.line.delay + 4 : Nat) - (v : Int)))
  let shown := if d < -127 then -127 else if 127 < d then 127 else d
  let s := setF s pgFife FIFE_STATUS_DRIFT (unsigned 8 shown)
  let limit := getF s pgFife FIFE_CTRL_DRIFT_LIMIT
  if limit ≠ 0 ∧ limit < d.natAbs then
    let fresh := decide (getF s pgFife FIFE_STATUS_DRIFT_ALARM = 0)
    let s := errUnit (flagF s pgFife FIFE_STATUS_DRIFT_ALARM) HDR_ERR_SUMMARY_FIFE pgFife
    if fresh then postEvent s 0 0x0041 (leBytes 4 (unsigned 32 d)) else s
  else s

/-- A BUGLE frame: every function on the line with its SLOT_BASE and KEY (R238, Table 9.10). -/
def bugleFrame (s : State) (p : Nat) : State :=
  ((List.range 64).filter (fun n => isBusyFn s n && decide (forceF s n FN_FIFE_CTRL_PATH = 0) &&
      decide (slotNo s n 0 = pSlot p) && decide (keyOf (fnSt s n) = bits p 27 23))).foldl
    (fun s n => bugleRecv s n (bits p 22 16) (bits p 15 0) none true) s

/-- A TEST frame (R256). -/
def testFrame (s : State) (sub v : Nat) : State :=
  let answer := fun (s : State) (d : Nat) => modLine s (fun l => { l with single := l.single ++ [0xF * 2 ^ 36 + sub * 2 ^ 32 + d] })
  if sub = 0 then answer s v
  else if sub = 1 then
    let s' := modLine s (fun l => { l with pattern := some v })
    match s.line.pattern with
    | some b => if (b + 1) % 2 ^ 32 = v then s' else addF s' pgFife FIFE_TEST_ERRORS 1
    | none => s'
  else if sub = 2 then setF (answer s (getF s pgFife FIFE_SCAN_SCAN)) pgFife FIFE_SCAN_SCAN v
  else s

/-- Act on one good frame outside a message (R250, R252 to R256). A frame not valid in the phase or direction is ignored. -/
def actFrame (s : State) (fails : List Nat) (p : Nat) : State :=
  let ph := linePhase s
  match pKind p with
  | 0x4 => if ph = 1 then lineAcked s p else s
  | 0x5 =>
    if ph ≠ 1 then s
    else modLine s (fun l => { l with rx := some ⟨p, []⟩ })
  | 0x7 => if ph = 1 ∨ ph = 2 then bugleFrame s p else s
  | 0x8 => if ph = 1 then heartbeatFrame s (pData p) else s
  | 0x9 => linePhaseFrame s (bits p 35 34)
  | 0xB => if ph = 0 then echoResponse s (bits p 7 0) else s
  | 0xC => if ph = 0 then beaconFrame s (pSub p) (pData p) else s
  | 0xD =>
    if ph = 3 then s
    else if pSub p = 1 then holdWanted (modHold s (fun h => { h with cancel := false }))
    else if pSub p = 2 then cancelCheck (modHold s (fun h => { h with cancel := !h.ended })) fails
    else s
  | 0xF => if ph = 3 then testFrame s (pSub p) (pData p) else s
  | _ => s

/-- A good frame in LOCKED: the next frame of the message under way, or a frame of its own. A free frame that is no part of
the message ends it. -/
def lockedFrame (s : State) (fails : List Nat) (fc p : Nat) : State :=
  let s := if pKind p = 0xC ∨ reservedFc fc = true then s else modLine s (fun l => { l with high := none })
  match s.line.rx with
  | none => actFrame s fails p
  | some m =>
    if reservedFc fc ∨ pKind p = 7 then actFrame s fails p
    else if pKind p = 2 ∨ pKind p = 3 then
      let got := m.got ++ [p]
      let total := match slotFn s (pSlot m.head) with
        | some (n, off) => resultFrames (collAt (fnSt s n) off).layout
        | none => 2
      if total ≤ got.length then lineResult (modLine s (fun l => { l with rx := none })) m.head got
      else modLine s (fun l => { l with rx := some { m with got := got } })
    else actFrame (modLine s (fun l => { l with rx := none })) fails p

/-- FRAME: a 64-bit line frame is received (R248). -/
def recvFrame (s : State) (fails : List Nat) (w : Nat) : State :=
  if lineState s ≠ 4 then acquireFrame s w
  else
    let fc := s.line.rxFc
    let p := linePayload w ^^^ keystream fc
    let s := modLine s (fun l => { l with rxFc := (fc + 1) % 65536 })
    if syncOk w && reservedOk s.line.hubPhase fc p && zeroOk p then
      lockedFrame (modLine s (fun l => { l with bad := 0 })) fails fc p
    else
      let s := badFrame (modLine s (fun l => { l with bad := l.bad + 1, rx := none, high := none }))
      if 4 ≤ s.line.bad then lockLost s else s

/-- The plaintext of a frame that would be received now, in LOCKED. -/
def plainNow (s : State) (w : Nat) : Option Nat :=
  if lineState s = 4 ∧ syncOk w = true then some (linePayload w ^^^ keystream s.line.rxFc) else none

/-- A row that names the kind of the frame: the frame is received when it is of the kind and sub-kind. -/
def recvNamed (s : State) (fails : List Nat) (w kind : Nat) (sub : Option Nat) : State :=
  match plainNow s w with
  | some p => if pKind p = kind ∧ (sub = none ∨ sub = some (pSub p)) then recvFrame s fails w else s
  | none => s

/-! ### The transmitter -/

/-- What a free position carries, and the line's queues after it: BUGLE, the message in progress, an ACK, a single frame,
the latest Bellows stage again, the next message, or IDLE. -/
def freeFrame (s : State) (t : Nat) : State × Nat :=
  let run := decide (linePhase s = 1)
  let step := fun (m : LineMsg) =>
    let m' := { m with next := m.next + 1 }
    let keep := if m'.next < m.frames.length then [m']
      else if m.kind = 1 ∨ m.kind = 6 then [{ m' with due := some (t + 8 + 512) }] else []
    ({ s with lineOut := (s.lineOut.map (fun q => if q = m then keep else [q])).flatten }, m.frames.getD m.next 0)
  let first := fun (f : LineMsg → Bool) => s.lineOut.find? f
  match first (fun m => decide (m.kind = 7)) with
  | some m => ({ s with lineOut := s.lineOut.erase m }, m.frames.getD 0 0)
  | none =>
    match (if run then first (fun m => decide (0 < m.next) && decide (m.next < m.frames.length)) else none) with
    | some m => step m
    | none =>
      match (if run then first (fun m => decide (m.kind = 4)) else none) with
      | some m => step m
      | none =>
        match s.line.single with
        | p :: rest =>
          let s := modLine s (fun l => { l with single := rest })
          let s := if pKind p = 0xA then
              modLine s (fun l => { l with launch := l.launch.map (fun q => { q with leftAt := some t }) }) else s
          (s, p)
        | [] =>
          match s.hold with
          | some h =>
            if s.line.bellIn = 0 ∧ h.stage ≠ 0 ∧ h.ended = false ∧ linePhase s = 2 then
              (modLine s (fun l => { l with bellIn := 64 }), 0xE * 2 ^ 36 + h.stage * 2 ^ 32)
            else (s, 0)
          | none =>
            match (if run then first (fun m => decide (m.next = 0)) else none) with
            | some m => step m
            | none => (s, 0)

/-- FRAME_TRANSMIT: at the next frame boundary the transmitter sends its next frame and FC advances (R245, R247). -/
def frameTransmit (s : State) : State :=
  let t := if s.ticks ≤ s.line.txAt then s.line.txAt else roundUp s.ticks 8
  let s := advanceTo s t
  let fc := s.line.txFc
  let ph := linePhase s
  let s := modLine s (fun l => { l with bellIn := l.bellIn - 1 })
  let (s, p) :=
    if fc % 64 = 0 then (s, 0)
    else if fc % 64 = 1 then (s, 0x9 * 2 ^ 36 + ph * 2 ^ 34)
    else if fc % 1024 = 32 then (s, if ph = 1 then 0x8 * 2 ^ 36 + s.counter % 2 ^ 32 else 0)
    else freeFrame s t
  modLine s (fun l => { l with txFc := (fc + 1) % 65536, txAt := t + 8, sent := l.sent ++ [lineFrame fc p] })

/-! ### The counter's rows (R171 to R178) -/

/-- LAUNCH: ignored unless no function is STARTING, RUNNING or DRAINING, no launch runs, and the line is LOCKED in LAUNCH
(R174). -/
def launch (s : State) : State :=
  let cs := getF s pgWheel WHEEL_STATUS_COUNTER_STATE
  if anyBusy s ∨ cs = 1 ∨ lineState s ≠ 4 ∨ linePhase s ≠ 0 then s
  else
    modLine (setF s pgWheel WHEEL_STATUS_COUNTER_STATE 1) (fun l =>
      { l with launch := some ⟨s.ticks, cs, 0, none, none⟩, single := l.single ++ [0xA * 2 ^ 36] })

/-- LAUNCH_TIMEOUT: no beacon within 100 ms of the LAUNCH write (R174). -/
def launchTimeout (s : State) : State :=
  match s.line.launch with
  | none => s
  | some q =>
    let s := advanceTo s (q.since + 80000000)
    let s := setF (flagF s pgWheel WHEEL_STATUS_LAUNCH_FAIL) pgWheel WHEEL_STATUS_COUNTER_STATE q.before
    modLine s (fun l => { l with launch := none, single := l.single.filter (fun p => decide (pKind p ≠ 0xA)) })

/-- SET: the counter takes COUNTER_SET at the next tick; a launch under way is over (R175). -/
def counterSet (s : State) : State :=
  if anyBusy s then s
  else
    let v := pair (wordAt s (pgWheel + WHEEL_COUNTER_SET_LO_SET_LO.off)) (wordAt s (pgWheel + WHEEL_COUNTER_SET_HI_SET_HI.off))
    let s := setF { advance s 1 with counter := v } pgWheel WHEEL_STATUS_COUNTER_STATE 3
    modLine s (fun l => { l with launch := none, single := l.single.filter (fun p => decide (pKind p ≠ 0xA)) })

/-- LEN_LOG2: ignored with LOCK_VIOLATION while a function is RUNNING or DRAINING; other values than 8 to 12 are ignored
(R196, Table 7.8). -/
def setLen (s : State) (v : Nat) : State :=
  if (List.range 64).any (fun n => decide (n ≠ 0) && decide (stateOf s n = 2 ∨ stateOf s n = 3)) then
    lockViolation s (pgWheel + WHEEL_CTRL_LEN_LOG2.off)
  else if 8 ≤ v ∧ v ≤ 12 then setF s pgWheel WHEEL_CTRL_LEN_LOG2 v
  else s

/-- ADJ: a signed value is added to PENDING, which saturates at 32,767 either way (R176). -/
def counterAdj (s : State) (v : Nat) : State :=
  let q := signed 16 (getF s pgWheel WHEEL_COUNTER_ADJ_PENDING) + signed 16 v
  let q := if q < -32767 then -32767 else if 32767 < q then 32767 else q
  setF s pgWheel WHEEL_COUNTER_ADJ_PENDING (unsigned 16 q)

/-- COUNTER_CORRECTION: in the next guard slot, at its first tick, at most LEN / 256 ticks of PENDING are applied (R173,
R176). -/
def counterCorrection (s : State) : State :=
  let q := signed 16 (getF s pgWheel WHEEL_COUNTER_ADJ_PENDING)
  if q = 0 then s
  else
    let turn := wheelLen s * 32
    let g := s.counter / turn * turn + (turn - 32)
    let g := if s.counter ≤ g then g else g + turn
    let s := advance s (g - s.counter)
    let most := wheelLen s / 256
    let a := min q.natAbs most
    let fwd := decide (0 < q)
    let s := if fwd then { advance s 1 with counter := g + 1 + a } else advance { s with ticks := s.ticks + a } 1
    let done_ : Int := if fwd then a else -(a : Int)
    let s := setF s pgWheel WHEEL_COUNTER_ADJ_PENDING (unsigned 16 (q - done_))
    ((List.range 64).filter (fun n => decide (n ≠ 0) && decide (stateOf s n = 2))).foldl
      (fun s n => slip s n 0x11 0xFF 0xFF 0xFF (unsigned 32 done_)) s

/-! ### Monitors of the wheel chapter -/

/-- OCCUPANCY_WINDOW: a window of 2^20 ticks ends; the busy percent of each slice's 4 deep-tier and 8 near-tier channels is
reported, and a channel above HOT_PCT is hot (R192). -/
def occupancyWindow (s : State) (deep near : List (List Nat)) : State :=
  let s := advanceTo s ((s.mon.windows + 1) * 2 ^ 20)
  let s := { s with mon := { s.mon with windows := s.mon.windows + 1 } }
  let hot := getF s pgWheel WHEEL_CTRL_HOT_PCT
  (List.range 16).foldl (fun s sl =>
    let d := fun c => (((deep.getD sl []).getD c 0) : Nat) % 256
    let nr := fun c => (((near.getD sl []).getD c 0) : Nat) % 256
    let s := setF s (pgSlice sl) SL_OCCUPANCY_CH0 (d 0)
    let s := setF s (pgSlice sl) SL_OCCUPANCY_CH1 (d 1)
    let s := setF s (pgSlice sl) SL_OCCUPANCY_CH2 (d 2)
    let s := setF s (pgSlice sl) SL_OCCUPANCY_CH3 (d 3)
    let mark := fun (s : State) (f : Fld) (kind c v : Nat) =>
      if hot < v then
        postEvent (setF s (pgSlice sl) f (putBit (getF s (pgSlice sl) f) c true)) 0 0x0023
          (leBytes 1 sl ++ leBytes 1 kind ++ leBytes 1 c ++ leBytes 1 v)
      else s
    let s := (List.range 4).foldl (fun s c => mark s SL_HOT_DEEP 0 c (d c)) s
    (List.range 8).foldl (fun s c => mark s SL_HOT_NEAR 1 c (nr c)) s) s

/-- The refresh rate the die's images are scheduled for: the lowest compiled rate among those of running functions, 1× with
none (R178). -/
def scheduledRate (s : State) : Nat :=
  let rs := ((List.range 64).filter (fun n => decide (n ≠ 0) && decide (stateOf s n = 2 ∨ stateOf s n = 3))).filterMap
    (fun n => (fnSt s n).wheel.map (fun w => w.refresh))
  match rs with
  | [] => 1
  | r :: rest => rest.foldl min r

/-- Code of a rate in REFRESH_REQ and REFRESH_SCHED. -/
def rateCode (r : Nat) : Nat := if r = 4 then 2 else if r = 2 then 1 else 0

/-- The required rate of a slice's controller pair. -/
def requiredRate (s : State) (sl : Nat) : Nat := max 1 (tabGet 0 s.mon.rates sl)

/-- Show the refresh rates. -/
def showRates (s : State) : State :=
  let req := ((List.range 16).map (requiredRate s)).foldl max 1
  setF (setF s pgWheel WHEEL_STATUS_REFRESH_REQ (rateCode req)) pgWheel WHEEL_STATUS_REFRESH_SCHED (rateCode (scheduledRate s))

/-- REFRESH_INDICATION: a slice's packages report a required rate of 1, 2 or 4. A controller pair that starts inserting
refreshes beyond the scheduled rate, or stops, writes REFRESH_DERATE to the functions that run (R178, R194). -/
def refreshIndication (s : State) (sl rate : Nat) : State :=
  let r := if rate = 2 ∨ rate = 4 then rate else 1
  let sched := scheduledRate s
  let old := requiredRate s sl
  let s := showRates { s with mon := { s.mon with rates := tabSet 0 s.mon.rates sl (if r = 1 then 0 else r) } }
  let detail := if sched < r ∧ (old ≤ sched ∨ old ≠ r) then some r else if sched < old ∧ r ≤ sched then some 1 else none
  match detail with
  | none => s
  | some d => ((List.range 64).filter (fun n => decide (n ≠ 0) && decide (stateOf s n = 2))).foldl
      (fun s n => slip s n 0x0A sl 0xFF (fnSt s n).sched d) s

end Sys2Proof.Machine
end

