-- ==== Sys2Proof/Machine/Reshard.lean ====
section
/-!
DEFINITION. Permutes and re-sharding in place (R235, R236, R288 to R291): the counts-first exchange, the puts, the switch
of manifest and wheel image, the free phase, and what an abandoned re-shard leaves.
-/

namespace Sys2Proof.Machine

/-- Change a function's plan. -/
def modPlan (s : State) (n : Nat) (f : Plan → Plan) : State := modFn s n (fun x => { x with plan := x.plan.map f })

/-- Show an active manifest in the function's registers (Tables 1.10, 2.10). -/
def showManifest (s : State) (n : Nat) : State :=
  let x := fnSt s n
  match x.manifest with
  | none => s
  | some m =>
    let s := setFnF (setFnF s n FN_STATE_STATUS_MANIFEST_VALID 1) n FN_STATE_STATUS_D m.d
    let s := setFnF (setFnF s n FN_STATE_STATUS_WC_DOUBLE (b2n (decide (1 ≤ m.d)))) n FN_STATE_STATUS_STATE_PAGES (rangeBytes m / pageBytes)
    match grpOf x with
    | none => s
    | some g =>
      let s := setFnF (setFnF s n FN_CODE_GEOM_GROUP g.group) n FN_CODE_GEOM_K g.k
      setFnF (setFnF (setFnF s n FN_CODE_GEOM_R g.r) n FN_CODE_GEOM_CHASSIS_SPREAD (g.flags % 2)) n FN_CODE_GEOM_VALID (b2n (decide (x.role = 1)))

/-- Rows of this die's member that the plan puts, with the sending participant, and those that it frees. -/
def planPuts (x : FnSt) (g : GroupEntry) (p : Plan) : List (Nat × Nat) :=
  (p.moves.filter (fun mv => decide (mv.toP = p.me))).map (fun mv => (dataRow g.k g.n x.self mv.newSlot, mv.fromP))
def planFrees (x : FnSt) (m : Manifest) (g : GroupEntry) (p : Plan) : List Nat :=
  (p.moves.filter (fun mv => decide (mv.fromP = p.me))).filterMap (fun mv => moveRow x m g p mv x.self true)

/-- A contribution of a re-shard: a load-pass image of one slot of this die's member (R290). -/
def planLoad (s : State) (n row stamp : Nat) (image : List Byte) : State :=
  let x := fnSt s n
  match grpOf x with
  | none => s
  | some g =>
    let w : Wait := ⟨.load, n, rowSlice x row, 0, 0, 0, row, x.self, stamp, x.epoch, x.route.number % 2, false, false, 0,
      cellsOf 0 image, holdersOf x g row⟩
    let s := sendWait { s with waits := s.waits ++ [w] } w 1
    if w.holders.isEmpty then todo s (.startCheck n) else s

/-- The opening permute barrier is entered at the step seal of `sealed` (R290, R236). -/
def reshardBegin (s : State) (n sealed : Nat) : State :=
  match (fnSt s n).plan with
  | none => s
  | some p =>
    let x := fnSt s n
    let ents := p.parts.map (fun d => dieBits d + fnAtDie x (dieBits d) * 64 + 1)
    let q : Plan := { p with phase := 1, sealed := sealed }
    let s := modFn s n (fun x => { x with permuteSet := ents, plan := some q })
    collOpen s n 6 0 []

/-- Number of slots that this die sends to participant `j`. -/
def putCount (p : Plan) (j : Nat) : Nat := (p.moves.filter (fun mv => decide (mv.fromP = p.me) && decide (mv.toP = j))).length

/-- Send this die's COUNTS report, or a request, to a participant. -/
def countsTo (s : State) (n : Nat) (p : Plan) (j : Nat) (request : Bool) : State :=
  let x := fnSt s n
  let d := dieBits (p.parts.getD j 0)
  sendFife s n (d + fnAtDie x d * 64) (fifeForm 0x10 (slotNo s n 6) (collAt x 6).seq 0 (b2n request) 0 0
    (if request then 0 else putCount p j)) []

/-- COUNTS_SEND: at counter value S + 128 × ((j − i) mod n) (R235). -/
def countsSend (s : State) (n j : Nat) : State :=
  match (fnSt s n).plan with
  | none => s
  | some p =>
    let k := p.parts.length
    if p.phase ≠ 2 ∨ j = p.me ∨ k ≤ j ∨ p.told.contains j then s
    else
      let at_ := p.start + 128 * ((j + k - p.me) % k)
      let s := advance s (at_ - s.counter)
      countsTo (modPlan s n (fun p => { p with told := p.told ++ [j] })) n p j false

/-- Every other participant's count is held. -/
def hasCounts (p : Plan) : Bool := (List.range p.parts.length).all (fun j => decide (j = p.me) || p.counts.any (fun c => decide (c.1 = j)))

/-- The participant that a die is. -/
def partOf (p : Plan) (die : Nat) : Option Nat := p.parts.findIdx? (fun d => decide (dieBits d = die))

/-- Once it has its counts a participant sends its own slots as LEAF_PUT in TC4 (R236). -/
def sendPuts (s : State) (n : Nat) : State :=
  let x := fnSt s n
  match x.plan, x.manifest, grpOf x with
  | some p, some m, some g =>
    if p.phase ≠ 2 ∨ p.sentPuts ∨ !hasCounts p then s else
    let s := modPlan s n (fun p => { p with sentPuts := true })
    (p.moves.filter (fun mv => decide (mv.fromP = p.me))).foldl (fun s mv =>
      match moveRow x m g p mv x.self true with
      | none => s
      | some j =>
        let slot := heldSlot s n x.self 0 0 j
        let d := dieBits (p.parts.getD mv.toP 0)
        let place := m.groups.findSome? (fun q => ((List.range q.n).find? (fun i =>
          decide ((if q.group = x.group then (dieOfMember x i) else (match routeEntry x.route (q.routeBase + i) with
            | some e => dieBits e | none => 0)) = d))).map (fun i => dataRow q.k q.n i mv.newSlot))
        let w : Wait := ⟨.put, n, rowSlice x j, 4, 0, 0, place.getD 0, x.self, pmStamp slot, x.epoch, x.route.number % 2, false, true,
          s.ticks, cellsOf 0 slot, [⟨x.self, 0, d + fnAtDie x d * 64 + 1, false⟩]⟩
        w.holders.foldl (fun s h => sendTo s w 4 n h) { s with waits := s.waits ++ [w] }) s
  | _, _, _ => s

/-- The puts are over when every announced slot is written and every own slot is receipted: the closing barrier (R236). -/
def putsCheck (s : State) (n : Nat) : State :=
  let x := fnSt s n
  match x.plan, grpOf x with
  | some p, some g =>
    let due := (planPuts x g p).length
    if p.phase = 2 ∧ p.sentPuts = true ∧ due ≤ p.written.length ∧
        s.waits.all (fun w => !(decide (w.fn = n) && decide (w.kind = .put) && decide (w.core = 4))) then
      collOpen (modPlan s n (fun p => { p with phase := 3 })) n 6 0 []
    else s
  | _, _ => s

/-- A COUNTS packet (R235): a request is answered, a report is held. -/
def recvCounts (s : State) (p : Packet) : State :=
  let n := hFn p
  let x := fnSt s n
  match x.plan with
  | none => s
  | some q =>
    match (if headerOk' p ∧ hType p = 0x10 ∧ fKind p = 0x10 then partOf q (dieBits (hSrc p)) else none) with
    | none => s
    | some j =>
      if fCount p = 1 then (if 2 ≤ q.phase ∧ q.phase ≤ 3 then countsTo s n q j false else s)
      else if q.counts.any (fun c => decide (c.1 = j)) then s
      else putsCheck (sendPuts (modPlan s n (fun q => { q with counts := q.counts ++ [(j, fValue p)] })) n) n

/-- COUNTS_TIMEOUT: at S + 128·n + 80,000 ticks a participant asks for the counts it lacks (R235). -/
def countsTimeout (s : State) (n : Nat) : State :=
  match (fnSt s n).plan with
  | none => s
  | some p =>
    if p.phase ≠ 2 ∨ hasCounts p then s
    else
      let s := advance s (p.start + 128 * p.parts.length + 80000 - s.counter)
      ((List.range p.parts.length).filter (fun j => decide (j ≠ p.me) && !p.counts.any (fun c => decide (c.1 = j)))).foldl
        (fun s j => countsTo s n p j true) s

/-- A LEAF_PUT in TC4 is armed: its row is one that the plan puts here from its sender, within the announced number
(R236). -/
def permuteArmed (s : State) (n : Nat) (p : Packet) : Bool :=
  let x := fnSt s n
  match x.plan, grpOf x with
  | some q, some g =>
    decide (hTc p = 4) && decide (q.phase = 2) && decide (hArea p = 0) && hasCounts q &&
      (match partOf q (dieBits (hSrc p)) with
       | some j => (planPuts x g q).contains (hRow p, j) && !q.written.contains (hRow p) &&
           decide ((q.rx.filter (fun t => decide (partOf q (dieBits t.src) = some j))).length <
             ((q.counts.find? (fun c => decide (c.1 = j))).map (fun c => c.2)).getD 0 +
               b2n (q.rx.any (fun t => decide (t.row = hRow p))))
       | none => false)
  | _, _ => false

/-- A slot put by a permute is complete: it is sent to the holders of its new row, its old image being zero (R290). -/
def permuteGot (s : State) (n : Nat) (t : PutStage) : State :=
  let x := fnSt s n
  match x.plan with
  | some q =>
    if q.rx.any (fun u => decide (u.row = t.row)) then s
    else
      let slot := memReadN t.image 0 65536
      planLoad (modPlan s n (fun q => { q with rx := q.rx ++ [t] })) n t.row (pmStamp slot) (dataImage slot)
  | none => s

/-- The slot of a moved leaf at its new place: new MEMBER, GROUP, ROW and GEOMETRY, digest and chain as they were. -/
def movedSlot (x : FnSt) (g : GroupEntry) (l : LeafRef) (row : Nat) (slot : List Byte) : List Byte :=
  mkLeaf g x.self row l ⟨pmFlags slot - pmFlags slot % 2, pmStamp slot, pmTouched slot, pmEpoch slot, pmChain slot, pmExt slot⟩ (slotBody slot)

/-- Write a moved leaf once every receipt is here, and send the LEAF_PUT's own WRITTEN receipt (R290). -/
def permuteWrite (s : State) (n : Nat) (t : PutStage) : State :=
  let x := fnSt s n
  match x.plan, grpOf x with
  | some q, some g =>
    let slot := memReadN t.image 0 65536
    let s := match leafAt q.manifest g x.self 0 t.row with
      | some l => heldWrite s n x.self 0 0 t.row (movedSlot x g l t.row slot)
      | none => s
    let s := sendReceipt s n t.src (sliceEndpoint (selfDie s) t.slice) (fnAtDie x (dieBits t.src)) t.row t.stamp
      (areaByte t.area t.gen false) x.self t.par 0 0
    modPlan s n (fun q => { q with written := q.written ++ [t.row], rx := q.rx.filter (fun u => decide (u ≠ t)) })
  | _, _ => s

/-- Send the free of a row: a load pass in which the old image is the leaf and the new image is zero (R290). -/
def sendFree (s : State) (n row : Nat) : State :=
  let slot := heldSlot s n (fnSt s n).self 0 0 row
  planLoad s n row (pmStamp slot) (dataImage slot)

/-- The re-shard is over: the plan goes, and intake opens (R290, order 4). -/
def reshardEnd (s : State) (n : Nat) : State :=
  let s := modFn s n (fun x => { x with plan := none, permuteSet := [] })
  if (fnSt s n).opened = false ∧ stateOf s n = 2 then openIntake s n 0 else todo s (.startCheck n)

/-- The rows that must still be freed get their load contributions (R290, R291). -/
def freesSend (s : State) (n : Nat) : State :=
  match (fnSt s n).plan with
  | some p => if p.toFree.isEmpty then reshardEnd s n else p.toFree.foldl (fun s j => sendFree s n j) s
  | none => s

/-- The put phase is abandoned: every slot written is freed again, and the active manifest stays in force (R291). -/
def reshardAbandon (s : State) (n : Nat) : State :=
  match (fnSt s n).plan with
  | none => s
  | some p =>
    if 4 ≤ p.phase then s else
    let s := { s with waits := s.waits.filter (fun w => !(decide (w.fn = n) && (decide (w.kind = .load) || (decide (w.kind = .put) && decide (w.core = 4))))),
                      puts := s.puts.filter (fun q => !(decide (q.fn = n) && decide (q.tc = 4))) }
    let q : Plan := { p with phase := 5, toFree := p.written, rx := [] }
    freesSend (modFn s n (fun x => { x with permuteSet := [], plan := some q })) n

/-- The receipts of a re-shard's contributions have arrived: write the moved leaf, or the free slot (R290). -/
def reshardCheck (s : State) (n : Nat) : State :=
  match (fnSt s n).plan with
  | none => s
  | some p =>
    let done := s.waits.filter (fun w => decide (w.fn = n) && decide (w.kind = .load) && w.sent && w.allDone)
    if p.phase ≤ 3 then
      -- a put phase that a Bugle or a change of the live set has cancelled is abandoned
      if p.phase ≠ 0 ∧ (fnSt s n).permuteSet = [] then reshardAbandon s n
      else
        let s := done.foldl (fun s w => match p.rx.find? (fun t => decide (t.row = w.row)) with
          | some t => permuteWrite (dropWait s w) n t
          | none => s) s
        putsCheck s n
    else
      let s := done.foldl (fun s w =>
        if p.toFree.contains w.row then
          modPlan (heldWrite (dropWait s w) n (fnSt s n).self 0 0 w.row freeSlot) n (fun p => { p with toFree := p.toFree.filter (fun j => decide (j ≠ w.row)) })
        else s) s
      match (fnSt s n).plan with
      | some p => if p.toFree.isEmpty then reshardEnd (if p.phase = 4 then bgComplete s n 0x15 0 p.moves.length else s) n else s
      | none => s

/-- The closing barrier: the new manifest and wheel image become active, and the moved slots are freed (R290). -/
def reshardSwitch (s : State) (n : Nat) : State :=
  let x := fnSt s n
  match x.plan, x.manifest, x.wheel, grpOf x with
  | some p, some m, some w, some g =>
    let frees := planFrees x m g p
    let q : Plan := { p with phase := 4, manifest := m, wheel := w, toFree := frees }
    let s := modFn s n (fun x => { x with manifest := some p.manifest, wheel := some p.wheel, permuteSet := [], plan := some q, anchor := true })
    let s := showManifest s n
    if frees = [] then reshardEnd (bgComplete s n 0x15 0 p.moves.length) n else freesSend s n
  | _, _, _, _ => s

/-- A permute barrier closed at C (R236). -/
def permuteClosed (s : State) (n c : Nat) : State :=
  match (fnSt s n).plan with
  | some p =>
    if p.phase = 1 then putsCheck (sendPuts (modPlan s n (fun p => { p with phase := 2, start := c })) n) n
    else if p.phase = 3 then reshardSwitch s n
    else s
  | none => s

/-- A restart completes the free phase of a re-shard interrupted after its switch, before intake opens (R291). -/
def reshardResume (s : State) (n : Nat) : State :=
  match (fnSt s n).plan with
  | some p =>
    if p.phase ≤ 3 then
      if p.written.isEmpty then modFn s n (fun x => { x with plan := none })
      else freesSend (modPlan s n (fun p => { p with phase := 5, toFree := p.written, rx := [] })) n
    else freesSend s n
  | none => s

/-! ### Parsing a plan (R288) -/

/-- The sections of a plan: participants, manifest, wheel image and moves, each 64-byte aligned. -/
def planSections (b : List Byte) : Nat × Nat × Nat × Nat × Nat :=
  let a0 := 64
  let a1 := roundUp (a0 + 4 * field b 6 2) 64
  let a2 := roundUp (a1 + field b 0xC 4) 64
  let a3 := roundUp (a2 + field b 0x10 4) 64
  (a0, a1, a2, a3, a3 + 16 * field b 8 4)

/-- The participants' dies. -/
def planParts (b : List Byte) : List Nat := (List.range (field b 6 2)).map (fun i => field b (64 + 4 * i) 4)

/-- A move entry. -/
def parseMove (e : List Byte) : ReMove := ⟨field e 0 4, field e 4 4, field e 8 1, field e 9 1, field e 0xC 4⟩

/-- The moves of a plan. -/
def planMoves (b : List Byte) : List ReMove :=
  (List.range (field b 8 4)).map (fun i => parseMove ((b.drop ((planSections b).2.2.2.1 + 16 * i)).take 16))

/-- The new manifest's and wheel image's bytes. -/
def planManifest (b : List Byte) : List Byte := (b.drop (planSections b).2.1).take (field b 0xC 4)
def planWheel (b : List Byte) : List Byte := (b.drop (planSections b).2.2.1).take (field b 0x10 4)

/-- The header of a plan and its digest hold (Table 10.9). -/
def planHeaderOk (b : List Byte) (old : Nat) : Bool :=
  decide (field b 0 4 = 0x1A5E5401) && decide (field b 4 2 = 1) && decide (2 ≤ field b 6 2) && decide (field b 6 2 ≤ 64) &&
    decide (field b 8 4 ≤ 2 ^ 24) && allZero ((b.drop 0x14).take 4) && allZero ((b.drop 0x28).take 16) &&
    decide (b.length = (planSections b).2.2.2.2) && decide (field b 0x38 8 = crc64 (setField b 0x38 8 0)) && decide (field b 0x18 8 = old)

/-- The member that a die holds in a group, by the record for the own group and the route map otherwise. -/
def memberAt (x : FnSt) (g : GroupEntry) (die : Nat) : Option Nat :=
  (List.range g.n).find? (fun i => decide ((if g.group = x.group then dieOfMember x i else (match routeEntry x.route (g.routeBase + i) with
    | some e => dieBits e | none => 0)) = die))

/-- The group and member of a die. -/
def placeOf (x : FnSt) (m : Manifest) (die : Nat) : Option (GroupEntry × Nat) :=
  m.groups.findSome? (fun g => (memberAt x g die).map (fun i => (g, i)))

/-- The leaves that a manifest binds to a member in the stripe area: tensor, index, whether a mask, and data slot. -/
def boundLeaves (m : Manifest) (g : GroupEntry) (mem : Nat) : List (Nat × Nat × Bool × Nat) :=
  (List.range m.stripeRows).filterMap (fun j => (leafAt m g mem 0 j).map (fun l =>
    (l.binding.tensor, l.index, decide (l.kind = .mask), dataSlot g.k g.n mem j)))

/-- The moves of R289: each names a leaf that the active manifest binds to FROM and the new one binds to TO at NEW_SLOT,
and together they account for every binding change. -/
def movesOk (x : FnSt) (old new : Manifest) (parts : List Nat) (mvs : List ReMove) : Bool :=
  let at_ := fun (m : Manifest) (i : Nat) => match (parts[i]?).bind (fun d => placeOf x m (dieBits d)) with
    | some (g, k) => boundLeaves m g k
    | none => []
  let ok := fun (mv : ReMove) => (at_ new mv.toP).any (fun l => decide (l.1 = mv.tensor) && decide (l.2.1 = mv.leaf) && decide (l.2.2.2 = mv.newSlot) &&
    (at_ old mv.fromP).any (fun o => decide (o.1 = mv.tensor) && decide (o.2.1 = mv.leaf) && decide (o.2.2.1 = l.2.2.1)))
  let changes := ((List.range parts.length).map (fun i =>
    ((at_ new i).filter (fun l => !(at_ old i).contains l)).map (fun l => (i, l.1, l.2.1, l.2.2.2)))).flatten
  let gone := ((List.range parts.length).map (fun i =>
    ((at_ old i).filter (fun l => !(at_ new i).contains l)).map (fun l => (i, l.1, l.2.1)))).flatten
  mvs.all ok && changes.all (fun c => mvs.any (fun mv => decide ((mv.toP, mv.tensor, mv.leaf, mv.newSlot) = c))) &&
    gone.all (fun c => mvs.any (fun mv => decide ((mv.fromP, mv.tensor, mv.leaf) = c)))

/-- The participants include every member of every group that holds a FROM or TO, in endpoint order, and this die. -/
def partsOk (s : State) (x : FnSt) (m : Manifest) (parts : List Nat) (mvs : List ReMove) : Bool :=
  let touched := (mvs.map (fun mv => [mv.fromP, mv.toP])).flatten.eraseDups
  parts.any (fun d => decide (dieBits d = selfDie s)) &&
  (List.range (parts.length - 1)).all (fun i => decide (dieBits (parts.getD i 0) < dieBits (parts.getD (i + 1) 0))) &&
  touched.all (fun i => match (parts[i]?).bind (fun d => placeOf x m (dieBits d)) with
    | some (g, _) => (List.range g.n).all (fun k => parts.any (fun d => decide (memberAt x g (dieBits d) = some k)))
    | none => false)

/-- The new manifest keeps what R289 lists. -/
def manifestKeeps (old new : Manifest) : Bool :=
  decide (new.jobId = old.jobId ∧ new.d = old.d ∧ new.startStep = old.startStep ∧ new.groups = old.groups ∧
    new.stripeRows = old.stripeRows ∧ new.gradRows = old.gradRows)

end Sys2Proof.Machine
end

