-- ==== Sys2Proof/Machine/Wheel.lean ====
section
/-!
DEFINITION. The slot wheel at work (R182 to R187): when an entry's action takes place, holds, turns, the sixteen actions of
Table 7.3, what begins a schedule, the ends and restarts of runs (R123, R139), stream reads (R132), window fills (R37, R38),
and work on absorbed rows (R278).
-/

namespace Sys2Proof.Machine

/-! ### Reaching an entry -/

/-- The entry that an action command names, when its schedule runs and the entry stands in the named turn. -/
def namedEntry (s : State) (k : ActAt) (code : Nat) : Option (WheelImage × WheelEntry) :=
  let x := fnSt s k.fn
  match x.wheel, x.manifest with
  | some w, some m => match (sliceEntries w k.slice)[k.entry]? with
    | some e =>
      if e.action = code ∧ x.sched = e.sched + 1 ∧ actsRunning s k.fn = true ∧ x.aborting = false ∧
          k.turn < scheduleTurns w e.sched (if e.sched = 0 then m.gradRows else m.stripeRows) ∧ (e.firstOnly = false ∨ k.turn = 0)
        then some (w, e) else none
    | none => none
  | _, _ => none

/-- TURN of LY_FNn_WHEEL_STATUS. -/
def showTurn (s : State) (n u : Nat) : State := setFnF s n FN_WHEEL_STATUS_TURN (min u 0xFFFFF)

/-- Let time pass until the counter reads `c`, if that is still to come. -/
def counterTo (s : State) (c : Nat) : State := advance s (c - s.counter)

/-- The next turn of the running schedule begins (R186). -/
def enterTurn (s : State) (n : Nat) : State :=
  let x := fnSt s n
  let at_ := nextTurnAt s x x.shift
  let s := counterTo s at_
  showTurn (modFn s n (fun x => { x with turn := x.turn + 1, turnAt := at_, shift := 0, spared := [] })) n (x.turn + 1)

/-- The core that executes an entry's work: once its core has failed its buddy, with one CORE_SPARE record per turn
(R141). -/
def spareCore (s : State) (n sl core : Nat) (code : Nat) : State × Nat :=
  let i := coreIx sl core
  if !coreFailed s i then (s, core)
  else
    let s := if (fnSt s n).spared.contains i then s
      else slip (modFn s n (fun x => { x with spared := x.spared ++ [i] })) n 0x0D sl core (if code ≤ 5 then 0 else 1) i
    (s, buddyOf i % 32)

/-- What a row action works on: its row in turn `u`, and the core of the entry, or for an action without one the core of the
row's RUN (pass) or READOUT (intake). -/
def actOn (w : WheelImage) (e : WheelEntry) (n u rows : Nat) (self : Nat) (imgs : RowSet) : Option ActOn :=
  match entryRow w e u rows with
  | none => none
  | some j =>
    let core := if actUsesCore e.action then e.core
      else match sameRows w e (if e.sched = 0 then actReadout else actRun) with | some f => f.core | none => 0
    some ⟨n, e.slice, core, self, j, imgs⟩

/-- Carry out the action of an entry at its slot (R183, R186). A holding function's position stands still, so only the entry
that holds goes on. -/
def act (s : State) (k : ActAt) (code : Nat) (imgs : RowSet) (cond : State → ActOn → Cond)
    (work : State → ActOn → WheelEntry → State) : State :=
  match namedEntry s k code with
  | none => s
  | some (w, e) =>
    let n := k.fn.val
    let rowsOf := fun (s : State) => match (fnSt s n).manifest with
      | some m => if e.sched = 0 then m.gradRows else m.stripeRows
      | none => 0
    match (fnSt s n).hold with
    | some h =>
      if h.slice = k.slice ∧ h.entry = some k.entry ∧ (fnSt s n).turn = k.turn then
        match actOn w e n k.turn (rowsOf s) (fnSt s n).self imgs with
        | none => s
        | some a =>
          let a := { a with core := (spareCore s n a.sl a.core code).2 }
          match cond s a with
          | .wait _ _ => s
          | .idle => holdEnd s n
          | .go => work (holdEnd s n) a e
      else s
    | none =>
      if k.turn ≠ (fnSt s n).turn ∧ k.turn ≠ (fnSt s n).turn + 1 then s else
      let s := if k.turn = (fnSt s n).turn then s else enterTurn s n
      let s := counterTo s (slotAt s (fnSt s n) e.slot)
      match (if actOnRow code then actOn w e n k.turn (rowsOf s) (fnSt s n).self imgs
             else some ⟨n, e.slice, e.core, (fnSt s n).self, e.item.toNat, imgs⟩) with
      | none => s
      | some a =>
        let q := spareCore s n a.sl a.core code
        let used := [actReadout, actGcommit, actPrelude, actLread, actRun, actEmit].contains code
        let a := { a with core := q.2 }
        match cond s a with
        | .idle => s
        | .wait c d => holdStart s n c d e.slice (if actUsesCore code then e.core else 0xFF) e.sched e.slot (some k.entry)
        | .go => work (if used then q.1 else s) a e

/-! ### The actions of the intake schedule -/

/-- READOUT. -/
def readoutAct (s : State) (k : ActAt) : State := act s k actReadout [] condReadout (fun s a _ => readoutWork s a)

/-- GCOMMIT. -/
def gcommitAct (s : State) (k : ActAt) : State := act s k actGcommit [] condGcommit (fun s a _ => gcommitWork s a)

/-- GWRITE. -/
def gwriteAct (s : State) (k : ActAt) : State := act s k actGwrite [] condGwrite (fun s a _ => gwriteWork s a)

/-- GSEND. -/
def gsendAct (s : State) (k : ActAt) : State := act s k actGsend [] condGsend (fun s a _ => gsendWork s a)

/-- GHOLD. -/
def gholdAct (s : State) (k : ActAt) : State :=
  act s k actGhold [] (fun s a => condHold s a 1) (fun s a _ => holdWork s a 1)

/-! ### The actions of the pass schedule -/

/-- PRELUDE: idle for a class whose program has no prelude. The core must be free (R183). -/
def preludeAct (s : State) (k : ActAt) : State :=
  act s k actPrelude []
    (fun s a => match ((fnSt s a.n).progs.bind (fun set => classProg set a.j)) with
      | some (_, p) => if p.preludeEntry = 0xFFFF then .idle
          else if !coreFree s a.ix then overrun actPrelude a.core else .go
      | none => .idle)
    (fun s a e => startPrelude s a.n a.ix a.j (32 * e.length) none)

/-- LREAD; `bad` says that the stream read of the leaf met an uncorrectable word. -/
def lreadAct (s : State) (k : ActAt) (bad : Bool) (imgs : RowSet) : State :=
  act s k actLread imgs condLread (fun s a _ => lreadWork s a bad)

/-- RUN. -/
def runAct (s : State) (k : ActAt) : State := act s k actRun [] condRun (fun s a e => runWork s a (32 * e.length))

/-- Serve the oldest stream read of a run (R132): the source's slots are decoded first where they read as erased. -/
def serveSrd (s : State) (i : Nat) (imgs : RowSet) : State :=
  match (coreSt s i).run with
  | none => s
  | some r => match r.srds with
    | [] => s
    | q :: rest =>
      let x := fnSt s r.fn
      let parts := match x.manifest with
        | some m => [rangePart m q.off, rangePart m (q.off + q.len - 1)]
        | none => []
      let k : ActOn := ⟨r.fn, i / 32, i % 32, x.self, 0, imgs⟩
      let s := parts.foldl (fun s p => match p with
        | .coded area gen row => k.settle s area gen row false
        | _ => s) s
      let c := coreSt s i
      setCore s i { c with sram := memWriteN c.sram q.dst (rangeRead s r.fn q.off q.len), run := some { r with srds := rest } }

/-- SRD_ACTION: slots of the stream unit within the row's run window. -/
def srdAct (s : State) (k : ActAt) (imgs : RowSet) : State :=
  act s k actSrd imgs
    (fun s a => match (coreSt s a.ix).run with
      | some r => if r.fn = a.n ∧ r.row = a.j ∧ r.prelude = false ∧ r.srds ≠ [] ∧ r.droppedAt = none then .go else .idle
      | none => .idle)
    (fun s a _ => serveSrd s a.ix a.rows)

/-- REG. -/
def regAct (s : State) (k : ActAt) : State := act s k actReg [] condReg (fun s a _ => regWork s a)

/-- SEND. -/
def sendAct (s : State) (k : ActAt) : State := act s k actSend [] condSend (fun s a _ => sendWork s a)

/-- LWRITE. -/
def lwriteAct (s : State) (k : ActAt) : State := act s k actLwrite [] condLwrite (fun s a _ => lwriteWork s a)

/-- EMIT. -/
def emitAct (s : State) (k : ActAt) : State := act s k actEmit [] condEmit (fun s a _ => emitWork s a)

/-- HOLD. -/
def holdAct (s : State) (k : ActAt) (imgs : RowSet) : State :=
  act s k actHold imgs (fun s a => condHold s a 0) (fun s a _ => holdWork s a 0)

/-! ### Window fills (R37, R38) -/

/-- Near-tier address of layer window `w` (0 A, 1 B), in 64 MiB units of LY_FNn_STATE_CFG. -/
def windowAt (s : State) (n w : Nat) : Nat :=
  (forceF s n FN_STATE_CFG_WINDOW_BASE + w * forceF s n FN_STATE_CFG_WINDOW_SIZE) * 67108864

/-- Seal objects of a window: fill and free. -/
def fillSeal (m : Manifest) (w : Nat) : Nat := m.windowSealBase + 2 * w
def freeSeal (m : Manifest) (w : Nat) : Nat := m.windowSealBase + 2 * w + 1

/-- Arm a window's free seal. -/
def armFree (s : State) (n : Nat) (m : Manifest) (w : Nat) : State :=
  sealArm s n (freeSeal m w) (Config.freeSealCount n w % 2 ^ 32)

/-- The working-copy slot that compute reads in the current step (R36). -/
def wcReadSlot (x : FnSt) (m : Manifest) : Nat := if m.d = 0 then 0 else x.step % 2

/-- Gather the rows of the list at a window's start from a binding's working copy (R38): the bytes, and the state with
ROW_RANGE noted for an index beyond the tensor's rows. -/
def gatherRows (s : State) (n : Nat) (m : Manifest) (b : Binding) (list : List Nat) : State × List Byte :=
  let h := if b.s24 then 2 else 1
  let len := wcBytesOf b.wcFormat (b.rowLen / h)
  let base := wcStart m (wcReadSlot (fnSt s n) m) + b.wcOffset
  list.foldl (fun q i =>
    if i < b.elemCount / b.rowLen then (q.1, q.2 ++ rangeRead q.1 n (base + i * len) len)
    else (postEvent (flagF q.1 (pgFn n) FN_STATE_STATUS_ROW_RANGE) n 0x0015 (leBytes 4 b.tensor ++ leBytes 4 i), q.2 ++ zeros len))
    (s, [])

/-- The row list that the compute side wrote at a window's start. -/
def rowList (s : State) (a : Nat) : List Nat :=
  (List.range (min (leVal (nearRead s a 4)) 262143)).map (fun i => leVal (nearRead s (a + 4 + 4 * i) 4))

/-- FLAGS.ROW_GATHER of a binding. -/
def Binding.gather (b : Binding) : Bool := bit b.flags 0

/-- What one binding adds to a fill. -/
def fillPart (n : Nat) (m : Manifest) (w : Nat) (q : State × List Byte) (b : Binding) : State × List Byte :=
  if b.gather then
    let r := gatherRows q.1 n m b (rowList q.1 (windowAt q.1 n w))
    (r.1, q.2 ++ r.2)
  else (q.1, q.2 ++ rangeRead q.1 n (wcStart m (wcReadSlot (fnSt q.1 n) m) + b.wcOffset) (wcRegion b))

/-- The bindings of this member whose working copies a layer's fill copies. -/
def layerBindings (x : FnSt) (m : Manifest) (layer : Nat) : List Binding :=
  m.bindings.filter (fun b => decide (b.layer = layer) && decide (b.group = x.group) && decide (b.member = x.self) && b.hasWc)

/-- The next fill of the step: its window, filled from offset 1 MiB; the fill seal fires and the free seal is armed. -/
def fillWork (s : State) (n : Nat) : State :=
  let x := fnSt s n
  match x.wheel, x.manifest with
  | some wh, some m =>
    let w := x.fills % 2
    let r := (layerBindings x m (wh.fillList.getD x.fills 0)).foldl (fillPart n m w) (s, [])
    let s := nearWrite r.1 (windowAt s n w + 1048576) r.2
    let s := modFn s n (fun x => { x with fills := x.fills + 1 })
    armFree (sealArrive (sealArm s n (fillSeal m w) 1) (fillSeal m w) 1) n m w
  | _, _ => s

/-- FILL. -/
def fillAct (s : State) (k : ActAt) : State :=
  act s k actFill []
    (fun s a => let x := fnSt s a.n
      match x.wheel, x.manifest with
      | some wh, some m =>
        if wh.fillList.length ≤ x.fills ∨ forceF s a.n FN_STATE_CFG_WINDOW_SIZE = 0 then .idle
        else if sealFired s (freeSeal m (x.fills % 2)) then .go else .wait 2 (freeSeal m (x.fills % 2))
      | _, _ => .idle)
    (fun s a _ => fillWork s a.n)

/-- MGMT: bandwidth for management traffic, which has its own commands. -/
def mgmtAct (s : State) (k : ActAt) : State := act s k actMgmt [] (fun _ _ => .go) (fun s _ _ => s)

/-! ### Absorbed rows (R278) -/

/-- One ROW_LATE record in each step in which a die works an absorbed row. -/
def lateOnce (s : State) (n sl area j : Nat) : State :=
  if (fnSt s n).lateRow then s
  else slip (modFn s n (fun x => { x with lateRow := true })) n 7 sl 0xFF (if area = 0 then 1 else 0) j

/-- The condition and the work of an action code on an absorbed row. No landing reaches an absorbed gradient leaf on this
die, so it is null (R68). -/
def absorbedDo (s : State) (k : ActOn) (code : Nat) (bad : Bool) (ticks : Nat) : State :=
  let go := fun (c : Cond) (t : State) => if c = .go then lateOnce t k.n k.sl (if code ≤ 5 then 1 else 0) k.j else s
  if code = actGsend then
    go (if (k.leaf (fnSt s k.n) 1).isNone || (k.work (fnSt s k.n) 1).sent then .idle else .go)
      (gsendWork (putWork s k.n { k.work (fnSt s k.n) 1 with isNull := true, loaded := true }) k)
  else if code = actGhold then go (condHold s k 1) (holdWork s k 1)
  else if code = actLread then go (condLread s k) (lreadWork s k bad)
  else if code = actRun then go (condRun s k) (runWork s k ticks)
  else if code = actReg then go (condReg s k) (regWork s k)
  else if code = actSend then go (condSend s k) (sendWork s k)
  else if code = actLwrite then go (condLwrite s k) (lwriteWork s k)
  else if code = actEmit then go (condEmit s k) (emitWork s k)
  else if code = actHold then go (condHold s k 0) (holdWork s k 0)
  else s

/-- ABSORBED_ROW_WORK: one action on a row of a member this die absorbs, in free slots while the schedule that the action
belongs to runs. A run's window is its budget. -/
def absorbedWork (s : State) (k : AbsAt) (code : Nat) (bad : Bool) (imgs : RowSet) : State :=
  let n := k.fn.val
  let x := fnSt s n
  if holding s = true ∨ actsRunning s n = false ∨ x.aborting = true ∨ x.self = k.member ∨ heldHere x k.member k.row = false ∨
      x.sched ≠ (if code ≤ 5 then 1 else 2) then s
  else
    let sl := rowSlice x k.row
    let core := if coreFailed s (coreIx sl k.core) then buddyOf (coreIx sl k.core) % 32 else k.core.val
    let a : ActOn := ⟨n, sl, core, k.member, k.row, imgs⟩
    let budget := match a.leaf x 0, x.progs with
      | some l, some set => match (classOf set l.binding.tensor).bind (classProg set) with | some (_, p) => p.budget | none => 0
      | _, _ => 0
    absorbedDo s a code bad (ceilDiv budget 2)

/-! ### Schedules begin (R64, R93, R187) -/

/-- The running schedule begins its turn 0 at counter value `at_`. -/
def schedBegin (s : State) (n sched at_ : Nat) : State :=
  let s := counterTo s at_
  let s := modFn s n (fun x => { x with sched := sched, turn := 0, turnAt := at_, shift := 0, spared := [] })
  showTurn (setFnF s n FN_WHEEL_STATUS_SCHED sched) n 0

/-- INTAKE_START: turn 0 of the intake schedule, at the first counter turn start at or after intake opened or the agreed
value (R187). A member past its gradient seal runs it too: it may hold gradient rows (R73). -/
def intakeStart (s : State) (n : Nat) : State :=
  let x := fnSt s n
  match x.intakeFrom with
  | none => s
  | some c =>
    if actsRunning s n && decide (x.sched = 0) && !x.passOn && !x.aborting && x.wheel.isSome && !holding s then
      let at_ := if s.counter ≤ turnStartAt s c then turnStartAt s c else turnStartAt s s.counter
      modFn (schedBegin s n 1 at_) n (fun x => { x with intakeFrom := none })
    else s

/-- The member's gradient slot of a row lies in no bucket, and its null deltas are still to be sent: no bucket seal calls
for them, so the intake schedule sends them on its own. -/
def unsealedLeaf (x : FnSt) (j : Nat) : Bool :=
  let k : ActOn := ⟨0, 0, 0, x.self, j, []⟩
  (k.leaf x 1).isSome && (rowBucket x j).isNone && !(k.work x 1).sent && (x.intakeFrom.isSome || decide (x.sched = 1))

/-- Every gradient row that this member holds a pigeonhole of has been finished, and every leaf in no bucket has been
passed over: the intake schedule is over. -/
def intakeOver (x : FnSt) : Bool :=
  match x.manifest with
  | some m => (List.range m.gradRows).all (fun j => (holdDue x ⟨0, 0, 0, x.self, j, []⟩ 1).isNone && !unsealedLeaf x j)
  | none => false

/-- PASS_START and RERUN_START: turn 0 of the pass schedule at the first counter turn start at or after C, or the resume
barrier's close, plus START_MARGIN. A value already past is SCALAR_LATE (R66). -/
def passStart (s : State) (n : Nat) (rerun : Bool) : State :=
  let x := fnSt s n
  match x.passFrom with
  | none => s
  | some c =>
    if x.gradSealed && decide (x.rerunDue = rerun) && actsRunning s n && x.hold.isNone && !x.aborting && x.wheel.isSome && !holding s &&
        intakeOver x then
      let at_ := turnStartAt s (c + startMargin s n)
      let late := decide (at_ < s.counter)
      let at' := if late then turnStartAt s s.counter else at_
      let s := if late && !rerun then slip s n 3 0xFF 0xFF 1 ((at' - at_) / (32 * wheelLen s)) else s
      let s := schedBegin s n 2 at'
      let s := modFn s n (fun x => { x with passFrom := none, intakeFrom := none, rerunDue := false, reran := x.reran || rerun })
      armPass (setFnF (setFnF s n FN_STEP_STATUS_RERUN (b2n rerun)) n FN_STEP_STATUS_PHASE 3) n false
    else s

/-! ### Holds and runs that last -/

/-- STALL_WATCHDOG: a readout hold has lasted STALL_LIMIT × 10 ms (R111). -/
def stallWatchdog (s : State) (n : Nat) : State :=
  let limit := fnF s n FN_INTAKE_CTRL_STALL_LIMIT * 8000000
  match (fnSt s n).hold with
  | none => s
  | some h =>
    if h.cause ≠ 1 ∨ limit = 0 then s else
    let s := counterTo s (h.since + limit)
    match bucketOf (fnSt s n) h.detail with
    | none => s
    | some e =>
      let o := sealAt s e.bucketSeal
      postEvent s n 0x0012 (leBytes 4 h.detail ++ leBytes 4 o.count ++ leBytes 4 o.expected)

/-- RUN_WINDOW_END: the window of a halted run ends; a leaf's commit sequence follows (R123). -/
def runWindowEnd (s : State) (i : Nat) : State :=
  match (coreSt s i).run with
  | none => s
  | some r =>
    if !r.halted || r.droppedAt.isSome then s else
    let s := advanceTo s r.windowEnd
    if r.prelude then setCore s i { coreSt s i with run := none } else commitLeaf s i r

/-- RUN_BUDGET_EXPIRY: the budget's cycles pass without HALT: a BUDGET trap (Table 5.8). Two cycles pass in a tick. -/
def runBudgetExpiry (s : State) (i : Nat) : State :=
  match (coreSt s i).run with
  | none => s
  | some r =>
    if r.halted || r.again.isSome || r.droppedAt.isSome then s
    else trapRun (advanceTo s (r.start + ceilDiv r.budget 2)) i 0x13 r

/-- RUN_RESTART: a run restarts at the next slot boundary with the start state of R120, after the slot of a bad word in frame
A or the gradient region has been decoded (Table 5.8). -/
def runRestart (s : State) (i : Nat) (imgs : RowSet) : State :=
  match (coreSt s i).run with
  | none => s
  | some r =>
    if r.again.isNone || r.droppedAt.isSome then s else
    let s := advance s (roundUp s.counter 32 - s.counter)
    let s := addF s (pgSlice (i / 32)) SL_CORE_COUNT_RESTARTS 1
    let s := slip s r.fn 0x0C (i / 32) (i % 32) 1 i
    let ticks := r.windowEnd - r.start
    if r.prelude then startPrelude s r.fn i r.cls ticks (some r) else
    let k : ActOn := ⟨r.fn, i / 32, i % 32, r.member, r.row, imgs⟩
    let x := fnSt s r.fn
    let s := match r.decode with
      | none => s
      | some a =>
        let fresh := fun (s : State) => lreadWork (modFn s r.fn (fun x => { x with work := x.work.map (fun w =>
          if w.member = r.member ∧ w.area = 0 ∧ w.row = r.row then { w with loaded := false } else w) })) k false
        if a < 0x10000 then fresh (k.settle s 0 0 r.row true)
        else match k.leaf x 0 with
          | some l => fresh ((coveredRows x l).foldl (fun s q => k.settle s 1 (passGen x) q.2 true) s)
          | none => s
    startLeafRun s r.fn i r.member r.row ticks (some r)

end Sys2Proof.Machine
end

