-- ==== Sys2Proof/Machine/Functions.lean ====
section
/-!
DEFINITION. Job functions: their states and transitions (R353 to R357), the restart and its checks (R358, Table 13.3),
armed stops (R359), function resets and drains (R362 to R365), formatting (R57), the start barrier (R187, R188, R455) and
the entry into RUNNING.
-/

namespace Sys2Proof.Machine

/-! ### What the registers show -/

/-- Show the job seed and the check draw (R170). -/
def showSeed (s : State) (n : Nat) : State :=
  match (fnSt s n).manifest with
  | none => s
  | some m =>
    let s := setFnF (setFnF s n FN_SEED_LO_SEED_LO (m.jobSeed % 2 ^ 32)) n FN_SEED_HI_SEED_HI (m.jobSeed / 2 ^ 32)
    let d := (draw (lane0 m.jobSeed (fnSt s n).step 0 0 0)).1
    setFnF (setFnF s n FN_SRC_CHECK_LO_CHECK_LO (d % 2 ^ 32)) n FN_SRC_CHECK_HI_CHECK_HI (d / 2 ^ 32)

/-- Show the current step (R64). -/
def showStep (s : State) (n : Nat) : State :=
  let x := fnSt s n
  let s := setFnF (setFnF s n FN_STEP_LO_STEP_LO (x.step % 2 ^ 32)) n FN_STEP_HI_STEP_HI (x.step / 2 ^ 32)
  showSeed (setFnF (setFnF s n FN_CHAIN_LO_CHAIN_LO (x.chain % 2 ^ 32)) n FN_CHAIN_HI_CHAIN_HI (x.chain / 2 ^ 32)) n

/-- Show the active program set and wheel image (Tables 5.8 and 7.18). -/
def showImages (s : State) (n : Nat) : State :=
  let x := fnSt s n
  let s := match x.progs with
    | none => s
    | some p =>
      let s := setFnF (setFnF s n FN_PROG_STATUS_SET_VALID 1) n FN_PROG_STATUS_ND (b2n (setNd p))
      setFnF (setFnF (setFnF s n FN_PROG_STATUS_TILE (b2n (setTile p))) n FN_PROG_STATUS_PROGRAMS p.progs.length)
        n FN_PROG_STATUS_CLASSES p.classes.length
  match x.wheel with
  | none => s
  | some _ => setFnF s n FN_WHEEL_STATUS_IMAGE_VALID 1

/-- Show the route map and the ownership table (R216 to R220). -/
def showRoute (s : State) (n : Nat) : State :=
  let x := fnSt s n
  let s := setFnF (setFnF s n FN_ROUTE_STATUS_GEN (x.route.number % 2)) n FN_ROUTE_STATUS_STAGED (b2n x.routeStaged.isSome)
  let s := setFnF (setFnF s n FN_ROUTE_STATUS_SHADOW (b2n x.routeShadow.isSome)) n FN_ROUTE_STATUS_GEN_COUNT x.routeSwitches
  setFnF s n FN_PORT_STATUS_OWN_ENTRIES x.own.length

/-- Show again, in a function's page, what its retained state holds (R42, R170, R324, R378). -/
def showRetained (s : State) (n : Nat) : State :=
  showSnap (showStep (showImages (showRoute (showRecord (showManifest s n) n) n) n) n) n

/-! ### Leaving a state -/

/-- The post box is disarmed (R367, R370). -/
def disarm (s : State) (n : Nat) : State := setFnF s n FN_PB_CTRL_ARM 0

/-- Every collective of the function is cancelled (Table 13.5, order 6). -/
def dropColls (s : State) (n : Nat) : State := (List.range 8).foldl (fun s off => collCancel s n off 4) s

/-- A packet this die issues or holds is of function `n`: it goes to an entry of its route map. -/
def packetOf (s : State) (n : Nat) (p : Packet) : Bool :=
  let x := fnSt s n
  let hit := fun (e : Nat) => decide (dieBits e = dieBits (hDst p)) && decide (routeFn e = hFn p)
  x.route.entries.any hit || (match x.routeShadow with | some g => g.entries.any hit | none => false) ||
    x.members.any (fun m => hit m.die) || x.spares.any (fun m => hit m.die)

/-- End a restart that has not entered RUNNING: what the load pass had in the air is dropped (R358). -/
def endRestart (s : State) (n : Nat) (status : Nat) : State :=
  let s := dropColls s n
  let s := { s with waits := s.waits.filter (fun w => decide (w.fn ≠ n)), bags := s.bags.filter (fun b => decide (b.fn ≠ n)),
                    held := s.held.filter (fun h => decide (hFn h.2 ≠ n)) }
  let s := sealDisarmAll ((List.range 16).foldl showBags s) n
  let s := modFn s n (fun x => { x with loadPass := false, passOn := false, passFrom := none, formatting := false, cancelled := true })
  setFnF (setFnF s n FN_CODE_STATUS_FORMATTING 0) n FN_STATE_START_STATUS status

/-- Cancel a restart in progress (R358). -/
def cancelRestart (s : State) (n : Nat) : State := if isStarting s n then endRestart s n 3 else s

/-- Arm a stop at the step seal of a step (R359); it replaces an armed one, whose command ends ABANDONED. -/
def armStop (s : State) (n step : Nat) (tag : Option Nat) : State :=
  let s := match (fnSt s n).stop with
    | some ⟨old, some t⟩ => complete (modFn s n (fun x => { x with bg := x.bg.filter (fun c => !(decide (c.op = 0x0C) && decide (c.tag = t))) }))
        n t 0x0C 0x07 old
    | _ => s
  setFnF (modFn s n (fun x => { x with stop := some ⟨step, tag⟩ })) n FN_STATE_STOP_ARMED 1

/-- A write of LY_FNn_CTRL.STOP: RUNNING arms a stop with NEXT, STARTING is cancelled (R358, R359). -/
def ctrlStop (s : State) (n : Nat) : State :=
  if stateOf s n = 2 ∧ n ≠ 0 then armStop s n (fnSt s n).step none else cancelRestart s n

/-! ### Drains (R363 to R365) -/

/-- Orders 1 to 4 up to what is still to leave: runs and schedules stop; what is registered is sent; reserved rows are
flushed; landing is discarded. A drain after an abort's recovery, at a step seal, or from STOPPED finds nothing left to
send. -/
def drainActs (s : State) (n : Nat) (sends : Bool) : State :=
  let s := schedStop (dropHold (dropCores s n) n) n
  let s := if sends ∧ (fnSt s n).drained = false then sendCloses (drainSend s n) n else s
  let s := (List.range 16).foldl (fun s sl => if (fnSt s n).flushed.contains sl then s else flushSlice s n sl) s
  let s := discardLanded s n
  let s := { s with parked := s.parked.filter (fun q => decide (q.fn ≠ n)), tc2Held := s.tc2Held.filter (fun q => decide (q.fn ≠ n)),
                    waits := s.waits.filter (fun w => decide (w.fn ≠ n)), resends := s.resends.filter (fun r => decide (r.fn ≠ n)),
                    held := s.held.filter (fun h => decide (hFn h.2 ≠ n)),
                    requests := s.requests.filter (fun r => decide (r.fn ≠ n)),
                    puts := s.puts.filter (fun p => decide (p.fn ≠ n)) }
  let s := modFn s n (fun x => { x with
    work := [], rowsDone := [], passOn := false, passFrom := none, intakeFrom := none, intakeOpen := false, gradSealed := false,
    groupDone := false, rerunDue := false, drained := true,
    migration := none, verify := none })
  let s := setFnF (setFnF s n FN_STATE_STATUS_MIGRATING 0) n FN_CODE_STATUS_VERIFYING 0
  showParking (setFnF s n FN_STEP_STATUS_PHASE 0) n

/-- The function enters DRAINING (Table 13.2): `reset` for a reset drain, `toOff` where the target is DISABLED. -/
def drainBegin (s : State) (n : Nat) (reset toOff sends : Bool) : State :=
  let s := sweepAbandon (twinDisarm s n) n
  let s := setFnF (setFnF s n FN_STATE_TARGET (b2n toOff)) n FN_STATE_DRAINS 0
  let s := modFn s n (fun x => { x with drain := some ⟨reset, s.ticks⟩, stop := none })
  let s := setFnState (setFnF s n FN_STATE_STOP_ARMED 0) n 3
  showRates (drainActs s n sends)

/-- The drain of a stopping abort or of an armed stop: target STOPPED, nothing left to send (R359, R361). -/
def drainStop (s : State) (n : Nat) : State :=
  if stateOf s n = 2 then drainBegin s n false false false else s

/-- A function reset (R362, Table 13.2); of FN0 it clears its page alone. -/
def resetFn (s : State) (n : Nat) (toOff : Bool) : State :=
  if n = 0 then
    let s := (fnSt s 0).bg.foldl (fun s c => complete s 0 c.tag c.op 0x0D 0) s
    clearPage (modFn s 0 (fun x => { x with bg := [], queue := [], evSeq := 0 })) (pgFn 0)
  else
    let st := stateOf s n
    if st = 1 then drainBegin (cancelRestart s n) n true toOff false
    else if st = 2 then drainBegin (bugleSend s n 1 (bugleSerial s n) none false) n true toOff true
    else if st = 3 then
      let s := addF s (pgFn n) FN_STATE_DRAINS 1
      modFn s n (fun x => { x with drain := some ⟨true, s.ticks⟩ })
    else s

/-- Orders 6 to 9 (Table 13.5): the drain is complete. What the function's own collectives, aborts and heartbeats have put
on TC0 still leaves: order 4 flushes the packets of the function's work, and a drain taken at a step seal finds that order
empty (R363), so the step barrier's RESULT reaches the tree. -/
def drainEnd (s : State) (n : Nat) (forced : Bool) : State :=
  let toOff := fnF s n FN_STATE_TARGET = 1
  let reset := match (fnSt s n).drain with | some d => d.isReset | none => false
  let s := { s with egress := s.egress.filter (fun p => !packetOf s n p || decide (hTc p = 0)) }
  let s := dropColls (sealDisarmAll s n) n
  let s := transferDrop s n
  let s := modFn s n (fun x => { x with routeStaged := none, permuteSet := [], decl := none, again := none, membReqs := [] })
  let s := setFnF s n FN_ROUTE_STATUS_STAGED 0
  let s := { s with msgs := s.msgs.filter (fun q => decide (q.fn ≠ n)) }
  let s := (fnSt s n).bg.foldl (fun s c => complete s n c.tag c.op 0x0D 0) s
  let s := abortOver (modFn s n (fun x => { x with
    drainCloses := [], bg := [], queue := [], drain := none, reload := none, snapAt := none, colls := if x.cancelled then x.colls else [] })) n
  let s := if reset then
      let s := clearPage s (pgFn n)
      let s := modFn s n (fun x => { x with evSeq := 0, cplKept := [], devKept := [], digKept := [] })
      setFnF s n FN_STATE_STATE 3
    else s
  let s := setFnF (setFnF (setFnF s n FN_STATE_TARGET 0) n FN_STATE_ENABLE_PENDING 0) n FN_STATE_DRAINS 0
  let s := if forced then flagF s (pgFn n) FN_STATE_DRAIN_FORCED else s
  let s := watchUpdate (setFnState s n (if toOff then 0 else 1))
  let s := if toOff then disarm s n else s
  showRetained s n

/-- DRAIN_COMPLETE: every registered delta has left, recovery runs over the intent entries, and the rest of the drain ends
it (R363). `imgs` gives the other members' slots by row. -/
def drainComplete (s : State) (n : Nat) (imgs : Nat → RowImages) : State :=
  if stateOf s n ≠ 3 ∨ (fnSt s n).drain.isNone = true then s
  else if s.egress.any (fun p => packetOf s n p && decide (hTc p = 1)) then s
  else drainEnd (recover s n imgs) n false

/-- DRAIN_FORCED: 100 ms have passed since the drain's last start (R365). -/
def drainForced (s : State) (n : Nat) : State :=
  match (fnSt s n).drain with
  | some d => if stateOf s n = 3 then drainEnd (advanceTo s (d.since + 80000000)) n true else s
  | none => s

/-! ### The enable bit (R353, R357) -/

/-- Write a function's enable bit in LY_GLOBAL_FN_ENABLE. -/
def putEnable (s : State) (n : Nat) (v : Bool) : State :=
  let a := if n < 32 then 0x040 else 0x044
  setWord s a (BitVec.ofNat 32 (putBit (wordAt s a).toNat (n % 32) v))

/-- The image runs and recovery is not entered, so enable bits are written (R385, R391). -/
def mayEnable (s : State) : Bool :=
  decide (1 ≤ s.pwr.phase) && decide (s.pwr.phase ≤ 2) && decide (getF s pgNvm NVM_FW_STATUS_STAGE ≠ 7)

/-- The enable bit of JFn written 1. -/
def enableSet (s : State) (n : Nat) : State :=
  if n = 0 ∨ mayEnable s = false then s else
  let s := putEnable s n true
  let st := stateOf s n
  if s.vfs < n then s
  else if st = 0 then showRetained (setFnState s n 1) n
  else if st = 3 ∧ fnF s n FN_STATE_TARGET = 1 then
    setFnF (setFnF s n FN_STATE_TARGET 0) n FN_STATE_ENABLE_PENDING 1
  else s

/-- The enable bit of JFn written 0. -/
def enableClear (s : State) (n : Nat) : State :=
  if n = 0 ∨ mayEnable s = false then s else
  let s := putEnable s n false
  let st := stateOf s n
  if st = 1 then disarm (setFnState (cancelRestart s n) n 0) n
  else if st = 2 then resetFn s n true
  else if st = 3 then setFnF (setFnF s n FN_STATE_TARGET 1) n FN_STATE_ENABLE_PENDING 0
  else s

/-- VF Enable or NumVFs changes to enable `k` virtual functions: those above act as if disabled (R353). -/
def vfChange (s : State) (k : Nat) : State :=
  let old := s.vfs
  let s := { s with vfs := k }
  ((List.range 64).filter (fun n => decide (k < n) && decide (n ≤ old))).foldl enableClear s

/-! ### The checks of a restart (Table 13.3) -/

/-- The route entries of a group's members, and of its hot spares. -/
def memberIds (g : GroupEntry) : List Nat := (List.range g.n).map (fun i => g.routeBase + i)
def spareIds (g : GroupEntry) : List Nat := (List.range g.spareCount).map (fun i => g.spareBase + i)

/-- Every place of the manifest's groups at which this die stands by a route map: the group, the index, and whether it is a
hot spare (R46). -/
def placesOf (s : State) (m : Manifest) (r : RouteGen) : List (GroupEntry × Nat × Bool) :=
  let mine := fun (ids : List Nat) => (List.range ids.length).filter (fun i =>
    match (ids[i]?).bind (routeEntry r) with | some e => decide (dieBits e = selfDie s) | none => false)
  (m.groups.map (fun g => (mine (memberIds g)).map (fun i => (g, i, false)) ++ (mine (spareIds g)).map (fun i => (g, i, true)))).flatten

/-- A group passes the route tests of R46 by the route map alone. -/
def groupRoutes (r : RouteGen) (g : GroupEntry) : Bool :=
  let ms := (memberIds g).filterMap (routeEntry r)
  let sp := (spareIds g).filterMap (routeEntry r)
  decide (ms.length = g.n) && decide (sp.length = g.spareCount) && placementOk g ms sp

/-- The route map agrees with the retained record of the die's own group, which passes the board and chassis tests (R259). -/
def recordRoutes (x : FnSt) (r : RouteGen) (g : GroupEntry) : Bool :=
  let agrees := fun (id die : Nat) => match routeEntry r id with | some e => decide (dieBits e = dieBits die) | none => false
  ((x.members.zip (memberIds g)).all (fun q => !q.1.live || agrees q.2 q.1.die)) &&
    ((x.spares.zip (spareIds g)).all (fun q => !q.1.standby || agrees q.2 q.1.die)) &&
    placementOk g (liveDies x.members) (standbyDies x.spares)

/-- Under what the coded areas of a manifest stand, for a group (R57). -/
def keyFor (m : Manifest) (g : GroupEntry) : FmtKey := ⟨m.jobId, g.k, g.r, g.group, m.stripeRows, m.gradRows, m.d⟩

/-- What a restart formats: 0 nothing, 1 the gradient areas alone, 2 everything (R57). -/
def formatDue (old : Option FmtKey) (new : FmtKey) : Nat :=
  match old with
  | none => 2
  | some k => if k = new then 0 else if { k with d := new.d } = new then 1 else 2

/-- The member record that a restart works with: formed afresh where everything is formatted, else the retained one (R259,
R261). -/
def restartRecord (s : State) (x : FnSt) : FnSt :=
  match x.manifest with
  | none => x
  | some m =>
    match placesOf s m x.route with
    | [(g, i, isSpare)] =>
      if formatDue x.fmtKey (keyFor m g) = 2 ∨ (x.role = 2 ∧ x.members = []) ∨ x.role = 0 ∧ x.members = [] then
        { x with role := if isSpare then 2 else 1, group := g.group, self := i, epoch := 1,
                 members := (memberIds g).map (fun id => ⟨true, (routeEntry x.route id).getD 0, []⟩),
                 spares := (spareIds g).map (fun id => ⟨true, (routeEntry x.route id).getD 0⟩),
                 unrebuilt := [], proxies := [], mute := false }
      else x
    | _ => x

/-- The route tests of R46 fail. -/
def placementFails (s : State) (x : FnSt) (fresh : Bool) : Bool :=
  match x.manifest with
  | none => true
  | some m =>
    if fresh then decide ((placesOf s m x.route).length ≠ 1) || !m.groups.all (groupRoutes x.route)
    else match grpOf x with
      | some g => !(decide (x.role = 1 ∨ x.role = 2) && recordRoutes x x.route g &&
          m.groups.all (fun h => decide (h.group = x.group) || groupRoutes x.route h))
      | none => true

/-- The other functions that are STARTING, RUNNING or DRAINING. -/
def busyOthers (s : State) (n : Nat) : List Nat := ((List.range 64).filter (fun k => decide (k ≠ n) && isBusyFn s k && decide (k ≠ 0)))

/-- Near-tier units of the landing area and of the layer windows of a function, as start and length (R42, R116). -/
def landUnits (s : State) (n : Nat) : Nat × Nat := (forceF s n FN_LANDING_AREA_AREA_BASE, forceF s n FN_LANDING_AREA_AREA_SIZE)
def windowUnits (s : State) (n : Nat) : Nat × Nat := (forceF s n FN_STATE_CFG_WINDOW_BASE, 2 * forceF s n FN_STATE_CFG_WINDOW_SIZE)

/-- Two ranges share a unit; an empty one shares none. -/
def unitsMeet (a b : Nat × Nat) : Bool := decide (a.2 ≠ 0) && decide (b.2 ≠ 0) && rangesMeet a.1 a.2 b.1 b.2

/-- A range lies within another; an empty one lies anywhere. -/
def unitsIn (a b : Nat × Nat) : Bool := decide (a.2 = 0) || (decide (b.1 ≤ a.1) && decide (a.1 + a.2 ≤ b.1 + b.2))

/-- The grants are exceeded (R366). -/
def grantFails (s : State) (n : Nat) (x : FnSt) : Bool :=
  let q := (wordAt s (0x100 + 4 * n)).toNat
  let g := (wordAt s (0x200 + 4 * n)).toNat
  let near := (bits g 31 21, bits g 20 10)
  let units := (List.range near.2).map (fun i => near.1 + i)
  let used := fun (u : Nat) => let inR := fun (r : Nat × Nat) => decide (r.1 ≤ u) && decide (u < r.1 + r.2)
    inR (landUnits s n) || inR (windowUnits s n)
  (match x.wheel with | some w => !unitsIn (w.segBase, w.segLen) (bits q 31 26, bits q 25 19) | none => false) ||
    !unitsIn (landUnits s n) near || !unitsIn (windowUnits s n) near ||
    decide ((units.filter (fun u => !used u)).length < 4 * forceF s n FN_STATE_CFG_NEAR_QUOTA)

/-- The near tier is laid out badly (R37, R42, R116). -/
def nearFails (s : State) (n : Nat) (x : FnSt) : Bool :=
  let land := landUnits s n
  let win := windowUnits s n
  let push := (getF s pgFloor FLOOR_PUSH_AREA_PUSH_BASE, getF s pgFloor FLOOR_PUSH_AREA_PUSH_SIZE)
  let others := busyOthers s n
  let layers := match x.manifest with | some m => (m.bindings.map (fun (b : Binding) => b.layer)).eraseDups | none => []
  let layerBytes := fun (l : Nat) => match x.manifest with
    | some m => (((layerBindings x m l).filter (fun (b : Binding) => !b.gather)).map wcRegion).sum
    | none => 0
  let size := forceF s n FN_STATE_CFG_WINDOW_SIZE
  (decide (size ≠ 0) && layers.any (fun l => decide (size * 2 ^ 26 - 2 ^ 20 < layerBytes l))) ||
    unitsMeet win land || unitsMeet win (0, 1) || unitsMeet win push || unitsMeet land (0, 1) || unitsMeet land push ||
    others.any (fun k => unitsMeet land (landUnits s k)) ||
    decide (512 < land.2 + (others.map (fun k => (landUnits s k).2)).sum) ||
    decide (21840 < ((n :: others).map (fun k => forceF s k FN_LANDING_CACHE_CACHE_LINES)).sum) ||
    decide (land.2 < forceF s n FN_LANDING_AREA_PARK_SIZE) || decide (512 < land.2)

/-- The program set cannot run (R136, R137). -/
def progsFail (s : State) (n : Nat) (x : FnSt) : Bool :=
  let base := fun k => forceF s k FN_PROG_CTRL_REGION_BASE
  let size := fun k => forceF s k FN_PROG_CTRL_REGION_SIZE
  let bound := match x.manifest with | some m => m.bindings.filter (fun (b : Binding) => decide (b.elemCount ≠ 0)) | none => []
  let inClass := fun (t : Nat) => match x.progs with | some p => (classOf p t).isSome | none => false
  !bound.all (fun b => inClass b.tensor) ||
    (busyOthers s n).any (fun k => unitsMeet (base n, size n) (base k, size k)) ||
    (decide (size n = 0) && !bound.isEmpty) || decide (16 < base n + size n) ||
    (match x.progs with
     | some p => decide (size n * 4096 < p.bundles.length * 8) || (decide (forceF s n FN_PROG_CTRL_REFUSE_ND = 1) && setNd p)
     | none => false)

/-- A slice is powered and not gated (R403, R404). -/
def sliceOn (s : State) (sl : Nat) : Bool := bit (getF s pgClkpwr CLKPWR_DOMAIN_STATUS_SL) sl && !bit (getF s pgClkpwr CLKPWR_GATE_SL) sl

/-- The wheel image cannot run (R179, R185). -/
def wheelFails (s : State) (n : Nat) (x : FnSt) : Bool :=
  match x.wheel, x.manifest with
  | some w, some m =>
    let others := (busyOthers s n).filterMap (fun k => (fnSt s k).wheel)
    others.any (fun v => unitsMeet (w.segBase, w.segLen) (v.segBase, v.segLen)) ||
      decide (wheelLen s / 64 < w.segBase + w.segLen) ||
      decide (w.manifestDigest ≠ m.digest) || (match x.progs with | some p => decide (w.setDigest ≠ p.digest) | none => true) ||
      decide (w.lenLog2 ≠ getF s pgWheel WHEEL_CTRL_LEN_LOG2) || w.place.any (fun sl => !sliceOn s sl) ||
      (match x.progs, grpOf x with | some p, some g => decide (x.role = 1) && !windowsHold w p m g x.self | _, _ => false) ||
      decide (32 < w.mailbagRows + (others.map (fun v => v.mailbagRows)).sum)
  | _, _ => true

/-- LY_FNn_WHEEL_START as in force. -/
def startValue (s : State) (n : Nat) : Nat := forceF s n FN_WHEEL_START_LO_START_LO + 2 ^ 32 * forceF s n FN_WHEEL_START_HI_START_HI

/-- START_MODE AT with a value already past (R187). -/
def startPast (s : State) (n : Nat) : Bool :=
  decide (forceF s n FN_WHEEL_CTRL_START_MODE = 1) && decide (startValue s n < s.counter)

/-- The Fife slots cannot be used (R241). -/
def slotsFail (s : State) (n : Nat) : Bool :=
  let base := fun k => forceF s k FN_FIFE_CTRL_SLOT_BASE
  decide (base n % 8 ≠ 0) ||
    (busyOthers s n).any (fun k => decide (forceF s k FN_FIFE_CTRL_PATH = 0) && rangesMeet (base n) 8 (base k) 8)

/-- The watch list would exceed 31 dies (R262). -/
def watchFull (s : State) (x : FnSt) : Bool :=
  decide (31 < ((sortDies ((watchSet s) ++ (liveDies x.members ++ standbyDies x.spares).map dieBits)).filter
    (fun d => decide (d ≠ selfDie s))).length)

/-- The state ranges and parking frames exceed 448 GiB (R41). -/
def deepFull (s : State) (n : Nat) (x : FnSt) : Bool :=
  let range := fun k => match (if k = n then x.manifest else match (fnSt s k).manifest with | some m => some m | none => (fnSt s k).staged) with
    | some m => rangeBytes m
    | none => 0
  decide (rangeLimit < ((List.range 64).map (fun k => range k + parkedBytesOf s k)).sum)

/-- The tests in the order of Table 13.3. `old` is the function before the restart, `x` with what takes effect, `badD` says
that the staged manifest changes D while a generation is pending (R32). -/
def restartTests (s : State) (n : Nat) (old x : FnSt) (badD : Bool) : List (Nat × Bool) :=
  let fresh := match x.manifest, grpOf x with | some m, some g => decide (formatDue old.fmtKey (keyFor m g) = 2) | _, _ => true
  [(0x04, x.manifest.isNone || badD), (0x05, grantFails s n x), (0x06, nearFails s n x), (0x07, progsFail s n x),
   (0x08, wheelFails s n x), (0x09, decide (getF s pgWheel WHEEL_STATUS_COUNTER_STATE ≤ 1)), (0x0A, startPast s n),
   (0x0B, slotsFail s n), (0x0C, watchFull s x), (0x0D, decide (old.role = 3)),
   (0x0E, decide (getF s pgGlobal GLOBAL_WITHDRAW_WITHDRAWN = 1)), (0x10, deepFull s n x), (0x11, placementFails s x fresh)]

/-! ### The restart (R358) -/

/-- Everything staged takes effect together (R12, R32, R439). A staged manifest whose D differs while a generation is pending
is dropped instead (R32). -/
def applyStaged (s : State) (n : Nat) (badD : Bool) : State :=
  let page := s.regs.filter (fun e => decide (pgFn n ≤ e.1) && decide (e.1 < pgFn n + 4096))
  let s := { s with inForce := page.foldl (fun t e => tabPut t e.1 (some e.2)) (tabClear s.inForce (pgFn n) 4096) }
  let size := forceF s n FN_ROUTE_CTRL_ROUTE_SIZE
  modFn s n (fun x =>
    let take := match x.staged with | some m => if badD then none else some m | none => none
    { x with
      manifest := match take with | some m => some m | none => x.manifest
      fresh := x.fresh || take.isSome
      passRun := x.passRun && take.isNone
      anchor := x.anchor || (match take, x.manifest with
        | some m, some o => decide (m.digest ≠ o.digest)
        | some _, none => true
        | none, _ => false)
      staged := none
      progs := match x.progsStaged with | some p => some p | none => x.progs
      progsStaged := none
      wheel := match x.wheelStaged with | some w => some w | none => x.wheel
      wheelStaged := none
      route := { x.route with entries := (match x.routeLoaded with | some l => l | none => x.route.entries).take size }
      routeLoaded := none
      contractNext := []
      contracted := [] })

/-- The path a function starts on (R241). -/
def startPath (s : State) (n : Nat) : Nat :=
  if forceF s n FN_FIFE_CTRL_PATH = 0 ∧ lineState s = 4 ∧ linePhase s = 1 then 0 else 1

/-- Intake of the current step opens, its first turn computed from counter value `c` (R187). -/
def enterIntake (s : State) (n c : Nat) : State :=
  modFn (openIntake s n (nextAttempt (fnSt s n))) n (fun x => { x with intakeFrom := some c })

/-- The function enters RUNNING (R358): the free phase of an interrupted re-shard comes before intake (R291). -/
def enterRunning (s : State) (n c : Nat) : State :=
  let s := modFn s n (fun x => { x with loadPass := false, cancelled := false, lastC := s.counter })
  let s := setFnState (setFnF s n FN_STATE_START_STATUS 1) n 2
  let s := sendReports (twinEnter (showRates (watchUpdate s)) n) n
  let s := reshardResume s n
  if (fnSt s n).role ≠ 1 then s
  else if (fnSt s n).plan.isSome then modFn s n (fun x => { x with intakeFrom := some c })
  else enterIntake s n c

/-- Formatting is done, or none was due: the second test under AT, the load pass or the first intake there, and the start
barrier under BARRIER (R187, R188, R456). A hot spare runs nothing (R261). -/
def startBarrier (s : State) (n : Nat) : State :=
  let x := fnSt s n
  match x.wheel with
  | none => s
  | some w =>
    if x.role = 2 then enterRunning s n s.counter
    else if forceF s n FN_WHEEL_CTRL_START_MODE = 1 then
      if startPast s n then endRestart s n 0x0A
      else if x.loads.isEmpty then enterRunning s n (startValue s n)
      else modFn s n (fun x => { x with loadPass := true, passFrom := some (startValue s n) })
    else
      let v := w.scheduleId ^^^ w.lenLog2
      collOpen s n 5 4 [v, v]

/-- A START write (R358). -/
def startFn (s : State) (n : Nat) : State :=
  if n = 0 then s
  else if stateOf s n = 3 then setFnF s n FN_STATE_START_STATUS 0
  else if stateOf s n ≠ 1 ∨ isStarting s n = true then s
  else
    let old := fnSt s n
    let badD := match old.staged, old.manifest with
      | some m, some o => decide (m.d ≠ o.d) && decide (fnF s n FN_STATE_STATUS_PENDING ≠ 0)
      | _, _ => false
    let s := showRoute (showImages (applyStaged s n badD) n) n
    let x := restartRecord s (fnSt s n)
    match (restartTests s n old x badD).find? (fun t => t.2) with
    | some (code, _) =>
      let s := if code = 0x0C then flagF s pgPort PORT_WATCH_STATUS_FULL else s
      showManifest (setFnF s n FN_STATE_START_STATUS code) n
    | none =>
      match x.manifest, grpOf x with
      | some m, some g =>
        let due := if x.role = 2 then 0 else formatDue x.fmtKey (keyFor m g)
        let x : FnSt := { x with
          fresh := false
          step := if x.fresh then m.startStep + 1 else x.step
          opened := x.opened && !x.fresh
          chain := if x.fresh && x.anchor then 0 else x.chain
          attempt := if x.fresh then 0 else x.attempt
          formatting := decide (due ≠ 0)
          formatGradOnly := decide (due = 1)
          loadPass := false, passFrom := none, intakeFrom := none, rerunDue := false, groupDone := false
          devSeq := 0, devLost := 0, digSeq := 0, slips := 0
          lastC := s.counter, snapAt := none, reload := none }
        let s := setFnSt s n x
        let s := abortOver (if x.cancelled then s else setFnF s n FN_FIFE_STATUS_OPEN 0) n
        let s := setFnF (setFnF s n FN_STATE_START_STATUS 2) n FN_STATE_ABORT_CAUSE 0
        let s := setFnF (setFnF s n FN_FIFE_STATUS_PATH_ACTIVE (startPath s n)) n FN_INTAKE_STATUS_ATTEMPT (nextAttempt (fnSt s n))
        let s := setFnF s n FN_MEMB_STATUS_CONTRACTED 0
        let s := twinRestart (showRetained s n) n
        if due ≠ 0 then setFnF s n FN_CODE_STATUS_FORMATTING 1 else startBarrier s n
      | _, _ => s

/-- Every state leaf's working copy is written into the slots of a new layout from its master (R57, R84). -/
def rewriteCopies (s : State) (n : Nat) (m : Manifest) : State :=
  (stateRows (fnSt s n)).foldl (fun s q =>
    let slot := slotRead s n 0 0 q.1
    if pmKind slot ≠ 1 then s
    else if m.d = 0 then emitWcAt s n m q.2 (slotBody slot) (pmStamp slot) 0
    else emitWcAt s n m q.2 (slotBody slot) ((fnSt s n).step - 1) ((fnSt s n).step % 2)) s

/-- FORMAT_COMPLETE: the areas that a restart formats are written (R57). -/
def formatComplete (s : State) (n : Nat) : State :=
  let x := fnSt s n
  match x.manifest, grpOf x with
  | some m, some g =>
    if x.formatting && isStarting s n then
      let s := if x.formatGradOnly then rewriteCopies (formatGrads s n m g) n m else formatAll s n m g
      let s := modFn s n (fun x => { x with formatting := false, fmtKey := some (keyFor m g), sealedPasses := 0 })
      startBarrier (setFnF s n FN_CODE_STATUS_FORMATTING 0) n
    else s
  | _, _ => s

/-- The start barrier closed at C with its two values (R187, R188, R456). -/
def startClosed (s : State) (n c : Nat) (vals : List Nat) : State :=
  if !isStarting s n then s
  else if vals[0]? ≠ vals[1]? then endRestart s n 0x0F
  else if (fnSt s n).loads.isEmpty then enterRunning s n (c + startMargin s n)
  else modFn s n (fun x => { x with loadPass := true, passFrom := some (c + startMargin s n) })

/-- The start barrier was answered CONFLICT (R455). -/
def startConflict (s : State) (n : Nat) : State := if isStarting s n then endRestart s n 3 else s

end Sys2Proof.Machine
end

