-- ==== Sys2Proof/Machine/LoadPass.lean ====
section
/-!
DEFINITION. The load pass (R70, R454, R456): what each member sends for its bound slots, the write of the loaded leaves, and
the close.
-/

namespace Sys2Proof.Machine

/-- A leaf is among those that a LOAD_LEAVES places (Table 13.7). -/
def LoadJob.covers (q : LoadJob) (l : LeafRef) : Bool :=
  decide (q.tensor = l.binding.tensor) && decide (q.mask = decide (l.kind = .mask)) && decide (q.firstLeaf ≤ l.index) &&
    decide (l.index < q.firstLeaf + q.bodies.length)

/-- The body that the accepted commands give a leaf; the last that names it decides. A rejected mask leaf has none (R112). -/
def loadBody (x : FnSt) (l : LeafRef) : Option (List Byte) :=
  (x.loads.reverse.find? (fun q => q.covers l)).bind (fun q => (q.bodies[l.index - q.firstLeaf]?).filter (fun b => !b.isEmpty))

/-- The member's own bound slots of the stripe area, in row order. -/
def boundRows (x : FnSt) : List (Nat × LeafRef) :=
  match x.manifest, grpOf x with
  | some m, some g => (List.range m.stripeRows).filterMap (fun j => (leafAt m g x.self 0 j).map (fun l => (j, l)))
  | _, _ => []

/-- The slot that LOAD_LEAVES writes: STEP_STAMP and LAST_TOUCHED START_STEP, the chain started (R24, R35). -/
def loadedSlot (x : FnSt) (m : Manifest) (g : GroupEntry) (j : Nat) (l : LeafRef) (body : List Byte) : List Byte :=
  mkLeaf g x.self j l ⟨0, m.startStep, m.startStep, x.epoch, chainLink 0 (crc64 (fit 65280 body)) m.startStep, []⟩ body

/-- The contribution of a bound slot: its loaded image against the old one, or a null delta (R35, R70). -/
def loadSend (s : State) (n mem j : Nat) (image : Option (List Byte)) : State :=
  let x := fnSt s n
  match x.manifest, grpOf x with
  | some m, some g =>
    contribute s { kind := .load, fn := n, slice := rowSlice x j, core := 0, area := 0, gen := 0, row := j, member := mem,
                   stamp := m.startStep, epoch := x.epoch, routeGen := x.route.number, isNull := image.isNone, sent := false,
                   sentAt := 0, image := match image with | some i => cellsOf 0 i | none => [], holders := holdersOf x g j }
  | _, _ => s

/-- LOAD_PASS_START: the load pass begins at its counter turn start (R456). -/
def loadPassStart (s : State) (n : Nat) : State :=
  let x := fnSt s n
  match x.passFrom, x.manifest, grpOf x with
  | some c, some m, some g =>
    if x.loadPass && !x.passOn && isStarting s n && !holding s then
      let s := counterTo s (if s.counter ≤ turnStartAt s c then turnStartAt s c else turnStartAt s s.counter)
      let s := armPass (setFnF (modFn s n (fun x => { x with passFrom := none })) n FN_STEP_STATUS_PHASE 3) n true
      let s := (boundRows x).foldl (fun s q =>
        loadSend s n x.self q.1 ((loadBody x q.2).map (fun b =>
          xorBytes (dataImage (loadedSlot x m g q.1 q.2 b)) (dataImage (slotRead s n 0 0 q.1))))) s
      ((absorbedRows x m.stripeRows).filter (fun q => expectsContribution m g q.1 0 q.2 true)).foldl (fun s q =>
        loadSend s n q.1 q.2 none) s
    else s
  | _, _, _ => s

/-- The working copy of a state leaf after the load pass: the pass is of START_STEP (R36, R84). -/
def loadEmit (s : State) (n : Nat) (m : Manifest) (l : LeafRef) (slot : List Byte) : State :=
  if l.kind = .state then emitWcAt s n m l (slotBody slot) m.startStep (if m.d = 0 then 0 else (m.startStep + 1) % 2) else s

/-- Every receipt of a slot's contribution is here: the loaded leaf is written, and the slot arrives at the group-seal object
(Table 3.7, R456). -/
def loadSettle (s : State) (w : Wait) : State :=
  let n := w.fn
  let x := fnSt s n
  let s := dropWait s w
  match x.manifest, grpOf x with
  | some m, some g =>
    let s := if w.member ≠ x.self then s
      else match leafAt m g x.self 0 w.row with
        | none => s
        | some l => match loadBody x l with
          | some b =>
            let slot := loadedSlot x m g w.row l b
            loadEmit (heldWrite s n x.self 0 0 w.row slot) n m l slot
          | none =>
            let slot := slotRead s n 0 0 w.row
            if 1 ≤ m.d ∧ pmKind slot = 1 then loadEmit s n m l slot else s
    groupArrive s n
  | _, _ => s

/-- Leaves of a command on this member, and whether one still waits. -/
def loadRows (x : FnSt) (q : LoadJob) : List Nat := ((boundRows x).filter (fun r => q.covers r.2)).map (fun r => r.1)

/-- The load pass goes on: settled slots are written, and the commands whose leaves are all written complete (R372). -/
def loadProgress (s : State) (n : Nat) : State :=
  if (fnSt s n).passOn = false then s else
  let done := s.waits.filter (fun w => decide (w.fn = n) && decide (w.kind = .load) && w.sent && w.allDone)
  let s := done.foldl loadSettle s
  let x := fnSt s n
  let open_ := (s.waits.filter (fun w => decide (w.fn = n) && decide (w.kind = .load))).map (fun w => w.row)
  let ready := x.loads.filter (fun q => !q.finished && (loadRows x q).all (fun j => !open_.contains j))
  let s := modFn s n (fun x => { x with loads := x.loads.map (fun q => if ready.contains q then { q with finished := true } else q) })
  ready.foldl (fun s (q : LoadJob) =>
    let good : List (List Byte) := q.bodies.filter (fun b => !b.isEmpty)
    complete s n q.tag 4 (if good.length = q.bodies.length then 0 else 1) good.length) s

/-- The load pass's step barrier closed at C: it is no step seal, and the function enters RUNNING (R456). -/
def loadPassClosed (s : State) (n c : Nat) : State :=
  let s := modFn s n (fun x => { x with loads := [], passOn := false, groupDone := false, anchor := true, rowsDone := [] })
  enterRunning (setFnF s n FN_STEP_STATUS_PHASE 0) n (c + startMargin s n)

end Sys2Proof.Machine
end

