-- ==== Sys2Proof/Machine/Reload.lean ====
section
/-!
DEFINITION. Reload of a sealed snapshot (R318 to R323): the re-slice plan and its acceptance, what a source sends and a
target writes, and the end of the command.
-/

namespace Sys2Proof.Machine

/-! ### The plan (R319) -/

/-- Offsets of the target list and the move list, and the plan's length. -/
def slicePlaces (b : List Byte) : Nat × Nat × Nat :=
  let a1 := roundUp (64 + 16 * field b 6 2) 64
  let a2 := roundUp (a1 + 4 * field b 8 2) 64
  (a1, a2, a2 + 24 * field b 0xC 4)

/-- The source list. -/
def sliceSources (b : List Byte) : List SliceSource :=
  (List.range (field b 6 2)).map (fun i =>
    let e := (b.drop (64 + 16 * i)).take 16
    ⟨field e 0 4, field e 4 4, field e 8 2, field e 0xA 1, field e 0xB 1⟩)

/-- The target list. -/
def sliceTargets (b : List Byte) : List Nat := (List.range (field b 8 2)).map (fun i => field b ((slicePlaces b).1 + 4 * i) 4)

/-- The move list. -/
def sliceMoves (b : List Byte) : List SliceMove :=
  (List.range (field b 0xC 4)).map (fun i =>
    let e := (b.drop ((slicePlaces b).2.1 + 24 * i)).take 24
    ⟨i, field e 0 4, field e 4 4, field e 8 4, bits (field e 0xC 4) 31 28, bits (field e 0xC 4) 27 0, field e 0x10 2, field e 0x12 2⟩)

/-- Table 11.10's header, its digest, the targets' order and the move entries' ranges hold. -/
def sliceOk (b : List Byte) : Bool :=
  let t := (sliceTargets b).map dieBits
  decide (field b 0 4 = 0x1A5E5C01) && decide (field b 4 2 = 1) && decide (field b 6 2 ≠ 0) && decide (field b 8 2 ≠ 0) &&
    decide (field b 0xA 2 = 0) && decide (field b 0xC 4 ≤ 2 ^ 30) && allZero ((b.drop 0x30).take 8) &&
    decide (b.length = (slicePlaces b).2.2) && decide (field b 0x38 8 = crc64 (setField b 0x38 8 0)) &&
    (List.range (t.length - 1)).all (fun i => decide (t.getD i 0 < t.getD (i + 1) 0)) &&
    (sliceMoves b).all (fun v => decide (1 ≤ v.kind) && decide (v.kind ≤ 3) && decide (v.source < field b 6 2) && decide (v.target < field b 8 2))

/-- The coded area of a move's kind. -/
def SliceMove.area (v : SliceMove) : Nat := if v.kind = 2 then 1 else 0

/-- The row of a move's slot on this die's member. -/
def SliceMove.row (v : SliceMove) (x : FnSt) (g : GroupEntry) : Nat := dataRow g.k g.n x.self v.newSlot

/-! ### Acceptance (R320) -/

/-- The seal page of a source's snapshot, if this floor holds it SEALED. -/
def sourcePage (s : State) (c : SliceSource) : Option (List Byte) :=
  match snapOf s c.snapId with
  | some e => if floorReady s ∧ e.state = 2 ∧ e.fn = c.fn then readPage s e.sealFpa else none
  | none => none

/-- The source entries of this die and function. -/
def mySources (s : State) (n : Nat) (l : List SliceSource) : List SliceSource :=
  l.filter (fun c => decide (dieBits c.die = selfDie s) && decide (c.fn = n))

/-- A source's floor holds the snapshot of the plan, or its entry is missing. -/
def sourceOk (s : State) (b : List Byte) (c : SliceSource) : Bool :=
  decide (c.snapId = 0) || (match sourcePage s c with
    | some d => decide (field d 0x20 8 = field b 0x20 8) && decide (field d 0x10 8 = field b 0x10 8) && decide (field d 0x18 8 = field b 0x18 8)
    | none => false)

/-- The target function as a reload finds it: the accepted manifest of NEW_DIGEST active, the route map loaded, and the
member record formed as by a restart (R259, R320). -/
def targetFn (s : State) (n : Nat) (b : List Byte) : Option (FnSt × Manifest × GroupEntry) :=
  let x := fnSt s n
  let pick := [x.staged, x.manifest].findSome? (fun o => match o with
    | some m => if m.digest = field b 0x28 8 then some m else none
    | none => none)
  match pick with
  | none => none
  | some m =>
    let y : FnSt := { x with
      manifest := some m, staged := if x.staged.map (fun q => q.digest) = some m.digest then none else x.staged, fmtKey := none
      route := { x.route with entries := (match x.routeLoaded with | some l => l | none => x.route.entries).take (fnF s n FN_ROUTE_CTRL_ROUTE_SIZE) }
      routeLoaded := none }
    match placesOf s m y.route with
    | [(g, _, false)] =>
      if m.jobId = field b 0x10 8 ∧ m.startStep = field b 0x18 8 ∧ m.groups.all (groupRoutes y.route) = true then some (restartRecord s y, m, g) else none
    | _ => none

/-- Every move bound to this target matches a binding in kind and data slot, and D is that of its own snapshot where it
is a source too (R320). -/
def targetMovesOk (s : State) (n : Nat) (b : List Byte) (x : FnSt) (m : Manifest) (g : GroupEntry) (me : Nat) : Bool :=
  ((sliceMoves b).filter (fun v => decide (v.target = me))).all (fun v =>
    match leafAt m g x.self v.area (v.row x g) with
    | some l => decide (l.kindCode = v.kind) && decide (l.binding.tensor = v.tensor) && decide (l.index = v.leaf) &&
        decide (v.row x g < areaRows m v.area)
    | none => false) &&
  (mySources s n (sliceSources b)).all (fun c => decide (c.snapId = 0) || (match sourcePage s c with
    | some d => decide (field d 7 1 = m.d)
    | none => false))

/-- A load contribution of a reload: a slot's image, or a null delta (R70, R322). -/
def reloadSend (s : State) (n area gen row stamp : Nat) (image : Option (List Byte)) : State :=
  let x := fnSt s n
  match grpOf x with
  | some g =>
    contribute s {
                   kind := .load, fn := n, slice := rowSlice x row, core := 0, area := area, gen := gen, row := row, member := x.self,
                   stamp := stamp, epoch := x.epoch, routeGen := x.route.number, isNull := image.isNone, sent := false,
                   sentAt := 0, image := match image with | some i => cellsOf 0 i | none => [], holders := holdersOf x g row }
  | none => s

/-- Change a function's reload. -/
def modReload (s : State) (n : Nat) (f : Reload → Reload) : State := modFn s n (fun x => { x with reload := x.reload.map f })

/-- Null deltas for the pending generations of a gradient row that no move fills, once no move to it is due (R70, R322). -/
def gradNulls (s : State) (n row : Nat) : State :=
  let x := fnSt s n
  match x.reload, x.manifest, grpOf x with
  | some q, some m, some g =>
    if (q.toGet.any (fun v => decide (v.kind = 2) && decide (v.row x g = row))) ||
        q.rx.any (fun t => decide (t.area = 1) && decide (t.row = row)) then s
    else ((pendingGens m q.step).filter (fun k => !q.got.contains (row, k))).foldl (fun s k => reloadSend s n 1 k row m.startStep none) s
  | _, _, _ => s

/-- The target's first acts: the coded areas are formatted and recorded so (R320), and the slots that no move fills get null
deltas (R70). -/
def reloadFormat (s : State) (n : Nat) (x : FnSt) (m : Manifest) (g : GroupEntry) : State :=
  let y : FnSt := { x with fmtKey := some (keyFor m g), fresh := true, anchor := true, passRun := false, sealedPasses := m.d, opened := false }
  let s := showRetained (formatAll (setFnSt s n y) n m g) n
  let rows := fun (area : Nat) => (List.range (areaRows m area)).filterMap (fun j => (leafAt m g y.self area j).map (fun l => (j, l)))
  let due := match y.reload with | some q => q.toGet | none => []
  let s := ((rows 0).filter (fun r => !due.any (fun v => decide (v.area = 0) && decide (v.row y g = r.1)))).foldl
    (fun s r => reloadSend s n 0 0 r.1 m.startStep none) s
  ((rows 1).map (fun r => r.1)).foldl (fun s j => gradNulls s n j) s

/-- The decoding source of an old group: the lowest-indexed present source of it (R321). -/
def decodingSource (q : List SliceSource) (group : Nat) : Option SliceSource :=
  q.find? (fun c => decide (c.group = group) && decide (c.snapId ≠ 0))

/-- RELOAD's plan `b` on the function of its post box (R320): the status and the state after it. -/
def reloadTry (s : State) (n : Nat) (b : List Byte) : Nat × State :=
  if !sliceOk b then (1, s) else
  let sources := sliceSources b
  let mine := mySources s n sources
  let meT := (sliceTargets b).findIdx? (fun d => decide (dieBits d = selfDie s))
  let moves := sliceMoves b
  let sending := moves.filter (fun v => match sources[v.source]? with
    | some c => if c.snapId ≠ 0 then mine.contains c
        else (match decodingSource sources c.group with | some d => mine.contains d | none => false)
    | none => false)
  let q : Reload := {
    step := field b 0x18 8, sources := sources, targets := sliceTargets b, moves := moves, toSend := sending,
    toGet := [], rx := [], got := [], written := 0, decoded := 0, lost := 0, malformed := false }
  if !mine.all (sourceOk s b) then (1, s) else
  match meT with
  | none => if mine = [] then (1, s) else (0, modFn s n (fun x => { x with reload := some q }))
  | some me =>
    if stateOf s n ≠ 1 ∨ isStarting s n = true then (2, s) else
    match targetFn s n b with
    | none => (1, s)
    | some (x, m, g) =>
      if targetMovesOk s n b x m g me then
        (0, reloadFormat s n { x with reload := some { q with toGet := moves.filter (fun v => decide (v.target = me)) } } m g)
      else (1, s)

/-! ### The target (R322) -/

/-- The move of a put that this target awaits: its slot is named by the area and the data slot in ROW. -/
def reloadMove (s : State) (n : Nat) (area slot : Nat) : Option SliceMove :=
  match (fnSt s n).reload with
  | some q => q.toGet.find? (fun v => decide (v.area = area) && decide (v.newSlot = slot))
  | none => none

/-- A LEAF_PUT in TC5 is armed: a move to this target is due (R321). -/
def reloadArmed (s : State) (n : Nat) (p : Packet) : Bool := decide (hTc p = 5) && (reloadMove s n (hArea p) (hRow p)).isSome

/-- The receipt of a put of a reload. -/
def reloadReceipt (s : State) (n : Nat) (t : PutStage) : State :=
  if dieBits t.src = selfDie s then s
  else
    let there := match (fnSt s n).reload with
      | some q => ((q.sources.find? (fun c => decide (dieBits c.die = dieBits t.src))).map (fun (c : SliceSource) => c.fn)).getD 0
      | none => 0
    sendReceipt s n t.src (sliceEndpoint (selfDie s) t.slice) there t.row t.stamp (areaByte t.area t.gen false) t.member t.par 0 0

/-- A slot for which nothing is written: null deltas go out in its place. -/
def reloadNull (s : State) (n : Nat) (v : SliceMove) : State :=
  let x := fnSt s n
  match x.manifest, grpOf x with
  | some m, some g => if v.area = 0 then reloadSend s n 0 0 (v.row x g) m.startStep none else gradNulls s n (v.row x g)
  | _, _ => s

/-- A slot is here whole: it goes to its new holders as a load contribution; a leaf of another FORMAT fails, and a free slot
stays free (R322). -/
def reloadGot (s : State) (n : Nat) (t : PutStage) : State :=
  let x := fnSt s n
  match reloadMove s n t.area t.row, x.manifest, grpOf x with
  | some v, some m, some g =>
    let slot := memReadN t.image 0 65536
    let row := v.row x g
    let s := modReload s n (fun q => { q with toGet := q.toGet.erase v })
    match leafAt m g x.self v.area row with
    | none => reloadReceipt (reloadNull s n v) n t
    | some l =>
      if pmKind slot = 0 then reloadReceipt (reloadNull s n v) n t
      else if pmFormat slot ≠ l.code ∨ pmKind slot ≠ l.kindCode then
        reloadReceipt (reloadNull (modReload s n (fun q => { q with malformed := true })) n v) n t
      else
        let gen := if v.area = 0 then 0 else pmStamp slot % (m.d + 1)
        let q : PutStage := { t with row := row, gen := gen }
        let s := modReload s n (fun r => { r with rx := r.rx ++ [q], got := if v.area = 1 then r.got ++ [(row, gen)] else r.got })
        let s := reloadSend s n v.area gen row (pmStamp slot) (some (dataImage slot))
        if v.area = 1 then gradNulls s n row else s
  | _, _, _ => s

/-- The slot as the target writes it (R322). -/
def reslicedSlot (x : FnSt) (g : GroupEntry) (l : LeafRef) (row : Nat) (slot : List Byte) : List Byte :=
  let moved := decide (field slot 0x2C 2 ≠ g.group) || decide (field slot 0x2E 1 ≠ x.self) || decide (field slot 8 4 ≠ row)
  let flags := pmFlags slot - pmFlags slot % 2
  let flags := if moved ∧ bit flags 2 = false then flags + 4 else flags
  mkLeaf g x.self row l ⟨flags, pmStamp slot, pmTouched slot, x.epoch, pmChain slot, pmExt slot⟩ (slotBody slot)

/-- Every receipt of a received slot's contribution is here: write it (R322). -/
def reloadWrite (s : State) (n : Nat) (t : PutStage) : State :=
  let x := fnSt s n
  let s := modReload s n (fun q => { q with rx := q.rx.erase t, written := q.written + 1 })
  let s := match x.manifest, grpOf x with
    | some m, some g => (match leafAt m g x.self t.area t.row with
      | some l =>
        let slot := reslicedSlot x g l t.row (memReadN t.image 0 65536)
        loadEmit (heldWrite s n x.self t.area t.gen t.row slot) n m l slot
      | none => s)
    | _, _ => s
  let slot := match x.manifest, grpOf x with
    | some _, some g => dataSlot g.k g.n x.self t.row
    | _, _ => t.row
  reloadReceipt s n { t with row := slot }

/-- The reload goes on: slots whose receipts are here are written, and the command completes when this die has nothing left
to do (R320 to R322, Table 13.7). -/
def reloadProgress (s : State) (n : Nat) : State :=
  if (fnSt s n).reload.isNone ∨ !bgRunning s n 0x1B then s else
  let done := s.waits.filter (fun w => decide (w.fn = n) && decide (w.kind = .load) && w.sent && w.allDone)
  let s := done.foldl (fun s w =>
    let s := dropWait s w
    match (fnSt s n).reload.bind (fun q => q.rx.find? (fun t => decide (t.area = w.area) && decide (t.gen = w.gen) && decide (t.row = w.row))) with
    | some t => reloadWrite s n t
    | none => s) s
  match (fnSt s n).reload with
  | none => s
  | some q =>
    if q.toSend = [] ∧ q.toGet = [] ∧ q.rx = [] ∧
        s.waits.all (fun w => !(decide (w.fn = n) && (decide (w.kind = .load) || (decide (w.kind = .put) && decide (w.core = 5))))) then
      let status := if q.lost ≠ 0 then 8 else if q.malformed then 1 else 0
      bgComplete s n 0x1B status (q.written % 2 ^ 24 * 2 ^ 40 + q.decoded % 2 ^ 24 * 2 ^ 16 + min q.lost 0xFFFF)
    else s

/-! ### The source (R321) -/

/-- The slot of this die in a snapshot at an ordinal: none where it is absent or fails R321's checks. A free slot is all
zero. -/
def snapSlot (s : State) (c : SliceSource) (o : Nat) (readable : Bool) : Option (List Byte) :=
  match snapOf s c.snapId, sourcePage s c with
  | some e, some sp =>
    let f := (snapIndex s e).2.getD o indexAbsent
    if f = indexFree then some freeSlot
    else if f = indexAbsent ∨ !readable then none
    else match readPage s f with
      | some d => if slotPageOk sp d o then some d else none
      | none => none
  | _, _ => none

/-- Area, generation and row of an ordinal, by a seal page and the plan's step. -/
def ordinalPlace (sp : List Byte) (step o : Nat) : Nat × Nat × Nat :=
  let sr := field sp 0x34 4
  let gr := max 1 (field sp 0x38 4)
  let d := field sp 7 1
  if o < sr then (0, 0, o) else (1, (step + 2 + (o - sr) / gr) % (d + 1), (o - sr) % gr)

/-- A decoded slot at its old place (R59, R321). -/
def decodedPut (c : SliceSource) (sp : List Byte) (v : SliceMove) (row : Nat) (k : DecodedMark) (stamp : Nat) (img : List Byte) : List Byte :=
  sealPostmark (leBytes 1 v.kind ++ leBytes 1 k.format ++ [1, 2] ++ leBytes 4 k.elemCount ++ leBytes 4 row ++ leBytes 4 v.tensor ++
    leBytes 8 k.elemOffset ++ leBytes 8 stamp ++ leBytes 8 (imgTouched img) ++ leBytes 4 (field sp 0xC 4) ++ leBytes 2 c.group ++
    leBytes 1 c.member ++ leBytes 1 (field sp 0x33 1) ++ leBytes 4 v.leaf ++ leBytes 4 v.tensor ++ leBytes 8 (imgDigest img) ++
    leBytes 8 (imgChain img) ++ imgExt img ++ zeros 144 ++ img.drop 64)

/-- The row of a move decoded by R58 from the old group's slots; none where it cannot be solved (R321). -/
def reloadDecode (s : State) (q : Reload) (me c : SliceSource) (v : SliceMove) (k : DecodedMark) (imgs : RowImages) : Option (List Byte) :=
  match sourcePage s me with
  | none => none
  | some sp =>
    let g : GroupEntry := ⟨c.group, field sp 0x33 1 / 16, field sp 0x33 1 % 16, 0, 0, 0, 0, 0⟩
    let (area, _, j) := ordinalPlace sp q.step v.ordinal
    let slots := fun (m : Nat) => if m = c.member then none
      else if m = me.member then snapSlot s me v.ordinal true else (imgs.getD m none).map (fit 65536)
    let entry := fun hole i surv => holeEntry area hole ((j + i) % g.n) surv
    let enters := fun hole i => decide (area = 0) || bit (pmPresent hole) ((j + i) % g.n)
    match (decodeView (rowView g (field sp 0xC 4) area j slots) entry (fun _ => true) enters).1 with
    | none => none
    | some d => (d.roles.find? (fun r => decide ((j + r.1) % g.n = c.member))).map (fun r =>
        if area = 1 ∧ bit (pmPresent d.hole) c.member = false then freeSlot
        else decodedPut c sp v j k (if area = 0 then fullStamp (pmStamp d.hole) r.2.2 else pmStamp d.hole) r.2.1)

/-- A gradient leaf that is not of a pending generation counts as free. -/
def currentSlot (sp : List Byte) (step : Nat) (slot : List Byte) : List Byte :=
  if pmKind slot = 2 ∧ ¬(step < pmStamp slot + field sp 7 1 ∧ pmStamp slot ≤ step) then freeSlot else slot

/-- Send a slot to the target of its move as LEAF_PUT in TC5; ROW carries the data slot of NEW_SLOT. -/
def reloadPut (s : State) (n : Nat) (q : Reload) (c : SliceSource) (v : SliceMove) (gen : Nat) (slot : List Byte) : State :=
  let x := fnSt s n
  let d := dieBits (q.targets.getD v.target 0)
  let sl := v.newSlot % 16
  if d = selfDie s then
    reloadGot s n ⟨n, sl, 5, d, c.member, v.area, gen, v.newSlot, low32 (pmStamp slot), 0, 65535, cellsOf 0 slot⟩
  else
    let known := (x.route.entries ++ x.members.map (fun m => m.die) ++ x.spares.map (fun m => m.die)).find? (fun e => decide (dieBits e = d))
    let fn := match known with | some e => routeFn e | none => n
    let w : Wait := ⟨.put, n, sl, 5, v.area, gen, v.newSlot, c.member, pmStamp slot, x.epoch, x.route.number % 2, false, true, s.ticks,
      cellsOf 0 slot, [⟨c.member, 0, d + fn * 64 + 1, false⟩]⟩
    w.holders.foldl (fun s h => sendTo s w 5 n h) { s with waits := s.waits ++ [w] }

/-- RELOAD_MOVE: a source reads and checks, or decodes, the slot of a move and sends it; at a target, `lost` says that the
move's row could not be solved (R321). -/
def reloadStep (s : State) (n idx : Nat) (readable lost : Bool) (k : DecodedMark) (imgs : RowImages) : State :=
  match (if bgRunning s n 0x1B then (fnSt s n).reload else none) with
  | none => s
  | some q =>
    match q.moves[idx]? with
    | none => s
    | some v =>
      let s := if lost then
          (match q.toGet.find? (fun u => decide (u = v)) with
           | some _ => reloadNull (modReload s n (fun q => { q with toGet := q.toGet.erase v, lost := q.lost + 1 })) n v
           | none => s)
        else match q.sources[v.source]? with
          | none => s
          | some c =>
            let s := modReload s n (fun q => { q with toSend := q.toSend.erase v })
            let own := if (mySources s n q.sources).contains c ∧ c.snapId ≠ 0 then
                (match snapSlot s c v.ordinal readable with
                 | some d => if pmKind d = 0 ∨ (pmTensor d = v.tensor ∧ field d 0x30 4 = v.leaf) then some d else none
                 | none => none)
              else none
            match own, sourcePage s c with
            | some d, some sp => reloadPut s n q c v (ordinalPlace sp q.step v.ordinal).2.1 (currentSlot sp q.step d)
            | _, _ =>
              match decodingSource q.sources c.group with
              | none => s
              | some me =>
                if (mySources s n q.sources).contains me = false then s else
                match reloadDecode s q me c v k imgs, sourcePage s me with
                | some d, some sp =>
                  reloadPut (modReload s n (fun q => { q with decoded := q.decoded + 1 })) n q c v
                    (ordinalPlace sp q.step v.ordinal).2.1 (currentSlot sp q.step d)
                | _, _ => modReload s n (fun q => { q with lost := q.lost + 1 })
      todo s (.startCheck n)

end Sys2Proof.Machine
end

