-- ==== Sys2Proof/Machine/Put.lean ====
section
/-!
DEFINITION. Arrival of LEAF_PUT packets (R205): arming, staging, and what a whole slot does in a transfer (TC3), a permute
(TC4) and a reload (TC5).
-/

namespace Sys2Proof.Machine

/-- The function of the sender of a put. -/
def putFnThere (x : FnSt) (p : Packet) : Nat :=
  let d := dieBits (hSrc p)
  if hTc p = 5 then
    (match x.reload with
     | some q => ((q.sources.find? (fun c => decide (dieBits c.die = d))).map (fun (c : SliceSource) => c.fn)).getD 0
     | none => 0)
  else fnAtDie x d

/-- Answer a LEAF_PUT packet with a receipt. -/
def putAnswer (s : State) (n : Nat) (p : Packet) (status : Nat) : State :=
  let x := fnSt s n
  sendReceipt s n (hSrc p) (hDst p) (putFnThere x p) (hRow p) (hStamp p) (field p.hdr 0x1E 1) x.self (hParity p) status
    (if status = 0 then 0 else hImg p / 64)

/-- A staged slot is of the packet's slot and sender. -/
def PutStage.isOf (t : PutStage) (p : Packet) : Bool :=
  decide (t.fn = hFn p) && decide (t.tc = hTc p) && decide (t.src = hSrc p) && decide (t.member = hMember p) && decide (t.area = hArea p) &&
    decide (t.gen = hAreaGen p) && decide (t.row = hRow p) && decide (t.stamp = hStamp p)

/-- What a whole slot does by its class. -/
def putWhole (s : State) (n : Nat) (p : Packet) (t : PutStage) : State :=
  if t.tc = 3 then putAnswer (transferWrite s n t.member t.area t.gen t.row (memReadN t.image 0 65536)) n p 0
  else if t.tc = 4 then permuteGot s n t
  else todo (reloadGot s n t) (.startCheck n)

/-- A part of a slot enters the slot's staging; the last part to come completes the slot. -/
def putPart (s : State) (n : Nat) (p : Packet) : State :=
  let i := hImg p / 64
  let t := (s.puts.find? (fun t => t.isOf p)).getD
    ⟨n, hSlice p, hTc p, hSrc p, hMember p, hArea p, hAreaGen p, hRow p, hStamp p, hParity p, 0, []⟩
  let rest := s.puts.filter (fun t => !t.isOf p)
  let t : PutStage := { t with map := putBit t.map i true, image := memWriteN t.image (4096 * i) p.payload }
  if t.map = 65535 then putWhole { s with puts := rest } n p t else { s with puts := rest ++ [t] }

/-- The postmark that a rejoin's source sends first: the target keeps its slot or asks for the source's (R284). -/
def putPostmark (s : State) (n : Nat) (p : Packet) : State :=
  if postmarkKept (slotRead s n (hArea p) (hAreaGen p) (hRow p)) p.payload then
    putAnswer (transferKeep s n (hMember p) (hArea p) (hAreaGen p) (hRow p)) n p 0
  else putAnswer s n p 1

/-- LEAF_PUT (R205, R212, R213, R236, R281, R284, R321). -/
def recvPut (s : State) (p : Packet) (u : Upset) : State :=
  let sl := hSlice p
  let n := hFn p
  let s := if u = .none then s else errSlice s HDR_ERR_SUMMARY_QUEUE sl
  let s := if u = .pointer then flushHold s sl else s
  let mark := decide (hTc p = 3) && decide (hLen p = 4) && decide (hTag p = 1) && hFlag p && decide (hImg p = 0)
  let shape := mark || (decide (hLen p = 64) && decide (hImg p % 64 = 0))
  let placed := transferArmed s n p || permuteArmed s n p || reloadArmed s n p
  match codingVerdict s n p (headerOk' p && decide (u ≠ .header) && shape) false placed 7 with
  | .bin c => bin s p c sl
  | .ahead => putAnswer s n p 3
  | .apply =>
    if hPoison p || decide (u = .payload) || decide (u = .pointer) then putAnswer (notePoison s sl) n p 2
    else if mark then putPostmark s n p
    else putPart s n p

end Sys2Proof.Machine
end

