-- ==== Sys2Proof/Machine/Integrity.lean ====
section
/-!
DEFINITION. Stored-data integrity (ch. 12): errors on deep-tier reads, halted and failed channels, the correctable-error policy
and remap (R329 to R332, R340 to R342), checker mode (R343), the Drone's laps (R344, R345), near-tier errors and integrity aborts
(R335, R336, R338), and audits (R349, R350).
-/

namespace Sys2Proof.Machine

def modInteg (s : State) (f : IntegSt → IntegSt) : State := { s with integ := f s.integ }

/-! ### Integrity aborts and withdrawal (R332, R336) -/

/-- An integrity abort of a function (R336). -/
def integrityAbort (s : State) (n cause : Nat) : State :=
  if !actsRunning s n then s else
  let s := setFnF (setFnF (flagF s (pgFn n) FN_INTEG_STATUS_INTEG_ABORT) n FN_INTEG_STATUS_CAUSE cause) n FN_STATE_ABORT_CAUSE 1
  let s := if cause ≤ 2 then errFn s HDR_ERR_SUMMARY_SRAM n else s
  bugleSound (postEvent s n 0x0070 (leBytes 1 cause ++ leBytes 8 (fnSt s n).step)) n 2 false

/-- The die withdraws (R332): `ch` is the channel of CHANNEL_FAILED. Its functions stop here alone (R361, Table 13.4). -/
def withdrawDie (s : State) (cause ch : Nat) : State :=
  if getF s pgGlobal GLOBAL_WITHDRAW_WITHDRAWN = 1 then s else
  let s := ((List.range 64).filter (fun n => decide (n ≠ 0) && decide (stateOf s n = 2))).foldl (fun s n =>
    bugleSound (setFnF s n FN_STATE_ABORT_CAUSE 8) n 2 true) s
  let s := (List.range 64).foldl (fun s n => modFn s n (fun x => { x with mute := true })) s
  let s := setF (setF (flagF s pgGlobal GLOBAL_WITHDRAW_WITHDRAWN) pgGlobal GLOBAL_WITHDRAW_CAUSE cause) pgGlobal GLOBAL_WITHDRAW_CHANNEL ch
  let w := leBytes 4 (wordAt s 0x04C).toNat
  let s := if getF s pgNvm NVM_FW_STATUS_STAGE = 6 then todo s (.trialFault 2) else s
  logWrite (postEvent s 0 0x0074 w) 7 w

/-! ### Channels (R331) -/

/-- Bit of a channel in a field of its slice. -/
def chanBit (s : State) (f : Fld) (ch : Nat) : Bool := bit (getF s (pgSlice (ch / 4)) f) (ch % 4)
def setChan (s : State) (f : Fld) (ch : Nat) (v : Bool) : State :=
  setF s (pgSlice (ch / 4)) f (putBit (getF s (pgSlice (ch / 4)) f) (ch % 4) v)

/-- A channel fails and escalates to the complex: the die withdraws (R9, R331, R332). -/
def channelFail (s : State) (ch : Nat) : State :=
  if 64 ≤ ch ∨ chanBit s SL_LINE_STATUS_FAILED ch = true then s else
  let s := errSlice (setChan (setChan s SL_LINE_STATUS_FAILED ch true) SL_LINE_STATUS_HALTED ch true) HDR_ERR_SUMMARY_LINE (ch / 4)
  let s := escalate s (pgSlice (ch / 4)) (pgRegion (ch / 16))
  withdrawDie (escalate s (pgRegion (ch / 16)) pgGlobal) 1 ch

/-! ### The watch log (R341) -/

/-- The channel is watched (Table 12.11). -/
def watched (s : State) (ch : Nat) : Bool :=
  let w := (wordAt s (pgDrone + 0x054)).toNat
  (List.range 4).any (fun i => bit w (8 * i + 7) && decide (bits w (8 * i + 5) (8 * i) = ch))

/-- Word `k` of watch log entry `i`. -/
def logWord (s : State) (i k : Nat) : Nat := (wordAt s (pgDrone + 0x800 + 16 * i + 4 * k)).toNat
def setLog (s : State) (i k v : Nat) : State := setWord s (pgDrone + 0x800 + 16 * i + 4 * k) (BitVec.ofNat 32 v)

/-- Log a block's errors: its own entry, an empty one, or LOG_FULL. -/
def watchNote (s : State) (ch block : Nat) (b : BlockRead) : State :=
  let a := blockAddr ch block
  let own := (List.range 64).find? (fun i => decide (logWord s i 2 ≠ 0) && decide (logWord s i 0 = a))
  let free := (List.range 64).find? (fun i => decide (logWord s i 2 = 0))
  match (match own with | some i => some i | none => free) with
  | none => flagF s pgDrone DRONE_LOG_STATUS_LOG_FULL
  | some i =>
    let old := if own.isSome then logWord s i 1 else 0
    let count := min (logWord s i 2 + b.ce + b.ue) 0xFFFFFFFF
    let map := (old % 65536) ||| b.map
    let s := setLog (setLog s i 0 a) i 1 (map + 65536 * max (bits old 23 16) b.most)
    let s := setLog (setLog s i 2 count) i 3 (s.counter / 2 ^ 32)
    if own.isSome then s else addF s pgDrone DRONE_LOG_STATUS_ENTRIES 1

/-- A write of CLEAR empties the watch log (Table 12.12). -/
def watchClear (s : State) : State :=
  setF { s with regs := tabClear s.regs (pgDrone + 0x800) 1024 } pgDrone DRONE_LOG_STATUS_ENTRIES 0

/-! ### A read of a code block (R327, R331) -/

/-- What a block holds: what the checker wrote there, else what was read. -/
def storedRaw (s : State) (ch block : Nat) (raw : List Byte) : List Byte := (tabFind s.integ.blocks (blockAddr ch block)).getD (fit 1024 raw)

/-- Count and log a read's errors (R331, R341). -/
def noteRead (s : State) (ch block : Nat) (b : BlockRead) : State :=
  let pg := pgSlice (ch / 4)
  let s := addF (addF s pg SL_LINE_COUNT_CE b.ce) pg SL_LINE_COUNT_UE b.ue
  let s := if b.address then setChan s SL_LINE_STATUS_ADDRESS ch true else s
  let s := errSlice s HDR_ERR_SUMMARY_LINE (ch / 4)
  if watched s ch then watchNote s ch block b else s

/-- A read that finds an error halts the channel; the sixteenth halt within 2^30 ticks fails it, as does an uncorrectable block
whose remap found the table full (R331). -/
def haltChannel (s : State) (ch block : Nat) (owner : BlockOwner) (b : BlockRead) : State :=
  let s := noteRead s ch block b
  let s := addF (setChan s SL_LINE_STATUS_HALTED ch true) (pgSlice (ch / 4)) SL_LINE_COUNT_HALTS 1
  let log := (tabGet [] s.integ.haltLog ch).filter (fun t => decide (s.ticks < t + 2 ^ 30)) ++ [s.ticks]
  let s := modInteg s (fun i => { i with halted := i.halted ++ [⟨ch, block, owner⟩], haltLog := tabPut i.haltLog ch (some log) })
  if 16 ≤ log.length ∨ (b.ue ≠ 0 ∧ s.integ.unmapped.contains (ch, block) = true) then todo s (.channelFailed ch) else s

/-- A block is read: an error-free one changes nothing. A halted or failed channel serves no read. -/
def readBlock (s : State) (ch block : Nat) (raw : List Byte) (owner : BlockOwner) : State :=
  if chanBit s SL_LINE_STATUS_HALTED ch || chanBit s SL_LINE_STATUS_FAILED ch then s else
  let b := decodeBlock ch block (storedRaw s ch block raw)
  if b.clean then s else haltChannel s ch block owner b

/-- DEEP_READ_COMPLETE. -/
def deepRead (s : State) (ch block : Nat) (raw : List Byte) (owner : BlockOwner) : State := readBlock s ch block raw owner

/-! ### Uncorrectable lines (Tables 12.2, 12.4) -/

/-- A slot is erased: its postmark fails every check until the slot is rewritten (R25, R329). -/
def eraseSlot (s : State) (n m area gen row : Nat) : State :=
  let mark := List.replicate 256 (0xFF : Byte)
  let s := match (fnSt s n).manifest with
    | none => s
    | some mf => if (fnSt s n).self = m then rangeWrite s n (slotOffset mf area gen row) mark
      else { s with deep := memWriteN s.deep (frameAddr n m area gen row) mark }
  addF s (pgFn n) FN_INTEG_STATUS_ERASED 1

/-- A slot is erased and decoded in management slots, unless a mailbag reservation holds its row (R60, R329). -/
def eraseAndDecode (s : State) (n m area gen row : Nat) (imgs : RowImages) : State :=
  let s := eraseSlot s n m area gen row
  if rowReserved s n area gen row || (fnSt s n).manifest.isNone then s else (rebuildRow s n area gen row imgs [m] false).state

/-- The working copies of a leaf are regenerated from its master (R84, R329). -/
def regenCopy (s : State) (n tensor leaf : Nat) : State :=
  match (fnSt s n).manifest with
  | none => s
  | some m => ((stateRows (fnSt s n)).filter (fun q => decide (q.2.binding.tensor = tensor) && decide (q.2.index = leaf))).foldl
      (fun s q =>
        let slot := slotRead s n 0 0 q.1
        if pmKind slot ≠ 1 then s
        else if m.d = 0 then emitWcAt s n m q.2 (slotBody slot) (pmStamp slot) 0
        else emitWcAt s n m q.2 (slotBody slot) ((fnSt s n).step - 1) ((fnSt s n).step % 2)) s

/-- What an uncorrectable line's owner loses (Table 12.2, R330). -/
def ownerLost (s : State) (owner : BlockOwner) (imgs : RowImages) : State :=
  match owner with
  | .slot n m area gen row _ => eraseAndDecode s n m area gen row imgs
  | .copy n tensor leaf => regenCopy s n tensor leaf
  | .reserve other => if other then s else todo s (.withdraw 3)
  | .spare => s
  | .none => s

/-- CHANNEL_RESUME: the block is read again, the error's policy applies, and the channel resumes (R331). -/
def channelResume (s : State) (ch : Nat) (raw : List Byte) (imgs : RowImages) : State :=
  match s.integ.halted.find? (fun h => decide (h.ch = ch)) with
  | none => s
  | some h =>
    if chanBit s SL_LINE_STATUS_FAILED ch then s else
    let b := decodeBlock ch h.block (storedRaw s ch h.block raw)
    let s := setChan (modInteg s (fun i => { i with halted := i.halted.erase h })) SL_LINE_STATUS_HALTED ch false
    if b.ue ≠ 0 then
      ownerLost (modInteg s (fun i => { i with blocks := tabPut i.blocks (blockAddr ch h.block) none })) h.owner imgs
    else if b.ce ≠ 0 ∧ watched s ch = false ∧ s.integ.fixes.all (fun q => decide (q.ch ≠ ch ∨ q.block ≠ h.block)) = true then
      modInteg s (fun i => { i with fixes := i.fixes ++ [⟨ch, h.block, b.symbols, false⟩] })
    else s

/-! ### Write-back and remap (R340, R342) -/

/-- CE_WRITEBACK: the corrected block is written back; a scheduled write that reached the block first cancels it. -/
def ceWriteback (s : State) (ch block : Nat) (overwritten : Bool) : State :=
  match s.integ.fixes.find? (fun q => decide (q.ch = ch) && decide (q.block = block) && !q.written) with
  | none => s
  | some q =>
    if overwritten then modInteg s (fun i => { i with fixes := i.fixes.erase q })
    else modInteg s (fun i => { i with
      fixes := i.fixes.map (fun r => if r = q then { r with written := true } else r),
      blocks := match tabFind i.blocks (blockAddr ch block) with
        | some raw => tabPut i.blocks (blockAddr ch block) (some (blockBytes ch block (decodeBlock ch block raw).lines))
        | none => i.blocks })

/-- Register offset of remap entry `e` of a global channel (Table 12.13). -/
def remapAt (ch e : Nat) : Nat := pgSlice (ch / 4) + 0x400 + 4 * (16 * (ch % 4) + e)

/-- Write a remap entry that is not valid: the block's corrected contents move to the spare block. -/
def remapEntry (s : State) (ch e : Nat) (v : Nat) : State :=
  if bit (wordAt s (remapAt ch e)).toNat 31 then s else
  let s := setWord s (remapAt ch e) (BitVec.ofNat 32 (v % 2 ^ 23 + if bit v 31 then 2 ^ 31 else 0))
  if bit v 31 then modInteg s (fun i => { i with
                                                 blocks := tabPut i.blocks (blockAddr ch (v % 2 ^ 23)) none,
                                                 fixes := i.fixes.filter (fun q => decide (q.ch ≠ ch ∨ q.block ≠ v % 2 ^ 23)) }) else s

/-- A hard fault is remapped, or finds the table full (R342). -/
def hardFault (s : State) (ch block : Nat) : State :=
  match (List.range 16).find? (fun e => !bit (wordAt s (remapAt ch e)).toNat 31) with
  | some e => remapEntry s ch e (2 ^ 31 + block)
  | none =>
    let s := errSlice (setChan s SL_LINE_STATUS_REMAP_FULL ch true) HDR_ERR_SUMMARY_LINE (ch / 4)
    let s := modInteg s (fun i => { i with unmapped := if i.unmapped.contains (ch, block) then i.unmapped else i.unmapped ++ [(ch, block)] })
    logWrite (postEvent s 0 0x0076 (leBytes 1 ch)) 8 (leBytes 1 ch)

/-- HARD_FAULT_CHECK: the block is read again after its write-back; an error at the same symbol is hard (R340). -/
def hardFaultCheck (s : State) (ch block : Nat) (raw : List Byte) : State :=
  match s.integ.fixes.find? (fun q => decide (q.ch = ch) && decide (q.block = block) && q.written) with
  | none => s
  | some q =>
    let s := modInteg s (fun i => { i with fixes := i.fixes.erase q })
    let b := decodeBlock ch block (storedRaw s ch block raw)
    if b.symbols.any (fun k => q.symbols.contains k) then hardFault s ch block else s

/-- CLEAR_REMAP: entries of one channel by MASK, and how many were cleared. -/
def clearRemap (s : State) (ch mask : Nat) : State × Nat :=
  let es := (List.range 16).filter (fun e => bit mask e && bit (wordAt s (remapAt ch e)).toNat 31)
  (es.foldl (fun s e => setWord s (remapAt ch e) 0) s, es.length)

/-! ### Checker test mode (R343) -/

/-- Store a block in the slice's checker buffer, and read the buffer. -/
def setChkBuf (s : State) (sl : Nat) (raw : List Byte) : State := wordsAt s (pgSlice sl + 0x800) (fit 1024 raw) 256
def chkBuf (s : State) (sl : Nat) : List Byte :=
  ((List.range 256).map (fun i => leBytes 4 (wordAt s (pgSlice sl + 0x800 + 4 * i)).toNat)).flatten

/-- The operation is refused for what the block holds. -/
def chkRefused (s : State) (owner : BlockOwner) : Bool :=
  let busy := fun (n : Nat) => decide (stateOf s n = 2 ∨ stateOf s n = 3) && decide (n ≠ 0)
  match owner with
  | .slot n _ _ _ _ _ => busy n
  | .copy n _ _ => busy n
  | .reserve _ => true
  | .spare => true
  | .none => false

/-- The data lines that the checker writes into a slot's block. -/
def rawToSlot (s : State) (owner : BlockOwner) (raw : List Byte) : State :=
  match owner with
  | .slot n m area gen row a =>
    match (fnSt s n).manifest with
    | none => s
    | some mf =>
      let base := if (fnSt s n).self = m then rangeAddr n (slotOffset mf area gen row) else frameAddr n m area gen row
      (List.range 15).foldl (fun s i => if a + 64 * i + 64 ≤ 65536 then
        { s with deep := memWriteN s.deep (base + a + 64 * i) ((raw.drop (64 * i)).take 64) } else s) s
  | _ => s

/-- GO with OP 0 to 2 on the block that CHK_ADDR names; `raw` is what the block holds as stored, `owner` what it is of. -/
def checkerOp (s : State) (sl op : Nat) (raw : List Byte) (owner : BlockOwner) : State :=
  let pg := pgSlice sl
  let s := setF s pg SL_CHK_CTRL_OP op
  if getF s pg SL_CHK_CTRL_ENABLE = 0 then s else
  let ch := 4 * sl + getF s pg SL_CHK_ADDR_CHANNEL
  let block := getF s pg SL_CHK_ADDR_BLOCK
  if chkRefused s owner || decide (3 ≤ op) then setF s pg SL_CHK_CTRL_STATUS 1
  else
    let s := setF s pg SL_CHK_CTRL_STATUS 0
    let here := storedRaw s ch block raw
    if op = 0 then setChkBuf s sl here
    else if op = 1 then
      let buf := chkBuf s sl
      rawToSlot (modInteg s (fun i => { i with blocks := tabPut i.blocks (blockAddr ch block) (some buf) })) owner buf
    else
      let b := decodeBlock ch block here
      let s := setChkBuf s sl ((b.lines.map (fun l => l.data)).flatten ++ here.drop 960)
      let s := setF s pg SL_CHK_CTRL_SYMBOLS (if b.ue ≠ 0 then 3 else b.most)
      let s := if b.ue ≠ 0 then setF s pg SL_CHK_CTRL_STATUS 2 else s
      readBlock s ch block here owner

/-! ### The Drone (R344, R345) -/

/-- Background work is paused: in HOLD (Table 11.9) and by the soft power cap (R416). -/
def backgroundPaused (s : State) : Bool := holding s || s.pwr.paused

/-- The data lap's lateness, posted once (R344). -/
def dataLate (s : State) : State :=
  let lim := getF s pgDrone DRONE_CTRL_LAP_LIMIT
  let t := (s.ticks - s.integ.lapAt) / 800000000
  if lim ≠ 0 ∧ s.integ.lapLate = false ∧ lim * 48000000000 < s.ticks - s.integ.lapAt then
    postEvent (flagF (modInteg s (fun i => { i with lapLate := true })) pgDrone DRONE_STATUS_DRONE_LAP_LATE) 0 0x0077
      ([0] ++ leBytes 4 t)
  else s

/-- DRONE_BLOCK_READ: the next block of a channel's lap; the last one of all ends the lap. -/
def droneRead (s : State) (ch : Nat) (raw : List Byte) (owner : BlockOwner) : State :=
  if getF s pgDrone DRONE_CTRL_ENABLE = 0 ∨ getF s pgDrone DRONE_CTRL_RATE = 0 ∨ backgroundPaused s = true ∨
      chanBit s SL_LINE_STATUS_HALTED ch = true ∨ chanBit s SL_LINE_STATUS_FAILED ch = true ∨ 2 ^ 23 ≤ tabGet 0 s.integ.lapNext ch then s
  else
    let block := tabGet 0 s.integ.lapNext ch
    let s := modInteg s (fun i => { i with lapNext := tabSet 0 i.lapNext ch (block + 1) })
    let s := dataLate (readBlock s ch block raw owner)
    let read := ((List.range 64).map (fun c => tabGet 0 s.integ.lapNext c)).sum
    if read = 64 * 2 ^ 23 then
      let s := setF s pgDrone DRONE_LAPS_DATA_LAP (min ((s.ticks - s.integ.lapAt) / 800000000) 0xFFFF)
      setF (modInteg s (fun i => { i with lapNext := [], lapAt := s.ticks, lapLate := false })) pgDrone DRONE_STATUS_DATA_PROGRESS 0
    else setF s pgDrone DRONE_STATUS_DATA_PROGRESS (read * 1000 / (64 * 2 ^ 23))

/-- Verify a row by R62; slots not rebuilt here count as lost (R275). -/
def verifyAt (s : State) (n area gen j : Nat) (imgs : RowImages) : RowResult :=
  if (unrebuiltAt (fnSt s n) area gen j).isEmpty then verifyRow s n area gen j imgs else rebuildRow s n area gen j imgs [] false

/-- Some leaf of the row is in the intent ledger, or a reservation holds the row: its verification waits (R60, R62). -/
def verifyWaits (s : State) (n area gen j : Nat) : Bool :=
  rowReserved s n area gen j ||
    (decide (area = 0) && (fnSt s n).work.any (fun w => decide (w.area = 0) && decide (w.row = j) && w.reg && !w.written))

/-- VERIFY_ROW: the next row of VERIFY_ROWS (R62). -/
def verifyNext (s : State) (n : Nat) (imgs : RowImages) : State :=
  match (fnSt s n).verify with
  | none => s
  | some v =>
    if !actsRunning s n ∨ holding s then s else
    if v.left ≠ 0 ∧ verifyWaits s n v.area v.gen v.next then s else
    let r : RowResult := if v.left = 0 then ⟨s, 0, 0, false⟩ else verifyAt s n v.area v.gen v.next imgs
    let v : VerifyJob := { v with
      next := v.next + 1, left := v.left - 1, verified := v.verified + b2n (decide (v.left ≠ 0)), reencoded := v.reencoded + r.reencoded,
      decoded := v.decoded + r.decoded, lost := v.lost + b2n r.lost }
    let s := modFn r.state n (fun x => { x with verify := if v.left = 0 then none else some v })
    if v.left = 0 then
      let c := fun k => min k 0xFFFF
      bgComplete (setFnF s n FN_CODE_STATUS_VERIFYING 0) n 0x06 (if v.lost ≠ 0 then 8 else 0)
        (c v.verified * 2 ^ 48 + c v.reencoded * 2 ^ 32 + c v.decoded * 2 ^ 16 + c v.lost)
    else s

/-- The parity lap of a function pauses (R345). -/
def parityPaused (s : State) (n : Nat) : Bool :=
  let x := fnSt s n
  !x.unrebuilt.isEmpty || !x.proxies.isEmpty || x.copy.isSome || !x.copied.isEmpty || x.members.any (fun m => !m.live) ||
    (List.range 64).any (fun k => bgRunning s k 0x1B) || backgroundPaused s

/-- The rows that a member verifies: those whose pigeonhole of parity index 0 it holds (R345). -/
def lapRow (x : FnSt) (m : Manifest) (g : GroupEntry) (j : Nat) : Bool := decide (j < m.stripeRows) && decide (holeMember g j 0 = x.self)

/-- The functions that take part in the parity lap. -/
def lapFns (s : State) : List Nat := (List.range 64).filter (fun n => decide (n ≠ 0) && decide (stateOf s n = 2) && decide ((fnSt s n).role = 1))

/-- PARITY_LAP_ROW: the function's next row of the parity lap; when every function has done its rows the lap ends. -/
def parityRow (s : State) (n : Nat) (imgs : RowImages) : State :=
  let x := fnSt s n
  match x.manifest, grpOf x with
  | some m, some g =>
    if getF s pgDrone DRONE_CTRL_PARITY = 0 ∨ (lapFns s).contains n = false ∨ parityPaused s n = true then s else
    let from_ := tabGet 0 s.integ.rowNext n
    match (List.range g.n).find? (fun i => lapRow x m g (from_ + i)) with
    | none => s
    | some i =>
      let j := from_ + i
      if verifyWaits s n 0 0 j then s else
      let s := (verifyAt s n 0 0 j imgs).state
      let s := modInteg s (fun q => { q with rowNext := tabSet 0 q.rowNext n (j + 1) })
      let lim := getF s pgDrone DRONE_PARITY_PARITY_LIMIT
      let t := s.ticks - s.integ.rowsAt
      let s := if lim ≠ 0 ∧ s.integ.rowsLate = false ∧ lim * 2880000000000 < t then
          postEvent (flagF (modInteg s (fun q => { q with rowsLate := true })) pgDrone DRONE_STATUS_PARITY_LAP_LATE) 0 0x0077
            ([1] ++ leBytes 4 (t / 48000000000))
        else s
      let rowsOf := fun (k : Nat) => match (fnSt s k).manifest with | some m => m.stripeRows | none => 0
      let doneOf := fun (k : Nat) => min (tabGet 0 s.integ.rowNext k) (rowsOf k)
      let left := (lapFns s).any (fun k => match (fnSt s k).manifest, grpOf (fnSt s k) with
        | some m, some g => (List.range g.n).any (fun i => lapRow (fnSt s k) m g (tabGet 0 s.integ.rowNext k + i))
        | _, _ => false)
      if left then
        setF s pgDrone DRONE_STATUS_PARITY_PROGRESS (((lapFns s).map doneOf).sum * 1000 / max 1 ((lapFns s).map rowsOf).sum)
      else
        let s := setF s pgDrone DRONE_LAPS_PARITY_LAP (min (t / 48000000000) 0xFFFF)
        setF (modInteg s (fun q => { q with rowNext := [], rowsAt := s.ticks, rowsLate := false })) pgDrone DRONE_STATUS_PARITY_PROGRESS 0
  | _, _ => s

/-- ERASURE_REENCODE: after the group seal of the step, a pigeonhole with an erasure mark is encoded again (R335). -/
def erasureReencode (s : State) (n area gen j : Nat) (imgs : RowImages) : State :=
  let x := fnSt s n
  match grpOf x with
  | none => s
  | some g =>
    let marked := (List.range g.r).any (fun p => heldHere x (holeMember g j p) j && decide (pmKind (heldSlot s n (holeMember g j p) area gen j) = 0xFF))
    if marked ∧ (x.groupDone = true ∨ x.passOn = false) ∧ rowReserved s n area gen j = false then (verifyAt s n area gen j imgs).state else s

/-! ### Near-tier reads (Table 12.4) and receipts (R338) -/

/-- NEAR_READ_COMPLETE: corrected data changes nothing; an uncorrectable line is handled by its region. -/
def nearReadDone (s : State) (r : NearRegion) (uncorrectable : Bool) (imgs : RowImages) : State :=
  if !uncorrectable then s else
  match r with
  | .landing n => todo s (.integrity n.val 1)
  | .rowList n => todo s (.integrity n.val 3)
  | .ledger sl c e =>
    let a := sl.val * 4194304 + c.val * 131072 + 32 * e.val
    let b := nearRead s a 32
    nearWrite s a (setField b 0x1C 4 ((crc64 (b.take 0x1C) + 1) % 2 ^ 32))
  | .page owner => ownerLost s owner imgs
  | .push i =>
    match s.pushes[i]? with
    | some p => sweepMark { s with pushes := s.pushes.erase p } p.fn p.ordinal indexAbsent
    | none => s
  | .window => s

/-- RECEIPT_TIMEOUT: the oldest wait of a function has lasted RECEIPT_LIMIT (R338). -/
def receiptTimeout (s : State) (n : Nat) : State :=
  let lim := forceF s n FN_INTEG_CTRL_RECEIPT_LIMIT
  let open_ := s.waits.filter (fun w => decide (w.fn = n) && w.sent && !w.allDone)
  match open_ with
  | [] => s
  | w :: ws =>
    let t := ws.foldl (fun t w => min t w.sentAt) w.sentAt
    if lim = 0 ∨ (fnSt s n).hold.isSome = true ∨ actsRunning s n = false then s
    else todo (advanceTo s (t + lim * 800000)) (.integrity n 5)

/-! ### Audits (R349, R350) -/

/-- A slice's audits late, counted. -/
def auditLateCount (s : State) (sl : Nat) : State := errSlice (addF s (pgSlice sl) SL_AUDIT_STATUS_LATE 1) HDR_ERR_SUMMARY_AUDIT sl

/-- The audit buffer is free. -/
def auditFree (s : State) (sl : Nat) : State := modInteg s (fun i => { i with audits := tabPut i.audits sl none })

/-- AUDIT_SELECT: the leaf run in progress on a core is chosen and copied, unless R349 excludes it. -/
def auditSelect (s : State) (sl c : Nat) : State :=
  match (coreSt s (coreIx sl c)).run with
  | none => s
  | some r =>
    let x := fnSt s r.fn
    let nd : Bool := match x.progs with
      | some p => (((classOf p r.tensor).bind (classProg p)).map (fun q => q.2.nd)).getD false
      | none => false
    if getF s pgDrone DRONE_AUDIT_ENABLE = 0 ∨ r.prelude = true ∨ nd = true ∨ x.reran = true ∨ r.fetchUe = true ∨ r.dataUe = true ∨
        r.droppedAt.isSome = true then s
    else if (tabFind s.integ.audits sl).isSome then auditLateCount s sl
    else modInteg s (fun i => { i with audits := tabPut i.audits sl (some ⟨r.fn, c, r.tensor, r.leafIndex, x.step, s.ticks, none, none⟩) })

/-- The first core in the order c + k, c + k + 1, … that has not failed and is none of `out`. -/
def auditCore (s : State) (sl c k : Nat) (out : List Nat) : Option Nat :=
  ((List.range 32).map (fun i => (c + k + i) % 32)).find? (fun d => !coreFailed s (coreIx sl d) && !out.contains d)

/-- The auditor of a core. -/
def auditorOf (s : State) (sl c : Nat) : Option Nat := auditCore s sl c 8 [c, c ^^^ 1]

/-- Two results agree (R350). -/
def sameRes (a b : AuditRes) : Bool := decide (a.digest = b.digest) && decide (a.ext = b.ext) && decide (a.trap = b.trap)

/-- An audit has been compared. -/
def auditCounted (s : State) (sl : Nat) : State := auditFree (addF s (pgSlice sl) SL_AUDIT_STATUS_AUDITS 1) sl

/-- AUDITOR_RUN: the auditor's results against the original's. -/
def auditorRun (s : State) (sl : Nat) (r : AuditRes) : State :=
  match tabFind s.integ.audits sl with
  | some a =>
    match a.orig, auditorOf s sl a.core with
    | some o, some _ =>
      if a.second.isSome then s
      else if sameRes o r then auditCounted s sl
      else modInteg s (fun i => { i with audits := tabPut i.audits sl (some { a with second := some r }) })
    | _, _ => s
  | none => s

/-- AUDIT_FAULT: the audited core is failed, and the fault is recorded (R350). -/
def auditFault (s : State) (sl : Nat) (a : Audit) (line : Nat) : State :=
  let s := setF (setF (flagF s (pgSlice sl) SL_AUDIT_STATUS_FAULT) (pgSlice sl) SL_AUDIT_STATUS_CORE a.core) (pgSlice sl) SL_AUDIT_STATUS_LINE line
  let s := errSlice (flagF s (pgFn a.fn) FN_INTEG_STATUS_AUDIT_FAULT) HDR_ERR_SUMMARY_AUDIT sl
  let p := leBytes 4 a.tensor ++ leBytes 4 a.leaf ++ leBytes 8 a.step ++ leBytes 1 sl ++ leBytes 1 a.core ++ leBytes 2 line
  failCore (logWrite (postEvent (postEvent s a.fn 0x0071 p) 0 0x0071 p) 9 p) (coreIx sl a.core) 0

/-- REFEREE_RUN: the referee decides which core failed (R350). -/
def refereeRun (s : State) (sl : Nat) (r : AuditRes) : State :=
  match tabFind s.integ.audits sl with
  | some a =>
    match a.orig, a.second, auditorOf s sl a.core with
    | some o, some b, some d =>
      if (auditCore s sl a.core 16 [a.core, a.core ^^^ 1, d]).isNone then s
      else
        let s := auditCounted s sl
        if sameRes r o then failCore s (coreIx sl d) 0
        else if sameRes r b then auditFault s sl a b.line
        else postEvent (errSlice (flagF s (pgSlice sl) SL_AUDIT_STATUS_UNRESOLVED) HDR_ERR_SUMMARY_AUDIT sl) 0 0x0072 (leBytes 1 sl ++ leBytes 1 a.core)
    | _, _, _ => s
  | none => s

/-- AUDIT_TIMEOUT: an audit not compared within AUDIT_LIMIT is dropped (R350). -/
def auditTimeout (s : State) (sl : Nat) : State :=
  let lim := getF s pgDrone DRONE_AUDIT_AUDIT_LIMIT
  match tabFind s.integ.audits sl with
  | some a =>
    if lim = 0 then s else
    let s := auditFree (auditLateCount (advanceTo s (a.since + lim * 800000)) sl) sl
    if s.integ.auditLate.contains sl then s
    else postEvent (modInteg s (fun i => { i with auditLate := i.auditLate ++ [sl] })) 0 0x0073 (leBytes 1 sl)
  | none => s

end Sys2Proof.Machine
end

