-- ==== Sys2Proof/Machine/RegWrite.lean ====
section
/-!
DEFINITION. A write of one register word by its fields' access types (R12, R13), without the rows that some fields have of
their own, and the field values that the chapters ignore.
-/

namespace Sys2Proof.Machine

/-- Keep bits `hi:lo` of the old word where the new field value is not in range. -/
def keepUnless (ok : Nat → Bool) (hi lo old new : Nat) : Nat :=
  let f : Fld := ⟨0, hi, lo⟩
  if ok (fldOf f new) then new else putFld f new (fldOf f old)

/-- A cap or share in percent: 1 to 100 (Tables 8.19 and 8.20: other values are ignored). -/
def percentOk (v : Nat) : Bool := decide (1 ≤ v) && decide (v ≤ 100)

/-- A word whose out-of-range fields have been put back to what they held: the caps and the share of the port, and the wheel
length (R172). -/
def keepFields (a old new : Nat) : Nat :=
  if a = pgPort + 0x04C then
    keepUnless percentOk 31 24 old (keepUnless percentOk 23 16 old (keepUnless percentOk 15 8 old (keepUnless percentOk 7 0 old new)))
  else if a = pgPort + 0x050 then
    keepUnless percentOk 23 16 old (keepUnless percentOk 15 8 old (keepUnless percentOk 7 0 old new))
  else if a = pgPort + 0x054 then keepUnless percentOk 6 0 old new
  else if a = pgWheel + 0x040 then keepUnless (fun v => decide (8 ≤ v) && decide (v ≤ 12)) 31 28 old new
  else new

/-- The word that a write of `v` leaves: RW and RWS fields take it, ones clear W1C fields, and every other field stays. -/
def writtenWord (d : RegDesc) (a old v : Nat) : Nat :=
  let mask := d.rw ||| d.rws
  keepFields a old (((old &&& (0xFFFFFFFF ^^^ mask)) ||| (v &&& mask)) &&& (0xFFFFFFFF ^^^ (v &&& d.w1c)))

/-- Write a register's RW, RWS and W1C fields. -/
def plainWrite (s : State) (a v : Nat) : State :=
  match pageAt a with
  | none => s
  | some (k, _) =>
    match descAt k (a % 4096) with
    | none => s
    | some d => setWord s a (BitVec.ofNat 32 (writtenWord d a (wordAt s a).toNat v))

end Sys2Proof.Machine
end

