-- ==== Sys2Proof/Machine/Nvm.lean ====
section
/-!
DEFINITION. The configuration store, the key table, firmware images and the boot record, and the live firmware update
(R379 to R401).
-/

namespace Sys2Proof.Machine

/-- Change the MRAM record. -/
def modNvm (s : State) (f : NvmSt → NvmSt) : State := { s with nvm := f s.nvm }

/-! ### The configuration store (R381 to R386) -/

/-- Bytes of an item's body (Table 14.3). -/
def itemBytes (i : Nat) : Nat := [0, 24, 4096, 1032, 8, 16, 32, 8, 8, 8].getD i 0

/-- The persistent items. -/
def itemCodes : List Nat := [1, 2, 3, 4, 5, 6, 7, 8, 9]

/-- The window offsets of an item's words in order; none is a zero word. -/
def itemWords (i : Nat) : List (Option Nat) :=
  if i = 1 then [some (pgPort + 0x044), some (pgPort + 0x048), some (pgPort + 0x04C), some (pgPort + 0x050), some (pgPort + 0x054), none]
  else if i = 2 then ((List.range 16).map (fun sl => (List.range 64).map (fun e => some (pgSlice sl + 0x400 + 4 * e)))).flatten
  else if i = 3 then some (pgDrone + 0x054) :: none :: (List.range 256).map (fun k => some (pgDrone + 0x800 + 4 * k))
  else if i = 4 then [some (pgPort + 0x07C), none]
  else if i = 5 then [some (pgDrone + 0x040), some (pgDrone + 0x04C), some (pgDrone + 0x050), none]
  else if i = 6 then [some (pgClkpwr + 0x064), some (pgClkpwr + 0x068), some (pgClkpwr + 0x04C), none, none, none, none, none]
  else if i = 7 then [some (pgWheel + 0x040), some (pgFife + 0x040)]
  else if i = 8 then [some (pgFloor + 0x048), none]
  else if i = 9 then [some (pgNvm + 0x048), none]
  else []

/-- A stored word: write-only fields read as zero, and UPDATE_LOCK is written as zero. -/
def captureWord (s : State) (a : Option Nat) : List Byte :=
  match a with
  | none => zeros 4
  | some a => leBytes 4 ((wordAt s a).toNat % (if a = pgNvm + 0x048 then 2 ^ 31 else 2 ^ 32))

/-- The body of an item at this instant. -/
def captureItem (s : State) (i : Nat) : List Byte := ((itemWords i).map (captureWord s)).flatten

/-- Bytes that a record takes in a half. -/
def recordBytes (len : Nat) : Nat := 32 + roundUp len 32

/-- Bytes used in the active half, its header included. -/
def halfUsed (s : State) : Nat := s.nvm.recs.foldl (fun n r => n + recordBytes r.body.length) 64

/-- The record fits in the active half. -/
def recordFits (s : State) (body : List Byte) : Bool := decide (halfUsed s + recordBytes body.length ≤ 0x40000)

/-- Begin to write the next record of the oldest command, compacting first where it does not fit. -/
def beginWrite (s : State) : State :=
  match s.nvm.jobs with
  | [] => setF (modNvm s (fun q => { q with writing := false })) pgNvm NVM_STATUS_BUSY 0
  | j :: _ =>
    match j.left with
    | [] => s
    | r :: _ =>
      let s := setF (modNvm s (fun q => { q with writing := true })) pgNvm NVM_STATUS_BUSY 1
      if recordFits s r.2 then s else setF s pgNvm NVM_STATUS_COMPACTING 1

/-- An NVM_STORE or NVM_CLEAR is accepted: all named items are captured at this instant (R384). -/
def storeStart (s : State) (op mask : Nat) : State :=
  let items := itemCodes.filter (fun i => bit mask i)
  if items = [] then bgComplete s 0 op 0 0
  else
    let job : NvmJob := ⟨op, mask, items.map (fun i => (i, if op = 0x30 then captureItem s i else [])), 0⟩
    let idle := s.nvm.jobs.isEmpty
    let s := modNvm s (fun q => { q with jobs := q.jobs ++ [job] })
    if idle then beginWrite s else s

/-- The newest record of every item. -/
def newestRecs (rs : List CfgRec) : List CfgRec := rs.filter (fun r => rs.all (fun q => decide (q.item ≠ r.item) || decide (q.seq ≤ r.seq)))

/-- A compaction commits with the header of the other half (R382). -/
def compacted (s : State) : State :=
  let g := s.nvm.generation + 1
  let s := modNvm s (fun q => { q with half := 1 - q.half, generation := g, recs := newestRecs q.recs })
  logWrite (setF (setF s pgNvm NVM_STATUS_HALF s.nvm.half) pgNvm NVM_STATUS_COMPACTING 0) 5 (leBytes 8 g)

/-- The record in progress commits with its SEQ (R381). -/
def recordWritten (s : State) : State :=
  match s.nvm.jobs with
  | [] => s
  | j :: rest =>
    match j.left with
    | [] => s
    | (i, body) :: more =>
      let q := s.nvm.seq + 1
      let s := modNvm s (fun x => { x with
        seq := q, recs := x.recs ++ [⟨i, body, q⟩],
        jobs := if more.isEmpty then rest else { j with left := more, done_ := j.done_ + 1 } :: rest })
      let s := setF s pgNvm NVM_STORE_SEQ_SEQ q
      if more.isEmpty then
        let s := if j.op = 0x30 then logWrite s 4 (leBytes 2 j.mask ++ zeros 6 ++ leBytes 8 q) else s
        bgComplete s 0 j.op 0 (j.done_ + 1)
      else s

/-- MRAM_WRITE_DONE: the write in progress reaches its commit point, and the next begins; in HOLD no further record begins
(R386). -/
def mramWriteDone (s : State) : State :=
  if s.nvm.jobs.isEmpty then s
  else if !s.nvm.writing && holding s then s
  else
    let s := if s.nvm.writing then s else beginWrite s
    let s := if getF s pgNvm NVM_STATUS_COMPACTING = 1 then compacted s else recordWritten s
    if holding s then setF (modNvm s (fun q => { q with writing := false })) pgNvm NVM_STATUS_BUSY 0 else beginWrite s

/-- A loaded word takes its register's place: remap entries and the watch log as stored, another as a write would (R385). -/
def loadWord (s : State) (a v : Nat) : State :=
  if pgSlice 0 ≤ a ∧ a < pgSlice 16 then setWord s a (BitVec.ofNat 32 (v &&& 0x807FFFFF))
  else if pgDrone + 0x800 ≤ a ∧ a < pgDrone + 0xC00 then setWord s a (BitVec.ofNat 32 v)
  else plainWrite s a v

/-- Load an item from its newest record (R385). -/
def loadItem (s : State) (i : Nat) : State :=
  match (newestRecs s.nvm.recs).find? (fun r => r.item = i) with
  | none => s
  | some r =>
    if r.body = [] then s
    else if r.body.length ≠ itemBytes i then
      errUnit (setF s pgNvm NVM_STATUS_LOAD_ERRORS (putBit (getF s pgNvm NVM_STATUS_LOAD_ERRORS) i true)) HDR_ERR_SUMMARY_NVM pgNvm
    else
      (List.zip (List.range (itemWords i).length) (itemWords i)).foldl (fun s q =>
        match q.2 with | some a => loadWord s a (field r.body (4 * q.1) 4) | none => s) s

/-- The configuration store is loaded at chip reset (R385). -/
def loadConfig (s : State) : State :=
  let s := itemCodes.foldl loadItem s
  let n := ((List.range 64).filter (fun i => decide (logWord s i 2 ≠ 0))).length
  let s := setF s pgDrone DRONE_LOG_STATUS_ENTRIES n
  setF (setF s pgNvm NVM_STATUS_HALF s.nvm.half) pgNvm NVM_STORE_SEQ_SEQ s.nvm.seq

/-! ### Keys (R388) -/

/-- The hash that a key slot holds. -/
def keyHash (k : KeySlot) : Nat := k.hash.getD Config.factoryKey

/-- Some ACTIVE slot holds the hash. -/
def keyActive (s : State) (h : Nat) : Bool := s.nvm.keys.any (fun k => decide (k.state = 1) && decide (keyHash k = h))

/-- Show the key table. -/
def showKeys (s : State) : State :=
  setF s pgNvm NVM_KEY_STATUS_STATE ((List.range 4).foldl (fun v i => v + 4 ^ i * (s.nvm.keys.getD i ⟨0, some 0⟩).state) 0)

/-- A key slot takes a new state: the table is written and logged. -/
def putKey (s : State) (i : Nat) (k : KeySlot) : State :=
  logWrite (showKeys (modNvm s (fun q => { q with keys := q.keys.set i k }))) 6 (leBytes 1 i ++ leBytes 1 k.state)

/-- KEY_ADD on a key record: the state, the status and the DETAIL. -/
def keyAdd (s : State) (b : List Byte) : State × Nat × Nat :=
  let sl := field b 4 1
  let zero := allZero ((b.drop 5).take 3) && allZero ((b.drop 0x69).take 7) && allZero ((b.drop 0xD1).take 15)
  let signer := (b.drop 0x70).take 97
  if field b 0 4 = 0x1A5E4B01 ∧ sl ≤ 3 ∧ zero = true ∧ (s.nvm.keys.getD sl ⟨2, none⟩).state = 0 ∧ keyActive s (sha384 signer) = true ∧
      ecdsaOk signer (sha384 (b.take 0xE0)) (beVal ((b.drop 0xE0).take 48)) (beVal ((b.drop 0x110).take 48)) = true then
    (putKey s sl ⟨1, some (sha384 ((b.drop 8).take 97))⟩, 0, sl)
  else (s, 1, 0)

/-! ### Images (R389) -/

/-- The header of an image, its size, and its last 256 bytes. -/
def fwHeader (m : Mem) : List Byte := memReadN m 0 256
def fwBytes (m : Mem) : Nat := field (fwHeader m) 8 4
def fwSigBlock (m : Mem) : List Byte := memReadN m (fwBytes m - 256) 256

/-- The digest of an image. -/
def fwDigest (m : Mem) : Nat := sha384 (memReadN m 0 (fwBytes m - 256))

/-- A header is acceptable in form (Table 14.8). -/
def headerForm (h : List Byte) : Bool :=
  let n := field h 8 4
  let inside := fun (o l : Nat) => decide (256 ≤ o) && decide (o + l ≤ n - 256)
  let so := field h 0x14 4
  let sb := field h 0x18 4
  let mo := field h 0x1C 4
  let mb := field h 0x20 4
  decide (field h 0 4 = 0x1A5EF200) && decide (field h 4 2 = 1) && decide (field h 6 1 < 4) && decide (field h 7 1 = 0) &&
    decide (field h 0x12 2 = 0) && allZero (h.drop 0x24) && decide (n % 4096 = 0) && decide (8192 ≤ n) && decide (n ≤ 1572864) &&
    inside so sb && inside mo mb && (decide (so + sb ≤ mo) || decide (mo + mb ≤ so))

/-- Why an image is not acceptable: 0 it is, 1 form, 2 variant, 3 SVN, 4 key, 5 signature (R389, R393). -/
def imageCode (s : State) (m : Mem) : Nat :=
  let h := fwHeader m
  let g := fwSigBlock m
  if !headerForm h || !allZero ((g.drop 0x61).take 15) || !allZero (g.drop 0xD0) then 1
  else if !bit (field h 6 1) (match s.variant with | .F => 0 | .C => 1) then 2
  else if field h 0x10 2 < s.nvm.boot.minSvn then 3
  else if !keyActive s (sha384 (g.take 97)) then 4
  else if !ecdsaOk (g.take 97) (fwDigest m) (beVal ((g.drop 0x70).take 48)) (beVal ((g.drop 0xA0).take 48)) then 5
  else 0

/-! ### The boot record (R390) -/

/-- FW_VERSION and SVN of a slot's image. -/
def slotVersion (s : State) (k : Nat) : Nat :=
  match tabFind s.nvm.slots k with
  | some m => field (fwHeader m) 0xC 4
  | none => if k = 0 then Config.factoryVersion % 2 ^ 32 else 0
def slotSvn (s : State) (k : Nat) : Nat :=
  match tabFind s.nvm.slots k with
  | some m => field (fwHeader m) 0x10 2
  | none => if k = 0 then Config.factorySvn % 2 ^ 16 else 0

/-- The hash of the key that signed a slot's image. -/
def slotSigner (s : State) (k : Nat) : Nat :=
  match tabFind s.nvm.slots k with
  | some m => sha384 ((fwSigBlock m).take 97)
  | none => Config.factoryKey

/-- State and recorded digest of a slot. -/
def bootState (b : BootRec) (k : Nat) : Nat := if k = 0 then b.state0 else b.state1
def bootDigest (b : BootRec) (k : Nat) : Option Nat := if k = 0 then b.digest0 else b.digest1
def bootSlot (b : BootRec) (k st : Nat) (dig : Option Nat) : BootRec :=
  if k = 0 then { b with state0 := st, digest0 := dig } else { b with state1 := st, digest1 := dig }

/-- The slot that holds neither role, which while a trial is open is the active slot. -/
def inactiveSlot (b : BootRec) : Nat := if b.trial.isSome then b.active else 1 - b.active

/-- Show the boot record. -/
def showBoot (s : State) : State :=
  let b := s.nvm.boot
  let s := setF (setF s pgNvm NVM_FW_STATUS_SLOT0 b.state0) pgNvm NVM_FW_STATUS_SLOT1 b.state1
  setF (setF s pgNvm NVM_FW_STATUS_TRIAL_LEFT b.trialLeft) pgNvm NVM_SVN_MIN_SVN b.minSvn

/-- Write the boot record (R380). -/
def putBoot (s : State) (b : BootRec) : State := showBoot (modNvm s (fun q => { q with boot := { b with seq := q.boot.seq + 1 } }))

/-- The slot passes: its image is acceptable and has the recorded digest (R391). -/
def slotPasses (s : State) (k : Nat) : Bool :=
  let b := s.nvm.boot
  match tabFind s.nvm.slots k with
  | some m => decide (imageCode s m = 0) && decide (bootDigest b k = some (fwDigest m))
  | none => decide (k = 0) && decide (bootDigest b 0 = none) && keyActive s Config.factoryKey && decide (b.minSvn ≤ Config.factorySvn % 2 ^ 16)

/-- Enter a stage, which is logged; recovery stays until an activated image runs (R391). -/
def fwStage (s : State) (stage slot : Nat) : State :=
  let now := getF s pgNvm NVM_FW_STATUS_STAGE
  if (now = 7 ∧ stage ≠ 6) ∨ now = stage then s
  else logWrite (setF s pgNvm NVM_FW_STATUS_STAGE stage) 2 (leBytes 1 stage ++ leBytes 1 slot ++ leBytes 4 (slotVersion s slot))

/-- A rejected slot is logged (Table 14.5). -/
def logRollback (s : State) (slot reason : Nat) : State := logWrite s 3 (leBytes 1 slot ++ leBytes 1 reason ++ leBytes 4 (slotVersion s slot))

/-- A trial ended without confirmation: the trial slot is REJECTED. -/
def rejectTrial (s : State) (t reason : Nat) : State :=
  logRollback (putBoot s { bootSlot s.nvm.boot t 4 (some 0) with trial := none }) t reason

/-- ROLLED_BACK. -/
def rolledBack (s : State) : State := errUnit (flagF s pgNvm NVM_FW_STATUS_ROLLED_BACK) HDR_ERR_SUMMARY_NVM pgNvm

/-- The image of a slot runs. -/
def runImage (s : State) (slot : Nat) : State :=
  let s := modNvm s (fun q => { q with running := slot })
  let s := setF (setF s pgNvm NVM_FW_STATUS_RUNNING_SLOT slot) pgNvm NVM_FW_VERSION_FW_VERSION (slotVersion s slot)
  setF (setF s pgNvm NVM_SVN_RUNNING_SVN (slotSvn s slot)) pgNvm NVM_CONFIRM_SEALED 0

/-- An image starts at a boot. -/
def bootImage (s : State) (slot : Nat) (trial : Bool) : State :=
  let s := setF (runImage s slot) pgNvm NVM_FW_STATUS_STAGE (if trial then 6 else 0)
  logWrite s 1 (leBytes 1 slot ++ leBytes 1 (b2n trial) ++ leBytes 1 s.nvm.boot.trialLeft ++ zeros 1 ++ leBytes 4 (slotVersion s slot) ++
    leBytes 2 (slotSvn s slot))

/-- The boot without a trial: the active slot, the other, or recovery (R391). -/
def bootActive (s : State) : State :=
  let a := s.nvm.boot.active
  if slotPasses s a then bootImage s a false
  else if bootState s.nvm.boot (1 - a) = 3 ∧ slotPasses s (1 - a) = true then
    bootImage (logRollback (putBoot s { s.nvm.boot with active := 1 - a }) a 4) (1 - a) false
  else setF s pgNvm NVM_FW_STATUS_STAGE 7

/-- The boot code chooses the slot to run (R391); `selfCheck` is the result of the self-check at a trial boot (R398). -/
def bootChoose (s : State) (selfCheck : Bool) : State :=
  let b := s.nvm.boot
  let s := showKeys (showBoot s)
  match b.trial with
  | none => bootActive s
  | some t =>
    if b.trialLeft = 0 then bootActive (rolledBack (rejectTrial s t 1))
    else
      let s := putBoot s { b with trialLeft := b.trialLeft - 1 }
      if slotPasses s t then (if selfCheck then bootImage s t true else bootActive (rolledBack (rejectTrial s t 2)))
      else bootActive (rejectTrial s t 4)

/-! ### Download and verification (R392, R393) -/

/-- FW_DOWNLOAD of a chunk: the state, the status and the DETAIL. -/
def fwDownload (s : State) (chunk : Nat) (bytes : List Byte) : State × Nat × Nat :=
  let b := s.nvm.boot
  let k := inactiveSlot b
  let next := getF s pgNvm NVM_FW_STATUS_CHUNKS
  let write := fun (s : State) => modNvm s (fun q => { q with slots := tabPut q.slots k (some (memWriteN (tabGet [] q.slots k) (4096 * chunk) bytes)) })
  if chunk = 0 then
    if !headerForm (bytes.take 256) then (s, 1, 0)
    else
      let s := fwStage (write (putBoot s (bootSlot b k 1 (some 0)))) 1 k
      (setF s pgNvm NVM_FW_STATUS_CHUNKS 1, 0, 1)
  else if chunk ≠ next ∨ bootState b k ≠ 1 then (s, 1, next)
  else
    let s := setF (write s) pgNvm NVM_FW_STATUS_CHUNKS (chunk + 1)
    let size := fwBytes (tabGet [] s.nvm.slots k)
    if 4096 * (chunk + 1) = size then (fwStage (putBoot s (bootSlot b k 2 (some 0))) 0 k, 0, chunk + 1)
    else (s, 0, chunk + 1)

/-- FW_VERIFY_DONE: the check of the DOWNLOADED slot ends. -/
def fwVerifyDone (s : State) : State :=
  if !bgRunning s 0 0x34 then s else
  let b := s.nvm.boot
  let k := inactiveSlot b
  let m := tabGet [] s.nvm.slots k
  let code := imageCode s m
  if code = 0 then
    let s := fwStage (putBoot s (bootSlot b k 3 (some (fwDigest m)))) 0 k
    bgComplete s 0 0x34 0 (slotVersion s k * 2 ^ 32 + slotSvn s k)
  else
    let s := errUnit (flagF (fwStage s 0 k) pgNvm NVM_FW_STATUS_VERIFY_FAIL) HDR_ERR_SUMMARY_NVM pgNvm
    bgComplete s 0 0x34 1 code

/-! ### Activation and the switch (R394 to R396) -/

/-- What waited for the end of a switch goes on (R395). -/
def switchRelease (s : State) : State :=
  let q := s.nvm
  let s := modNvm s (fun q => { q with msgs := [], bugles := [], evHeld := [], cplHeld := [], acked := true })
  let s := q.cplHeld.foldl (fun s c => complete s c.1 c.2.tag c.2.op c.2.status c.2.detail) s
  let s := q.evHeld.foldl (fun s e => postEvent s e.1 e.2.1 e.2.2) s
  let s := q.bugles.foldl (fun s b => if actsRunning s b.1 && decide (b.2.2 = bugleSerial s b.1) then bugleAct s b.1 b.2.1 false else s) s
  modNvm (q.msgs.foldl (fun s m => recvMemb s m.packet m.kind m.room) s) (fun q => { q with acked := false })

/-- Confirmation: the commit point of the update (R397). -/
def fwConfirm (s : State) : State :=
  match s.nvm.boot.trial with
  | none => s
  | some t =>
    let b := s.nvm.boot
    let s := putBoot s { b with active := t, trial := none, minSvn := max b.minSvn (slotSvn s t) }
    fwStage (setF s pgNvm NVM_CONFIRM_SEALED 0) 0 t

/-- A trial begins with the end of a switch; CONFIRM_STEPS of zero confirms it at once. -/
def trialBegin (s : State) (t : Nat) : State :=
  let s := fwStage (runImage s t) 6 t
  let s := bgComplete s 0 0x35 0 s.counter
  if getF s pgNvm NVM_FW_CTRL_CONFIRM_STEPS = 0 then fwConfirm s else s

/-- A step seal of a RUNNING function: counted in a trial (R397), and noted while an activation is ARMED (R394). -/
def fwStepSeal (s : State) : State :=
  let stage := getF s pgNvm NVM_FW_STATUS_STAGE
  if stage = 4 then modNvm s (fun q => { q with fwSeal := true })
  else if stage = 6 then
    let s := addF s pgNvm NVM_CONFIRM_SEALED 1
    let want := getF s pgNvm NVM_FW_CTRL_CONFIRM_STEPS
    if want ≠ 0 ∧ getF s pgNvm NVM_CONFIRM_SEALED = want then fwConfirm s else s
  else s

/-- FW_LOADING_DONE: the digest is compared as the slot was read; the activation is ARMED, and in recovery the image runs at
once. -/
def fwLoadingDone (s : State) : State :=
  let stage := getF s pgNvm NVM_FW_STATUS_STAGE
  if !bgRunning s 0 0x35 || s.nvm.cut || !(decide (stage = 3) || decide (stage = 7)) then s else
  let b := s.nvm.boot
  let k := inactiveSlot b
  if match tabFind s.nvm.slots k with | some m => decide (bootDigest b k ≠ some (fwDigest m)) | none => decide (bootDigest b k ≠ none) then
    bgComplete (fwStage (putBoot s (bootSlot b k 2 (some 0))) 0 k) 0 0x35 1 0
  else
    let s := putBoot s { b with trial := some k, trialLeft := getF s pgNvm NVM_FW_CTRL_TRIAL_LIMIT }
    if stage = 7 then trialBegin s k
    else modNvm (fwStage s 4 k) (fun q => { q with fwSeal := false, back := false })

/-- Nothing of the control plane is under way that a switch waits for (R394). -/
def switchQuiet (s : State) : Bool :=
  (List.range 64).all (fun n =>
    let x := fnSt s n
    let phase := fnF s n FN_STEP_STATUS_PHASE
    decide (n = 0) || (decide (stateOf s n ≠ 3) && decide (phase ≠ 6) && decide (phase ≠ 7) && !epochsOpen s n && x.epochWait.isNone &&
      x.kept.isNone && x.xfer.isNone && x.copy.isNone && x.decl.isNone))

/-- A counter value that is a turn start: time passes to the next one. -/
def toTurnStart (s : State) : State := advance s (turnStartAt s s.counter - s.counter)

/-- FW_SWITCH_START: the switch begins at the first qualifying counter turn start. -/
def fwSwitchStart (s : State) : State :=
  let running := (List.range 64).any (fun n => decide (n ≠ 0) && decide (stateOf s n = 2))
  if getF s pgNvm NVM_FW_STATUS_STAGE ≠ 4 ∨ holding s = true ∨ switchQuiet s = false ∨ (running = true ∧ s.nvm.fwSeal = false) then s
  else
    let s := toTurnStart s
    fwStage s 5 (if s.nvm.back then s.nvm.running else inactiveSlot { s.nvm.boot with trial := none })

/-- FW_SWITCH_END: the self-check of the new image ends, within 80,000 ticks of the start. A switch back returns to the active
slot's image (R398). -/
def fwSwitchEnd (s : State) (ok : Bool) : State :=
  if !switching s then s else
  let b := s.nvm.boot
  if s.nvm.back then
    let s := runImage (modNvm s (fun q => { q with back := false })) b.active
    switchRelease (bgComplete (fwStage s 0 b.active) 0 0x37 0 b.active)
  else
    match b.trial with
    | none => switchRelease (fwStage s 0 b.active)
    | some t =>
      if ok then switchRelease (trialBegin s t)
      else
        let s := putBoot s { bootSlot b t 4 (some 0) with trial := none }
        let s := errUnit (flagF s pgNvm NVM_FW_STATUS_SWITCH_ABORTED) HDR_ERR_SUMMARY_NVM pgNvm
        switchRelease (bgComplete (fwStage s 0 t) 0 0x35 0xD 0)

/-- An activation ends before its switch: the boot record names no trial, and the slot stays VERIFIED (R396). -/
def activationUndone (s : State) : State :=
  let s := if s.nvm.boot.trial.isSome then putBoot s { s.nvm.boot with trial := none } else s
  bgComplete (modNvm s (fun q => { q with cut := false })) 0 0x35 0xD 0

/-- A HOLD cuts an activation short, and POWER CANCEL undoes it (R396). -/
def fwHoldCheck (s : State) : State :=
  let stage := getF s pgNvm NVM_FW_STATUS_STAGE
  if holding s then
    if bgRunning s 0 0x35 && !s.nvm.cut then
      let was := switching s
      let s := modNvm (if stage = 7 then s else fwStage s 0 s.nvm.running) (fun q => { q with cut := true })
      if was then switchRelease s else s
    else s
  else if s.nvm.cut then activationUndone s else s

/-- A trial fault: 2 for a fault, 3 for FW_ABANDON (R398). -/
def trialFault (s : State) (reason : Nat) : State :=
  match s.nvm.boot.trial with
  | none => s
  | some t =>
    if getF s pgNvm NVM_FW_STATUS_STAGE ≠ 6 then s else
    let s := setF (rolledBack (rejectTrial s t reason)) pgNvm NVM_CONFIRM_SEALED 0
    if reason = 3 then modNvm (fwStage s 4 t) (fun q => { q with back := true, fwSeal := false }) else fwStage s 0 t

/-- FW_ABANDON, accepted in LOADING, ARMED and TRIAL. -/
def fwAbandon (s : State) : State :=
  if getF s pgNvm NVM_FW_STATUS_STAGE = 6 then trialFault s 3
  else
    let s := fwStage (activationUndone s) 0 s.nvm.running
    bgComplete s 0 0x37 0 s.nvm.boot.active

/-! ### Commands that read the log and revoke keys -/

/-- LOG_READ: `count` records from index `first`, in index order with wrap-around. -/
def logRead (s : State) (first count : Nat) : List Byte :=
  ((List.range count).map (fun i => (tabFind s.nvm.log ((first + i) % logRecords)).getD (zeros 64))).flatten

/-- KEY_REVOKE: the state, the status and the DETAIL (R388). -/
def keyRevoke (s : State) (i : Nat) : State × Nat × Nat :=
  if 4 ≤ i then (s, 1, 8)
  else
    let b := s.nvm.boot
    let k := s.nvm.keys.getD i ⟨0, some 0⟩
    let others := (List.range 4).any (fun j => decide (j ≠ i) && decide ((s.nvm.keys.getD j ⟨0, some 0⟩).state = 1))
    let signed := fun (sl : Nat) => decide (k.state ≠ 0) && decide (keyHash k = slotSigner s sl)
    if !others then (s, 0xF, 0)
    else if signed b.active || (match b.trial with | some t => signed t | none => false) then (s, 2, 0)
    else (putKey s i { k with state := 2 }, 0, i)

end Sys2Proof.Machine
end

