-- ==== Sys2Proof/Machine/Power.lean ====
section
/-!
DEFINITION. Power domains, resets, straps, the health code, the reference clock, and the power and temperature monitors
(R402 to R420).
-/

namespace Sys2Proof.Machine

/-- Change the power record. -/
def modPwr (s : State) (f : PowerSt → PowerSt) : State := { s with pwr := f s.pwr }

/-- Lyith is out of power-on reset: chip reset has ended, so commands act. -/
def alive (s : State) : Bool := decide (s.pwr.phase ≤ 2)

/-- Record a condition of the clock and power page: its INT_STATUS bit and ERR_SUMMARY.POWER (R420, Table 17.8). -/
def powerError (s : State) (f : Fld) : State := errUnit (raiseUnit s pgClkpwr f) HDR_ERR_SUMMARY_POWER pgClkpwr

/-! ### Gating (R403, R404) -/

/-- Some function that is STARTING, RUNNING or DRAINING has a wheel image whose PLACE names the slice. -/
def sliceUsed (s : State) (sl : Nat) : Bool :=
  (List.range 64).any (fun n => isBusyFn s n && (match (fnSt s n).wheel with | some w => w.place.contains sl | none => false))

/-- Bit `sl` of a 16-bit field of the clock and power page. -/
def putSliceBit (s : State) (f : Fld) (sl : Nat) (v : Bool) : State := setF s pgClkpwr f (putBit (getF s pgClkpwr f) sl v)

/-- A slice reset: the slice's SRAMs, queues and core register files (Table 15.4). -/
def sliceClear (s : State) (sl : Nat) : State :=
  { s with cores := tabClear s.cores (32 * sl) 32, bags := s.bags.filter (fun b => decide (b.slice ≠ sl)),
           held := s.held.filter (fun h => decide (h.1 ≠ sl)) }

/-- GATE: a bit of LY_CLKPWR_GATE.SL is written 1. -/
def gateSlice (s : State) (sl : Nat) : State :=
  if sliceUsed s sl then lockViolation s (pgClkpwr + 0x04C) else putSliceBit s CLKPWR_GATE_SL sl true

/-- UNGATE: a bit of LY_CLKPWR_GATE.SL is written 0. -/
def ungateSlice (s : State) (sl : Nat) : State := putSliceBit s CLKPWR_GATE_SL sl false

/-- SLICE_GATED: gating completes, and the slice's SRAM contents are lost. -/
def sliceGated (s : State) (sl : Nat) : State :=
  if bit (getF s pgClkpwr CLKPWR_GATE_SL) sl ∧ bit (getF s pgClkpwr CLKPWR_DOMAIN_STATUS_SL) sl = true then
    sliceClear (putSliceBit s CLKPWR_DOMAIN_STATUS_SL sl false) sl
  else s

/-- SLICE_UNGATED: the slice is powered, reset and initialised, and its programs are restored. -/
def sliceUngated (s : State) (sl : Nat) : State :=
  if s.pwr.phase ≠ 2 ∨ bit (getF s pgClkpwr CLKPWR_GATE_SL) sl = true ∨ bit (getF s pgClkpwr CLKPWR_DOMAIN_STATUS_SL) sl = true then s
  else putSliceBit (sliceClear s sl) CLKPWR_DOMAIN_STATUS_SL sl true

/-- SLICE_RESET and REGION_RESET: a request that names a used slice is ignored (R409). -/
def sliceReset (s : State) (sl : Nat) : State :=
  if sliceUsed s sl then lockViolation s (pgClkpwr + 0x054) else sliceClear s sl
def regionReset (s : State) (q : Nat) : State :=
  let sls := [4 * q, 4 * q + 1, 4 * q + 2, 4 * q + 3]
  if sls.any (fun sl => sliceUsed s sl) then lockViolation s (pgClkpwr + 0x054) else sls.foldl sliceClear s

/-! ### Position (R410, R411) -/

/-- The strap word's check holds. -/
def strapOk (w : Nat) : Bool := decide (bits w 11 10 = ((List.range 10).filter (fun i => bit w i)).length % 4)

/-- The strap sample. -/
def sampleStraps (s : State) (w : Nat) : State :=
  let w := w % 4096
  let s := setF s pgClkpwr CLKPWR_STRAP_WORD w
  let s := setF (setF (setF s pgClkpwr CLKPWR_POSITION_BOARD (bits w 4 0)) pgClkpwr CLKPWR_POSITION_PACKAGE (bits w 8 5)) pgClkpwr
    CLKPWR_POSITION_DIE (bits w 9 9)
  if strapOk w then s else raiseUnit (setF s pgClkpwr CLKPWR_POSITION_STRAP_BAD 1) pgClkpwr CLKPWR_INT_STRAP_BAD

/-- The position has been written (R411). -/
def positioned (s : State) : Bool := decide (getF s pgClkpwr CLKPWR_POSITION_VALID = 1)

/-- POSITION: the first write after chip reset fixes it; a later one is ignored under RWL (R12). -/
def writePosition (s : State) (v : Nat) : State :=
  if positioned s then lockViolation s (pgClkpwr + 0x040)
  else setWord s (pgClkpwr + 0x040) (BitVec.ofNat 32 (v % 2 ^ 32 / 4096 * 4096 + (wordAt s (pgClkpwr + 0x040)).toNat % 4096 / 2 * 2 + 1))

/-! ### Chip reset (R407 to R409) -/

/-- What a retaining chip reset leaves of a function (R356, R408): its retained state. One that was STARTING, RUNNING or
DRAINING comes back FENCED. -/
def retainFn (x : FnSt) (busy : Bool) : FnSt :=
  { manifest := x.manifest, staged := x.staged, fmtKey := x.fmtKey, passRun := x.passRun, step := x.step, opened := x.opened,
    attempt := x.attempt, sealedPasses := x.sealedPasses, nearPages := x.nearPages, route := x.route, routeLoaded := x.routeLoaded,
    own := x.own, group := x.group, self := x.self, epoch := x.epoch, members := x.members, spares := x.spares, wheel := x.wheel,
    wheelStaged := x.wheelStaged, progs := x.progs, progsStaged := x.progsStaged, routeSwitches := x.routeSwitches, chain := x.chain,
    anchor := x.anchor, unrebuilt := x.unrebuilt, rebuildTotal := x.rebuildTotal, plan := x.plan, fresh := x.fresh,
    lastEpoch := x.lastEpoch, copied := x.copied,
    role := if busy then 3 else x.role }

/-- What the MRAM keeps (R379): a write in progress leaves nothing. -/
def retainNvm (q : NvmSt) : NvmSt :=
  { half := q.half, generation := q.generation, recs := q.recs, seq := q.seq, log := q.log, logSeq := q.logSeq, keys := q.keys,
    slots := q.slots, boot := q.boot }

/-- What the floor keeps. -/
def retainFloor (f : FloorSt) : FloorSt := { f with flights := [], verify := none, secAt := 0, catAt := 0, verified := f.verified.map (fun e => (e.1, 0)) }

/-- The die with every register, SRAM and queue cleared; outputs already given, the host's side and the commands that wait are
not the die's. -/
def cleared (s : State) (retained : Bool) : State :=
  { pending := s.pending, variant := s.variant, posted := s.posted, hostDown := s.hostDown, msi := s.msi, sent := s.sent, vfs := s.vfs,
    pfail := s.pfail, nvm := retainNvm s.nvm, floor := retainFloor s.floor, line := { sent := s.line.sent },
    pwr := { rails := s.pwr.rails, refLostAt := s.pwr.refLostAt.map (fun _ => 0) },
    deep := if retained then s.deep else [], near := if retained then s.near else [], ring := if retained then s.ring else [],
    fns := if retained then s.fns.map (fun e => (e.1, retainFn e.2 (isBusyFn s e.1))) else [],
    integ := { blocks := if retained then s.integ.blocks else [] } }

/-- A chip reset takes place: 1 POWER_ON, 2 HOST, 3 MF, 4 PLL, 5 MANAGEMENT. -/
def chipReset (s : State) (cause strap : Nat) : State :=
  let retained := decide (cause ≠ 1) && decide (cause ≠ 4)
  let t := cleared s retained
  let t := setF (setF t pgClkpwr CLKPWR_RESET_CAUSE_CAUSE cause) pgClkpwr CLKPWR_RESET_CAUSE_RETAINED (b2n retained)
  let t := setF t pgClkpwr CLKPWR_PFAIL_LEVEL (b2n s.pfail)
  sampleStraps (setF t pgClkpwr CLKPWR_CLOCK_STATUS_HOLDOVER (b2n t.pwr.refLostAt.isSome)) strap

/-- The reset causes that a command can name. -/
def resetDeferred (s : State) : Bool := match s.hold with | some h => decide (h.stage < 4) && !h.ended | none => false

/-- CHIP_RESET: at the end of power-on reset, once the PLL is locked, the rails are good and PFAIL_N is deasserted; else as
requested, deferred in HOLD (R409). A PLL reset is never deferred. -/
def chipResetRequest (s : State) (cause strap : Nat) : State :=
  if s.pwr.phase = 3 then s
  else if s.pwr.phase = 4 then (if s.pwr.pll && s.pwr.rails && !s.pfail then chipReset s 1 strap else s)
  else if cause ≠ 4 ∧ resetDeferred s = true then
    modPwr s (fun p => { p with deferred := some (cause, strap, match s.hold with | some h => h.since | none => s.ticks) })
  else chipReset s cause strap

/-- A deferred chip reset takes effect once Bellows is at DONE. -/
def deferredDone (s : State) : State :=
  match s.pwr.deferred, s.hold with
  | some (c, w, _), some h => if h.stage = 4 then chipReset s c w else s
  | _, _ => s

/-- RESET_DEFERRAL_EXPIRY: 20 ms after HOLD began. -/
def deferralExpiry (s : State) : State :=
  match s.pwr.deferred with
  | some (c, w, since) => chipReset (advanceTo s (since + 16000000)) c w
  | none => s

/-- POWER_ON_RESET: a supply enters or leaves regulation; `rails` says whether VDD_LY and VDDQ_NAND are in regulation. -/
def powerOnReset (s : State) (rails : Bool) : State := modPwr (cleared s false) (fun p => { p with phase := 3, rails := rails, pll := false, refLostAt := none })

/-- POWER_ON_RESET_END, PLL_LOCK and RAILS_IN_REGULATION. -/
def powerOnResetEnd (s : State) : State := if s.pwr.phase = 3 then modPwr s (fun p => { p with phase := 4 }) else s
def pllLock (s : State) : State := if s.pwr.phase = 4 then modPwr s (fun p => { p with pll := true }) else s
def railsGood (s : State) : State := if 3 ≤ s.pwr.phase then modPwr s (fun p => { p with rails := true }) else s

/-! ### Start-up (R418, R419) -/

/-- The slice domains are powered as GATE gives, and each powered slice is reset. -/
def powerSlices (s : State) : State :=
  let s := modPwr s (fun p => { p with phase := 2 })
  setF { s with cores := [] } pgClkpwr CLKPWR_DOMAIN_STATUS_SL (65535 - getF s pgClkpwr CLKPWR_GATE_SL)

/-- BOOT: the image is chosen and runs, and the configuration store is loaded; a retained deep tier needs no
initialisation. -/
def boot (s : State) (selfCheck : Bool) : State :=
  if s.pwr.phase ≠ 0 then s else
  let s := modPwr (loadConfig (bootChoose s selfCheck)) (fun p => { p with phase := 1 })
  let s := setF s pgNvm NVM_LOG_STATUS_NEXT (s.nvm.logSeq % logRecords)
  if getF s pgClkpwr CLKPWR_RESET_CAUSE_RETAINED = 1 then powerSlices s else s

/-- DEEP_TIER_INIT_DONE. -/
def deepInitDone (s : State) : State := if s.pwr.phase = 1 then powerSlices s else s

/-! ### The health code (R412) -/

/-- Some function matches. -/
def anyFn (f : Nat → Bool) : Bool := (List.range 64).any (fun n => decide (n ≠ 0) && f n)

/-- The code of Table 15.7 for the present conditions: the first that holds. -/
def healthCode (s : State) : Nat :=
  let stage := getF s pgNvm NVM_FW_STATUS_STAGE
  let inHold := decide (getF s pgFife FIFE_STATUS_PHASE = 2)
  if getF s pgGlobal GLOBAL_WITHDRAW_WITHDRAWN = 1 then 0x3E
  else if inHold ∧ (match s.hold with | some h => decide (h.stage = 4) | none => false) = true then 0x09
  else if inHold then 0x08
  else if stage = 7 then 0x21
  else if getF s pgClkpwr CLKPWR_POSITION_STRAP_BAD = 1 ∧ positioned s = false then 0x20
  else if s.variant = .F ∧ getF s pgFloor FLOOR_STATUS_STATE = 4 then 0x22
  else if s.pwr.phase = 0 then 0x01
  else if s.pwr.phase = 1 then 0x02
  else if !positioned s then 0x03
  else if getF s pgWheel WHEEL_STATUS_COUNTER_STATE ≤ 1 then 0x04
  else if anyFn (fun n => decide (fnF s n FN_REBUILD_STATUS_ACTIVE = 1)) then 0x07
  else if stage = 6 then 0x0A
  else if anyFn (fun n => decide (stateOf s n = 2)) then 0x06
  else 0x05

/-- What the POS pins show: the code of the position straps' outputs, or inputs during power-on reset. -/
def healthPins (s : State) : Option Nat :=
  if !alive s then (if s.pfail ∧ s.pwr.phase = 4 then some 0x08 else none)
  else if getF s pgClkpwr CLKPWR_HEALTH_FORCE = 1 then some (getF s pgClkpwr CLKPWR_HEALTH_FORCE_CODE)
  else some (healthCode s)

/-! ### PFAIL_N (R413) -/

/-- PFAIL_ASSERT: the filter takes the pin as asserted. -/
def powerFail (s : State) : State :=
  if !alive s then { s with pfail := true }
  else if s.pfail then s
  else
    let s := flagF (setF s pgClkpwr CLKPWR_PFAIL_LEVEL 1) pgClkpwr CLKPWR_PFAIL_ASSERTED
    pfailAssert (powerError (addF s pgClkpwr CLKPWR_PFAIL_COUNT 1) CLKPWR_INT_PFAIL)

/-- PFAIL_DEASSERT. -/
def powerGood (s : State) (fails : List Nat) : State :=
  if !alive s then { s with pfail := false }
  else if !s.pfail then s
  else pfailDeassert (setF s pgClkpwr CLKPWR_PFAIL_LEVEL 0) fails

/-! ### The reference (R406) -/

/-- REF_LOST. -/
def refLost (s : State) : State :=
  if s.pwr.refLostAt.isSome then s
  else
    let s := modPwr s (fun p => { p with refLostAt := some s.ticks })
    powerError (setF (flagF s pgClkpwr CLKPWR_CLOCK_STATUS_REF_LOST) pgClkpwr CLKPWR_CLOCK_STATUS_HOLDOVER 1) CLKPWR_INT_REF_LOST

/-- REFERENCE_RETURN. -/
def refReturn (s : State) : State := setF (modPwr s (fun p => { p with refLostAt := none })) pgClkpwr CLKPWR_CLOCK_STATUS_HOLDOVER 0

/-- HOLDOVER_EXPIRY: 8,000,000 ticks of holdover, or at once a frequency error beyond 500 ppm; the PLL is out of lock and the
chip is reset. -/
def holdoverExpiry (s : State) (freqError : Bool) (strap : Nat) : State :=
  if freqError then chipReset s 4 strap
  else match s.pwr.refLostAt with
    | some t => chipReset (advanceTo s (t + 8000000)) 4 strap
    | none => s

/-! ### Monitors (R416, R417) -/

/-- POWER_WINDOW: a window of 800,000 ticks ends with a measured power. -/
def powerWindow (s : State) (watts : Nat) : State :=
  let s := setF (advanceTo s (roundUp (s.ticks + 1) 800000)) pgClkpwr CLKPWR_MONITOR_POWER_W (min watts 511)
  let soft := getF s pgClkpwr CLKPWR_PCAP_SOFT_W
  let hard := getF s pgClkpwr CLKPWR_PCAP_HARD_W
  let s := modPwr s (fun p => { p with paused :=
    if soft = 0 then false else if soft < watts then true else if watts + 10 < soft then false else p.paused })
  if hard ≠ 0 ∧ hard < watts then powerError s CLKPWR_INT_PCAP_OVER else s

/-- THERMAL_SAMPLE: the highest reading and its sensor. -/
def thermalSample (s : State) (temp hot : Nat) : State :=
  let s := setF (setF s pgClkpwr CLKPWR_MONITOR_TEMP_C temp) pgClkpwr CLKPWR_MONITOR_HOT hot
  let s := if getF s pgClkpwr CLKPWR_TCAP_WARN_C ≤ temp then powerError s CLKPWR_INT_THERM_WARN else s
  if getF s pgClkpwr CLKPWR_TCAP_TRIP_C ≤ temp then powerError s CLKPWR_INT_THERM_TRIP else s

end Sys2Proof.Machine
end

