-- ==== Sys2Proof/Machine/PostBox.lean ====
section
/-!
DEFINITION. The post box: arming, the doorbell and command fetch (R367 to R370), the tests that every command passes
(R372, Table 13.7), and the commands.
-/

namespace Sys2Proof.Machine

/-! ### Arming and the doorbell (R367, R368, R370) -/

/-- Records kept while ARM was 0 go to their rings in order; one that finds no space is lost (R370). -/
def flushKept (s : State) (n : Nat) : State :=
  let x := fnSt s n
  let s := modFn s n (fun x => { x with cplKept := [], devKept := [], digKept := [] })
  let s := x.cplKept.foldl (fun s c => cplWrite s n c) s
  let s := x.devKept.foldl (fun s r =>
    let s := devOverflow s n
    if 1 ≤ devFree s n ∧ (fnSt s n).devLost = 0 then devPut s n r
    else modFn (addF s (pgFn n) FN_DEV_CTRL_LOST 1) n (fun y => { y with devLost := y.devLost + 1 })) s
  let s := x.digKept.foldl (fun s r => if 1 ≤ digFree s n then digPut s n r else addF s (pgFn n) FN_DIG_CTRL_LOST 1) s
  devOverflow (evMarker s n) n

/-- ARM: the transition of ARM from 0 to 1 sets CMD_TAIL to CMD_HEAD. The post box of a DISABLED function is not armed. -/
def armBox (s : State) (n : Nat) : State :=
  if armed s n ∨ (n ≠ 0 ∧ stateOf s n = 0) then s
  else
    let s := setFnF { s with hostDown := false } n FN_PB_CTRL_ARM 1
    flushKept (setFnF s n FN_CMD_TAIL_TAIL (fnF s n FN_CMD_HEAD_HEAD)) n

/-- DISARM: no fetched command is cancelled. -/
def disarmBox (s : State) (n : Nat) : State := disarm s n

/-- HOST_LINK_DOWN: ARM is cleared on every function, and the host takes no writes until a post box is armed again. -/
def hostLinkDown (s : State) : State := { (List.range 64).foldl disarm s with hostDown := true }

/-- DOORBELL: a write of CMD_TAIL, accepted when it covers at most the free entries of the ring. -/
def doorbell (s : State) (n v : Nat) : State :=
  let m := 2 ^ 32
  let t := fnF s n FN_CMD_TAIL_TAIL
  let open_ := (t + m - fnF s n FN_CMD_HEAD_HEAD) % m
  if (v + m - t) % m ≤ 64 - open_ then setFnF s n FN_CMD_TAIL_TAIL v else raiseFn s n FN_INT_DOORBELL_BAD

/-- Completion entries that are taken or reserved (R369). -/
def reserved (s : State) (n : Nat) : Nat :=
  let x := fnSt s n
  (fnF s n FN_CPL_HEAD_HEAD + 2 ^ 32 - fnF s n FN_CPL_TAIL_TAIL) % 2 ^ 32 + x.queue.length + x.bg.length +
    (x.loads.filter (fun q => !q.finished)).length + x.cplKept.length

/-- The opcodes of Tables 13.7, 14.9 and R435. -/
def knownOps : List Nat :=
  [0x01, 0x02, 0x03, 0x04, 0x05, 0x06, 0x07, 0x08, 0x09, 0x0A, 0x0B, 0x0C, 0x10, 0x11, 0x12, 0x13, 0x14, 0x15, 0x18, 0x19, 0x1A, 0x1B,
   0x20, 0x28, 0x30, 0x31, 0x32, 0x33, 0x34, 0x35, 0x36, 0x37, 0x38, 0x39]

/-- Fields of a command entry (Table 13.8). -/
def eOp (e : List Byte) : Nat := field e 0 1
def eTag (e : List Byte) : Nat := field e 4 4

/-- Commands at the front of the queue whose opcode is unknown complete OPCODE (R372). -/
def skipUnknown (s : State) (n : Nat) : Nat → State
  | 0 => s
  | fuel + 1 =>
    match (fnSt s n).queue with
    | e :: rest =>
      if knownOps.contains (eOp e) then s
      else skipUnknown (complete (modFn s n (fun x => { x with queue := rest })) n (eTag e) (eOp e) 0x10 0) n fuel
    | [] => s

/-- COMMAND_FETCH: one command entry has been copied, or its read failed. -/
def commandFetch (s : State) (n : Nat) (entry : HostRead) : State :=
  let head := fnF s n FN_CMD_HEAD_HEAD
  if !armed s n ∨ switching s ∨ stateOf s n = 3 ∨ head = fnF s n FN_CMD_TAIL_TAIL ∨ 64 ≤ reserved s n then s
  else
    let s := setFnF s n FN_CMD_HEAD_HEAD (head + 1)
    match entry with
    | none => complete s n 0 0 0x0E head
    | some e => skipUnknown (modFn s n (fun x => { x with queue := x.queue ++ [fit 64 e] })) n 64

/-! ### The tests of every command (R372) -/

/-- MF-only opcodes (Tables 13.7 and 14.9). -/
def mfOnly (op : Nat) : Bool := decide (op = 0x19 ∨ op = 0x20 ∨ 0x30 ≤ op)

/-- Opcodes that UPDATE_LOCK refuses (R399). -/
def lockedOps : List Nat := [0x33, 0x34, 0x35, 0x38, 0x39]

/-- The firmware and key commands (R400). -/
def fwOps : List Nat := [0x33, 0x34, 0x35, 0x36, 0x37, 0x38, 0x39]

/-- Offset and size of the named bytes of a command's arguments (Table 13.7). -/
def argRanges (op : Nat) : List (Nat × Nat) :=
  if op = 0x01 ∨ op = 0x02 ∨ op = 0x03 ∨ op = 0x07 ∨ op = 0x08 ∨ op = 0x14 ∨ op = 0x15 ∨ op = 0x1B ∨ op = 0x32 then [(8, 16)]
  else if op = 0x04 then [(8, 28)]
  else if op = 0x05 then [(8, 5)]
  else if op = 0x06 then [(8, 2), (12, 8)]
  else if op = 0x09 then [(8, 20)]
  else if op = 0x0A ∨ op = 0x0B ∨ op = 0x0C ∨ op = 0x18 ∨ op = 0x1A ∨ op = 0x28 ∨ op = 0x38 then [(8, 8)]
  else if op = 0x10 then [(8, 9)]
  else if op = 0x11 ∨ op = 0x39 then [(8, 1)]
  else if op = 0x20 then [(8, 4)]
  else if op = 0x30 ∨ op = 0x31 then [(8, 2)]
  else if op = 0x33 then [(8, 12)]
  else []

/-- The first reserved byte of an entry that is not zero. -/
def reservedByte (e : List Byte) : Option Nat :=
  (List.range 64).find? (fun i =>
    let v := field e i 1
    if i = 0 ∨ (4 ≤ i ∧ i < 8) then false
    else if i = 1 then decide (v ≠ 0 ∧ ¬(eOp e = 0x0C ∧ v = 1))
    else !(argRanges (eOp e)).any (fun r => decide (r.1 ≤ i) && decide (i < r.1 + r.2)) && decide (v ≠ 0))

/-- Opcodes that take ADDR at offset 8. -/
def takesAddr (op : Nat) : Bool :=
  [0x01, 0x02, 0x03, 0x04, 0x07, 0x08, 0x09, 0x0A, 0x0B, 0x10, 0x14, 0x15, 0x1A, 0x1B, 0x28, 0x32, 0x33, 0x38].contains op

/-- Offset of an argument outside its range, or one that contradicts another or the function's registers. -/
def argBad (s : State) (n : Nat) (e : List Byte) : Option Nat :=
  let op := eOp e
  let size := fnF s n FN_ROUTE_CTRL_ROUTE_SIZE
  if takesAddr op ∧ field e 8 8 % 64 ≠ 0 then some 8
  else if op = 0x04 ∧ field e 0x10 8 ≠ field e 0x20 4 * 65280 then some 0x10
  else if op = 0x05 ∧ 1 < field e 0xC 1 then some 0xC
  else if op = 0x06 ∧ 1 < field e 8 1 then some 8
  else if op = 0x06 ∧ field e 9 1 ≠ 0 ∧ (field e 8 1 = 0 ∨ (match (fnSt s n).manifest with | some m => decide (m.d < field e 9 1) | none => false) = true) then some 9
  else if op = 0x07 ∧ 64 < field e 0x10 8 then some 0x10
  else if op = 0x08 ∧ field e 0x10 8 ≠ size then some 0x10
  else if op = 0x09 ∧ field e 0x10 8 ≠ forceF s n FN_ROUTE_CTRL_ROUTE_SIZE then some 0x10
  else if op = 0x09 ∧ 16384 ≤ field e 0x18 4 ∧ field e 0x18 4 ≠ 0xFFFFFFFF then some 0x18
  else if op = 0x10 ∧ 4 < field e 0x10 1 then some 0x10
  else if op = 0x20 ∧ 16 ≤ field e 8 1 then some 8
  else if op = 0x20 ∧ 4 ≤ field e 9 1 then some 9
  else if (op = 0x30 ∨ op = 0x31) ∧ field e 8 2 &&& 0xFC01 ≠ 0 then some 8
  else if op = 0x32 ∧ 4096 ≤ field e 0x10 4 then some 0x10
  else if op = 0x32 ∧ 4096 < field e 0x14 4 then some 0x14
  else if op = 0x39 ∧ 4 ≤ field e 8 1 then some 8
  else none

/-- The unit is absent on Lyith-C (R6): the floor's commands and the twin's. -/
def opAbsent (s : State) (op : Nat) : Bool := decide (s.variant = .C) && [0x18, 0x19, 0x1A, 0x1B, 0x28].contains op

/-- The state lies in the Accepted column. FN0 is no job function. -/
def accepted (s : State) (n op : Nat) : Bool :=
  let st := stateOf s n
  let stage := getF s pgNvm NVM_FW_STATUS_STAGE
  let floor := getF s pgFloor FLOOR_STATUS_STATE
  let job := decide (n ≠ 0)
  let x := fnSt s n
  let b := s.nvm.boot
  if stage = 7 ∧ ¬([0x32, 0x33, 0x34, 0x35, 0x38, 0x39].contains op = true) then false
  else if op = 0x01 ∨ op = 0x02 ∨ op = 0x03 ∨ op = 0x08 ∨ op = 0x0A ∨ op = 0x0B then job && decide (st = 1)
  else if op = 0x04 then job && decide (st = 1) && (x.staged.isSome || (x.manifest.isSome && !x.passRun))
  else if op = 0x07 then job && decide (st = 1 ∨ st = 2)
  else if op = 0x13 then job && decide (st = 1) && decide (x.role = 3)
  else if op = 0x1B then job && decide (st ≠ 0)
  else if op = 0x19 then decide (floor = 3) || (decide (floor = 2) && !anyFn (fun k => decide (stateOf s k = 2)))
  else if op = 0x1A then decide (st ≠ 0) && decide (floor = 2)
  else if op = 0x20 then !anyFn (fun k => decide (stateOf s k = 2 ∨ stateOf s k = 3))
  else if op = 0x28 then decide (st ≠ 0)
  else if op = 0x33 then b.trial.isNone
  else if op = 0x34 then decide (bootState b (inactiveSlot b) = 2)
  else if op = 0x35 then decide (bootState b (inactiveSlot b) = 3) && decide (stage = 0 ∨ stage = 7)
  else if op = 0x36 then decide (stage = 6)
  else if op = 0x37 then decide (stage = 3 ∨ stage = 4 ∨ stage = 6) && !s.nvm.back
  else if 0x30 ≤ op then true
  else job && decide (st = 2)

/-- The opcode, or for a firmware or key command another one, is running (R369, R400). FW_ABANDON ends the activation that
runs, and a later STOP replaces the armed one. -/
def opBusy (s : State) (n op : Nat) : Bool :=
  if op = 0x0C ∨ op = 0x04 then false
  else if op = 0x37 then bgRunning s n 0x37
  else if fwOps.contains op then fwOps.any (fun o => bgRunning s n o)
  else bgRunning s n op

/-- The status and DETAIL of a command that one of the tests of R372 ends. -/
def cmdRejected (s : State) (n : Nat) (e : List Byte) : Option (Nat × Nat) :=
  let op := eOp e
  if (mfOnly op && decide (n ≠ 0)) || (lockedOps.contains op && decide (getF s pgNvm NVM_FW_CTRL_UPDATE_LOCK = 1)) then some (3, 0)
  else match reservedByte e with
    | some o => some (1, o)
    | none => match argBad s n e with
      | some o => some (1, o)
      | none =>
        if opAbsent s op then some (4, 0)
        else if !accepted s n op then some (2, 0)
        else if opBusy s n op then some (5, 0)
        else none

/-! ### Running a command -/

/-- The next command of the queue is taken, when its opcode is `op`. In HOLD the commands of the MRAM wait (R386); during a
firmware switch every command waits (R395). -/
def runCmd (s : State) (n op : Nat) (act : State → List Byte → State) : State :=
  if switching s || (decide (0x30 ≤ op) && holding s) then s
  else match (fnSt s n).queue with
    | [] => s
    | e :: rest =>
      if eOp e ≠ op then s
      else
        let s := modFn s n (fun x => { x with queue := rest })
        let s := match cmdRejected s n e with
          | some (st, d) => complete s n (eTag e) op st d
          | none => act s e
        skipUnknown s n 64

/-- A foreground command: its effect, status and DETAIL. -/
def fore (n : Nat) (f : State → List Byte → State × Nat × Nat) (s : State) (e : List Byte) : State :=
  let r := f s e
  complete r.1 n (eTag e) (eOp e) r.2.1 r.2.2

/-- A host buffer of `len` bytes, or none where its read fails (R370). -/
def hostBuf (s : State) (b : HostRead) (len : Nat) : Option (List Byte) :=
  match b with
  | some l => if l.length = len ∧ s.hostDown = false then some l else none
  | none => none

/-- A foreground command on a host buffer of `len` bytes; a failed read completes HOST_FAULT. An empty one is not read. -/
def withBuf (s : State) (b : HostRead) (len : Nat) (f : List Byte → State × Nat × Nat) : State × Nat × Nat :=
  if len = 0 then f [] else match hostBuf s b len with
  | some l => f l
  | none => (s, 0x0E, 0)

/-- Write a host buffer, or HOST_FAULT where the host takes no write. -/
def putBuf (s : State) (n addr : Nat) (l : List Byte) (detail : Nat) : State × Nat × Nat :=
  if s.hostDown ∧ l ≠ [] then (s, 0x0E, 0) else (if l = [] then s else hostWrite s n addr l, 0, detail)

/-! ### Load and table commands -/

/-- LOAD_MANIFEST (R31, R32). -/
def cmdLoadManifest (n : Nat) (b : HostRead) (s : State) (e : List Byte) : State × Nat × Nat :=
  if field e 0x10 8 = 0 then (s, 0, 0) else
  withBuf s b (field e 0x10 8) (fun l =>
    match manifestFailing l with
    | some f => (s, 1, f.table * 2 ^ 32 + f.index)
    | none =>
      let m := parseManifest l
      let clash := match (fnSt s n).manifest with
        | some o => decide (o.d ≠ m.d) && decide (fnF s n FN_STATE_STATUS_PENDING ≠ 0)
        | none => false
      if clash then (s, 1, 0) else (modFn s n (fun x => { x with staged := some m }), 0, 0))

/-- LOAD_PROGRAMS (R135, R136): the marks of the set are reported as it loads. -/
def cmdLoadPrograms (n : Nat) (b : HostRead) (s : State) (e : List Byte) : State × Nat × Nat :=
  if field e 0x10 8 = 0 then (s, 0, 0) else
  withBuf s b (field e 0x10 8) (fun l =>
    match progsFailing l (4096 * fnF s n FN_PROG_CTRL_REGION_SIZE) with
    | some o => (s, 1, o)
    | none =>
      let p := parseProgs l
      match p.progs.findIdx? (fun q => q.nd), decide (fnF s n FN_PROG_CTRL_REFUSE_ND = 1) with
      | some i, true => (s, 6, (progMap l).dirAt + 16 * i)
      | _, _ =>
        let s := setFnF (setFnF s n FN_PROG_STATUS_ND (b2n (setNd p))) n FN_PROG_STATUS_TILE (b2n (setTile p))
        (modFn s n (fun x => { x with progsStaged := some p }), 0, 0))

/-- LOAD_WHEEL (R184). -/
def cmdLoadWheel (n : Nat) (b : HostRead) (s : State) (e : List Byte) : State × Nat × Nat :=
  if field e 0x10 8 = 0 then (s, 0, 0) else
  withBuf s b (field e 0x10 8) (fun l =>
    match wheelFailing l with
    | some o => (s, 1, o)
    | none => (modFn s n (fun x => { x with wheelStaged := some (parseWheel l) }), 0, 0))

/-- The leaves that a load may name: bound in the stripe area to this die's member under the accepted manifest and the route
map to come; none while that does not resolve. -/
def loadable (s : State) (n : Nat) : Option (List (Nat × Nat × Bool × Nat)) :=
  let x := fnSt s n
  match (match x.staged with | some m => some m | none => x.manifest) with
  | none => some []
  | some m =>
    let r : RouteGen := { x.route with entries := (match x.routeLoaded with | some l => l | none => x.route.entries).take (fnF s n FN_ROUTE_CTRL_ROUTE_SIZE) }
    match placesOf s m r with
    | [(g, i, false)] => some (boundLeaves m g i)
    | _ => none

/-- Pattern code of group `g` of a mask leaf (R112). -/
def patternAt (body : List Byte) (g : Nat) : Nat := bits (field body (3 * g / 8) 2) (3 * g % 8 + 2) (3 * g % 8)

/-- A mask leaf holds a code that Table 4.6 does not give. -/
def badMask (body : List Byte) : Bool := (List.range 174080).any (fun g => decide (6 ≤ patternAt body g))

/-- LOAD_LEAVES (R372, R454): the leaves join the load pass of the next restart; it completes when they are written. A
failed read ends it at once. -/
def cmdLoadLeaves (n : Nat) (b : HostRead) (s : State) (e : List Byte) : State :=
  let count := field e 0x20 4
  let tensor := field e 0x18 4
  let first := field e 0x1C 4
  let mask := Config.loadMask e
  let done := fun (st d : Nat) => complete s n (eTag e) 4 st d
  if count = 0 then done 0 0
  else if (match loadable s n with
      | some ls => !(List.range count).all (fun i => ls.any (fun l => decide (l.1 = tensor) && decide (l.2.1 = first + i) && decide (l.2.2.1 = mask)))
      | none => false) then done 1 0x18
  else match hostBuf s b (count * 65280) with
    | none => done 0x0E 0
    | some l =>
      let bodies := (List.range count).map (fun i =>
        let body := (l.drop (65280 * i)).take 65280
        if mask && badMask body then [] else body)
      modFn s n (fun x => { x with loads := x.loads ++ [⟨eTag e, tensor, first, mask, bodies, false⟩] })

/-- SET_OWNERSHIP (R215). -/
def cmdSetOwnership (n : Nat) (b : HostRead) (s : State) (e : List Byte) : State × Nat × Nat :=
  let count := field e 0x10 8
  withBuf s b (32 * count) (fun l =>
    let es := (List.range count).map (fun i => (l.drop (32 * i)).take 32)
    let ok := es.all (fun r => decide (field r 0 4 % 4096 = 0) && decide (field r 4 4 % 4096 = 0) && decide (field r 8 8 < 2 ^ 48) &&
      decide (field r 0x10 8 < 2 ^ 48) && allZero (r.drop 0x19))
    if ok then
      let own := es.map (fun r => (⟨field r 0 4, field r 4 4, field r 8 8, field r 0x10 8, field r 0x18 1⟩ : OwnEntry))
      (setFnF (modFn s n (fun x => { x with own := own })) n FN_PORT_STATUS_OWN_ENTRIES count, 0, count)
    else (s, 1, 0))

/-- The entries of a route map buffer. -/
def routeWords (l : List Byte) : List Nat := (List.range (l.length / 4)).map (fun i => field l (4 * i) 4)

/-- Bits 5:1 of every entry are zero (Table 8.15). -/
def routeWordsOk (l : List Nat) : Bool := l.all (fun w => decide (bits w 5 1 = 0))

/-- ROUTE_LOAD (R217, R372). -/
def cmdRouteLoad (n : Nat) (b : HostRead) (s : State) (e : List Byte) : State × Nat × Nat :=
  withBuf s b (4 * field e 0x10 8) (fun l =>
    let w := routeWords l
    if routeWordsOk w then (modFn s n (fun x => { x with routeLoaded := some w }), 0, 0) else (s, 1, 0))

/-- The staged entries pass the tests of R46 and R47 (R218). -/
def stagedRoutesOk (s : State) (n : Nat) (r : RouteGen) : Bool :=
  match (fnSt s n).manifest with
  | some m => decide ((placesOf s m r).length = 1) && m.groups.all (groupRoutes r)
  | none => false

/-- ROUTE_STAGE (R218). -/
def cmdRouteStage (n : Nat) (b : HostRead) (s : State) (e : List Byte) : State × Nat × Nat :=
  let x := fnSt s n
  if x.routeStaged.isSome || x.routeShadow.isSome then (s, 5, 0) else
  withBuf s b (4 * field e 0x10 8) (fun l =>
    let r : RouteGen := ⟨x.route.number + 1, routeWords l⟩
    if routeWordsOk r.entries && stagedRoutesOk s n r then
      (setFnF (modFn s n (fun x => { x with routeStaged := some (r, field e 0x18 4) })) n FN_ROUTE_STATUS_STAGED 1, 0, 0)
    else (errFn (flagF s (pgFn n) FN_PORT_STATUS_ROUTE_REFUSED) HDR_ERR_SUMMARY_FABRIC n, 1, 0))

/-! ### Context (R169, R373) -/

/-- The source record (Table 6.8). -/
def sourceRecord (seed step : Nat) : List Byte :=
  let st := lane0 seed step 0 0 0
  leBytes 8 seed ++ leBytes 8 step ++ leBytes 8 st.s0 ++ leBytes 8 st.s1

/-- The context record of a function. -/
def contextRecord (x : FnSt) : List Byte :=
  let seed := match x.manifest with | some m => m.jobSeed | none => 0
  let dig := match x.manifest with | some m => m.digest | none => 0
  let set := match x.progs with | some p => p.digest | none => 0
  let sch := match x.wheel with | some w => w.scheduleId | none => 0
  sourceRecord seed x.step ++ leBytes 8 dig ++ leBytes 8 set ++ leBytes 8 sch ++ leBytes 4 x.epoch ++ zeros 4

/-- SAVE_CONTEXT. -/
def cmdSaveContext (n : Nat) (s : State) (e : List Byte) : State × Nat × Nat := putBuf s n (field e 8 8) (contextRecord (fnSt s n)) 0

/-- RESTORE_CONTEXT: CHECK passes and every other field equals the retained value. -/
def cmdRestoreContext (n : Nat) (b : HostRead) (s : State) (_e : List Byte) : State × Nat × Nat :=
  withBuf s b 64 (fun l =>
    let own := contextRecord (fnSt s n)
    let want := sourceRecord (field l 0 8) (field l 8 8) ++ own.drop 32
    let fields := [(0, 8), (8, 8), (0x10, 8), (0x18, 8), (0x20, 8), (0x28, 8), (0x30, 8), (0x38, 4), (0x3C, 4)]
    match fields.find? (fun f =>
      decide (field l f.1 f.2 ≠ (if f.1 = 0x10 ∨ f.1 = 0x18 then field want f.1 f.2 else field own f.1 f.2))) with
    | some f => (s, 0x0C, f.1)
    | none => (s, 0, 0))

/-! ### Commands on a running function -/

/-- Pages of a NEAR_QUOTA unit of 256 MiB. -/
def quotaPages : Nat := 128

/-- MIGRATE (R33, R34). -/
def cmdMigrate (n : Nat) (s : State) (e : List Byte) : State :=
  let x := fnSt s n
  let page := field e 8 4
  let near := decide (field e 0xC 1 = 1)
  let done := fun (st : Nat) => complete s n (eTag e) 5 st 0
  let pages := match x.manifest with | some m => rangeBytes m / pageBytes | none => 0
  if x.migration.isSome then done 5
  else if pages ≤ page then done 0x0F
  else if x.nearPages.contains page = near then done 0
  else if near ∧ forceF s n FN_STATE_CFG_NEAR_QUOTA * quotaPages ≤ x.nearPages.length then done 0x0F
  else
    let s := bgStart s n 5 (eTag e) page
    setFnF (modFn s n (fun x => { x with migration := some ⟨eTag e, page, near, false⟩ })) n FN_STATE_STATUS_MIGRATING 1

/-- MIGRATION_COPY_DONE: the copy completes and awaits the next step seal; the soft power cap pauses it (R416). -/
def migrationCopied (s : State) (n : Nat) : State :=
  if backgroundPaused s then s else modFn s n (fun x => { x with migration := x.migration.map (fun g => { g with copied := true }) })

/-- At a step seal a copied page changes its tier (R34). -/
def migrationSeal (s : State) (n : Nat) : State :=
  match (fnSt s n).migration with
  | some g =>
    if g.copied then
      let s := modFn s n (fun x => { x with
        migration := none, nearPages := if g.toNear then x.nearPages ++ [g.page] else x.nearPages.filter (fun p => decide (p ≠ g.page)) })
      bgComplete (setFnF s n FN_STATE_STATUS_MIGRATING 0) n 5 0 0
    else s
  | none => s

/-- VERIFY_ROWS (R62). -/
def cmdVerifyRows (n : Nat) (s : State) (e : List Byte) : State :=
  let area := field e 8 1
  let first := field e 0xC 4
  let count := field e 0x10 4
  let rows := match (fnSt s n).manifest with | some m => areaRows m area | none => 0
  if count = 0 then complete s n (eTag e) 6 0 0
  else if rows < first + count then complete s n (eTag e) 6 0x0F 0
  else
    let s := bgStart s n 6 (eTag e) 0
    setFnF (modFn s n (fun x => { x with verify := some ⟨eTag e, area, field e 9 1, first, count, 0, 0, 0, 0⟩ })) n FN_CODE_STATUS_VERIFYING 1

/-- STOP (R359). -/
def cmdStop (n : Nat) (s : State) (e : List Byte) : State :=
  let now := (fnSt s n).step
  let step := if field e 1 1 = 1 then now else field e 8 8
  if step < now then complete s n (eTag e) 0x0C 2 0
  else
    let s := armStop s n step (some (eTag e))
    bgStart s n 0x0C (eTag e) step

/-- FIFE_COLLECTIVE (R224, R372): the contribution is read as limbs from the buffer. -/
def cmdCollective (n : Nat) (b : HostRead) (s : State) (e : List Byte) : State :=
  let layout := field e 0x10 1
  match hostBuf s b 128 with
  | none => complete s n (eTag e) 0x10 0x0E 0
  | some l =>
    let es := (layoutElems layout).getD []
    let limbs := (List.range 23).map (fun i => field l (4 * i) 4)
    collOpen (bgStart s n 0x10 (eTag e) (field e 8 8)) n 7 layout (limbsVals es limbs)

/-- DECLARE_FAILED (R267), on the keeper. -/
def cmdDeclareFailed (n : Nat) (room : Bool) (s : State) (e : List Byte) : State :=
  let x := fnSt s n
  let m := field e 8 1
  let done := fun (st d : Nat) => complete s n (eTag e) 0x11 st d
  if !amKeeper x then done 0x0B 0
  else if m = x.self ∨ memLive x m = false then done 1 8
  else if epochsOpen s n || x.epochWait.isSome || x.kept.isSome then done 5 0
  else declareFailed (modFn (bgStart s n 0x11 (eTag e) m) n (fun x => { x with decl := none })) n m room

/-- EVACUATE (R282, R283). -/
def cmdEvacuate (n : Nat) (room : Bool) (s : State) (e : List Byte) : State :=
  if (fnSt s n).role ≠ 1 then complete s n (eTag e) 0x12 2 0 else evacRequest (bgStart s n 0x12 (eTag e) 0) n room

/-- REJOIN (R284). -/
def cmdRejoin (n : Nat) (s : State) (e : List Byte) : State := rejoinRequest (bgStart s n 0x13 (eTag e) 0) n

/-- CONTRACT (R287): all entries or none; drops accumulate. -/
def cmdContract (n : Nat) (b : HostRead) (s : State) (e : List Byte) : State × Nat × Nat :=
  let count := field e 0x10 8
  withBuf s b (8 * count) (fun l =>
    let x := fnSt s n
    let es := (List.range count).map (fun i => (l.drop (8 * i)).take 8)
    let next := es.foldl (fun (t : Option (Tab Nat)) r =>
      let k := field r 0 4
      match t, (myBuckets x).find? (fun q => decide (q.1 = k)) with
      | some t, some q =>
        let now := tabGet q.2.expected t k
        if field r 6 2 = 0 ∧ field r 4 2 ≤ now then
          (if field r 4 2 = 0 then some t else some (tabPut t k (some (now - field r 4 2)))) else none
      | _, _ => none) (some x.contractNext)
    match next with
    | some t => (modFn s n (fun x => { x with contractNext := t }), 0, 0)
    | none => (s, 1, 0))

/-- RESHARD (R288, R289). -/
def cmdReshard (n : Nat) (b : HostRead) (s : State) (e : List Byte) : State :=
  let x := fnSt s n
  let done := fun (st : Nat) => complete s n (eTag e) 0x15 st 0
  if field e 0x10 8 = 0 then done 0 else
  match hostBuf s b (field e 0x10 8), x.manifest with
  | none, _ => done 0x0E
  | some _, none => done 1
  | some l, some old =>
    if !planHeaderOk l old.digest then done 1 else
    let mb := planManifest l
    let wb := planWheel l
    let new := parseManifest mb
    let w := parseWheel wb
    let parts := planParts l
    let mvs := planMoves l
    if (manifestFailing mb).isNone && manifestKeeps old new && decide (fnF s n FN_STATE_STATUS_PENDING = 0) && (wheelFailing wb).isNone &&
        !wheelFails s n { x with manifest := some new, wheel := some w } && movesOk x old new parts mvs && partsOk s x old parts mvs then
      match parts.findIdx? (fun d => decide (dieBits d = selfDie s)) with
      | some me =>
        modFn (bgStart s n 0x15 (eTag e) 0) n (fun x => { x with
          plan := some ⟨parts, me, new, w, mvs, 0, 0, 0, [], [], false, [], [], []⟩ })
      | none => done 1
    else done 1

/-! ### Floor, reload and remap commands -/

/-- SNAPSHOT (R302). -/
def cmdSnapshot (n : Nat) (s : State) (e : List Byte) : State :=
  let step := field e 8 8
  if step ≤ (fnSt s n).step then complete s n (eTag e) 0x18 1 8
  else modFn (bgStart s n 0x18 (eTag e) step) n (fun x => { x with snapAt := some (step, 0) })

/-- FLOOR_FORMAT (R299). -/
def cmdFloorFormat (n : Nat) (fails : List Nat) (s : State) (e : List Byte) : State :=
  bgComplete (floorFormat (bgStart s n 0x19 (eTag e) 0) fails) n 0x19 0 0

/-- FLOOR_LIST: the three parts of the newest catalog (R298, R372). -/
def cmdFloorList (n : Nat) (s : State) (e : List Byte) : State × Nat × Nat :=
  let b := s.floor.sysBand
  match (scanBand s b (fun p => !bit (bandAt s b).bad (blockBit p))).1 with
  | some parts => putBuf s n (field e 8 8) (parts.map (fit 65536)).flatten (field (parts.headD []) 8 8)
  | none => (s, 2, 0)

/-- RELOAD (R320): the command runs in the background once its plan is accepted. -/
def cmdReload (n : Nat) (b : HostRead) (s : State) (e : List Byte) : State :=
  if field e 0x10 8 = 0 then complete s n (eTag e) 0x1B 0 0 else
  match hostBuf s b (field e 0x10 8) with
  | none => complete s n (eTag e) 0x1B 0x0E 0
  | some l =>
    let r := reloadTry s n l
    if r.1 = 0 then todo (bgStart r.2 n 0x1B (eTag e) 0) (.startCheck n) else complete s n (eTag e) 0x1B r.1 0

/-- CLEAR_REMAP (R342). -/
def cmdClearRemap (s : State) (e : List Byte) : State × Nat × Nat :=
  let r := clearRemap s (4 * field e 8 1 + field e 9 1) (field e 0xA 2)
  (r.1, 0, r.2)

/-- TWIN_REPORT (R435). -/
def cmdTwinReport (n : Nat) (s : State) (e : List Byte) : State × Nat × Nat :=
  match s.twin.report with
  | some r => putBuf s n (field e 8 8) r 0
  | none => (s, 2, 0)

/-! ### MRAM and firmware commands (Table 14.9) -/

/-- NVM_STORE and NVM_CLEAR. -/
def cmdStore (s : State) (e : List Byte) : State := storeStart (bgStart s 0 (eOp e) (eTag e) 0) (eOp e) (field e 8 2)

/-- LOG_READ. -/
def cmdLogRead (s : State) (e : List Byte) : State × Nat × Nat :=
  putBuf s 0 (field e 8 8) (logRead s (field e 0x10 4) (field e 0x14 4)) (field e 0x14 4)

/-- FW_DOWNLOAD. -/
def cmdDownload (b : HostRead) (s : State) (e : List Byte) : State × Nat × Nat := withBuf s b 4096 (fun l => fwDownload s (field e 0x10 4) l)

/-- FW_VERIFY and FW_ACTIVATE begin. -/
def cmdVerify (s : State) (e : List Byte) : State := fwStage (bgStart s 0 0x34 (eTag e) 0) 2 (inactiveSlot s.nvm.boot)
def cmdActivate (s : State) (e : List Byte) : State := fwStage (bgStart s 0 0x35 (eTag e) 0) 3 (inactiveSlot s.nvm.boot)

/-- FW_CONFIRM and FW_ABANDON. -/
def cmdConfirm (s : State) (_e : List Byte) : State × Nat × Nat :=
  let s := fwConfirm s
  (s, 0, s.nvm.boot.minSvn)
def cmdAbandon (s : State) (e : List Byte) : State := fwAbandon (bgStart s 0 0x37 (eTag e) 0)

/-- KEY_ADD and KEY_REVOKE. -/
def cmdKeyAdd (b : HostRead) (s : State) (_e : List Byte) : State × Nat × Nat := withBuf s b 320 (fun l => keyAdd s l)
def cmdKeyRevoke (s : State) (e : List Byte) : State × Nat × Nat := keyRevoke s (field e 8 1)

end Sys2Proof.Machine
end

