-- ==== Sys2Proof/Machine/StepSeal.lean ====
section
/-!
DEFINITION. The step seal (R86): what follows the closing of a step barrier: the near list (R189), EXACT_LOST (R193), the
shard chain and the step record (R421 to R423), the current step, PENDING (R40), page migrations (R34), a staged route
generation (R218), a membership switch (R269), a snapshot that falls due (R301), an armed stop (R359), and the opening of the
next intake.
-/

namespace Sys2Proof.Machine

/-! ### What is compared and recorded -/

/-- R189: pages that the wheel image lists as near but that are resident in the deep tier, as one PLACEMENT record. -/
def placementRecord (s : State) (n : Nat) : State :=
  let x := fnSt s n
  match x.wheel with
  | some w =>
    let far := (w.nearList.filter (fun p => !x.nearPages.contains p)).length
    let s := setFnF s n FN_WHEEL_STATUS_PLACEMENT_MISMATCH (b2n (decide (far ≠ 0)))
    if far = 0 then s else slip s n 0x10 0xFF 0xFF 0xFF far
  | none => s

/-- R193: EXACT_LOST for a REPEATABLE step, with REQUIRE_EXACT. -/
def exactLost (s : State) (n : Nat) : State :=
  let x := fnSt s n
  if x.slips ≠ 0 ∧ forceF s n FN_WHEEL_CTRL_REQUIRE_EXACT = 1 then
    postEvent s n 0x0022 (leBytes 8 x.step ++ leBytes 4 x.slips)
  else s

/-- A(t): the XOR of the CHAIN_LINK of every state leaf of the shard as the leaves stand; of an unrebuilt row, the link that
decoding gives (R422). -/
def anchorValue (s : State) (n : Nat) : Nat :=
  let x := fnSt s n
  (stateRows x).foldl (fun acc q =>
    let slot := heldSlot s n x.self 0 0 q.1
    let link :=
      if x.unrebuilt.contains (x.self, 0, 0, q.1) then (Config.unrebuiltLink n x.self q.1 x.step).toNat
      else if pmKind slot = 1 then pmChain slot else 0
    acc ^^^ link) 0

/-- SC(t) from a start, a value and t (R421). -/
def chainNext (start value t : Nat) : Nat := crc64 (leBytes 8 start ++ leBytes 8 value ++ leBytes 8 t)

/-- FLAGS of a step record (Table 16.1). -/
def recordFlags (s : State) (n : Nat) (anchored : Bool) : Nat :=
  let x := fnSt s n
  let nd := match x.progs with | some p => setNd p | none => false
  b2n anchored + 2 * b2n (decide (x.slips = 0)) + 4 * b2n x.reran + 8 * b2n nd + 16 * b2n x.nonfinite +
    32 * b2n (isTwin s n && twinArmed s && !x.uncompared)

/-- The chain of the sealed step and its step record (R421 to R423). -/
def stepRecord (s : State) (n : Nat) : State :=
  let x := fnSt s n
  let t := x.step
  let a := if x.anchor then anchorValue s n else 0
  let sc := if x.anchor then chainNext 0 a t else chainNext x.chain x.xval t
  let flags := recordFlags s n x.anchor
  let s := modFn s n (fun x => { x with chain := sc, anchor := false })
  let s := setFnF s n FN_WHEEL_STATUS_LAST_EXACT (b2n (decide (x.slips = 0)))
  digRecord s n (fun seq =>
    leBytes 1 1 ++ leBytes 1 flags ++ leBytes 2 x.group ++ leBytes 4 seq ++ leBytes 8 t ++ leBytes 8 x.xval ++ leBytes 8 sc ++
    leBytes 8 x.norm2 ++ leBytes 8 x.tokens ++ leBytes 4 x.xslots.length ++ leBytes 1 x.self ++ zeros 3 ++ leBytes 8 a)

/-- Pending gradient generations that hold at least one non-null gradient leaf on this member, step `t` sealed (R40). -/
def pendingCount (s : State) (n t : Nat) : Nat :=
  let x := fnSt s n
  match x.manifest, grpOf x with
  | some m, some g =>
    ((List.range m.d).filter (fun i =>
      let u := t - i
      decide (i ≤ t) && (List.range m.gradRows).any (fun j =>
        isData g.k g.n x.self j &&
          (let slot := heldSlot s n x.self 1 (u % (m.d + 1)) j
           decide (pmKind slot = 2) && decide (pmStamp slot = u))))).length
  | _, _ => 0

/-! ### The next intake -/

/-- Intake of the current step opens, unless a re-shard or a waiting adoption holds it (R86, R269, R290). -/
def intakeNext (s : State) (n : Nat) : State :=
  let x := fnSt s n
  if stateOf s n = 2 && decide (x.role = 1) && !x.opened && x.epochWait.isNone && x.plan.isNone && !x.aborting then
    openIntake (modFn s n (fun x => { x with intakeFrom := some s.counter })) n 0
  else s

/-- SHADOW_RETIRE: 32,768 ticks after the old-generation packets in flight first reached zero the shadow retires (R220); an
adoption that waited for it goes on, and the intake that waited opens. -/
def shadowRetired (s : State) (n : Nat) : State :=
  match (fnSt s n).routeShadow, (fnSt s n).shadowZeroAt with
  | some _, some t =>
    let s := modFn (advanceTo s (t + 32768)) n (fun x => { x with routeShadow := none, shadowZeroAt := none })
    intakeNext (shadowGone (showRoute s n) n) n
  | _, _ => s

/-! ### The seal -/

/-- The dies of the members and spares of the own group as the current generation translates them (R47, R218). -/
def recordFromRoute (x : FnSt) : FnSt :=
  match grpOf x with
  | none => x
  | some g =>
    let die := fun (id old : Nat) => (routeEntry x.route id).getD old
    { x with
      members := (List.range x.members.length).map (fun i =>
        let e := x.members.getD i ⟨false, 0, []⟩
        if e.live then { e with die := die (g.routeBase + i) e.die } else e),
      spares := (List.range x.spares.length).map (fun i =>
        let e := x.spares.getD i ⟨false, 0⟩
        if e.standby then { e with die := die (g.spareBase + i) e.die } else e) }

/-- A staged route generation whose switch seal this is becomes current (R218), which changes the endpoints that the member
record names (R47). -/
def switchAtSeal (s : State) (n i : Nat) : State :=
  match (fnSt s n).routeStaged with
  | some (_, w) =>
    if w = i then showRoute (watchUpdate (showRecord (modFn (routeSwitch s n) n recordFromRoute) n)) n else s
  | none => s

/-- The stop armed at the seal of step `t`, if any, ends its command and drains the function (R359). -/
def stopAtSeal (s : State) (n t : Nat) : State :=
  match (fnSt s n).stop with
  | some a =>
    if a.step = t then
      let s := match a.tag with
        | some _ => bgComplete s n 0x0C 0 t
        | none => s
      drainStop s n
    else s
  | none => s

/-- The step seal of the current step, its barrier closed at `c`. -/
def stepSeal (s : State) (n c : Nat) : State :=
  let t := (fnSt s n).step
  let s := stepRecord (exactLost (placementRecord s n) n) n
  let s := modFn s n (fun x => { x with
    step := t + 1, opened := false, attempt := 0, sealedPasses := x.sealedPasses + 1, passOn := false, groupDone := false,
    scalarsDone := false, gradSealed := false, intakeOpen := false, passRun := true })
  let s := schedStop (setFnF (setFnF s n FN_STEP_STATUS_RERUN 0) n FN_STEP_STATUS_PHASE 0) n
  let s := showStep (setFnF s n FN_STATE_STATUS_PENDING (pendingCount s n t)) n
  let s := switchAtSeal (migrationSeal s n) n 0xFFFFFFFF
  let s := snapshotDue s n t c
  let s := fwStepSeal (adoptSwitch s n t)
  let s := stopAtSeal s n t
  if stateOf s n ≠ 2 then s
  else if (fnSt s n).plan.isSome then reshardBegin s n t
  else
    let s := intakeNext s n
    if (fnSt s n).opened then switchTry s n else s

end Sys2Proof.Machine
end

