-- ==== Sys2Proof/Machine/Settle.lean ====
section
/-!
DEFINITION. What follows within one command from what the command did: seals that fired (R449), collectives that closed
(R227), aborts raised (R361), and the steps that wait for them. Each consequence is put on the agenda by its cause and
carried out here, first in first out.
-/

namespace Sys2Proof.Machine

/-! ### Seals (R67, R86, R107, R218) -/

/-- Probe seals of a function with an index fire: the window is fixed, and packets that waited for it are replayed. -/
def probeSeals (s : State) (i : Nat) : State :=
  (List.range 64).foldl (fun s n =>
    if (sealAt s i).owner = n ∧ actsRunning s n = true then
      (myBuckets (fnSt s n)).foldl (fun s q => if q.2.auto && decide (q.2.probeSeal = i) then parkReplay (probeFired s n q.1 q.2) n else s) s
    else s) s

/-- The group seal of a function has fired: the member arrives at the group barrier. -/
def groupSealFired (s : State) (n i : Nat) : State :=
  let x := fnSt s n
  match grpOf x with
  | some g =>
    if g.groupSeal = i ∧ x.passOn ∧ !x.groupDone ∧ (collAt x 1).opened = false ∧ actsRunning s n then
      collOpen (setFnF s n FN_STEP_STATUS_PHASE 4) n 1 0 []
    else s
  | none => s

/-- A seal object fired. -/
def onSeal (s : State) (i : Nat) : State :=
  let n := (sealAt s i).owner
  let s := probeSeals s i
  let s := groupSealFired (partialsCheck s n) n i
  (List.range 64).foldl (fun s k => switchAtSeal s k i) s

/-! ### Collectives (R64, R66, R227, R233) -/

/-- NORM2 as FP64, rounded once to nearest even (R231). -/
def norm2Fp64 (v : Nat) : Nat :=
  let i : Int := if v < 2 ^ 639 then v else (v : Int) - 2 ^ 640
  match floatFmt 14 with
  | some f => toFloat f false .rne (.fin (decide (i < 0)) i.natAbs (-300))
  | none => 0

/-- The scalar reduction closed at C: the step scalars, and the value from which the pass start is computed. -/
def scalarsClosed (s : State) (n c : Nat) (vals : List Nat) : State :=
  let nf := decide (vals.getD 2 0 % 2 = 1)
  let s := modFn s n (fun x => { x with
    norm2 := norm2Fp64 (vals.getD 0 0), tokens := vals.getD 1 0, nonfinite := nf, scalarsDone := true,
    passFrom := some c, rerunDue := false })
  gradSealCheck (setFnF s n FN_STEP_STATUS_NONFINITE (b2n nf)) n

/-- A software collective closed: the result goes to its host buffer, then the command completes with C (R224). -/
def softwareClosed (s : State) (n c layout : Nat) (vals : List Nat) : State :=
  match bgFind s n 0x10 with
  | some q =>
    let limbs := valsLimbs ((layoutElems layout).getD []) vals
    let s := if limbs.isEmpty then s else hostWrite s n q.arg (limbs.map (leBytes 4)).flatten
    bgComplete s n 0x10 0 c
  | none => s

/-- The member arrives at the step barrier, when its group barrier has closed and nothing keeps it (R86, R281). -/
def stepArrive (s : State) (n : Nat) : State :=
  let x := fnSt s n
  if x.groupDone ∧ !x.aborting ∧ (collAt x 2).opened = false ∧ stepClear s n ∧ actsRunning s n then collOpen s n 2 0 [] else s

/-- The abort barrier closed: recovery, unless the die stays at the barrier in HOLD (R316, R361). -/
def abortClosed (s : State) (n : Nat) : State :=
  if !(fnSt s n).aborting then s
  else if holding s then
    { s with hold := s.hold.map (fun h => { h with barriers := if h.barriers.contains n then h.barriers else h.barriers ++ [n] }) }
  else recoveryStart s n

/-- What a participant does when the collective of a slot closes at C. -/
def collClosed (s : State) (n off c layout : Nat) (vals : List Nat) : State :=
  if off = 0 then scalarsClosed s n c vals
  else if off = 1 then
    let s := modFn s n (fun x => { x with groupDone := true })
    if (fnSt s n).aborting then s else stepArrive (setFnF s n FN_STEP_STATUS_PHASE 5) n
  else if off = 2 then (if (fnSt s n).loadPass then loadPassClosed s n c else stepSeal s n c)
  else if off = 3 then abortClosed s n
  else if off = 4 then (if (fnSt s n).aborting then resumed s n c else s)
  else if off = 5 then startClosed s n c vals
  else if off = 6 then permuteClosed s n c
  else softwareClosed s n c layout vals

/-- A collective ended without a result (R228, R233, R455). -/
def collEnded (s : State) (n off status : Nat) : State :=
  if status = 3 then
    let seq := ((collAt (fnSt s n) off).seq + 255) % 256
    let s := errFn (postEvent (flagF s (pgFn n) FN_FIFE_STATUS_RESIDUE_FAIL) n 0x0042 (leBytes 1 off ++ leBytes 1 seq))
      HDR_ERR_SUMMARY_FIFE n
    if off = 0 then bugleSound s n 7 false
    else if off = 7 then bgComplete s n 0x10 1 0
    else s
  else if status = 2 then
    if off = 5 then startConflict s n
    else if off = 7 then bgComplete s n 0x10 1 0
    else s
  else s

/-- A result reached this participant, or its collective ended. -/
def onColl (s : State) (n off status c : Nat) (vals : List Nat) : State :=
  let q := collAt (fnSt s n) off
  if q.opened then
    let s := collTake s n off status c vals
    if status = 0 then collClosed s n off c q.layout vals else s
  else if status = 0 then s
  else collEnded s n off status

/-! ### Aborts (R361) -/

/-- A function abort with a cause of Table 13.4. Under the causes without a Bugle the die aborts alone and stops. -/
def fnAbort (s : State) (n cause : Nat) : State :=
  if cause = 2 then bugleSound s n 4 false
  else if cause = 3 then bugleSound s n 5 false
  else
    let s := setFnF s n FN_STATE_ABORT_CAUSE cause
    if actsRunning s n then
      passAbort (abortOver (setFnF (cancelAll s n) n FN_RECOVERY_STATUS_ACTIVE 0) n) n false true true
    else cancelRestart s n

/-- The pass abort of a group at an epoch bump (R90, Table 3.8). -/
def groupAbort (s : State) (n : Nat) : State :=
  if actsRunning s n ∧ !(fnSt s n).aborting then passAbort s n true false false else s

/-- The die is reported for evacuation (R141, R282). -/
def reportEvacuation (s : State) : State :=
  let s := postEvent s 0 0x0057 (leBytes 4 (wordAt s (pgPort + 0x080)).toNat)
  (List.range 64).foldl (fun s n =>
    if n ≠ 0 ∧ stateOf s n = 2 ∧ forceF s n FN_MEMB_CTRL_AUTO_EVAC = 1 then evacRequest s n (Config.othersRoom n s.ticks) else s) s

/-! ### The agenda -/

/-- Carry out one consequence. -/
def runTodo (s : State) (t : Todo) : State :=
  match t with
  | .sealFired i => onSeal s i
  | .collDone n off status c vals => onColl s n off status c vals
  | .delivered n off => if off = 0 then gradSealCheck s n else s
  | .sound n cause => bugleSound s n cause false
  | .integrity n cause => integrityAbort s n cause
  | .abort n cause => fnAbort s n cause
  | .drainStart n => drainStop s n
  | .groupAbort n => groupAbort s n
  | .withdraw cause => withdrawDie s cause 0
  | .trialFault cause => trialFault s cause
  | .drainCheck n => drainCheck s n
  | .gradCheck n => gradSealCheck (partialsCheck s n) n
  | .channelFailed ch => channelFail s ch
  | .gradSealed n => sendGseal s n
  | .startCheck n => reloadProgress (reshardCheck (loadProgress s n) n) n
  | .stepArrive n => stepArrive s n
  | .putDone n => reloadProgress (putsCheck (copyCheck s n) n) n
  | .evacuate => reportEvacuation s
  | .resetFn n => resetFn s n false
  | .openColl n off layout vals => collOpen s n off layout vals
  | .changeAgain n => changeAgain s n

/-- Carry out what is on the agenda, at most `k` consequences. -/
def runAgenda : Nat → State → State
  | 0, s => s
  | k + 1, s =>
    match s.agenda with
    | [] => s
    | t :: rest => runAgenda k (runTodo { s with agenda := rest } t)

/-- During a firmware switch the data plane alone goes on: probe seals fix their windows, and everything else on the agenda
waits for the end of the switch (R395). -/
def heldProbes (s : State) : State :=
  s.agenda.foldl (fun s t => match t with
    | .sealFired i => probeSeals s i
    | _ => s) s

/-- Note when the old-generation packets in flight of a function first reach zero (R220). -/
def shadowCount (s : State) (n : Nat) : State :=
  let x := fnSt s n
  if oldInFlight s n ≠ 0 then (if x.shadowZeroAt = none then s else setFnSt s n { x with shadowZeroAt := none })
  else if x.shadowZeroAt = none then setFnSt s n { x with shadowZeroAt := some s.ticks }
  else s

/-- Every shadow's count is looked at. -/
def shadowNotes (s : State) : State :=
  s.fns.foldl (fun s e => if e.2.routeShadow.isSome then shadowCount s e.1 else s) s

/-- After every command: what a HOLD does to a firmware activation, then the agenda (the bound is the model's own; no command
puts more on the agenda). -/
def settle (s : State) : State :=
  let s := fwHoldCheck s
  shadowNotes (if switching s then heldProbes s else runAgenda 65536 s)

end Sys2Proof.Machine
end

