-- ==== Sys2Proof/Machine/Window.lean ====
section
/-!
DEFINITION. The register window (R436 to R446): what a register reads as, the rights of each source (R354, R438), HI latches
and read-clear fields (R437, R12), and the writes, each register's fields by their access types (R12, R439, R444) and the
fields whose writes act.
-/

namespace Sys2Proof.Machine

/-! ### Sources (R353, R438) -/

/-- The job function a source is, if it is one. -/
def sourceJob : Source → Option Nat
  | .mf => none
  | .mc => none
  | .jf n => some n.val

/-- The source has a BAR to reach the window through: JFn only while virtual function n is enabled (R353). -/
def sourceOn (s : State) (src : Source) : Bool :=
  match sourceJob src with
  | none => true
  | some n => decide (1 ≤ n) && decide (n ≤ s.vfs)

/-- The number of a source's set of HI latches. -/
def readerId : Source → Nat
  | .mf => 0
  | .mc => 64
  | .jf n => n.val

/-! ### What a register reads as (R440, R441, R452) -/

/-- KIND of a page (Table 17.4). -/
def kindCode : PageKind → Nat
  | .global => 1 | .region => 2 | .slice => 3 | .fn => 4 | .wheel => 5 | .port => 6 | .fife => 7 | .drone => 8 | .floor => 9
  | .nvm => 10 | .clkpwr => 11 | .twin => 12 | .seal => 13

/-- A register of a unit that Lyith-C has not: the whole floor page, and the twin page behind its header (R6, R440). -/
def unitAbsent (s : State) (k : PageKind) (o : Nat) : Bool :=
  decide (s.variant = .C) && (decide (k = .floor) || (decide (k = .twin) && decide (0x40 ≤ o)))

/-- PAGE_STATUS (Table 17.6). -/
def pageStatus (s : State) (k : PageKind) (i : Nat) : Nat :=
  let present := !(decide (k = .twin) && decide (s.variant = .C))
  let powered := match k with
    | .slice => bit (getF s pgClkpwr CLKPWR_DOMAIN_STATUS_SL) i
    | .floor => decide (getF s pgClkpwr CLKPWR_DOMAIN_STATUS_FLOOR = 1)
    | _ => true
  let fenced := decide (k = .region) && decide (getF s (pgRegion i) Q_FENCE_FENCED = 1)
  let failed := match k with
    | .slice => decide (getF s (pgSlice i) SL_CORE_STATUS_FAILED ≠ 0) || decide (getF s (pgSlice i) SL_LINE_STATUS_FAILED ≠ 0)
    | .global => decide (getF s pgGlobal GLOBAL_WITHDRAW_WITHDRAWN = 1)
    | _ => false
  b2n present * 2 ^ 31 + b2n powered * 2 ^ 30 + b2n fenced * 2 ^ 29 + b2n failed * 2 ^ 28

/-- PAGE_CAP (Table 0.3, R5, R441): bits 2:0 name the units the variant has. -/
def pageCap (s : State) (k : PageKind) : Nat :=
  let units := if s.variant = .F then 7 else 0
  match k with
  | .global => (if s.variant = .F then 1 else 2) * 2 ^ 28 + 16 * 2 ^ 23 + 64 * 2 ^ 16 + units
  | .fn => units
  | _ => 0

/-- A word of the seal window behind a page's header (R447). -/
def sealWordAt (s : State) (p o : Nat) : Nat :=
  let i := 252 * p + (o - 0x40) / 16
  if o < 0x40 ∨ 16384 ≤ i then 0 else field (sealBytes (sealAt s i)) ((o - 0x40) % 16) 4

/-- The register behind the header of a page as MF reads it, live fields computed, WO fields zero (R12). -/
def registerWord (s : State) (k : PageKind) (i o a : Nat) : Nat :=
  if k = .fn ∧ i = 0 ∧ 0x100 ≤ o then 0
  else if k = .fn ∧ i = 0 ∧ o = 0x044 then putFld FN_STATE_STATE (wordAt s a).toNat 1
  else if k = .fn ∧ o = 0x170 then putFld FN_ROUTE_STATUS_IN_FLIGHT (wordAt s a).toNat (min 0x1FFF (oldInFlight s i))
  else if k = .fn ∧ o = 0x1A4 then putFld FN_FLOOR_STATUS_RELOADING (wordAt s a).toNat (b2n (fnSt s i).reload.isSome)
  else if k = .wheel ∧ o = 0x048 then s.counter % 2 ^ 32
  else if k = .wheel ∧ o = 0x04C then s.counter / 2 ^ 32 % 2 ^ 32
  else if k = .clkpwr ∧ o = 0x048 then putFld CLKPWR_HEALTH_CODE (wordAt s a).toNat (healthCode s)
  else match descAt k o with
    | none => 0
    | some d => (wordAt s a).toNat &&& (0xFFFFFFFF ^^^ d.wo)

/-- The word at a window offset as MF reads it, a HI register live (R438, R440, R452). -/
def readWord (s : State) (a : Nat) : Nat :=
  match pageAt a with
  | none => 0
  | some (k, i) =>
    let o := a % 4096
    if unitAbsent s k o then 0
    else if o = 0x000 then 0x1A5E0000 + kindCode k * 256 + (if k = .region ∨ k = .slice ∨ k = .fn ∨ k = .seal then i else 0)
    else if o = 0x004 then 0x00010000
    else if o = 0x008 then pageCap s k
    else if o = 0x00C then pageStatus s k i
    else if k = .seal ∧ 0x40 ≤ o then sealWordAt s i o
    else registerWord s k i o a

/-- The HI register at a window offset that a read of its LO register latches (R437). -/
def isLatched (a : Nat) : Bool :=
  match pageAt a with
  | some (k, _) => match descAt k (a % 4096) with | some d => d.latched | none => false
  | none => false

/-- May a source read what lies at a window offset (R354, R451)? -/
def mayRead (s : State) (src : Source) (a : Nat) : Bool :=
  match sourceJob src, pageAt a with
  | none, _ => true
  | some n, some (.fn, i) => decide (i = n)
  | some n, some (.seal, p) =>
    let i := 252 * p + (a % 4096 - 0x40) / 16
    decide (0x40 ≤ a % 4096) && decide (i < 16384) && decide ((sealAt s i).owner = n) && decide ((sealAt s i).arms ≠ 0)
  | some _, _ => true

/-- Key of a source's HI latch. -/
def latchKey (src : Source) (a : Nat) : Nat := readerId src * 16777216 + a

/-- The RC fields of a register (R12). -/
def rcMask (s : State) (a : Nat) : Nat :=
  match pageAt a with
  | some (k, i) =>
    if unitAbsent s k (a % 4096) || (decide (k = .fn) && decide (i = 0) && decide (0x100 ≤ a % 4096)) then 0
    else match descAt k (a % 4096) with | some d => d.rc | none => 0
  | none => 0

/-- One read of a 4-byte word through the window, with its side effects: RC fields clear, and a LO read loads the reader's
latch with the high word of the same instant (R12, R437). -/
def windowRead (s : State) (src : Source) (a : Nat) : State :=
  let a := a / 4 * 4
  if !sourceOn s src || decide (0x1000000 ≤ a) then s
  else if !mayRead s src a then { s with answer := some 0 }
  else if isLatched a then { s with answer := some (BitVec.ofNat 32 (tabGet 0 s.latch (latchKey src a))) }
  else
    let v := readWord s a
    let s := if isLatched (a + 4) then { s with latch := tabSet 0 s.latch (latchKey src (a + 4)) (readWord s (a + 4)) } else s
    let rc := rcMask s a
    let s := if rc = 0 then s else setWord s a (wordAt s a &&& BitVec.ofNat 32 (0xFFFFFFFF ^^^ rc))
    { s with answer := some (BitVec.ofNat 32 v) }

/-! ### Who may write (R354, R444) -/

/-- May a source write the page at a window offset? -/
def mayWrite (src : Source) (a : Nat) : Bool :=
  match sourceJob src, pageAt a with
  | none, _ => true
  | some n, some (.fn, i) => decide (i = n) && decide (a % 4096 ≠ 0x024)
  | some _, _ => false

/-- The page of a window offset is locked (R444). -/
def pageLocked (s : State) (a : Nat) : Bool := decide (getF s (a / 4096 * 4096) HDR_LOCK_LOCKED = 1)

/-- A write through the window by a source: nothing where the page or its unit is not there; DENIED where the source has no
right; else `f`. -/
def windowWrite (s : State) (src : Source) (a : Nat) (f : State → State) : State :=
  if !sourceOn s src then s else
  match pageAt a with
  | none => s
  | some (k, _) =>
    if unitAbsent s k (a % 4096) then s
    else if mayWrite src a then f s
    else match sourceJob src with
      | some n => raiseFn s n FN_INT_DENIED
      | none => s

/-! ### Header registers -/

/-- PAGE_CTRL.CLEAR_COUNTS: every RC field of the page clears at once (R445). -/
def clearCounts (s : State) (pg : Nat) : State :=
  match pageAt pg with
  | none => s
  | some (k, _) => (allRegs k).foldl (fun s d =>
      if d.rc = 0 then s else setWord s (pg + d.off) (wordAt s (pg + d.off) &&& BitVec.ofNat 32 (0xFFFFFFFF ^^^ d.rc))) s

/-- Bits of INT_STATUS and INT_ENABLE that are both set request their vector: on an FN page the one that MSIX_MAP names, on
any other MF's ERR_VEC (R376, R443). -/
def requestInts (s : State) (pg mask : Nat) : State :=
  (List.range 32).foldl (fun s b =>
    if bit mask b && bit (wordAt s (pg + 0x018)).toNat b && bit (wordAt s (pg + 0x01C)).toNat b then
      (if 0x20000 ≤ pg then msiRequest s ((pg - 0x20000) / 4096) (fnVector s ((pg - 0x20000) / 4096) b)
       else msiRequest s 0 (fnF s 0 FN_MSIX_MAP_ERR_VEC))
    else s) s

/-- The interrupt bits of a page (R443): LOCK_VIOLATION is there on FN0 alone (Table 13.13). -/
def pageIrq (pg : Nat) : Nat :=
  match pageAt pg with
  | none => 0
  | some (.fn, i) => if i = 0 then 0xFE000000 else 0xFC000000
  | some (k, _) => kindIrq k

/-- A write of INT_ENABLE: newly enabled bits that are set request their vector. -/
def writeIntEnable (s : State) (pg v : Nat) : State :=
  let old := (wordAt s (pg + 0x01C)).toNat
  let v := v &&& pageIrq pg
  let s := plainWrite s (pg + 0x01C) v
  requestInts s pg (v &&& (0xFFFFFFFF ^^^ old))

/-- INT_FORCE: each 1 sets that bit of INT_STATUS (R376). -/
def forceInts (s : State) (pg v : Nat) : State :=
  let m := v &&& pageIrq pg
  requestInts (setWord s (pg + 0x018) (wordAt s (pg + 0x018) ||| BitVec.ofNat 32 m)) pg m

/-- A write of LOCK: the first after the owning reset fixes LOCKED, a later one is ignored under RWL (R12, R444). -/
def writeLock (s : State) (pg v : Nat) : State :=
  let a := pg + 0x024
  if s.rwl.contains a then lockViolation s a
  else setF { s with rwl := s.rwl ++ [a] } pg HDR_LOCK_LOCKED (v % 2)

/-! ### Registers whose writes act -/

/-- FN_ENABLE_LO and HI: each enable bit that a write changes (R357). -/
def writeEnables (s : State) (base old v : Nat) : State :=
  (List.range 32).foldl (fun s b =>
    if base + b = 0 ∨ bit old b = bit v b then s
    else if bit v b then enableSet s (base + b) else enableClear s (base + b)) s

/-- LY_FNn_CTRL: RESET, then STOP, then START (R458). -/
def writeCtrl (s : State) (n v : Nat) : State :=
  let s := if bit v 29 then resetFn s n false else s
  let s := if bit v 30 then ctrlStop s n else s
  if bit v 31 then startFn s n else s

/-- PB_CTRL.ARM (R367, R370). -/
def writeArm (s : State) (n v : Nat) : State :=
  if bit v 31 = armed s n then s else if bit v 31 then armBox s n else disarmBox s n

/-- LY_WHEEL_CTRL.LAUNCH and SET do nothing until the position is written (R411). -/
def launchWrite (s : State) : State := if positioned s then launch s else s
def setWrite (s : State) : State := if positioned s then counterSet s else s

/-- LY_WHEEL_CTRL: LEN_LOG2 where it changes, HOT_PCT, LAUNCH, SET. -/
def writeWheelCtrl (s : State) (v : Nat) : State :=
  let len := fldOf WHEEL_CTRL_LEN_LOG2 v
  let s := if len = getF s pgWheel WHEEL_CTRL_LEN_LOG2 then s else setLen s len
  let s := setF s pgWheel WHEEL_CTRL_HOT_PCT (fldOf WHEEL_CTRL_HOT_PCT v)
  let s := if bit v 27 then launchWrite s else s
  if bit v 26 then setWrite s else s

/-- LY_CLKPWR_GATE.SL: each bit that a write changes (R403, R404). -/
def writeGate (s : State) (old v : Nat) : State :=
  (List.range 16).foldl (fun s b =>
    if bit old b = bit v b then s else if bit v b then gateSlice s b else ungateSlice s b) s

/-- LY_CLKPWR_RESET: slices, regions, chip (R407). A chip reset samples the straps, which stand as they are. -/
def writeReset (s : State) (src : Source) (v : Nat) : State :=
  let s := (List.range 16).foldl (fun s b => if bit v b then sliceReset s b else s) s
  let s := (List.range 4).foldl (fun s q => if bit v (16 + q) then regionReset s q else s) s
  if bit v 31 then chipResetRequest s (if src = .mc then 5 else 3) (getF s pgClkpwr CLKPWR_STRAP_WORD) else s

/-- The push area would take in unit 0, or meet the landing area or layer windows of a busy function (R306). -/
def pushClash (s : State) (base size : Nat) : Bool :=
  decide (size ≠ 0) && (decide (base = 0) ||
    (List.range 64).any (fun n => isBusyFn s n && (unitsMeet (base, size) (landUnits s n) || unitsMeet (base, size) (windowUnits s n))))

/-- LY_FLOOR_PUSH_AREA: ignored during a sweep; refused where it would clash (R306, R324). -/
def writePushArea (s : State) (v : Nat) : State :=
  let base := fldOf FLOOR_PUSH_AREA_PUSH_BASE v
  let size := fldOf FLOOR_PUSH_AREA_PUSH_SIZE v
  if (List.range 64).any (fun n => (fnSt s n).sweep.isSome) then s
  else if pushClash s base size then lockViolation s (pgFloor + 0x048)
  else plainWrite s (pgFloor + 0x048) v

/-- LY_NVM_FW_CTRL: UPDATE_LOCK is RWL, the other fields RW. -/
def writeFwCtrl (s : State) (v : Nat) (locked : Bool) : State :=
  let a := pgNvm + 0x048
  let s := plainWrite s a v
  if locked then s
  else if s.rwl.contains a then lockViolation s a
  else setF { s with rwl := s.rwl ++ [a] } pgNvm NVM_FW_CTRL_UPDATE_LOCK (v / 2 ^ 31 % 2)

/-- Registers of an FN page whose writes act. -/
def writeFn (s : State) (n o v : Nat) : State :=
  let a := pgFn n + o
  if n = 0 ∧ 0x100 ≤ o then s
  else if o = 0x040 then writeCtrl s n v
  else if o = 0x048 then writeArm s n v
  else if o = 0x04C ∨ (0x050 ≤ o ∧ o ≤ 0x064) then (if armed s n then s else plainWrite s a v)
  else if o = 0x068 then doorbell s n v
  else if o = 0x07C then evMarker (plainWrite s a v) n
  else if o = 0x164 then devOverflow (plainWrite s a v) n
  else if o = 0x178 then
    let s := plainWrite s a v
    if bit v 22 then bugleSound s n 6 false else s
  else plainWrite s a v

/-- Apply a write of `v` to the register at page offset `o`. -/
def applyWrite (s : State) (src : Source) (k : PageKind) (i o a v : Nat) (locked : Bool) : State :=
  let pg := a / 4096 * 4096
  if k = .fn ∧ 0x40 ≤ o then writeFn s i o v
  else if o = 0x01C then writeIntEnable s pg v
  else if o = 0x020 then forceInts s pg v
  else if k = .seal then (if o < 0x40 then plainWrite s a v else s)
  else if k = .global ∧ o = 0x040 then writeEnables s 0 (wordAt s a).toNat v
  else if k = .global ∧ o = 0x044 then writeEnables s 32 (wordAt s a).toNat v
  else if k = .wheel ∧ o = 0x040 then writeWheelCtrl s v
  else if k = .wheel ∧ o = 0x058 then counterAdj s (v % 65536)
  else if k = .port ∧ o = 0x054 then setRate (plainWrite s a v)
  else if k = .fife ∧ o = 0x040 then
    let s := plainWrite s a v
    if bit v 31 then huntStart s else s
  else if k = .drone ∧ o = 0x058 then
    let s := plainWrite s a v
    if bit v 30 then watchClear s else s
  else if k = .slice ∧ 0x400 ≤ o ∧ o < 0x500 then
    (if BitVec.ofNat 32 v = wordAt s a then s else remapEntry s (4 * i + (o - 0x400) / 64) ((o - 0x400) / 4 % 16) v)
  else if k = .floor ∧ o = 0x048 then
    (if BitVec.ofNat 32 v = wordAt s a then s else writePushArea s v)
  else if k = .nvm ∧ o = 0x048 then writeFwCtrl s v locked
  else if k = .clkpwr ∧ o = 0x040 then (if locked then s else writePosition s v)
  else if k = .clkpwr ∧ o = 0x04C then writeGate s (wordAt s a).toNat v
  else if k = .clkpwr ∧ o = 0x054 then writeReset s src v
  else plainWrite s a v

/-- The ring count registers, which a locked page still takes (R444). -/
def ringCount (k : PageKind) (o : Nat) : Bool := decide (k = .fn) && [0x068, 0x074, 0x07C, 0x164, 0x1D0].contains o

/-- What a locked page leaves of a write: W1C and WO fields; RW, RWS and RWL fields as they are (R444). -/
def lockedValue (d : RegDesc) (old v : Nat) : Nat := (v &&& (d.w1c ||| d.wo)) ||| (old &&& (d.rw ||| d.rws ||| d.rwl))

/-- One write of a register word by the access types of its fields. -/
def registerWrite (s : State) (src : Source) (a : Nat) (v : Nat) : State :=
  match pageAt a with
  | none => s
  | some (k, i) =>
    let o := a % 4096
    let pg := a / 4096 * 4096
    match descAt k o with
    | none => s
    | some d =>
      if o = 0x024 then writeLock s pg v
      else if o = 0x010 then
        (if pageLocked s a then lockViolation s a else if bit v 31 then clearCounts s pg else s)
      else
        let lockable := decide (d.rw ||| d.rws ||| d.rwl ≠ 0) && !ringCount k o
        if pageLocked s a && lockable then
          applyWrite (lockViolation s a) src k i o a (lockedValue d (wordAt s a).toNat v) true
        else applyWrite s src k i o a v false

/-- REGISTER_WRITE: a 4-byte write by a source at a window offset; one that does not cover the word is ignored and sets
PARTIAL (R437). -/
def windowStore (s : State) (src : Source) (a : Nat) (v : Nat) (whole : Bool) : State :=
  let a4 := a / 4 * 4
  if whole ∧ a % 4 = 0 then windowWrite s src a (fun s => registerWrite s src a v)
  else if !sourceOn s src || (pageAt a4).isNone then s
  else flagF (windowWrite s src a4 (fun s => s)) pgGlobal GLOBAL_WINDOW_STATUS_PARTIAL

end Sys2Proof.Machine
end

