-- ==== Sys2Proof/Machine/Requests.lean ====
section
/-!
DEFINITION. Packets that arrive at the port: which this die takes (R197, R411), memory-form requests and their answers (R35,
R198, R200 to R202, R280, R321, R438, R449), responses (R201), and the landing packets' way in (R98, R200, R202).
-/

namespace Sys2Proof.Machine

/-! ### What the port takes -/

/-- The port takes a packet: the die is up, its position is written, and DST names it (R197, R411). -/
def portTakes (s : State) (p : Packet) : Bool := alive s && positioned s && decide (dieBits (hDst p) = selfDie s)

/-- A queue error on the way of a memory-form packet is recorded in its slice's page, or in the port's for the complex. -/
def queueError (s : State) (p : Packet) (u : Upset) : State :=
  if u = .none then s
  else if hSpace p = 0 ∨ hSpace p = 2 then errSlice (notePoison s (hSlice p)) HDR_ERR_SUMMARY_QUEUE (hSlice p)
  else errUnit s HDR_ERR_SUMMARY_QUEUE pgPort

/-- The header of a request passes R200, and no queue word of it was bad. A request without payload has header words alone. -/
def requestOk (p : Packet) (u : Upset) : Bool :=
  headerOk' p && (decide (u = .none) || (decide (u = .payload) && decide (hLen p ≠ 0)))

/-- The payload of a store arrived poisoned (Table 12.5). -/
def payloadBad (p : Packet) (u : Upset) : Bool := hPoison p || decide (u = .payload) || decide (u = .pointer)

/-- A function takes requests: STOPPED, RUNNING or DRAINING (R202). -/
def fnTakes (s : State) (n : Nat) : Bool := decide (stateOf s n = 1 ∨ stateOf s n = 2 ∨ stateOf s n = 3)

/-! ### Answers (R201) -/

/-- Send the response to a request: `type` 2 LOAD_DATA or 6 ATOMIC_DATA, its bytes, and a status. -/
def respond (s : State) (p : Packet) (type status : Nat) (bytes : List Byte) : State :=
  let pl := padPayload bytes
  sendPacket s ⟨mkHeader (hSrc p) (hDst p) type (hTc p) (flagsByte false (curGen s (hFn p))) (pl.length / 64) (hFn p) (hTag p)
    (memForm (hOffset p) bytes.length status), pl⟩

/-- The answer to an atomic: the old value in 8 of 64 bytes. -/
def respondAtomic (s : State) (p : Packet) (status : Nat) (old : List Byte) : State :=
  sendPacket s ⟨mkHeader (hSrc p) (hDst p) 6 (hTc p) (flagsByte false (curGen s (hFn p))) 1 (hFn p) (hTag p)
    (memForm (hOffset p) 8 status), fit 64 (fit 8 old)⟩

/-! ### The state range (R35, R202) -/

/-- Bytes of the state range of a function; none without a manifest. -/
def rangeOf (s : State) (n : Nat) : Nat := match (fnSt s n).manifest with | some m => rangeBytes m | none => 0

/-- The part of the state range that an offset lies in. -/
def partOf' (s : State) (n off : Nat) : RangePart :=
  match (fnSt s n).manifest with | some m => rangePart m off | none => .outside

/-- Rows of the stripe area that the intent ledger records for a function. -/
def intentRows (s : State) (n : Nat) : List Nat :=
  (ledgerListed s).filterMap (fun i =>
    let e := nearRead s (32 * i) 32
    if entryOk e && decide (field e 0 1 = 1) && decide (field e 1 1 = n) then some (field e 4 4) else none)

/-- A read covers a leaf recorded in the intent ledger, and waits (R35). -/
def readWaits (s : State) (n off len : Nat) : Bool :=
  decide (len ≠ 0) && (intentRows s n).any (fun j => decide (j * 65536 < off + len) && decide (off < (j + 1) * 65536))

/-- Write the bytes of a store that lie in working-copy slots; the first offset in a coded area, if any. -/
def storeBytes (s : State) (n off : Nat) (bs : List Byte) : State × Option Nat :=
  (bs.zipIdx).foldl (fun (acc : State × Option Nat) q =>
    match partOf' acc.1 n (off + q.2) with
    | .workingCopy => (rangeWrite acc.1 n (off + q.2) [q.1], acc.2)
    | .coded _ _ _ => (acc.1, match acc.2 with | some o => some o | none => some (off + q.2))
    | _ => acc) (s, none)

/-- A write to a coded area was ignored (R35). -/
def writeRejected (s : State) (n off : Nat) : State :=
  postEvent (flagF s (pgFn n) FN_STATE_STATUS_WRITE_REJECT) n 0x0014 (leBytes 8 off)

/-- A STORE into the state range. -/
def rangeStore (s : State) (n off : Nat) (bs : List Byte) : State :=
  if rangeOf s n < off + bs.length then storeDrop s
  else
    let r := storeBytes s n off bs
    match r.2 with
    | some o => writeRejected r.1 n o
    | none => r.1

/-! ### The seal window (R449, R450) -/

/-- The object that the 8 bytes of a packet in space 0x1 are the base of. -/
def sealOf (p : Packet) : Option Nat := if hBytes p = 8 then sealOfOffset (hAddr p) else none

/-- A fabric arrival is stray: the object is IDLE, or another function's (R450). -/
def strayAt (s : State) (n i : Nat) : Bool := decide ((sealAt s i).state = 0) || decide ((sealAt s i).owner ≠ n)

/-- A STORE in space 0x1. -/
def sealStore (s : State) (p : Packet) : State :=
  match sealOf p with
  | none => storeDrop s
  | some i =>
    if field p.payload 4 4 ≠ 0 then storeDrop s
    else if strayAt s (hFn p) i then sealStray s
    else sealArrive s i (field p.payload 0 4)

/-! ### Reading for a former member (R280) -/

/-- The slot of a former member's row: the taker's, once it has rebuilt the row; else decoded, without writing it. -/
def formerSlot (s : State) (n m area gen j : Nat) (imgs : RowImages) : Option (List Byte) :=
  let x := fnSt s n
  match x.manifest, grpOf x with
  | some mf, some g =>
    match (imgs[m]?).join with
    | some b => some b
    | none =>
      let slots := slotOf s n area gen j imgs [m]
      let entry := fun hole i surv => holeEntry area hole ((j + i) % g.n) surv
      let enters := fun hole i => decide (area = 0) || bit (pmPresent hole) ((j + i) % g.n)
      let (res, _) := decodeView (rowView g x.epoch area j slots) entry
        (fun i => (roleBound x mf g area j i).isSome) enters
      match res with
      | some d =>
        if isData g.k g.n m j then settledSlots x mf g x.epoch area j d slots m
        else some (reencoded g x.epoch area j ((holeIndex g m j).getD 0) (settledSlots x mf g x.epoch area j d slots) none)
      | none => none
  | _, _ => none

/-- Working copies of a former member that a range of its state range touches, regenerated from decoded masters (R84). -/
def formerCopies (s : State) (n m off len : Nat) (rows : RowSet) : State :=
  let x := fnSt s n
  match x.manifest, grpOf x with
  | some mf, some g =>
    (List.range mf.stripeRows).foldl (fun t j =>
      match leafAt mf g m 0 j with
      | some l =>
        if l.kind ≠ .state ∨ off + len ≤ wcStart mf 0 then t
        else match formerSlot s n m 0 0 j (imgsOf rows 0 0 j) with
          | some b =>
            if mf.d = 0 then emitWcAt t n mf l (slotBody b) (pmStamp b) 0
            else emitWcAt (emitWcAt t n mf l (slotBody b) x.step ((x.step + 1) % 2)) n mf l (slotBody b) (x.step - 1) (x.step % 2)
          | none => t
      | none => t) { s with deep := [] }
  | _, _ => s

/-- Bytes of a former member's state range, as its proxy answers them. -/
def formerBytes (s : State) (n m off len : Nat) (rows : RowSet) : List Byte :=
  let w := formerCopies s n m off len rows
  (List.range len).map (fun i =>
    match partOf' s n (off + i) with
    | .coded area gen row =>
      match formerSlot s n m area gen row (imgsOf rows area gen row), (fnSt s n).manifest with
      | some b, some mf => (b.drop (off + i - slotOffset mf area gen row)).headD 0
      | _, _ => Config.proxyLost n (off + i) s.ticks
    | .workingCopy => (rangeRead w n (off + i) 1).headD 0
    | _ => 0)

/-- This die is the proxy of a failed member for its function (R280). -/
def isProxyFor (s : State) (n m : Nat) : Bool :=
  let x := fnSt s n
  x.proxies.any (fun q => decide (q.1 = m)) && decide (proxyOf x m = some x.self)

/-! ### LOAD -/

/-- A byte of a function's snapshot as a reload's source, at an offset of its index (R321). -/
def snapshotByte (s : State) (n o : Nat) (readable : Bool) : Option Byte :=
  match (fnSt s n).reload with
  | some r =>
    match (mySources s n r.sources).head? with
    | some c =>
      match sourcePage s c with
      | some _ => if (match snapSlot s c (o / 65536) readable with | some b => decide (b = freeSlot) | none => true) then none
          else (snapSlot s c (o / 65536) readable).map (fun b => (b.drop (o % 65536)).headD 0)
      | none => none
    | none => none
  | none => none

/-- The function is a source of a reload, whose TC5 LOADs read its snapshot (R321). -/
def isSource (s : State) (n : Nat) : Bool :=
  match (fnSt s n).reload with | some r => !(mySources s n r.sources).isEmpty | none => false

/-- Answer a LOAD of space 0x0 that is within its range. -/
def rangeLoad (s : State) (p : Packet) (via : Option Nat) (rows : RowSet) (readable : Bool) : State :=
  let n := hFn p
  let off := hAddr p
  let len := hBytes p
  if hTc p = 5 ∧ isSource s n then
    let bs := (List.range len).map (fun i => snapshotByte s n (off + i) readable)
    if bs.all (fun b => b.isSome) then respond s p 2 0 (bs.map (fun b => b.getD 0)) else respond s p 2 2 (zeros len)
  else if rangeOf s n < off + len then respond s p 2 2 []
  else match via with
    | some m => if isProxyFor s n m then respond s p 2 0 (formerBytes s n m off len rows) else respond s p 2 0 (rangeRead s n off len)
    | none =>
      if readWaits s n off len then { s with loadWaits := s.loadWaits ++ [p] }
      else respond s p 2 0 (rangeRead s n off len)

/-- LOAD (R202). `via` is the former member whose LOAD reaches this die as its proxy, `rows` the other members' slots, and
`readable` says whether a floor page read of a reload's source succeeds. -/
def recvLoad (s : State) (p : Packet) (u : Upset) (via : Option Nat) (rows : RowSet) (readable : Bool) : State :=
  if !portTakes s p || decide (hType p ≠ 1) then s else
  let s := queueError s p u
  if !requestOk p u then respond s p 2 3 []
  else if hSpace p = 3 then
    (if 0x1000000 < hAddr p + hBytes p then respond s p 2 2 []
     else respond s p 2 0 ((List.range (hBytes p / 4)).map (fun i => leBytes 4 (readWord s (hAddr p + 4 * i)))).flatten)
  else if !fnTakes s (hFn p) then respond s p 2 1 []
  else rangeLoad s p via rows readable

/-- LOADs that waited for a leaf's write are answered once nothing of theirs is recorded (R35); one whose function has gone is
answered NO_FUNCTION. -/
def answerWaits (s : State) : State :=
  let ready := s.loadWaits.filter (fun p => !readWaits s (hFn p) (hAddr p) (hBytes p) || !fnTakes s (hFn p))
  let s := { s with loadWaits := s.loadWaits.filter (fun p => !ready.contains p) }
  ready.foldl (fun s p => if fnTakes s (hFn p) then rangeLoad s p none [] true else respond s p 2 1 []) s

/-! ### STORE and the atomics -/

/-- A landing packet at the port (R98, R200, R202, Table 12.5, R281). -/
def recvLanding (s : State) (p : Packet) (u : Upset) : State :=
  let n := hFn p
  if !requestOk p u && !decide (u = .pointer) then storeDrop s
  else if payloadBad p u then integrityAbort s n 6
  else if !fnTakes s n || (decide (stateOf s n = 1) && (fnSt s n).forwardTo.isSome) then storeDrop s
  else landArrival s n (hSlice p) p

/-- A STORE into the register window (R438): a membership mailbox, or the twin message window. -/
def windowPacket (s : State) (p : Packet) : State :=
  if hAddr p + hBytes p ≤ pgTwin + 0x1000 ∧ pgTwin + 0x800 ≤ hAddr p then
    (if s.variant = .C then s else twinPacket s p (field p.payload 0 1))
  else match membOf p with
    | some (n, m) => if n = 0 then storeDrop s else recvMemb s p (mmKind m) (Config.othersRoom n s.ticks)
    | none => storeDrop s

/-- STORE (R202). -/
def recvStore (s : State) (p : Packet) (u : Upset) : State :=
  if !portTakes s p || decide (hType p ≠ 3) then s else
  let s := queueError s p u
  if hSpace p = 2 then recvLanding s p u
  else if !requestOk p u || payloadBad p u then storeDrop s
  else if hSpace p = 3 then windowPacket s p
  else if !fnTakes s (hFn p) then storeDrop s
  else if hSpace p = 1 then sealStore s p
  else rangeStore s (hFn p) (hAddr p) (p.payload.take (hBytes p))

/-- The 8 bytes of an atomic all lie in a working-copy slot (R202). -/
def atomicPlace (s : State) (n off : Nat) : Bool :=
  (List.range 8).all (fun i => decide (partOf' s n (off + i) = .workingCopy))

/-- An atomic on the state range: `new` gives the value stored from the old one. -/
def rangeAtomic (s : State) (p : Packet) (new : Nat → Nat) : State :=
  let n := hFn p
  if atomicPlace s n (hAddr p) then
    let old := rangeRead s n (hAddr p) 8
    respondAtomic (rangeWrite s n (hAddr p) (leBytes 8 (new (leVal old) % 2 ^ 64))) p 0 old
  else respondAtomic s p 2 (zeros 8)

/-- An atomic whose header or payload is bad, or whose function takes none. -/
def atomicGate (s : State) (p : Packet) (u : Upset) (f : State → State) : State :=
  let s := queueError s p u
  if !requestOk p u || payloadBad p u then respondAtomic s p 3 (zeros 8)
  else if !fnTakes s (hFn p) then respondAtomic s p 1 (zeros 8)
  else f s

/-- FETCH_ADD (R202, R449). -/
def recvFetchAdd (s : State) (p : Packet) (u : Upset) : State :=
  if !portTakes s p || decide (hType p ≠ 4) then s
  else atomicGate s p u (fun s =>
    if hSpace p = 1 then
      match sealOf p with
      | none => respondAtomic s p 2 (zeros 8)
      | some i =>
        if field p.payload 4 4 ≠ 0 then respondAtomic s p 2 (zeros 8)
        else if strayAt s (hFn p) i then respondAtomic (sealStray s) p 2 (zeros 8)
        else respondAtomic (sealArrive s i (field p.payload 0 4)) p 0 ((sealBytes (sealAt s i)).take 8)
    else rangeAtomic s p (fun v => v + field p.payload 0 8))

/-- COMPARE_SWAP (R202). -/
def recvCompareSwap (s : State) (p : Packet) (u : Upset) : State :=
  if !portTakes s p || decide (hType p ≠ 5) then s
  else atomicGate s p u (fun s =>
    rangeAtomic s p (fun v => if v = field p.payload 0 8 then field p.payload 8 8 else v))

/-! ### Responses (R201) -/

/-- LOAD_DATA or ATOMIC_DATA: matched to its request by TAG. A poisoned one gives zero and sets FABRIC_TIMEOUT (Table 12.5); one
whose STATUS is not OK gives the value it carries. -/
def recvResponse (s : State) (p : Packet) (u : Upset) (type : Nat) : State :=
  if !portTakes s p || decide (hType p ≠ type) || decide (u = .header) || !headerOk' p then s
  else match s.requests.find? (fun q => decide (q.tag = hTag p)) with
    | none => s
    | some q =>
      let bad := payloadBad p u
      let s := if u = .none then s else errUnit s HDR_ERR_SUMMARY_QUEUE pgPort
      let s := { s with requests := s.requests.erase q }
      let v := if bad then 0 else field p.payload 0 8
      let s := match q.owner with
        | .core a b r => setCore s (coreIx a b) (setS (coreSt s (coreIx a b)) r v)
      if bad then flagF s (pgFn q.fn) FN_PROG_STATUS_FABRIC_TIMEOUT else s

end Sys2Proof.Machine
end

