-- ==== Sys2Proof/Machine/Command.lean ====
section
/-!
DEFINITION. What is common to the commands: when a command acts, what ends it, and the small operations that only a row of the
table uses: a write of one named field, the checker's GO, link events, the Fife packets and interrupt moderation.
-/

namespace Sys2Proof.Machine

/-! ### Ends of a command -/

/-- The answer of a command. -/
abbrev Out := Host.Outcome State Fault Refusal

/-- The end of a command that has led from `s` to `t`: what fell due is carried out, LOADs that no longer wait are answered, and
the queue of commands is as it was. -/
def conclude (s t : State) : State := { answerWaits (settle t) with pending := s.pending }

/-- A power or reset event acts in every state of the die. -/
def onPower (s : State) (f : State → State) : Out := .next (conclude s (f s))

/-- Everything else acts only outside power-on reset (R407). -/
def onDie (s : State) (f : State → State) : Out := .next (if alive s then conclude s (f s) else s)

/-- The fabric port applies no packet and sends none until the position is written (R411). -/
def onFabric (s : State) (f : State → State) : Out := onDie s (fun s => if positioned s then f s else s)

/-- A packet acts where the port takes it (R197, R411). -/
def onPort (s : State) (p : Packet) (f : State → State) : Out := 
  onDie s (fun s => if portTakes s p then f (touchShadow s p) else s)

/-- An action of the control plane waits while the firmware switches (R395). -/
def onControl (s : State) (f : State → State) : Out := onDie s (fun s => if switching s then s else f s)

/-- The floor and the twin comparator are absent on Lyith-C (R6). -/
def onFloor (s : State) (f : State → State) : Out := onDie s (fun s => if s.variant = .C then s else f s)

/-! ### Register window -/

/-- What a register word holds of its writable fields: a write that carries these changes none of them. -/
def keptWord (s : State) (a : Nat) : Nat :=
  match pageAt a with
  | none => 0
  | some (k, _) => match descAt k (a % 4096) with
    | some d => (wordAt s a).toNat &&& (d.rw ||| d.rws ||| d.rwl)
    | none => 0

/-- A write of the fields under `mask`, the word's other fields as they stand. -/
def fieldWrite (s : State) (src : Source) (a mask v : Nat) : State :=
  windowStore s src a ((keptWord s a &&& (0xFFFFFFFF ^^^ mask)) ||| (v &&& mask)) true

/-- A write of LY_SLn_CHK_CTRL with GO set and an operation (R343). A locked page keeps its OP, and GO carries that out (R444). -/
def checkerWrite (s : State) (src : Source) (sl op : Nat) (raw : List Byte) (owner : BlockOwner) : State :=
  let a := pgSlice sl + SL_CHK_CTRL_GO.off
  windowWrite s src a (fun s =>
    if pageLocked s a then checkerOp (lockViolation s a) sl (getF s (pgSlice sl) SL_CHK_CTRL_OP) raw owner
    else checkerOp s sl op raw owner)

/-- MSIX_MODERATION: the moderation interval of a vector that waits has ended (R376). -/
def msiModerated (s : State) (n vec : Nat) : State :=
  let key := n * 32 + vec
  if s.msiPend.contains key then
    let s := advanceTo s (tabGet 0 s.msiLast key + fnF s n FN_MSIX_MAP_MOD * ticksPerUs)
    { s with msiPend := s.msiPend.erase key, msi := s.msi ++ [(n, vec)], msiLast := tabPut s.msiLast key (some s.ticks) }
  else s

/-! ### Port and links -/

/-- A DATA or PROBE landing packet (R98). -/
def landingOf (s : State) (p : Packet) (u : Upset) (probe : Bool) : State :=
  if hType p = 3 ∧ hSpace p = 2 ∧ decide ((parseLanding p.payload).kind = 1) = probe then recvStore s p u else s

/-- XOFF or XON of a class from the links; TC0 is never stopped (R211). -/
def linkXoff (s : State) (tc : Nat) (xoff : Bool) : State :=
  if tc = 0 then s else setF s pgPort PORT_STATUS_XOFF_IN (putBit (getF s pgPort PORT_STATUS_XOFF_IN) (tc - 1) xoff)

/-- A link's lane code changes, and the port rate with it (R221, R222). -/
def laneChange (s : State) (link code : Nat) : State :=
  setRate (setF s pgPort ⟨0x058 + 4 * (link / 8), 4 * (link % 8) + 3, 4 * (link % 8)⟩ code)

/-! ### Fife packets (R242) -/

/-- A FIFE packet of a kind for a function that the die holds. -/
def isFife (s : State) (p : Packet) (kind : Nat) : Bool :=
  headerOk' p && decide (hType p = 16) && decide (fKind p = kind) && decide (hFn p ≠ 0) && decide (stateOf s (hFn p) ≠ 0)

/-- The slot offset that a FIFE packet of a kind names. -/
def fifeAt (s : State) (p : Packet) (kind : Nat) : Option Nat :=
  if isFife s p kind then slotOff s (hFn p) (fSlot p) else none

/-- FIFE_OPEN: from a child in the tree (R240). -/
def fifeOpened (s : State) (p : Packet) : State :=
  match fifeAt s p 1 with
  | some off => recvOpen s (hFn p) off p
  | none => s

/-- FIFE_ACK: the parent's acceptance (R234). -/
def fifeAcked (s : State) (p : Packet) : State :=
  match fifeAt s p 4 with
  | some off => recvAck s (hFn p) off (fSeq p) (fStatus p)
  | none => s

/-- RESULT: from the parent in the tree (R227, R240); values whose residues fail count as a RESIDUE result (R233). -/
def fifeResult (s : State) (p : Packet) : State :=
  match fifeAt s p 5 with
  | some off =>
    if fStatus p ≠ 0 then recvResult s (hFn p) off (fSeq p) (fStatus p) (fValue p) []
    else match joinParts s (hFn p) off p with
      | (s, none) => s
      | (s, some (vals, good)) => recvResult s (hFn p) off (fSeq p) (if good then 0 else 3) (fValue p) vals
  | none => s

/-- BUGLE_PACKET over TC0 (R238). -/
def fifeBugle (s : State) (p : Packet) : State :=
  if isFife s p 7 then bugleRecv s (hFn p) (fCause p) (fValue p % 65536) (some (dieBits (hSrc p))) false else s

/-- PATH_DOWN (R241). -/
def fifePathDown (s : State) (p : Packet) : State := if isFife s p 0x11 then pathDown s (hFn p) false else s

end Sys2Proof.Machine
end

