-- ==== Sys2Proof/Machine/RowsBox.lean ====
section
/-!
DEFINITION. The meanings of commands: the post-box commands and the fetch of their entries.
-/

namespace Sys2Proof.Machine

/-- LOAD_MANIFEST (R31). -/
def execLoadManifest (n : Fin 64) (b : HostRead) (s : State) : Out :=
  onDie s (fun s => runCmd s n 0x01 (fore n (cmdLoadManifest n b)))

/-- LOAD_PROGRAMS (R135). -/
def execLoadPrograms (n : Fin 64) (b : HostRead) (s : State) : Out :=
  onDie s (fun s => runCmd s n 0x02 (fore n (cmdLoadPrograms n b)))

/-- LOAD_WHEEL (R184). -/
def execLoadWheel (n : Fin 64) (b : HostRead) (s : State) : Out :=
  onDie s (fun s => runCmd s n 0x03 (fore n (cmdLoadWheel n b)))

/-- LOAD_LEAVES (R454). -/
def execLoadLeaves (n : Fin 64) (b : HostRead) (s : State) : Out :=
  onDie s (fun s => runCmd s n 0x04 (cmdLoadLeaves n b))

/-- MIGRATE (R34). -/
def execMigrate (n : Fin 64) (s : State) : Out :=
  onDie s (fun s => runCmd s n 0x05 (cmdMigrate n))

/-- VERIFY_ROWS (R62). -/
def execVerifyRows (n : Fin 64) (s : State) : Out :=
  onDie s (fun s => runCmd s n 0x06 (cmdVerifyRows n))

/-- SET_OWNERSHIP (R215). -/
def execSetOwnership (n : Fin 64) (b : HostRead) (s : State) : Out :=
  onDie s (fun s => runCmd s n 0x07 (fore n (cmdSetOwnership n b)))

/-- ROUTE_LOAD (R372). -/
def execRouteLoad (n : Fin 64) (b : HostRead) (s : State) : Out :=
  onDie s (fun s => runCmd s n 0x08 (fore n (cmdRouteLoad n b)))

/-- ROUTE_STAGE (R218). -/
def execRouteStage (n : Fin 64) (b : HostRead) (s : State) : Out :=
  onDie s (fun s => runCmd s n 0x09 (fore n (cmdRouteStage n b)))

/-- SAVE_CONTEXT (R373). -/
def execSaveContext (n : Fin 64) (s : State) : Out :=
  onDie s (fun s => runCmd s n 0x0A (fore n (cmdSaveContext n)))

/-- RESTORE_CONTEXT (R373). -/
def execRestoreContext (n : Fin 64) (b : HostRead) (s : State) : Out :=
  onDie s (fun s => runCmd s n 0x0B (fore n (cmdRestoreContext n b)))

/-- STOP (R359). -/
def execStop (n : Fin 64) (by_ : StopBy) (s : State) : Out :=
  onDie s (fun s =>
    match by_ with
    | .register src => fieldWrite s src (pgFn n + 0x040) 0x40000000 0x40000000
    | .command => runCmd s n 0x0C (cmdStop n))

/-- FIFE_COLLECTIVE (R224). -/
def execFifeCollective (n : Fin 64) (b : HostRead) (s : State) : Out :=
  onDie s (fun s => runCmd s n 0x10 (cmdCollective n b))

/-- DECLARE_FAILED (R267). -/
def execDeclareFailed (n : Fin 64) (room : Bool) (s : State) : Out :=
  onDie s (fun s => runCmd s n 0x11 (cmdDeclareFailed n room))

/-- EVACUATE (R282). -/
def execEvacuate (n : Fin 64) (room : Bool) (s : State) : Out :=
  onDie s (fun s => runCmd s n 0x12 (cmdEvacuate n room))

/-- REJOIN (R284). -/
def execRejoin (n : Fin 64) (s : State) : Out :=
  onDie s (fun s => runCmd s n 0x13 (cmdRejoin n))

/-- CONTRACT (R287). -/
def execContract (n : Fin 64) (b : HostRead) (s : State) : Out :=
  onDie s (fun s => runCmd s n 0x14 (fore n (cmdContract n b)))

/-- RESHARD (R289). -/
def execReshard (n : Fin 64) (b : HostRead) (s : State) : Out :=
  onDie s (fun s => runCmd s n 0x15 (cmdReshard n b))

/-- SNAPSHOT (R302). -/
def execSnapshot (n : Fin 64) (s : State) : Out :=
  onDie s (fun s => runCmd s n 0x18 (cmdSnapshot n))

/-- FLOOR_FORMAT (R299). -/
def execFloorFormat (n : Fin 64) (fails : List Nat) (s : State) : Out :=
  onDie s (fun s => runCmd s n 0x19 (cmdFloorFormat n fails))

/-- FLOOR_LIST (R372). -/
def execFloorList (n : Fin 64) (s : State) : Out :=
  onDie s (fun s => runCmd s n 0x1A (fore n (cmdFloorList n)))

/-- RELOAD (R320). -/
def execReload (n : Fin 64) (b : HostRead) (s : State) : Out :=
  onDie s (fun s => runCmd s n 0x1B (cmdReload n b))

/-- CLEAR_REMAP (R342). -/
def execClearRemap (n : Fin 64) (s : State) : Out :=
  onDie s (fun s => runCmd s n 0x20 (fore n cmdClearRemap))

/-- TWIN_REPORT (R435). -/
def execTwinReport (n : Fin 64) (s : State) : Out :=
  onDie s (fun s => runCmd s n 0x28 (fore n (cmdTwinReport n)))

/-- NVM_STORE (R384). -/
def execNvmStore (n : Fin 64) (s : State) : Out :=
  onDie s (fun s => runCmd s n 0x30 cmdStore)

/-- NVM_CLEAR (R384). -/
def execNvmClear (n : Fin 64) (s : State) : Out :=
  onDie s (fun s => runCmd s n 0x31 cmdStore)

/-- LOG_READ (R387). -/
def execLogRead (n : Fin 64) (s : State) : Out :=
  onDie s (fun s => runCmd s n 0x32 (fore n cmdLogRead))

/-- FW_DOWNLOAD (R392). -/
def execFwDownload (n : Fin 64) (b : HostRead) (s : State) : Out :=
  onDie s (fun s => runCmd s n 0x33 (fore n (cmdDownload b)))

/-- FW_VERIFY (R393). -/
def execFwVerify (n : Fin 64) (s : State) : Out :=
  onDie s (fun s => runCmd s n 0x34 cmdVerify)

/-- FW_ACTIVATE (R394). -/
def execFwActivate (n : Fin 64) (s : State) : Out :=
  onDie s (fun s => runCmd s n 0x35 cmdActivate)

/-- FW_CONFIRM (R397). -/
def execFwConfirm (n : Fin 64) (s : State) : Out :=
  onDie s (fun s => runCmd s n 0x36 (fore n cmdConfirm))

/-- FW_ABANDON (R396). -/
def execFwAbandon (n : Fin 64) (s : State) : Out :=
  onDie s (fun s => runCmd s n 0x37 cmdAbandon)

/-- KEY_ADD (R388). -/
def execKeyAdd (n : Fin 64) (b : HostRead) (s : State) : Out :=
  onDie s (fun s => runCmd s n 0x38 (fore n (cmdKeyAdd b)))

/-- KEY_REVOKE (R388). -/
def execKeyRevoke (n : Fin 64) (s : State) : Out :=
  onDie s (fun s => runCmd s n 0x39 (fore n cmdKeyRevoke))

/-- COMMAND_FETCH (R368). -/
def execCommandFetch (n : Fin 64) (entry : HostRead) (s : State) : Out :=
  onDie s (fun s => commandFetch s n entry)

end Sys2Proof.Machine
end

