-- ==== Sys2Proof/Machine/CoreFabric.lean ====
section
/-!
DEFINITION. Port B: stream reads (R132), the postmark unit, the counter, and the fabric instructions (R133, R216).
-/

namespace Sys2Proof.Machine

/-! ### Stream reads -/

/-- What a stream read's source allows: it is refused, must wait for the phase-0 leaves, or may be read (R132). -/
inductive SrdSource where
  | illegal | wait | ok
  deriving DecidableEq, Repr

/-- The source of a stream read at one byte offset of the state range. -/
def srdPart (x : FnSt) (r : CoreRun) (off : Nat) : SrdSource :=
  match x.manifest, grpOf x with
  | some m, some g =>
    (match rangePart m off with
     | .outside => .illegal
     | .workingCopy => .illegal
     | .padding => .ok
     | .coded area gen row =>
       if area = 1 then (if gen = (x.step + 1) % (m.d + 1) then .ok else .illegal)
       else match leafAt m g x.self 0 row with
         | some l =>
           if l.kind = .mask then .ok
           else if l.kind = .state ∧ leafPhase x l.binding.tensor = 0 ∧ leafPhase x r.tensor = 1 ∧ r.prelude = false then
             (if phase0Done x then .ok else .wait)
           else .illegal
         | none => .illegal)
  | _, _ => .illegal

/-- The source of a whole stream read: its first and last byte and the start of every slot in between. -/
def srdSource (x : FnSt) (r : CoreRun) (off len : Nat) : SrdSource :=
  if len = 0 then .ok
  else
    let starts := (List.range (len / 65536 + 1)).map (fun i => (off / 65536 + 1 + i) * 65536)
    let parts := (off :: (off + len - 1) :: starts.filter (fun a => a < off + len)).map (srdPart x r)
    if parts.contains .illegal then .illegal else if parts.contains .wait then .wait else .ok

/-- srd: length a multiple of 64 and at most 57,344, destination in the gradient or the scratch region. A read of a
phase-0 leaf too early holds the schedule (R132, R186). -/
def srdOp (s : State) (at_ : Issue) (f : VForm) : State :=
  issueB s at_ (bWordV f 0xC0) false (fun s c r =>
    let dst := sReg c f.d
    let off := sReg c f.a
    let len := sReg c f.b
    let place := (decide (0x20000 ≤ dst) && decide (dst + len ≤ 0x30000) && !r.prelude) ||
      (decide (0x30000 ≤ dst) && decide (dst + len ≤ 0x3E000))
    if len % 64 ≠ 0 ∨ 57344 < len ∨ place = false then .trap 0x12
    else match srdSource (fnSt s r.fn) r off len with
      | .illegal => .trap 0x12
      | .wait => .wait (holdStart s r.fn 4 r.row at_.slice at_.core 1 (posNow s (fnSt s r.fn)) none)
      | .ok =>
        let s := match (fnSt s r.fn).hold with
          | some h => if h.entry = none ∧ h.slice = at_.slice ∧ h.core = at_.core then holdEnd s r.fn else s
          | none => s
        if len = 0 then .done s c none none false
        else .done s { c with run := some { r with srds := r.srds ++ [⟨dst, off, len⟩] } } none none false)

/-- swait. -/
def swaitOp (s : State) (at_ : Issue) (f : JForm) : State :=
  issueB s at_ (bWordJ f 0xC1) false (fun s c r => if r.srds = [] then .done s c none none false else .wait s)

/-! ### Postmark and counter -/

/-- pmrd: word imm14 of frame A's postmark; a number outside 0 to 31 gives a free value. -/
def pmrdOp (s : State) (at_ : Issue) (f : IForm) : State :=
  issueB s at_ (bWordI f 0xC8) false (fun s c r =>
    let k := f.imm.toNat
    if r.prelude then .trap 0x12
    else .done s (setS c f.d (if k < 32 then leVal (memReadN c.sram (8 * k) 8) else Config.postmarkBeyond k % 2 ^ 64)) none none false)

/-- pmwx: FORMAT_EXT word imm14 of frame B; a number outside 0 to 4 names no word and writes nothing. -/
def pmwxOp (s : State) (at_ : Issue) (f : IForm) : State :=
  issueB s at_ (bWordI f 0xC9) false (fun s c r =>
    let k := f.imm.toNat
    if r.prelude then .trap 0x12
    else if k < 5 then .done s { c with sram := memWriteN c.sram (0x10048 + 8 * k) (leBytes 8 (sReg c f.d)) } none none false
    else .done s c none none false)

/-- stime. -/
def stimeOp (s : State) (at_ : Issue) (f : LForm) : State :=
  issueB s at_ (bWordL f 0xD0) false (fun s c _ => .done s (setS c f.d s.counter) none none false)

/-! ### Fabric instructions -/

/-- The lowest TAG not in use, looking at `n` of them. -/
def freeTag (used : List Nat) : Nat → Nat → Nat
  | 0, k => k
  | n + 1, k => if used.contains k then freeTag used n (k + 1) else k

/-- Send a TC6 request from a core and note that its scalar register awaits the response (R201, R216). A refused one
answers zero at once. -/
def coreRequest (s : State) (at_ : Issue) (c : CoreSt) (n type dst off reg : Nat) (payload : List Byte) : State × CoreSt :=
  let need := if type = 1 then 1 else 2
  if ownMode (fnSt s n).own dst off 8 < need then (ownRefused s n dst off, if type = 3 then c else setS c reg 0)
  else
    let tag := freeTag (s.requests.map (fun q => q.tag)) (s.requests.length) 0
    match redirect (fnSt s n) type dst with
    | none => (storeDrop s, c)
    | some dst =>
    let src := selfDie s + at_.slice * 256 + at_.core * 8
    let s := sendPacket s ⟨mkHeader dst src type 6 (flagsByte false (curGen s n)) (payload.length / 64) n tag (memForm off 8 0),
      payload⟩
    if type = 3 then (s, c)
    else ({ s with requests := s.requests ++ [⟨tag, n, .core at_.slice at_.core reg, curGen s n, s.ticks⟩] }, c)

/-- A fabric instruction: type, the register that takes the response, and the payload. -/
def fabricOp (s : State) (at_ : Issue) (f : VForm) (op type : Nat) (payload : CoreSt → List Byte) : State :=
  issueB s at_ (bWordV f op) false (fun s c r =>
    let q := coreRequest s at_ c r.fn type (sReg c f.a % 2 ^ 32) (sReg c f.b % 2 ^ 48) f.d (payload c)
    .done q.1 q.2 none none false)

/-- fld. -/
def fldOp (s : State) (at_ : Issue) (f : VForm) : State := fabricOp s at_ f 0xD8 1 (fun _ => [])

/-- fst. -/
def fstOp (s : State) (at_ : Issue) (f : VForm) : State :=
  fabricOp s at_ f 0xD9 3 (fun c => fit 64 (leBytes 8 (sReg c f.d)))

/-- fadd. -/
def faddOp (s : State) (at_ : Issue) (f : VForm) : State :=
  fabricOp s at_ f 0xDA 4 (fun c => fit 64 (leBytes 8 (sReg c f.d)))

/-- fcas: compare s(d), swap s(c). -/
def fcasOp (s : State) (at_ : Issue) (f : VForm) : State :=
  fabricOp s at_ f 0xDB 5 (fun c => fit 64 (leBytes 8 (sReg c f.d) ++ leBytes 8 (sReg c f.c)))

/-- fwait. -/
def fwaitOp (s : State) (at_ : Issue) (f : JForm) : State :=
  issueB s at_ (bWordJ f 0xDC) false (fun s c _ =>
    if awaited s (coreIx at_.slice at_.core) = [] then .done s c none none false else .wait s)

/-- A fabric instruction is not complete 10 µs after it was sent: it returns zero and the run goes on (R133). -/
def fabricTimeout (s : State) (sl c : Nat) : State :=
  match s.requests.find? (fun q => match q.owner with | .core a b _ => decide (a = sl) && decide (b = c)) with
  | none => s
  | some q =>
    let s := advanceTo s (q.sentAt + 10 * ticksPerUs)
    let s := { s with requests := s.requests.erase q }
    let s := match q.owner with
      | .core a b r => setCore s (coreIx a b) (setS (coreSt s (coreIx a b)) r 0)
    flagF s (pgFn q.fn) FN_PROG_STATUS_FABRIC_TIMEOUT

end Sys2Proof.Machine
end

