-- ==== Sys2Proof/Machine/RowsCore.lean ====
section
/-!
DEFINITION. The meanings of commands: the instructions of the update cores.
-/

namespace Sys2Proof.Machine

/-- NOP (R127). -/
def execNop (at_ : Issue) (portB : Bool) (rest : BitVec 24) (s : State) : Out :=
  onDie s (fun s => if portB then nopB s at_ rest.toNat else nopA s at_ rest.toNat)

/-- VADD (R128). -/
def execVadd (at_ : Issue) (f : VForm) (s : State) : Out :=
  onDie s (fun s => vaddOp s at_ f)

/-- VSUB (R128). -/
def execVsub (at_ : Issue) (f : VForm) (s : State) : Out :=
  onDie s (fun s => vsubOp s at_ f)

/-- VMUL (R128). -/
def execVmul (at_ : Issue) (f : VForm) (s : State) : Out :=
  onDie s (fun s => vmulOp s at_ f)

/-- VFMA (R128). -/
def execVfma (at_ : Issue) (f : VForm) (s : State) : Out :=
  onDie s (fun s => vfmaOp s at_ f)

/-- VFNMA (R128). -/
def execVfnma (at_ : Issue) (f : VForm) (s : State) : Out :=
  onDie s (fun s => vfnmaOp s at_ f)

/-- VMIN (R157). -/
def execVmin (at_ : Issue) (f : VForm) (s : State) : Out :=
  onDie s (fun s => vminOp s at_ f)

/-- VMAX (R157). -/
def execVmax (at_ : Issue) (f : VForm) (s : State) : Out :=
  onDie s (fun s => vmaxOp s at_ f)

/-- VDIV (R128). -/
def execVdiv (at_ : Issue) (f : VForm) (s : State) : Out :=
  onDie s (fun s => vdivOp s at_ f)

/-- VSQRT (R128). -/
def execVsqrt (at_ : Issue) (f : VForm) (s : State) : Out :=
  onDie s (fun s => vsqrtOp s at_ f)

/-- VABS (R128). -/
def execVabs (at_ : Issue) (f : VForm) (s : State) : Out :=
  onDie s (fun s => vabsOp s at_ f)

/-- VNEG (R128). -/
def execVneg (at_ : Issue) (f : VForm) (s : State) : Out :=
  onDie s (fun s => vnegOp s at_ f)

/-- VSIGN (R128). -/
def execVsign (at_ : Issue) (f : VForm) (s : State) : Out :=
  onDie s (fun s => vsignOp s at_ f)

/-- VSEL (R128). -/
def execVsel (at_ : Issue) (f : VForm) (s : State) : Out :=
  onDie s (fun s => vselOp s at_ f)

/-- VCMP (R128). -/
def execVcmp (at_ : Issue) (f : VForm) (s : State) : Out :=
  onDie s (fun s => vcmpOp s at_ f)

/-- VCVT (R156). -/
def execVcvt (at_ : Issue) (f : VForm) (s : State) : Out :=
  onDie s (fun s => vcvtOp s at_ f)

/-- VSPLAT (R128). -/
def execVsplat (at_ : Issue) (f : VForm) (s : State) : Out :=
  onDie s (fun s => vsplatOp s at_ f)

/-- VPOWI (R130). -/
def execVpowi (at_ : Issue) (f : VForm) (s : State) : Out :=
  onDie s (fun s => vpowiOp s at_ f)

/-- VRSUM (R130). -/
def execVrsum (at_ : Issue) (f : VForm) (s : State) : Out :=
  onDie s (fun s => vrsumOp s at_ f)

/-- VMODE (R128). -/
def execVmode (at_ : Issue) (f : VForm) (s : State) : Out :=
  onDie s (fun s => vmodeOp s at_ f)

/-- VXOR (R128). -/
def execVxor (at_ : Issue) (f : VForm) (s : State) : Out :=
  onDie s (fun s => vxorOp s at_ f)

/-- VGFMUL (R347). -/
def execVgfmul (at_ : Issue) (f : VForm) (s : State) : Out :=
  onDie s (fun s => vgfmulOp s at_ f)

/-- VGFMAC (R347). -/
def execVgfmac (at_ : Issue) (f : VForm) (s : State) : Out :=
  onDie s (fun s => vgfmacOp s at_ f)

/-- TZERO (R131). -/
def execTzero (at_ : Issue) (f : VForm) (s : State) : Out :=
  onDie s (fun s => tzeroOp s at_ f)

/-- TMMA (R131). -/
def execTmma (at_ : Issue) (f : VForm) (s : State) : Out :=
  onDie s (fun s => tmmaOp s at_ f)

/-- TRD (R131). -/
def execTrd (at_ : Issue) (f : VForm) (s : State) : Out :=
  onDie s (fun s => trdOp s at_ f)

/-- VLD (R122). -/
def execVld (at_ : Issue) (f : MForm) (s : State) : Out :=
  onDie s (fun s => vldOp s at_ f)

/-- VST (R122). -/
def execVst (at_ : Issue) (f : MForm) (s : State) : Out :=
  onDie s (fun s => vstOp s at_ f)

/-- VLDB (R128). -/
def execVldb (at_ : Issue) (f : IForm) (s : State) : Out :=
  onDie s (fun s => vldbOp s at_ f)

/-- SLD (R128). -/
def execSld (at_ : Issue) (f : IForm) (s : State) : Out :=
  onDie s (fun s => sldOp s at_ f)

/-- SLDW (R128). -/
def execSldw (at_ : Issue) (f : IForm) (s : State) : Out :=
  onDie s (fun s => sldwOp s at_ f)

/-- SST (R128). -/
def execSst (at_ : Issue) (f : IForm) (s : State) : Out :=
  onDie s (fun s => sstOp s at_ f)

/-- SLI (R128). -/
def execSli (at_ : Issue) (f : LForm) (s : State) : Out :=
  onDie s (fun s => sliOp s at_ f)

/-- SLIH (R128). -/
def execSlih (at_ : Issue) (f : LForm) (s : State) : Out :=
  onDie s (fun s => slihOp s at_ f)

/-- SADD (R128). -/
def execSadd (at_ : Issue) (f : VForm) (s : State) : Out :=
  onDie s (fun s => saddOp s at_ f)

/-- SADDI (R128). -/
def execSaddi (at_ : Issue) (f : IForm) (s : State) : Out :=
  onDie s (fun s => saddiOp s at_ f)

/-- SSUB (R128). -/
def execSsub (at_ : Issue) (f : VForm) (s : State) : Out :=
  onDie s (fun s => ssubOp s at_ f)

/-- SMUL (R128). -/
def execSmul (at_ : Issue) (f : VForm) (s : State) : Out :=
  onDie s (fun s => smulOp s at_ f)

/-- SAND (R128). -/
def execSand (at_ : Issue) (f : VForm) (s : State) : Out :=
  onDie s (fun s => sandOp s at_ f)

/-- SANDI (R128). -/
def execSandi (at_ : Issue) (f : IForm) (s : State) : Out :=
  onDie s (fun s => sandiOp s at_ f)

/-- SOR (R128). -/
def execSor (at_ : Issue) (f : VForm) (s : State) : Out :=
  onDie s (fun s => sorOp s at_ f)

/-- SXOR (R128). -/
def execSxor (at_ : Issue) (f : VForm) (s : State) : Out :=
  onDie s (fun s => sxorOp s at_ f)

/-- SSHL (R128). -/
def execSshl (at_ : Issue) (f : VForm) (s : State) : Out :=
  onDie s (fun s => sshlOp s at_ f)

/-- SSHR (R128). -/
def execSshr (at_ : Issue) (f : VForm) (s : State) : Out :=
  onDie s (fun s => sshrOp s at_ f)

/-- SFADD_D (R128). -/
def execSfaddD (at_ : Issue) (f : VForm) (s : State) : Out :=
  onDie s (fun s => sfaddDOp s at_ f)

/-- SFMUL_D (R128). -/
def execSfmulD (at_ : Issue) (f : VForm) (s : State) : Out :=
  onDie s (fun s => sfmulDOp s at_ f)

/-- SFFMA_D (R128). -/
def execSffmaD (at_ : Issue) (f : VForm) (s : State) : Out :=
  onDie s (fun s => sffmaDOp s at_ f)

/-- SFDIV_D (R128). -/
def execSfdivD (at_ : Issue) (f : VForm) (s : State) : Out :=
  onDie s (fun s => sfdivDOp s at_ f)

/-- SFSQRT_D (R128). -/
def execSfsqrtD (at_ : Issue) (f : VForm) (s : State) : Out :=
  onDie s (fun s => sfsqrtDOp s at_ f)

/-- SFCVT (R156). -/
def execSfcvt (at_ : Issue) (f : VForm) (s : State) : Out :=
  onDie s (fun s => sfcvtOp s at_ f)

/-- SFMUL_S (R128). -/
def execSfmulS (at_ : Issue) (f : VForm) (s : State) : Out :=
  onDie s (fun s => sfmulSOp s at_ f)

/-- SFADD_S (R128). -/
def execSfaddS (at_ : Issue) (f : VForm) (s : State) : Out :=
  onDie s (fun s => sfaddSOp s at_ f)

/-- BR (R129). -/
def execBr (at_ : Issue) (f : JForm) (s : State) : Out :=
  onDie s (fun s => brOp s at_ f)

/-- BZ (R129). -/
def execBz (at_ : Issue) (f : JForm) (s : State) : Out :=
  onDie s (fun s => bzOp s at_ f)

/-- BNZ (R129). -/
def execBnz (at_ : Issue) (f : JForm) (s : State) : Out :=
  onDie s (fun s => bnzOp s at_ f)

/-- BNEG (R129). -/
def execBneg (at_ : Issue) (f : JForm) (s : State) : Out :=
  onDie s (fun s => bnegOp s at_ f)

/-- LOOP_INSTRUCTION (R129). -/
def execLoop (at_ : Issue) (f : JForm) (s : State) : Out :=
  onDie s (fun s => loopOp s at_ f)

/-- HALT (R123). -/
def execHalt (at_ : Issue) (f : JForm) (s : State) : Out :=
  onDie s (fun s => haltOp s at_ f)

/-- TRAP (R139). -/
def execTrap (at_ : Issue) (f : JForm) (s : State) : Out :=
  onDie s (fun s => trapOp s at_ f)

/-- SRD (R132). -/
def execSrd (at_ : Issue) (f : VForm) (s : State) : Out :=
  onDie s (fun s => srdOp s at_ f)

/-- SWAIT (R128). -/
def execSwait (at_ : Issue) (f : JForm) (s : State) : Out :=
  onDie s (fun s => swaitOp s at_ f)

/-- PMRD (R128). -/
def execPmrd (at_ : Issue) (f : IForm) (s : State) : Out :=
  onDie s (fun s => pmrdOp s at_ f)

/-- PMWX (R128). -/
def execPmwx (at_ : Issue) (f : IForm) (s : State) : Out :=
  onDie s (fun s => pmwxOp s at_ f)

/-- STIME (R133). -/
def execStime (at_ : Issue) (f : LForm) (s : State) : Out :=
  onDie s (fun s => stimeOp s at_ f)

/-- FLD (R133). -/
def execFld (at_ : Issue) (f : VForm) (s : State) : Out :=
  onDie s (fun s => fldOp s at_ f)

/-- FST (R216). -/
def execFst (at_ : Issue) (f : VForm) (s : State) : Out :=
  onDie s (fun s => fstOp s at_ f)

/-- FADD (R133). -/
def execFadd (at_ : Issue) (f : VForm) (s : State) : Out :=
  onDie s (fun s => faddOp s at_ f)

/-- FCAS (R133). -/
def execFcas (at_ : Issue) (f : VForm) (s : State) : Out :=
  onDie s (fun s => fcasOp s at_ f)

/-- FWAIT (R128). -/
def execFwait (at_ : Issue) (f : JForm) (s : State) : Out :=
  onDie s (fun s => fwaitOp s at_ f)

end Sys2Proof.Machine
end

