-- ==== Sys2Proof/Machine/RowsFloor.lean ====
section
/-!
DEFINITION. The meanings of commands: the floor and its snapshots.
-/

namespace Sys2Proof.Machine

/-- SWEEP_READ (R304). -/
def execSweepRead (n : Fin 64) (s : State) : Out :=
  onFloor s (fun s => sweepRead s n)

/-- PUSH_DRAIN (R306). -/
def execPushDrain (s : State) : Out :=
  onFloor s pushDrain

/-- SNAP_SEALED (R308). -/
def execSnapSealed (n : Fin 64) (fails : List Nat) (s : State) : Out :=
  onFloor s (fun s => snapSealed s n fails)

/-- FLOOR_PROGRAM_DONE (R296). -/
def execFloorProgramDone (ok : Bool) (eraseBad : Nat) (s : State) : Out :=
  onFloor s (fun s => programDone s ok eraseBad)

/-- CATALOG_TIMER (R298). -/
def execCatalogTimer (fails : List Nat) (s : State) : Out :=
  onFloor s (fun s => catalogTimer s fails)

/-- VERIFY_DUE (R312). -/
def execVerifyDue (id : Nat) (s : State) : Out :=
  onFloor s (fun s => verifyDue s id)

/-- BAND_REFRESH (R314). -/
def execBandRefresh (band : Nat) (fails : List Nat) (s : State) : Out :=
  onFloor s (fun s => bandRefresh s band fails)

/-- FLOOR_MOUNTED (R299). -/
def execFloorMounted (geometryOk : Bool) (s : State) : Out :=
  onFloor s (fun s => floorMounted s geometryOk)

/-- RELOAD_MOVE (R321). -/
def execReloadMove (n : Fin 64) (move : Nat) (readable : Bool) (lost : Bool) (mark : DecodedMark) (imgs : RowImages) (s : State) : Out :=
  onFloor s (fun s => if positioned s then reloadStep s n move readable lost mark imgs else s)

/-- FLOOR_READ_COMPLETE (R312). -/
def execFloorReadComplete (readable : Bool) (s : State) : Out :=
  onFloor s (fun s => floorReadComplete s readable)

end Sys2Proof.Machine
end

