-- ==== Sys2Proof/Machine/RowsGroup.lean ====
section
/-!
DEFINITION. The meanings of commands: membership, transfers and rebuilds.
-/

namespace Sys2Proof.Machine

/-- HEARTBEAT_SEND (R263). -/
def execHeartbeatSend (rank : Fin 31) (s : State) : Out :=
  onFabric s (fun s => heartbeatSend s rank)

/-- SUSPECT_TIMEOUT (R264). -/
def execSuspectTimeout (rank : Fin 31) (s : State) : Out :=
  onDie s (fun s => suspectTimeout s rank)

/-- ISOLATION_TIMEOUT (R264). -/
def execIsolationTimeout (s : State) : Out :=
  onDie s isolationTimeout

/-- DECLARE_TIMEOUT (R267). -/
def execDeclareTimeout (n : Fin 64) (member : Fin 16) (s : State) : Out :=
  onControl s (fun s => declareTimeout s n member)

/-- MEMBERSHIP_REPEAT (R265). -/
def execMembershipRepeat (n : Fin 64) (s : State) : Out :=
  onControl s (fun s => membRepeat s n)

/-- EPOCH (R269). -/
def execEpoch (p : Packet) (room : Bool) (s : State) : Out :=
  onPort s p (fun s => recvMemb s p 1 room)

/-- CONFIRM_REQ (R267). -/
def execConfirmReq (p : Packet) (room : Bool) (s : State) : Out :=
  onPort s p (fun s => recvMemb s p 2 room)

/-- CONFIRM_RSP (R267). -/
def execConfirmRsp (p : Packet) (room : Bool) (s : State) : Out :=
  onPort s p (fun s => recvMemb s p 3 room)

/-- GSEAL (R270). -/
def execGseal (p : Packet) (room : Bool) (s : State) : Out :=
  onPort s p (fun s => recvMemb s p 4 room)

/-- REPORT (R263). -/
def execReport (p : Packet) (room : Bool) (s : State) : Out :=
  onPort s p (fun s => recvMemb s p 5 room)

/-- REJOIN_REQ (R284). -/
def execRejoinReq (p : Packet) (room : Bool) (s : State) : Out :=
  onPort s p (fun s => recvMemb s p 6 room)

/-- TRANSFER_DONE (R281). -/
def execTransferDone (p : Packet) (room : Bool) (s : State) : Out :=
  onPort s p (fun s => recvMemb s p 7 room)

/-- EVAC_REQ (R283). -/
def execEvacReq (p : Packet) (room : Bool) (s : State) : Out :=
  onPort s p (fun s => recvMemb s p 8 room)

/-- ACK (R265). -/
def execMembershipAck (p : Packet) (room : Bool) (s : State) : Out :=
  onPort s p (fun s => recvMemb s p 0xF room)

/-- TRANSFER_COPY_SLOT (R281). -/
def execTransferCopySlot (n : Fin 64) (mode : Nat) (subject : Nat) (target : Nat) (imgs : RowSet) (s : State) : Out :=
  onFabric s (fun s => copySlot s n mode subject target imgs)

/-- BACKGROUND_REBUILD (R275). -/
def execBackgroundRebuild (n : Fin 64) (imgs : RowSet) (s : State) : Out :=
  onDie s (fun s => backgroundRebuild s n imgs)

/-- ABSORBED_ROW_WORK (R278). -/
def execAbsorbedRowWork (k : AbsAt) (code : Nat) (bad : Bool) (imgs : RowSet) (s : State) : Out :=
  onDie s (fun s => absorbedWork s k code bad imgs)

end Sys2Proof.Machine
end

