-- ==== Sys2Proof/Machine/RowsLine.lean ====
section
/-!
DEFINITION. The meanings of commands: the Fife line, the hub and the global counter.
-/

namespace Sys2Proof.Machine

/-- FRAME (R248). -/
def execFrame (w : BitVec 64) (fails : List Nat) (s : State) : Out :=
  onDie s (fun s => recvFrame s fails w.toNat)

/-- PHASE (R252). -/
def execPhase (w : BitVec 64) (fails : List Nat) (s : State) : Out :=
  onDie s (fun s => recvNamed s fails w.toNat 9 none)

/-- ECHO_RSP (R253). -/
def execEchoRsp (w : BitVec 64) (fails : List Nat) (s : State) : Out :=
  onDie s (fun s => recvNamed s fails w.toNat 0xB none)

/-- BEACON (R253). -/
def execBeacon (w : BitVec 64) (fails : List Nat) (s : State) : Out :=
  onDie s (fun s => recvNamed s fails w.toNat 0xC none)

/-- HEARTBEAT (R254). -/
def execHeartbeat (w : BitVec 64) (fails : List Nat) (s : State) : Out :=
  onDie s (fun s => recvNamed s fails w.toNat 8 none)

/-- POWER_WARN (R252). -/
def execPowerWarn (w : BitVec 64) (fails : List Nat) (s : State) : Out :=
  onDie s (fun s => recvNamed s fails w.toNat 0xD (some 1))

/-- POWER_CANCEL (R318). -/
def execPowerCancel (w : BitVec 64) (fails : List Nat) (s : State) : Out :=
  onDie s (fun s => recvNamed s fails w.toNat 0xD (some 2))

/-- LOOP (R256). -/
def execTestLoop (w : BitVec 64) (fails : List Nat) (s : State) : Out :=
  onDie s (fun s => recvNamed s fails w.toNat 0xF (some 0))

/-- PATTERN (R256). -/
def execTestPattern (w : BitVec 64) (fails : List Nat) (s : State) : Out :=
  onDie s (fun s => recvNamed s fails w.toNat 0xF (some 1))

/-- SCAN (R256). -/
def execTestScan (w : BitVec 64) (fails : List Nat) (s : State) : Out :=
  onDie s (fun s => recvNamed s fails w.toNat 0xF (some 2))

/-- MESSAGE_REPEAT (R251). -/
def execMessageRepeat (s : State) : Out :=
  onDie s messageRepeat

/-- HUNT_EXPIRY (R249). -/
def execHuntExpiry (s : State) : Out :=
  onDie s huntExpiry

/-- HUNT_RETRY (R249). -/
def execHuntRetry (s : State) : Out :=
  onDie s huntRetry

/-- LAUNCH_TIMEOUT (R174). -/
def execLaunchTimeout (s : State) : Out :=
  onDie s launchTimeout

/-- COUNTER_CORRECTION (R173). -/
def execCounterCorrection (s : State) : Out :=
  onDie s counterCorrection

/-- FRAME_TRANSMIT (R247). -/
def execFrameTransmit (s : State) : Out :=
  onDie s frameTransmit

end Sys2Proof.Machine
end

