-- ==== Sys2Proof/Machine/RowsPort.lean ====
section
/-!
DEFINITION. The meanings of commands: what arrives at the fabric port and what leaves it, landing, and the Fife collectives.
-/

namespace Sys2Proof.Machine

/-- LANDING_PACKET (R99). -/
def execLandingPacket (p : Packet) (u : Upset) (s : State) : Out :=
  onPort s p (fun s => landingOf s p u false)

/-- PROBE (R107). -/
def execProbe (p : Packet) (u : Upset) (s : State) : Out :=
  onPort s p (fun s => landingOf s p u true)

/-- BANK_LINE_UPDATE (R101). -/
def execBankLineUpdate (sl : Fin 16) (bank : Fin 16) (s : State) : Out :=
  onDie s (fun s => bankApply s sl bank)

/-- PARK_REPLAY (R102). -/
def execParkReplay (n : Fin 64) (s : State) : Out :=
  onDie s (fun s => parkReplay s n)

/-- FOLD (R72). -/
def execFold (p : Packet) (u : Upset) (s : State) : Out :=
  onPort s p (fun s => if hType p = 8 then recvCoding s p u else s)

/-- NULL_DELTA (R72). -/
def execNullDelta (p : Packet) (u : Upset) (s : State) : Out :=
  onPort s p (fun s => if hType p = 9 then (if hRow p = 0xFFFFFFFF then recvClose s p u else recvCoding s p u) else s)

/-- HELD_ROW_RELEASE (R208). -/
def execHeldRowRelease (sl : Fin 16) (s : State) : Out :=
  onDie s (fun s => holdRelease s sl)

/-- RECEIPT (R74). -/
def execReceipt (p : Packet) (badHeader : Bool) (s : State) : Out :=
  onPort s p (fun s => if hType p = 10 then recvReceipt s p badHeader else s)

/-- RESEND (R206). -/
def execResend (s : State) : Out :=
  onFabric s resendDue

/-- LEAF_PUT (R205). -/
def execLeafPut (p : Packet) (u : Upset) (s : State) : Out :=
  onPort s p (fun s => if hType p = 11 then recvPut s p u else s)

/-- LOAD (R202). -/
def execLoadMem (p : Packet) (u : Upset) (via : Option (Fin 16)) (rows : RowSet) (readable : Bool) (s : State) : Out :=
  onPort s p (fun s => recvLoad s p u (via.map Fin.val) rows readable)

/-- STORE (R202). -/
def execStoreMem (p : Packet) (u : Upset) (s : State) : Out :=
  onPort s p (fun s => recvStore s p u)

/-- FETCH_ADD (R202). -/
def execFetchAdd (p : Packet) (u : Upset) (s : State) : Out :=
  onPort s p (fun s => recvFetchAdd s p u)

/-- COMPARE_SWAP (R202). -/
def execCompareSwap (p : Packet) (u : Upset) (s : State) : Out :=
  onPort s p (fun s => recvCompareSwap s p u)

/-- LOAD_DATA (R201). -/
def execLoadData (p : Packet) (u : Upset) (s : State) : Out :=
  onPort s p (fun s => recvResponse s p u 2)

/-- ATOMIC_DATA (R201). -/
def execAtomicData (p : Packet) (u : Upset) (s : State) : Out :=
  onPort s p (fun s => recvResponse s p u 6)

/-- EGRESS_ARBITRATION (R210). -/
def execEgressArbitration (s : State) : Out :=
  onFabric s arbitrate

/-- LINK_FLOW_CONTROL (R211). -/
def execLinkFlowControl (tc : Fin 8) (xoff : Bool) (s : State) : Out :=
  onDie s (fun s => linkXoff s tc xoff)

/-- LANE_COUNT_CHANGE (R222). -/
def execLaneCountChange (link : Fin 32) (code : Fin 16) (s : State) : Out :=
  onDie s (fun s => laneChange s link code)

/-- SHADOW_RETIRE (R220). -/
def execShadowRetire (n : Fin 64) (s : State) : Out :=
  onDie s (fun s => shadowRetired s n)

/-- FIFE_OPEN (R240). -/
def execFifeOpen (p : Packet) (s : State) : Out :=
  onPort s p (fun s => fifeOpened s p)

/-- FIFE_ACK (R234). -/
def execFifeAck (p : Packet) (s : State) : Out :=
  onPort s p (fun s => fifeAcked s p)

/-- RESULT (R227). -/
def execResult (p : Packet) (s : State) : Out :=
  onPort s p (fun s => fifeResult s p)

/-- RECOVERY_DONE (R91). -/
def execRecoveryDone (n : Fin 64) (rows : RowSet) (s : State) : Out :=
  onControl s (fun s => recoveryDone s n (imgsOf rows 0 0))

/-- BUGLE_PACKET (R238). -/
def execBuglePacket (b : BugleIn) (s : State) : Out :=
  onDie s (fun s =>
    match b with
    | .packet p => if portTakes s p then fifeBugle s p else s
    | .frame w fails => recvNamed s fails w.toNat 7 none)

/-- HEARTBEAT_PACKET (R264). -/
def execHeartbeatPacket (p : Packet) (s : State) : Out :=
  onPort s p (fun s => recvHeartbeat s p)

/-- COUNTS (R235). -/
def execCounts (p : Packet) (s : State) : Out :=
  onPort s p (fun s => recvCounts s p)

/-- COUNTS_SEND (R235). -/
def execCountsSend (n : Fin 64) (j : Fin 64) (s : State) : Out :=
  onFabric s (fun s => countsSend s n j)

/-- COUNTS_TIMEOUT (R235). -/
def execCountsTimeout (n : Fin 64) (s : State) : Out :=
  onFabric s (fun s => countsTimeout s n)

/-- PATH_DOWN (R241). -/
def execPathDown (p : Packet) (s : State) : Out :=
  onPort s p (fun s => fifePathDown s p)

end Sys2Proof.Machine
end

