-- ==== Sys2Proof/Machine/RowsPower.lean ====
section
/-!
DEFINITION. The meanings of commands: power, clocks, reset, the MRAM and the firmware.
-/

namespace Sys2Proof.Machine

/-- PFAIL_ASSERT (R413). -/
def execPfailAssert (s : State) : Out :=
  onDie s powerFail

/-- PFAIL_DEASSERT (R318). -/
def execPfailDeassert (fails : List Nat) (s : State) : Out :=
  onDie s (fun s => powerGood s fails)

/-- BELLOWS_DELTAS (R316). -/
def execBellowsDeltas (s : State) : Out :=
  onDie s (fun s => deferredDone (bellowsDeltas s))

/-- BELLOWS_JOURNAL (R316). -/
def execBellowsJournal (fails : List Nat) (s : State) : Out :=
  onDie s (fun s => bellowsJournal s fails)

/-- BELLOWS_DONE (R316). -/
def execBellowsDone (fails : List Nat) (s : State) : Out :=
  onDie s (fun s => deferredDone (bellowsDone s fails))

/-- POWER_ON_RESET (R407). -/
def execPowerOnReset (rails : Bool) (s : State) : Out :=
  onPower s (fun s => powerOnReset s rails)

/-- POWER_ON_RESET_END (R407). -/
def execPowerOnResetEnd (s : State) : Out :=
  onPower s powerOnResetEnd

/-- CHIP_RESET (R407). -/
def execChipReset (cause : ResetBy) (strap : BitVec 12) (s : State) : Out :=
  onPower s (fun s => chipResetRequest s cause.code strap.toNat)

/-- REF_LOST (R406). -/
def execRefLost (s : State) : Out :=
  onDie s refLost

/-- HOLDOVER_EXPIRY (R406). -/
def execHoldoverExpiry (freqError : Bool) (strap : BitVec 12) (s : State) : Out :=
  onDie s (fun s => holdoverExpiry s freqError strap.toNat)

/-- BOOT (R391). -/
def execBoot (selfCheck : Bool) (s : State) : Out :=
  onDie s (fun s => boot s selfCheck)

/-- DEEP_TIER_INIT_DONE (R419). -/
def execDeepTierInitDone (s : State) : Out :=
  onDie s deepInitDone

/-- FW_LOADING_DONE (R394). -/
def execFwLoadingDone (s : State) : Out :=
  onDie s fwLoadingDone

/-- FW_SWITCH_START (R394). -/
def execFwSwitchStart (s : State) : Out :=
  onDie s fwSwitchStart

/-- FW_SWITCH_END (R394). -/
def execFwSwitchEnd (ok : Bool) (s : State) : Out :=
  onDie s (fun s => fwSwitchEnd s ok)

/-- PLL_LOCK (R405). -/
def execPllLock (s : State) : Out :=
  onPower s pllLock

/-- REFERENCE_RETURN (R406). -/
def execReferenceReturn (s : State) : Out :=
  onDie s refReturn

/-- RAILS_IN_REGULATION (R418). -/
def execRailsInRegulation (s : State) : Out :=
  onPower s railsGood

/-- MRAM_WRITE_DONE (R386). -/
def execMramWriteDone (s : State) : Out :=
  onDie s mramWriteDone

/-- FW_VERIFY_DONE (R393). -/
def execFwVerifyDone (s : State) : Out :=
  onDie s fwVerifyDone

/-- RESET_DEFERRAL_EXPIRY (R409). -/
def execResetDeferralExpiry (s : State) : Out :=
  onDie s deferralExpiry

end Sys2Proof.Machine
end

