-- ==== Sys2Proof/Machine/RowsTier.lean ====
section
/-!
DEFINITION. The meanings of commands: the memory tiers, their checking, the monitors and the completions of a function.
-/

namespace Sys2Proof.Machine

/-- INTENT_REGISTERED (R75). -/
def execIntentRegistered (n : Fin 64) (member : Fin 16) (row : Nat) (s : State) : Out :=
  onDie s (fun s => intentAcked s n member row)

/-- DEEP_READ_COMPLETE (R327). -/
def execDeepReadComplete (ch : Fin 64) (block : BitVec 23) (raw : List Byte) (owner : BlockOwner) (s : State) : Out :=
  onDie s (fun s => deepRead s ch block.toNat raw owner)

/-- DEEP_WRITE_COMPLETE (R77). -/
def execDeepWriteComplete (sl : Fin 16) (s : State) : Out :=
  onDie s (fun s => deepWriteComplete s sl)

/-- NEAR_READ_COMPLETE (R336). -/
def execNearReadComplete (region : NearRegion) (uncorrectable : Bool) (imgs : RowImages) (s : State) : Out :=
  onDie s (fun s => nearReadDone s region uncorrectable imgs)

/-- CHANNEL_RESUME (R331). -/
def execChannelResume (ch : Fin 64) (raw : List Byte) (imgs : RowImages) (s : State) : Out :=
  onDie s (fun s => channelResume s ch raw imgs)

/-- CE_WRITEBACK (R340). -/
def execCeWriteback (ch : Fin 64) (block : BitVec 23) (overwritten : Bool) (s : State) : Out :=
  onDie s (fun s => ceWriteback s ch block.toNat overwritten)

/-- HARD_FAULT_CHECK (R340). -/
def execHardFaultCheck (ch : Fin 64) (block : BitVec 23) (raw : List Byte) (s : State) : Out :=
  onDie s (fun s => hardFaultCheck s ch block.toNat raw)

/-- ERASURE_REENCODE (R335). -/
def execErasureReencode (n : Fin 64) (area : Fin 2) (gen : Nat) (row : Nat) (imgs : RowImages) (s : State) : Out :=
  onDie s (fun s => erasureReencode s n area gen row imgs)

/-- RECEIPT_TIMEOUT (R338). -/
def execReceiptTimeout (n : Fin 64) (s : State) : Out :=
  onDie s (fun s => receiptTimeout s n)

/-- SEQUENCER_LOCKSTEP (R348). -/
def execSequencerLockstep (s : State) : Out :=
  onDie s (fun s => withdrawDie s 2 0)

/-- DRONE_BLOCK_READ (R344). -/
def execDroneBlockRead (ch : Fin 64) (raw : List Byte) (owner : BlockOwner) (s : State) : Out :=
  onDie s (fun s => droneRead s ch raw owner)

/-- PARITY_LAP_ROW (R345). -/
def execParityLapRow (n : Fin 64) (imgs : RowImages) (s : State) : Out :=
  onDie s (fun s => parityRow s n imgs)

/-- AUDIT_SELECT (R349). -/
def execAuditSelect (sl : Fin 16) (core : Fin 32) (s : State) : Out :=
  onDie s (fun s => auditSelect s sl core)

/-- AUDITOR_RUN (R350). -/
def execAuditorRun (sl : Fin 16) (res : AuditRes) (s : State) : Out :=
  onDie s (fun s => auditorRun s sl res)

/-- REFEREE_RUN (R350). -/
def execRefereeRun (sl : Fin 16) (res : AuditRes) (s : State) : Out :=
  onDie s (fun s => refereeRun s sl res)

/-- AUDIT_TIMEOUT (R350). -/
def execAuditTimeout (sl : Fin 16) (s : State) : Out :=
  onDie s (fun s => auditTimeout s sl)

/-- OCCUPANCY_WINDOW (R192). -/
def execOccupancyWindow (deep : List (List Nat)) (near : List (List Nat)) (s : State) : Out :=
  onDie s (fun s => occupancyWindow s deep near)

/-- POWER_WINDOW (R416). -/
def execPowerWindow (watts : Nat) (s : State) : Out :=
  onDie s (fun s => powerWindow s watts)

/-- THERMAL_SAMPLE (R417). -/
def execThermalSample (temp : BitVec 8) (hot : BitVec 8) (s : State) : Out :=
  onDie s (fun s => thermalSample s temp.toNat hot.toNat)

/-- MARGIN_WINDOW (R282). -/
def execMarginWindow (mins : List Nat) (room : Bool) (s : State) : Out :=
  onDie s (fun s => marginWindow s mins room)

/-- REFRESH_INDICATION (R178). -/
def execRefreshIndication (sl : Fin 16) (rate : Rate) (s : State) : Out :=
  onDie s (fun s => refreshIndication s sl rate.times)

/-- MSIX_MODERATION (R376). -/
def execMsixModeration (n : Fin 64) (vec : Fin 32) (s : State) : Out :=
  onDie s (fun s => msiModerated s n vec)

/-- MIGRATION_COPY_DONE (R34). -/
def execMigrationCopyDone (n : Fin 64) (s : State) : Out :=
  onDie s (fun s => migrationCopied s n)

/-- FORMAT_COMPLETE (R57). -/
def execFormatComplete (n : Fin 64) (s : State) : Out :=
  onControl s (fun s => formatComplete s n)

/-- DRAIN_COMPLETE (R363). -/
def execDrainComplete (n : Fin 64) (rows : RowSet) (s : State) : Out :=
  onControl s (fun s => drainComplete s n (imgsOf rows 0 0))

/-- DRAIN_FORCED (R365). -/
def execDrainForced (n : Fin 64) (s : State) : Out :=
  onControl s (fun s => drainForced s n)

/-- CHANNEL_TRAINING_FAILURE (R331). -/
def execChannelTrainingFailure (ch : Fin 64) (s : State) : Out :=
  onDie s (fun s => channelFail s ch)

/-- VERIFY_ROW (R62). -/
def execVerifyRow (n : Fin 64) (imgs : RowImages) (s : State) : Out :=
  onDie s (fun s => verifyNext s n imgs)

end Sys2Proof.Machine
end

