-- ==== Sys2Proof/Machine/RowsTwin.lean ====
section
/-!
DEFINITION. The meanings of commands: the twin comparator.
-/

namespace Sys2Proof.Machine

/-- PAIR (R426). -/
def execPair (p : Packet) (s : State) : Out :=
  onPort s p (fun s => if s.variant = .C then s else twinPacket s p 1)

/-- DIGEST (R428). -/
def execDigest (p : Packet) (s : State) : Out :=
  onPort s p (fun s => if s.variant = .C then s else twinPacket s p 2)

/-- LINES (R430). -/
def execLines (p : Packet) (s : State) : Out :=
  onPort s p (fun s => if s.variant = .C then s else twinPacket s p 3)

/-- LINE (R430). -/
def execLine (p : Packet) (s : State) : Out :=
  onPort s p (fun s => if s.variant = .C then s else twinPacket s p 4)

/-- TWIN_WAIT_EXPIRY (R428). -/
def execTwinWaitExpiry (n : Fin 64) (s : State) : Out :=
  onFloor s (fun s => waitExpiry s n)

/-- PARTNER_LOST (R431). -/
def execPartnerLost (s : State) : Out :=
  onFloor s partnerLost

/-- LOCATION_TIMEOUT (R430). -/
def execLocationTimeout (s : State) : Out :=
  onFloor s locationTimeout

end Sys2Proof.Machine
end

