-- ==== Sys2Proof/Machine/RowsWheel.lean ====
section
/-!
DEFINITION. The meanings of commands: the actions of the slot wheel, passes and runs.
-/

namespace Sys2Proof.Machine

/-- READOUT (R106). -/
def execReadout (k : ActAt) (s : State) : Out :=
  onDie s (fun s => readoutAct s k)

/-- GCOMMIT (R125). -/
def execGcommit (k : ActAt) (s : State) : Out :=
  onDie s (fun s => gcommitAct s k)

/-- GWRITE (R68). -/
def execGwrite (k : ActAt) (s : State) : Out :=
  onDie s (fun s => gwriteAct s k)

/-- GSEND (R68). -/
def execGsend (k : ActAt) (s : State) : Out :=
  onDie s (fun s => gsendAct s k)

/-- GHOLD (R73). -/
def execGhold (k : ActAt) (s : State) : Out :=
  onDie s (fun s => gholdAct s k)

/-- PRELUDE (R126). -/
def execPrelude (k : ActAt) (s : State) : Out :=
  onDie s (fun s => preludeAct s k)

/-- LREAD (R75). -/
def execLread (k : ActAt) (bad : Bool) (imgs : RowSet) (s : State) : Out :=
  onDie s (fun s => lreadAct s k bad imgs)

/-- RUN (R119). -/
def execRun (k : ActAt) (s : State) : Out :=
  onDie s (fun s => runAct s k)

/-- SRD_ACTION (R132). -/
def execSrdAction (k : ActAt) (imgs : RowSet) (s : State) : Out :=
  onDie s (fun s => srdAct s k imgs)

/-- REG (R75). -/
def execReg (k : ActAt) (s : State) : Out :=
  onDie s (fun s => regAct s k)

/-- SEND (R75). -/
def execSend (k : ActAt) (s : State) : Out :=
  onDie s (fun s => sendAct s k)

/-- LWRITE (R75). -/
def execLwrite (k : ActAt) (s : State) : Out :=
  onDie s (fun s => lwriteAct s k)

/-- EMIT (R36). -/
def execEmit (k : ActAt) (s : State) : Out :=
  onDie s (fun s => emitAct s k)

/-- HOLD (R73). -/
def execHold (k : ActAt) (imgs : RowSet) (s : State) : Out :=
  onDie s (fun s => holdAct s k imgs)

/-- FILL (R37). -/
def execFill (k : ActAt) (s : State) : Out :=
  onDie s (fun s => fillAct s k)

/-- MGMT (R183). -/
def execMgmt (k : ActAt) (s : State) : Out :=
  onDie s (fun s => mgmtAct s k)

/-- STALL_WATCHDOG (R111). -/
def execStallWatchdog (n : Fin 64) (s : State) : Out :=
  onDie s (fun s => stallWatchdog s n)

/-- GRADIENT_SEAL (R65). -/
def execGradientSeal (n : Fin 64) (s : State) : Out :=
  onDie s (fun s => gradSealCheck (partialsCheck s n) n)

/-- PASS_START (R64). -/
def execPassStart (n : Fin 64) (s : State) : Out :=
  onControl s (fun s => passStart s n false)

/-- RERUN_START (R93). -/
def execRerunStart (n : Fin 64) (s : State) : Out :=
  onControl s (fun s => passStart s n true)

/-- INTAKE_START (R187). -/
def execIntakeStart (n : Fin 64) (s : State) : Out :=
  onDie s (fun s => intakeStart s n)

/-- LOAD_PASS_START (R456). -/
def execLoadPassStart (n : Fin 64) (s : State) : Out :=
  onControl s (fun s => loadPassStart s n)

/-- RUN_WINDOW_END (R123). -/
def execRunWindowEnd (core : Fin 512) (s : State) : Out :=
  onDie s (fun s => runWindowEnd s core)

/-- RUN_BUDGET_EXPIRY (R139). -/
def execRunBudgetExpiry (core : Fin 512) (s : State) : Out :=
  onDie s (fun s => runBudgetExpiry s core)

/-- RUN_RESTART (R139). -/
def execRunRestart (core : Fin 512) (imgs : RowSet) (s : State) : Out :=
  onDie s (fun s => runRestart s core imgs)

/-- FABRIC_TIMEOUT (R133). -/
def execFabricTimeout (sl : Fin 16) (core : Fin 32) (s : State) : Out :=
  onDie s (fun s => fabricTimeout s sl core)

end Sys2Proof.Machine
end

