-- ==== Sys2Proof/Machine/RowsWindow.lean ====
section
/-!
DEFINITION. The meanings of commands: writes and reads through the register window, and what the host does to functions and links.
-/

namespace Sys2Proof.Machine

/-- START (R358). -/
def execStart (src : Source) (n : Fin 64) (s : State) : Out :=
  onDie s (fun s => fieldWrite s src (pgFn n + 0x040) 0x80000000 (0x80000000))

/-- RESET (R362). -/
def execReset (src : Source) (n : Fin 64) (s : State) : Out :=
  onDie s (fun s => fieldWrite s src (pgFn n + 0x040) 0x20000000 (0x20000000))

/-- FUNCTION_LEVEL_RESET (R362). -/
def execFunctionLevelReset (n : Fin 64) (s : State) : Out :=
  onDie s (fun s => resetFn s n false)

/-- ENABLE_BIT_SET (R357). -/
def execEnableBitSet (src : Source) (n : Fin 64) (s : State) : Out :=
  onDie s (fun s => fieldWrite s src (pgGlobal + 0x040 + 4 * (n.val / 32)) (2 ^ (n.val % 32)) (2 ^ (n.val % 32)))

/-- ENABLE_BIT_CLEAR (R357). -/
def execEnableBitClear (src : Source) (n : Fin 64) (s : State) : Out :=
  onDie s (fun s => fieldWrite s src (pgGlobal + 0x040 + 4 * (n.val / 32)) (2 ^ (n.val % 32)) (0))

/-- VF_ENABLE_CHANGE (R353). -/
def execVfEnableChange (k : Fin 64) (s : State) : Out :=
  onDie s (fun s => vfChange s k)

/-- DOORBELL (R368). -/
def execDoorbell (src : Source) (n : Fin 64) (v : BitVec 32) (s : State) : Out :=
  onDie s (fun s => windowStore s src (pgFn n + 0x068) v.toNat true)

/-- ARM (R367). -/
def execArm (src : Source) (n : Fin 64) (s : State) : Out :=
  onDie s (fun s => fieldWrite s src (pgFn n + 0x048) 0x80000000 (0x80000000))

/-- DISARM (R370). -/
def execDisarm (src : Source) (n : Fin 64) (s : State) : Out :=
  onDie s (fun s => fieldWrite s src (pgFn n + 0x048) 0x80000000 (0))

/-- HOST_LINK_DOWN (R370). -/
def execLinkDown (s : State) : Out :=
  onDie s hostLinkDown

/-- LAUNCH (R174). -/
def execLaunch (src : Source) (s : State) : Out :=
  onDie s (fun s => fieldWrite s src (pgWheel + 0x040) 0x08000000 (0x08000000))

/-- SET (R175). -/
def execSetCounter (src : Source) (s : State) : Out :=
  onDie s (fun s => fieldWrite s src (pgWheel + 0x040) 0x04000000 (0x04000000))

/-- LEN_LOG2 (R196). -/
def execLenLog2 (src : Source) (v : Fin 16) (s : State) : Out :=
  onDie s (fun s => fieldWrite s src (pgWheel + 0x040) 0xF0000000 (v.val * 2 ^ 28))

/-- ADJ (R176). -/
def execAdj (src : Source) (v : BitVec 16) (s : State) : Out :=
  onDie s (fun s => fieldWrite s src (pgWheel + 0x058) 0xFFFF (v.toNat))

/-- RETRAIN (R249). -/
def execRetrain (src : Source) (s : State) : Out :=
  onDie s (fun s => fieldWrite s src (pgFife + 0x040) 0x80000000 (0x80000000))

/-- BUGLE (R237). -/
def execBugle (src : Source) (n : Fin 64) (s : State) : Out :=
  onDie s (fun s => fieldWrite s src (pgFn n + 0x178) 0x00400000 (0x00400000))

/-- GATE (R403). -/
def execGate (src : Source) (sl : Fin 16) (s : State) : Out :=
  onDie s (fun s => fieldWrite s src (pgClkpwr + 0x04C) (2 ^ sl.val) (2 ^ sl.val))

/-- UNGATE (R404). -/
def execUngate (src : Source) (sl : Fin 16) (s : State) : Out :=
  onDie s (fun s => fieldWrite s src (pgClkpwr + 0x04C) (2 ^ sl.val) (0))

/-- SLICE_GATED (R403). -/
def execSliceGated (sl : Fin 16) (s : State) : Out :=
  onDie s (fun s => sliceGated s sl)

/-- SLICE_UNGATED (R404). -/
def execSliceUngated (sl : Fin 16) (s : State) : Out :=
  onDie s (fun s => sliceUngated s sl)

/-- REGION_RESET (R409). -/
def execRegionReset (src : Source) (q : Fin 4) (s : State) : Out :=
  onDie s (fun s => fieldWrite s src (pgClkpwr + 0x054) (2 ^ (16 + q.val)) (2 ^ (16 + q.val)))

/-- SLICE_RESET (R407). -/
def execSliceReset (src : Source) (sl : Fin 16) (s : State) : Out :=
  onDie s (fun s => fieldWrite s src (pgClkpwr + 0x054) (2 ^ sl.val) (2 ^ sl.val))

/-- POSITION (R411). -/
def execPosition (src : Source) (v : BitVec 32) (s : State) : Out :=
  onDie s (fun s => windowStore s src (pgClkpwr + 0x040) v.toNat true)

/-- READ_RAW (R343). -/
def execReadRaw (src : Source) (sl : Fin 16) (raw : List Byte) (owner : BlockOwner) (s : State) : Out :=
  onDie s (fun s => checkerWrite s src sl 0 raw owner)

/-- WRITE_RAW (R343). -/
def execWriteRaw (src : Source) (sl : Fin 16) (raw : List Byte) (owner : BlockOwner) (s : State) : Out :=
  onDie s (fun s => checkerWrite s src sl 1 raw owner)

/-- READ_DECODED (R343). -/
def execReadDecoded (src : Source) (sl : Fin 16) (raw : List Byte) (owner : BlockOwner) (s : State) : Out :=
  onDie s (fun s => checkerWrite s src sl 2 raw owner)

/-- WATCH_LOG_CLEAR (R341). -/
def execWatchLogClear (src : Source) (s : State) : Out :=
  onDie s (fun s => fieldWrite s src (pgDrone + 0x058) 0x40000000 (0x40000000))

/-- CLEAR_COUNTS (R445). -/
def execClearCounts (src : Source) (page : BitVec 12) (s : State) : Out :=
  onDie s (fun s => windowStore s src (page.toNat * 4096 + 0x010) 0x80000000 true)

/-- LOCK (R444). -/
def execLock (src : Source) (page : BitVec 12) (v : Bool) (s : State) : Out :=
  onDie s (fun s => windowStore s src (page.toNat * 4096 + 0x024) (b2n v) true)

/-- PUSH_AREA (R306). -/
def execPushArea (src : Source) (v : BitVec 32) (s : State) : Out :=
  onDie s (fun s => windowStore s src (pgFloor + 0x048) v.toNat true)

/-- REMAP (R342). -/
def execRemap (src : Source) (ch : Fin 64) (entry : Fin 16) (v : BitVec 32) (s : State) : Out :=
  onDie s (fun s => windowStore s src (remapAt ch entry) v.toNat true)

/-- INT_FORCE (R376). -/
def execIntForce (src : Source) (page : BitVec 12) (v : BitVec 32) (s : State) : Out :=
  onDie s (fun s => windowStore s src (page.toNat * 4096 + 0x020) v.toNat true)

/-- REGISTER_WRITE (R12). -/
def execRegisterWrite (src : Source) (off : BitVec 24) (v : BitVec 32) (whole : Bool) (s : State) : Out :=
  onDie s (fun s => windowStore s src off.toNat v.toNat whole)

/-- READ_CLEAR (R15). -/
def execReadClear (src : Source) (off : BitVec 24) (s : State) : Out :=
  onDie s (fun s => windowRead s src off.toNat)

/-- LATCHED_READ (R437). -/
def execLatchedRead (src : Source) (off : BitVec 24) (s : State) : Out :=
  onDie s (fun s => windowRead s src off.toNat)

end Sys2Proof.Machine
end

