-- ==== Sys2Proof/Machine/Dispatch.lean ====
section
/-!
DEFINITION. The dispatch of the commands: one arm for each constructor of `Instr`, a direct call of its meaning.
-/

namespace Sys2Proof.Machine

/-- The effect of a command on everything but the queue. -/
def exec (i : Instr) (s : State) : Host.Outcome State Fault Refusal :=
  match i with
  | .loadManifest n b => Sys2Proof.Machine.execLoadManifest n b s
  | .loadPrograms n b => Sys2Proof.Machine.execLoadPrograms n b s
  | .loadWheel n b => Sys2Proof.Machine.execLoadWheel n b s
  | .loadLeaves n b => Sys2Proof.Machine.execLoadLeaves n b s
  | .migrate n => Sys2Proof.Machine.execMigrate n s
  | .verifyRows n => Sys2Proof.Machine.execVerifyRows n s
  | .setOwnership n b => Sys2Proof.Machine.execSetOwnership n b s
  | .routeLoad n b => Sys2Proof.Machine.execRouteLoad n b s
  | .routeStage n b => Sys2Proof.Machine.execRouteStage n b s
  | .saveContext n => Sys2Proof.Machine.execSaveContext n s
  | .restoreContext n b => Sys2Proof.Machine.execRestoreContext n b s
  | .stop n by_ => Sys2Proof.Machine.execStop n by_ s
  | .fifeCollective n b => Sys2Proof.Machine.execFifeCollective n b s
  | .declareFailed n room => Sys2Proof.Machine.execDeclareFailed n room s
  | .evacuate n room => Sys2Proof.Machine.execEvacuate n room s
  | .rejoin n => Sys2Proof.Machine.execRejoin n s
  | .contract n b => Sys2Proof.Machine.execContract n b s
  | .reshard n b => Sys2Proof.Machine.execReshard n b s
  | .snapshot n => Sys2Proof.Machine.execSnapshot n s
  | .floorFormat n fails => Sys2Proof.Machine.execFloorFormat n fails s
  | .floorList n => Sys2Proof.Machine.execFloorList n s
  | .reload n b => Sys2Proof.Machine.execReload n b s
  | .clearRemap n => Sys2Proof.Machine.execClearRemap n s
  | .twinReport n => Sys2Proof.Machine.execTwinReport n s
  | .nvmStore n => Sys2Proof.Machine.execNvmStore n s
  | .nvmClear n => Sys2Proof.Machine.execNvmClear n s
  | .logRead n => Sys2Proof.Machine.execLogRead n s
  | .fwDownload n b => Sys2Proof.Machine.execFwDownload n b s
  | .fwVerify n => Sys2Proof.Machine.execFwVerify n s
  | .fwActivate n => Sys2Proof.Machine.execFwActivate n s
  | .fwConfirm n => Sys2Proof.Machine.execFwConfirm n s
  | .fwAbandon n => Sys2Proof.Machine.execFwAbandon n s
  | .keyAdd n b => Sys2Proof.Machine.execKeyAdd n b s
  | .keyRevoke n => Sys2Proof.Machine.execKeyRevoke n s
  | .commandFetch n entry => Sys2Proof.Machine.execCommandFetch n entry s
  | .start src n => Sys2Proof.Machine.execStart src n s
  | .reset src n => Sys2Proof.Machine.execReset src n s
  | .functionLevelReset n => Sys2Proof.Machine.execFunctionLevelReset n s
  | .enableBitSet src n => Sys2Proof.Machine.execEnableBitSet src n s
  | .enableBitClear src n => Sys2Proof.Machine.execEnableBitClear src n s
  | .vfEnableChange k => Sys2Proof.Machine.execVfEnableChange k s
  | .doorbell src n v => Sys2Proof.Machine.execDoorbell src n v s
  | .arm src n => Sys2Proof.Machine.execArm src n s
  | .disarm src n => Sys2Proof.Machine.execDisarm src n s
  | .linkDown => Sys2Proof.Machine.execLinkDown s
  | .launch src => Sys2Proof.Machine.execLaunch src s
  | .setCounter src => Sys2Proof.Machine.execSetCounter src s
  | .lenLog2 src v => Sys2Proof.Machine.execLenLog2 src v s
  | .adj src v => Sys2Proof.Machine.execAdj src v s
  | .retrain src => Sys2Proof.Machine.execRetrain src s
  | .bugle src n => Sys2Proof.Machine.execBugle src n s
  | .gate src sl => Sys2Proof.Machine.execGate src sl s
  | .ungate src sl => Sys2Proof.Machine.execUngate src sl s
  | .sliceGated sl => Sys2Proof.Machine.execSliceGated sl s
  | .sliceUngated sl => Sys2Proof.Machine.execSliceUngated sl s
  | .regionReset src q => Sys2Proof.Machine.execRegionReset src q s
  | .sliceReset src sl => Sys2Proof.Machine.execSliceReset src sl s
  | .position src v => Sys2Proof.Machine.execPosition src v s
  | .readRaw src sl raw owner => Sys2Proof.Machine.execReadRaw src sl raw owner s
  | .writeRaw src sl raw owner => Sys2Proof.Machine.execWriteRaw src sl raw owner s
  | .readDecoded src sl raw owner => Sys2Proof.Machine.execReadDecoded src sl raw owner s
  | .watchLogClear src => Sys2Proof.Machine.execWatchLogClear src s
  | .clearCounts src page => Sys2Proof.Machine.execClearCounts src page s
  | .lock src page v => Sys2Proof.Machine.execLock src page v s
  | .pushArea src v => Sys2Proof.Machine.execPushArea src v s
  | .remap src ch entry v => Sys2Proof.Machine.execRemap src ch entry v s
  | .intForce src page v => Sys2Proof.Machine.execIntForce src page v s
  | .registerWrite src off v whole => Sys2Proof.Machine.execRegisterWrite src off v whole s
  | .readClear src off => Sys2Proof.Machine.execReadClear src off s
  | .latchedRead src off => Sys2Proof.Machine.execLatchedRead src off s
  | .landingPacket p u => Sys2Proof.Machine.execLandingPacket p u s
  | .probe p u => Sys2Proof.Machine.execProbe p u s
  | .bankLineUpdate sl bank => Sys2Proof.Machine.execBankLineUpdate sl bank s
  | .parkReplay n => Sys2Proof.Machine.execParkReplay n s
  | .fold p u => Sys2Proof.Machine.execFold p u s
  | .nullDelta p u => Sys2Proof.Machine.execNullDelta p u s
  | .heldRowRelease sl => Sys2Proof.Machine.execHeldRowRelease sl s
  | .receipt p badHeader => Sys2Proof.Machine.execReceipt p badHeader s
  | .resend => Sys2Proof.Machine.execResend s
  | .leafPut p u => Sys2Proof.Machine.execLeafPut p u s
  | .loadMem p u via rows readable => Sys2Proof.Machine.execLoadMem p u via rows readable s
  | .storeMem p u => Sys2Proof.Machine.execStoreMem p u s
  | .fetchAdd p u => Sys2Proof.Machine.execFetchAdd p u s
  | .compareSwap p u => Sys2Proof.Machine.execCompareSwap p u s
  | .loadData p u => Sys2Proof.Machine.execLoadData p u s
  | .atomicData p u => Sys2Proof.Machine.execAtomicData p u s
  | .egressArbitration => Sys2Proof.Machine.execEgressArbitration s
  | .linkFlowControl tc xoff => Sys2Proof.Machine.execLinkFlowControl tc xoff s
  | .laneCountChange link code => Sys2Proof.Machine.execLaneCountChange link code s
  | .shadowRetire n => Sys2Proof.Machine.execShadowRetire n s
  | .fifeOpen p => Sys2Proof.Machine.execFifeOpen p s
  | .fifeAck p => Sys2Proof.Machine.execFifeAck p s
  | .result p => Sys2Proof.Machine.execResult p s
  | .recoveryDone n rows => Sys2Proof.Machine.execRecoveryDone n rows s
  | .buglePacket b => Sys2Proof.Machine.execBuglePacket b s
  | .heartbeatPacket p => Sys2Proof.Machine.execHeartbeatPacket p s
  | .counts p => Sys2Proof.Machine.execCounts p s
  | .countsSend n j => Sys2Proof.Machine.execCountsSend n j s
  | .countsTimeout n => Sys2Proof.Machine.execCountsTimeout n s
  | .pathDown p => Sys2Proof.Machine.execPathDown p s
  | .frame w fails => Sys2Proof.Machine.execFrame w fails s
  | .phase w fails => Sys2Proof.Machine.execPhase w fails s
  | .echoRsp w fails => Sys2Proof.Machine.execEchoRsp w fails s
  | .beacon w fails => Sys2Proof.Machine.execBeacon w fails s
  | .heartbeat w fails => Sys2Proof.Machine.execHeartbeat w fails s
  | .powerWarn w fails => Sys2Proof.Machine.execPowerWarn w fails s
  | .powerCancel w fails => Sys2Proof.Machine.execPowerCancel w fails s
  | .testLoop w fails => Sys2Proof.Machine.execTestLoop w fails s
  | .testPattern w fails => Sys2Proof.Machine.execTestPattern w fails s
  | .testScan w fails => Sys2Proof.Machine.execTestScan w fails s
  | .messageRepeat => Sys2Proof.Machine.execMessageRepeat s
  | .huntExpiry => Sys2Proof.Machine.execHuntExpiry s
  | .huntRetry => Sys2Proof.Machine.execHuntRetry s
  | .launchTimeout => Sys2Proof.Machine.execLaunchTimeout s
  | .counterCorrection => Sys2Proof.Machine.execCounterCorrection s
  | .readout k => Sys2Proof.Machine.execReadout k s
  | .gcommit k => Sys2Proof.Machine.execGcommit k s
  | .gwrite k => Sys2Proof.Machine.execGwrite k s
  | .gsend k => Sys2Proof.Machine.execGsend k s
  | .ghold k => Sys2Proof.Machine.execGhold k s
  | .prelude k => Sys2Proof.Machine.execPrelude k s
  | .lread k bad imgs => Sys2Proof.Machine.execLread k bad imgs s
  | .run k => Sys2Proof.Machine.execRun k s
  | .srdAction k imgs => Sys2Proof.Machine.execSrdAction k imgs s
  | .reg k => Sys2Proof.Machine.execReg k s
  | .send k => Sys2Proof.Machine.execSend k s
  | .lwrite k => Sys2Proof.Machine.execLwrite k s
  | .emit k => Sys2Proof.Machine.execEmit k s
  | .hold k imgs => Sys2Proof.Machine.execHold k imgs s
  | .fill k => Sys2Proof.Machine.execFill k s
  | .mgmt k => Sys2Proof.Machine.execMgmt k s
  | .stallWatchdog n => Sys2Proof.Machine.execStallWatchdog n s
  | .gradientSeal n => Sys2Proof.Machine.execGradientSeal n s
  | .passStart n => Sys2Proof.Machine.execPassStart n s
  | .rerunStart n => Sys2Proof.Machine.execRerunStart n s
  | .intakeStart n => Sys2Proof.Machine.execIntakeStart n s
  | .loadPassStart n => Sys2Proof.Machine.execLoadPassStart n s
  | .runWindowEnd core => Sys2Proof.Machine.execRunWindowEnd core s
  | .runBudgetExpiry core => Sys2Proof.Machine.execRunBudgetExpiry core s
  | .runRestart core imgs => Sys2Proof.Machine.execRunRestart core imgs s
  | .fabricTimeout sl core => Sys2Proof.Machine.execFabricTimeout sl core s
  | .nop at_ portB rest => Sys2Proof.Machine.execNop at_ portB rest s
  | .vadd at_ f => Sys2Proof.Machine.execVadd at_ f s
  | .vsub at_ f => Sys2Proof.Machine.execVsub at_ f s
  | .vmul at_ f => Sys2Proof.Machine.execVmul at_ f s
  | .vfma at_ f => Sys2Proof.Machine.execVfma at_ f s
  | .vfnma at_ f => Sys2Proof.Machine.execVfnma at_ f s
  | .vmin at_ f => Sys2Proof.Machine.execVmin at_ f s
  | .vmax at_ f => Sys2Proof.Machine.execVmax at_ f s
  | .vdiv at_ f => Sys2Proof.Machine.execVdiv at_ f s
  | .vsqrt at_ f => Sys2Proof.Machine.execVsqrt at_ f s
  | .vabs at_ f => Sys2Proof.Machine.execVabs at_ f s
  | .vneg at_ f => Sys2Proof.Machine.execVneg at_ f s
  | .vsign at_ f => Sys2Proof.Machine.execVsign at_ f s
  | .vsel at_ f => Sys2Proof.Machine.execVsel at_ f s
  | .vcmp at_ f => Sys2Proof.Machine.execVcmp at_ f s
  | .vcvt at_ f => Sys2Proof.Machine.execVcvt at_ f s
  | .vsplat at_ f => Sys2Proof.Machine.execVsplat at_ f s
  | .vpowi at_ f => Sys2Proof.Machine.execVpowi at_ f s
  | .vrsum at_ f => Sys2Proof.Machine.execVrsum at_ f s
  | .vmode at_ f => Sys2Proof.Machine.execVmode at_ f s
  | .vxor at_ f => Sys2Proof.Machine.execVxor at_ f s
  | .vgfmul at_ f => Sys2Proof.Machine.execVgfmul at_ f s
  | .vgfmac at_ f => Sys2Proof.Machine.execVgfmac at_ f s
  | .tzero at_ f => Sys2Proof.Machine.execTzero at_ f s
  | .tmma at_ f => Sys2Proof.Machine.execTmma at_ f s
  | .trd at_ f => Sys2Proof.Machine.execTrd at_ f s
  | .vld at_ f => Sys2Proof.Machine.execVld at_ f s
  | .vst at_ f => Sys2Proof.Machine.execVst at_ f s
  | .vldb at_ f => Sys2Proof.Machine.execVldb at_ f s
  | .sld at_ f => Sys2Proof.Machine.execSld at_ f s
  | .sldw at_ f => Sys2Proof.Machine.execSldw at_ f s
  | .sst at_ f => Sys2Proof.Machine.execSst at_ f s
  | .sli at_ f => Sys2Proof.Machine.execSli at_ f s
  | .slih at_ f => Sys2Proof.Machine.execSlih at_ f s
  | .sadd at_ f => Sys2Proof.Machine.execSadd at_ f s
  | .saddi at_ f => Sys2Proof.Machine.execSaddi at_ f s
  | .ssub at_ f => Sys2Proof.Machine.execSsub at_ f s
  | .smul at_ f => Sys2Proof.Machine.execSmul at_ f s
  | .sand at_ f => Sys2Proof.Machine.execSand at_ f s
  | .sandi at_ f => Sys2Proof.Machine.execSandi at_ f s
  | .sor at_ f => Sys2Proof.Machine.execSor at_ f s
  | .sxor at_ f => Sys2Proof.Machine.execSxor at_ f s
  | .sshl at_ f => Sys2Proof.Machine.execSshl at_ f s
  | .sshr at_ f => Sys2Proof.Machine.execSshr at_ f s
  | .sfaddD at_ f => Sys2Proof.Machine.execSfaddD at_ f s
  | .sfmulD at_ f => Sys2Proof.Machine.execSfmulD at_ f s
  | .sffmaD at_ f => Sys2Proof.Machine.execSffmaD at_ f s
  | .sfdivD at_ f => Sys2Proof.Machine.execSfdivD at_ f s
  | .sfsqrtD at_ f => Sys2Proof.Machine.execSfsqrtD at_ f s
  | .sfcvt at_ f => Sys2Proof.Machine.execSfcvt at_ f s
  | .sfmulS at_ f => Sys2Proof.Machine.execSfmulS at_ f s
  | .sfaddS at_ f => Sys2Proof.Machine.execSfaddS at_ f s
  | .br at_ f => Sys2Proof.Machine.execBr at_ f s
  | .bz at_ f => Sys2Proof.Machine.execBz at_ f s
  | .bnz at_ f => Sys2Proof.Machine.execBnz at_ f s
  | .bneg at_ f => Sys2Proof.Machine.execBneg at_ f s
  | .loop at_ f => Sys2Proof.Machine.execLoop at_ f s
  | .halt at_ f => Sys2Proof.Machine.execHalt at_ f s
  | .trap at_ f => Sys2Proof.Machine.execTrap at_ f s
  | .srd at_ f => Sys2Proof.Machine.execSrd at_ f s
  | .swait at_ f => Sys2Proof.Machine.execSwait at_ f s
  | .pmrd at_ f => Sys2Proof.Machine.execPmrd at_ f s
  | .pmwx at_ f => Sys2Proof.Machine.execPmwx at_ f s
  | .stime at_ f => Sys2Proof.Machine.execStime at_ f s
  | .fld at_ f => Sys2Proof.Machine.execFld at_ f s
  | .fst at_ f => Sys2Proof.Machine.execFst at_ f s
  | .fadd at_ f => Sys2Proof.Machine.execFadd at_ f s
  | .fcas at_ f => Sys2Proof.Machine.execFcas at_ f s
  | .fwait at_ f => Sys2Proof.Machine.execFwait at_ f s
  | .intentRegistered n member row => Sys2Proof.Machine.execIntentRegistered n member row s
  | .deepReadComplete ch block raw owner => Sys2Proof.Machine.execDeepReadComplete ch block raw owner s
  | .deepWriteComplete sl => Sys2Proof.Machine.execDeepWriteComplete sl s
  | .nearReadComplete region uncorrectable imgs => Sys2Proof.Machine.execNearReadComplete region uncorrectable imgs s
  | .channelResume ch raw imgs => Sys2Proof.Machine.execChannelResume ch raw imgs s
  | .ceWriteback ch block overwritten => Sys2Proof.Machine.execCeWriteback ch block overwritten s
  | .hardFaultCheck ch block raw => Sys2Proof.Machine.execHardFaultCheck ch block raw s
  | .erasureReencode n area gen row imgs => Sys2Proof.Machine.execErasureReencode n area gen row imgs s
  | .receiptTimeout n => Sys2Proof.Machine.execReceiptTimeout n s
  | .sequencerLockstep => Sys2Proof.Machine.execSequencerLockstep s
  | .droneBlockRead ch raw owner => Sys2Proof.Machine.execDroneBlockRead ch raw owner s
  | .parityLapRow n imgs => Sys2Proof.Machine.execParityLapRow n imgs s
  | .auditSelect sl core => Sys2Proof.Machine.execAuditSelect sl core s
  | .auditorRun sl res => Sys2Proof.Machine.execAuditorRun sl res s
  | .refereeRun sl res => Sys2Proof.Machine.execRefereeRun sl res s
  | .auditTimeout sl => Sys2Proof.Machine.execAuditTimeout sl s
  | .occupancyWindow deep near => Sys2Proof.Machine.execOccupancyWindow deep near s
  | .powerWindow watts => Sys2Proof.Machine.execPowerWindow watts s
  | .thermalSample temp hot => Sys2Proof.Machine.execThermalSample temp hot s
  | .marginWindow mins room => Sys2Proof.Machine.execMarginWindow mins room s
  | .refreshIndication sl rate => Sys2Proof.Machine.execRefreshIndication sl rate s
  | .msixModeration n vec => Sys2Proof.Machine.execMsixModeration n vec s
  | .migrationCopyDone n => Sys2Proof.Machine.execMigrationCopyDone n s
  | .formatComplete n => Sys2Proof.Machine.execFormatComplete n s
  | .drainComplete n rows => Sys2Proof.Machine.execDrainComplete n rows s
  | .drainForced n => Sys2Proof.Machine.execDrainForced n s
  | .heartbeatSend rank => Sys2Proof.Machine.execHeartbeatSend rank s
  | .suspectTimeout rank => Sys2Proof.Machine.execSuspectTimeout rank s
  | .isolationTimeout => Sys2Proof.Machine.execIsolationTimeout s
  | .declareTimeout n member => Sys2Proof.Machine.execDeclareTimeout n member s
  | .membershipRepeat n => Sys2Proof.Machine.execMembershipRepeat n s
  | .epoch p room => Sys2Proof.Machine.execEpoch p room s
  | .confirmReq p room => Sys2Proof.Machine.execConfirmReq p room s
  | .confirmRsp p room => Sys2Proof.Machine.execConfirmRsp p room s
  | .gseal p room => Sys2Proof.Machine.execGseal p room s
  | .report p room => Sys2Proof.Machine.execReport p room s
  | .rejoinReq p room => Sys2Proof.Machine.execRejoinReq p room s
  | .transferDone p room => Sys2Proof.Machine.execTransferDone p room s
  | .evacReq p room => Sys2Proof.Machine.execEvacReq p room s
  | .membershipAck p room => Sys2Proof.Machine.execMembershipAck p room s
  | .transferCopySlot n mode subject target imgs => Sys2Proof.Machine.execTransferCopySlot n mode subject target imgs s
  | .backgroundRebuild n imgs => Sys2Proof.Machine.execBackgroundRebuild n imgs s
  | .absorbedRowWork k code bad imgs => Sys2Proof.Machine.execAbsorbedRowWork k code bad imgs s
  | .sweepRead n => Sys2Proof.Machine.execSweepRead n s
  | .pushDrain => Sys2Proof.Machine.execPushDrain s
  | .snapSealed n fails => Sys2Proof.Machine.execSnapSealed n fails s
  | .floorProgramDone ok eraseBad => Sys2Proof.Machine.execFloorProgramDone ok eraseBad s
  | .catalogTimer fails => Sys2Proof.Machine.execCatalogTimer fails s
  | .verifyDue id => Sys2Proof.Machine.execVerifyDue id s
  | .bandRefresh band fails => Sys2Proof.Machine.execBandRefresh band fails s
  | .floorMounted geometryOk => Sys2Proof.Machine.execFloorMounted geometryOk s
  | .reloadMove n move readable lost mark imgs => Sys2Proof.Machine.execReloadMove n move readable lost mark imgs s
  | .pfailAssert => Sys2Proof.Machine.execPfailAssert s
  | .pfailDeassert fails => Sys2Proof.Machine.execPfailDeassert fails s
  | .bellowsDeltas => Sys2Proof.Machine.execBellowsDeltas s
  | .bellowsJournal fails => Sys2Proof.Machine.execBellowsJournal fails s
  | .bellowsDone fails => Sys2Proof.Machine.execBellowsDone fails s
  | .powerOnReset rails => Sys2Proof.Machine.execPowerOnReset rails s
  | .powerOnResetEnd => Sys2Proof.Machine.execPowerOnResetEnd s
  | .chipReset cause strap => Sys2Proof.Machine.execChipReset cause strap s
  | .refLost => Sys2Proof.Machine.execRefLost s
  | .holdoverExpiry freqError strap => Sys2Proof.Machine.execHoldoverExpiry freqError strap s
  | .boot selfCheck => Sys2Proof.Machine.execBoot selfCheck s
  | .deepTierInitDone => Sys2Proof.Machine.execDeepTierInitDone s
  | .fwLoadingDone => Sys2Proof.Machine.execFwLoadingDone s
  | .fwSwitchStart => Sys2Proof.Machine.execFwSwitchStart s
  | .fwSwitchEnd ok => Sys2Proof.Machine.execFwSwitchEnd ok s
  | .pair p => Sys2Proof.Machine.execPair p s
  | .digest p => Sys2Proof.Machine.execDigest p s
  | .lines p => Sys2Proof.Machine.execLines p s
  | .line p => Sys2Proof.Machine.execLine p s
  | .twinWaitExpiry n => Sys2Proof.Machine.execTwinWaitExpiry n s
  | .partnerLost => Sys2Proof.Machine.execPartnerLost s
  | .pllLock => Sys2Proof.Machine.execPllLock s
  | .referenceReturn => Sys2Proof.Machine.execReferenceReturn s
  | .railsInRegulation => Sys2Proof.Machine.execRailsInRegulation s
  | .channelTrainingFailure ch => Sys2Proof.Machine.execChannelTrainingFailure ch s
  | .floorReadComplete readable => Sys2Proof.Machine.execFloorReadComplete readable s
  | .verifyRow n imgs => Sys2Proof.Machine.execVerifyRow n imgs s
  | .mramWriteDone => Sys2Proof.Machine.execMramWriteDone s
  | .fwVerifyDone => Sys2Proof.Machine.execFwVerifyDone s
  | .resetDeferralExpiry => Sys2Proof.Machine.execResetDeferralExpiry s
  | .locationTimeout => Sys2Proof.Machine.execLocationTimeout s
  | .frameTransmit => Sys2Proof.Machine.execFrameTransmit s

end Sys2Proof.Machine
end

