-- ==== Sys2Proof/WellFormed.lean ====
section
/-!
DEFINITION. Well-formed commands: operands of the sizes that the spec gives what they stand for. Bounded operands are bounded by
their types; what is checked here is the length of byte lists and the range of plain numbers. A meaning is total on ill-formed
operands too: bytes that are missing read as zero.
-/

namespace Sys2Proof

/-- A packet has a header of 32 bytes and a payload of up to 64 units of 64 bytes (R199). -/
def Packet.wf (p : Packet) : Bool :=
  decide (p.hdr.length = 32) && decide (p.payload.length % 64 = 0) && decide (p.payload.length ≤ 4096)

/-- Slots have 65,536 bytes (R18), and a group at most 16 members. -/
def imagesWf (l : RowImages) : Bool :=
  decide (l.length ≤ 16) && l.all (fun o => match o with
    | some b => decide (b.length = 65536)
    | none => true)

/-- Rows of the two coded areas, each with its images. -/
def rowsWf (l : RowSet) : Bool :=
  l.all (fun r => decide (r.area ≤ 1) && decide (r.row < 2 ^ 32) && imagesWf r.images)

/-- A command entry has 64 bytes (R368); one whose read failed has none. -/
def entryWf (b : HostRead) : Bool :=
  match b with
  | some l => decide (l.length = 64)
  | none => true

/-- A host buffer holds whole bytes of a 64-bit address range. -/
def bufferWf (b : HostRead) : Bool :=
  match b with
  | some l => decide (l.length < 2 ^ 40)
  | none => true

/-- A code block has 16 lines of 64 bytes (R327). -/
def blockWf (l : List Byte) : Bool := decide (l.length = 1024)

/-- A turn has at most 4,096 slots and a slice's section as many entries (R182). -/
def ActAt.wf (k : ActAt) : Bool := decide (k.entry < 4096)

/-- A Bugle that came as a packet. -/
def BugleIn.wf (b : BugleIn) : Bool :=
  match b with
  | .packet p => p.wf
  | .frame _ _ => true

/-- The results of a run: a 64-bit digest and FORMAT_EXT of 128 bytes. -/
def AuditRes.wf (r : AuditRes) : Bool := decide (r.digest < 2 ^ 64) && decide (r.ext.length = 128) && decide (r.trap < 256)

/-- Percentages of the channels of 16 slices, `c` of each. -/
def occupancyWf (c : Nat) (l : List (List Nat)) : Bool :=
  decide (l.length = 16) && l.all (fun q => decide (q.length = c) && q.all (fun v => decide (v ≤ 100)))

/-- Minima of three quantities of 32 links. -/
def marginsWf (l : List Nat) : Bool := decide (l.length = 96) && l.all (fun v => decide (v < 256))

/-- The operands of a command have the sizes of what they stand for. -/
def Instr.wf (i : Instr) : Bool :=
  match i with
  | .loadManifest _ b => bufferWf b
  | .loadPrograms _ b => bufferWf b
  | .loadWheel _ b => bufferWf b
  | .loadLeaves _ b => bufferWf b
  | .migrate _ => true
  | .verifyRows _ => true
  | .setOwnership _ b => bufferWf b
  | .routeLoad _ b => bufferWf b
  | .routeStage _ b => bufferWf b
  | .saveContext _ => true
  | .restoreContext _ b => bufferWf b
  | .stop _ _ => true
  | .fifeCollective _ b => bufferWf b
  | .declareFailed _ _ => true
  | .evacuate _ _ => true
  | .rejoin _ => true
  | .contract _ b => bufferWf b
  | .reshard _ b => bufferWf b
  | .snapshot _ => true
  | .floorFormat _ _ => true
  | .floorList _ => true
  | .reload _ b => bufferWf b
  | .clearRemap _ => true
  | .twinReport _ => true
  | .nvmStore _ => true
  | .nvmClear _ => true
  | .logRead _ => true
  | .fwDownload _ b => bufferWf b
  | .fwVerify _ => true
  | .fwActivate _ => true
  | .fwConfirm _ => true
  | .fwAbandon _ => true
  | .keyAdd _ b => bufferWf b
  | .keyRevoke _ => true
  | .commandFetch _ entry => entryWf entry
  | .start _ _ => true
  | .reset _ _ => true
  | .functionLevelReset _ => true
  | .enableBitSet _ _ => true
  | .enableBitClear _ _ => true
  | .vfEnableChange _ => true
  | .doorbell _ _ _ => true
  | .arm _ _ => true
  | .disarm _ _ => true
  | .linkDown => true
  | .launch _ => true
  | .setCounter _ => true
  | .lenLog2 _ _ => true
  | .adj _ _ => true
  | .retrain _ => true
  | .bugle _ _ => true
  | .gate _ _ => true
  | .ungate _ _ => true
  | .sliceGated _ => true
  | .sliceUngated _ => true
  | .regionReset _ _ => true
  | .sliceReset _ _ => true
  | .position _ _ => true
  | .readRaw _ _ raw _ => blockWf raw
  | .writeRaw _ _ raw _ => blockWf raw
  | .readDecoded _ _ raw _ => blockWf raw
  | .watchLogClear _ => true
  | .clearCounts _ _ => true
  | .lock _ _ _ => true
  | .pushArea _ _ => true
  | .remap _ _ _ _ => true
  | .intForce _ _ _ => true
  | .registerWrite _ _ _ _ => true
  | .readClear _ _ => true
  | .latchedRead _ _ => true
  | .landingPacket p _ => p.wf
  | .probe p _ => p.wf
  | .bankLineUpdate _ _ => true
  | .parkReplay _ => true
  | .fold p _ => p.wf
  | .nullDelta p _ => p.wf
  | .heldRowRelease _ => true
  | .receipt p _ => p.wf
  | .resend => true
  | .leafPut p _ => p.wf
  | .loadMem p _ _ rows _ => p.wf && rowsWf rows
  | .storeMem p _ => p.wf
  | .fetchAdd p _ => p.wf
  | .compareSwap p _ => p.wf
  | .loadData p _ => p.wf
  | .atomicData p _ => p.wf
  | .egressArbitration => true
  | .linkFlowControl _ _ => true
  | .laneCountChange _ _ => true
  | .shadowRetire _ => true
  | .fifeOpen p => p.wf
  | .fifeAck p => p.wf
  | .result p => p.wf
  | .recoveryDone _ rows => rowsWf rows
  | .buglePacket b => b.wf
  | .heartbeatPacket p => p.wf
  | .counts p => p.wf
  | .countsSend _ _ => true
  | .countsTimeout _ => true
  | .pathDown p => p.wf
  | .frame _ _ => true
  | .phase _ _ => true
  | .echoRsp _ _ => true
  | .beacon _ _ => true
  | .heartbeat _ _ => true
  | .powerWarn _ _ => true
  | .powerCancel _ _ => true
  | .testLoop _ _ => true
  | .testPattern _ _ => true
  | .testScan _ _ => true
  | .messageRepeat => true
  | .huntExpiry => true
  | .huntRetry => true
  | .launchTimeout => true
  | .counterCorrection => true
  | .readout k => k.wf
  | .gcommit k => k.wf
  | .gwrite k => k.wf
  | .gsend k => k.wf
  | .ghold k => k.wf
  | .prelude k => k.wf
  | .lread k _ imgs => k.wf && rowsWf imgs
  | .run k => k.wf
  | .srdAction k imgs => k.wf && rowsWf imgs
  | .reg k => k.wf
  | .send k => k.wf
  | .lwrite k => k.wf
  | .emit k => k.wf
  | .hold k imgs => k.wf && rowsWf imgs
  | .fill k => k.wf
  | .mgmt k => k.wf
  | .stallWatchdog _ => true
  | .gradientSeal _ => true
  | .passStart _ => true
  | .rerunStart _ => true
  | .intakeStart _ => true
  | .loadPassStart _ => true
  | .runWindowEnd _ => true
  | .runBudgetExpiry _ => true
  | .runRestart _ imgs => rowsWf imgs
  | .fabricTimeout _ _ => true
  | .nop _ _ _ => true
  | .vadd _ _ => true
  | .vsub _ _ => true
  | .vmul _ _ => true
  | .vfma _ _ => true
  | .vfnma _ _ => true
  | .vmin _ _ => true
  | .vmax _ _ => true
  | .vdiv _ _ => true
  | .vsqrt _ _ => true
  | .vabs _ _ => true
  | .vneg _ _ => true
  | .vsign _ _ => true
  | .vsel _ _ => true
  | .vcmp _ _ => true
  | .vcvt _ _ => true
  | .vsplat _ _ => true
  | .vpowi _ _ => true
  | .vrsum _ _ => true
  | .vmode _ _ => true
  | .vxor _ _ => true
  | .vgfmul _ _ => true
  | .vgfmac _ _ => true
  | .tzero _ _ => true
  | .tmma _ _ => true
  | .trd _ _ => true
  | .vld _ _ => true
  | .vst _ _ => true
  | .vldb _ _ => true
  | .sld _ _ => true
  | .sldw _ _ => true
  | .sst _ _ => true
  | .sli _ _ => true
  | .slih _ _ => true
  | .sadd _ _ => true
  | .saddi _ _ => true
  | .ssub _ _ => true
  | .smul _ _ => true
  | .sand _ _ => true
  | .sandi _ _ => true
  | .sor _ _ => true
  | .sxor _ _ => true
  | .sshl _ _ => true
  | .sshr _ _ => true
  | .sfaddD _ _ => true
  | .sfmulD _ _ => true
  | .sffmaD _ _ => true
  | .sfdivD _ _ => true
  | .sfsqrtD _ _ => true
  | .sfcvt _ _ => true
  | .sfmulS _ _ => true
  | .sfaddS _ _ => true
  | .br _ _ => true
  | .bz _ _ => true
  | .bnz _ _ => true
  | .bneg _ _ => true
  | .loop _ _ => true
  | .halt _ _ => true
  | .trap _ _ => true
  | .srd _ _ => true
  | .swait _ _ => true
  | .pmrd _ _ => true
  | .pmwx _ _ => true
  | .stime _ _ => true
  | .fld _ _ => true
  | .fst _ _ => true
  | .fadd _ _ => true
  | .fcas _ _ => true
  | .fwait _ _ => true
  | .intentRegistered _ _ row => decide (row < 2 ^ 32)
  | .deepReadComplete _ _ raw _ => blockWf raw
  | .deepWriteComplete _ => true
  | .nearReadComplete _ _ imgs => imagesWf imgs
  | .channelResume _ raw imgs => blockWf raw && imagesWf imgs
  | .ceWriteback _ _ _ => true
  | .hardFaultCheck _ _ raw => blockWf raw
  | .erasureReencode _ _ gen row imgs => decide (gen < 16) && decide (row < 2 ^ 32) && imagesWf imgs
  | .receiptTimeout _ => true
  | .sequencerLockstep => true
  | .droneBlockRead _ raw _ => blockWf raw
  | .parityLapRow _ imgs => imagesWf imgs
  | .auditSelect _ _ => true
  | .auditorRun _ res => res.wf
  | .refereeRun _ res => res.wf
  | .auditTimeout _ => true
  | .occupancyWindow deep near => occupancyWf 4 deep && occupancyWf 8 near
  | .powerWindow watts => decide (watts < 65536)
  | .thermalSample _ _ => true
  | .marginWindow mins _ => marginsWf mins
  | .refreshIndication _ _ => true
  | .msixModeration _ _ => true
  | .migrationCopyDone _ => true
  | .formatComplete _ => true
  | .drainComplete _ rows => rowsWf rows
  | .drainForced _ => true
  | .heartbeatSend _ => true
  | .suspectTimeout _ => true
  | .isolationTimeout => true
  | .declareTimeout _ _ => true
  | .membershipRepeat _ => true
  | .epoch p _ => p.wf
  | .confirmReq p _ => p.wf
  | .confirmRsp p _ => p.wf
  | .gseal p _ => p.wf
  | .report p _ => p.wf
  | .rejoinReq p _ => p.wf
  | .transferDone p _ => p.wf
  | .evacReq p _ => p.wf
  | .membershipAck p _ => p.wf
  | .transferCopySlot _ mode subject target imgs => decide (mode < 256) && decide (subject < 16) && decide (target < 2 ^ 32) && rowsWf imgs
  | .backgroundRebuild _ imgs => rowsWf imgs
  | .absorbedRowWork k code _ imgs => decide (k.row < 2 ^ 32) && decide (code < 32) && rowsWf imgs
  | .sweepRead _ => true
  | .pushDrain => true
  | .snapSealed _ _ => true
  | .floorProgramDone _ eraseBad => decide (eraseBad < 2 ^ 64)
  | .catalogTimer _ => true
  | .verifyDue id => decide (id < 2 ^ 32)
  | .bandRefresh band _ => decide (band < 2 ^ 32)
  | .floorMounted _ => true
  | .reloadMove _ move _ _ mark imgs => decide (move < 2 ^ 32) && decide (mark.format < 2 ^ 16) && imagesWf imgs
  | .pfailAssert => true
  | .pfailDeassert _ => true
  | .bellowsDeltas => true
  | .bellowsJournal _ => true
  | .bellowsDone _ => true
  | .powerOnReset _ => true
  | .powerOnResetEnd => true
  | .chipReset _ _ => true
  | .refLost => true
  | .holdoverExpiry _ _ => true
  | .boot _ => true
  | .deepTierInitDone => true
  | .fwLoadingDone => true
  | .fwSwitchStart => true
  | .fwSwitchEnd _ => true
  | .pair p => p.wf
  | .digest p => p.wf
  | .lines p => p.wf
  | .line p => p.wf
  | .twinWaitExpiry _ => true
  | .partnerLost => true
  | .pllLock => true
  | .referenceReturn => true
  | .railsInRegulation => true
  | .channelTrainingFailure _ => true
  | .floorReadComplete _ => true
  | .verifyRow _ imgs => imagesWf imgs
  | .mramWriteDone => true
  | .fwVerifyDone => true
  | .resetDeferralExpiry => true
  | .locationTimeout => true
  | .frameTransmit => true

end Sys2Proof
end

