-- ==== Sys2Proof/Safety.lean ====
section
/-!
DEFINITION. What statements about runs are made of: the canonical form of the memories, states between commands, and the commands
that act in power-on reset.
-/

namespace Sys2Proof.Machine

/-- The byte memories of the die are in canonical form: the deep tier, the near tier and the cores' data SRAMs. -/
def Memory.wf (s : State) : Bool :=
  memWf s.deep && memWf s.near && s.cores.all (fun c => memWf c.2.sram)

/-- Between commands nothing is left to carry out: the agenda is empty, no LOAD waits, the firmware neither switches nor is being
activated, and no function keeps a shadow route generation. A command that leads to such a state ends with its own effect. -/
structure Quiet (s : State) : Prop where
  agenda : s.agenda = []
  loadWaits : s.loadWaits = []
  switching : switching s = false
  cut : s.nvm.cut = false
  activation : bgRunning s 0 0x35 = false
  shadow : ∀ e ∈ s.fns, e.2.routeShadow = none

/-- The commands that act in power-on reset: its own events and the chip reset that ends it (R407). -/
def actsInReset (c : Instr) : Bool :=
  match c with
  | .powerOnReset _ => true
  | .powerOnResetEnd => true
  | .chipReset _ _ => true
  | .pllLock => true
  | .railsInRegulation => true
  | _ => false

/-- A command that a run may carry: its operands have the sizes of what they stand for. -/
def wellFormedQueue (s : State) : Bool := s.pending.all Instr.wf

end Sys2Proof.Machine
end

