-- ==== Sys2Proof/Certificates/Slice0/Obligations.lean ====
section
/-!
DEFINITION. The statements for the provers. Each is a Prop named Obligations.<Name>; the definitions before them say in one place
what several of them speak of.
-/

namespace Sys2Proof.Claims

open Sys2Proof.Machine

/-! ### What a command answers -/

/-- The command answers a next state: the state `u` that its own effect leads to, with what follows from it carried out (`conclude`),
and `P` says what `u` holds. -/
def Does (c : Instr) (s : State) (P : State → Prop) : Prop := ∃ u, exec c s = .next (conclude s u) ∧ P u

/-- The command answers a next state of which `P` says what it holds. -/
def Gives (c : Instr) (s : State) (P : State → Prop) : Prop := ∃ t, exec c s = .next t ∧ P t

/-- The command answers the state as it is. -/
def Ignores (c : Instr) (s : State) : Prop := exec c s = .next s


/-! ### Update cores (R117 to R133) -/

/-- Global number of the core at which an instruction issues. -/
abbrev ix (k : Issue) : Nat := coreIx k.slice k.core

/-- The core's run is about to issue `word` in port B of its bundle, and no checking error meets it. -/
structure IssuesB (s : State) (k : Issue) (word : Nat) (r : CoreRun) : Prop where
  quiet : Quiet s
  up : alive s = true
  clean : k.err = .none
  ready : readyRun s (ix k) true word = some r

/-- The same of port A; the bundle issues within the run's budget. -/
structure IssuesA (s : State) (k : Issue) (word : Nat) (r : CoreRun) : Prop where
  quiet : Quiet s
  up : alive s = true
  clean : k.err = .none
  ready : readyRun s (ix k) false word = some r
  budget : issueCycle r (bundleAt s r) < r.budget

/-- Bundle `b` lies in the run's program. -/
def Inside (r : CoreRun) (b : Nat) : Prop := r.first ≤ b ∧ b < r.first + r.length

/-- Nothing of the die but core `i` changed. -/
def CoreOnly (s t : State) (i : Nat) : Prop := t = { s with cores := t.cores } ∧ ∀ j, j ≠ i → coreSt t j = coreSt s j

/-- The run goes on at bundle `b` under the loops `ls`; the port A instruction of the bundle is done with. -/
def GoesOn (t : State) (i b : Nat) (ls : List LoopSt) : Prop :=
  ∃ r', (coreSt t i).run = some r' ∧ r'.pc = b ∧ r'.loops = ls ∧ r'.aDone = false ∧ r'.aWrite = .none

/-- The run goes on at the bundle after its present one, or at the start of the loop that ends here (R129). -/
def GoesNext (t : State) (i : Nat) (r : CoreRun) : Prop := GoesOn t i (loopNext r.loops r.pc).1 (loopNext r.loops r.pc).2

/-- The vector, mask and tile registers and the lane format are as before, if the bundle's port A instruction writes none. -/
def KeepsVector (s t : State) (i : Nat) (r : CoreRun) : Prop :=
  r.aWrite = .none → (coreSt t i).v = (coreSt s i).v ∧ (coreSt t i).lm = (coreSt s i).lm ∧ (coreSt t i).ta = (coreSt s i).ta ∧
    (coreSt t i).mode = (coreSt s i).mode

/-- Scalar register `d` holds `v`, s0 zero, and every other scalar register is as before. -/
def ScalarIs (s t : State) (i : Nat) (d : Fin 32) (v : Nat) : Prop :=
  sReg (coreSt t i) d = (if d = 0 then 0 else v % 2 ^ 64) ∧ ∀ q : Nat, q ≠ d → sReg (coreSt t i) q = sReg (coreSt s i) q

/-- An instruction of port B that writes scalar register `d` alone: its result, its frame, where the run goes on, and the lanes'
stochastic sources after it, `ls`. -/
def ScalarTo (s t : State) (i : Nat) (r : CoreRun) (ls : List Src) (d : Fin 32) (v : Nat) : Prop :=
  CoreOnly s t i ∧ ScalarIs s t i d v ∧ (coreSt t i).sram = (coreSt s i).sram ∧ (coreSt t i).lanes = ls ∧ KeepsVector s t i r ∧
    GoesNext t i r

/-- The lanes' sources after a scalar instruction with the rounding bit `rnd`: under it lane 0 has drawn once (R168). -/
def drawnOne (c : CoreSt) (rnd : Bool) : List Src := if rnd then (drawLanes 1 c.lanes).2 else c.lanes

/-- Lane `n` of a value of lanes of `w` bits. -/
def laneAt (w v n : Nat) : Nat := v / 2 ^ (w * n) % 2 ^ w

/-- How lane `n` rounds: to nearest even, or by the draw of its stochastic source (R130, R162). -/
def roundingOf (c : CoreSt) (rnd : Bool) (n : Nat) : Rnd :=
  if rnd then srOf (draw (c.lanes.getD n ⟨0, 0⟩)).1 else .rne

/-- Each of the 128 lanes has its stochastic source (R120); a prelude run rounds nothing stochastically (R126). -/
def MayRound (c : CoreSt) (r : CoreRun) (rnd : Bool) : Prop := c.lanes.length = 128 ∧ (r.prelude = true → rnd = false)

/-- The lane format is one of Table 6.1's lane formats. -/
def LaneMode (c : CoreSt) : Prop := fmtLane c.mode = true

/-- What port A leaves until the bundle ends: `w` as the write to come, the lanes' sources `ls`, and nothing else changed. -/
def Holds (s t : State) (i : Nat) (r : CoreRun) (w : AWrite) (ls : List Src) : Prop :=
  CoreOnly s t i ∧ coreSt t i = { coreSt s i with lanes := ls, run := some { r with aDone := true, aWrite := w } }

/-- The lanes' sources after an instruction with the rounding bit `rnd`: under it each lane of the lane count has drawn once. -/
def drawnIf (c : CoreSt) (rnd : Bool) : List Src := if rnd then (drawLanes (laneCount c) c.lanes).2 else c.lanes

/-- The write to come is to vector register `d`; lane `n` takes `f n` where the mask register has its bit set, else keeps its value. -/
def LanesTo (s t : State) (i : Nat) (r : CoreRun) (d : Fin 32) (mask : Fin 8) (rnd : Bool) (f : Nat → Nat) : Prop :=
  ∃ v, Holds s t i r (.vec d v) (drawnIf (coreSt s i) rnd) ∧ ∀ n, n < laneCount (coreSt s i) →
    laneAt (laneBits (coreSt s i)) v n =
      if bit (lmReg (coreSt s i) mask) n then f n % 2 ^ laneBits (coreSt s i)
      else laneAt (laneBits (coreSt s i)) (vReg (coreSt s i) d) n

/-- Lane `n` of vector register `r`. -/
def laneN (c : CoreSt) (r : Fin 32) (n : Nat) : Nat := laneAt (laneBits c) (vReg c r) n

end Sys2Proof.Claims

open Sys2Proof Sys2Proof.Machine Sys2Proof.Claims

/-! ### Scalar instructions -/

/-- The INT64 instructions of two registers, by constructor, opcode and result (Table 5.4); a shift by less than 64. -/
def Sys2Proof.Claims.intRows : List ((Issue → VForm → Instr) × Nat × (Nat → Nat → Nat)) :=
  [(.sadd, 0x92, fun a b => a + b), (.ssub, 0x94, fun a b => a + 2 ^ 64 - b), (.smul, 0x95, fun a b => a * b),
   (.sand, 0x96, fun a b => a &&& b), (.sor, 0x98, fun a b => a ||| b), (.sxor, 0x99, fun a b => a ^^^ b),
   (.sshl, 0x9A, fun a b => a * 2 ^ b), (.sshr, 0x9B, fun a b => a / 2 ^ b)]

/-- Table 5.4: SADD, SSUB, SMUL, SAND, SOR, SXOR, and SSHL and SSHR by less than 64, give d the INT64 result modulo 2^64 (s0 stays
zero, R117) and change nothing else. SLI gives d its zero-extended imm19, SLIH its imm16 shifted left by 16, SADDI the sum with the
signed imm14, SANDI the and with it. -/
def Obligations.ScalarIntegerResults : Prop :=
  (∀ q ∈ intRows, ∀ (s : State) (k : Issue) (f : VForm) (r : CoreRun), IssuesB s k (bWordV f q.2.1) r →
    Inside r (loopNext r.loops r.pc).1 → (q.2.1 = 0x9A ∨ q.2.1 = 0x9B → sReg (coreSt s (ix k)) f.b < 64) →
    Gives (q.1 k f) s (fun t => ScalarTo s t (ix k) r (coreSt s (ix k)).lanes f.d (q.2.2 (sReg (coreSt s (ix k)) f.a) (sReg (coreSt s (ix k)) f.b)))) ∧
  ((∀ (s : State) (k : Issue) (f : LForm) (r : CoreRun), Inside r (loopNext r.loops r.pc).1 →
    (IssuesB s k (bWordL f 0x90) r → Gives (.sli k f) s (fun t => ScalarTo s t (ix k) r (coreSt s (ix k)).lanes f.d f.imm.toNat)) ∧
    (IssuesB s k (bWordL f 0x91) r →
      Gives (.slih k f) s (fun t => ScalarTo s t (ix k) r (coreSt s (ix k)).lanes f.d (f.imm.toNat % 2 ^ 16 * 2 ^ 16)))) ∧
  (∀ (s : State) (k : Issue) (f : IForm) (r : CoreRun), Inside r (loopNext r.loops r.pc).1 →
    (IssuesB s k (bWordI f 0x93) r →
      Gives (.saddi k f) s (fun t => ScalarTo s t (ix k) r (coreSt s (ix k)).lanes f.d (sReg (coreSt s (ix k)) f.a + (f.imm.signExtend 64).toNat))) ∧
    (IssuesB s k (bWordI f 0x97) r →
      Gives (.sandi k f) s (fun t => ScalarTo s t (ix k) r (coreSt s (ix k)).lanes f.d (sReg (coreSt s (ix k)) f.a &&& (f.imm.signExtend 64).toNat)))))

/-- The FP64 instructions, by constructor, opcode and exact value. -/
def Sys2Proof.Claims.fp64Rows : List ((Issue → VForm → Instr) × Nat × (Machine.Num → Machine.Num → Machine.Num → Machine.Num)) :=
  [(.sfaddD, 0xA0, fun a b _ => numAdd a b), (.sfmulD, 0xA1, fun a b _ => numMul a b),
   (.sffmaD, 0xA2, fun a b c => numAdd (numMul a b) c), (.sfdivD, 0xA3, fun a b _ => numDiv a b),
   (.sfsqrtD, 0xA4, fun a _ _ => numSqrt a)]

/-- The low 32 bits of scalar register `d` hold `v` (its bits 63:32 are free, Config.scalarHigh); the frame is that of `ScalarTo`. -/
def Sys2Proof.Claims.LowWordTo (s t : State) (i : Nat) (r : CoreRun) (ls : List Src) (d : Fin 32) (v : Nat) : Prop :=
  CoreOnly s t i ∧ (d ≠ 0 → sReg (coreSt t i) d % 2 ^ 32 = v % 2 ^ 32) ∧ sReg (coreSt t i) 0 = 0 ∧
    (∀ q : Nat, q ≠ d → sReg (coreSt t i) q = sReg (coreSt s i) q) ∧ (coreSt t i).sram = (coreSt s i).sram ∧
    (coreSt t i).lanes = ls ∧ KeepsVector s t i r ∧ GoesNext t i r

/-- Table 5.4, R130: SFADD_D, SFMUL_D, SFFMA_D, SFDIV_D and SFSQRT_D round the exact FP64 value once: to nearest even, or with rnd 1 by
one draw of lane 0. SFMUL_S and SFADD_S round the exact value of the low words once to FP32; SFCVT converts FP32 to FP64 exactly, or
FP64 to FP32 with c bit 0 set. Bits 63:32 of an FP32 result are a free value of the model (log entry 19). -/
def Obligations.ScalarFloatResults : Prop :=
  (∀ q ∈ fp64Rows, ∀ (s : State) (k : Issue) (f : VForm) (r : CoreRun), IssuesB s k (bWordV f q.2.1) r →
    Inside r (loopNext r.loops r.pc).1 → MayRound (coreSt s (ix k)) r f.rnd →
    Gives (q.1 k f) s (fun t => ScalarTo s t (ix k) r (drawnOne (coreSt s (ix k)) f.rnd) f.d
      (convert 14 (roundingOf (coreSt s (ix k)) f.rnd 0)
        (q.2.2 (valOf 14 (sReg (coreSt s (ix k)) f.a)) (valOf 14 (sReg (coreSt s (ix k)) f.b))
          (valOf 14 (sReg (coreSt s (ix k)) f.c)))))) ∧
  (∀ (s : State) (k : Issue) (f : VForm) (r : CoreRun), Inside r (loopNext r.loops r.pc).1 → MayRound (coreSt s (ix k)) r f.rnd →
    (IssuesB s k (bWordV f 0xA6) r → Gives (.sfmulS k f) s (fun t => LowWordTo s t (ix k) r (drawnOne (coreSt s (ix k)) f.rnd) f.d
      (convert 0 (roundingOf (coreSt s (ix k)) f.rnd 0)
        (numMul (valOf 0 (sReg (coreSt s (ix k)) f.a % 2 ^ 32)) (valOf 0 (sReg (coreSt s (ix k)) f.b % 2 ^ 32)))))) ∧
    (IssuesB s k (bWordV f 0xA7) r → Gives (.sfaddS k f) s (fun t => LowWordTo s t (ix k) r (drawnOne (coreSt s (ix k)) f.rnd) f.d
      (convert 0 (roundingOf (coreSt s (ix k)) f.rnd 0)
        (numAdd (valOf 0 (sReg (coreSt s (ix k)) f.a % 2 ^ 32)) (valOf 0 (sReg (coreSt s (ix k)) f.b % 2 ^ 32)))))) ∧
    (IssuesB s k (bWordV f 0xA5) r → bit f.c 0 = false → Gives (.sfcvt k f) s (fun t =>
      ScalarTo s t (ix k) r (drawnOne (coreSt s (ix k)) f.rnd) f.d
        (convert 14 .rne (valOf 0 (sReg (coreSt s (ix k)) f.a % 2 ^ 32))))) ∧
    (IssuesB s k (bWordV f 0xA5) r → bit f.c 0 = true → Gives (.sfcvt k f) s (fun t =>
      LowWordTo s t (ix k) r (drawnOne (coreSt s (ix k)) f.rnd) f.d
        (convert 0 (roundingOf (coreSt s (ix k)) f.rnd 0) (valOf 14 (sReg (coreSt s (ix k)) f.a))))))

/-! ### Loads and stores -/

/-- R118, Table 5.4: SLD and SLDW read 8 and 4 bytes, zero-extended, at s(a) + imm14 where Table 5.1 gives the right; SST writes s(d) there
and leaves every other byte of the data SRAM as it was. -/
def Obligations.ScalarLoadsAndStores : Prop :=
  ∀ (s : State) (k : Issue) (f : IForm) (r : CoreRun), Inside r (loopNext r.loops r.pc).1 →
    (IssuesB s k (bWordI f 0x88) r → rangeRight (sramReadable r.prelude) (immAddr (coreSt s (ix k)) f) 8 = true →
      Gives (.sld k f) s (fun t => ScalarTo s t (ix k) r (coreSt s (ix k)).lanes f.d (leVal (memReadN (coreSt s (ix k)).sram (immAddr (coreSt s (ix k)) f) 8)))) ∧
    (IssuesB s k (bWordI f 0x89) r → rangeRight (sramReadable r.prelude) (immAddr (coreSt s (ix k)) f) 4 = true →
      Gives (.sldw k f) s (fun t => ScalarTo s t (ix k) r (coreSt s (ix k)).lanes f.d (leVal (memReadN (coreSt s (ix k)).sram (immAddr (coreSt s (ix k)) f) 4)))) ∧
    (IssuesB s k (bWordI f 0x8A) r → rangeRight (sramWritable r.prelude) (immAddr (coreSt s (ix k)) f) 8 = true →
      Gives (.sst k f) s (fun t => CoreOnly s t (ix k) ∧ GoesNext t (ix k) r ∧ KeepsVector s t (ix k) r ∧
        (∀ q, sReg (coreSt t (ix k)) q = sReg (coreSt s (ix k)) q) ∧
        ∀ a, memRead (coreSt t (ix k)).sram a =
          if immAddr (coreSt s (ix k)) f ≤ a ∧ a < immAddr (coreSt s (ix k)) f + 8
          then BitVec.ofNat 8 (sReg (coreSt s (ix k)) f.d / 256 ^ (a - immAddr (coreSt s (ix k)) f))
          else memRead (coreSt s (ix k)).sram a))

/-- The vector register that a port B load writes, beside a port A instruction that does not write it: lane `n` takes `f n` where the
mask bit is set; a register that neither port writes is as before. -/
def Sys2Proof.Claims.LoadsLanes (s t : State) (i : Nat) (r : CoreRun) (d : Fin 32) (mask : Nat) (f : Nat → Nat) : Prop :=
  (∀ n, n < laneCount (coreSt s i) → laneAt (laneBits (coreSt s i)) (vReg (coreSt t i) d) n =
    if bit (lmReg (coreSt s i) mask) n then f n % 2 ^ laneBits (coreSt s i) else laneN (coreSt s i) d n) ∧
  ∀ q : Nat, q ≠ d → (∀ v, r.aWrite ≠ .vec q v) → vReg (coreSt t i) q = vReg (coreSt s i) q

/-- An address register after a transfer of `n` bytes with the bit inc: s0 stays zero, every other register is as before. -/
def Sys2Proof.Claims.Steps (s t : State) (i : Nat) (a : Fin 32) (inc : Bool) (n : Nat) : Prop :=
  ∀ q : Nat, sReg (coreSt t i) q = if inc = true ∧ q = a ∧ a ≠ 0 then (sReg (coreSt s i) a + n) % 2 ^ 64 else sReg (coreSt s i) q

/-- R122, R129: VLD converts each element of the transfer to the lane format, a lane at or above the element bound of a plane of frame A
loading zero, and with inc adds the transfer size to its address register; VLDB puts the 4 bytes at s(a) + imm14 in all lanes. -/
def Obligations.VectorLoads : Prop :=
  (∀ (s : State) (k : Issue) (f : MForm) (r : CoreRun) (size : Nat), Inside r (loopNext r.loops r.pc).1 →
    IssuesB s k (bWordM f 0x80) r → (∀ v, r.aWrite ≠ .vec f.v v) → LaneMode (coreSt s (ix k)) →
    MayRound (coreSt s (ix k)) r f.rnd → size = transferBytes (coreSt s (ix k)) f.fmt f.bs →
    sReg (coreSt s (ix k)) f.s % 8 = 0 → rangeRight (sramReadable r.prelude) (sReg (coreSt s (ix k)) f.s) size = true →
    recordStart r f.fmt f.bs (sReg (coreSt s (ix k)) f.s) = true →
    Gives (.vld k f) s (fun t => CoreOnly s t (ix k) ∧ GoesNext t (ix k) r ∧ (coreSt t (ix k)).sram = (coreSt s (ix k)).sram ∧
      (coreSt t (ix k)).lanes = drawnIf (coreSt s (ix k)) f.rnd ∧ Steps s t (ix k) f.s f.inc size ∧
      LoadsLanes s t (ix k) r f.v f.mask (fun n =>
        if sReg (coreSt s (ix k)) f.s < 0x10000 ∧ guardOk r f.fmt f.bs (sReg (coreSt s (ix k)) f.s) n = false then 0
        else convert (coreSt s (ix k)).mode (roundingOf (coreSt s (ix k)) f.rnd n)
          ((elemsOf f.fmt f.bs (laneCount (coreSt s (ix k))) (vldBytes (coreSt s (ix k)) r (issueCycle r (bundleAt s r))
            (sReg (coreSt s (ix k)) f.s) size)).getD n .nan)))) ∧
  (∀ (s : State) (k : Issue) (f : IForm) (r : CoreRun), Inside r (loopNext r.loops r.pc).1 → IssuesB s k (bWordI f 0x82) r →
    (∀ v, r.aWrite ≠ .vec f.d v) → LaneMode (coreSt s (ix k)) → sReg (coreSt s (ix k)) f.a % 8 = 0 →
    rangeRight (sramReadable r.prelude) (immAddr (coreSt s (ix k)) f) 4 = true →
    Gives (.vldb k f) s (fun t => CoreOnly s t (ix k) ∧ GoesNext t (ix k) r ∧ (coreSt t (ix k)).sram = (coreSt s (ix k)).sram ∧
      (∀ q, sReg (coreSt t (ix k)) q = sReg (coreSt s (ix k)) q) ∧
      LoadsLanes s t (ix k) r f.d 0 (fun _ => leVal (memReadN (coreSt s (ix k)).sram (immAddr (coreSt s (ix k)) f) 4))))

/-- R118, R122, R129: VST writes its transfer's bytes (stored lanes converted, the others as they were) at its address and no other byte of
the data SRAM, and with inc adds the transfer size to its address register. -/
def Obligations.VectorStores : Prop :=
  ∀ (s : State) (k : Issue) (f : MForm) (r : CoreRun) (a size : Nat), Inside r (loopNext r.loops r.pc).1 →
    IssuesB s k (bWordM f 0x81) r → LaneMode (coreSt s (ix k)) → MayRound (coreSt s (ix k)) r f.rnd →
    a = sReg (coreSt s (ix k)) f.s → size = transferBytes (coreSt s (ix k)) f.fmt f.bs →
    a % 8 = 0 → rangeRight (sramWritable r.prelude) a size = true →
    (0x20000 ≤ a ∨ (a + size ≤ 0x10000 + planesEnd r ∧ recordStart r f.fmt f.bs (a - 0x10000) = true)) →
    Gives (.vst k f) s (fun t => CoreOnly s t (ix k) ∧ GoesNext t (ix k) r ∧ KeepsVector s t (ix k) r ∧
      Steps s t (ix k) f.s f.inc size ∧
      memReadN (coreSt t (ix k)).sram a size = vstBytes (coreSt s (ix k)) f (storedLanes (coreSt s (ix k)) r f a)
        ((List.range (laneCount (coreSt s (ix k)))).map (roundingOf (coreSt s (ix k)) f.rnd))
        (memReadN (coreSt s (ix k)).sram a size) ∧
      ∀ x, x < a ∨ a + size ≤ x → memRead (coreSt t (ix k)).sram x = memRead (coreSt s (ix k)).sram x)

/-! ### Control -/

/-- The branches, by constructor, opcode and condition. -/
def Sys2Proof.Claims.branchRows : List ((Issue → JForm → Instr) × Nat × (Nat → Bool)) :=
  [(.br, 0xB0, fun _ => true), (.bz, 0xB1, fun v => decide (v = 0)), (.bnz, 0xB2, fun v => decide (v ≠ 0)),
   (.bneg, 0xB3, fun v => bit v 63)]

/-- R129, Table 5.4: BR, BZ, BNZ and BNEG go to their target when the condition on s holds, at a cost of 3 cycles, and else to the next
bundle at the cost of any bundle; the port A instruction of the bundle takes effect either way. -/
def Obligations.BranchesGoWhereTheySay : Prop :=
  ∀ q ∈ branchRows, ∀ (s : State) (k : Issue) (f : JForm) (r : CoreRun), IssuesB s k (bWordJ f q.2.1) r →
    (q.2.2 (sReg (coreSt s (ix k)) f.s) = true → Inside r (branchTo r f) →
      Gives (q.1 k f) s (fun t => CoreOnly s t (ix k) ∧ GoesOn t (ix k) (branchTo r f) r.loops ∧ KeepsVector s t (ix k) r ∧
        (∀ r', (coreSt t (ix k)).run = some r' → r'.cycle = issueCycle r (bundleAt s r) + 3) ∧
        (∀ d v, r.aWrite = .vec d v → vReg (coreSt t (ix k)) d = (BitVec.ofNat 1024 v).toNat))) ∧
    (q.2.2 (sReg (coreSt s (ix k)) f.s) = false → Inside r (loopNext r.loops r.pc).1 →
      Gives (q.1 k f) s (fun t => CoreOnly s t (ix k) ∧ GoesNext t (ix k) r ∧ KeepsVector s t (ix k) r ∧
        (∀ r', (coreSt t (ix k)).run = some r' → r'.cycle = issueCycle r (bundleAt s r) + 1) ∧
        (∀ d v, r.aWrite = .vec d v → vReg (coreSt t (ix k)) d = (BitVec.ofNat 1024 v).toNat)))

/-- R11, R129: LOOP repeats the next target14 bundles s times; a count of zero skips them. R123, R126: HALT ends the run; a leaf run's
halt changes nothing but its core, and a prelude's keeps the step area for its class on the slice. NOP in port B only ends the
bundle. -/
def Obligations.LoopsAndHalts : Prop :=
  (∀ (s : State) (k : Issue) (f : JForm) (r : CoreRun), IssuesB s k (bWordJ f 0xB4) r →
    (sReg (coreSt s (ix k)) f.s = 0 ∨ f.target = 0 → Inside r (loopNext r.loops (r.pc + f.target.toNat)).1 →
      Gives (.loop k f) s (fun t => CoreOnly s t (ix k) ∧ KeepsVector s t (ix k) r ∧
        GoesOn t (ix k) (loopNext r.loops (r.pc + f.target.toNat)).1 (loopNext r.loops (r.pc + f.target.toNat)).2)) ∧
    (∀ c, sReg (coreSt s (ix k)) f.s = c + 1 → f.target ≠ 0 → Inside r (r.pc + 1) →
      Gives (.loop k f) s (fun t => CoreOnly s t (ix k) ∧ KeepsVector s t (ix k) r ∧
        GoesOn t (ix k) (r.pc + 1) (⟨r.pc + 1, r.pc + f.target.toNat, c⟩ :: r.loops)))) ∧
  ((∀ (s : State) (k : Issue) (f : JForm) (r : CoreRun), IssuesB s k (bWordJ f 0xB5) r →
    Gives (.halt k f) s (fun t => (∃ r', (coreSt t (ix k)).run = some r' ∧ r'.halted = true) ∧
      (coreSt t (ix k)).sram = (coreSt s (ix k)).sram ∧ (coreSt t (ix k)).s = (coreSt s (ix k)).s ∧
      (r.prelude = false → CoreOnly s t (ix k)) ∧
      (r.prelude = true → t = { s with cores := t.cores, fns := t.fns } ∧
        tabFind (fnSt t r.fn).stepAreas (256 * k.slice + r.cls) = some (memReadN (coreSt s (ix k)).sram 0x3E400 1024) ∧
        ∀ n, n ≠ r.fn → fnSt t n = fnSt s n))) ∧
  (∀ (s : State) (k : Issue) (w : BitVec 24) (r : CoreRun), IssuesB s k w.toNat r → Inside r (loopNext r.loops r.pc).1 →
    Gives (.nop k true w) s (fun t => CoreOnly s t (ix k) ∧ KeepsVector s t (ix k) r ∧ GoesNext t (ix k) r ∧
      (coreSt t (ix k)).s = (coreSt s (ix k)).s ∧ (coreSt t (ix k)).sram = (coreSt s (ix k)).sram)))

/-! ### Vector instructions (port A) -/

/-- The lanewise arithmetic, by constructor, opcode, exact value and integer value of a, b and c (Table 5.4, R152, R157). -/
def Sys2Proof.Claims.vectorRows :
    List ((Issue → VForm → Instr) × Nat × (Machine.Num → Machine.Num → Machine.Num → Machine.Num) × (Int → Int → Int → Int)) :=
  [(.vadd, 0x01, fun a b _ => numAdd a b, fun a b _ => a + b),
   (.vsub, 0x02, fun a b _ => numAdd a (numNeg b), fun a b _ => a - b),
   (.vmul, 0x03, fun a b _ => numMul a b, fun a b _ => a * b),
   (.vfma, 0x04, fun a b c => numAdd (numMul a b) c, fun a b c => a * b + c),
   (.vfnma, 0x05, fun a b c => numAdd (numNeg (numMul a b)) c, fun a b c => c - a * b),
   (.vmin, 0x06, fun a b _ => numMin a b, fun a b _ => min a b),
   (.vmax, 0x07, fun a b _ => numMax a b, fun a b _ => max a b),
   (.vdiv, 0x08, fun a b _ => numDiv a b, fun a b _ => if b = 0 then 0 else Int.tdiv a b),
   (.vabs, 0x0A, fun a _ _ => numAbs a, fun a _ _ => (a.natAbs : Int)),
   (.vneg, 0x0B, fun a _ _ => numNeg a, fun a _ _ => -a),
   (.vsign, 0x0C, fun a _ _ => numSign a, fun a _ _ => Int.sign a)]

/-- R130, R152: VADD, VSUB, VMUL, VFMA, VFNMA, VMIN, VMAX, VDIV, VABS, VNEG and VSIGN give every enabled lane of d the exact value rounded
once to the lane format, or the integer wrapped to the lane width; masked lanes keep theirs (a log entry's choice). -/
def Obligations.VectorArithmeticLanes : Prop :=
  ∀ q ∈ vectorRows, ∀ (s : State) (k : Issue) (f : VForm) (r : CoreRun), IssuesA s k (vWord f q.2.1) r →
    LaneMode (coreSt s (ix k)) → MayRound (coreSt s (ix k)) r f.rnd →
    Gives (q.1 k f) s (fun t => LanesTo s t (ix k) r f.d f.mask f.rnd (fun n =>
      if intWidth (coreSt s (ix k)).mode = 0 then
        convert (coreSt s (ix k)).mode (roundingOf (coreSt s (ix k)) f.rnd n)
          (q.2.2.1 (valOf (coreSt s (ix k)).mode (laneN (coreSt s (ix k)) f.a n)) (valOf (coreSt s (ix k)).mode (laneN (coreSt s (ix k)) f.b n))
            (valOf (coreSt s (ix k)).mode (laneN (coreSt s (ix k)) f.c n)))
      else unsigned (laneBits (coreSt s (ix k)))
        (q.2.2.2 (signed (laneBits (coreSt s (ix k))) (laneN (coreSt s (ix k)) f.a n))
          (signed (laneBits (coreSt s (ix k))) (laneN (coreSt s (ix k)) f.b n))
          (signed (laneBits (coreSt s (ix k))) (laneN (coreSt s (ix k)) f.c n)))))

/-- R130, R152, R156: VSQRT gives the correctly rounded root (the floor of an integer's, zero of a negative one's), VCVT the value rounded to
the format of c and held in the lane format, VPOWI the power by R130's procedure, VRSUM the pairwise sum in lane 0 and zeros elsewhere. -/
def Obligations.VectorFunctionLanes : Prop :=
  ∀ (s : State) (k : Issue) (f : VForm) (r : CoreRun), LaneMode (coreSt s (ix k)) → MayRound (coreSt s (ix k)) r f.rnd →
    (IssuesA s k (vWord f 0x09) r → Gives (.vsqrt k f) s (fun t => LanesTo s t (ix k) r f.d f.mask f.rnd (fun n =>
      if intWidth (coreSt s (ix k)).mode = 0 then
        convert (coreSt s (ix k)).mode (roundingOf (coreSt s (ix k)) f.rnd n) (numSqrt (valOf (coreSt s (ix k)).mode (laneN (coreSt s (ix k)) f.a n)))
      else if signed (laneBits (coreSt s (ix k))) (laneN (coreSt s (ix k)) f.a n) < 0 then 0
      else Nat.sqrt (signed (laneBits (coreSt s (ix k))) (laneN (coreSt s (ix k)) f.a n)).toNat))) ∧
    (IssuesA s k (vWord f 0x0F) r → Gives (.vcvt k f) s (fun t => LanesTo s t (ix k) r f.d f.mask f.rnd (fun n =>
      convert (coreSt s (ix k)).mode .rne (valOf (f.c % 16) (convert (f.c % 16) (roundingOf (coreSt s (ix k)) f.rnd n)
        (valOf (coreSt s (ix k)).mode (laneN (coreSt s (ix k)) f.a n))))))) ∧
    (IssuesA s k (vWord f 0x11) r → Gives (.vpowi k f) s (fun t => LanesTo s t (ix k) r f.d f.mask f.rnd (fun n =>
      if intWidth (coreSt s (ix k)).mode = 0 then
        convert (coreSt s (ix k)).mode .rne (valOf 0 (powi32 64 0x3F800000
          (convert 0 .rne (valOf (coreSt s (ix k)).mode (laneN (coreSt s (ix k)) f.a n))) (sReg (coreSt s (ix k)) f.b)))
      else laneN (coreSt s (ix k)) f.a n ^ sReg (coreSt s (ix k)) f.b))) ∧
    (IssuesA s k (vWord f 0x12) r → Gives (.vrsum k f) s (fun t => LanesTo s t (ix k) r f.d f.mask f.rnd (fun n =>
      if n = 0 then sumTree (coreSt s (ix k)) ((List.range (laneCount (coreSt s (ix k)))).map (roundingOf (coreSt s (ix k)) f.rnd))
        (Nat.log2 (laneCount (coreSt s (ix k)))) 0 (lanesOf (coreSt s (ix k)) f.a) else 0)))

/-- Table 5.4, R150: VSEL picks a or b by the mask, VSPLAT puts the low lane-width bits of a scalar register in every lane (a NaN made
canonical), VXOR is bitwise, and VCMP writes lm(c bits 2:0) with the bits beyond the lane count cleared. -/
def Obligations.VectorMovesAndCompares : Prop :=
  ∀ (s : State) (k : Issue) (f : VForm) (r : CoreRun), LaneMode (coreSt s (ix k)) → MayRound (coreSt s (ix k)) r f.rnd →
    (IssuesA s k (vWord f 0x0D) r → Gives (.vsel k f) s (fun t => ∃ v, Holds s t (ix k) r (.vec f.d v) (drawnIf (coreSt s (ix k)) f.rnd) ∧
      ∀ n, n < laneCount (coreSt s (ix k)) → laneAt (laneBits (coreSt s (ix k))) v n =
        if bit (lmReg (coreSt s (ix k)) f.mask) n then laneN (coreSt s (ix k)) f.a n else laneN (coreSt s (ix k)) f.b n)) ∧
    (IssuesA s k (vWord f 0x10) r → Gives (.vsplat k f) s (fun t => LanesTo s t (ix k) r f.d f.mask f.rnd (fun _ =>
      if valOf (coreSt s (ix k)).mode (sReg (coreSt s (ix k)) f.a % 2 ^ laneBits (coreSt s (ix k))) = .nan
      then convert (coreSt s (ix k)).mode .rne .nan else sReg (coreSt s (ix k)) f.a))) ∧
    (IssuesA s k (vWord f 0x20) r → Gives (.vxor k f) s (fun t => LanesTo s t (ix k) r f.d f.mask f.rnd (fun n =>
      laneN (coreSt s (ix k)) f.a n ^^^ laneN (coreSt s (ix k)) f.b n))) ∧
    (IssuesA s k (vWord f 0x0E) r → Gives (.vcmp k f) s (fun t => ∃ v,
      Holds s t (ix k) r (.mask (f.c % 8) v) (drawnIf (coreSt s (ix k)) f.rnd) ∧
      ∀ n, bit v n = if n < laneCount (coreSt s (ix k)) then
          (if bit (lmReg (coreSt s (ix k)) f.mask) n then cmpLanes (coreSt s (ix k)) (f.c / 8) (laneN (coreSt s (ix k)) f.a n) (laneN (coreSt s (ix k)) f.b n)
           else bit (lmReg (coreSt s (ix k)) (f.c % 8)) n)
        else false))

/-- Byte `m` of a number. -/
def Sys2Proof.Claims.byteAt (v m : Nat) : Byte := BitVec.ofNat 8 (v / 256 ^ m)

/-- Table 5.4, R347: VGFMUL multiplies every byte of a by the low byte of a scalar register in GF(2^8), VGFMAC adds the products into d;
VMODE sets the lane format for later bundles and NOP does nothing in its port. -/
def Obligations.GfAndModeInstructions : Prop :=
  (∀ (s : State) (k : Issue) (f : VForm) (r : CoreRun), LaneMode (coreSt s (ix k)) → MayRound (coreSt s (ix k)) r f.rnd →
    (IssuesA s k (vWord f 0x21) r → Gives (.vgfmul k f) s (fun t => ∃ p,
      (∀ m, m < 128 → byteAt p m = gfMul (BitVec.ofNat 8 (sReg (coreSt s (ix k)) f.b)) (byteAt (vReg (coreSt s (ix k)) f.a) m)) ∧
      LanesTo s t (ix k) r f.d f.mask f.rnd (fun n => laneAt (laneBits (coreSt s (ix k))) p n))) ∧
    (IssuesA s k (vWord f 0x22) r → Gives (.vgfmac k f) s (fun t => ∃ p,
      (∀ m, m < 128 → byteAt p m = byteAt (vReg (coreSt s (ix k)) f.d) m ^^^
        gfMul (BitVec.ofNat 8 (sReg (coreSt s (ix k)) f.b)) (byteAt (vReg (coreSt s (ix k)) f.a) m)) ∧
      LanesTo s t (ix k) r f.d f.mask f.rnd (fun n => laneAt (laneBits (coreSt s (ix k))) p n))) ∧
    (IssuesA s k (vWord f 0x13) r → Gives (.vmode k f) s (fun t =>
      Holds s t (ix k) r (.mode (f.c % 16)) (drawnIf (coreSt s (ix k)) f.rnd)))) ∧
  (∀ (s : State) (k : Issue) (w : BitVec 24) (r : CoreRun), IssuesA s k w.toNat r →
    Gives (.nop k false w) s (fun t => Holds s t (ix k) r .none (coreSt s (ix k)).lanes))

/-- R131: on Lyith-F, TZERO clears ta(d bits 1:0); TMMA performs the eight FP32 multiply-adds of each element in ascending q, with a or b
transposed by c bits 0 and 1, under BF16 or FP16; TRD reads rows 4h to 4h + 3 as 32 FP32 lanes. -/
def Obligations.TileInstructions : Prop :=
  ∀ (s : State) (k : Issue) (f : VForm) (r : CoreRun), s.variant = .F → MayRound (coreSt s (ix k)) r f.rnd →
    (IssuesA s k (vWord f 0x30) r → Gives (.tzero k f) s (fun t =>
      Holds s t (ix k) r (.tile (f.d % 4) (List.replicate 64 0)) (drawnIf (coreSt s (ix k)) f.rnd))) ∧
    (IssuesA s k (vWord f 0x31) r → (coreSt s (ix k)).mode = 1 ∨ (coreSt s (ix k)).mode = 2 → Gives (.tmma k f) s (fun t => ∃ m,
      Holds s t (ix k) r (.tile (f.d % 4) m) (drawnIf (coreSt s (ix k)) f.rnd) ∧ m.length = 64 ∧
      ∀ i j : Nat, i < 8 → j < 8 → m.getD (8 * i + j) 0 = (List.range 8).foldl (fun acc q => convert 0 .rne (numAdd (numMul
        (valOf (coreSt s (ix k)).mode (laneN (coreSt s (ix k)) f.a (if bit f.c 0 then 8 * q + i else 8 * i + q)))
        (valOf (coreSt s (ix k)).mode (laneN (coreSt s (ix k)) f.b (if bit f.c 1 then 8 * j + q else 8 * q + j)))) (valOf 0 acc)))
        ((tileReg (coreSt s (ix k)) (f.d % 4)).getD (8 * i + j) 0))) ∧
    (IssuesA s k (vWord f 0x32) r → (tileReg (coreSt s (ix k)) (f.a % 4)).length = 64 → Gives (.trd k f) s (fun t => ∃ v,
      Holds s t (ix k) r (.vec f.d v) (drawnIf (coreSt s (ix k)) f.rnd) ∧
      ∀ n, n < 32 → laneAt 32 v n = if bit (lmReg (coreSt s (ix k)) f.mask) n
        then (tileReg (coreSt s (ix k)) (f.a % 4)).getD (32 * (f.c % 2) + n) 0 % 2 ^ 32
        else laneAt 32 (vReg (coreSt s (ix k)) f.d) n))

/-! ### Streams, postmark, counter, fabric -/

/-- R132, Table 5.4: SRD notes a stream read to be served (a length of zero moves nothing), SWAIT goes on once none is outstanding and else
waits, and FWAIT does the same for the core's fabric requests. -/
def Obligations.StreamReadsAndWaits : Prop :=
  (∀ (s : State) (k : Issue) (f : VForm) (r : CoreRun) (dst off len : Nat), IssuesB s k (bWordV f 0xC0) r →
    Inside r (loopNext r.loops r.pc).1 → dst = sReg (coreSt s (ix k)) f.d → off = sReg (coreSt s (ix k)) f.a →
    len = sReg (coreSt s (ix k)) f.b → len % 64 = 0 → len ≤ 57344 →
    ((0x20000 ≤ dst ∧ dst + len ≤ 0x30000 ∧ r.prelude = false) ∨ (0x30000 ≤ dst ∧ dst + len ≤ 0x3E000)) →
    srdSource (fnSt s r.fn) r off len = .ok → (fnSt s r.fn).hold = none →
    Gives (.srd k f) s (fun t => CoreOnly s t (ix k) ∧ GoesNext t (ix k) r ∧ (coreSt t (ix k)).sram = (coreSt s (ix k)).sram ∧
      (coreSt t (ix k)).s = (coreSt s (ix k)).s ∧
      ∀ r', (coreSt t (ix k)).run = some r' → r'.srds = if len = 0 then r.srds else r.srds ++ [⟨dst, off, len⟩])) ∧
  (∀ (s : State) (k : Issue) (f : VForm) (r : CoreRun) (dst off len : Nat), IssuesB s k (bWordV f 0xC0) r →
    dst = sReg (coreSt s (ix k)) f.d → off = sReg (coreSt s (ix k)) f.a → len = sReg (coreSt s (ix k)) f.b → len % 64 = 0 → len ≤ 57344 →
    ((0x20000 ≤ dst ∧ dst + len ≤ 0x30000 ∧ r.prelude = false) ∨ (0x30000 ≤ dst ∧ dst + len ≤ 0x3E000)) →
    srdSource (fnSt s r.fn) r off len = .wait → (fnSt s r.fn).hold = none →
    Does (.srd k f) s (fun u => (fnSt u r.fn).hold.isSome = true ∧ coreSt u (ix k) = coreSt s (ix k))) ∧
  (∀ (s : State) (k : Issue) (f : JForm) (r : CoreRun), IssuesB s k (bWordJ f 0xC1) r → Inside r (loopNext r.loops r.pc).1 →
    (r.srds = [] → Gives (.swait k f) s (fun t => CoreOnly s t (ix k) ∧ GoesNext t (ix k) r ∧
      (coreSt t (ix k)).s = (coreSt s (ix k)).s ∧ (coreSt t (ix k)).sram = (coreSt s (ix k)).sram)) ∧
    (r.srds ≠ [] → Ignores (.swait k f) s)) ∧
  (∀ (s : State) (k : Issue) (f : JForm) (r : CoreRun), IssuesB s k (bWordJ f 0xDC) r → Inside r (loopNext r.loops r.pc).1 →
    (awaited s (ix k) = [] → Gives (.fwait k f) s (fun t => CoreOnly s t (ix k) ∧ GoesNext t (ix k) r ∧
      (coreSt t (ix k)).s = (coreSt s (ix k)).s ∧ (coreSt t (ix k)).sram = (coreSt s (ix k)).sram)) ∧
    (awaited s (ix k) ≠ [] → Ignores (.fwait k f) s))

/-- Table 5.4: PMRD gives word imm14 of frame A's postmark, PMWX writes word imm14 of frame B's FORMAT_EXT and nothing else, STIME gives the
global counter; outside a prelude run. -/
def Obligations.PostmarkAndCounter : Prop :=
  (∀ (s : State) (k : Issue) (f : IForm) (r : CoreRun), Inside r (loopNext r.loops r.pc).1 → r.prelude = false →
    (IssuesB s k (bWordI f 0xC8) r → f.imm.toNat < 32 → Gives (.pmrd k f) s (fun t =>
      ScalarTo s t (ix k) r (coreSt s (ix k)).lanes f.d (leVal (memReadN (coreSt s (ix k)).sram (8 * f.imm.toNat) 8)))) ∧
    (IssuesB s k (bWordI f 0xC9) r → f.imm.toNat < 5 → Gives (.pmwx k f) s (fun t => CoreOnly s t (ix k) ∧ GoesNext t (ix k) r ∧
      (coreSt t (ix k)).s = (coreSt s (ix k)).s ∧
      leVal (memReadN (coreSt t (ix k)).sram (0x10048 + 8 * f.imm.toNat) 8) = sReg (coreSt s (ix k)) f.d ∧
      ∀ x, x < 0x10048 + 8 * f.imm.toNat ∨ 0x10050 + 8 * f.imm.toNat ≤ x →
        memRead (coreSt t (ix k)).sram x = memRead (coreSt s (ix k)).sram x))) ∧
  (∀ (s : State) (k : Issue) (f : LForm) (r : CoreRun), Inside r (loopNext r.loops r.pc).1 → IssuesB s k (bWordL f 0xD0) r →
    Gives (.stime k f) s (fun t => ScalarTo s t (ix k) r (coreSt s (ix k)).lanes f.d s.counter))

/-- The packet of a fabric instruction (R198, R199): TC6, BYTES 8, the function's generation, the core's endpoint as its source. -/
def Sys2Proof.Claims.corePacket (s : State) (k : Issue) (n type dst off tag : Nat) (payload : List Byte) : Packet :=
  ⟨mkHeader dst (selfDie s + k.slice * 256 + k.core * 8) type 6 (flagsByte false (curGen s n)) (payload.length / 64) n tag (memForm off 8 0),
   payload⟩

/-- R133, R201, R216: where the ownership table allows it and no proxy stands for the endpoint, FLD, FADD and FCAS send their request over TC6
and note that d awaits the response, and FST sends its store. -/
def Obligations.FabricInstructions : Prop :=
  ∀ (s : State) (k : Issue) (f : VForm) (r : CoreRun) (dst off tag : Nat), Inside r (loopNext r.loops r.pc).1 →
    dst = sReg (coreSt s (ix k)) f.a % 2 ^ 32 → off = sReg (coreSt s (ix k)) f.b % 2 ^ 48 →
    tag = freeTag (s.requests.map (fun q => q.tag)) s.requests.length 0 → (fnSt s r.fn).proxies = [] →
    (IssuesB s k (bWordV f 0xD8) r → 1 ≤ ownMode (fnSt s r.fn).own dst off 8 → Gives (.fld k f) s (fun t =>
      t = { s with cores := t.cores, egress := s.egress ++ [corePacket s k r.fn 1 dst off tag []],
                   requests := s.requests ++ [⟨tag, r.fn, .core k.slice k.core f.d, curGen s r.fn, s.ticks⟩] } ∧ GoesNext t (ix k) r)) ∧
    (IssuesB s k (bWordV f 0xD9) r → 2 ≤ ownMode (fnSt s r.fn).own dst off 8 → Gives (.fst k f) s (fun t =>
      t = { s with cores := t.cores,
                   egress := s.egress ++ [corePacket s k r.fn 3 dst off tag (fit 64 (leBytes 8 (sReg (coreSt s (ix k)) f.d)))] } ∧
        GoesNext t (ix k) r)) ∧
    (IssuesB s k (bWordV f 0xDA) r → 2 ≤ ownMode (fnSt s r.fn).own dst off 8 → Gives (.fadd k f) s (fun t =>
      t = { s with cores := t.cores,
                   egress := s.egress ++ [corePacket s k r.fn 4 dst off tag (fit 64 (leBytes 8 (sReg (coreSt s (ix k)) f.d)))],
                   requests := s.requests ++ [⟨tag, r.fn, .core k.slice k.core f.d, curGen s r.fn, s.ticks⟩] } ∧ GoesNext t (ix k) r)) ∧
    (IssuesB s k (bWordV f 0xDB) r → 2 ≤ ownMode (fnSt s r.fn).own dst off 8 → Gives (.fcas k f) s (fun t =>
      t = { s with cores := t.cores,
                   egress := s.egress ++ [corePacket s k r.fn 5 dst off tag
                     (fit 64 (leBytes 8 (sReg (coreSt s (ix k)) f.d) ++ leBytes 8 (sReg (coreSt s (ix k)) f.c)))],
                   requests := s.requests ++ [⟨tag, r.fn, .core k.slice k.core f.d, curGen s r.fn, s.ticks⟩] } ∧ GoesNext t (ix k) r))

/-! ### Traps -/

/-- What a program fault with a code records of the run (R140, Tables 5.15 to 5.17), where none fell in the same tick before. -/
def Sys2Proof.Claims.Faulted (s u : State) (i code : Nat) (r : CoreRun) : Prop :=
  (coreSt u i).run = none ∧ getF u (pgFn r.fn) FN_TRAP_INFO_CAUSE = code ∧ getF u (pgFn r.fn) FN_TRAP_INFO_SLICE = i / 32 % 16 ∧
    getF u (pgFn r.fn) FN_TRAP_INFO_CORE = i % 32 ∧ getF u (pgFn r.fn) FN_PROG_STATUS_FAULT = 1 ∧
    ((fnSt s r.fn).aborting = false → .abort r.fn 2 ∈ u.agenda)

/-- R140: a program fault is recorded in LY_FNn_TRAP_INFO, sets PROG_STATUS.FAULT, and asks for the function's abort with cause PROGRAM_FAULT
where none is under way: the SOFT trap, a tile instruction without tiles (UNIMPL, R6), tmma outside BF16 and FP16 (ILLEGAL_OP), and a vld
whose address is no multiple of 8 (ILLEGAL_ADDR). -/
def Obligations.ProgramFaultsAreRecorded : Prop :=
  ∀ (s : State) (k : Issue) (r : CoreRun), r.fn < 64 → (fnSt s r.fn).trapAt ≠ some s.ticks →
    (∀ f : JForm, IssuesB s k (bWordJ f 0xB6) r → Does (.trap k f) s (fun u => Faulted s u (ix k) 0x14 r ∧
      (fnSt u r.fn).softCode = f.target.toNat)) ∧
    (∀ f : VForm, s.variant = .C →
      (IssuesA s k (vWord f 0x30) r → Does (.tzero k f) s (fun u => Faulted s u (ix k) 0x10 r)) ∧
      (IssuesA s k (vWord f 0x31) r → Does (.tmma k f) s (fun u => Faulted s u (ix k) 0x10 r)) ∧
      (IssuesA s k (vWord f 0x32) r → Does (.trd k f) s (fun u => Faulted s u (ix k) 0x10 r))) ∧
    (∀ f : VForm, s.variant = .F → (coreSt s (ix k)).mode ≠ 1 → (coreSt s (ix k)).mode ≠ 2 → IssuesA s k (vWord f 0x31) r →
      Does (.tmma k f) s (fun u => Faulted s u (ix k) 0x12 r)) ∧
    (∀ f : MForm, IssuesB s k (bWordM f 0x80) r → (r.prelude && f.rnd) = false → sReg (coreSt s (ix k)) f.s % 8 ≠ 0 →
      Does (.vld k f) s (fun u => Faulted s u (ix k) 0x11 r))


/-! ### The block as a whole -/

/-- A step takes the command at the front of the queue and carries it out on the state with the queue's rest. -/
def Obligations.StepRunsTheFrontCommand : Prop :=
  ∀ (c : Instr) (rest : List Instr) (s : State), s.pending = c :: rest → step s = exec c { s with pending := rest }

/-- On an empty queue one tick of 1.25 ns passes outside power-on reset, and nothing else changes; in power-on reset nothing does (log
entry 4, the model's choice). Every command answers a next state and leaves the queue behind it as it was: a step takes exactly the
oldest command. -/
def Obligations.QueueIsFirstInFirstOut : Prop :=
  (∀ s : State, s.pending = [] →
    (alive s = true → step s = .next { s with ticks := s.ticks + 1, counter := (s.counter + 1) % 2 ^ 64 }) ∧
    (alive s = false → step s = .next s)) ∧
  ((∀ (c : Instr) (s : State), ∃ t, exec c s = .next t ∧ t.pending = s.pending) ∧
  ∀ (c : Instr) (rest : List Instr) (s t : State), s.pending = c :: rest → step s = .next t → t.pending = rest)

/-- Where a command's own effect leads to a state with nothing left to carry out, the command ends in that state. -/
def Obligations.QuietEndAddsNothing : Prop :=
  ∀ s u : State, Quiet u → conclude s u = { u with pending := s.pending }

/-- R407: in power-on reset a command changes nothing unless it is one of the events of power and reset. -/
def Obligations.NothingActsInPowerOnReset : Prop :=
  ∀ (c : Instr) (s : State), alive s = false → actsInReset c = false → exec c s = .next s

/-- The memories are in canonical form at reset, and reset meets what the statements below ask of a state between commands. -/
def Obligations.ResetIsCanonicalAndQuiet : Prop :=
  Memory.wf State.reset = true ∧ Quiet State.reset ∧ alive State.reset = true ∧ State.reset.pending = []

/-- Every step keeps the byte memories of the die (the deep tier, the near tier and the cores' data SRAMs) in canonical form: addresses
strictly rising, no byte equal to what an unlisted address reads as. -/
def Obligations.StepKeepsMemoriesCanonical : Prop :=
  ∀ s t : State, Memory.wf s = true → step s = .next t → Memory.wf t = true

/-- What reset leaves, by the spec's values: the counter at 0 (R171), every register at its reset value but LY_CLKPWR_RESET_CAUSE, whose
cause is POWER_ON (Table 15.14), no function holding anything, every seal object zero (R447), the tiers and the queue empty. -/
def Obligations.ResetState : Prop :=
  State.reset.counter = 0 ∧ State.reset.seals = [] ∧ State.reset.fns = [] ∧ State.reset.cores = [] ∧ State.reset.egress = [] ∧
  State.reset.deep = [] ∧ State.reset.near = [] ∧ getF State.reset pgClkpwr CLKPWR_RESET_CAUSE_CAUSE = 1 ∧
  ∀ a, a ≠ 0xE058 → wordAt State.reset a = resetWord .F a

/-! ### Instruction words (R127, R128) -/

/-- Decoding and encoding of the update cores' words agree: a word below 2^32 that decodes is the word of the instruction it decodes to,
and the word of an instruction decodes to it, wherever R128 and R148 allow the word. No bit of an encoding is dropped. -/
def Obligations.CoreWordsRoundTrip : Prop :=
  (∀ (k : Issue) (w : Nat) (i : Instr), w < 2 ^ 32 → decodeA k w = some i → encodeA i = some w) ∧
  (∀ (k : Issue) (w : Nat) (i : Instr), w < 2 ^ 32 → decodeB k w = some i → encodeB i = some w) ∧
  (∀ (i : Instr) (w : Nat), encodeA i = some w → w < 2 ^ 32 ∧ (wordOk false w = true → ∃ k, decodeA k w = some i)) ∧
  (∀ (i : Instr) (w : Nat), encodeB i = some w → w < 2 ^ 32 ∧ (wordOk true w = true → ∃ k, decodeB k w = some i))

/-- R128: an opcode that Table 5.4 does not give a port, and a non-zero bit in a field shown as zero, decode to nothing. -/
def Obligations.InvalidCoreWordsAreRefused : Prop :=
  (∀ (k : Issue) (w : Nat), formA (insOp w) = none → decodeA k w = none) ∧
  (∀ (k : Issue) (w : Nat), formB (insOp w) = none → decodeB k w = none) ∧
  (∀ (k : Issue) (w : Nat), insOp w = 0x80 ∨ insOp w = 0x81 → bits w 3 0 ≠ 0 → decodeB k w = none) ∧
  (∀ (k : Issue) (w : Nat), formB (insOp w) = some .j → bits w 18 14 ≠ 0 → decodeB k w = none) ∧
  (∀ (k : Issue) (w : Nat), insOp w = 0x91 → bits w 18 16 ≠ 0 → decodeB k w = none)

/-- Words written out from Tables 5.3 and 5.4: vadd v3, v1, v2 under lm5 with rnd; vfma v7, v3, v30, v6; sadd s9, s10, s11; saddi s1, s2, −1;
sli s10, 0x3E800; vld v1, s3, FP32, inc; bnz s9 to bundle +16; halt. -/
def Obligations.CoreWordsMean : Prop :=
  ∀ k : Issue, decodeA k 0x0118440B = some (.vadd k ⟨3, 1, 2, 0, 5, true⟩) ∧ decodeA k 0x0438FC60 = some (.vfma k ⟨7, 3, 30, 6, 0, false⟩) ∧
    decodeB k 0x924A9600 = some (.sadd k ⟨9, 10, 11, 0, 0, false⟩) ∧ decodeB k 0x9308BFFF = some (.saddi k ⟨1, 2, BitVec.ofInt 14 (-1)⟩) ∧
    decodeB k 0x9053E800 = some (.sli k ⟨10, 0x3E800⟩) ∧ decodeB k 0x8008C020 = some (.vld k ⟨1, 3, 0, false, 0, true, false⟩) ∧
    decodeB k 0xB2480010 = some (.bnz k ⟨9, 16⟩) ∧ decodeB k 0xB5000000 = some (.halt k ⟨0, 0⟩)


/-! ### The register window (R436 to R451) -/

/-- The die is up, nothing is left to carry out, and the source has a BAR to reach the window through (R353). -/
structure Sys2Proof.Claims.Reaches (s : State) (src : Source) : Prop where
  up : alive s = true
  quiet : Quiet s
  on : sourceOn s src = true

/-- The word at the window offset `a` lies behind a page of kind `k` and instance `i` whose unit the variant has. -/
def Sys2Proof.Claims.There (s : State) (a : Nat) (k : PageKind) (i : Nat) : Prop :=
  a % 4 = 0 ∧ pageAt a = some (k, i) ∧ unitAbsent s k (a % 4096) = false

/-- Nothing of the die but registers changed. -/
def Sys2Proof.Claims.RegsOnly (s t : State) : Prop := t = { s with regs := t.regs }

/-- Only the register at window offset `a` changed. -/
def Sys2Proof.Claims.OneWord (s t : State) (a : Nat) : Prop := RegsOnly s t ∧ ∀ b, b ≠ a → wordAt t b = wordAt s b

/-- Registers whose writes do more than their fields' access types say, or whose values a chapter restricts: the header's PAGE_CTRL,
INT_ENABLE, INT_FORCE and LOCK, and the registers that the rows of the command table name. -/
def Sys2Proof.Claims.actsOn (k : PageKind) (i o : Nat) : Bool :=
  [0x010, 0x01C, 0x020, 0x024].contains o ||
  (match k with
   | .fn => [0x040, 0x048, 0x04C, 0x050, 0x054, 0x058, 0x05C, 0x060, 0x064, 0x068, 0x07C, 0x164, 0x178].contains o ||
      (decide (i = 0) && decide (0x100 ≤ o))
   | .seal => decide (0x040 ≤ o)
   | .global => [0x040, 0x044].contains o
   | .wheel => [0x040, 0x058].contains o
   | .port => [0x04C, 0x050, 0x054].contains o
   | .fife => [0x040].contains o
   | .drone => [0x058].contains o
   | .slice => decide (0x400 ≤ o) && decide (o < 0x500)
   | .floor => [0x048].contains o
   | .nvm => [0x048].contains o
   | .clkpwr => [0x040, 0x04C, 0x054].contains o
   | _ => false)

/-- R12, R13, R14, R436, R437, R444: a whole write of a register word takes effect by the access types of its fields. RW and RWS bits take
the value written, a 1 clears a W1C bit, every other bit and every other register stays. While the page is locked the RW, RWS and RWL
bits stay too, and LOCK_INFO and FN0's LOCK_VIOLATION report the write. A write that covers no whole word is ignored and sets PARTIAL; one
without the right to the page is ignored and sets the writer's DENIED (R354); an offset in no page, or in a unit that the variant has
not, ignores writes without any flag (R6). -/
def Obligations.RegisterWritesByAccessType : Prop :=
  ∀ (src : Source) (off : BitVec 24) (v : BitVec 32) (s : State), Reaches s src →
    (∀ (k : PageKind) (i : Nat) (d : RegDesc), There s off.toNat k i → descAt k (off.toNat % 4096) = some d →
      actsOn k i (off.toNat % 4096) = false → mayWrite src off.toNat = true →
      (pageLocked s off.toNat = false → Gives (.registerWrite src off v true) s (fun t => OneWord s t off.toNat ∧
        ∀ b, b < 32 → (wordAt t off.toNat).getLsbD b =
          (if d.w1c.testBit b && v.getLsbD b then false
           else if d.rw.testBit b || d.rws.testBit b then v.getLsbD b else (wordAt s off.toNat).getLsbD b))) ∧
      (pageLocked s off.toNat = true → d.rw ||| d.rws ||| d.rwl ≠ 0 → ringCount k (off.toNat % 4096) = false →
        Gives (.registerWrite src off v true) s (fun t =>
          (∀ b, b < 32 → (wordAt t off.toNat).getLsbD b =
            (if d.w1c.testBit b && v.getLsbD b then false else (wordAt s off.toNat).getLsbD b)) ∧
          getF t pgGlobal GLOBAL_LOCK_INFO_PAGE = off.toNat / 4096 ∧ getF t pgGlobal GLOBAL_LOCK_INFO_OFFSET = off.toNat % 4096 ∧
          fnF t 0 FN_INT_LOCK_VIOLATION = 1))) ∧
    (pageAt (off.toNat / 4 * 4) ≠ none → mayWrite src (off.toNat / 4 * 4) = true →
      Gives (.registerWrite src off v false) s (fun t => getF t pgGlobal GLOBAL_WINDOW_STATUS_PARTIAL = 1 ∧ OneWord s t 0x050)) ∧
    (∀ (n : Fin 64) (k : PageKind) (i : Nat), src = .jf n → There s off.toNat k i → mayWrite src off.toNat = false →
      Gives (.registerWrite src off v true) s (fun t => fnF t n FN_INT_DENIED = 1 ∧
        (∀ a, a ≠ pgFn n + FN_INT_DENIED.off → wordAt t a = wordAt s a) ∧
        t = { s with regs := t.regs, msi := t.msi, msiLast := t.msiLast, msiPend := t.msiPend })) ∧
    (off.toNat % 4 = 0 → (pageAt off.toNat = none ∨ ∃ k i, pageAt off.toNat = some (k, i) ∧ unitAbsent s k (off.toNat % 4096) = true) →
      Ignores (.registerWrite src off v true) s)

/-- R12, R437, R438, R354: a read answers with the register's word, a HI register that its LO register latches with the reader's latch, and
what the source may not read with zero. It clears the word's RC bits, loads the reader's latch where the word is such a LO register,
and changes nothing else. An access behind the last page of the window, or by a source without a BAR, changes nothing. -/
def Obligations.RegisterReads : Prop :=
  ∀ (src : Source) (off : BitVec 24) (s : State), off.toNat % 4 = 0 → ∀ c ∈ [Instr.readClear src off, Instr.latchedRead src off],
    (alive s = true → Quiet s → sourceOn s src = false → Ignores c s) ∧
    (Reaches s src →
      (mayRead s src off.toNat = false → Gives c s (fun t => t = { s with answer := some 0 })) ∧
      (mayRead s src off.toNat = true → isLatched off.toNat = true →
        Gives c s (fun t => t = { s with answer := some (BitVec.ofNat 32 (tabGet 0 s.latch (latchKey src off.toNat))) })) ∧
      (mayRead s src off.toNat = true → isLatched off.toNat = false → Gives c s (fun t =>
        t = { s with answer := some (BitVec.ofNat 32 (readWord s off.toNat)), regs := t.regs, latch := t.latch } ∧
        (∀ a, a ≠ off.toNat → wordAt t a = wordAt s a) ∧
        (∀ b, b < 32 → (wordAt t off.toNat).getLsbD b =
          (if (rcMask s off.toNat).testBit b then false else (wordAt s off.toNat).getLsbD b)) ∧
        ∀ key, tabGet 0 t.latch key =
          (if isLatched (off.toNat + 4) = true ∧ key = latchKey src (off.toNat + 4) then readWord s (off.toNat + 4)
           else tabGet 0 s.latch key))))

/-- PAGE_ID of a page of kind `k` and instance `i` (Tables 17.3 and 17.4). -/
def Sys2Proof.Claims.pageId (k : PageKind) (i : Nat) : Word :=
  BitVec.ofNat 32 (0x1A5E0000 + kindCode k * 256 + (if k = .region ∨ k = .slice ∨ k = .fn ∨ k = .seal then i else 0))

/-- Tables 17.2 to 17.5: the words that open every page but the floor's on Lyith-C: PAGE_ID with the mark, the kind and the instance of
a region, slice, function or seal page, and PAGE_VER. -/
def Obligations.PageHeadersRead : Prop :=
  ∀ (s : State) (src : Source) (off : BitVec 24) (k : PageKind) (i : Nat), Reaches s src → mayRead s src off.toNat = true →
    There s off.toNat k i →
    (off.toNat % 4096 = 0x000 → Gives (.readClear src off) s (fun t => t = { s with answer := some (pageId k i) })) ∧
    (off.toNat % 4096 = 0x004 → Gives (.readClear src off) s (fun t => t = { s with answer := some 0x00010000 }))

/-- R5: what MF reads at PAGE_CAP of a function's page has in bits 2:0 what it reads there in the global page: 7 on Lyith-F, 0 on
Lyith-C (R441). -/
def Obligations.FunctionPagesMirrorTheUnits : Prop :=
  ∀ (s : State) (n : Fin 64), Reaches s .mf → ∃ g f : Word,
    Gives (.readClear .mf 0x000008) s (fun t => t = { s with answer := some g }) ∧
    Gives (.readClear .mf (BitVec.ofNat 24 (0x20008 + 0x1000 * n.val))) s (fun t => t = { s with answer := some f }) ∧
    f.extractLsb 2 0 = g.extractLsb 2 0 ∧ f.toNat = (if s.variant = .F then 7 else 0)

/-- The four words of a seal object (Tables 17.12 and 17.13). -/
def Sys2Proof.Claims.sealWords (o : SealObj) : List Nat :=
  [o.count, o.expected, o.state * 2 ^ 30 + o.owner * 2 ^ 24 + o.arms * 2 ^ 16 + o.late * 2 ^ 8 + (if o.parity then 128 else 0), o.firedAt]

/-- R451: MF and the management controller read every seal object; JFn reads an object when its OWNER is n and its ARMS is not zero, and
zero else. A LOAD in space 0x1 is answered MALFORMED and reads nothing. -/
def Obligations.SealObjectsAsRead : Prop :=
  (∀ (s : State) (src : Source) (i w : Nat), Reaches s src → i < 16384 → w < 4 →
    Gives (.readClear src (BitVec.ofNat 24 (0x80000 + 0x1000 * (i / 252) + 0x40 + 16 * (i % 252) + 4 * w))) s (fun t =>
      t = { s with answer := some (BitVec.ofNat 32 (match src with
        | .jf n => if (sealAt s i).owner = n ∧ (sealAt s i).arms ≠ 0 then (sealWords (sealAt s i)).getD w 0 else 0
        | _ => (sealWords (sealAt s i)).getD w 0)) })) ∧
  (∀ (s : State) (p : Packet) (via : Option (Fin 16)) (rows : RowSet) (rd : Bool), Quiet s → portTakes s p = true → hType p = 1 →
    hSpace p = 1 → Gives (.loadMem p .none via rows rd) s (fun t => ∃ q, t = { s with egress := s.egress ++ [q] } ∧
      hType q = 2 ∧ hStatus q = 3 ∧ hTag q = hTag p ∧ hDst q = hSrc p ∧ q.payload = []))

/-! ### Writes of the page header (R376, R443 to R445) -/

/-- LOCK_INFO and FN0's LOCK_VIOLATION report an ignored write at window offset `a` (R377). -/
def Sys2Proof.Claims.Violation (t : State) (a : Nat) : Prop :=
  getF t pgGlobal GLOBAL_LOCK_INFO_PAGE = a / 4096 ∧ getF t pgGlobal GLOBAL_LOCK_INFO_OFFSET = a % 4096 ∧ fnF t 0 FN_INT_LOCK_VIOLATION = 1

/-- R445: CLEAR_COUNTS clears every RC bit of the page and no other bit of any register; while the page is locked it is a LOCK_VIOLATION
and clears nothing there (R444). R444: the first write of LOCK fixes LOCKED, a later one leaves it and is a LOCK_VIOLATION. R376, R443:
INT_FORCE sets the bits of INT_STATUS that the page has, locked or not, and a bit that is enabled on a function's page requests the vector
that MSIX_MAP names, at once where MOD is zero. -/
def Obligations.HeaderWrites : Prop :=
  ∀ (src : Source) (page : BitVec 12) (s : State) (k : PageKind) (i : Nat), Reaches s src →
    (There s (page.toNat * 4096 + 0x010) k i → mayWrite src (page.toNat * 4096 + 0x010) = true →
      (pageLocked s (page.toNat * 4096) = false → Gives (.clearCounts src page) s (fun t => RegsOnly s t ∧
        (∀ a, a / 4096 ≠ page.toNat → wordAt t a = wordAt s a) ∧
        ∀ (o : Nat) (d : RegDesc), o < 4096 → descAt k o = some d → ∀ b, b < 32 →
          (wordAt t (page.toNat * 4096 + o)).getLsbD b =
            (if d.rc.testBit b then false else (wordAt s (page.toNat * 4096 + o)).getLsbD b))) ∧
      (pageLocked s (page.toNat * 4096) = true → Gives (.clearCounts src page) s (fun t =>
        Violation t (page.toNat * 4096 + 0x010) ∧
        ∀ (o : Nat) (d : RegDesc), o < 4096 → descAt k o = some d → ∀ b, b < 32 → d.rc.testBit b = true →
          (wordAt t (page.toNat * 4096 + o)).getLsbD b = (wordAt s (page.toNat * 4096 + o)).getLsbD b))) ∧
    (There s (page.toNat * 4096 + 0x024) k i → mayWrite src (page.toNat * 4096 + 0x024) = true → ∀ v : Bool,
      (s.rwl.contains (page.toNat * 4096 + 0x024) = false → Gives (.lock src page v) s (fun t =>
        t = { s with regs := t.regs, rwl := s.rwl ++ [page.toNat * 4096 + 0x024] } ∧
        getF t (page.toNat * 4096) HDR_LOCK_LOCKED = (if v then 1 else 0) ∧
        ∀ a, a ≠ page.toNat * 4096 + 0x024 → wordAt t a = wordAt s a)) ∧
      (s.rwl.contains (page.toNat * 4096 + 0x024) = true → Gives (.lock src page v) s (fun t =>
        Violation t (page.toNat * 4096 + 0x024) ∧ t.rwl = s.rwl ∧
        getF t (page.toNat * 4096) HDR_LOCK_LOCKED = getF s (page.toNat * 4096) HDR_LOCK_LOCKED))) ∧
    (There s (page.toNat * 4096 + 0x020) k i → mayWrite src (page.toNat * 4096 + 0x020) = true → ∀ v : BitVec 32,
      Gives (.intForce src page v) s (fun t =>
        t = { s with regs := t.regs, msi := t.msi, msiLast := t.msiLast, msiPend := t.msiPend } ∧
        (∀ a, a ≠ page.toNat * 4096 + 0x018 → wordAt t a = wordAt s a) ∧
        wordAt t (page.toNat * 4096 + 0x018) =
          wordAt s (page.toNat * 4096 + 0x018) ||| (v &&& BitVec.ofNat 32 (pageIrq (page.toNat * 4096))) ∧
        (k = .fn → fnF s i FN_MSIX_MAP_MOD = 0 → ∀ b, b < 32 → v.getLsbD b = true → (pageIrq (page.toNat * 4096)).testBit b = true →
          (wordAt s (page.toNat * 4096 + 0x01C)).getLsbD b = true →
          (i, if b = 31 then fnF s i FN_MSIX_MAP_CPL_VEC else if b = 30 ∨ b = 29 then fnF s i FN_MSIX_MAP_EV_VEC
              else fnF s i FN_MSIX_MAP_ERR_VEC) ∈ t.msi)))

/-! ### Slices, position, checker, remap and watch log (R342, R343, R403 to R411) -/

/-- The source reaches the window offset `a` with the right to write there, and the page is not locked. -/
def Sys2Proof.Claims.MayAct (s : State) (src : Source) (a : Nat) : Prop := Reaches s src ∧ mayWrite src a = true ∧ pageLocked s a = false

/-- R403: a slice that some busy function's PLACE names is not gated, region-reset or slice-reset, and the write is a LOCK_VIOLATION; any other
gates, and its domain goes off when gating completes, with its SRAMs, queues and core registers lost. R404: a slice is shown on when ungating
completes. R407: a slice or region reset clears the slices' SRAMs, queues and core registers, and no register of their pages. R411: the first
write of POSITION after chip reset fixes the position and VALID, a later one is a LOCK_VIOLATION. -/
def Obligations.SlicesAndPosition : Prop :=
  ∀ (s : State) (src : Source),
    (∀ sl : Fin 16, MayAct s src 0xE04C →
      (sliceUsed s sl = false → Gives (.gate src sl) s (fun t => RegsOnly s t ∧
        (getF t pgClkpwr CLKPWR_GATE_SL).testBit sl = true ∧
        (∀ k, k < 16 → k ≠ sl.val → (getF t pgClkpwr CLKPWR_GATE_SL).testBit k = (getF s pgClkpwr CLKPWR_GATE_SL).testBit k) ∧
        ∀ a, a ≠ 0xE04C → wordAt t a = wordAt s a)) ∧
      (sliceUsed s sl = true → (getF s pgClkpwr CLKPWR_GATE_SL).testBit sl = false → Gives (.gate src sl) s (fun t =>
        Violation t 0xE04C ∧ getF t pgClkpwr CLKPWR_GATE_SL = getF s pgClkpwr CLKPWR_GATE_SL)) ∧
      Gives (.ungate src sl) s (fun t => RegsOnly s t ∧ (getF t pgClkpwr CLKPWR_GATE_SL).testBit sl = false ∧
        (∀ k, k < 16 → k ≠ sl.val → (getF t pgClkpwr CLKPWR_GATE_SL).testBit k = (getF s pgClkpwr CLKPWR_GATE_SL).testBit k) ∧
        ∀ a, a ≠ 0xE04C → wordAt t a = wordAt s a)) ∧
    (∀ sl : Fin 16, alive s = true → Quiet s →
      ((getF s pgClkpwr CLKPWR_GATE_SL).testBit sl = true → (getF s pgClkpwr CLKPWR_DOMAIN_STATUS_SL).testBit sl = true →
        Gives (.sliceGated sl) s (fun t => (getF t pgClkpwr CLKPWR_DOMAIN_STATUS_SL).testBit sl = false ∧
          (∀ c, c < 32 → coreSt t (coreIx sl c) = {}) ∧ (∀ b ∈ t.bags, b.slice ≠ sl.val) ∧ (∀ h ∈ t.held, h.1 ≠ sl.val) ∧
          t = { s with regs := t.regs, cores := t.cores, bags := t.bags, held := t.held })) ∧
      (s.pwr.phase = 2 → (getF s pgClkpwr CLKPWR_GATE_SL).testBit sl = false →
        (getF s pgClkpwr CLKPWR_DOMAIN_STATUS_SL).testBit sl = false →
        Gives (.sliceUngated sl) s (fun t => (getF t pgClkpwr CLKPWR_DOMAIN_STATUS_SL).testBit sl = true ∧
          (∀ c, c < 32 → coreSt t (coreIx sl c) = {})))) ∧
    (∀ sl : Fin 16, MayAct s src 0xE054 →
      (sliceUsed s sl = false → Gives (.sliceReset src sl) s (fun t =>
        t = { s with cores := t.cores, bags := t.bags, held := t.held, regs := t.regs } ∧ (∀ a, wordAt t a = wordAt s a) ∧
        (∀ c, c < 32 → coreSt t (coreIx sl c) = {}) ∧ (∀ k, k < 512 → k / 32 ≠ sl.val → coreSt t k = coreSt s k) ∧
        t.bags = s.bags.filter (fun b => decide (b.slice ≠ sl.val)))) ∧
      (sliceUsed s sl = true → Gives (.sliceReset src sl) s (fun t => Violation t 0xE054 ∧ t.cores = s.cores ∧ t.bags = s.bags))) ∧
    (∀ q : Fin 4, MayAct s src 0xE054 →
      ((∀ i, i < 4 → sliceUsed s (4 * q.val + i) = false) → Gives (.regionReset src q) s (fun t => (∀ a, wordAt t a = wordAt s a) ∧
        (∀ c, c < 128 → coreSt t (128 * q.val + c) = {}) ∧ (∀ b ∈ t.bags, b.slice / 4 ≠ q.val))) ∧
      ((∃ i, i < 4 ∧ sliceUsed s (4 * q.val + i) = true) → Gives (.regionReset src q) s (fun t => Violation t 0xE054 ∧
        t.cores = s.cores ∧ t.bags = s.bags))) ∧
    (∀ v : BitVec 32, MayAct s src 0xE040 →
      (positioned s = false → Gives (.position src v) s (fun t => RegsOnly s t ∧ positioned t = true ∧
        wordAt t 0xE040 = BitVec.ofNat 32 (v.toNat / 4096 * 4096 + 2 * getF s pgClkpwr CLKPWR_POSITION_STRAP_BAD + 1 +
          (wordAt s 0xE040).toNat % 4096 / 4 * 4) ∧ ∀ a, a ≠ 0xE040 → wordAt t a = wordAt s a)) ∧
      (positioned s = true → Gives (.position src v) s (fun t => Violation t 0xE040 ∧ wordAt t 0xE040 = wordAt s 0xE040)))

/-- The slice's checker buffer, byte by byte (R343). -/
def Sys2Proof.Claims.Buffer (t : State) (sl : Nat) (bs : List Byte) : Prop := chkBuf t sl = bs

/-- R343: with ENABLE set, READ_RAW fills the buffer with the block as stored, WRITE_RAW stores the buffer as the block, and READ_DECODED fills
the buffer with the lines as the decoder returns them and reports the most symbols corrected, 3 and UNCORRECTABLE for an uncorrectable
line; a block of the reserve, of a spare, or of a busy function is REFUSED; with ENABLE clear nothing happens but OP. R342: an entry that is
not valid takes a write, a valid one ignores it. Table 12.12: CLEAR empties the watch log. R306: the push area is ignored during a sweep and
refused with LOCK_VIOLATION where it clashes. R237: a write of 1 to BUGLE sounds Bugle with cause SOFTWARE for a running function. -/
def Obligations.CheckerRemapAndAreas : Prop :=
  ∀ (s : State) (src : Source),
    (∀ (sl : Fin 16) (raw : List Byte) (owner : BlockOwner), MayAct s src (pgSlice sl + 0x064) →
      let pg := pgSlice sl
      let ch := 4 * sl.val + getF s pg SL_CHK_ADDR_CHANNEL
      let block := getF s pg SL_CHK_ADDR_BLOCK
      let here := storedRaw s ch block raw
      (getF s pg SL_CHK_CTRL_ENABLE = 0 → ∀ q ∈ [(0, Instr.readRaw src sl raw owner), (1, Instr.writeRaw src sl raw owner),
          (2, Instr.readDecoded src sl raw owner)],
        Gives q.2 s (fun t => RegsOnly s t ∧ getF t pg SL_CHK_CTRL_OP = q.1 ∧ ∀ a, a ≠ pg + 0x064 → wordAt t a = wordAt s a)) ∧
      (getF s pg SL_CHK_CTRL_ENABLE = 1 → chkRefused s owner = true → ∀ c ∈ [Instr.readRaw src sl raw owner,
          Instr.writeRaw src sl raw owner, Instr.readDecoded src sl raw owner],
        Gives c s (fun t => RegsOnly s t ∧ getF t pg SL_CHK_CTRL_STATUS = 1 ∧ ∀ a, a ≠ pg + 0x064 → wordAt t a = wordAt s a)) ∧
      (getF s pg SL_CHK_CTRL_ENABLE = 1 → chkRefused s owner = false →
        (here.length = 1024 → Gives (.readRaw src sl raw owner) s (fun t => RegsOnly s t ∧ Buffer t sl here ∧ getF t pg SL_CHK_CTRL_STATUS = 0)) ∧
        Gives (.writeRaw src sl raw owner) s (fun t => tabFind t.integ.blocks (blockAddr ch block) = some (chkBuf s sl) ∧
          getF t pg SL_CHK_CTRL_STATUS = 0 ∧ t = { s with regs := t.regs, integ := t.integ, deep := t.deep } ∧
          (owner = .none → t.deep = s.deep)) ∧
        (here.length = 1024 → (decodeBlock ch block here).clean = true → Gives (.readDecoded src sl raw owner) s (fun t => RegsOnly s t ∧
          Buffer t sl here ∧ getF t pg SL_CHK_CTRL_STATUS = 0 ∧ getF t pg SL_CHK_CTRL_SYMBOLS = 0)))) ∧
    (∀ (ch : Fin 64) (e : Fin 16) (v : BitVec 32), MayAct s src (remapAt ch e) →
      ((wordAt s (remapAt ch e)).getLsbD 31 = false → wordAt s (remapAt ch e) &&& 0x7F800000 = 0 → Gives (.remap src ch e v) s (fun t =>
        wordAt t (remapAt ch e) = (v &&& 0x807FFFFF) ∧ (∀ a, a ≠ remapAt ch e → wordAt t a = wordAt s a) ∧
        t = { s with regs := t.regs, integ := t.integ })) ∧
      ((wordAt s (remapAt ch e)).getLsbD 31 = true → Ignores (.remap src ch e v) s)) ∧
    (MayAct s src 0xB058 → Gives (.watchLogClear src) s (fun t => RegsOnly s t ∧ getF t pgDrone DRONE_LOG_STATUS_ENTRIES = 0 ∧
      (∀ i, i < 256 → wordAt t (0xB800 + 4 * i) = 0) ∧ ∀ a, a ≠ 0xB058 → (a < 0xB800 ∨ 0xBC00 ≤ a) → wordAt t a = wordAt s a)) ∧
    (∀ v : BitVec 32, MayAct s src 0xC048 → s.variant = .F → v ≠ wordAt s 0xC048 →
      ((∃ n, n < 64 ∧ (fnSt s n).sweep ≠ none) → Ignores (.pushArea src v) s) ∧
      ((∀ n, n < 64 → (fnSt s n).sweep = none) →
        (pushClash s (fldOf FLOOR_PUSH_AREA_PUSH_BASE v.toNat) (fldOf FLOOR_PUSH_AREA_PUSH_SIZE v.toNat) = true →
          Gives (.pushArea src v) s (fun t => Violation t 0xC048 ∧ wordAt t 0xC048 = wordAt s 0xC048)) ∧
        (pushClash s (fldOf FLOOR_PUSH_AREA_PUSH_BASE v.toNat) (fldOf FLOOR_PUSH_AREA_PUSH_SIZE v.toNat) = false →
          Gives (.pushArea src v) s (fun t => OneWord s t 0xC048 ∧
            getF t pgFloor FLOOR_PUSH_AREA_PUSH_BASE = fldOf FLOOR_PUSH_AREA_PUSH_BASE v.toNat ∧
            getF t pgFloor FLOOR_PUSH_AREA_PUSH_SIZE = fldOf FLOOR_PUSH_AREA_PUSH_SIZE v.toNat)))) ∧
    (∀ n : Fin 64, MayAct s src (pgFn n + 0x178) → n ≠ 0 →
      (actsRunning s n = false → Gives (.bugle src n) s (fun t => RegsOnly s t ∧ ∀ a, wordAt t a = wordAt s a)) ∧
      (actsRunning s n = true → Does (.bugle src n) s (fun u =>
        bugleSerial u n = (fnSt s n).step % 256 * 256 + (fnF s n FN_FIFE_STATUS_ABORTS + 1) % 256 ∧
        fnF u n FN_FIFE_STATUS_BUGLE = 1 ∧ fnF u n FN_FIFE_STATUS_CAUSE = 6)))

/-! ### Power, reset and clocks (R402 to R419) -/

/-- What power-on reset leaves (Table 15.4): the MRAM and the floor's contents, what the die has already given out, the host's side and the
queue; everything else as it is at reset. -/
def Sys2Proof.Claims.PoweredOff (s t : State) (rails : Bool) : Prop :=
  t.pending = s.pending ∧ t.pwr.phase = 3 ∧ t.pwr.rails = rails ∧ t.pwr.pll = false ∧ t.pwr.deferred = none ∧
  t.regs = [] ∧ t.fns = [] ∧ t.deep = [] ∧ t.near = [] ∧ t.cores = [] ∧ t.seals = [] ∧ t.counter = 0 ∧ t.hold = none ∧
  t.egress = [] ∧ t.nvm = retainNvm s.nvm ∧ t.floor.pages = s.floor.pages ∧ t.floor.bands = s.floor.bands ∧
  t.floor.snaps = s.floor.snaps ∧ t.floor.resume = s.floor.resume ∧ t.posted = s.posted ∧ t.sent = s.sent ∧ t.pfail = s.pfail

/-- The registers that a chip reset does not leave at their reset values (R420). -/
def Sys2Proof.Claims.resetWords : List Nat :=
  [0xE018, 0xE040, 0xE044, 0xE058, 0xE05C, 0xE060]

/-- A chip reset with cause `c` and strap word `w` has taken place (Table 15.4, R408, R410, R411): the deep tier, the near tier and each
function's retained state survive HOST, MF and MANAGEMENT; a function that was STARTING, RUNNING or DRAINING comes back FENCED; every
job function is DISABLED; the position holds what the straps say and is not VALID; every register not named in `resetWords` reads its
reset value. -/
def Sys2Proof.Claims.ChipIsReset (s t : State) (c w : Nat) : Prop :=
  let kept := decide (c ≠ 1) && decide (c ≠ 4)
  t.pending = s.pending ∧ t.pwr.phase = 0 ∧ t.pwr.deferred = none ∧ t.counter = 0 ∧ t.cores = [] ∧ t.seals = [] ∧ t.egress = [] ∧
  t.hold = none ∧ t.nvm = retainNvm s.nvm ∧ t.floor.pages = s.floor.pages ∧ t.floor.snaps = s.floor.snaps ∧ t.pfail = s.pfail ∧
  t.deep = (if kept then s.deep else []) ∧ t.near = (if kept then s.near else []) ∧
  (∀ n, n ≠ 0 → n < 64 → stateOf t n = 0) ∧
  (kept = false → t.fns = []) ∧
  (kept = true → ∀ n, (fnSt t n).manifest = (fnSt s n).manifest ∧ (fnSt t n).wheel = (fnSt s n).wheel ∧
    (fnSt t n).progs = (fnSt s n).progs ∧ (fnSt t n).step = (fnSt s n).step ∧ (fnSt t n).members = (fnSt s n).members ∧
    (fnSt t n).epoch = (fnSt s n).epoch ∧ (fnSt t n).queue = [] ∧
    (isBusyFn s n = false → (fnSt t n).role = (fnSt s n).role) ∧
    (isBusyFn s n = true → (fnSt s n).manifest ≠ none → (fnSt t n).role = 3)) ∧
  getF t pgClkpwr CLKPWR_RESET_CAUSE_CAUSE = c ∧ getF t pgClkpwr CLKPWR_RESET_CAUSE_RETAINED = (if kept then 1 else 0) ∧
  getF t pgClkpwr CLKPWR_PFAIL_LEVEL = (if s.pfail then 1 else 0) ∧
  getF t pgClkpwr CLKPWR_STRAP_WORD = w ∧ getF t pgClkpwr CLKPWR_POSITION_BOARD = w % 32 ∧
  getF t pgClkpwr CLKPWR_POSITION_PACKAGE = w / 32 % 16 ∧ getF t pgClkpwr CLKPWR_POSITION_DIE = w / 512 % 2 ∧
  positioned t = false ∧ getF t pgClkpwr CLKPWR_POSITION_STRAP_BAD = (if strapOk w then 0 else 1) ∧
  ∀ a, a ∉ resetWords → wordAt t a = resetWord s.variant a

/-- R407 to R411, R413, R418: power-on reset clears everything but the MRAM and the floor; chip reset begins at its end only with the PLL locked, the
rails good and PFAIL_N deasserted; a later reset takes effect with the cause and straps of its request, and a host's, MF's or the
management controller's request in HOLD waits for the end of Bellows or 16,000,000 ticks, while a PLL reset is never deferred. -/
def Obligations.PowerOnAndChipReset : Prop :=
  ∀ s : State, Quiet s →
    (∀ rails : Bool, Gives (.powerOnReset rails) s (fun t => PoweredOff s t rails)) ∧
    (s.pwr.phase = 3 → Gives .powerOnResetEnd s (fun t => t = { s with pwr := { s.pwr with phase := 4 } }) ∧
      ∀ c w, Ignores (.chipReset c w) s) ∧
    (s.pwr.phase ≠ 3 → Ignores .powerOnResetEnd s) ∧
    (s.pwr.phase = 4 → Gives .pllLock s (fun t => t = { s with pwr := { s.pwr with pll := true } })) ∧
    (3 ≤ s.pwr.phase → Gives .railsInRegulation s (fun t => t = { s with pwr := { s.pwr with rails := true } })) ∧
    (s.pwr.phase = 4 → ∀ (c : ResetBy) (w : BitVec 12),
      (s.pwr.pll = true → s.pwr.rails = true → s.pfail = false → Gives (.chipReset c w) s (fun t => ChipIsReset s t 1 w.toNat)) ∧
      (s.pwr.pll = false ∨ s.pwr.rails = false ∨ s.pfail = true → Ignores (.chipReset c w) s)) ∧
    (alive s = true → ∀ (c : ResetBy) (w : BitVec 12),
      (c = .pll ∨ holding s = false → Gives (.chipReset c w) s (fun t => ChipIsReset s t c.code w.toNat)) ∧
      (∀ h, s.hold = some h → h.ended = false → h.stage < 4 → c ≠ .pll → Gives (.chipReset c w) s (fun t =>
        t = { s with pwr := { s.pwr with deferred := some (c.code, w.toNat, h.since) } }))) ∧
    (alive s = true → ∀ c w since, s.pwr.deferred = some (c, w, since) → c ≤ 5 → w < 4096 →
      Gives .resetDeferralExpiry s (fun t => ChipIsReset s t c w))

/-- Nothing of the die changed but registers, the MSI-X messages and the power record. -/
def Sys2Proof.Claims.PowerOnly (s t : State) : Prop :=
  t = { s with regs := t.regs, msi := t.msi, msiLast := t.msiLast, msiPend := t.msiPend, pwr := t.pwr }

/-- A bit of the clock and power page's INT_STATUS is set, and ERR_SUMMARY.POWER of that page and of the global page (R420). -/
def Sys2Proof.Claims.PowerFlagged (t : State) (f : Fld) : Prop :=
  getF t pgClkpwr f = 1 ∧ getF t pgClkpwr HDR_ERR_SUMMARY_POWER = 1 ∧ getF t pgGlobal HDR_ERR_SUMMARY_POWER = 1

/-- R391: with no trial open and the active slot passing, the boot runs it; with the active slot failing and the other VERIFIED and passing,
it runs that one and makes it active; with neither it enters recovery. R408, R419: a deep tier that was not retained has yet to be
initialised (phase 1), a retained one not, and then the slices are powered as GATE gives. R406: a lost reference starts holdover, and its
return ends it; the end of holdover, or a frequency error, is a chip reset with cause PLL. R416: a power window reports its power, pauses
background work above SOFT_W until a window is more than 10 W below it, and sets PCAP_OVER above HARD_W; a cap of zero sets no limit. R417: a
temperature sample reports the highest reading and its sensor, and sets THERM_WARN and THERM_TRIP where it reaches the limits. -/
def Obligations.StartUpClocksAndMonitors : Prop :=
  ∀ s : State, Quiet s → alive s = true →
    (∀ ok : Bool, s.pwr.phase = 0 → s.nvm.boot.trial = none →
      (slotPasses s s.nvm.boot.active = true → s.nvm.boot.active ≤ 1 → Gives (.boot ok) s (fun t =>
        t.nvm.running = s.nvm.boot.active ∧ getF t pgNvm NVM_FW_STATUS_STAGE = 0 ∧
        getF t pgNvm NVM_FW_STATUS_RUNNING_SLOT = s.nvm.boot.active ∧ t.nvm.boot = s.nvm.boot ∧
        t.pwr.phase = (if getF s pgClkpwr CLKPWR_RESET_CAUSE_RETAINED = 1 then 2 else 1))) ∧
      (slotPasses s s.nvm.boot.active = false → s.nvm.boot.active ≤ 1 → bootState s.nvm.boot (1 - s.nvm.boot.active) ≠ 3 →
        Gives (.boot ok) s (fun t => getF t pgNvm NVM_FW_STATUS_STAGE = 7 ∧ t.nvm.boot = s.nvm.boot))) ∧
    (s.pwr.phase ≠ 0 → ∀ ok : Bool, Ignores (.boot ok) s) ∧
    (s.pwr.phase = 1 → Gives .deepTierInitDone s (fun t =>
      t = { s with regs := t.regs, cores := [], pwr := { s.pwr with phase := 2 } } ∧
      getF t pgClkpwr CLKPWR_DOMAIN_STATUS_SL = 65535 - getF s pgClkpwr CLKPWR_GATE_SL ∧ ∀ a, a ≠ 0xE050 → wordAt t a = wordAt s a)) ∧
    (s.pwr.refLostAt = none → Gives .refLost s (fun t => PowerOnly s t ∧ t.pwr = { s.pwr with refLostAt := some s.ticks } ∧
      getF t pgClkpwr CLKPWR_CLOCK_STATUS_REF_LOST = 1 ∧ getF t pgClkpwr CLKPWR_CLOCK_STATUS_HOLDOVER = 1 ∧
      PowerFlagged t CLKPWR_INT_REF_LOST ∧ ∀ a, a ∉ [0xE05C, 0xE018, 0xE014, 0x014, 0x018] → wordAt t a = wordAt s a)) ∧
    Gives .referenceReturn s (fun t => PowerOnly s t ∧ t.pwr = { s.pwr with refLostAt := none } ∧
      getF t pgClkpwr CLKPWR_CLOCK_STATUS_HOLDOVER = 0 ∧ ∀ a, a ≠ 0xE05C → wordAt t a = wordAt s a) ∧
    (∀ (bad : Bool) (w : BitVec 12), bad = true ∨ s.pwr.refLostAt ≠ none →
      Gives (.holdoverExpiry bad w) s (fun t => ChipIsReset s t 4 w.toNat)) ∧
    (∀ watts : Nat, Gives (.powerWindow watts) s (fun t =>
      PowerOnly { s with ticks := t.ticks, counter := t.counter } t ∧
      s.ticks < t.ticks ∧ t.ticks ≤ s.ticks + 800000 ∧ t.counter = (s.counter + (t.ticks - s.ticks)) % 2 ^ 64 ∧
      getF t pgClkpwr CLKPWR_MONITOR_POWER_W = min watts 511 ∧
      (let soft := getF s pgClkpwr CLKPWR_PCAP_SOFT_W
       t.pwr.paused = (decide (soft ≠ 0) && (decide (soft < watts) || (s.pwr.paused && decide (soft ≤ watts + 10))))) ∧
      (getF s pgClkpwr CLKPWR_PCAP_HARD_W ≠ 0 → getF s pgClkpwr CLKPWR_PCAP_HARD_W < watts → PowerFlagged t CLKPWR_INT_PCAP_OVER) ∧
      (getF s pgClkpwr CLKPWR_PCAP_HARD_W = 0 ∨ watts ≤ getF s pgClkpwr CLKPWR_PCAP_HARD_W → ∀ a, a ≠ 0xE06C → wordAt t a = wordAt s a))) ∧
    (∀ temp hot : BitVec 8, Gives (.thermalSample temp hot) s (fun t => PowerOnly s t ∧ t.pwr = s.pwr ∧
      getF t pgClkpwr CLKPWR_MONITOR_TEMP_C = temp.toNat ∧ getF t pgClkpwr CLKPWR_MONITOR_HOT = hot.toNat % 32 ∧
      (getF s pgClkpwr CLKPWR_TCAP_WARN_C ≤ temp.toNat → PowerFlagged t CLKPWR_INT_THERM_WARN) ∧
      (temp.toNat < getF s pgClkpwr CLKPWR_TCAP_WARN_C → getF t pgClkpwr CLKPWR_INT_THERM_WARN = getF s pgClkpwr CLKPWR_INT_THERM_WARN) ∧
      (getF s pgClkpwr CLKPWR_TCAP_TRIP_C ≤ temp.toNat → PowerFlagged t CLKPWR_INT_THERM_TRIP) ∧
      (temp.toNat < getF s pgClkpwr CLKPWR_TCAP_TRIP_C → getF t pgClkpwr CLKPWR_INT_THERM_TRIP = getF s pgClkpwr CLKPWR_INT_THERM_TRIP)))

/-! ### The Fife line and the counter (R171 to R176, R244 to R256) -/

/-- The die is up and the receiver, in LOCKED between messages, meets a good frame whose plaintext is `p` (R248, R250). -/
structure Sys2Proof.Claims.GoodFrame (s : State) (w : BitVec 64) (p : Nat) : Prop where
  up : alive s = true
  quiet : Quiet s
  locked : lineState s = 4
  sync : syncOk w.toNat = true
  plain : linePayload w.toNat ^^^ keystream s.line.rxFc = p
  place : reservedOk s.line.hubPhase s.line.rxFc p = true
  zeros : zeroOk p = true
  between : s.line.rx = none

/-- What every good frame in LOCKED does to the receiver: its count moves on, and no bad frame stands before it. -/
def Sys2Proof.Claims.heard (s : State) : LineSt := { s.line with rxFc := (s.line.rxFc + 1) % 65536, bad := 0 }

/-- Nothing changed but registers and the line's record. -/
def Sys2Proof.Claims.LineOnly (s t : State) : Prop := t = { s with regs := t.regs, line := t.line }

/-- R248, Table 9.9: the receiver goes from HUNT to CONFIRM at a frame with SYNC and a valid CHECK, from CONFIRM to ACQUIRE at the eighth good
frame, from ACQUIRE to LOCKED at a marker that continues one of 64 frames before, and back to HUNT at a bad frame; in LOCKED the fourth
consecutive bad frame loses the lock. R249: a hunt without lock ends in FIFE_DOWN, a new one starts a second later, and RETRAIN starts one
now. -/
def Obligations.LineFindsAndLosesLock : Prop :=
  ∀ (s : State) (w : BitVec 64) (fails : List Nat), alive s = true → Quiet s →
    (lineState s = 1 → (syncOk w.toNat = true → Gives (.frame w fails) s (fun t => LineOnly s t ∧ lineState t = 2 ∧ t.line.confirm = 1)) ∧
      (syncOk w.toNat = false → Ignores (.frame w fails) s)) ∧
    (lineState s = 2 → syncOk w.toNat = true →
      (s.line.confirm < 7 → Gives (.frame w fails) s (fun t => t = { s with line := { s.line with confirm := s.line.confirm + 1 } })) ∧
      (7 ≤ s.line.confirm → Gives (.frame w fails) s (fun t => LineOnly s t ∧ lineState t = 3))) ∧
    (lineState s = 2 ∨ lineState s = 3 → syncOk w.toNat = false → Gives (.frame w fails) s (fun t => lineState t = 1 ∧
      getF t pgFife FIFE_COUNT_BAD_FRAMES = min 0xFFFF (getF s pgFife FIFE_COUNT_BAD_FRAMES + 1))) ∧
    (∀ f, lineState s = 3 → syncOk w.toNat = true → markerFc w.toNat = some f →
      s.line.marks.any (fun q => decide (q.1 + 64 = s.line.acquire) && decide ((q.2 + 64) % 65536 = f)) = true →
      Gives (.frame w fails) s (fun t => LineOnly s t ∧ lineState t = 4 ∧ t.line.rxFc = (f + 1) % 65536)) ∧
    (lineState s = 4 → syncOk w.toNat = false → anyBusy s = false →
      (s.line.bad < 3 → Gives (.frame w fails) s (fun t => lineState t = 4 ∧ t.line.bad = s.line.bad + 1 ∧ t.line.rx = none ∧
        getF t pgFife FIFE_COUNT_BAD_FRAMES = min 0xFFFF (getF s pgFife FIFE_COUNT_BAD_FRAMES + 1))) ∧
      (3 ≤ s.line.bad → Gives (.frame w fails) s (fun t => lineState t = 1 ∧ getF t pgFife FIFE_STATUS_LOCK_LOST = 1 ∧
        getF t pgFife FIFE_COUNT_LOCK_LOSSES = min 0xFF (getF s pgFife FIFE_COUNT_LOCK_LOSSES + 1) ∧ t.line.huntSince = s.ticks))) ∧
    (1 ≤ lineState s → lineState s ≤ 3 → anyBusy s = false → Gives .huntExpiry s (fun t => lineState t = 5 ∧
      t.ticks = max s.ticks (s.line.huntSince + 40000000) ∧ t.line.downSince = some t.ticks)) ∧
    (∀ d, lineState s = 5 → s.line.downSince = some d → Gives .huntRetry s (fun t => lineState t = 1 ∧
      t.ticks = max s.ticks (d + 800000000) ∧ t.line.huntSince = t.ticks ∧ t.line.downSince = none)) ∧
    (∀ src, Reaches s src → mayWrite src 0xA040 = true → pageLocked s 0xA040 = false → anyBusy s = false →
      Gives (.retrain src) s (fun t => LineOnly s t ∧ lineState t = 1 ∧ t.line.huntSince = s.ticks ∧ t.line.rx = none ∧
        ∀ a, a ≠ 0xA044 → wordAt t a = wordAt s a))

/-- Table 9.11: PHASE frames of the hub. R253: the sixteen echoes of a launch keep the shortest round trip, and the LOW half of a BEACON loads
the counter with V + LINE_DELAY + 4. R254: a HEARTBEAT reports the drift and its alarm (with the receive path's 4 ticks as log entry 37
reads them, the model's choice). R256: TEST frames. -/
def Obligations.FramesOfTheHub : Prop :=
  ∀ (s : State) (w : BitVec 64) (p : Nat) (fails : List Nat), GoodFrame s w p →
    (pKind p = 9 → anyBusy s = false → s.pfail = false →
      (linePhase s = 0 → Gives (.phase w fails) s (fun t => LineOnly s t ∧ t.line.hubPhase = some (bits p 35 34) ∧
        linePhase t = (if bits p 35 34 = 1 then 1 else if bits p 35 34 = 3 ∧ getF s pgFife FIFE_CTRL_TEST_ENABLE = 1 then 3 else 0))) ∧
      (linePhase s = 1 → Gives (.phase w fails) s (fun t => LineOnly s t ∧ linePhase t = (if bits p 35 34 = 0 then 0 else 1))) ∧
      (∀ h, linePhase s = 2 → s.hold = some h → h.ended = true → bits p 35 34 ≤ 1 → Gives (.phase w fails) s (fun t =>
        LineOnly { s with hold := none } t ∧ linePhase t = bits p 35 34)) ∧
      (linePhase s = 3 → Gives (.phase w fails) s (fun t => LineOnly s t ∧ linePhase t = (if bits p 35 34 = 0 then 0 else 3)))) ∧
    (pKind p = 9 → linePhase s = 1 → (∃ n, 0 < n ∧ n < 64 ∧ (stateOf s n = 2 ∨ stateOf s n = 3)) →
      Gives (.phase w fails) s (fun t => linePhase t = 1 ∧ t = { s with line := t.line })) ∧
    (∀ q t0, pKind p = 0xB → linePhase s = 0 → s.line.launch = some q → q.leftAt = some t0 → q.echo = bits p 7 0 → q.echo < 16 →
      Gives (.echoRsp w fails) s (fun t => LineOnly s t ∧ (∀ a, wordAt t a = wordAt s a) ∧
        t.line.launch = some { q with echo := q.echo + 1, leftAt := none, best := some (match q.best with
          | some b => min b (s.ticks - t0)
          | none => s.ticks - t0) })) ∧
    (pKind p = 0xC → linePhase s = 0 → pSub p = 0 → Gives (.beacon w fails) s (fun t =>
      t = { s with line := { heard s with high := some (pData p) } })) ∧
    (∀ h q b, pKind p = 0xC → linePhase s = 0 → pSub p = 1 → s.line.high = some h → s.line.launch = some q → q.best = some b →
      q.echo = 16 → 128 ≤ b → Gives (.beacon w fails) s (fun t =>
        t.counter = (h * 2 ^ 32 + pData p + (b - 128 + 1) / 2 + 4) % 2 ^ 64 ∧ t.ticks = s.ticks + 4 ∧
        getF t pgWheel WHEEL_STATUS_COUNTER_STATE = 2 ∧ getF t pgWheel WHEEL_STATUS_LINE_DELAY = min ((b - 128 + 1) / 2) 255 ∧
        t.line.launch = none ∧ t.line.delay = (b - 128 + 1) / 2)) ∧
    (pKind p = 8 → linePhase s = 1 → Gives (.heartbeat w fails) s (fun t =>
      let d : Int := signed 32 (unsigned 32 ((s.counter : Int) - s.line.delay - pData p))
      getF t pgFife FIFE_STATUS_DRIFT = unsigned 8 (max (-127) (min 127 d)) ∧
      (getF s pgFife FIFE_CTRL_DRIFT_LIMIT ≠ 0 → getF s pgFife FIFE_CTRL_DRIFT_LIMIT < d.natAbs →
        getF t pgFife FIFE_STATUS_DRIFT_ALARM = 1) ∧
      (getF s pgFife FIFE_CTRL_DRIFT_LIMIT = 0 ∨ d.natAbs ≤ getF s pgFife FIFE_CTRL_DRIFT_LIMIT → LineOnly s t ∧
        getF t pgFife FIFE_STATUS_DRIFT_ALARM = getF s pgFife FIFE_STATUS_DRIFT_ALARM))) ∧
    (pKind p = 0xF → linePhase s = 3 →
      (pSub p = 0 → Gives (.testLoop w fails) s (fun t => LineOnly s t ∧ (∀ a, wordAt t a = wordAt s a) ∧
        t.line.single = s.line.single ++ [0xF * 2 ^ 36 + pData p])) ∧
      (pSub p = 1 → Gives (.testPattern w fails) s (fun t => LineOnly s t ∧ t.line.pattern = some (pData p) ∧
        ∀ b, s.line.pattern = some b → getF t pgFife FIFE_TEST_ERRORS =
          (if (b + 1) % 2 ^ 32 = pData p then getF s pgFife FIFE_TEST_ERRORS else min 0xFFFFFFFF (getF s pgFife FIFE_TEST_ERRORS + 1)))) ∧
      (pSub p = 2 → Gives (.testScan w fails) s (fun t => LineOnly s t ∧ getF t pgFife FIFE_SCAN_SCAN = pData p ∧
        t.line.single = s.line.single ++ [0xF * 2 ^ 36 + 2 * 2 ^ 32 + getF s pgFife FIFE_SCAN_SCAN])))

/-- R245 and R247: at a frame boundary the transmitter sends the frame of its count: the marker, the PHASE frame, the HEARTBEAT with the low
half of its counter in RUN, or a free one. R251: a message without an ACK is sent again and counted, and after 15 repeats the receiver is
forced into HUNT. R174 to R176: LAUNCH asks for the first echo, a launch without a beacon ends after 80,000,000 ticks with the state before
it, SET loads COUNTER_SET, ADJ adds to PENDING within ±32,767, and R173: a guard slot applies at most LEN / 256 ticks of PENDING at its first
tick. R196: LEN_LOG2 takes 8 to 12, and is locked while a function is RUNNING or DRAINING. -/
def Obligations.FramesSentAndTheCounter : Prop :=
  ∀ s : State, alive s = true → Quiet s →
    (s.ticks ≤ s.line.txAt → Gives .frameTransmit s (fun t => t.ticks = s.line.txAt ∧ t.line.txFc = (s.line.txFc + 1) % 65536 ∧
      t.line.txAt = s.line.txAt + 8 ∧ ∃ p, t.line.sent = s.line.sent ++ [lineFrame s.line.txFc p] ∧
        (s.line.txFc % 64 = 0 → p = 0) ∧
        (s.line.txFc % 64 = 1 → p = 0x9 * 2 ^ 36 + linePhase s * 2 ^ 34) ∧
        (s.line.txFc % 1024 = 32 → p = (if linePhase s = 1 then 0x8 * 2 ^ 36 + t.counter % 2 ^ 32 else 0)) ∧
        (reservedFc s.line.txFc = false → s.lineOut = [] → s.hold = none → p = s.line.single.head?.getD 0))) ∧
    (∀ (m : LineMsg) (d : Nat), m ∈ s.lineOut → m.due = some d →
      (∀ q ∈ s.lineOut, q ≠ m → ∀ e, q.due = some e → d < e) →
      (m.repeats < 15 → Gives .messageRepeat s (fun t => t.ticks = max s.ticks d ∧
        t.lineOut = s.lineOut.map (fun q => if q = m then { m with next := 0, due := none, repeats := m.repeats + 1 } else q) ∧
        getF t pgFife FIFE_COUNT_REPEATS = min 0xFF (getF s pgFife FIFE_COUNT_REPEATS + 1))) ∧
      (15 ≤ m.repeats → lineState s = 4 → anyBusy s = false → Gives .messageRepeat s (fun t => lineState t = 1 ∧
        t.lineOut = s.lineOut.erase m ∧ getF t pgFife FIFE_STATUS_LOCK_LOST = 1))) ∧
    (∀ q, s.line.launch = some q → q.before < 4 → Gives .launchTimeout s (fun t => t.ticks = max s.ticks (q.since + 80000000) ∧
      t.line.launch = none ∧ t.line.delay = s.line.delay ∧ getF t pgWheel WHEEL_STATUS_LAUNCH_FAIL = 1 ∧
      getF t pgWheel WHEEL_STATUS_COUNTER_STATE = q.before ∧ getF t pgWheel WHEEL_STATUS_LINE_DELAY = getF s pgWheel WHEEL_STATUS_LINE_DELAY)) ∧
    (let q : Int := signed 16 (getF s pgWheel WHEEL_COUNTER_ADJ_PENDING)
     let turn := wheelLen s * 32
     let g := if s.counter % turn ≤ turn - 32 then s.counter / turn * turn + (turn - 32) else s.counter / turn * turn + (2 * turn - 32)
     let a := min q.natAbs (wheelLen s / 256)
     q ≠ 0 → g + 32 < 2 ^ 64 → (∀ n, n < 64 → n ≠ 0 → stateOf s n ≠ 2) → Gives .counterCorrection s (fun t => RegsOnly { s with ticks := t.ticks, counter := t.counter } t ∧
       t.counter = (if 0 < q then g + 1 + a else g + 1) ∧
       t.ticks = (if 0 < q then s.ticks + (g - s.counter) + 1 else s.ticks + (g - s.counter) + a + 1) ∧
       signed 16 (getF t pgWheel WHEEL_COUNTER_ADJ_PENDING) = (if 0 < q then q - a else q + a))) ∧
    (∀ src, Reaches s src → mayWrite src 0x8040 = true → pageLocked s 0x8040 = false →
      (anyBusy s = false → positioned s = true → lineState s = 4 → linePhase s = 0 → getF s pgWheel WHEEL_STATUS_COUNTER_STATE ≠ 1 →
        Gives (.launch src) s (fun t => LineOnly s t ∧ getF t pgWheel WHEEL_STATUS_COUNTER_STATE = 1 ∧
          t.line.single = s.line.single ++ [0xA * 2 ^ 36] ∧ ∃ q, t.line.launch = some q ∧ q.since = s.ticks ∧ q.echo = 0 ∧
            q.before = getF s pgWheel WHEEL_STATUS_COUNTER_STATE)) ∧
      (anyBusy s = false → positioned s = true → Gives (.setCounter src) s (fun t => t.ticks = s.ticks + 1 ∧
        t.counter = pair (wordAt s 0x8050) (wordAt s 0x8054) ∧ getF t pgWheel WHEEL_STATUS_COUNTER_STATE = 3 ∧ t.line.launch = none)) ∧
      (∀ v : Fin 16, 8 ≤ v.val → v.val ≤ 12 → (∀ n, n < 64 → n ≠ 0 → stateOf s n ≠ 2 ∧ stateOf s n ≠ 3) →
        Gives (.lenLog2 src v) s (fun t => RegsOnly s t ∧ getF t pgWheel WHEEL_CTRL_LEN_LOG2 = v.val ∧
          ∀ a, a ≠ 0x8040 → wordAt t a = wordAt s a)) ∧
      (∀ (v : Fin 16) (n : Nat), v.val ≠ getF s pgWheel WHEEL_CTRL_LEN_LOG2 → 0 < n → n < 64 → stateOf s n = 2 ∨ stateOf s n = 3 →
        Gives (.lenLog2 src v) s (fun t => Violation t 0x8040 ∧ getF t pgWheel WHEEL_CTRL_LEN_LOG2 = getF s pgWheel WHEEL_CTRL_LEN_LOG2))) ∧
    (∀ (src : Source) (v : BitVec 16), Reaches s src → mayWrite src 0x8058 = true → pageLocked s 0x8058 = false →
      Gives (.adj src v) s (fun t => RegsOnly s t ∧ (∀ a, a ≠ 0x8058 → wordAt t a = wordAt s a) ∧
        signed 16 (getF t pgWheel WHEEL_COUNTER_ADJ_PENDING) =
          max (-32767) (min 32767 (signed 16 (getF s pgWheel WHEEL_COUNTER_ADJ_PENDING) + signed 16 v.toNat))))

/-! ### HOLD and Bellows (R252, R255, R316, R318, R413) -/

/-- HOLD has begun, from phase `before`, and its stage STOPPED is reached and reported on the line (Table 9.10, Table 9.11). -/
def Sys2Proof.Claims.HoldBegun (s t : State) (before : Nat) : Prop :=
  t.hold = some ⟨s.ticks, before, 1, none, false, false, []⟩ ∧ linePhase t = 2 ∧ t.pushes = [] ∧
  t.line.single = s.line.single ++ [0xE * 2 ^ 36 + 2 ^ 32] ∧ t.line.bellIn = 64

/-- A Bellows stage is reached and reported on the line. -/
def Sys2Proof.Claims.StageReached (s t : State) (h : HoldPhase) (stage : Nat) : Prop :=
  t.hold = some { h with stage := stage } ∧ t.line.single = s.line.single ++ [0xE * 2 ^ 36 + stage * 2 ^ 32] ∧ t.line.bellIn = 64

/-- On a die with no function STARTING, RUNNING or DRAINING and no sweep: PFAIL_N (R413) and POWER WARN (Table 9.11) begin HOLD from LAUNCH and RUN,
and PFAIL_N is reported in its register and interrupt. R316: DELTAS is reached once every registered delta is sent and no slot write stands
open, and Lyith-C is then DONE (R255); JOURNAL once every floor program in flight has completed; DONE after it. R318: POWER CANCEL with PFAIL_N
deasserted ends the hold, and so do 8,000,000 ticks of a deasserted PFAIL_N while the line is FIFE_DOWN, which also restores the phase. -/
def Obligations.HoldAndBellows : Prop :=
  ∀ (s : State) (fails : List Nat), alive s = true → Quiet s → anyBusy s = false → (∀ n, (fnSt s n).sweep = none) →
    (s.pfail = true → Ignores .pfailAssert s) ∧
    (s.pfail = false → s.hold = none → linePhase s ≤ 1 → Gives .pfailAssert s (fun t => HoldBegun s t (linePhase s) ∧ t.pfail = true ∧
      getF t pgClkpwr CLKPWR_PFAIL_LEVEL = 1 ∧ getF t pgClkpwr CLKPWR_PFAIL_ASSERTED = 1 ∧
      getF t pgClkpwr CLKPWR_PFAIL_COUNT = min 0xFFFF (getF s pgClkpwr CLKPWR_PFAIL_COUNT + 1) ∧ PowerFlagged t CLKPWR_INT_PFAIL)) ∧
    (∀ w p, GoodFrame s w p → pKind p = 0xD → pSub p = 1 → s.hold = none → linePhase s ≤ 1 →
      Gives (.powerWarn w fails) s (fun t => HoldBegun s t (linePhase s))) ∧
    (∀ h : HoldPhase, s.hold = some h → h.ended = false →
      (h.stage = 1 → s.deepWrites = [] → (∀ x ∈ s.waits, x.sent = true ∨ x.kind ≠ .state) →
        (s.variant = .F → Gives .bellowsDeltas s (fun t => StageReached s t h 2 ∧ t = { s with hold := t.hold, line := t.line })) ∧
        (s.variant = .C → s.pwr.deferred = none → Gives .bellowsDeltas s (fun t => t.hold = some { h with stage := 4 } ∧
          t.line.single = s.line.single ++ [0xE * 2 ^ 36 + 2 * 2 ^ 32, 0xE * 2 ^ 36 + 4 * 2 ^ 32]))) ∧
      (h.stage = 1 → (s.deepWrites ≠ [] ∨ ∃ x ∈ s.waits, x.sent = false ∧ x.kind = .state) → Ignores .bellowsDeltas s) ∧
      (h.stage = 2 → s.variant = .F → s.floor.flights = [] → Gives (.bellowsJournal fails) s (fun t => StageReached s t h 3 ∧
        (floorReady s = false → t.floor = s.floor))) ∧
      (h.stage = 2 → s.floor.flights ≠ [] → Ignores (.bellowsJournal fails) s) ∧
      (h.stage = 3 → s.pwr.deferred = none → Gives (.bellowsDone fails) s (fun t => StageReached s t h 4)) ∧
      (∀ c w since, h.stage = 3 → s.pwr.deferred = some (c, w, since) → floorReady s = false → w < 4096 → c ≤ 5 →
        Gives (.bellowsDone fails) s (fun t => ChipIsReset s t c w))) ∧
    (s.pfail = false → Ignores (.pfailDeassert fails) s) ∧
    (∀ h : HoldPhase, s.pfail = true → s.hold = some h → h.ended = false → h.barriers = [] →
      (lineState s = 5 → h.before ≤ 3 → Gives (.pfailDeassert fails) s (fun t => t.pfail = false ∧ t.hold = none ∧ linePhase t = h.before ∧
        t.ticks = max s.ticks (h.calmAt.getD s.ticks + 8000000) ∧ getF t pgClkpwr CLKPWR_PFAIL_LEVEL = 0)) ∧
      (lineState s ≠ 5 → h.cancel = false → Gives (.pfailDeassert fails) s (fun t => t.pfail = false ∧
        t.hold = some { h with calmAt := some (h.calmAt.getD s.ticks) } ∧ getF t pgClkpwr CLKPWR_PFAIL_LEVEL = 0))) ∧
    (∀ h w p, GoodFrame s w p → pKind p = 0xD → pSub p = 2 → linePhase s = 2 → s.hold = some h → h.ended = false → h.barriers = [] →
      (s.pfail = false → Gives (.powerCancel w fails) s (fun t => linePhase t = 2 ∧
        t.hold = some { h with ended := true, cancel := false, barriers := [] })) ∧
      (s.pfail = true → Gives (.powerCancel w fails) s (fun t => t.hold = some { h with cancel := true })))

/-! ### Functions: start, stop, reset, enable, drain (R353 to R365, R57) -/

/-- Nothing of the die changed but registers, what the functions keep, MSI-X messages, and writes to host memory. -/
def Sys2Proof.Claims.FnOnly (s t : State) : Prop :=
  t = { s with regs := t.regs, fns := t.fns, msi := t.msi, msiLast := t.msiLast, msiPend := t.msiPend, posted := t.posted, rwl := t.rwl,
               inForce := t.inForce, latch := t.latch, nvm := t.nvm }

/-- A START's restart: everything staged is in force and shown (R12, R32). -/
def Sys2Proof.Claims.restarted (s : State) (n : Nat) : State := showRoute (showImages (applyStaged s n false) n) n

/-- R358: START of FN0, of a DISABLED or RUNNING function, and of one already STARTING, does nothing; of a DRAINING function it writes
START_STATUS 0; of a STOPPED function it writes the code of the first test of Table 13.3 that fails and the function stays STOPPED, and
where none fails and areas are to be formatted it writes START_STATUS STARTING and FORMATTING. R57: FORMAT_COMPLETE ends formatting. R359: a STOP of a RUNNING function arms a stop at the step
seal of the current step; of a STARTING one it cancels the restart. R362: a function reset makes a STOPPED or RUNNING function DRAINING,
restarts a drain in progress and counts it, does nothing to a DISABLED function, and of FN0 clears its page. R363, R365: the end of a
drain makes the function STOPPED, or DISABLED where TARGET says so, with no command left; a forced one takes place 100 ms after the
drain's start and sets DRAIN_FORCED. -/
def Obligations.FunctionsStartStopAndDrain : Prop :=
  ∀ (s : State) (src : Source) (n : Fin 64),
    (Reaches s src → mayWrite src (pgFn n + 0x040) = true →
      (n = 0 ∨ stateOf s n = 0 ∨ stateOf s n = 2 ∨ isStarting s n = true → Ignores (.start src n) s) ∧
      (n ≠ 0 → stateOf s n = 3 → Gives (.start src n) s (fun t => OneWord s t (pgFn n + 0x044) ∧ fnF t n FN_STATE_START_STATUS = 0 ∧
        stateOf t n = 3)) ∧
      (n ≠ 0 → stateOf s n = 1 → isStarting s n = false → fnF s n FN_STATE_STATUS_PENDING = 0 →
        let r := restarted s n
        let x := restartRecord r (fnSt r n)
        (∀ code b, (restartTests r n (fnSt s n) x false).find? (fun q => q.2) = some (code, b) →
          Gives (.start src n) s (fun t => fnF t n FN_STATE_START_STATUS = code ∧ stateOf t n = 1 ∧ (fnSt t n).staged = none ∧
            (fnSt t n).manifest = x.manifest)) ∧
        ((restartTests r n (fnSt s n) x false).find? (fun q => q.2) = none → ∀ m g, x.manifest = some m → grpOf x = some g → x.role = 1 →
          formatDue x.fmtKey (keyFor m g) ≠ 0 →
          Does (.start src n) s (fun u => isStarting u n = true ∧ fnF u n FN_CODE_STATUS_FORMATTING = 1 ∧ (fnSt u n).formatting = true ∧
            (fnSt u n).step = (if x.fresh then m.startStep + 1 else x.step)))) ∧
      (n ≠ 0 → stateOf s n = 2 → (fnSt s n).stop = none → Gives (.stop n (.register src)) s (fun t =>
        t = { s with regs := t.regs, fns := t.fns } ∧ (fnSt t n).stop = some ⟨(fnSt s n).step, none⟩ ∧ fnF t n FN_STATE_STOP_ARMED = 1 ∧
        stateOf t n = 2 ∧ ∀ a, a ≠ pgFn n + 0x044 → wordAt t a = wordAt s a)) ∧
      (n ≠ 0 → stateOf s n = 0 ∨ stateOf s n = 3 ∨ (stateOf s n = 1 ∧ isStarting s n = false) → Ignores (.stop n (.register src)) s) ∧
      (n ≠ 0 → isStarting s n = true → Does (.stop n (.register src)) s (fun u => stateOf u n = 1 ∧ fnF u n FN_STATE_START_STATUS = 3 ∧
        (fnSt u n).formatting = false ∧ (fnSt u n).loadPass = false ∧ (fnSt u n).cancelled = true)) ∧
      (n ≠ 0 → stateOf s n = 1 ∨ stateOf s n = 2 → Does (.reset src n) s (fun u => stateOf u n = 3 ∧ fnF u n FN_STATE_TARGET = 0 ∧
        (fnSt u n).drain = some ⟨true, s.ticks⟩)) ∧
      (n ≠ 0 → stateOf s n = 0 → Ignores (.reset src n) s)) ∧
    (alive s = true → Quiet s →
      (n ≠ 0 → stateOf s n = 1 ∨ stateOf s n = 2 → Does (.functionLevelReset n) s (fun u => stateOf u n = 3 ∧
        fnF u n FN_STATE_TARGET = 0 ∧ (fnSt u n).drain = some ⟨true, s.ticks⟩)) ∧
      (n ≠ 0 → stateOf s n = 0 → Ignores (.functionLevelReset n) s) ∧
      (n ≠ 0 → stateOf s n = 3 → Gives (.functionLevelReset n) s (fun t => t = { s with regs := t.regs, fns := t.fns } ∧
        stateOf t n = 3 ∧ fnF t n FN_STATE_DRAINS = min (fnF s n FN_STATE_DRAINS + 1) 255 ∧
        (fnSt t n).drain = some ⟨true, s.ticks⟩ ∧ ∀ a, a ≠ pgFn n + 0x044 → wordAt t a = wordAt s a)) ∧
      (n = 0 → (fnSt s 0).bg = [] → Gives (.functionLevelReset n) s (fun t => FnOnly s t ∧ (fnSt t 0).queue = [] ∧
        (∀ a, a / 4096 = 0x20 → wordAt t a = resetWord s.variant a) ∧ ∀ a, a / 4096 ≠ 0x20 → wordAt t a = wordAt s a)) ∧
      (n ≠ 0 → stateOf s n = 3 → (fnSt s n).drain ≠ none → s.egress.any (fun p => packetOf s n p && decide (hTc p = 1)) = false →
        ∀ imgs, Does (.drainComplete n imgs) s (fun u => stateOf u n = (if fnF s n FN_STATE_TARGET = 1 then 0 else 1) ∧
          (fnSt u n).drain = none ∧ (fnSt u n).bg = [] ∧ (fnSt u n).queue = [])) ∧
      (stateOf s n ≠ 3 → ∀ imgs, Ignores (.drainComplete n imgs) s) ∧
      (n ≠ 0 → stateOf s n = 3 → ∀ d, (fnSt s n).drain = some d → Does (.drainForced n) s (fun u =>
        stateOf u n = (if fnF s n FN_STATE_TARGET = 1 then 0 else 1) ∧ (fnSt u n).drain = none ∧ (fnSt u n).bg = [] ∧
        (fnSt u n).queue = [] ∧ fnF u n FN_STATE_DRAIN_FORCED = 1 ∧ u.ticks = max s.ticks (d.since + 80000000))) ∧
      ((fnSt s n).drain = none → Ignores (.drainForced n) s) ∧
      ((fnSt s n).formatting = false → Ignores (.formatComplete n) s) ∧
      (n ≠ 0 → isStarting s n = true → (fnSt s n).formatting = true → ∀ m g, (fnSt s n).manifest = some m → grpOf (fnSt s n) = some g →
        (fnSt s n).role = 1 → (fnSt s n).wheel ≠ none → (fnSt s n).loads ≠ [] → forceF s n FN_WHEEL_CTRL_START_MODE = 1 →
        startPast s n = false →
        Does (.formatComplete n) s (fun u => (fnSt u n).fmtKey = some (keyFor m g) ∧ (fnSt u n).formatting = false ∧
          fnF u n FN_CODE_STATUS_FORMATTING = 0 ∧ isStarting u n = true ∧ (fnSt u n).loadPass = true ∧
          (fnSt u n).passFrom = some (startValue s n))))

/-- R353, R357: a 1 in a function's enable bit makes a DISABLED function STOPPED where the endpoint enables its virtual function, and a drain
whose target is DISABLED end STOPPED; a 0 makes a STOPPED function DISABLED and disarms its post box, a RUNNING one DRAINING with target
DISABLED, and a drain end DISABLED. A fall of NumVFs does the same to the functions that it takes away. -/
def Obligations.EnableBitsAndVirtualFunctions : Prop :=
  ∀ (s : State) (src : Source) (n : Fin 64),
    (n ≠ 0 → MayAct s src (0x040 + 4 * (n.val / 32)) → mayEnable s = true →
      (enabled s n = true → Ignores (.enableBitSet src n) s) ∧
      (enabled s n = false → s.vfs < n.val → Gives (.enableBitSet src n) s (fun t => RegsOnly s t ∧ enabled t n = true ∧
        (∀ k, k < 64 → k ≠ n.val → enabled t k = enabled s k) ∧ ∀ a, a ≠ 0x040 + 4 * (n.val / 32) → wordAt t a = wordAt s a)) ∧
      (enabled s n = false → n.val ≤ s.vfs → stateOf s n = 0 → Does (.enableBitSet src n) s (fun u => enabled u n = true ∧ stateOf u n = 1 ∧
        fnF u n FN_INT_STATE_CHANGE = 1)) ∧
      (enabled s n = false → n.val ≤ s.vfs → stateOf s n = 3 → fnF s n FN_STATE_TARGET = 1 → Gives (.enableBitSet src n) s (fun t =>
        RegsOnly s t ∧ enabled t n = true ∧ stateOf t n = 3 ∧ fnF t n FN_STATE_TARGET = 0 ∧ fnF t n FN_STATE_ENABLE_PENDING = 1)) ∧
      (enabled s n = false → Ignores (.enableBitClear src n) s) ∧
      (enabled s n = true → stateOf s n = 1 → isStarting s n = false → Does (.enableBitClear src n) s (fun u => enabled u n = false ∧
        stateOf u n = 0 ∧ fnF u n FN_PB_CTRL_ARM = 0 ∧ fnF u n FN_INT_STATE_CHANGE = 1)) ∧
      (enabled s n = true → stateOf s n = 2 → Does (.enableBitClear src n) s (fun u => enabled u n = false ∧ stateOf u n = 3 ∧
        fnF u n FN_STATE_TARGET = 1)) ∧
      (enabled s n = true → stateOf s n = 3 → Gives (.enableBitClear src n) s (fun t => RegsOnly s t ∧ enabled t n = false ∧
        stateOf t n = 3 ∧ fnF t n FN_STATE_TARGET = 1 ∧ fnF t n FN_STATE_ENABLE_PENDING = 0))) ∧
    (alive s = true → Quiet s → ∀ k : Fin 64,
      (s.vfs ≤ k.val → Gives (.vfEnableChange k) s (fun t => t = { s with vfs := k.val })) ∧
      (k.val < s.vfs → s.vfs < 64 → mayEnable s = true → (∀ j, k.val < j → j ≤ s.vfs → stateOf s j = 1 ∧ isStarting s j = false) →
        Does (.vfEnableChange k) s (fun u => u.vfs = k.val ∧ ∀ j, k.val < j → j ≤ s.vfs → stateOf u j = 0 ∧ enabled u j = false ∧
          fnF u j FN_PB_CTRL_ARM = 0)))

/-! ### The post box (R367 to R373) -/

/-- A completion entry of function `n` as it stands in its ring (Table 13.9, R369). -/
def Sys2Proof.Claims.cplEntry (s : State) (n : Nat) (c : Cpl) : HostWrite :=
  ⟨n, ringBase s n 0x058 0x05C + 16 * (fnF s n FN_CPL_HEAD_HEAD % 64), cplBytes c (fnF s n FN_CPL_HEAD_HEAD + 1)⟩

/-- From `s` to `u` the completion of entry `e` with status `st` and DETAIL `d` was posted behind the writes `wrote`, CPL_HEAD moved on and CPL of
INT_STATUS is set. -/
structure Sys2Proof.Claims.Completed (s u : State) (n : Nat) (e : List Byte) (st d : Nat) (wrote : List HostWrite) : Prop where
  posted : u.posted = s.posted ++ wrote ++ [cplEntry s n ⟨eTag e, eOp e, st, d⟩]
  head : fnF u n FN_CPL_HEAD_HEAD = (fnF s n FN_CPL_HEAD_HEAD + 1) % 2 ^ 32
  int : fnF u n FN_INT_CPL = 1

/-- A foreground command has ended: its completion is posted, what the die keeps for the function is now `x`, and beside registers,
messages and the writes `wrote` to host memory nothing of the die changed. -/
structure Sys2Proof.Claims.Answered (s u : State) (n : Nat) (e : List Byte) (st d : Nat) (wrote : List HostWrite) (x : FnSt) : Prop where
  done : Completed s u n e st d wrote
  fn : fnSt u n = x
  others : ∀ k, k ≠ n → fnSt u k = fnSt s k
  only : u = { s with regs := u.regs, fns := u.fns, posted := u.posted, msi := u.msi, msiLast := u.msiLast, msiPend := u.msiPend }

/-- The function's armed box has entry `e`, of opcode `op`, as its next command, and no command behind it that only waits to complete
OPCODE. In HOLD the commands of the MRAM would wait (R386). -/
structure Sys2Proof.Claims.Takes (s : State) (n op : Nat) (e : List Byte) (rest : List (List Byte)) : Prop where
  up : alive s = true
  quiet : Quiet s
  armed : armed s n = true
  host : s.hostDown = false
  runs : op < 0x30 ∨ holding s = false
  queue : (fnSt s n).queue = e :: rest
  opcode : eOp e = op
  next : ∀ e', rest.head? = some e' → knownOps.contains (eOp e') = true

/-- The commands of the post box by opcode. -/
def Sys2Proof.Claims.boxCommands (n : Fin 64) (b : HostRead) (room : Bool) (fails : List Nat) : List (Nat × Instr) :=
  [(0x01, .loadManifest n b), (0x02, .loadPrograms n b), (0x03, .loadWheel n b), (0x04, .loadLeaves n b), (0x05, .migrate n),
   (0x06, .verifyRows n), (0x07, .setOwnership n b), (0x08, .routeLoad n b), (0x09, .routeStage n b), (0x0A, .saveContext n),
   (0x0B, .restoreContext n b), (0x0C, .stop n .command), (0x10, .fifeCollective n b), (0x11, .declareFailed n room), (0x12, .evacuate n room),
   (0x13, .rejoin n), (0x14, .contract n b), (0x15, .reshard n b), (0x18, .snapshot n), (0x19, .floorFormat n fails), (0x1A, .floorList n),
   (0x1B, .reload n b), (0x20, .clearRemap n), (0x28, .twinReport n), (0x30, .nvmStore n), (0x31, .nvmClear n), (0x32, .logRead n),
   (0x33, .fwDownload n b), (0x34, .fwVerify n), (0x35, .fwActivate n), (0x36, .fwConfirm n), (0x37, .fwAbandon n), (0x38, .keyAdd n b),
   (0x39, .keyRevoke n)]

/-- R367, R368, R370, R372, R386: the 0 to 1 transition of ARM sets CMD_TAIL to CMD_HEAD, except in the box of a DISABLED function; ARM 0 and a dead
host link stop the box. A doorbell within the free entries moves CMD_TAIL, another only sets DOORBELL_BAD. A fetched entry joins the
queue; one whose read fails completes HOST_FAULT with its ring index. A command that a test ends completes with that test's status and DETAIL
and has no other effect; a command acts only as the next of its queue, and the commands of the MRAM not in HOLD. -/
def Obligations.PostBoxFront : Prop :=
  ∀ (s : State) (src : Source) (n : Fin 64),
    (MayAct s src (pgFn n + 0x048) →
      (armed s n = true ∨ (n ≠ 0 ∧ stateOf s n = 0) → Ignores (.arm src n) s) ∧
      (armed s n = false → n = 0 ∨ stateOf s n ≠ 0 → (fnSt s n).cplKept = [] → (fnSt s n).devKept = [] → (fnSt s n).digKept = [] →
        Does (.arm src n) s (fun u => fnF u n FN_PB_CTRL_ARM = 1 ∧ fnF u n FN_CMD_TAIL_TAIL = fnF s n FN_CMD_HEAD_HEAD ∧
          u.hostDown = false)) ∧
      Gives (.disarm src n) s (fun t => OneWord s t (pgFn n + 0x048) ∧ fnF t n FN_PB_CTRL_ARM = 0)) ∧
    (alive s = true → Quiet s → Gives .linkDown s (fun t => t = { s with regs := t.regs, hostDown := true } ∧
      (∀ k, k < 64 → fnF t k FN_PB_CTRL_ARM = 0) ∧ ∀ a, (∀ k, k < 64 → a ≠ pgFn k + 0x048) → wordAt t a = wordAt s a)) ∧
    (MayAct s src (pgFn n + 0x068) → ∀ v : BitVec 32,
      let tail := fnF s n FN_CMD_TAIL_TAIL
      let used := (tail + 2 ^ 32 - fnF s n FN_CMD_HEAD_HEAD) % 2 ^ 32
      ((v.toNat + 2 ^ 32 - tail) % 2 ^ 32 ≤ 64 - used → Gives (.doorbell src n v) s (fun t =>
        OneWord s t (pgFn n + 0x068) ∧ wordAt t (pgFn n + 0x068) = v)) ∧
      (64 - used < (v.toNat + 2 ^ 32 - tail) % 2 ^ 32 → Gives (.doorbell src n v) s (fun t => fnF t n FN_INT_DOORBELL_BAD = 1 ∧
        ∀ a, a ≠ pgFn n + 0x018 → wordAt t a = wordAt s a))) ∧
    (alive s = true → Quiet s →
      (armed s n = true → s.hostDown = false → stateOf s n ≠ 3 → fnF s n FN_CMD_HEAD_HEAD ≠ fnF s n FN_CMD_TAIL_TAIL → reserved s n < 64 →
        (∀ e : List Byte, e.length = 64 → (∀ q ∈ (fnSt s n).queue.head?, knownOps.contains (eOp q) = true) →
          knownOps.contains (eOp e) = true → Gives (.commandFetch n (some e)) s (fun t =>
            OneWord { s with fns := t.fns } t (pgFn n + 0x064) ∧ fnF t n FN_CMD_HEAD_HEAD = (fnF s n FN_CMD_HEAD_HEAD + 1) % 2 ^ 32 ∧
            fnSt t n = { fnSt s n with queue := (fnSt s n).queue ++ [e] } ∧ ∀ k, k ≠ n.val → fnSt t k = fnSt s k)) ∧
        Gives (.commandFetch n none) s (fun t => fnF t n FN_CMD_HEAD_HEAD = (fnF s n FN_CMD_HEAD_HEAD + 1) % 2 ^ 32 ∧
          t.posted = s.posted ++ [cplEntry s n ⟨0, 0, 0x0E, fnF s n FN_CMD_HEAD_HEAD⟩])) ∧
      (armed s n = false ∨ stateOf s n = 3 ∨ fnF s n FN_CMD_HEAD_HEAD = fnF s n FN_CMD_TAIL_TAIL ∨ 64 ≤ reserved s n →
        ∀ r, Ignores (.commandFetch n r) s)) ∧
    (∀ (b : HostRead) (room : Bool) (fails : List Nat), ∀ c ∈ boxCommands n b room fails,
      (∀ e rest st d, Takes s n c.1 e rest → cmdRejected s n e = some (st, d) → Does c.2 s (fun u =>
        Answered s u n e st d [] { fnSt s n with queue := rest })) ∧
      (alive s = true → Quiet s → (fnSt s n).queue = [] ∨ (∃ e rest, (fnSt s n).queue = e :: rest ∧ eOp e ≠ c.1) ∨
        (0x30 ≤ c.1 ∧ holding s = true) → Ignores c.2 s))

/-- Function `n` takes entry `e` of opcode `op`, which passes the tests of R372. -/
def Sys2Proof.Claims.Passes (s : State) (n op : Nat) (e : List Byte) (rest : List (List Byte)) : Prop :=
  Takes s n op e rest ∧ cmdRejected s n e = none

/-- The host buffer holds `len` bytes and none of them is missing (R370). -/
def Sys2Proof.Claims.Buf (b : HostRead) (l : List Byte) (len : Nat) : Prop := b = some l ∧ l.length = len ∧ len ≠ 0

/-- Foreground commands of loads and tables. A buffer that cannot be read completes HOST_FAULT and changes nothing. R31: LOAD_MANIFEST stages a
manifest that parses, and another completes with its failing table and index. R135: LOAD_PROGRAMS stages a program set and reports its marks. R184:
LOAD_WHEEL stages a schedule. R215: SET_OWNERSHIP replaces the table. R217: ROUTE_LOAD stages a first map; R218: ROUTE_STAGE a
generation with its seal. R287: CONTRACT of no entries drops none. R373: SAVE_CONTEXT writes the record of Table 13.10, and RESTORE_CONTEXT takes that very record. R342: CLEAR_REMAP clears
and counts entries. R372: FLOOR_LIST writes the newest catalog, and R435: TWIN_REPORT the retained report. -/
def Obligations.TableCommands : Prop :=
  ∀ (s : State) (n : Fin 64) (e : List Byte) (rest : List (List Byte)) (b : HostRead) (l : List Byte),
    let x : FnSt := { fnSt s n with queue := rest }
    (∀ c ∈ [(0x01, Instr.loadManifest n none, field e 0x10 8), (0x02, .loadPrograms n none, field e 0x10 8), (0x03, .loadWheel n none, field e 0x10 8),
        (0x07, .setOwnership n none, field e 0x10 8), (0x08, .routeLoad n none, field e 0x10 8), (0x14, .contract n none, field e 0x10 8),
        (0x0B, .restoreContext n none, 1)],
      Passes s n c.1 e rest → c.2.2 ≠ 0 → Does c.2.1 s (fun u => Answered s u n e 0x0E 0 [] x)) ∧
    (Passes s n 0x01 e rest → Buf b l (field e 0x10 8) →
      (∀ f, manifestFailing l = some f → Does (.loadManifest n b) s (fun u => Answered s u n e 1 (f.table * 2 ^ 32 + f.index) [] x)) ∧
      (manifestFailing l = none → fnF s n FN_STATE_STATUS_PENDING = 0 → Does (.loadManifest n b) s (fun u =>
        Answered s u n e 0 0 [] { x with staged := some (parseManifest l) }))) ∧
    (Passes s n 0x02 e rest → Buf b l (field e 0x10 8) →
      (∀ o, progsFailing l (4096 * fnF s n FN_PROG_CTRL_REGION_SIZE) = some o → Does (.loadPrograms n b) s (fun u =>
        Answered s u n e 1 o [] x)) ∧
      (progsFailing l (4096 * fnF s n FN_PROG_CTRL_REGION_SIZE) = none → fnF s n FN_PROG_CTRL_REFUSE_ND = 0 →
        Does (.loadPrograms n b) s (fun u => Answered s u n e 0 0 [] { x with progsStaged := some (parseProgs l) } ∧
          fnF u n FN_PROG_STATUS_ND = (if setNd (parseProgs l) then 1 else 0) ∧
          fnF u n FN_PROG_STATUS_TILE = (if setTile (parseProgs l) then 1 else 0)))) ∧
    (Passes s n 0x03 e rest → Buf b l (field e 0x10 8) →
      (∀ o, wheelFailing l = some o → Does (.loadWheel n b) s (fun u => Answered s u n e 1 o [] x)) ∧
      (wheelFailing l = none → Does (.loadWheel n b) s (fun u => Answered s u n e 0 0 [] { x with wheelStaged := some (parseWheel l) }))) ∧
    (Passes s n 0x07 e rest → field e 0x10 8 = 0 → Does (.setOwnership n b) s (fun u => Answered s u n e 0 0 [] { x with own := [] } ∧
      fnF u n FN_PORT_STATUS_OWN_ENTRIES = 0)) ∧
    (Passes s n 0x07 e rest → field e 0x10 8 = 1 → Buf b l 32 → field l 0 4 % 4096 = 0 → field l 4 4 % 4096 = 0 → field l 8 8 < 2 ^ 48 →
      field l 0x10 8 < 2 ^ 48 → allZero (l.drop 0x19) = true → Does (.setOwnership n b) s (fun u =>
        Answered s u n e 0 1 [] { x with own := [⟨field l 0 4, field l 4 4, field l 8 8, field l 0x10 8, field l 0x18 1⟩] } ∧
        fnF u n FN_PORT_STATUS_OWN_ENTRIES = 1)) ∧
    (Passes s n 0x08 e rest → Buf b l (4 * field e 0x10 8) →
      (routeWordsOk (routeWords l) = true → Does (.routeLoad n b) s (fun u => Answered s u n e 0 0 [] { x with routeLoaded := some (routeWords l) })) ∧
      (routeWordsOk (routeWords l) = false → Does (.routeLoad n b) s (fun u => Answered s u n e 1 0 [] x))) ∧
    (Passes s n 0x09 e rest →
      (x.routeStaged ≠ none ∨ x.routeShadow ≠ none → Does (.routeStage n b) s (fun u => Answered s u n e 5 0 [] x)) ∧
      (x.routeStaged = none → x.routeShadow = none → Buf b l (4 * field e 0x10 8) → routeWordsOk (routeWords l) = true →
        stagedRoutesOk s n ⟨x.route.number + 1, routeWords l⟩ = true → Does (.routeStage n b) s (fun u =>
          Answered s u n e 0 0 [] { x with routeStaged := some (⟨x.route.number + 1, routeWords l⟩, field e 0x18 4) } ∧
          fnF u n FN_ROUTE_STATUS_STAGED = 1))) ∧
    (Passes s n 0x14 e rest → field e 0x10 8 = 0 → Does (.contract n b) s (fun u => Answered s u n e 0 0 [] x)) ∧
    (Passes s n 0x0A e rest → Does (.saveContext n) s (fun u => Answered s u n e 0 0 [⟨n, field e 8 8, contextRecord x⟩] x)) ∧
    (Passes s n 0x0B e rest → (∀ m, x.manifest = some m → m.jobSeed < 2 ^ 64) → x.step < 2 ^ 64 →
      Does (.restoreContext n (some (contextRecord (fnSt s n)))) s (fun u => Answered s u n e 0 0 [] x)) ∧
    (∀ r, Passes s n 0x28 e rest → s.twin.report = some r → r ≠ [] → Does (.twinReport n) s (fun u =>
      Answered s u n e 0 0 [⟨n, field e 8 8, r⟩] x)) ∧
    (∀ q parts, Passes s n 0x1A e rest → scanBand s s.floor.sysBand (fun p => !bit (bandAt s s.floor.sysBand).bad (blockBit p)) = (some parts, q) →
      parts ≠ [] → Does (.floorList n) s (fun u => Answered s u n e 0 (field (parts.headD []) 8 8)
        [⟨n, field e 8 8, (parts.map (fit 65536)).flatten⟩] x)) ∧
    (Passes s n 0x20 e rest →
      let at_ := remapAt (4 * field e 8 1 + field e 9 1)
      let hit := fun i => (field e 0xA 2).testBit i && (wordAt s (at_ i)).getLsbD 31
      Does (.clearRemap n) s (fun u => Answered s u n e 0 ((List.range 16).filter hit).length [] x ∧
        ∀ i, i < 16 → wordAt u (at_ i) = (if hit i then 0 else wordAt s (at_ i))))

/-! ### Commands that complete later (R369), and those of the MRAM and the firmware (R379 to R401) -/

/-- A background command has begun: what the die keeps for the function is `x` with the command, its TAG and its argument `arg` listed as
running, and beside registers nothing else of the die changed. -/
structure Sys2Proof.Claims.Begun (s u : State) (n : Nat) (e : List Byte) (arg : Nat) (x : FnSt) : Prop where
  fn : fnSt u n = { x with bg := x.bg ++ [⟨eOp e, eTag e, arg⟩] }
  others : ∀ k, k ≠ n → fnSt u k = fnSt s k
  only : u = { s with regs := u.regs, fns := u.fns }

/-- R454: LOAD_LEAVES of loadable leaves joins the load pass and completes when they are written. R34: MIGRATE of a page of
the other tier within the quota begins. R62: VERIFY_ROWS begins, or completes RANGE. R359: STOP arms the step seal of its step, or
completes STATE for a past step. R224: FIFE_COLLECTIVE opens slot 7. R267: DECLARE_FAILED off the keeper completes NOT_KEEPER. R282, R284: EVACUATE and
REJOIN send their request to the keeper. R289: a RESHARD whose plan is not that of the manifest completes ARGUMENT. R302: SNAPSHOT of a
later step begins. R299: FLOOR_FORMAT begins. R320: RELOAD without a plan completes at once. A buffer that cannot be read completes
HOST_FAULT. -/
def Obligations.BackgroundCommands : Prop :=
  ∀ (s : State) (n : Fin 64) (e : List Byte) (rest : List (List Byte)) (b : HostRead) (l : List Byte),
    let x : FnSt := { fnSt s n with queue := rest }
    (Passes s n 0x04 e rest → field e 0x20 4 ≠ 0 → loadable s n = none → Does (.loadLeaves n none) s (fun u => Answered s u n e 0x0E 0 [] x)) ∧
    (Passes s n 0x10 e rest → Does (.fifeCollective n none) s (fun u => Answered s u n e 0x0E 0 [] x)) ∧
    (Passes s n 0x15 e rest → field e 0x10 8 ≠ 0 → Does (.reshard n none) s (fun u => Answered s u n e 0x0E 0 [] x)) ∧
    (Passes s n 0x1B e rest → field e 0x10 8 ≠ 0 → Does (.reload n none) s (fun u => Answered s u n e 0x0E 0 [] x)) ∧
    (Passes s n 0x04 e rest →
      let count := field e 0x20 4
      let mask := Config.loadMask e
      let named := fun (ls : List (Nat × Nat × Bool × Nat)) => (List.range count).all (fun i =>
        ls.any (fun l => decide (l.1 = field e 0x18 4) && decide (l.2.1 = field e 0x1C 4 + i) && decide (l.2.2.1 = mask)))
      (count = 0 → Does (.loadLeaves n b) s (fun u => Answered s u n e 0 0 [] x)) ∧
      (∀ ls, count ≠ 0 → loadable s n = some ls → named ls = false → Does (.loadLeaves n b) s (fun u => Answered s u n e 1 0x18 [] x)) ∧
      (Buf b l (count * 65280) → (∀ ls, loadable s n = some ls → named ls = true) → Does (.loadLeaves n b) s (fun u =>
        u = { s with fns := u.fns } ∧ ∃ bodies, fnSt u n = { x with loads := x.loads ++
          [⟨eTag e, field e 0x18 4, field e 0x1C 4, mask, bodies, false⟩] } ∧ bodies.length = count ∧
          ∀ i, i < count → bodies[i]? = some (if mask && badMask ((l.drop (65280 * i)).take 65280) then []
            else (l.drop (65280 * i)).take 65280)))) ∧
    (∀ m, Passes s n 0x05 e rest → x.manifest = some m →
      let page := field e 8 4
      let near := decide (field e 0xC 1 = 1)
      (x.migration ≠ none → Does (.migrate n) s (fun u => Answered s u n e 5 0 [] x)) ∧
      (x.migration = none → rangeBytes m / pageBytes ≤ page → Does (.migrate n) s (fun u => Answered s u n e 0x0F 0 [] x)) ∧
      (x.migration = none → page < rangeBytes m / pageBytes → x.nearPages.contains page = near →
        Does (.migrate n) s (fun u => Answered s u n e 0 0 [] x)) ∧
      (x.migration = none → page < rangeBytes m / pageBytes → x.nearPages.contains page ≠ near →
        near = false ∨ x.nearPages.length < forceF s n FN_STATE_CFG_NEAR_QUOTA * 128 → Does (.migrate n) s (fun u =>
          Begun s u n e page { x with migration := some ⟨eTag e, page, near, false⟩ } ∧ fnF u n FN_STATE_STATUS_MIGRATING = 1))) ∧
    (∀ m, Passes s n 0x06 e rest → x.manifest = some m → field e 0x10 4 ≠ 0 →
      (areaRows m (field e 8 1) < field e 0xC 4 + field e 0x10 4 → Does (.verifyRows n) s (fun u => Answered s u n e 0x0F 0 [] x)) ∧
      (field e 0xC 4 + field e 0x10 4 ≤ areaRows m (field e 8 1) → Does (.verifyRows n) s (fun u =>
        Begun s u n e 0 { x with verify := some ⟨eTag e, field e 8 1, field e 9 1, field e 0xC 4, field e 0x10 4, 0, 0, 0, 0⟩ } ∧
        fnF u n FN_CODE_STATUS_VERIFYING = 1))) ∧
    (Passes s n 0x0C e rest →
      let step := if field e 1 1 = 1 then x.step else field e 8 8
      (step < x.step → Does (.stop n .command) s (fun u => Answered s u n e 2 0 [] x)) ∧
      (x.step ≤ step → x.stop = none → Does (.stop n .command) s (fun u =>
        Begun s u n e step { x with stop := some ⟨step, some (eTag e)⟩ } ∧ fnF u n FN_STATE_STOP_ARMED = 1))) ∧
    (Passes s n 0x10 e rest → Buf b l 128 → fnF s n FN_FIFE_STATUS_PATH_ACTIVE = 0 → Does (.fifeCollective n b) s (fun u =>
      (fnSt u n).bg = x.bg ++ [⟨0x10, eTag e, field e 8 8⟩] ∧ (collAt (fnSt u n) 7).opened = true ∧
      (collAt (fnSt u n) 7).layout = field e 0x10 1 ∧ (collAt (fnSt u n) 7).seq = (collAt x 7).seq ∧
      (fnF u n FN_FIFE_STATUS_OPEN).testBit 7 = true ∧ ∃ m, u.lineOut = s.lineOut ++ [m] ∧ m.kind = 1 ∧ m.slot = slotNo s n 7 ∧
        m.seq = (collAt x 7).seq)) ∧
    (∀ room, Passes s n 0x11 e rest → amKeeper x = false → Does (.declareFailed n room) s (fun u => Answered s u n e 0x0B 0 [] x)) ∧
    (∀ room, Passes s n 0x11 e rest → amKeeper x = true → epochsOpen s n = false → x.epochWait = none → x.kept = none →
      x.routeShadow = none → grpOf x ≠ none → field e 8 1 ≠ x.self → memLive x (field e 8 1) = true →
      Does (.declareFailed n room) s (fun u => (fnSt u n).epoch = (x.epoch + 1) % 2 ^ 32 ∧
        (∃ c ∈ (fnSt u n).bg, c.op = 0x11 ∧ c.tag = eTag e))) ∧
    (∀ room, Passes s n 0x12 e rest →
      (x.role ≠ 1 → Does (.evacuate n room) s (fun u => Answered s u n e 2 0 [] x)) ∧
      (∀ k, x.role = 1 → amKeeper x = false → keeperOf x = some k → Does (.evacuate n room) s (fun u => (fnSt u n).evacuating = true ∧
        (fnSt u n).bg = x.bg ++ [⟨0x12, eTag e, 0⟩] ∧ ∃ m, u.msgs = s.msgs ++ [m] ∧ m.fn = n.val ∧ m.dst = memberEntry x k ∧
          mmKind m.bytes = 8))) ∧
    (∀ k, Passes s n 0x13 e rest → keeperOf x = some k → Does (.rejoin n) s (fun u =>
      (fnSt u n).bg = x.bg ++ [⟨0x13, eTag e, 0⟩] ∧ ∃ m, u.msgs = s.msgs ++ [m] ∧ m.fn = n.val ∧ m.dst = memberEntry x k ∧
        mmKind m.bytes = 6)) ∧
    (∀ m, Passes s n 0x15 e rest → Buf b l (field e 0x10 8) → x.manifest = some m → planHeaderOk l m.digest = false →
      Does (.reshard n b) s (fun u => Answered s u n e 1 0 [] x)) ∧
    (Passes s n 0x18 e rest →
      (field e 8 8 ≤ x.step → Does (.snapshot n) s (fun u => Answered s u n e 1 8 [] x)) ∧
      (x.step < field e 8 8 → Does (.snapshot n) s (fun u => Begun s u n e (field e 8 8) { x with snapAt := some (field e 8 8, 0) }))) ∧
    (∀ fails, Passes s n 0x19 e rest → (fnSt s n).bg = [] → Does (.floorFormat n fails) s (fun u =>
      (∃ w, u.posted = s.posted ++ w ++ [cplEntry s 0 ⟨eTag e, 0x19, 0, 0⟩]) ∧ u.floor.snaps = [] ∧ getF u pgFloor FLOOR_STATUS_STATE = 2)) ∧
    (Passes s n 0x1B e rest → field e 0x10 8 = 0 → Does (.reload n b) s (fun u => Answered s u n e 0 0 [] x)) ∧
    (Passes s n 0x1B e rest → Buf b l (field e 0x10 8) → (reloadTry s n l).1 ≠ 0 →
      Does (.reload n b) s (fun u => ∃ w, Completed s u n e (reloadTry s n l).1 0 w))

/-! ### The MRAM and the firmware (R379 to R401) -/

/-- The one running background command of FN0 is of opcode `op` with TAG `tag`, and its completion can be posted. -/
def Sys2Proof.Claims.RunsAlone (s : State) (op tag : Nat) : Prop :=
  (∃ arg, (fnSt s 0).bg = [⟨op, tag, arg⟩]) ∧ armed s 0 = true ∧ s.hostDown = false

/-- That command has completed. -/
def Sys2Proof.Claims.Ended (s u : State) (op tag st d : Nat) : Prop :=
  u.posted = s.posted ++ [cplEntry s 0 ⟨tag, op, st, d⟩] ∧ (fnSt u 0).bg = []

/-- LY_NVM_FW_STATUS.STAGE. -/
def Sys2Proof.Claims.stage (s : State) : Nat := getF s pgNvm NVM_FW_STATUS_STAGE

/-- R384: NVM_STORE and NVM_CLEAR capture their items, and complete when the last record is written. R387: LOG_READ writes the named records. R392: a chunk that is
next is written and counted, another completes with the chunk awaited. R393: FW_VERIFY checks the slot. R394, R397, R396: FW_ACTIVATE begins the
loading, FW_CONFIRM is the commit point, and FW_ABANDON ends an activation or sends the image back. R388: KEY_ADD takes an authentic record, and KEY_REVOKE leaves
another ACTIVE slot. -/
def Obligations.MramCommands : Prop :=
  ∀ (s : State) (n : Fin 64) (e : List Byte) (rest : List (List Byte)) (b : HostRead) (l : List Byte),
    let x : FnSt := { fnSt s n with queue := rest }
    let k := inactiveSlot s.nvm.boot
    (∀ c ∈ [(0x30, Instr.nvmStore n), (0x31, .nvmClear n)], Passes s n c.1 e rest →
      let items := itemCodes.filter (fun i => (field e 8 2).testBit i)
      (items = [] → x.bg = [] → Does c.2 s (fun u => Answered s u n e 0 0 [] x)) ∧
      (items ≠ [] → Does c.2 s (fun u => fnSt u n = { x with bg := x.bg ++ [⟨c.1, eTag e, 0⟩] } ∧
        u.nvm.jobs = s.nvm.jobs ++ [⟨c.1, field e 8 2, items.map (fun i => (i, if c.1 = 0x30 then captureItem s i else [])), 0⟩] ∧
        u.nvm.recs = s.nvm.recs ∧ (s.nvm.jobs = [] → u.nvm.writing = true ∧ getF u pgNvm NVM_STATUS_BUSY = 1)))) ∧
    (Passes s n 0x32 e rest → field e 0x14 4 ≠ 0 → Does (.logRead n) s (fun u => Answered s u n e 0 (field e 0x14 4)
      [⟨n, field e 8 8, ((List.range (field e 0x14 4)).map (fun i =>
        (tabFind s.nvm.log ((field e 0x10 4 + i) % 4096)).getD (zeros 64))).flatten⟩] x)) ∧
    (Passes s n 0x33 e rest →
      let chunk := field e 0x10 4
      (Does (.fwDownload n none) s (fun u => Answered s u n e 0x0E 0 [] x)) ∧
      (Buf b l 4096 → chunk = 0 → headerForm (l.take 256) = false → Does (.fwDownload n b) s (fun u => Answered s u n e 1 0 [] x)) ∧
      (Buf b l 4096 → chunk = 0 → headerForm (l.take 256) = true → stage s ≠ 7 → Does (.fwDownload n b) s (fun u => Completed s u n e 0 1 [] ∧
        bootState u.nvm.boot k = 1 ∧ stage u = 1 ∧ getF u pgNvm NVM_FW_STATUS_CHUNKS = 1 ∧
        memReadN (tabGet [] u.nvm.slots k) 0 4096 = l)) ∧
      (Buf b l 4096 → chunk ≠ 0 → (chunk ≠ getF s pgNvm NVM_FW_STATUS_CHUNKS ∨ bootState s.nvm.boot k ≠ 1) →
        Does (.fwDownload n b) s (fun u => Answered s u n e 1 (getF s pgNvm NVM_FW_STATUS_CHUNKS) [] x)) ∧
      (Buf b l 4096 → chunk ≠ 0 → chunk = getF s pgNvm NVM_FW_STATUS_CHUNKS → bootState s.nvm.boot k = 1 → Does (.fwDownload n b) s (fun u =>
        Completed s u n e 0 (chunk + 1) [] ∧ u.nvm.slots = tabPut s.nvm.slots k (some (memWriteN (tabGet [] s.nvm.slots k) (4096 * chunk) l)) ∧
        (4096 * (chunk + 1) ≠ fwBytes (tabGet [] u.nvm.slots k) → u.nvm.boot = s.nvm.boot) ∧
        (4096 * (chunk + 1) = fwBytes (tabGet [] u.nvm.slots k) → bootState u.nvm.boot k = 2)))) ∧
    (Passes s n 0x34 e rest → stage s ≠ 7 → Does (.fwVerify n) s (fun u => stage u = 2 ∧ u.nvm.boot = s.nvm.boot ∧
      fnSt u n = { x with bg := x.bg ++ [⟨0x34, eTag e, 0⟩] })) ∧
    (Passes s n 0x35 e rest → stage s ≠ 7 → Does (.fwActivate n) s (fun u => stage u = 3 ∧ u.nvm.boot = s.nvm.boot ∧
      fnSt u n = { x with bg := x.bg ++ [⟨0x35, eTag e, 0⟩] })) ∧
    (∀ t, Passes s n 0x36 e rest → s.nvm.boot.trial = some t → Does (.fwConfirm n) s (fun u =>
      Completed s u n e 0 (max s.nvm.boot.minSvn (slotSvn s t)) [] ∧ stage u = 0 ∧
      u.nvm.boot = { s.nvm.boot with seq := s.nvm.boot.seq + 1, active := t, trial := none, minSvn := max s.nvm.boot.minSvn (slotSvn s t) })) ∧
    (∀ t, Passes s n 0x37 e rest → stage s = 6 → s.nvm.boot.trial = some t → Does (.fwAbandon n) s (fun u => stage u = 4 ∧
      u.nvm.back = true ∧ u.nvm.boot.trial = none ∧ bootState u.nvm.boot t = 4 ∧ getF u pgNvm NVM_FW_STATUS_ROLLED_BACK = 1 ∧
      (∃ c ∈ (fnSt u n).bg, c.op = 0x37 ∧ c.tag = eTag e))) ∧
    (Passes s n 0x38 e rest → Buf b l 320 →
      let slot := field l 4 1
      let zero := (∀ i, 5 ≤ i → i < 8 → l.getD i 0 = 0) ∧ (∀ i, 0x69 ≤ i → i < 0x70 → l.getD i 0 = 0) ∧ ∀ i, 0xD1 ≤ i → i < 0xE0 → l.getD i 0 = 0
      let signer := (l.drop 0x70).take 97
      (field l 0 4 ≠ 0x1A5E4B01 ∨ 3 < slot ∨ ¬zero ∨ (∀ q, s.nvm.keys[slot]? = some q → q.state ≠ 0) ∨ keyActive s (sha384 signer) = false →
        Does (.keyAdd n b) s (fun u => Answered s u n e 1 0 [] x)) ∧
      (∀ q, field l 0 4 = 0x1A5E4B01 → slot ≤ 3 → zero → s.nvm.keys[slot]? = some q → q.state = 0 → keyActive s (sha384 signer) = true →
        ecdsaOk signer (sha384 (l.take 0xE0)) (beVal ((l.drop 0xE0).take 48)) (beVal ((l.drop 0x110).take 48)) = true →
        Does (.keyAdd n b) s (fun u => Completed s u n e 0 slot [] ∧
          u.nvm.keys = s.nvm.keys.set slot ⟨1, some (sha384 ((l.drop 8).take 97))⟩))) ∧
    (∀ q, Passes s n 0x39 e rest → s.nvm.keys[field e 8 1]? = some q →
      let others := (List.range 4).any (fun j => decide (j ≠ field e 8 1) && (match s.nvm.keys[j]? with | some r => decide (r.state = 1) | none => false))
      (others = false → Does (.keyRevoke n) s (fun u => Answered s u n e 0xF 0 [] x)) ∧
      (others = true → q.state ≠ 0 → keyHash q = slotSigner s s.nvm.boot.active → Does (.keyRevoke n) s (fun u => Answered s u n e 2 0 [] x)) ∧
      (others = true → keyHash q ≠ slotSigner s s.nvm.boot.active → (∀ t, s.nvm.boot.trial = some t → keyHash q ≠ slotSigner s t) →
        Does (.keyRevoke n) s (fun u => Completed s u n e 0 (field e 8 1) [] ∧ u.nvm.keys = s.nvm.keys.set (field e 8 1) { q with state := 2 })))

/-- R381, R382, R384: a record's write commits with the next SEQ, the last one completes its command, and a compaction commits with the other half. R393: the check
of a slot ends in VERIFIED with its digest, or in VERIFY_FAIL with its cause. R394: loading ends in ARMED with the trial in the
boot record, the switch begins at a counter turn start once nothing of the control plane is under way. R395, R396: it ends in TRIAL with the new image, or in the
image before it with SWITCH_ABORTED. -/
def Obligations.MramAndFirmwareEvents : Prop :=
  ∀ (s : State) (tag : Nat), alive s = true →
    let k := inactiveSlot s.nvm.boot
    (s.nvm.jobs = [] → Quiet s → Ignores .mramWriteDone s) ∧
    (∀ j rest i body more, holding s = false → s.nvm.writing = true → getF s pgNvm NVM_STATUS_COMPACTING = 0 → s.nvm.jobs = j :: rest →
      j.left = (i, body) :: more →
      (more ≠ [] → Does .mramWriteDone s (fun u => u.nvm.seq = s.nvm.seq + 1 ∧ u.nvm.recs = s.nvm.recs ++ [⟨i, body, s.nvm.seq + 1⟩] ∧
        u.nvm.jobs = { j with left := more, done_ := j.done_ + 1 } :: rest ∧ u.posted = s.posted ∧ getF u pgNvm NVM_STATUS_BUSY = 1)) ∧
      (more = [] → RunsAlone s j.op tag → stage s ≠ 5 → Does .mramWriteDone s (fun u => u.nvm.seq = s.nvm.seq + 1 ∧
        u.nvm.recs = s.nvm.recs ++ [⟨i, body, s.nvm.seq + 1⟩] ∧ u.nvm.jobs = rest ∧ Ended s u j.op tag 0 (j.done_ + 1) ∧
        (rest = [] → getF u pgNvm NVM_STATUS_BUSY = 0)))) ∧
    (∀ j rest, holding s = false → s.nvm.writing = true → getF s pgNvm NVM_STATUS_COMPACTING = 1 → s.nvm.jobs = j :: rest → j.left ≠ [] →
      Does .mramWriteDone s (fun u => u.nvm.half = 1 - s.nvm.half ∧ u.nvm.generation = s.nvm.generation + 1 ∧
        u.nvm.recs = newestRecs s.nvm.recs ∧ u.nvm.jobs = s.nvm.jobs ∧ getF u pgNvm NVM_STATUS_BUSY = 1)) ∧
    (bgRunning s 0 0x34 = false → Quiet s → Ignores .fwVerifyDone s) ∧
    (RunsAlone s 0x34 tag → stage s = 2 →
      let m := tabGet [] s.nvm.slots k
      (imageCode s m = 0 → Does .fwVerifyDone s (fun u => stage u = 0 ∧ bootState u.nvm.boot k = 3 ∧
        bootDigest u.nvm.boot k = some (fwDigest m) ∧ Ended s u 0x34 tag 0 (slotVersion s k * 2 ^ 32 + slotSvn s k))) ∧
      (imageCode s m ≠ 0 → Does .fwVerifyDone s (fun u => stage u = 0 ∧ u.nvm.boot = s.nvm.boot ∧
        getF u pgNvm NVM_FW_STATUS_VERIFY_FAIL = 1 ∧ Ended s u 0x34 tag 1 (imageCode s m)))) ∧
    (RunsAlone s 0x35 tag → s.nvm.cut = false → stage s = 3 → ∀ m, tabFind s.nvm.slots k = some m →
      (bootDigest s.nvm.boot k = some (fwDigest m) → Does .fwLoadingDone s (fun u => stage u = 4 ∧
        u.nvm.boot = { s.nvm.boot with seq := s.nvm.boot.seq + 1, trial := some k, trialLeft := getF s pgNvm NVM_FW_CTRL_TRIAL_LIMIT } ∧
        u.posted = s.posted ∧ u.nvm.fwSeal = false)) ∧
      (bootDigest s.nvm.boot k ≠ some (fwDigest m) → Does .fwLoadingDone s (fun u => stage u = 0 ∧ bootState u.nvm.boot k = 2 ∧
        Ended s u 0x35 tag 1 0))) ∧
    (stage s = 4 → holding s = false → switchQuiet s = true → s.nvm.fwSeal = true ∨ (∀ i, 0 < i → i < 64 → stateOf s i ≠ 2) →
      Does .fwSwitchStart s (fun u => stage u = 5 ∧ u.counter = (turnStartAt s s.counter) % 2 ^ 64 ∧
        u.ticks = s.ticks + (turnStartAt s s.counter - s.counter) ∧ u.nvm.boot = s.nvm.boot)) ∧
    (Quiet s → stage s ≠ 4 ∨ holding s = true ∨ switchQuiet s = false → Ignores .fwSwitchStart s) ∧
    (∀ ok, Quiet s → stage s ≠ 5 → Ignores (.fwSwitchEnd ok) s) ∧
    (∀ t, stage s = 5 → RunsAlone s 0x35 tag → s.nvm.back = false → s.nvm.boot.trial = some t → s.nvm.msgs = [] → s.nvm.bugles = [] →
      s.nvm.evHeld = [] → s.nvm.cplHeld = [] →
      (getF s pgNvm NVM_FW_CTRL_CONFIRM_STEPS ≠ 0 → Does (.fwSwitchEnd true) s (fun u => stage u = 6 ∧ u.nvm.running = t ∧
        u.nvm.boot = s.nvm.boot ∧ getF u pgNvm NVM_FW_STATUS_RUNNING_SLOT = t % 2 ∧ getF u pgNvm NVM_CONFIRM_SEALED = 0 ∧
        Ended s u 0x35 tag 0 s.counter)) ∧
      Does (.fwSwitchEnd false) s (fun u => stage u = 0 ∧ u.nvm.running = s.nvm.running ∧ bootState u.nvm.boot t = 4 ∧
        u.nvm.boot.trial = none ∧ getF u pgNvm NVM_FW_STATUS_SWITCH_ABORTED = 1 ∧ Ended s u 0x35 tag 0xD 0))

/-! ### The fabric port (R98 to R113, R197 to R222) -/

/-- The port takes the packet, whose header is good, and nothing is left over from before. -/
structure Sys2Proof.Claims.Arrives (s : State) (p : Packet) (type : Nat) : Prop where
  takes : portTakes s p = true
  quiet : Quiet s
  good : headerOk' p = true
  type : hType p = type
  clean : hPoison p = false

/-- A packet `q` answers request `p` with STATUS `st` and the payload `bytes` (R201, R202). -/
def Sys2Proof.Claims.Reply (p q : Packet) (type st : Nat) (bytes : List Byte) : Prop :=
  hType q = type ∧ hTag q = hTag p ∧ hDst q = hSrc p ∧ hSrc q = hDst p ∧ hTc q = hTc p ∧ hStatus q = st ∧
  hCheck q = headerCheck q.hdr ∧ q.payload = padPayload bytes

/-- Only the packet `q` has been put into egress. -/
def Sys2Proof.Claims.Sends (s t : State) (q : Packet) : Prop := t = { s with egress := s.egress ++ [q] }

/-- R202: memory-form requests on the state range. A function that takes none answers NO_FUNCTION, an offset past the range RANGE; a LOAD is
answered with its bytes, a STORE writes the bytes of working-copy slots and is counted where nothing takes it, R35: a byte
of a coded area is not written and sets WRITE_REJECT; FETCH_ADD and COMPARE_SWAP answer the old value and write the new one. R449: a STORE in space 0x1
arrives at the object. R201: a response gives its value to the register that waits, and one that no request matches is dropped. -/
def Obligations.MemoryFormPackets : Prop :=
  ∀ (s : State) (p : Packet),
    let n := hFn p
    (Arrives s p 1 → hSpace p = 0 → hTc p ≠ 5 → ∀ rows rd,
      (fnTakes s n = false → Gives (.loadMem p .none none rows rd) s (fun t => ∃ q, Sends s t q ∧ Reply p q 2 1 [])) ∧
      (fnTakes s n = true → rangeOf s n < hAddr p + hBytes p → Gives (.loadMem p .none none rows rd) s (fun t =>
        ∃ q, Sends s t q ∧ Reply p q 2 2 [])) ∧
      (fnTakes s n = true → hAddr p + hBytes p ≤ rangeOf s n → readWaits s n (hAddr p) (hBytes p) = false →
        Gives (.loadMem p .none none rows rd) s (fun t => ∃ q, Sends s t q ∧ Reply p q 2 0 (rangeRead s n (hAddr p) (hBytes p))))) ∧
    (Arrives s p 3 → hSpace p = 0 →
      (fnTakes s n = false ∨ rangeOf s n < hAddr p + hBytes p → Gives (.storeMem p .none) s (fun t =>
        getF t pgPort PORT_COUNT_STORE_DROP = min (getF s pgPort PORT_COUNT_STORE_DROP + 1) 0xFFFF ∧ t.deep = s.deep ∧ t.egress = s.egress)) ∧
      (fnTakes s n = true → hAddr p + hBytes p ≤ rangeOf s n → (∀ i, i < hBytes p → partOf' s n (hAddr p + i) = .workingCopy) →
        Gives (.storeMem p .none) s (fun t => t = { s with deep := t.deep } ∧
          ∀ a, memRead t.deep a = (if rangeAddr n (hAddr p) ≤ a ∧ a < rangeAddr n (hAddr p) + hBytes p
            then p.payload.getD (a - rangeAddr n (hAddr p)) 0 else memRead s.deep a))) ∧
      (∀ area gen row, fnTakes s n = true → hBytes p = 8 → hAddr p + 8 ≤ rangeOf s n →
        (∀ i, i < 8 → partOf' s n (hAddr p + i) = .coded area gen row) → Does (.storeMem p .none) s (fun u =>
          u.deep = s.deep ∧ fnF u n FN_STATE_STATUS_WRITE_REJECT = 1))) ∧
    (Arrives s p 3 → hSpace p = 1 → fnTakes s n = true → ∀ i, sealOf p = some i → field p.payload 4 4 = 0 → (sealAt s i).owner = n →
      (sealAt s i).state = 1 → (sealAt s i).late ≤ 255 → (sealAt s i).count + field p.payload 0 4 < (sealAt s i).expected → Gives (.storeMem p .none) s (fun t =>
        t = { s with seals := t.seals } ∧ sealAt t i = { sealAt s i with count := (sealAt s i).count + field p.payload 0 4 } ∧
        ∀ k, k ≠ i → sealAt t k = sealAt s k)) ∧
    (Arrives s p 4 → hSpace p = 0 →
      (fnTakes s n = false → Gives (.fetchAdd p .none) s (fun t => ∃ q, Sends s t q ∧ Reply p q 6 1 (zeros 64))) ∧
      (fnTakes s n = true → atomicPlace s n (hAddr p) = false → Gives (.fetchAdd p .none) s (fun t =>
        ∃ q, Sends s t q ∧ Reply p q 6 2 (zeros 64))) ∧
      (fnTakes s n = true → atomicPlace s n (hAddr p) = true → Gives (.fetchAdd p .none) s (fun t =>
        let old := rangeRead s n (hAddr p) 8
        (∃ q, Sends { s with deep := t.deep } t q ∧ Reply p q 6 0 (fit 64 old)) ∧
        leVal (rangeRead t n (hAddr p) 8) = (leVal old + field p.payload 0 8) % 2 ^ 64 ∧
        ∀ a, a < rangeAddr n (hAddr p) ∨ rangeAddr n (hAddr p) + 8 ≤ a → memRead t.deep a = memRead s.deep a))) ∧
    (Arrives s p 5 → hSpace p = 0 → fnTakes s n = true → atomicPlace s n (hAddr p) = true → Gives (.compareSwap p .none) s (fun t =>
      let old := rangeRead s n (hAddr p) 8
      (∃ q, Sends { s with deep := t.deep } t q ∧ Reply p q 6 0 (fit 64 old)) ∧
      leVal (rangeRead t n (hAddr p) 8) = (if leVal old = field p.payload 0 8 then field p.payload 8 8 else leVal old) ∧
      ∀ a, a < rangeAddr n (hAddr p) ∨ rangeAddr n (hAddr p) + 8 ≤ a → memRead t.deep a = memRead s.deep a)) ∧
    (∀ c ∈ [(2, Instr.loadData p .none), (6, .atomicData p .none)], Arrives s p c.1 →
      ((∀ r ∈ s.requests, r.tag ≠ hTag p) → Ignores c.2 s) ∧
      (∀ r a k d, s.requests.find? (fun q => decide (q.tag = hTag p)) = some r → r.owner = .core a k d → Gives c.2 s (fun t =>
        t = { s with requests := s.requests.erase r, cores := t.cores } ∧
        coreSt t (coreIx a k) = setS (coreSt s (coreIx a k)) d (field p.payload 0 8) ∧
        ∀ j, j ≠ coreIx a k → coreSt t j = coreSt s j)))

/-- R210: TC0 goes first, and a packet whose class is not stopped and within its cap is handed to the links. R211: XOFF and XON of a class
set XOFF_IN, and TC0 is never stopped. R222: a lane change sets the link's code and the port rate. R206: the oldest resend leaves when it is due. R220: a shadow
generation retires 32,768 ticks after its packets have gone. -/
def Obligations.EgressAndLinks : Prop :=
  (∀ (s : State), alive s = true → Quiet s →
    (∀ p, positioned s = true → (s.egress.filter (fun q => decide (hTc q = 0))).head? = some p → Does .egressArbitration s (fun u =>
      u.egress = s.egress.erase p ∧ u.sent = s.sent ++ [p] ∧ u.regs = s.regs)) ∧
    (∀ p, positioned s = true → s.egress = [p] → hTc p ≠ 0 → (getF s pgPort PORT_STATUS_XOFF_IN).testBit (hTc p - 1) = false →
      wireBytes p * 400 ≤ s.tokens.getD (hTc p) 0 → Does .egressArbitration s (fun u => u.egress = [] ∧ u.sent = s.sent ++ [p] ∧
        u.regs = s.regs)) ∧
    (∀ p, positioned s = true → s.egress = [p] → hTc p ≠ 0 → (getF s pgPort PORT_STATUS_XOFF_IN).testBit (hTc p - 1) = true →
      Does .egressArbitration s (fun u => u.egress = [p] ∧ u.sent = s.sent)) ∧
    (positioned s = false → Ignores .egressArbitration s) ∧
    (∀ (tc : Fin 8) (x : Bool),
      (tc ≠ 0 → Gives (.linkFlowControl tc x) s (fun t => OneWord s t (pgPort + 0x040) ∧
        (getF t pgPort PORT_STATUS_XOFF_IN).testBit (tc.val - 1) = x ∧
        ∀ k, k < 7 → k ≠ tc.val - 1 → (getF t pgPort PORT_STATUS_XOFF_IN).testBit k = (getF s pgPort PORT_STATUS_XOFF_IN).testBit k)) ∧
      Ignores (.linkFlowControl 0 x) s) ∧
    (∀ (link : Fin 32) (code : Fin 16), Gives (.laneCountChange link code) s (fun t => RegsOnly s t ∧ laneCode t link = code ∧
      (∀ k, k < 32 → k ≠ link.val → laneCode t k = laneCode s k) ∧
      getF t pgPort PORT_STATUS_RATE = min 1600 (getF s pgPort PORT_LINK_SHARE_SHARE * aggregate t / 100) ∧
      getF t pgPort PORT_STATUS_DEGRADED = (if getF t pgPort PORT_STATUS_RATE < 1600 then 1 else 0))) ∧
    (∀ r rest, positioned s = true → s.resends = r :: rest → (fnSt s r.fn).mute = false → Gives .resend s (fun t =>
      t.resends = rest ∧ t.egress = s.egress ++ [r.packet] ∧ t.ticks = max s.ticks r.due)) ∧
    (s.resends = [] → Ignores .resend s)) ∧
  (∀ (s : State) (n : Fin 64) (g : RouteGen) (t : Nat), alive s = true → (fnSt s n).routeShadow = some g → (fnSt s n).shadowZeroAt = some t →
    (fnSt s n).epochWait = none → stateOf s n ≠ 2 → Does (.shadowRetire n) s (fun u => (fnSt u n).routeShadow = none ∧
      (fnSt u n).route = (fnSt s n).route ∧ u.ticks = max s.ticks (t + 32768) ∧ ∀ k, k ≠ n.val → fnSt u k = fnSt s k))

/-- A coding packet or landing packet that the header tests let through (R212). -/
def Sys2Proof.Claims.Admitted (s : State) (p : Packet) (type : Nat) : Prop :=
  Arrives s p type ∧
    (match (fnSt s (hFn p)).manifest, grpOf (fnSt s (hFn p)) with
     | some m, some g => rowExpected (fnSt s (hFn p)) m g (hArea p) (hAreaGen p) (hRow p) (hMember p) (hParity p) (hLoad p)
     | _, _ => false) = true ∧
    codingVerdict s (hFn p) p true ((fnSt s (hFn p)).flushed.contains (hSlice p)) true 6 = .apply

/-- R72, R207: a FOLD XORs its payload into the row's buffer and marks its part, a NULL_DELTA completes its member's record, and what came
twice is counted and changes nothing. R208: a held row takes a buffer that has become free. R74, R206: a WRITTEN receipt is noted in the contribution's
wait, and a RESEND sends the named packet again 1,024 ticks later. R205: a LEAF_PUT enters its slot's staging. R212: an older epoch's packet goes to
the bin. -/
def Obligations.CodingPackets : Prop :=
  ∀ (s : State) (p : Packet),
    let n := hFn p
    let i := hImg p / 64
    (∀ (b : Bag) (r : BagRec), Admitted s p 8 → bagFind s (hSlice p) n (hArea p) (hAreaGen p) (hRow p) (hParity p) = some b →
      b.recOf (hMember p) = some r →
      (r.complete = true ∨ r.map.testBit i = true → Gives (.fold p .none) s (fun t => t = { s with regs := t.regs, heldOnce := t.heldOnce } ∧
        getF t (pgSlice (hSlice p)) SL_MAILBAG_STATUS_DUPLICATES = min (getF s (pgSlice (hSlice p)) SL_MAILBAG_STATUS_DUPLICATES + 1) 15)) ∧
      (r.complete = false → r.map.testBit i = false → hFlag p = false → r.count = 0 →
        let new : Bag := { b with
          image := memXor b.image (64 * hImg p) (p.payload.take (65344 - 64 * hImg p)),
          recs := b.recs.filter (fun q => decide (q.member ≠ r.member)) ++ [{ r with map := r.map + 2 ^ i, stamp := hStamp p, src := hSrc p }] }
        bagComplete (fnSt s n) new = false → Gives (.fold p .none) s (fun t => t = { s with bags := t.bags, heldOnce := t.heldOnce } ∧
          t.bags = s.bags.map (fun c => if c.isRow b.slice b.fn b.area b.gen b.row b.p && !c.decode then new else c)))) ∧
    (∀ (b : Bag), Admitted s p 9 → hRow p ≠ 0xFFFFFFFF → bagFind s (hSlice p) n (hArea p) (hAreaGen p) (hRow p) (hParity p) = some b →
      b.recOf (hMember p) = none →
      let new : Bag := { b with recs := b.recs.filter (fun q => decide (q.member ≠ hMember p)) ++
        [⟨hMember p, hStamp p, 0, 0, true, true, hSrc p⟩] }
      bagComplete (fnSt s n) new = false → Gives (.nullDelta p .none) s (fun t => t = { s with bags := t.bags, heldOnce := t.heldOnce } ∧
        t.bags = s.bags.map (fun c => if c.isRow b.slice b.fn b.area b.gen b.row b.p && !c.decode then new else c))) ∧
    (∀ c ∈ [(8, Instr.fold p .none), (9, .nullDelta p .none), (11, .leafPut p .none)], Arrives s p c.1 → hRow p ≠ 0xFFFFFFFF → hTc p ≠ 5 →
      (c.1 = 11 → hLen p = 64 ∧ hImg p % 64 = 0) → hEpoch p < (fnSt s n).epoch → Does c.2 s (fun u =>
        getF u pgPort PORT_DLB_COUNT_TOTAL = min (getF s pgPort PORT_DLB_COUNT_TOTAL + 1) 0xFFFFFFFF ∧ u.bags = s.bags ∧ u.puts = s.puts ∧
        u.egress = s.egress)) ∧
    (∀ sl : Fin 16, alive s = true → Quiet s →
      ((∀ h ∈ s.held, h.1 = sl.val → bufferSource s sl (hFn h.2) = none) → Ignores (.heldRowRelease sl) s) ∧
      (s.held = [(sl.val, p)] → hType p = 8 → (bufferSource s sl n).isSome = true →
        rowUnrebuilt (fnSt s n) (hArea p) (hAreaGen p) (hRow p) = false →
        bagFind s sl n (hArea p) (hAreaGen p) (hRow p) (hParity p) = none →
        (∀ own, bufferSource s sl n = some own → bagComplete (fnSt s n) (foldPacket
          ⟨sl, n, hArea p, hAreaGen p, hRow p, hParity p, hLoad p, false, own, false, false, [], []⟩ p).1 = false) →
        Does (.heldRowRelease sl) s (fun u => u.held = [] ∧ ∃ b ∈ u.bags,
          b.isRow sl n (hArea p) (hAreaGen p) (hRow p) (hParity p) = true ∧ (b.recOf (hMember p)).isSome = true))) ∧
    (∀ (w : Wait) (gen : RouteGen) (g : GroupEntry), Arrives s p 10 → waitOf s n p = some w → w.kind = .grad →
      (fnSt s n).epoch = hEpoch p → genOf (fnSt s n) (hGen p) = some gen → grpOf (fnSt s n) = some g →
      routeMatches (fnSt s n) g gen (hMember p) (hRow p) (hSrc p) = true → actsRunning s n = true → (fnSt s n).aborting = false →
      (hReceipt p = 0 → (markReceipt w (hMember p) (hParity p)).allDone = false → Gives (.receipt p false) s (fun t =>
        t = { s with waits := s.waits.map (fun v => if v = w then markReceipt w (hMember p) (hParity p) else v) })) ∧
      (∀ h, hReceipt p = 1 → w.isNull = true → (fnSt s n).mute = false →
        w.holders.find? (fun q => decide (q.member = hMember p) && decide (q.p = hParity p)) = some h → routeValid h.dst = true →
        Gives (.receipt p false) s (fun t => ∃ q, t = { s with resends := s.resends ++ [⟨n, s.ticks + 1024, q⟩] } ∧ hType q = 9 ∧
          hRow q = w.row % 2 ^ 32))) ∧
    (Arrives s p 10 → Does (.receipt p true) s (fun u =>
      getF u pgPort PORT_DLB_COUNT_TOTAL = min (getF s pgPort PORT_DLB_COUNT_TOTAL + 1) 0xFFFFFFFF ∧ u.waits = s.waits)) ∧
    (Arrives s p 11 → hTc p = 3 → hLen p = 64 → hImg p % 64 = 0 → transferArmed s n p = true →
      codingVerdict s n p true false true 7 = .apply → (∀ t ∈ s.puts, t.isOf p = false) → Gives (.leafPut p .none) s (fun t =>
        t = { s with puts := s.puts ++ [⟨n, hSlice p, 3, hSrc p, hMember p, hArea p, hAreaGen p, hRow p, hStamp p, hParity p, 2 ^ i,
          memWriteN [] (4096 * i) p.payload⟩] }))

/-! ### Landing (R98 to R113) -/

/-- A landing packet with descriptor `d` has come to a function that takes it and forwards nothing. -/
def Sys2Proof.Claims.Lands (s : State) (p : Packet) (d : Landing) : Prop :=
  Arrives s p 3 ∧ hSpace p = 2 ∧ fnTakes s (hFn p) = true ∧ (fnSt s (hFn p)).forwardTo = none ∧ d = parseLanding p.payload

/-- Entry `e` of the intake table is that of the packet's bucket, without probes, and its elements lie dense as FP32 in binding `b`. -/
def Sys2Proof.Claims.DenseBucket (s : State) (n : Nat) (d : Landing) (e : IntakeEntry) (m : Manifest) (g : GroupEntry) (b : Binding) : Prop :=
  bucketOf (fnSt s n) d.bucket = some e ∧ (fnSt s n).manifest = some m ∧ grpOf (fnSt s n) = some g ∧ intakeBinding m e = some b ∧
  e.auto = false ∧ e.compressed = false ∧ e.contribFormat ≠ 1 ∧ b.s24 = false

/-- R99: a stale packet and a late one are counted and change nothing else. R102: an early one is parked while the park region has room. R100: an
element of a current packet becomes a line update of its row, line and bank under the window top; R109: a flagged packet without elements counts its arrival at the bucket's seal. R107: a probe
raises its bucket's largest PROBE_EXP. R101, R103, R105: a bank applies its oldest line update to the accumulator, and a value above the window sets
OVERRANGE. R102: PARK_REPLAY processes a parked packet whose time has come. -/
def Obligations.LandingPackets : Prop :=
  ∀ (s : State) (p : Packet) (d : Landing),
    let n := hFn p
    let x := fnSt s n
    (Lands s p d → d.kind ≠ 1 →
      (landClass s n d = .stale → Gives (.landingPacket p .none) s (fun t => t = { s with regs := t.regs, landSeq := s.landSeq + 1 } ∧
        fnF t n FN_INTAKE_COUNT_STALE = min (fnF s n FN_INTAKE_COUNT_STALE + 1) 1023 ∧
        ∀ a, a ≠ pgFn n + 0x114 → wordAt t a = wordAt s a)) ∧
      (landClass s n d = .late → Gives (.landingPacket p .none) s (fun t => t = { s with regs := t.regs, landSeq := s.landSeq + 1 } ∧
        fnF t n FN_INTAKE_COUNT_LATE = min (fnF s n FN_INTAKE_COUNT_LATE + 1) 1023 ∧
        ∀ a, a ≠ pgFn n + 0x114 → wordAt t a = wordAt s a)) ∧
      (landClass s n d = .early → parkedBytes s n + p.payload.length ≤ forceF s n FN_LANDING_AREA_PARK_SIZE * 67108864 →
        Gives (.landingPacket p .none) s (fun t => t = { s with
          regs := t.regs, landSeq := s.landSeq + 1, parked := s.parked ++ [⟨s.landSeq, n, hSlice p, p⟩] } ∧ fnF t n FN_INTAKE_STATUS_PARKING = 1)) ∧
      (∀ e m g b, landClass s n d = .current → DenseBucket s n d e m g b → s.landPkts = [] →
        (d.count = 1 → hFlag p = false → accHeld s n (gradRowOf g b d.offset) = true →
          let span := gradSpan false
          Gives (.landingPacket p .none) s (fun t => t = { s with
            regs := t.regs, landSeq := s.landSeq + 1, landPkts := t.landPkts,
            updates := s.updates ++ [⟨rowSlice x (gradRowOf g b d.offset), bankOf (d.offset / span) (d.offset % span / 16), s.landSeq, n, d.bucket,
              gradRowOf g b d.offset, e.windowTop, [(d.offset % span, field d.data 0 4)]⟩] })) ∧
        (d.count = 0 → hFlag p = true → s.parked = [] → (sealAt s e.bucketSeal).state = 1 → (sealAt s e.bucketSeal).late ≤ 255 →
          (sealAt s e.bucketSeal).count + 1 < (sealAt s e.bucketSeal).expected → Gives (.landingPacket p .none) s (fun t =>
            t = { s with landSeq := s.landSeq + 1, seals := t.seals, fns := t.fns } ∧
            sealAt t e.bucketSeal = { sealAt s e.bucketSeal with count := (sealAt s e.bucketSeal).count + 1 } ∧
            fnSt t n = { x with partTokens := (x.partTokens + d.tokens) % 2 ^ 64 })))) ∧
    (∀ e, Lands s p d → d.kind = 1 → d.probeExp ≠ -32768 → landClass s n d = .current → bucketOf x d.bucket = some e → e.auto = true →
      sealFired s e.probeSeal = false → hFlag p = false → Gives (.probe p .none) s (fun t =>
        t = { s with landSeq := s.landSeq + 1, fns := t.fns } ∧
        fnSt t n = { x with probes := x.probes.filter (fun q => decide (q.bucket ≠ d.bucket)) ++
          [⟨d.bucket, some (match (x.probes.find? (fun q => decide (q.bucket = d.bucket))).bind (fun q => q.maxExp) with
            | some v => max v d.probeExp
            | none => d.probeExp), none⟩] })) ∧
    (∀ sl bank : Fin 16, alive s = true → Quiet s →
      ((∀ u ∈ s.updates, u.slice ≠ sl.val ∨ u.bank ≠ bank.val) → s.landPkts = [] → Ignores (.bankLineUpdate sl bank) s) ∧
      (∀ u pos pat, s.updates.find? (fun v => decide (v.slice = sl.val) && decide (v.bank = bank.val)) = some u → u.adds = [(pos, pat)] →
        s.landPkts = [] → (fx96OfFp32 pat u.top).nonfinite = false →
        ((fx96OfFp32 pat u.top).above = false → Gives (.bankLineUpdate sl bank) s (fun t => t = { s with
          updates := s.updates.erase u,
          accs := s.accs.map (fun a => if a.fn = u.fn ∧ a.row = u.row then
            { a with vals := tabSet 0 a.vals pos (unsigned 96 ((tabGet 0 a.vals pos : Nat) + (fx96OfFp32 pat u.top).val)) } else a) })) ∧
        ((fx96OfFp32 pat u.top).above = true → Gives (.bankLineUpdate sl bank) s (fun t => fnF t u.fn FN_INTAKE_STATUS_OVERRANGE = 1 ∧
          t.updates = s.updates.erase u ∧ ∀ a ∈ t.accs, a.fn = u.fn → a.row = u.row → ∃ o ∈ s.accs,
            tabGet 0 a.vals pos = unsigned 96 ((tabGet 0 o.vals pos : Nat) + (fx96OfFp32 pat u.top).val))))) ∧
    (∀ (k : Fin 64) (q : Parked), alive s = true → Quiet s → s.parked = [q] → s.tc2Held = [] → q.fn = k.val →
      landClass s k (parseLanding q.packet.payload) = .stale → Gives (.parkReplay k) s (fun t => t = { s with parked := [], regs := t.regs } ∧
        fnF t k FN_INTAKE_COUNT_STALE = min (fnF s k FN_INTAKE_COUNT_STALE + 1) 1023 ∧ fnF t k FN_INTAKE_STATUS_PARKING = 0))

/-! ### Collectives on the tree, Bugle and counts (R224 to R243) -/

/-- A FIFE packet of a kind for a function of the die. -/
def Sys2Proof.Claims.FifeIn (s : State) (p : Packet) (kind : Nat) : Prop :=
  Arrives s p 16 ∧ fKind p = kind ∧ hFn p ≠ 0 ∧ stateOf s (hFn p) ≠ 0

/-- Packet `q` is of a FIFE kind. -/
def Sys2Proof.Claims.IsFifeOut (q : Packet) (kind : Nat) : Prop := hType q = 16 ∧ hTc q = 0 ∧ fKind q = kind ∧ hCheck q = headerCheck q.hdr

/-- R228, R234, R240: an OPEN of an older SEQ is answered CANCELLED; one of the collective in progress is held as the child's part and answered OK. An ACK of this die's own
contribution marks it delivered. R224, R227: the result of a software collective completes its command with C. R91: recovery of an empty ledger ends, and the die goes on to the resume barrier. R238: a
current Bugle is acted on, another is counted. R264: a heartbeat of a watched die restarts its silence. R235: a count report is
held, and a request answered; COUNTS_SEND and COUNTS_TIMEOUT take place at their counter values. R241: PATH_DOWN moves the function to the tree. -/
def Obligations.CollectivesOnTheTree : Prop :=
  ∀ (s : State) (p : Packet),
    let n := hFn p
    let x := fnSt s n
    (∀ off, FifeIn s p 1 → slotOff s n (fSlot p) = some off →
      let c := collAt x off
      (seqNewer c.seq (fSeq p) = true → Gives (.fifeOpen p) s (fun t => ∃ q, Sends s t q ∧ IsFifeOut q 4 ∧ fStatus q = 1 ∧
        fSlot q = fSlot p ∧ fSeq q = fSeq p)) ∧
      (c.seq = fSeq p → c.layout = fLayout p → c.tree = none → ((layoutElems (fLayout p)).getD []).foldl (fun a e => a + e.2) 0 ≤ 16 →
        fStatus p = 0 → Gives (.fifeOpen p) s (fun t =>
          let total := ((layoutElems (fLayout p)).getD []).foldl (fun a e => a + e.2) 0
          let v := messageVals (fLayout p) (payloadLimbs p.payload total) (p.payload.drop (4 * total))
          (∃ q, t.egress = s.egress ++ [q] ∧ IsFifeOut q 4 ∧ fStatus q = 0 ∧ fSlot q = fSlot p ∧ fSeq q = fSeq p) ∧
          collAt (fnSt t n) off = { c with kids := c.kids.filter (fun k => decide (k.die ≠ dieBits (hSrc p))) ++
            [⟨dieBits (hSrc p), v.1, fCount p, v.2⟩] }))) ∧
    (∀ off, FifeIn s p 4 → slotOff s n (fSlot p) = some off →
      ((collAt x off).seq ≠ fSeq p ∨ (collAt x off).opened = false → Ignores (.fifeAck p) s) ∧
      ((collAt x off).seq = fSeq p → (collAt x off).opened = true → fStatus p = 0 → Does (.fifeAck p) s (fun u =>
        collAt (fnSt u n) off = { collAt x off with delivered := true }))) ∧
    (∀ tag addr, FifeIn s p 5 → slotOff s n (fSlot p) = some 7 → fLayout p = 0 → fStatus p = 0 → (collAt x 7).opened = true →
      (collAt x 7).seq = fSeq p → (collAt x 7).layout = 0 → (collAt x 7).line = false → (collAt x 7).nodes = [] →
      x.bg = [⟨0x10, tag, addr⟩] → armed s n = true → s.hostDown = false → Gives (.result p) s (fun t =>
        t.posted = s.posted ++ [cplEntry s n ⟨tag, 0x10, 0, fValue p⟩] ∧ (fnSt t n).bg = [] ∧
        collAt (fnSt t n) 7 = { seq := ((collAt x 7).seq + 1) % 256 })) ∧
    (∀ off, FifeIn s p 5 → slotOff s n (fSlot p) = some off → (collAt x off).seq ≠ fSeq p → fStatus p ≠ 0 → Ignores (.result p) s) ∧
    (∀ (k : Fin 64) (rows : RowSet), alive s = true → Quiet s →
      (fnF s k FN_RECOVERY_STATUS_ACTIVE = 0 → Ignores (.recoveryDone k rows) s) ∧
      (fnF s k FN_RECOVERY_STATUS_ACTIVE = 1 → ledgerListed s = [] → Does (.recoveryDone k rows) s (fun u =>
        fnF u k FN_RECOVERY_STATUS_ACTIVE = 0 ∧ fnF u k FN_RECOVERY_STATUS_INTENTS = 0 ∧ fnF u k FN_RECOVERY_STATUS_LEDGER_BAD = 0 ∧
        u.deep = s.deep ∧ ((fnSt s k).abortStops = false → (collAt (fnSt u k) 4).opened = true)))) ∧
    (FifeIn s p 7 →
      (actsRunning s n = false → Ignores (.buglePacket (.packet p)) s) ∧
      (actsRunning s n = true → fValue p % 65536 ≠ bugleSerial s n → Gives (.buglePacket (.packet p)) s (fun t => RegsOnly s t ∧
        fnF t n FN_FIFE_COUNT_STALE_BUGLES = min (fnF s n FN_FIFE_COUNT_STALE_BUGLES + 1) 0xFFFF)) ∧
      (actsRunning s n = true → fValue p % 65536 = bugleSerial s n → Does (.buglePacket (.packet p)) s (fun u =>
        fnF u n FN_FIFE_STATUS_BUGLE = 1 ∧ fnF u n FN_FIFE_STATUS_ABORTS = (fnF s n FN_FIFE_STATUS_ABORTS + 1) % 256))) ∧
    (Arrives s p 16 → fKind p = 8 →
      ((∀ w ∈ s.watch, w.die ≠ dieBits (hSrc p)) → Ignores (.heartbeatPacket p) s) ∧
      ((∃ w ∈ s.watch, w.die = dieBits (hSrc p)) → Gives (.heartbeatPacket p) s (fun t =>
        t = { s with regs := t.regs, ranks := t.ranks, watch := t.watch } ∧
        t.watch = s.watch.map (fun w => if w.die = dieBits (hSrc p) then ⟨dieBits (hSrc p), s.ticks, false⟩ else w) ∧
        tabFind t.ranks (dieBits (hSrc p)) = some (field p.hdr 0x12 1)))) ∧
    (∀ q j, FifeIn s p 0x10 → x.plan = some q → partOf q (dieBits (hSrc p)) = some j →
      (fCount p ≠ 1 → (∀ c ∈ q.counts, c.1 ≠ j) → q.sentPuts = false → hasCounts { q with counts := q.counts ++ [(j, fValue p)] } = false →
        Gives (.counts p) s (fun t => t = { s with fns := t.fns } ∧
          fnSt t n = { x with plan := some { q with counts := q.counts ++ [(j, fValue p)] } })) ∧
      (fCount p = 1 → q.phase = 2 ∨ q.phase = 3 → Gives (.counts p) s (fun t => ∃ r, Sends s t r ∧ IsFifeOut r 0x10 ∧ fCount r = 0 ∧
        fValue r = putCount q j % 2 ^ 64))) ∧
    (∀ (k : Fin 64) (j : Fin 64) (q : Plan), alive s = true → Quiet s → positioned s = true → (fnSt s k).plan = some q → q.phase = 2 →
      (j.val ≠ q.me → j.val < q.parts.length → q.me < q.parts.length → q.told.contains j.val = false → Gives (.countsSend k j) s (fun t =>
        t.ticks = s.ticks + (q.start + 128 * ((j.val + q.parts.length - q.me) % q.parts.length) - s.counter) ∧
        (fnSt t k).plan = some { q with told := q.told ++ [j.val] } ∧ ∃ r, t.egress = s.egress ++ [r] ∧ IsFifeOut r 0x10 ∧
          fCount r = 0 ∧ fValue r = putCount q j % 2 ^ 64)) ∧
      (q.told.contains j.val = true → Ignores (.countsSend k j) s) ∧
      (hasCounts q = true → Ignores (.countsTimeout k) s) ∧
      (q.parts.length = 2 → q.me = 0 → q.counts = [] → Gives (.countsTimeout k) s (fun t =>
        t.ticks = s.ticks + (q.start + 256 + 80000 - s.counter) ∧ ∃ r, t.egress = s.egress ++ [r] ∧ IsFifeOut r 0x10 ∧ fCount r = 1))) ∧
    (FifeIn s p 0x11 →
      (isBusyFn s n = false ∨ fnF s n FN_FIFE_STATUS_PATH_ACTIVE = 1 → Ignores (.pathDown p) s) ∧
      (isBusyFn s n = true → fnF s n FN_FIFE_STATUS_PATH_ACTIVE = 0 → (∀ off, off < 8 → (collAt x off).opened = false ∧ (collAt x off).kids = []) →
        Gives (.pathDown p) s (fun t => OneWord s t (pgFn n + FN_FIFE_STATUS_PATH_ACTIVE.off) ∧ fnF t n FN_FIFE_STATUS_PATH_ACTIVE = 1)))

/-! ### The slot wheel (R68, R73, R75, R106, R123, R132, R182 to R187) -/

/-- Entry `e` of the function's image `w` is reached in the running turn: the command names it, nothing holds, and the action works on `a`, whose core
has not failed. `m` and `g` are the manifest and group in force. -/
structure Sys2Proof.Claims.Reached (s : State) (k : ActAt) (code : Nat) (imgs : RowSet) (w : WheelImage) (e : WheelEntry) (m : Manifest)
    (g : GroupEntry) (a : ActOn) : Prop where
  up : alive s = true
  quiet : Quiet s
  named : namedEntry s k code = some (w, e)
  manifest : (fnSt s k.fn).manifest = some m
  group : grpOf (fnSt s k.fn) = some g
  free : (fnSt s k.fn).hold = none
  turn : k.turn = (fnSt s k.fn).turn
  on : (if actOnRow code then actOn w e k.fn k.turn (if e.sched = 0 then m.gradRows else m.stripeRows) (fnSt s k.fn).self imgs
    else some ⟨k.fn, e.slice, e.core, (fnSt s k.fn).self, e.item.toNat, imgs⟩) = some a
  core : coreFailed s (coreIx a.sl a.core) = false

/-- The state at the entry's slot: time has passed to it. -/
def Sys2Proof.Claims.due (s : State) (k : ActAt) (e : WheelEntry) : State := counterTo s (slotAt s (fnSt s k.fn) e.slot)

/-- The row's record has become `v`, and no slot of the function holds the schedule. -/
def Sys2Proof.Claims.Noted (u : State) (a : ActOn) (area : Nat) (v : RowWork) : Prop :=
  workAt (fnSt u a.n) a.m area a.j = some v ∧ (fnSt u a.n).hold = none

/-- A run of a program from its entry `pc` has begun on the action's core with `ticks` of window (R119, R120). -/
def Sys2Proof.Claims.RunBegun (s u : State) (a : ActOn) (prelude : Bool) (pc ticks : Nat) : Prop :=
  ∃ r, (coreSt u a.ix).run = some r ∧ r.fn = a.n ∧ r.prelude = prelude ∧ r.pc = pc ∧ r.start = u.ticks ∧ r.windowEnd = u.ticks + ticks ∧
    r.halted = false ∧ (coreSt u a.ix).s = [] ∧ (coreSt u a.ix).v = [] ∧ ∀ i, i ≠ a.ix → coreSt u i = coreSt s i

/-- Intake actions. R106: READOUT of a sealed bucket rounds the row's accumulators out into frame B, a leaf that nothing touched is null, and an open bucket holds the
schedule under cause 1. R125: GCOMMIT forms the postmark, GWRITE writes the leaf, R68: GSEND sends a null leaf's null deltas, R73: GHOLD and HOLD
write the complete pigeonhole and release it. Pass actions. R126: PRELUDE and R119: RUN begin their runs. R93, R83: LREAD finds a settled or an untouched leaf, and brings a leaf with its
gradient into the core. R132: a stream read brings its bytes. R75: REG writes the intent entry, SEND sends the registered
delta, LWRITE writes the leaf and frees the entry, EMIT ends the row. R37: FILL fills the next window. R183: MGMT only lets time pass. A command
that names no entry of the running schedule does nothing. -/
def Obligations.WheelActions : Prop :=
  ∀ (s : State) (k : ActAt) (bad : Bool) (imgs : RowSet),
    (∀ c ∈ [(actReadout, Instr.readout k), (actGcommit, .gcommit k), (actGwrite, .gwrite k), (actGsend, .gsend k), (actGhold, .ghold k),
        (actPrelude, .prelude k), (actLread, .lread k bad imgs), (actRun, .run k), (actSrd, .srdAction k imgs), (actReg, .reg k),
        (actSend, .send k), (actLwrite, .lwrite k), (actEmit, .emit k), (actHold, .hold k imgs), (actFill, .fill k), (actMgmt, .mgmt k)],
      alive s = true → Quiet s → namedEntry s k c.1 = none → Ignores c.2 s) ∧
    (∀ (w : WheelImage) (e : WheelEntry) (m : Manifest) (g : GroupEntry) (a : ActOn),
      let n := k.fn.val
      let x := fnSt s n
      let r := due s k e
      let v0 := a.work x 0
      let v1 := a.work x 1
      let gen := x.step % (m.d + 1)
      let frame := fun (c base : Nat) => memReadN (coreSt s (coreIx a.sl c)).sram base 65536
      (Reached s k actReadout [] w e m g a → (a.leaf x 1).isSome = true → v1.loaded = false →
        (∀ b q, rowBucket x a.j = some (b, q) → sealFired s q.bucketSeal = false → Gives (.readout k) s (fun t =>
          (fnSt t n).hold = some ⟨1, b, e.slice, e.core, e.sched, t.counter, e.slot, some k.entry⟩ ∧ t.ticks = r.ticks ∧ t.accs = s.accs ∧
          fnF t n FN_WHEEL_STATUS_HELD = 1 ∧ fnF t n FN_INTAKE_STATUS_STALLED = 1)) ∧
        ((∀ b q, rowBucket x a.j = some (b, q) → sealFired s q.bucketSeal = true) → accHeld s n a.j = false →
          Gives (.readout k) s (fun t => t = { r with fns := t.fns } ∧ Noted t a 1 { v1 with isNull := true, loaded := true })) ∧
        (∀ b q c, rowBucket x a.j = some (b, q) → sealFired s q.bucketSeal = true → coreFree s a.ix = true →
          s.accs.find? (fun z => decide (z.fn = n) && decide (z.row = a.j)) = some c → Gives (.readout k) s (fun t =>
            Noted t a 1 { v1 with loaded := true } ∧ t.accs = s.accs.erase c ∧ (coreSt t a.ix).leaf = some (n, 1, a.m, a.j) ∧
            ∀ i, i < 16320 → field (memReadN (coreSt t a.ix).sram 0x10100 65280) (4 * i) 4 =
              (fp32OfFx96 (signed 96 (tabGet 0 c.vals i)) ((bucketTop x b q).getD q.windowTop)).1))) ∧
      (Reached s k actGcommit [] w e m g a → (a.leaf x 1).isSome = true → v1.loaded = true → v1.isNull = false → v1.committed = false →
        Gives (.gcommit k) s (fun t => t = { r with fns := t.fns, cores := t.cores } ∧
          Noted t a 1 { v1 with committed := true, core := a.core } ∧ (coreSt t a.ix).leaf = some (n, 1, a.m, a.j) ∧
          pmStamp (memReadN (coreSt t a.ix).sram 0x10000 65536) = x.step % 2 ^ 64 ∧
          slotBody (memReadN (coreSt t a.ix).sram 0x10000 65536) = frameB s a.sl a.core)) ∧
      (Reached s k actGwrite [] w e m g a → (a.leaf x 1).isSome = true → v1.loaded = true → v1.isNull = false → v1.committed = true →
        v1.written = false → sliceHalted s a.sl = false → (unrebuiltAt x 1 gen a.j) = [] → Does (.gwrite k) s (fun u =>
          Noted u a 1 { v1 with written := true } ∧ heldSlot u n a.m 1 gen a.j = frame v1.core 0x10000)) ∧
      (Reached s k actGsend [] w e m g a → (a.leaf x 1).isSome = true → v1.loaded = true → v1.isNull = true → v1.sent = false →
        holdersOf x g a.j ≠ [] → (∀ h ∈ holdersOf x g a.j, dieBits h.dst ≠ selfDie s) → Does (.gsend k) s (fun u =>
          Noted u a 1 { v1 with sent := true } ∧ u.ticks = r.ticks ∧ ∃ v ∈ u.waits, v.kind = .grad ∧ v.fn = n ∧ v.row = a.j ∧ v.member = a.m ∧
            v.isNull = true ∧ v.sent = true ∧ v.stamp = x.step ∧ v.holders = holdersOf x g a.j)) ∧
      (∀ c ∈ [(actGhold, Instr.ghold k, 1, ([] : RowSet)), (actHold, .hold k imgs, 0, imgs)], Reached s k c.1 c.2.2.2 w e m g a → ∀ p b,
        let area := c.2.2.1
        let g' := if area = 0 then 0 else gen
        let old := heldSlot s n a.m area g' a.j
        holdDue x a area = some p → bagFind s a.sl n area g' a.j p = some b → b.writing = false → b.damaged = false → bagComplete x b = true →
        (area = 0 → slotErased x.epoch 0 true old = false) → sliceHalted s a.sl = false → (∀ q ∈ b.recs, dieBits q.src ≠ selfDie s) →
        Does c.2.1 s (fun u => heldSlot u n a.m area g' a.j = foldedHole x g b a.m old x.step ∧
          (fnSt u n).rowsDone.contains (area, a.j, p) = true ∧ bagFind u a.sl n area g' a.j p = none ∧ (fnSt u n).hold = none)) ∧
      (Reached s k actPrelude [] w e m g a → ∀ set cl p, x.progs = some set → classProg set a.j = some (cl, p) → p.preludeEntry ≠ 0xFFFF →
        coreFree s a.ix = true → Gives (.prelude k) s (fun t => RunBegun s t a true (p.first + p.preludeEntry) (32 * e.length) ∧
          t.ticks = r.ticks ∧ t.fns = s.fns)) ∧
      (Reached s k actLread imgs w e m g a → bad = false → ∀ l, a.leaf x 0 = some l → l.kind = .state → v0.loaded = false →
        coreFree s a.ix = true → leafPhase x l.binding.tensor = 0 ∨ phase0Done x = true → heldHere x a.m a.j = true →
        let slot := heldSlot s n a.m 0 0 a.j
        slotErased x.epoch 0 false slot = false → (unrebuiltAt x 0 0 a.j) = [] → pmKind slot = 1 →
        (pmStamp slot = x.step → Gives (.lread k bad imgs) s (fun t =>
          Noted t a 0 { v0 with loaded := true, slice := a.sl, core := a.core, settled := true } ∧
          (coreSt t a.ix).leaf = some (n, 0, a.m, a.j) ∧ memReadN (coreSt t a.ix).sram 0x10000 65536 = slot)) ∧
        (pmStamp slot ≠ x.step → x.sealedPasses < m.d → Gives (.lread k bad imgs) s (fun t =>
          Noted t a 0 { v0 with loaded := true, slice := a.sl, core := a.core, isNull := true } ∧
          (coreSt t a.ix).leaf = some (n, 0, a.m, a.j) ∧ memReadN (coreSt t a.ix).sram 0x10000 65536 = slot)) ∧
        (pmStamp slot ≠ x.step → m.d ≤ x.sealedPasses →
          let q := fun (j : Nat) => heldSlot s n a.m 1 (passGen x) j
          (∀ o ∈ coveredRows x l, heldHere x a.m o.2 = true ∧ slotErased x.epoch 1 false (q o.2) = false ∧ unrebuiltAt x 1 (passGen x) o.2 = []) →
          (∃ o ∈ coveredRows x l, gradPresent x (q o.2) = true) → Gives (.lread k bad imgs) s (fun t =>
            Noted t a 0 { v0 with loaded := true, slice := a.sl, core := a.core } ∧ (coreSt t a.ix).leaf = some (n, 0, a.m, a.j) ∧
            memReadN (coreSt t a.ix).sram 0 65536 = slot))) ∧
      (Reached s k actRun [] w e m g a → ∀ l set c cl p, a.leaf x 0 = some l → l.kind = .state → v0.loaded = true → v0.isNull = false →
        v0.settled = false → v0.run = false → v0.core = a.core → x.progs = some set → classOf set l.binding.tensor = some c →
        classProg set c = some (cl, p) → Gives (.run k) s (fun t => RunBegun s t a false (p.first + p.leafEntry) (32 * e.length) ∧
          Noted t a 0 { v0 with run := true } ∧ t.ticks = r.ticks)) ∧
      (Reached s k actSrd imgs w e m g a → ∀ (z : CoreRun) (q : Srd) rest, (coreSt s a.ix).run = some z → z.fn = n → z.row = a.j → z.prelude = false →
        z.droppedAt = none → z.srds = q :: rest →
        (∀ o ∈ [q.off, q.off + q.len - 1], ∀ ar ge row, rangePart m o = .coded ar ge row → heldHere x x.self row = true ∧
          slotErased x.epoch ar false (heldSlot s n x.self ar ge row) = false ∧ unrebuiltAt x ar ge row = []) →
        Gives (.srdAction k imgs) s (fun t => t = { r with cores := t.cores } ∧ (coreSt t a.ix).run = some { z with srds := rest } ∧
          (coreSt t a.ix).sram = memWriteN (coreSt s a.ix).sram q.dst (rangeRead s n q.off q.len))) ∧
      (Reached s k actReg [] w e m g a → (a.leaf x 0).isSome = true → v0.loaded = true → v0.isNull = false → v0.settled = false →
        v0.committed = true → v0.reg = false → v0.twin = 0 ∨ v0.twin = 2 →
        let i := coreIx a.sl v0.core
        let idx := tabGet 0 s.ring i % 4096
        let at_ := 32 * ledgerIx a.sl v0.core idx
        entryOk (nearRead s at_ 32) = true → field (nearRead s at_ 32) 0 1 = 0 → Gives (.reg k) s (fun t =>
          nearRead t at_ 32 = intentEntry n a.j x.step (pmDigest (frame v0.core 0x10000)) x.epoch ∧
          Noted t a 0 { v0 with reg := true, ledger := idx } ∧ tabGet 0 t.ring i = (idx + 1) % 4096 ∧ t.deep = s.deep ∧
          getF t (pgSlice a.sl) SL_LEDGER_STATUS_IN_USE = (getF s (pgSlice a.sl) SL_LEDGER_STATUS_IN_USE + 1) % 2 ^ 18)) ∧
      (Reached s k actSend [] w e m g a → ∀ l, a.leaf x 0 = some l → l.kind = .state → v0.loaded = true → v0.isNull = false →
        v0.settled = false → v0.registered = true → v0.sent = false → v0.twin ≠ 4 → ∀ v, holdersOf x g a.j ≠ [] →
        (∀ h ∈ v.holders, dieBits h.dst ≠ selfDie s) → v.holders ≠ [] →
        s.waits.find? (fun q => decide (q.fn = n) && decide (q.kind = .state) && decide (q.row = a.j) && decide (q.member = a.m) && !q.sent) = some v →
        Does (.send k) s (fun u => Noted u a 0 { v0 with sent := true } ∧ { v with sent := true, sentAt := u.ticks } ∈ u.waits ∧
          u.ticks = r.ticks)) ∧
      (Reached s k actLwrite [] w e m g a → ∀ l v, a.leaf x 0 = some l → l.kind = .state → v0.loaded = true → v0.isNull = false →
        v0.settled = false → v0.sent = true → v0.written = false → v0.twin ≠ 4 → deltaWait s n a.m a.j = some v → v.allDone = true →
        sliceHalted s a.sl = false → forceF s n FN_DIG_CTRL_LEAF_TRACE = 0 → Does (.lwrite k) s (fun u =>
          Noted u a 0 { v0 with written := true } ∧ u.waits = s.waits.erase v ∧
          heldSlot u n a.m 0 0 a.j = sealPostmark (setField (frame v0.core 0x10000) 0x28 4 x.epoch) ∧
          nearRead u (32 * ledgerIx v0.slice v0.core v0.ledger) 32 = zeros 32)) ∧
      (Reached s k actEmit [] w e m g a → ∀ l, a.leaf x 0 = some l → l.kind = .state → v0.loaded = true →
        (v0.isNull || v0.settled) = true ∧ v0.sent = true ∨ (v0.isNull || v0.settled) = false ∧ v0.written = true →
        v0.done = false → v0.twin ≠ 4 → Does (.emit k) s (fun u => Noted u a 0 { v0 with done := true } ∧ u.ticks = r.ticks ∧
          (coreSt u (coreIx a.sl v0.core)).leaf ≠ some (n, 0, a.m, a.j))) ∧
      (Reached s k actFill [] w e m g a → ∀ b,
        let win := x.fills % 2
        x.fills < w.fillList.length → forceF s n FN_STATE_CFG_WINDOW_SIZE ≠ 0 → sealFired s (freeSeal m win) = true →
        (sealAt s (fillSeal m win)).owner = n → (sealAt s (freeSeal m win)).owner = n →
        layerBindings x m (w.fillList.getD x.fills 0) = [b] → b.gather = false → Does (.fill k) s (fun u =>
          (fnSt u n).fills = x.fills + 1 ∧ sealFired u (fillSeal m win) = true ∧ u.ticks = r.ticks ∧
          u.near = memWriteN s.near (windowAt s n win + 1048576)
            (rangeRead s n (wcStart m (wcReadSlot x m) + b.wcOffset) (wcRegion b)))) ∧
      (Reached s k actMgmt [] w e m g a → Gives (.mgmt k) s (fun t => t = r)))

/-- R111: the watchdog of a readout hold posts its event after STALL_LIMIT × 10 ms. R65: a member whose buckets are safe and whose partials are delivered reaches its gradient
seal. R187, R64, R93, R456: the intake, pass and re-run schedules and the load pass begin at their counter turn starts. R123: the end of a halted run's
window commits the leaf. R139: a run past its budget traps, and a run that a trap interrupted restarts. R133: a fabric request without answer gives
zero and FABRIC_TIMEOUT. -/
def Obligations.PassesAndRuns : Prop :=
  ∀ (s : State) (n : Fin 64), alive s = true → Quiet s →
    let x := fnSt s n
    (x.hold = none → Ignores (.stallWatchdog n) s) ∧
    (∀ h e, x.hold = some h → h.cause = 1 → bucketOf x h.detail = some e → fnF s n FN_INTAKE_CTRL_STALL_LIMIT ≠ 0 →
      Gives (.stallWatchdog n) s (fun t => t.ticks = s.ticks + (h.since + fnF s n FN_INTAKE_CTRL_STALL_LIMIT * 8000000 - s.counter) ∧
        (fnSt t n).hold = some h ∧ (evRing s n = 0 → t.posted = s.posted))) ∧
    (x.intakeOpen = false → Ignores (.gradientSeal n) s) ∧
    (x.intakeOpen = true → x.scalarsSent = true → (collAt x 0).delivered = true → partialsReady s n = true → x.aborting = false → x.satCount = 0 →
      Does (.gradientSeal n) s (fun u => (fnSt u n).gradSealed = true ∧ (fnSt u n).intakeOpen = false ∧ fnF u n FN_STEP_STATUS_PHASE = 2)) ∧
    (∀ c, x.intakeFrom = some c → actsRunning s n = true → x.sched = 0 → x.passOn = false → x.aborting = false → x.wheel ≠ none →
      holding s = false → Gives (.intakeStart n) s (fun t =>
        (fnSt t n).sched = 1 ∧ (fnSt t n).turn = 0 ∧ (fnSt t n).turnAt = max (turnStartAt s c) (turnStartAt s s.counter) ∧
        (s.counter ≤ turnStartAt s c → (fnSt t n).turnAt = turnStartAt s c) ∧
        t.ticks = s.ticks + ((fnSt t n).turnAt - s.counter) ∧ fnF t n FN_WHEEL_STATUS_SCHED = 1)) ∧
    (x.intakeFrom = none → Ignores (.intakeStart n) s) ∧
    (∀ rerun, x.passFrom = none → Ignores (if rerun = true then .rerunStart n else .passStart n) s) ∧
    (∀ c rerun, x.passFrom = some c → x.gradSealed = true → x.rerunDue = rerun → actsRunning s n = true → x.hold = none → x.aborting = false →
      x.wheel ≠ none → holding s = false → intakeOver x = true → s.counter ≤ turnStartAt s (c + startMargin s n) →
      Does (if rerun = true then .rerunStart n else .passStart n) s (fun u => (fnSt u n).sched = 2 ∧ (fnSt u n).turn = 0 ∧
        (fnSt u n).turnAt = turnStartAt s (c + startMargin s n) ∧ (fnSt u n).passFrom = none ∧ fnF u n FN_STEP_STATUS_PHASE = 3 ∧
        fnF u n FN_STEP_STATUS_RERUN = (if rerun = true then 1 else 0) ∧ fnF u n FN_WHEEL_STATUS_SCHED = 2 ∧
        u.ticks = s.ticks + (turnStartAt s (c + startMargin s n) - s.counter))) ∧
    (x.passFrom = none → Ignores (.loadPassStart n) s) ∧
    (∀ c m g, x.passFrom = some c → x.manifest = some m → grpOf x = some g → x.loadPass = true → x.passOn = false → isStarting s n = true →
      holding s = false → boundRows x = [] → absorbedRows x m.stripeRows = [] → Does (.loadPassStart n) s (fun u => (fnSt u n).passOn = true ∧
        (fnSt u n).passFrom = none ∧ fnF u n FN_STEP_STATUS_PHASE = 3 ∧ u.waits = s.waits ∧
        u.ticks = s.ticks + ((if s.counter ≤ turnStartAt s c then turnStartAt s c else turnStartAt s s.counter) - s.counter))) ∧
    (∀ core : Fin 512,
      ((coreSt s core).run = none → Ignores (.runWindowEnd core) s ∧ Ignores (.runBudgetExpiry core) s ∧ ∀ imgs, Ignores (.runRestart core imgs) s) ∧
      (∀ r, (coreSt s core).run = some r → r.droppedAt = none → r.fn = n.val →
        (r.halted = true → r.prelude = true → Gives (.runWindowEnd core) s (fun t => (coreSt t core).run = none ∧
          t.ticks = max s.ticks r.windowEnd ∧ ∀ i, i ≠ core.val → coreSt t i = coreSt s i)) ∧
        (∀ m g v l, r.halted = true → r.prelude = false → x.manifest = some m → grpOf x = some g → workAt x r.member 0 r.row = some v →
          leafAt m g r.member 0 r.row = some l → r.member ≠ x.self → Gives (.runWindowEnd core) s (fun t => (coreSt t core).run = none ∧
            t.ticks = max s.ticks r.windowEnd ∧ workAt (fnSt t n) r.member 0 r.row = some { v with committed := true } ∧
            pmStamp (memReadN (coreSt t core).sram 0x10000 256) = x.step % 2 ^ 64 ∧
            memReadN (coreSt t core).sram 0x10100 65280 = memReadN (coreSt s core).sram 0x10100 65280)) ∧
        (r.halted = false → r.again = none → Does (.runBudgetExpiry core) s (fun u => u.ticks = max s.ticks (r.start + (r.budget + 1) / 2) ∧
          ∀ q, (coreSt u core).run = some q → q.droppedAt ≠ none)) ∧
        (∀ m set cl p c imgs, r.again = some c → r.prelude = true → x.manifest = some m → x.progs = some set → classProg set r.cls = some (cl, p) →
          Gives (.runRestart core imgs) s (fun t => ∃ q, (coreSt t core).run = some q ∧ q.prelude = true ∧ q.again = none ∧ q.halted = false ∧
            q.pc = p.first + p.preludeEntry ∧ q.windowEnd = q.start + (r.windowEnd - r.start) ∧ q.start = t.ticks ∧
            t.ticks = s.ticks + (roundUp s.counter 32 - s.counter) ∧
            getF t (pgSlice (core.val / 32)) SL_CORE_COUNT_RESTARTS = min (getF s (pgSlice (core.val / 32)) SL_CORE_COUNT_RESTARTS + 1) 65535)))) ∧
    (∀ (sl : Fin 16) (c : Fin 32),
      ((∀ q ∈ s.requests, ∀ d, q.owner ≠ .core sl c d) → Ignores (.fabricTimeout sl c) s) ∧
      (∀ q d, s.requests.find? (fun q => match q.owner with | .core a b _ => decide (a = sl.val) && decide (b = c.val)) = some q →
        q.owner = .core sl c d → Gives (.fabricTimeout sl c) s (fun t => t.requests = s.requests.erase q ∧
          t.ticks = max s.ticks (q.sentAt + 8000) ∧ coreSt t (coreIx sl c) = setS (coreSt s (coreIx sl c)) d 0 ∧
          fnF t q.fn FN_PROG_STATUS_FABRIC_TIMEOUT = 1)))

/-! ### Stored data, monitors and audits (ch. 12, R34, R75, R178, R192, R282, R376) -/

/-- A block of the deep tier as R327 returns it. -/
def Sys2Proof.Claims.blockNow (s : State) (ch block : Nat) (raw : List Byte) : BlockRead := decodeBlock ch block (storedRaw s ch block raw)

/-- The channel is neither halted nor failed. -/
def Sys2Proof.Claims.served (s : State) (ch : Nat) : Prop :=
  chanBit s SL_LINE_STATUS_HALTED ch = false ∧ chanBit s SL_LINE_STATUS_FAILED ch = false

/-- The die has withdrawn with a cause and a channel (R332). -/
def Sys2Proof.Claims.Withdrawn (u : State) (cause ch : Nat) : Prop :=
  getF u pgGlobal GLOBAL_WITHDRAW_WITHDRAWN = 1 ∧ getF u pgGlobal GLOBAL_WITHDRAW_CAUSE = cause ∧
  getF u pgGlobal GLOBAL_WITHDRAW_CHANNEL = ch ∧ ∀ k, k < 64 → (fnSt u k).mute = true

/-- R331: an error-free read changes nothing; an error halts the channel, counts in LINE_COUNT, and CHANNEL_RESUME ends the halt, takes a correctable
block for write-back and erases a slot that lost a line (R329). R340: the write-back is done or cancelled, and an error at the same symbol is a hard fault,
which R342 remaps in the lowest free entry, or finds the table full. R331, R332: a channel that fails, and R348 a sequencer fault, withdraw the die. R77: a delayed write is repeated
whole. Table 12.4: a near-tier line by its region. R335, R345, R62: rows are verified in their order. R344: the Drone takes the next block, and the last
one of all ends the lap. -/
def Obligations.StoredDataChecks : Prop :=
  ∀ s : State, alive s = true → Quiet s →
    (∀ (ch : Fin 64) (raw : List Byte) (imgs : RowImages),
      let pg := pgSlice (ch / 4)
      (∀ (block : BitVec 23) (owner : BlockOwner),
        let b := blockNow s ch block.toNat raw
        (¬served s ch ∨ b.clean = true → Ignores (.deepReadComplete ch block raw owner) s) ∧
        (served s ch → b.clean = false → Does (.deepReadComplete ch block raw owner) s (fun u =>
          chanBit u SL_LINE_STATUS_HALTED ch = true ∧ u.integ.halted = s.integ.halted ++ [⟨ch, block.toNat, owner⟩] ∧
          getF u pg SL_LINE_COUNT_CE = min (getF s pg SL_LINE_COUNT_CE + b.ce) 0xFFFF ∧
          getF u pg SL_LINE_COUNT_UE = min (getF s pg SL_LINE_COUNT_UE + b.ue) 0xFF ∧
          getF u pg SL_LINE_COUNT_HALTS = min (getF s pg SL_LINE_COUNT_HALTS + 1) 0xFF ∧
          (b.address = true → chanBit u SL_LINE_STATUS_ADDRESS ch = true) ∧ u.deep = s.deep ∧ u.near = s.near))) ∧
      ((∀ h ∈ s.integ.halted, h.ch ≠ ch.val) → Ignores (.channelResume ch raw imgs) s) ∧
      (∀ h, s.integ.halted.find? (fun h => decide (h.ch = ch.val)) = some h → chanBit s SL_LINE_STATUS_FAILED ch = false →
        let b := blockNow s ch h.block raw
        (b.ue = 0 → Gives (.channelResume ch raw imgs) s (fun t => OneWord { s with integ := t.integ } t (pg + 0x05C) ∧
          chanBit t SL_LINE_STATUS_HALTED ch = false ∧
          t.integ = { s.integ with
            halted := s.integ.halted.erase h
            fixes := (if b.ce ≠ 0 ∧ watched s ch = false ∧ (∀ q ∈ s.integ.fixes, q.ch ≠ ch.val ∨ q.block ≠ h.block)
              then s.integ.fixes ++ [⟨ch, h.block, b.symbols, false⟩] else s.integ.fixes) })) ∧
        (b.ue ≠ 0 → h.owner = .spare ∨ h.owner = .none → Gives (.channelResume ch raw imgs) s (fun t =>
          OneWord { s with integ := t.integ } t (pg + 0x05C) ∧ chanBit t SL_LINE_STATUS_HALTED ch = false ∧
          t.integ = { s.integ with halted := s.integ.halted.erase h, blocks := tabPut s.integ.blocks (blockAddr ch h.block) none })) ∧
        (∀ n m area gen row o, b.ue ≠ 0 → h.owner = .slot n m area gen row o → rowReserved s n area gen row = true →
          (fnSt s n).manifest ≠ none → Memory.wf s = true → Gives (.channelResume ch raw imgs) s (fun t => chanBit t SL_LINE_STATUS_HALTED ch = false ∧
            (heldSlot t n m area gen row).take 256 = List.replicate 256 0xFF ∧
            (heldSlot t n m area gen row).drop 256 = (heldSlot s n m area gen row).drop 256 ∧
            fnF t n FN_INTEG_STATUS_ERASED = min (fnF s n FN_INTEG_STATUS_ERASED + 1) 0xFFFF))) ∧
      (∀ (block : BitVec 23),
        let open_ := fun (w : Bool) => s.integ.fixes.find? (fun q => decide (q.ch = ch.val) && decide (q.block = block.toNat) && q.written == w)
        (open_ false = none → ∀ w, Ignores (.ceWriteback ch block w) s) ∧
        (∀ q, open_ false = some q →
          Gives (.ceWriteback ch block true) s (fun t => t = { s with integ := { s.integ with fixes := s.integ.fixes.erase q } }) ∧
          (tabFind s.integ.blocks (blockAddr ch block.toNat) = none → Gives (.ceWriteback ch block false) s (fun t =>
            t = { s with integ := { s.integ with fixes := s.integ.fixes.map (fun r => if r = q then { r with written := true } else r) } }))) ∧
        (open_ true = none → Ignores (.hardFaultCheck ch block raw) s) ∧
        (∀ q, open_ true = some q →
          let hard := (blockNow s ch block.toNat raw).symbols.any (fun k => q.symbols.contains k)
          (hard = false → Gives (.hardFaultCheck ch block raw) s (fun t =>
            t = { s with integ := { s.integ with fixes := s.integ.fixes.erase q } })) ∧
          (∀ e, hard = true → (List.range 16).find? (fun e => !bit (wordAt s (remapAt ch e)).toNat 31) = some e →
            Gives (.hardFaultCheck ch block raw) s (fun t => OneWord { s with integ := t.integ } t (remapAt ch e) ∧
              (wordAt t (remapAt ch e)).toNat = 2 ^ 31 + block.toNat)) ∧
          (hard = true → (∀ e, e < 16 → bit (wordAt s (remapAt ch e)).toNat 31 = true) → Does (.hardFaultCheck ch block raw) s (fun u =>
            chanBit u SL_LINE_STATUS_REMAP_FULL ch = true ∧ (ch.val, block.toNat) ∈ u.integ.unmapped ∧
            ∀ e, e < 16 → wordAt u (remapAt ch e) = wordAt s (remapAt ch e))))) ∧
      (chanBit s SL_LINE_STATUS_FAILED ch = true → Ignores (.channelTrainingFailure ch) s) ∧
      (chanBit s SL_LINE_STATUS_FAILED ch = false → Does (.channelTrainingFailure ch) s (fun u =>
        chanBit u SL_LINE_STATUS_FAILED ch = true ∧ chanBit u SL_LINE_STATUS_HALTED ch = true ∧
        (getF s pgGlobal GLOBAL_WITHDRAW_WITHDRAWN = 0 → (∀ k, 0 < k → k < 64 → stateOf s k ≠ 2) → Withdrawn u 1 ch))) ∧
      (∀ (block : Nat) (owner : BlockOwner), block = tabGet 0 s.integ.lapNext ch →
        let work := getF s pgDrone DRONE_CTRL_ENABLE ≠ 0 ∧ getF s pgDrone DRONE_CTRL_RATE ≠ 0 ∧ backgroundPaused s = false ∧ served s ch ∧ block < 2 ^ 23
        let read := ((List.range 64).map (fun c => if c = ch.val then block + 1 else tabGet 0 s.integ.lapNext c)).sum
        (¬work → Ignores (.droneBlockRead ch raw owner) s) ∧
        (work → (blockNow s ch block raw).clean = true →
          (read ≠ 64 * 2 ^ 23 → Does (.droneBlockRead ch raw owner) s (fun u => u.integ.lapNext = tabSet 0 s.integ.lapNext ch (block + 1) ∧
            u.integ.halted = s.integ.halted ∧ u.deep = s.deep ∧ (block + 1 ≤ 2 ^ 23 → read < 64 * 2 ^ 23 →
              getF u pgDrone DRONE_STATUS_DATA_PROGRESS = read * 1000 / (64 * 2 ^ 23)))) ∧
          (read = 64 * 2 ^ 23 → Does (.droneBlockRead ch raw owner) s (fun u => u.integ.lapNext = [] ∧ u.integ.lapAt = s.ticks ∧
            getF u pgDrone DRONE_STATUS_DATA_PROGRESS = 0 ∧
            getF u pgDrone DRONE_LAPS_DATA_LAP = min ((s.ticks - s.integ.lapAt) / 800000000) 0xFFFF))))) ∧
    (getF s pgGlobal GLOBAL_WITHDRAW_WITHDRAWN = 1 → Ignores .sequencerLockstep s) ∧
    (getF s pgGlobal GLOBAL_WITHDRAW_WITHDRAWN = 0 → (∀ k, 0 < k → k < 64 → stateOf s k ≠ 2) → Does .sequencerLockstep s (fun u => Withdrawn u 2 0)) ∧
    (∀ sl : Fin 16, (sliceHalted s sl = true ∨ (∀ d ∈ s.deepWrites, d.slice ≠ sl.val) → Ignores (.deepWriteComplete sl) s) ∧
      (∀ d, sliceHalted s sl = false → s.deepWrites.find? (fun d => decide (d.slice = sl.val)) = some d → d.isHole = false → d.bytes.length = 65536 →
        (fnSt s d.fn).manifest ≠ none → Does (.deepWriteComplete sl) s (fun u => u.deepWrites = s.deepWrites.erase d ∧
          heldSlot u d.fn d.member d.area d.gen d.row = d.bytes ∧
          ∀ v, workAt (fnSt s d.fn) d.member d.area d.row = some v → d.area ≤ 1 →
            workAt (fnSt u d.fn) d.member d.area d.row = some { v with written := true }))) ∧
    (∀ (r : NearRegion) (imgs : RowImages),
      Ignores (.nearReadComplete r false imgs) s ∧
      (r = .window ∨ r = .page .spare ∨ r = .page .none → Ignores (.nearReadComplete r true imgs) s) ∧
      (∀ n, r = .landing n → Does (.nearReadComplete r true imgs) s (fun u => u = { s with agenda := [.integrity n 1] })) ∧
      (∀ n, r = .rowList n → Does (.nearReadComplete r true imgs) s (fun u => u = { s with agenda := [.integrity n 3] })) ∧
      (∀ sl c e, r = .ledger sl c e → Gives (.nearReadComplete r true imgs) s (fun t =>
        let a := sl.val * 4194304 + c.val * 131072 + 32 * e.val
        entryOk (nearRead t a 32) = false ∧ ∀ b, b < a ∨ a + 32 ≤ b → memRead t.near b = memRead s.near b)) ∧
      (∀ i p, r = .push i → s.pushes[i]? = some p → Gives (.nearReadComplete r true imgs) s (fun t => t.pushes = s.pushes.erase p))) ∧
    (∀ (n : Fin 64) (imgs : RowImages),
      let x := fnSt s n
      (∀ (area : Fin 2) (gen row : Nat),
        let marked := ∃ g, grpOf x = some g ∧ ∃ p, p < g.r ∧ heldHere x (holeMember g row p) row = true ∧
          pmKind (heldSlot s n (holeMember g row p) area gen row) = 0xFF
        let due := marked ∧ (x.groupDone = true ∨ x.passOn = false) ∧ rowReserved s n area gen row = false
        (due → Does (.erasureReencode n area gen row imgs) s (fun u => u = (verifyAt s n area gen row imgs).state)) ∧
        (¬due → Ignores (.erasureReencode n area gen row imgs) s)) ∧
      (x.verify = none → Ignores (.verifyRow n imgs) s) ∧
      (∀ v, x.verify = some v → actsRunning s n = true → holding s = false → v.left ≠ 0 → verifyWaits s n v.area v.gen v.next = false →
        let r := verifyAt s n v.area v.gen v.next imgs
        (v.left ≠ 1 → Does (.verifyRow n imgs) s (fun u => u.deep = r.state.deep ∧ (fnSt u n).verify = some { v with
          next := v.next + 1, left := v.left - 1, verified := v.verified + 1, reencoded := v.reencoded + r.reencoded,
          decoded := v.decoded + r.decoded, lost := v.lost + b2n r.lost })) ∧
        (∀ tag arg, v.left = 1 → r.state = s → x.bg = [⟨6, tag, arg⟩] → armed s n = true → s.hostDown = false →
          Does (.verifyRow n imgs) s (fun u => (fnSt u n).verify = none ∧ fnF u n FN_CODE_STATUS_VERIFYING = 0 ∧ (fnSt u n).bg = [] ∧
            u.posted = s.posted ++ [cplEntry s n ⟨tag, 6, if v.lost + b2n r.lost ≠ 0 then 8 else 0,
              min (v.verified + 1) 0xFFFF * 2 ^ 48 + min (v.reencoded + r.reencoded) 0xFFFF * 2 ^ 32 +
                min (v.decoded + r.decoded) 0xFFFF * 2 ^ 16 + min (v.lost + b2n r.lost) 0xFFFF⟩]))) ∧
      (getF s pgDrone DRONE_CTRL_PARITY = 0 ∨ stateOf s n ≠ 2 ∨ n = 0 ∨ x.role ≠ 1 ∨ parityPaused s n = true → Ignores (.parityLapRow n imgs) s) ∧
      (∀ m g i, getF s pgDrone DRONE_CTRL_PARITY ≠ 0 → stateOf s n = 2 → n ≠ 0 → x.role = 1 → parityPaused s n = false → x.manifest = some m →
        grpOf x = some g → (List.range g.n).find? (fun i => lapRow x m g (tabGet 0 s.integ.rowNext n + i)) = some i →
        let j := tabGet 0 s.integ.rowNext n + i
        verifyWaits s n 0 0 j = false → Does (.parityLapRow n imgs) s (fun u => u.deep = (verifyAt s n 0 0 j imgs).state.deep ∧
          (u.integ.rowNext = tabSet 0 s.integ.rowNext n (j + 1) ∨ (u.integ.rowNext = [] ∧ u.integ.rowsAt = s.ticks)))))

/-- R75: an acknowledged intent entry registers the row's delta. R338: the oldest wait of a function past RECEIPT_LIMIT is an integrity abort. R349, R350: an audit is chosen,
counted where the auditor agrees, decided by the referee otherwise, and dropped at AUDIT_LIMIT. R192: the occupancy of a window is shown, and hot channels marked. R282: the minima of the links are
kept, and four windows below a limit in a row give the state. R178: a slice's refresh rate. R376: a moderated vector is sent at the end of its interval. R34: the copy of a page
is complete. -/
def Obligations.MonitorsAndAudits : Prop :=
  ∀ s : State, alive s = true → Quiet s →
    (∀ (n : Fin 64),
      let x := fnSt s n
      (∀ (member : Fin 16) (row : Nat),
        (∀ v, workAt x member 0 row = some v → v.reg = true → v.registered = false → Gives (.intentRegistered n member row) s (fun t =>
          ∃ w : Wait, t = { s with waits := s.waits ++ [w], fns := t.fns } ∧ w.kind = .state ∧ w.fn = n ∧ w.member = member ∧ w.row = row ∧
            w.stamp = x.step ∧ w.epoch = x.epoch ∧ w.isNull = false ∧ w.sent = false ∧
            (∀ i, i < 65344 → memRead w.image i =
              (dataImage (frameSlot s (coreIx v.slice v.core) 0)).getD i 0 ^^^ (dataImage (frameSlot s (coreIx v.slice v.core) 0x10000)).getD i 0) ∧
            workAt (fnSt t n) member 0 row = some { v with registered := true })) ∧
        ((∀ v, workAt x member 0 row = some v → v.reg = false ∨ v.registered = true) → Ignores (.intentRegistered n member row) s)) ∧
      (let lim := forceF s n FN_INTEG_CTRL_RECEIPT_LIMIT
       let open_ := fun (w : Wait) => w.fn = n.val ∧ w.sent = true ∧ w.allDone = false
       ((∀ w ∈ s.waits, ¬open_ w) ∨ lim = 0 ∨ x.hold ≠ none ∨ actsRunning s n = false → Ignores (.receiptTimeout n) s) ∧
       (∀ w ∈ s.waits, open_ w → (∀ v ∈ s.waits, open_ v → w.sentAt ≤ v.sentAt) → lim ≠ 0 → x.hold = none → actsRunning s n = true →
        Does (.receiptTimeout n) s (fun u => u.ticks = max s.ticks (w.sentAt + lim * 800000) ∧ u.agenda = [.integrity n 5] ∧ u.waits = s.waits))) ∧
      (∀ vec : Fin 32, let key := n.val * 32 + vec.val
        (s.msiPend.contains key = false → Ignores (.msixModeration n vec) s) ∧
        (s.msiPend.contains key = true → Gives (.msixModeration n vec) s (fun t => t.msi = s.msi ++ [(n.val, vec.val)] ∧
          t.msiPend = s.msiPend.erase key ∧ t.ticks = max s.ticks (tabGet 0 s.msiLast key + fnF s n FN_MSIX_MAP_MOD * 800) ∧
          tabGet 0 t.msiLast key = t.ticks ∧ t.regs = s.regs))) ∧
      (backgroundPaused s = true → Ignores (.migrationCopyDone n) s) ∧
      (backgroundPaused s = false → Gives (.migrationCopyDone n) s (fun t => t = { s with fns := t.fns } ∧
        fnSt t n = { x with migration := x.migration.map (fun g => { g with copied := true }) } ∧ ∀ k, k ≠ n.val → fnSt t k = fnSt s k))) ∧
    (∀ (sl : Fin 16) (c : Fin 32) (res : AuditRes),
      let pg := pgSlice sl
      let count := fun (t : State) => getF t pg SL_AUDIT_STATUS_AUDITS
      let late := fun (t : State) => getF t pg SL_AUDIT_STATUS_LATE
      let lim := getF s pgDrone DRONE_AUDIT_AUDIT_LIMIT
      ((coreSt s (coreIx sl c)).run = none → Ignores (.auditSelect sl c) s) ∧
      (∀ r, (coreSt s (coreIx sl c)).run = some r →
        let plain := getF s pgDrone DRONE_AUDIT_ENABLE ≠ 0 ∧ r.prelude = false ∧ (fnSt s r.fn).reran = false ∧ r.fetchUe = false ∧ r.dataUe = false ∧
          r.droppedAt = none ∧ ∀ p q, (fnSt s r.fn).progs = some p → (classOf p r.tensor).bind (classProg p) = some q → q.2.nd = false
        (¬plain → Ignores (.auditSelect sl c) s) ∧
        (plain → tabFind s.integ.audits sl = none → Gives (.auditSelect sl c) s (fun t => t = { s with integ := { s.integ with
          audits := tabPut s.integ.audits sl (some ⟨r.fn, c, r.tensor, r.leafIndex, (fnSt s r.fn).step, s.ticks, none, none⟩) } })) ∧
        (plain → tabFind s.integ.audits sl ≠ none → Gives (.auditSelect sl c) s (fun t => t.integ = s.integ ∧ late t = min (late s + 1) 0x7F))) ∧
      (tabFind s.integ.audits sl = none → Ignores (.auditorRun sl res) s ∧ Ignores (.refereeRun sl res) s ∧ Ignores (.auditTimeout sl) s) ∧
      (∀ a, tabFind s.integ.audits sl = some a →
        (∀ o, a.orig = some o → auditorOf s sl a.core ≠ none →
          (a.second = none → sameRes o res = true → Gives (.auditorRun sl res) s (fun t => tabFind t.integ.audits sl = none ∧
            count t = min (count s + 1) 0xFF ∧ OneWord { s with integ := t.integ } t (pg + 0x06C))) ∧
          (a.second = none → sameRes o res = false → Gives (.auditorRun sl res) s (fun t => t = { s with integ := { s.integ with
            audits := tabPut s.integ.audits sl (some { a with second := some res }) } })) ∧
          (∀ b d, a.second = some b → auditorOf s sl a.core = some d → auditCore s sl a.core 16 [a.core, a.core ^^^ 1, d] ≠ none → a.core < 32 →
            Does (.refereeRun sl res) s (fun u => tabFind u.integ.audits sl = none ∧ count u = min (count s + 1) 0xFF ∧
              (sameRes res o = true → coreFailed u (coreIx sl d) = true) ∧
              (sameRes res o = false → sameRes res b = true → coreFailed u (coreIx sl a.core) = true ∧
                getF u pg SL_AUDIT_STATUS_FAULT = 1 ∧ getF u pg SL_AUDIT_STATUS_CORE = a.core ∧ getF u pg SL_AUDIT_STATUS_LINE = b.line % 1024) ∧
              (sameRes res o = false → sameRes res b = false → getF u pg SL_AUDIT_STATUS_UNRESOLVED = 1 ∧
                ∀ i, i < 512 → coreFailed u i = coreFailed s i)))) ∧
        (lim = 0 → Ignores (.auditTimeout sl) s) ∧
        (lim ≠ 0 → Does (.auditTimeout sl) s (fun u => tabFind u.integ.audits sl = none ∧ u.ticks = max s.ticks (a.since + lim * 800000) ∧
          late u = min (late s + 1) 0x7F ∧ sl.val ∈ u.integ.auditLate)))) ∧
    (∀ deep near : List (List Nat), Does (.occupancyWindow deep near) s (fun u =>
      let busy := fun (l : List (List Nat)) (sl c : Nat) => (l.getD sl []).getD c 0 % 256
      u.mon.windows = s.mon.windows + 1 ∧ u.ticks = max s.ticks ((s.mon.windows + 1) * 2 ^ 20) ∧ ∀ sl, sl < 16 →
        getF u (pgSlice sl) SL_OCCUPANCY_CH0 = busy deep sl 0 ∧ getF u (pgSlice sl) SL_OCCUPANCY_CH1 = busy deep sl 1 ∧
        getF u (pgSlice sl) SL_OCCUPANCY_CH2 = busy deep sl 2 ∧ getF u (pgSlice sl) SL_OCCUPANCY_CH3 = busy deep sl 3 ∧
        (∀ c, c < 4 → bit (getF u (pgSlice sl) SL_HOT_DEEP) c =
          (bit (getF s (pgSlice sl) SL_HOT_DEEP) c || decide (getF s pgWheel WHEEL_CTRL_HOT_PCT < busy deep sl c))) ∧
        ∀ c, c < 8 → bit (getF u (pgSlice sl) SL_HOT_NEAR) c =
          (bit (getF s (pgSlice sl) SL_HOT_NEAR) c || decide (getF s pgWheel WHEEL_CTRL_HOT_PCT < busy near sl c)))) ∧
    (∀ (mins : List Nat) (room : Bool),
      let hist := fun (i : Nat) => (min (mins.getD i 255) 255 :: tabGet [] s.margins i).take 16
      let low := fun (lim : Nat) => ∀ k, k < 4 → ∃ i, i < 96 ∧ ∃ v, (hist i)[k]? = some v ∧ v < lim
      let warn := getF s pgPort PORT_MARGIN_LIMIT_WARN_PCT
      let evac := getF s pgPort PORT_MARGIN_LIMIT_EVAC_PCT
      Does (.marginWindow mins room) s (fun u => u.marginWindows = s.marginWindows + 1 ∧
        u.ticks = max s.ticks ((s.marginWindows + 1) * 2 ^ 30) ∧ (∀ i, i < 96 → tabGet [] u.margins i = hist i) ∧
        (low evac → getF u pgPort PORT_MARGIN_STATUS_STATE = 2) ∧
        (getF s pgPort PORT_MARGIN_LIMIT_HORIZON = 0 → ¬low evac →
          (low warn → getF u pgPort PORT_MARGIN_STATUS_STATE = 1) ∧ (¬low warn → getF u pgPort PORT_MARGIN_STATUS_STATE = 0)) ∧
        ∃ i, i < 96 ∧ getF u pgPort PORT_MARGIN_STATUS_WORST_PCT = min (mins.getD i 255) 255 ∧ getF u pgPort PORT_MARGIN_STATUS_LINK = i / 3 ∧
          getF u pgPort PORT_MARGIN_STATUS_QUANTITY = i % 3 ∧ ∀ j, j < 96 → min (mins.getD i 255) 255 ≤ min (mins.getD j 255) 255)) ∧
    (∀ (sl : Fin 16) (rate : Rate), Does (.refreshIndication sl rate) s (fun u =>
      requiredRate u sl = rate.times ∧ (∀ k, k ≠ sl.val → requiredRate u k = requiredRate s k) ∧
      getF u pgWheel WHEEL_STATUS_REFRESH_SCHED = rateCode (scheduledRate s) ∧
      ∃ k, k < 16 ∧ getF u pgWheel WHEEL_STATUS_REFRESH_REQ = rateCode (requiredRate u k) ∧ ∀ j, j < 16 → requiredRate u j ≤ requiredRate u k))

/-! ### Membership (R262 to R285) -/

/-- The packet carries membership message `m` of a kind to function `n`, which has not met it before, no held switch is waiting on this die, and
the die answers. -/
structure Sys2Proof.Claims.Told (s : State) (p : Packet) (type n : Nat) (m : List Byte) : Prop where
  takes : portTakes s p = true
  quiet : Quiet s
  message : membOf p = some (n, m)
  kind : mmKind m = type
  group : mmGroup m = (fnSt s n).group
  fresh : type = 0xF ∨ (fnSt s n).seenMsgs.contains (dieBits (mmSender m), mmId m) = false
  late : (fnSt s n).kept = none ∨ (fnSt s n).role = 1
  answers : s.nvm.acked = false
  present : getF s pgGlobal GLOBAL_WITHDRAW_WITHDRAWN = 0

/-- A membership message that the die sends: a STORE in TC7 to the mailbox of a die's function (Table 10.4). -/
def Sys2Proof.Claims.isMembPacket (a : Packet) (die kind : Nat) : Prop :=
  hType a = 3 ∧ hTc a = 7 ∧ hDst a = die ∧ hSpace a = 3 ∧ hAddr a % 4096 = 0xF00 ∧ mmKind a.payload = kind ∧
  field a.payload 0x38 8 = crc64 (a.payload.take 0x38)

/-- The ACK of message `m` with a status. -/
def Sys2Proof.Claims.isAck (a : Packet) (m : List Byte) (st : Nat) : Prop :=
  isMembPacket a (dieBits (mmSender m)) 0xF ∧ mmId a.payload = mmId m ∧ mmModeByte a.payload = st

/-- Nothing but what the die keeps for function `n` (now `x`), and the answer to message `m`. -/
def Sys2Proof.Claims.OnlyAcks (s t : State) (n : Nat) (x : FnSt) (m : List Byte) (st : Nat) : Prop :=
  ∃ a, t = { s with fns := t.fns, egress := s.egress ++ [a] } ∧ isAck a m st ∧ fnSt t n = x ∧ ∀ k, k ≠ n → fnSt t k = fnSt s k

/-- The function now awaits the answer to a new message of a kind, of which `P` says what it holds. -/
def Sys2Proof.Claims.Asks (s t : State) (n kind : Nat) (P : List Byte → Prop) : Prop :=
  ∃ q : MembMsg, t.msgs = s.msgs ++ [q] ∧ q.fn = n ∧ mmKind q.bytes = kind ∧ q.sentAt = s.ticks ∧ q.repeats = 0 ∧ P q.bytes

/-- R265: every message is answered, and one met again is answered and has no other effect. R269: an EPOCH not above the own is STALE, the next one is adopted,
a switch is kept, and a later one asks for what is missing. R267: CONFIRM_REQ is answered by what this die heard, and the keeper declares with two
confirmations. R270: GSEAL notes a member's group seal. R263, R269: REPORT gives this die's rank, and brings a die that is behind the latest EPOCH. R283, R284: the keeper takes
requests up, or keeps them while busy. R281: with every source done the keeper sends the switch. -/
def Obligations.MembershipMessages : Prop :=
  ∀ (s : State) (p : Packet) (room : Bool) (n : Nat) (m : List Byte),
    let x := fnSt s n
    let die := dieBits (mmSender m)
    let y : FnSt := { x with seenMsgs := x.seenMsgs ++ [(die, mmId m)] }
    (∀ c ∈ [(1, Instr.epoch p room), (2, .confirmReq p room), (3, .confirmRsp p room), (4, .gseal p room), (5, .report p room), (6, .rejoinReq p room),
        (7, .transferDone p room), (8, .evacReq p room), (0xF, .membershipAck p room)], portTakes s p = true → Quiet s →
      (membOf p = none ∨ (membOf p = some (n, m) ∧ mmKind m ≠ c.1) → Ignores c.2 s) ∧
      (membOf p = some (n, m) → mmKind m = c.1 → c.1 ≠ 0xF → mmGroup m = x.group → x.seenMsgs.contains (die, mmId m) = true →
        s.nvm.acked = false → getF s pgGlobal GLOBAL_WITHDRAW_WITHDRAWN = 0 → Gives c.2 s (fun t => OnlyAcks s t n x m 0))) ∧
    (Told s p 1 n m →
      (mmNewEpoch m ≤ x.epoch → Gives (.epoch p room) s (fun t => OnlyAcks s t n y m 1)) ∧
      (mmNewEpoch m = x.epoch + 1 → mmSwitch m = true → Gives (.epoch p room) s (fun t =>
        OnlyAcks s t n { y with kept := some m, asked := false } m 0)) ∧
      (mmNewEpoch m = x.epoch + 1 → mmSwitch m = false → grpOf x ≠ none → Does (.epoch p room) s (fun u =>
        (fnSt u n).epoch = mmNewEpoch m ∧ (fnSt u n).lastEpoch = some m ∧ (fnSt u n).route.number = x.route.number + 1 ∧
        (fnSt u n).members = changedMembers x (mmMode m) (mmSubject m) (mmDie m) (mmLive m) ∧
        (fnSt u n).spares = changedSpares x (mmMode m) (mmSubject m) (mmDie m) (mmSpares m) ∧ ∃ a ∈ u.egress, isAck a m 0)) ∧
      (x.epoch + 1 < mmNewEpoch m → x.asked = false → Gives (.epoch p room) s (fun t => (∃ a ∈ t.egress, isAck a m 0) ∧
        fnSt t n = { y with asked := true, msgCount := (x.msgCount + 1) % 2 ^ 32 } ∧
        Asks s t n 5 (fun b => mmNewEpoch b = x.epoch % 2 ^ 32)))) ∧
    (Told s p 2 n m → Gives (.confirmReq p room) s (fun t => (∃ a ∈ t.egress, isAck a m 0) ∧ Asks s t n 3 (fun b =>
      let silent := silentFor s x (mmSubject m) 16000
      mmSubject b = mmSubject m ∧ (silent = false → mmModeByte b = 1) ∧
      (silent = true → (∀ k, x.suspectFor = some (k, mmEpoch m + 1) → k = die) → mmModeByte b = 0 ∧
        (fnSt t n).suspectFor = some (die, mmEpoch m + 1)) ∧
      (silent = true → ∀ k, x.suspectFor = some (k, mmEpoch m + 1) → k ≠ die → mmModeByte b = 2)))) ∧
    (Told s p 3 n m →
      (x.decl = none → Gives (.confirmRsp p room) s (fun t => OnlyAcks s t n y m 0)) ∧
      (∀ d, x.decl = some d → d.member = mmSubject m → d.confirmers.contains (mmMember m) = true →
        (mmModeByte m ≠ 0 → Does (.confirmRsp p room) s (fun u => (fnSt u n).decl = none ∧ fnF u n FN_MEMB_STATUS_UNCONFIRMED = 1 ∧
          (fnSt u n).members = x.members)) ∧
        (mmModeByte m = 0 → d.agreed = [] → Gives (.confirmRsp p room) s (fun t =>
          OnlyAcks s t n { y with decl := some { d with agreed := [mmMember m] } } m 0)) ∧
        (∀ k, mmModeByte m = 0 → d.agreed = [k] → k ≠ mmMember m → grpOf x ≠ none → Does (.confirmRsp p room) s (fun u =>
          (fnSt u n).decl = none ∧ (fnSt u n).epoch = (x.epoch + 1) % 2 ^ 32)))) ∧
    (Told s p 4 n m → Gives (.gseal p room) s (fun t => ∃ l, OnlyAcks s t n { y with gseals := l } m 0 ∧ (mmMember m, mmStep m) ∈ l)) ∧
    (Told s p 5 n m → Gives (.report p room) s (fun t => tabGet 0 t.ranks die = mmRank m ∧ (∃ a ∈ t.egress, isAck a m 0) ∧
      (x.lastEpoch = none ∨ x.epoch ≤ mmNewEpoch m → t.msgs = s.msgs) ∧
      (∀ e, x.lastEpoch = some e → mmNewEpoch m < x.epoch → mmNewEpoch e = x.epoch → Asks s t n 1 (fun b =>
        mmNewEpoch b = x.epoch ∧ mmSubject b = mmSubject e ∧ mmMode b = mmMode e)))) ∧
    (∀ c ∈ [(6, Instr.rejoinReq p room), (8, .evacReq p room)], Told s p c.1 n m →
      (amKeeper x = false → Gives c.2 s (fun t => OnlyAcks s t n y m 0)) ∧
      (amKeeper x = true → keeperFree s n = false → Gives c.2 s (fun t =>
        OnlyAcks s t n { y with membReqs := x.membReqs ++ [(c.1, mmMember m, senderEntry x m)] } m 0))) ∧
    (Told s p 8 n m → keeperFree s n = true →
      (∀ i e q, pickSpare x (mmMember m) = some i → x.spares[i]? = some e → x.members[mmMember m]? = some q → q.absorbed = [] →
        Does (.evacReq p room) s (fun u => (fnSt u n).xfer = some ⟨4, mmMember m, e.die, [mmMember m], false⟩ ∧
          fnF u n FN_MEMB_STATUS_TRANSFER = 1 ∧ ∃ a ∈ u.egress, isAck a m 0)) ∧
      (pickSpare x (mmMember m) = none → absorbOk s n (mmMember m) room = false → Gives (.evacReq p room) s (fun t => OnlyAcks s t n y m 9))) ∧
    (Told s p 6 n m → keeperFree s n = true →
      let entry := dieBits (senderEntry x m) + routeFn (senderEntry x m) * 64 + 1
      (∀ i g, (List.range x.spares.length).find? (fun i => match x.spares[i]? with | some e => !e.standby | none => false) = some i →
        grpOf x = some g → placementOk g (liveDies x.members) (standbyDies (x.spares.set i ⟨true, entry⟩)) = true →
        Does (.rejoinReq p room) s (fun u => (fnSt u n).epoch = (x.epoch + 1) % 2 ^ 32 ∧ ∃ a ∈ u.egress, isAck a m 0)) ∧
      ((∀ e ∈ x.spares, e.standby = true) → ∀ q, x.members[mmMember m]? = some q →
        (q.live = true → Gives (.rejoinReq p room) s (fun t => OnlyAcks s t n y m 0xA)) ∧
        (q.live = false → q.absorbed ≠ [] → Does (.rejoinReq p room) s (fun u =>
          (fnSt u n).xfer = some ⟨5, mmMember m, entry, q.absorbed.filter (fun k => memLive x k), false⟩)))) ∧
    (Told s p 7 n m →
      (x.xfer = none → Gives (.transferDone p room) s (fun t => OnlyAcks s t n y m 0)) ∧
      (∀ t0, x.xfer = some t0 →
        let rest := t0.waits.filter (fun q => decide (q ≠ mmMember m))
        (rest ≠ [] → Gives (.transferDone p room) s (fun t => OnlyAcks s t n { y with xfer := some { t0 with waits := rest } } m 0)) ∧
        (rest = [] → t0.sent = false → (collAt x 2).opened = false → epochsOpen s n = false → t0.mode < 128 → t0.subject < 256 →
          Does (.transferDone p room) s (fun u => (fnSt u n).xfer = some { t0 with waits := [], sent := true } ∧ ∃ b, (fnSt u n).kept = some b ∧
            mmSwitch b = true ∧ mmMode b = t0.mode ∧ mmSubject b = t0.subject ∧ mmNewEpoch b = (x.epoch + 1) % 2 ^ 32)))) ∧
    (Told s p 0xF n m →
      let open_ := s.msgs.find? (fun q => decide (q.fn = n) && decide (q.id = mmId m) && decide (dieBits q.dst = die))
      (open_ = none → Ignores (.membershipAck p room) s) ∧
      (∀ q, open_ = some q →
        let k := mmKind q.bytes
        (k ≠ 1 → (k ≠ 6 ∧ k ≠ 8) ∨ mmModeByte m = 0 → Gives (.membershipAck p room) s (fun t => t = { s with msgs := s.msgs.erase q })) ∧
        (k = 1 → mmModeByte m ≠ 1 → epochsOpen { s with msgs := s.msgs.erase q } n = true → Gives (.membershipAck p room) s (fun t =>
          t = { s with msgs := s.msgs.erase q })) ∧
        (k = 1 → mmModeByte m = 1 → x.epoch < mmEpoch m → mmSwitch q.bytes = false → Gives (.membershipAck p room) s (fun t =>
          (fnSt t n).asked = true ∧ (fnSt t n).again = some (mmMode q.bytes, mmSubject q.bytes, mmDie q.bytes) ∧
          Asks { s with msgs := s.msgs.erase q } t n 5 (fun b => mmNewEpoch b = x.epoch % 2 ^ 32)))))

/-- R263: a heartbeat to a watched die goes in this die's own ticks. R264: a silent die is SUSPECT after 16,000 ticks, and a die that hears nobody is isolated
after 160,000. R267: the acting keeper begins a declaration with two confirmers. R265: an unanswered message is repeated every 8,192 ticks, eight times. R281: a source puts the next
slot of its walk. R275: the background rebuild takes its rows in order, and R284 a rejoin's verification keeps what agrees. R278: an absorbed row is worked by the
same actions in free slots. -/
def Obligations.MembershipTimersAndTransfers : Prop :=
  ∀ s : State, alive s = true → Quiet s →
    (∀ i : Fin 31,
      (s.watch[i.val]? = none → Ignores (.heartbeatSend i) s ∧ Ignores (.suspectTimeout i) s) ∧
      (∀ w, s.watch[i.val]? = some w →
        (positioned s = false ∨ tabFind s.ranks w.die = none ∨ getF s pgGlobal GLOBAL_WITHDRAW_WITHDRAWN = 1 → Ignores (.heartbeatSend i) s) ∧
        (∀ r, positioned s = true → tabFind s.ranks w.die = some r → getF s pgGlobal GLOBAL_WITHDRAW_WITHDRAWN = 0 → w.die < 2 ^ 32 →
          s.counter + 8000 < 2 ^ 64 → Gives (.heartbeatSend i) s (fun t => t.counter % 4000 = 128 * r % 4000 ∧
            t.ticks - s.ticks = t.counter - s.counter ∧ t.ticks ≤ s.ticks + 4000 ∧ t.regs = s.regs ∧
            ∃ a, t.egress = s.egress ++ [a] ∧ hType a = 0x10 ∧ fKind a = 8 ∧ hDst a = w.die ∧ field a.hdr 0x12 1 = i.val ∧ a.payload = [])) ∧
        (w.suspect = true → Ignores (.suspectTimeout i) s) ∧
        (w.suspect = false → Gives (.suspectTimeout i) s (fun t => t.ticks = max s.ticks (w.lastAt + 16000) ∧
          t.watch = s.watch.map (fun v => if v.die = w.die then { v with suspect := true } else v) ∧
          bit (getF t pgPort PORT_WATCH_SUSPECT_SUSPECT) i = true)))) ∧
    (let heard := fun (n : Nat) => 0 < n ∧ n < 64 ∧ (stateOf s n = 2 ∨ stateOf s n = 3) ∧ ((fnSt s n).role = 1 ∨ (fnSt s n).role = 2) ∧
        (fnSt s n).mute = false
     (s.watch = [] ∨ (∀ n, ¬heard n) → Ignores .isolationTimeout s) ∧
     (∀ w ∈ s.watch, (∀ v ∈ s.watch, v.lastAt ≤ w.lastAt) → (∃ n, heard n) → Does .isolationTimeout s (fun u =>
       u.ticks = max s.ticks (w.lastAt + 160000) ∧ getF u pgPort PORT_WATCH_STATUS_ISOLATED = 1 ∧
       ∀ n, heard n → (fnSt u n).mute = true ∧ Todo.abort n 5 ∈ u.agenda))) ∧
    (∀ (n : Fin 64) (imgs : RowSet),
      let x := fnSt s n
      (∀ m : Fin 16,
        let may := x.role = 1 ∧ memLive x m = true ∧ m.val ≠ x.self ∧ actingKeeper x m = some x.self ∧ x.decl = none ∧
          (epochsOpen s n = false ∨ x.kept ≠ none) ∧ (stateOf s n = 2 ∨ stateOf s n = 3)
        (¬may → Ignores (.declareTimeout n m) s) ∧
        (∀ w, may → s.watch.find? (fun w => decide (w.die = dieBits (memberEntry x m))) = some w →
          let due := max s.ticks (max (w.lastAt + 160000) (tabGet 0 x.declNext m))
          (∀ a b, confirmersOf x m = [a, b] → Does (.declareTimeout n m) s (fun u => u.ticks = due ∧
            (fnSt u n).decl = some ⟨m, [a, b], []⟩ ∧ ∃ q r : MembMsg, u.msgs = s.msgs ++ [q, r] ∧ q.dst = memberEntry x a ∧ r.dst = memberEntry x b ∧
              mmKind q.bytes = 2 ∧ mmKind r.bytes = 2 ∧ mmSubject q.bytes = m.val ∧ mmSubject r.bytes = m.val)) ∧
          ((confirmersOf x m).length < 2 → Does (.declareTimeout n m) s (fun u => u.ticks = due ∧ (fnSt u n).decl = none ∧
            fnF u n FN_MEMB_STATUS_UNCONFIRMED = 1 ∧ tabGet 0 (fnSt u n).declNext m = due + 160000)))) ∧
      (let first := s.msgs.find? (fun q => decide (q.fn = n.val) && s.msgs.all (fun r => decide (r.fn ≠ n.val) || decide (q.sentAt ≤ r.sentAt)))
       (first = none → Ignores (.membershipRepeat n) s) ∧
       (∀ q, first = some q →
         (q.repeats < 8 → getF s pgGlobal GLOBAL_WITHDRAW_WITHDRAWN = 0 → Gives (.membershipRepeat n) s (fun t =>
           t.ticks = max s.ticks (q.sentAt + 8192) ∧
           t.msgs = s.msgs.map (fun r => if r = q then { q with sentAt := t.ticks, repeats := q.repeats + 1 } else r) ∧
           ∃ a, t.egress = s.egress ++ [a] ∧ a.payload = q.bytes ∧ hType a = 3 ∧ hTc a = 7)) ∧
         (8 ≤ q.repeats → [3, 4, 5, 7].contains (mmKind q.bytes) = true → Gives (.membershipRepeat n) s (fun t =>
           t.msgs = s.msgs.erase q ∧ t.egress = s.egress ∧ t.fns = s.fns)))) ∧
      (x.unrebuilt = [] → Ignores (.backgroundRebuild n imgs) s) ∧
      (∀ m area gen j rest, x.unrebuilt = (m, area, gen, j) :: rest →
        (actsRunning s n = true → x.rejoinVerify = false → Does (.backgroundRebuild n imgs) s (fun u =>
          (fnSt u n).unrebuilt = x.unrebuilt.filter (fun q => decide (q.2 ≠ (area, gen, j))) ∧
          fnF u n FN_REBUILD_COUNT_BACKGROUND = min (fnF s n FN_REBUILD_COUNT_BACKGROUND + 1) 0xFFFF)) ∧
        (x.rejoinVerify = true → actsRunning s n = true ∨ isStarting s n = true → verifyKeeps s n area gen j (imgsOf imgs area gen j) = true →
          (∃ q ∈ rest, q.2 ≠ (area, gen, j)) → Does (.backgroundRebuild n imgs) s (fun u => u.deep = s.deep ∧
            (fnSt u n).unrebuilt = x.unrebuilt.filter (fun q => decide (q.2 ≠ (area, gen, j))) ∧ (fnSt u n).rejoinKept = x.rejoinKept + 1))) ∧
      (∀ (mode subject target : Nat) (c : Copy), x.copy = some c →
        (c.mode ≠ mode ∨ c.subject ≠ subject ∨ x.mute = true → Ignores (.transferCopySlot n mode subject target imgs) s) ∧
        (∀ area gen j rest, c.mode = mode → c.subject = subject → x.mute = false → c.mirrors = [] → c.left = (area, gen, j) :: rest →
          unrebuiltAt x area gen j = [] → positioned s = true → Does (.transferCopySlot n mode subject target imgs) s (fun t =>
            (fnSt t n).copy = some { c with left := rest } ∧ t.deep = s.deep ∧
            fnF t n FN_REBUILD_LEFT_ROWS = rest.length % 2 ^ 32 ∧
            ∃ w : Wait, t.waits = s.waits ++ [w] ∧ w.kind = .put ∧ w.fn = n ∧ w.member = subject ∧ w.area = area ∧ w.gen = gen ∧ w.row = j ∧
              w.image = cellsOf 0 (heldSlot s n subject area gen j) ∧ w.holders.map (fun h => h.dst) = [copyTarget x c j])))) ∧
    (∀ (k : AbsAt) (code : Nat) (bad : Bool) (imgs : RowSet),
      let n := k.fn.val
      let x := fnSt s n
      let may := holding s = false ∧ actsRunning s n = true ∧ x.aborting = false ∧ x.self ≠ k.member ∧ heldHere x k.member k.row = true ∧
        x.sched = (if code ≤ 5 then 1 else 2)
      let sl := rowSlice x k.row
      let a : ActOn := ⟨n, sl, k.core, k.member, k.row, imgs⟩
      (¬may → Ignores (.absorbedRowWork k code bad imgs) s) ∧
      (may → coreFailed s (coreIx sl k.core) = false →
        let budget := match a.leaf x 0, x.progs with
          | some l, some set => match (classOf set l.binding.tensor).bind (classProg set) with | some (_, p) => p.budget | none => 0
          | _, _ => 0
        ∀ c ∈ [(actGsend, if (a.leaf x 1).isNone || (a.work x 1).sent then Cond.idle else .go,
            gsendWork (putWork s n { a.work x 1 with isNull := true, loaded := true }) a, 1), (actRun, condRun s a, runWork s a (ceilDiv budget 2), 0),
          (actGhold, condHold s a 1, holdWork s a 1, 1), (actLread, condLread s a, lreadWork s a bad, 0), (actReg, condReg s a, regWork s a, 0),
          (actSend, condSend s a, sendWork s a, 0), (actLwrite, condLwrite s a, lwriteWork s a, 0), (actEmit, condEmit s a, emitWork s a, 0),
          (actHold, condHold s a 0, holdWork s a 0, 0)], code = c.1 →
        (c.2.1 = .go → Does (.absorbedRowWork k code bad imgs) s (fun u => u = lateOnce c.2.2.1 n sl c.2.2.2 k.row)) ∧
        (c.2.1 ≠ .go → Ignores (.absorbedRowWork k code bad imgs) s)))

/-! ### The floor (R293 to R315, R321, R322) -/

/-- Lyith-F is up, nothing is left to carry out, and the floor is in a state of Table 11.13. -/
structure Sys2Proof.Claims.FloorUp (s : State) (state : Nat) : Prop where
  up : alive s = true
  quiet : Quiet s
  variant : s.variant = .F
  state : getF s pgFloor FLOOR_STATUS_STATE = state

/-- R6: Lyith-C has no floor. R304: a sweep reads its next slot: one that cannot be read is absent, a free one free, another is put in flight. R306: the oldest
push drains. R296: a program lands at its band's next usable position, and one that fails marks the block bad and waits. R298: a catalog of three valid
parts every 60 s. R308, R311: a swept snapshot is sealed. R312: a verification reads the seal page, the index and the slots in turn, and its end says whether all of them passed. R314: a band
read too often is copied and freed. R299: mounting takes the newest valid set, and ends every snapshot that was sweeping. R321: a source reads a move's slot and sends it, and
a move that was lost leaves null deltas. -/
def Obligations.FloorCommands : Prop :=
  ∀ (s : State) (n : Fin 64) (id band : Nat) (fails : List Nat) (ok : Bool) (eraseBad move : Nat) (lost : Bool) (mark : DecodedMark) (imgs : RowImages),
    (s.variant = .C → alive s = true → Quiet s → ∀ c ∈ [Instr.sweepRead n, .pushDrain, .snapSealed n fails, .floorProgramDone ok eraseBad, .catalogTimer fails,
      .verifyDue id, .bandRefresh band fails, .floorMounted ok, .reloadMove n move ok lost mark imgs, .floorReadComplete ok], Ignores c s) ∧
    (FloorUp s 2 →
      let x := fnSt s n
      (x.sweep = none ∨ holding s = true → Ignores (.sweepRead n) s ∧ Ignores (.snapSealed n fails) s) ∧
      (∀ sw area gen j o g, x.sweep = some sw → holding s = false → grpOf x = some g →
        (sweepOrder x sw).find? (fun q => match sweepOrdinal sw q.1 q.2.1 q.2.2 with
          | some o => (tabFind sw.index o).isNone
          | none => false) = some (area, gen, j) → sweepOrdinal sw area gen j = some o →
        let slot := slotRead s n area gen j
        let erased := slotErased x.epoch area (!isData g.k g.n x.self j) slot
        let mark := if erased = true then indexAbsent else if pmKind slot = 0 then indexFree else indexWaits
        Gives (.sweepRead n) s (fun t => (fnSt t n).sweep = some { sw with index := tabPut sw.index o (some mark) } ∧ t.deep = s.deep ∧
          t.floor = (if mark = indexWaits then { s.floor with flights := s.floor.flights ++ [⟨n, sw.snapId, o, slot⟩] } else s.floor))) ∧
      (s.pushes = [] ∨ holding s = true → Ignores .pushDrain s) ∧
      (∀ p rest, s.pushes = p :: rest → holding s = false → Gives .pushDrain s (fun t => t = { s with
        pushes := rest, floor := { s.floor with flights := s.floor.flights ++ [⟨p.fn, p.snapId, p.ordinal, p.image⟩] } })) ∧
      (s.floor.flights = [] → Ignores (.floorProgramDone ok eraseBad) s) ∧
      (∀ p rest, s.floor.flights = p :: rest → (∀ sw, (fnSt s p.fn).sweep = some sw → sw.snapId ≠ p.snapId) →
        Gives (.floorProgramDone ok eraseBad) s (fun t => t = { s with floor := { s.floor with flights := rest } })) ∧
      (∀ p rest sw b q, s.floor.flights = p :: rest → (fnSt s p.fn).sweep = some sw → sw.snapId = p.snapId → sw.bands.getLast? = some b →
        usableFrom (bandAt s b) (bandAt s b).pos = some q →
        (ok = true → Gives (.floorProgramDone ok eraseBad) s (fun t => readPage t (fpaOf b q) = some (fit 65536 p.image) ∧
          t.floor.flights = rest ∧ t.floor.written = s.floor.written + 65536 ∧ (bandAt t b).pos = q + 1 ∧
          ∃ sw', (fnSt t p.fn).sweep = some sw' ∧ sw'.index = tabPut sw.index p.ordinal (some (fpaOf b q)) ∧ sw'.written = sw.written + 1)) ∧
        (ok = false → Gives (.floorProgramDone ok eraseBad) s (fun t => t.floor.flights = s.floor.flights ∧ (bandAt t b).pos = q + 1 ∧
          bit (bandAt t b).bad (blockBit q) = true ∧ t.fns = s.fns ∧
          getF t pgFloor FLOOR_COUNT_PROGRAM_FAIL = min (getF s pgFloor FLOOR_COUNT_PROGRAM_FAIL + 1) 255))) ∧
      (holding s = true → Ignores (.catalogTimer fails) s) ∧
      (∀ q, holding s = false → s.floor.sysBand < 2 → threePositions (bandAt s s.floor.sysBand) = some q → Gives (.catalogTimer []) s (fun t =>
        t.ticks = max s.ticks (s.floor.catAt + 48000000000) ∧ t.floor.catAt = t.ticks ∧ t.floor.catSeq = s.floor.catSeq + 1 ∧
        t.floor.snaps = s.floor.snaps ∧
        (validSet (readPage t (fpaOf s.floor.sysBand q.1)) (readPage t (fpaOf s.floor.sysBand q.2.1)) (readPage t (fpaOf s.floor.sysBand q.2.2))).isSome = true)) ∧
      (∀ sw g b e, x.sweep = some sw → groupOf sw.manifest sw.group = some g → holding s = false → s.floor.sysBand < 2 → 2 ≤ b →
        let total := sw.manifest.stripeRows + sw.gens.length * sw.manifest.gradRows
        ((∃ o, o < total ∧ ∀ v, tabFind sw.index o = some v → v = indexWaits) → Ignores (.snapSealed n fails) s) ∧
        ((∀ o, o < total → ∃ v, tabFind sw.index o = some v ∧ v ≠ indexWaits) → sw.bands.getLast? = some b → (bandAt s b).bad = 0 →
          (bandAt s b).pos + ceilDiv total 16384 + 1 ≤ 65536 → forceF s n FN_FLOOR_CTRL_KEEP ≠ 0 → s.floor.snaps.getLast? = some e → e.id = sw.snapId →
          e.fn = n → (s.floor.snaps.map (fun q => q.id)).Nodup → Does (.snapSealed n []) s (fun u => (fnSt u n).sweep = none ∧
            ∃ e', snapOf u sw.snapId = some e' ∧ e'.state = 2 ∧ ∃ page, readPage u e'.sealFpa = some page ∧ pageChecks page = true ∧
              field page 0 4 = 0x1A5EF101 ∧ field page 6 1 = n.val))) ∧
      ((∀ e, snapOf s id = some e → e.state ≠ 2 ∨ s.floor.verify ≠ none ∨ holding s = true) → Ignores (.verifyDue id) s) ∧
      (∀ e, snapOf s id = some e → e.state = 2 → s.floor.verify = none → holding s = false → Gives (.verifyDue id) s (fun t =>
        fnF t e.fn FN_FLOOR_STATUS_VERIFYING = 1 ∧ (∃ l, t.floor.verify = some ⟨id, (e.sealFpa, none) :: l, 0⟩) ∧
        t.ticks = (match tabFind s.floor.verified id with | some v => max s.ticks (v + 69120000000000) | none => s.ticks))) ∧
      (∀ q sp, snapOf s (bandAt s band).owner = some q →
        let used := ((bandAt s band).reads < 4194304 ∨ q.state ≠ 2 ∨ holding s = true ∨ ∃ k, k < 64 ∧ (fnSt s k).reload ≠ none)
        (used → Ignores (.bandRefresh band fails) s) ∧
        (¬used → readPage s q.sealFpa = some sp → (bandAt s band).state = 2 → 2 ≤ band → s.floor.sysBand < 2 → freeBands s ≠ [] →
          (∀ f ∈ freeBands s, (bandAt s f).bad = 0) → snapTotal s q ≤ 16384 → (snapIndex s q).2.length ≤ 16384 →
          Does (.bandRefresh band []) s (fun u => (bandAt u band).state = 0 ∧ ∃ q', snapOf u q.id = some q' ∧ q'.state = 2 ∧
            q'.sealFpa / 65536 ≠ band ∧ ∃ page, readPage u q'.sealFpa = some page ∧ pageChecks page = true))) ∧
      Ignores (.floorMounted ok) s) ∧
    (FloorUp s 1 →
      (ok = false → Gives (.floorMounted ok) s (fun t => getF t pgFloor FLOOR_STATUS_STATE = 4 ∧ t.floor = s.floor)) ∧
      (ok = true → s.floor.pages = [] → Gives (.floorMounted ok) s (fun t => getF t pgFloor FLOOR_STATUS_STATE = 3)) ∧
      (ok = true → (∃ b, b < 2 ∧ (scanBand s b (fun p => !bit (bandAt s b).bad (blockBit p))).1 ≠ none) → Does (.floorMounted ok) s (fun u =>
        getF u pgFloor FLOOR_STATUS_STATE = 2 ∧ ∀ e ∈ u.floor.snaps, e.state ≠ 1))) ∧
    (alive s = true → Quiet s → s.variant = .F →
      let x := fnSt s n
      (s.floor.verify = none → Ignores (.floorReadComplete ok) s) ∧
      (∀ v fpa o rest e sp, s.floor.verify = some v → v.left = (fpa, o) :: rest → snapOf s v.snapId = some e → readPage s e.sealFpa = some sp →
        let good := ok && (match readPage s fpa, o with
          | some d, some o => slotPageOk sp d o
          | some d, none => pageChecks d || decide (field d 0 4 ≠ 0x1A5EF101)
          | none, _ => false)
        (rest ≠ [] → Does (.floorReadComplete ok) s (fun u => u.floor.verify = some { v with left := rest, bad := v.bad + b2n (!good) } ∧
          (bandAt u (fpa / 65536)).reads = (bandAt s (fpa / 65536)).reads + 1 ∧ u.floor.snaps = s.floor.snaps)) ∧
        (rest = [] → Does (.floorReadComplete ok) s (fun u => u.floor.verify = none ∧ fnF u e.fn FN_FLOOR_STATUS_VERIFYING = 0 ∧
          ∃ e', snapOf u v.snapId = some e' ∧ e'.verify = (if v.bad + b2n (!good) = 0 then 1 else 2) ∧ e'.badPages = v.bad + b2n (!good)))) ∧
      (positioned s = false ∨ bgRunning s n 0x1B = false ∨ (∀ q, x.reload = some q → q.moves[move]? = none) →
        Ignores (.reloadMove n move ok lost mark imgs) s) ∧
      (∀ q v, positioned s = true → bgRunning s n 0x1B = true → x.reload = some q → q.moves[move]? = some v →
        (lost = true → q.toGet.find? (fun u => decide (u = v)) = none → Does (.reloadMove n move ok lost mark imgs) s (fun u =>
          u = { s with agenda := [.startCheck n] })) ∧
        (lost = true → v ∈ q.toGet → Does (.reloadMove n move ok lost mark imgs) s (fun u => ∃ r, (fnSt u n).reload = some r ∧
          r.toGet = q.toGet.erase v ∧ r.lost = q.lost + 1)) ∧
        (∀ c d sp, lost = false → q.sources[v.source]? = some c → (mySources s n q.sources).contains c = true → c.snapId ≠ 0 →
          snapSlot s c v.ordinal ok = some d → pmKind d = 0 ∨ (pmTensor d = v.tensor ∧ field d 0x30 4 = v.leaf) → sourcePage s c = some sp →
          dieBits (q.targets.getD v.target 0) ≠ selfDie s → Does (.reloadMove n move ok lost mark imgs) s (fun u =>
            (∃ r, (fnSt u n).reload = some r ∧ r.toSend = q.toSend.erase v) ∧ ∃ w : Wait, u.waits = s.waits ++ [w] ∧ w.kind = .put ∧ w.fn = n ∧
              w.core = 5 ∧ w.row = v.newSlot ∧ w.area = v.area ∧ w.image = cellsOf 0 (currentSlot sp q.step d) ∧ w.sent = true))))

/-! ### The twin comparator (R425 to R431, R434) -/

/-- The packet brings twin message `b`, well formed, of a kind from the partner (R427, Table 16.3). -/
structure Sys2Proof.Claims.TwinMessage (s : State) (p : Packet) (kindB : Nat) (b : List Byte) : Prop where
  takes : portTakes s p = true
  quiet : Quiet s
  variant : s.variant = .F
  good : headerOk' p = true
  place : hType p = 3 ∧ hSpace p = 3 ∧ hAddr p = pgTwin + 0x800 ∧ hPoison p = false
  bytes : b = p.payload.take (hBytes p)
  form : twinMsgOk b = true
  kind : field b 0 1 = kindB
  sender : s.twin.fn = none ∨ dieBits (hSrc p) = dieBits s.twin.partner

/-- The report of a mismatch is written, the comparator disarmed, and the function is to be reset (R430, Table 16.7). -/
structure Sys2Proof.Claims.Reported (u : State) (n : Nat) (mm : TwinMm) (located : Bool) : Prop where
  flag : getF u pgTwin TWIN_STATUS_MISMATCH = 1
  off : getF u pgTwin TWIN_STATUS_ARMED = 0
  found : getF u pgTwin TWIN_STATUS_LOCATED = b2n located
  tensor : getF u pgTwin TWIN_MM_TENSOR_TENSOR_ID = mm.mine.tensor % 2 ^ 32
  leaf : getF u pgTwin TWIN_MM_LEAF_LEAF_INDEX = mm.mine.leaf % 2 ^ 32
  report : ∃ r, u.twin.report = some r ∧ r.length = 256 ∧ field r 0 8 = mm.mine.step % 2 ^ 64 ∧ field r 0x10 8 = mm.mine.digest % 2 ^ 64 ∧
    field r 0x18 8 = mm.theirs.digest % 2 ^ 64
  cleared : u.twin.mm = none ∧ u.twin.fn = none
  reset : Todo.resetFn n ∈ u.agenda

/-- R427: a message of a wrong form, or not of the partner, is ignored. R426: PAIR arms the comparator when it equals its own, and sets PAIR_FAIL otherwise. R428, R429: a DIGEST is
compared with the leaf that waits, on time or late, or held. R430: LINES and LINE locate a mismatch, whose report disarms the comparator; without a location it
is written after 160,000 ticks. R428: WAIT makes a comparison late. R431: a lost partner disarms the comparator. -/
def Obligations.TwinComparator : Prop :=
  ∀ (s : State) (p : Packet) (b : List Byte) (n : Fin 64),
    (∀ c ∈ [(1, Instr.pair p), (2, .digest p), (3, .lines p), (4, .line p)], portTakes s p = true → Quiet s →
      (s.variant = .C ∨ hAddr p ≠ pgTwin + 0x800 ∨ twinMsgOk (p.payload.take (hBytes p)) = false ∨ field (p.payload.take (hBytes p)) 0 1 ≠ c.1 ∨
        (s.twin.fn ≠ none ∧ dieBits (hSrc p) ≠ dieBits s.twin.partner) → Ignores c.2 s)) ∧
    (TwinMessage s p 1 b → twinArmed s = false →
      (s.twin.fn = none → Gives (.pair p) s (fun t => t = { s with twin := { s.twin with pair := some b, lastAt := s.ticks } })) ∧
      (s.twin.fn = some n.val →
        (actsRunning s n = false → Gives (.pair p) s (fun t => t = { s with twin := { s.twin with pair := some b, lastAt := s.ticks } })) ∧
        (actsRunning s n = true → b = pairMsg s n → Gives (.pair p) s (fun t => twinArmed t = true ∧ OneWord { s with twin := t.twin } t (pgTwin + 0x048) ∧
          t.twin = { s.twin with pair := none, lastAt := s.ticks })) ∧
        (actsRunning s n = true → b ≠ pairMsg s n → Gives (.pair p) s (fun t => twinArmed t = false ∧ getF t pgTwin TWIN_STATUS_PAIR_FAIL = 1 ∧
          getF t pgTwin TWIN_INT_PAIR_FAIL = 1)))) ∧
    (TwinMessage s p 1 b → twinArmed s = true → s.twin.fn = none → Gives (.pair p) s (fun t => twinArmed t = false ∧ t.twin.pend = [])) ∧
    (TwinMessage s p 2 b →
      (s.twin.fn = none → Ignores (.digest p) s) ∧
      (s.twin.fn = some n.val → twinArmed s = true →
        let q : TwinPend := ⟨false, field b 8 8, field b 4 4, field b 0x10 4, field b 0x18 8, field b 0x20 8, field b 0x14 1, field b 0x15 1, 0⟩
        (∀ w, s.twin.waiting.find? (sameLeaf q) = some w →
          (w.digest = q.digest → w.ext = q.ext → Gives (.digest p) s (fun t => t.twin.mm = s.twin.mm ∧ t.twin.waiting = s.twin.waiting.erase w ∧
            t.twin.compared = s.twin.compared ++ [(w.step, w.tensor, w.leaf)] ∧
            getF t pgTwin TWIN_COUNT_COMPARED = min (getF s pgTwin TWIN_COUNT_COMPARED + 1) 0xFFFF ∧
            ∀ v ∈ (fnSt t n).work, v.member = (fnSt s n).self → v.area = 0 → v.row = w.row → v.twin = 2)) ∧
          (w.digest ≠ q.digest ∨ w.ext ≠ q.ext → s.twin.mm = none → holdsLeaf s n w = false → Gives (.digest p) s (fun t =>
            t.twin.mm = some ⟨w, q, false, s.ticks, [], none, none⟩ ∧ t.egress = s.egress ∧
            ∀ v ∈ (fnSt t n).work, v.member = (fnSt s n).self → v.area = 0 → v.row = w.row → v.twin = 4)) ∧
          (w.digest ≠ q.digest ∨ w.ext ≠ q.ext → s.twin.mm = none → holdsLeaf s n w = true → Gives (.digest p) s (fun t =>
            t.twin.mm = some ⟨w, q, false, s.ticks, [], none, none⟩ ∧ t.egress.length = s.egress.length + 5))) ∧
        (s.twin.waiting.find? (sameLeaf q) = none → s.twin.pend.find? (fun o => o.own && sameLeaf o q) = none →
          s.twin.compared.contains (q.step, q.tensor, q.leaf) = false → s.twin.pend.length < 1048576 → Gives (.digest p) s (fun t =>
            t.twin.pend = s.twin.pend ++ [q] ∧ getF t pgTwin TWIN_STATUS_PENDING = min (s.twin.pend.length + 1) 0xFFFFF ∧ t.twin.mm = s.twin.mm)))) ∧
    (TwinMessage s p 3 b →
      (s.twin.mm = none → Ignores (.lines p) s) ∧
      (∀ mm, s.twin.fn = some n.val → s.twin.mm = some mm → field b 4 4 = mm.mine.tensor → field b 8 8 = mm.mine.step → field b 0x10 4 = mm.mine.leaf →
        mm.line = none →
        let parts := tabPut mm.parts (field b 1 1) (some ((List.range 204).map (fun i => field b (0x20 + 8 * i) 8)))
        let body := frameB s mm.mine.slice mm.mine.core
        (holdsLeaf s n mm.mine = false ∨ parts.length < 5 → Gives (.lines p) s (fun t => t = { s with twin := t.twin } ∧
          t.twin.mm = some { mm with parts := parts })) ∧
        (∀ l, holdsLeaf s n mm.mine = true → 5 ≤ parts.length → mm.theirLine = none →
          (List.range 1020).find? (fun i => decide ((lineValues body).getD i 0 ≠ (parts.map (fun q => q.2)).flatten.getD i 0)) = some l →
          Gives (.lines p) s (fun t => t.twin.mm = some { mm with parts := parts, line := some l } ∧
            ∃ a, t.egress = s.egress ++ [a] ∧ a.payload = padPayload (lineMsg mm.mine l body) ∧ hType a = 3 ∧ hTc a = 7)))) ∧
    (TwinMessage s p 4 b →
      (s.twin.mm = none → Ignores (.line p) s) ∧
      (∀ mm, s.twin.fn = some n.val → s.twin.mm = some mm → field b 4 4 = mm.mine.tensor → field b 8 8 = mm.mine.step → field b 0x10 4 = mm.mine.leaf →
        (mm.line = some (field b 2 2) → holdsLeaf s n mm.mine = true → Does (.line p) s (fun u => Reported u n mm true ∧
          getF u pgTwin TWIN_MM_WHERE_LINE = field b 2 2)) ∧
        (mm.line = none → holdsLeaf s n mm.mine = false → Gives (.line p) s (fun t => t = { s with twin := { s.twin with
          mm := some { mm with theirLine := some (field b 2 2, (b.drop 0x20).take 64) } } })))) ∧
    (alive s = true → Quiet s → s.variant = .F →
      let first := (fnSt s n).work.find? (fun w => decide (w.twin = 1))
      (first = none ∨ s.twin.fn ≠ some n.val ∨ twinArmed s = false → Ignores (.twinWaitExpiry n) s) ∧
      (∀ w q, first = some w → s.twin.fn = some n.val → twinArmed s = true → s.twin.waiting.find? (fun p => decide (p.row = w.row)) = some q →
        s.twin.pend.length < 1048576 → Gives (.twinWaitExpiry n) s (fun t =>
          t.ticks = max s.ticks (w.twinAt + getF s pgTwin TWIN_CTRL_WAIT * 800) ∧ t.twin.pend = s.twin.pend ++ [q] ∧
          t.twin.waiting = s.twin.waiting.erase q ∧
          ∀ v ∈ (fnSt t n).work, v.member = (fnSt s n).self → v.area = 0 → v.row = w.row → v.twin = 3)) ∧
      (let lost := getF s pgTwin TWIN_CTRL_LOST
       (s.twin.fn = none ∨ twinArmed s = false ∨ lost = 0 ∨ s.twin.pend = [] → Ignores .partnerLost s) ∧
       (s.twin.fn = some n.val → twinArmed s = true → lost ≠ 0 → s.twin.pend ≠ [] → Gives .partnerLost s (fun t =>
         t.ticks = max s.ticks (s.twin.lastAt + lost * 8000000) ∧ twinArmed t = false ∧ t.twin.pend = [] ∧ t.twin.fn = none ∧
         getF t pgTwin TWIN_STATUS_PARTNER_LOST = 1 ∧
         getF t pgTwin TWIN_COUNT_UNCHECKED = min (getF s pgTwin TWIN_COUNT_UNCHECKED + s.twin.pend.length) 0xFFFF))) ∧
      (s.twin.fn = none ∨ s.twin.mm = none → Ignores .locationTimeout s) ∧
      (∀ mm, s.twin.fn = some n.val → s.twin.mm = some mm → Does .locationTimeout s (fun u => Reported u n mm false ∧
        u.ticks = max s.ticks (mm.since + 160000))))
end

