-- ==== Sys2Proof/Laws/Mem.lean ====
section
/-!
SUPPORT. The two sparse shapes keep their canonical form under every operation, and what a table or a memory reads as after an
operation on it.
-/

namespace Sys2Proof.Laws

open Sys2Proof.Machine

/-! ### Keys of a table -/

theorem tabAbove_mono {α : Type} {lo hi : Nat} {t : Tab α} (h : lo ≤ hi) (w : tabAbove hi t = true) : tabAbove lo t = true := by
  cases t with
  | nil => rfl
  | cons e t =>
    simp only [tabAbove, Bool.and_eq_true, decide_eq_true_eq] at w ⊢
    exact ⟨Nat.le_trans h w.1, w.2⟩

theorem tabAbove_mem {α : Type} {t : Tab α} : ∀ {lo : Nat}, tabAbove lo t = true → ∀ e ∈ t, lo ≤ e.1 := by
  induction t with
  | nil => intro _ _ e he; cases he
  | cons x t ih =>
    intro lo w e he
    simp only [tabAbove, Bool.and_eq_true, decide_eq_true_eq] at w
    rcases List.mem_cons.mp he with rfl | he
    · exact w.1
    · have := ih w.2 e he; omega

theorem tabAbove_raise {α : Type} {lo hi : Nat} {t : Tab α} (w : tabAbove lo t = true) (h : ∀ e ∈ t, hi ≤ e.1) :
    tabAbove hi t = true := by
  cases t with
  | nil => rfl
  | cons x t =>
    simp only [tabAbove, Bool.and_eq_true, decide_eq_true_eq] at w ⊢
    exact ⟨h x (List.mem_cons_self ..), w.2⟩

theorem tabAbove_filter {α : Type} (p : Nat × α → Bool) {t : Tab α} :
    ∀ {lo : Nat}, tabAbove lo t = true → tabAbove lo (t.filter p) = true := by
  induction t with
  | nil => intro _ _; rfl
  | cons x t ih =>
    intro lo w
    simp only [tabAbove, Bool.and_eq_true, decide_eq_true_eq] at w
    by_cases hx : p x = true
    · rw [List.filter_cons_of_pos hx]
      simp only [tabAbove, Bool.and_eq_true, decide_eq_true_eq]
      exact ⟨w.1, ih w.2⟩
    · rw [List.filter_cons_of_neg hx]
      exact tabAbove_mono (by omega) (ih w.2)

theorem tabAbove_append {α : Type} {a b : Tab α} {k : Nat} :
    ∀ {lo : Nat}, tabAbove lo a = true → (∀ e ∈ a, e.1 < k) → tabAbove k b = true → lo ≤ k → tabAbove lo (a ++ b) = true := by
  induction a with
  | nil => intro lo _ _ hb hk; exact tabAbove_mono hk hb
  | cons x a ih =>
    intro lo ha hlt hb _
    simp only [tabAbove, Bool.and_eq_true, decide_eq_true_eq] at ha
    simp only [List.cons_append, tabAbove, Bool.and_eq_true, decide_eq_true_eq]
    have hx := hlt x (List.mem_cons_self ..)
    exact ⟨ha.1, ih ha.2 (fun e he => hlt e (List.mem_cons_of_mem _ he)) hb (by omega)⟩

/-! ### Tables -/

theorem tabAbove_ins {α : Type} {t : Tab α} {i : Nat} {v : α} :
    ∀ {lo : Nat}, tabAbove lo t = true → lo ≤ i → (∀ e ∈ t, e.1 ≠ i) → tabAbove lo (tabIns t i v) = true := by
  induction t with
  | nil => intro lo _ hi _; simp [tabIns, tabAbove, hi]
  | cons x t ih =>
    obtain ⟨k, w⟩ := x
    intro lo h hi hne
    have hk : k ≠ i := hne (k, w) (List.mem_cons_self ..)
    simp only [tabAbove, Bool.and_eq_true, decide_eq_true_eq] at h
    unfold tabIns
    split
    · simp only [tabAbove, Bool.and_eq_true, decide_eq_true_eq]
      exact ⟨hi, by omega, h.2⟩
    · simp only [tabAbove, Bool.and_eq_true, decide_eq_true_eq]
      exact ⟨h.1, ih h.2 (by omega) (fun e he => hne e (List.mem_cons_of_mem _ he))⟩

theorem tabWf_put {α : Type} {t : Tab α} (i : Nat) (v : Option α) (h : tabWf t = true) : tabWf (tabPut t i v) = true := by
  cases v with
  | none => exact tabAbove_filter _ h
  | some x =>
    refine tabAbove_ins (tabAbove_filter _ h) (Nat.zero_le i) ?_
    intro e he
    simpa using (List.mem_filter.mp he).2

theorem tabWf_set {α : Type} [DecidableEq α] {d : α} {t : Tab α} (i : Nat) (v : α) (h : tabWf t = true) :
    tabWf (tabSet d t i v) = true := tabWf_put i _ h

theorem tabWf_clear {α : Type} {t : Tab α} (a n : Nat) (h : tabWf t = true) : tabWf (tabClear t a n) = true :=
  tabAbove_filter _ h

theorem tabFind_ins_same {α : Type} {t : Tab α} {i : Nat} {v : α} (h : ∀ e ∈ t, e.1 ≠ i) : tabFind (tabIns t i v) i = some v := by
  induction t with
  | nil => simp [tabIns, tabFind]
  | cons x t ih =>
    obtain ⟨k, w⟩ := x
    have hk : k ≠ i := h (k, w) (List.mem_cons_self ..)
    unfold tabIns
    split
    · simp [tabFind]
    · simp only [tabFind, if_neg (Ne.symm hk)]
      exact ih (fun e he => h e (List.mem_cons_of_mem _ he))

theorem tabFind_ins_other {α : Type} {t : Tab α} {i j : Nat} {v : α} (hne : j ≠ i) : tabFind (tabIns t i v) j = tabFind t j := by
  induction t with
  | nil => simp [tabIns, tabFind, hne]
  | cons x t ih =>
    obtain ⟨k, w⟩ := x
    unfold tabIns
    split
    · simp only [tabFind, if_neg hne]
    · simp only [tabFind, ih]

theorem tabFind_absent {α : Type} {t : Tab α} {i : Nat} (h : ∀ e ∈ t, e.1 ≠ i) : tabFind t i = none := by
  induction t with
  | nil => rfl
  | cons x t ih =>
    obtain ⟨k, w⟩ := x
    have hk : k ≠ i := h (k, w) (List.mem_cons_self ..)
    simp only [tabFind, if_neg (Ne.symm hk)]
    exact ih (fun e he => h e (List.mem_cons_of_mem _ he))

theorem tabFind_filter {α : Type} {p : Nat × α → Bool} {i : Nat} {t : Tab α} (hp : ∀ v, p (i, v) = true) :
    tabFind (t.filter p) i = tabFind t i := by
  induction t with
  | nil => rfl
  | cons x t ih =>
    obtain ⟨k, w⟩ := x
    by_cases hx : p (k, w) = true
    · rw [List.filter_cons_of_pos hx]
      simp only [tabFind, ih]
    · rw [List.filter_cons_of_neg hx, ih]
      have hk : i ≠ k := by rintro rfl; exact hx (hp w)
      simp only [tabFind, if_neg hk]

/-- An entry reads as what was put there, in canonical form or not. -/
@[simp] theorem tabFind_put_same {α : Type} (t : Tab α) (i : Nat) (v : Option α) : tabFind (tabPut t i v) i = v := by
  have h : ∀ e ∈ t.filter (fun e => decide (e.1 ≠ i)), e.1 ≠ i := fun e he => by simpa using (List.mem_filter.mp he).2
  cases v with
  | none => exact tabFind_absent h
  | some x => exact tabFind_ins_same h

/-- Every other entry of a table reads as before. -/
theorem tabFind_put_other {α : Type} (t : Tab α) {i j : Nat} (v : Option α) (hne : j ≠ i) :
    tabFind (tabPut t i v) j = tabFind t j := by
  have h : tabFind (t.filter (fun e => decide (e.1 ≠ i))) j = tabFind t j := tabFind_filter (fun _ => by simpa using hne)
  cases v with
  | none => exact h
  | some x => exact (tabFind_ins_other hne).trans h

@[simp] theorem tabGet_set_same {α : Type} [DecidableEq α] (d : α) (t : Tab α) (i : Nat) (v : α) :
    tabGet d (tabSet d t i v) i = v := by
  unfold tabGet tabSet
  rw [tabFind_put_same]
  split <;> simp_all

theorem tabGet_set_other {α : Type} [DecidableEq α] (d : α) (t : Tab α) {i j : Nat} (v : α) (hne : j ≠ i) :
    tabGet d (tabSet d t i v) j = tabGet d t j := by
  unfold tabGet tabSet
  rw [tabFind_put_other t _ hne]

theorem tabIns_mem {α : Type} {t : Tab α} {i : Nat} {v : α} {e : Nat × α} (h : e ∈ tabIns t i v) : e ∈ t ∨ e = (i, v) := by
  induction t with
  | nil => right; simpa [tabIns] using h
  | cons x t ih =>
    obtain ⟨k, w⟩ := x
    unfold tabIns at h
    split at h
    · rcases List.mem_cons.mp h with h | h
      · right; exact h
      · left; exact h
    · rcases List.mem_cons.mp h with h | h
      · left; rw [h]; exact List.mem_cons_self ..
      · rcases ih h with h | h
        · left; exact List.mem_cons_of_mem _ h
        · right; exact h

theorem tabPut_mem {α : Type} {t : Tab α} {i : Nat} {v : Option α} {e : Nat × α} (h : e ∈ tabPut t i v) :
    e ∈ t ∨ v = some e.2 := by
  cases v with
  | none => left; exact List.mem_of_mem_filter h
  | some x =>
    rcases tabIns_mem h with h | h
    · left; exact List.mem_of_mem_filter h
    · right; rw [h]

/-! ### Memories -/

theorem memWf_nil : memWf [] = true := rfl

theorem memWf_filter {m : Mem} (p : Nat × Byte → Bool) (h : memWf m = true) : memWf (m.filter p) = true := by
  simp only [memWf, Bool.and_eq_true, List.all_eq_true, decide_eq_true_eq] at h ⊢
  exact ⟨tabAbove_filter p h.1, fun e he => h.2 e (List.mem_of_mem_filter he)⟩

theorem memZero_wf {m : Mem} (a n : Nat) (h : memWf m = true) : memWf (memZero m a n) = true := memWf_filter _ h

theorem cellsOf_above (bs : List Byte) : ∀ a, tabAbove a (cellsOf a bs) = true := by
  induction bs with
  | nil => intro a; rfl
  | cons b bs ih =>
    intro a
    simp only [cellsOf]
    split
    · exact tabAbove_mono (by omega) (ih (a + 1))
    · simp only [tabAbove, Bool.and_eq_true, decide_eq_true_eq]
      exact ⟨Nat.le_refl a, ih (a + 1)⟩

theorem cellsOf_below (bs : List Byte) : ∀ a, ∀ e ∈ cellsOf a bs, e.1 < a + bs.length := by
  induction bs with
  | nil => intro a e he; simp [cellsOf] at he
  | cons b bs ih =>
    intro a e he
    simp only [cellsOf] at he
    simp only [List.length_cons]
    split at he
    · have := ih (a + 1) e he; omega
    · rcases List.mem_cons.mp he with rfl | he
      · simp only; omega
      · have := ih (a + 1) e he; omega

theorem cellsOf_nonzero (bs : List Byte) : ∀ a, ∀ e ∈ cellsOf a bs, e.2 ≠ 0 := by
  induction bs with
  | nil => intro a e he; simp [cellsOf] at he
  | cons b bs ih =>
    intro a e he
    simp only [cellsOf] at he
    split at he
    · exact ih (a + 1) e he
    · rcases List.mem_cons.mp he with rfl | he
      · assumption
      · exact ih (a + 1) e he

/-- A write of bytes keeps the canonical form. -/
theorem memWriteN_wf {m : Mem} (a : Nat) (bs : List Byte) (h : memWf m = true) : memWf (memWriteN m a bs) = true := by
  simp only [memWf, Bool.and_eq_true, List.all_eq_true, decide_eq_true_eq] at h ⊢
  unfold memWriteN
  refine ⟨?_, ?_⟩
  · have hm : tabAbove 0 m = true := h.1
    unfold tabWf
    rw [List.append_assoc]
    refine tabAbove_append (k := a) (tabAbove_filter _ hm) ?_ ?_ (Nat.zero_le a)
    · intro e he; simpa using (List.mem_filter.mp he).2
    · refine tabAbove_append (k := a + bs.length) (cellsOf_above bs a) (cellsOf_below bs a) ?_ (by omega)
      refine tabAbove_raise (tabAbove_filter _ hm) ?_
      intro e he; simpa using (List.mem_filter.mp he).2
  · intro e he
    rcases List.mem_append.mp he with he | he
    · rcases List.mem_append.mp he with he | he
      · exact h.2 e (List.mem_of_mem_filter he)
      · exact cellsOf_nonzero bs a e he
    · exact h.2 e (List.mem_of_mem_filter he)

/-- A write of one byte keeps the canonical form. -/
theorem memWrite_wf {m : Mem} (a : Nat) (b : Byte) (h : memWf m = true) : memWf (memWrite m a b) = true := by
  simp only [memWf, Bool.and_eq_true, List.all_eq_true, decide_eq_true_eq] at h ⊢
  refine ⟨tabWf_set a b h.1, ?_⟩
  intro e he
  rcases tabPut_mem he with he | he
  · exact h.2 e he
  · split at he
    · cases he
    · rename_i hb; simp only [Option.some.injEq] at he; rw [← he]; exact hb

/-- A byte reads as what was written there. -/
@[simp] theorem memRead_write_same (m : Mem) (a : Nat) (b : Byte) : memRead (memWrite m a b) a = b := tabGet_set_same 0 m a b

/-- Every other byte reads as before. -/
theorem memRead_write_other (m : Mem) {a x : Nat} (b : Byte) (hne : x ≠ a) : memRead (memWrite m a b) x = memRead m x :=
  tabGet_set_other 0 m b hne

/-! ### Reads after writes of byte lists -/

theorem tabFind_append {α : Type} (a b : Tab α) (i : Nat) : tabFind (a ++ b) i = (tabFind a i).or (tabFind b i) := by
  induction a with
  | nil => rfl
  | cons x a ih =>
    obtain ⟨k, w⟩ := x
    simp only [List.cons_append, tabFind]
    split
    · rfl
    · exact ih

theorem cellsOf_find (bs : List Byte) : ∀ a i, i < bs.length → (tabFind (cellsOf a bs) (a + i)).getD 0 = bs.getD i 0 := by
  induction bs with
  | nil => intro a i h; simp at h
  | cons b bs ih =>
    intro a i h
    simp only [cellsOf]
    cases i with
    | zero =>
      split
      · rename_i hb
        rw [tabFind_absent]
        · simp [hb]
        · intro e he; have := tabAbove_mem (cellsOf_above bs (a + 1)) e he; omega
      · simp [tabFind]
    | succ i =>
      have hi : i < bs.length := by simpa using h
      have hr := ih (a + 1) i hi
      rw [show a + 1 + i = a + (i + 1) by omega] at hr
      split
      · simpa using hr
      · simp only [tabFind]
        rw [if_neg (by omega)]
        simpa using hr

/-- A byte outside a write of bytes reads as before. -/
theorem memRead_writeN_other (m : Mem) {a x : Nat} {bs : List Byte} (hx : x < a ∨ a + bs.length ≤ x) :
    memRead (memWriteN m a bs) x = memRead m x := by
  have hc : tabFind (cellsOf a bs) x = none := by
    refine tabFind_absent ?_
    intro e he
    have h1 := tabAbove_mem (cellsOf_above bs a) e he
    have h2 := cellsOf_below bs a e he
    omega
  unfold memRead tabGet memWriteN
  rw [tabFind_append, tabFind_append, hc, Option.or_none]
  rcases hx with hx | hx
  · have h1 : tabFind (m.filter (fun c => decide (c.1 < a))) x = tabFind m x := tabFind_filter (fun _ => by simpa using hx)
    have h2 : tabFind (m.filter (fun c => decide (a + bs.length ≤ c.1))) x = none := by
      refine tabFind_absent ?_
      intro e he
      have : a + bs.length ≤ e.1 := by simpa using (List.mem_filter.mp he).2
      omega
    rw [h1, h2, Option.or_none]
  · have h1 : tabFind (m.filter (fun c => decide (a + bs.length ≤ c.1))) x = tabFind m x :=
      tabFind_filter (fun _ => by simpa using hx)
    have h2 : tabFind (m.filter (fun c => decide (c.1 < a))) x = none := by
      refine tabFind_absent ?_
      intro e he
      have : e.1 < a := by simpa using (List.mem_filter.mp he).2
      omega
    rw [h1, h2, Option.none_or]

/-- A byte inside a write of bytes reads as what was written. -/
theorem memRead_writeN_same (m : Mem) {a i : Nat} {bs : List Byte} (hi : i < bs.length) :
    memRead (memWriteN m a bs) (a + i) = bs.getD i 0 := by
  have h1 : tabFind (m.filter (fun c => decide (c.1 < a))) (a + i) = none := by
    refine tabFind_absent ?_
    intro e he
    have : e.1 < a := by simpa using (List.mem_filter.mp he).2
    omega
  have h2 : tabFind (m.filter (fun c => decide (a + bs.length ≤ c.1))) (a + i) = none := by
    refine tabFind_absent ?_
    intro e he
    have : a + bs.length ≤ e.1 := by simpa using (List.mem_filter.mp he).2
    omega
  unfold memRead tabGet memWriteN
  rw [tabFind_append, tabFind_append, h1, h2, Option.none_or, Option.or_none]
  exact cellsOf_find bs a i hi

end Sys2Proof.Laws
end

