-- ==== Sys2Proof/Laws/State.lean ====
section
/-!
SUPPORT. One lemma per field per update of the state: what an update leaves as it was; and what registers, fields and records
read as after an update of one of them.
-/

namespace Sys2Proof.Laws

open Sys2Proof.Machine

variable (s : State)

/-! ### setWord -/

@[simp] theorem setWord_pending (a : Nat) (w : Word) : (setWord s a w).pending = s.pending := rfl
@[simp] theorem setWord_variant (a : Nat) (w : Word) : (setWord s a w).variant = s.variant := rfl
@[simp] theorem setWord_inForce (a : Nat) (w : Word) : (setWord s a w).inForce = s.inForce := rfl
@[simp] theorem setWord_fns (a : Nat) (w : Word) : (setWord s a w).fns = s.fns := rfl
@[simp] theorem setWord_seals (a : Nat) (w : Word) : (setWord s a w).seals = s.seals := rfl
@[simp] theorem setWord_ticks (a : Nat) (w : Word) : (setWord s a w).ticks = s.ticks := rfl
@[simp] theorem setWord_counter (a : Nat) (w : Word) : (setWord s a w).counter = s.counter := rfl
@[simp] theorem setWord_deep (a : Nat) (w : Word) : (setWord s a w).deep = s.deep := rfl
@[simp] theorem setWord_near (a : Nat) (w : Word) : (setWord s a w).near = s.near := rfl
@[simp] theorem setWord_posted (a : Nat) (w : Word) : (setWord s a w).posted = s.posted := rfl
@[simp] theorem setWord_hostDown (a : Nat) (w : Word) : (setWord s a w).hostDown = s.hostDown := rfl
@[simp] theorem setWord_msi (a : Nat) (w : Word) : (setWord s a w).msi = s.msi := rfl
@[simp] theorem setWord_msiLast (a : Nat) (w : Word) : (setWord s a w).msiLast = s.msiLast := rfl
@[simp] theorem setWord_msiPend (a : Nat) (w : Word) : (setWord s a w).msiPend = s.msiPend := rfl
@[simp] theorem setWord_egress (a : Nat) (w : Word) : (setWord s a w).egress = s.egress := rfl
@[simp] theorem setWord_sent (a : Nat) (w : Word) : (setWord s a w).sent = s.sent := rfl
@[simp] theorem setWord_dlbUsed (a : Nat) (w : Word) : (setWord s a w).dlbUsed = s.dlbUsed := rfl
@[simp] theorem setWord_poisons (a : Nat) (w : Word) : (setWord s a w).poisons = s.poisons := rfl
@[simp] theorem setWord_waits (a : Nat) (w : Word) : (setWord s a w).waits = s.waits := rfl
@[simp] theorem setWord_resends (a : Nat) (w : Word) : (setWord s a w).resends = s.resends := rfl
@[simp] theorem setWord_requests (a : Nat) (w : Word) : (setWord s a w).requests = s.requests := rfl
@[simp] theorem setWord_bags (a : Nat) (w : Word) : (setWord s a w).bags = s.bags := rfl
@[simp] theorem setWord_held (a : Nat) (w : Word) : (setWord s a w).held = s.held := rfl
@[simp] theorem setWord_accs (a : Nat) (w : Word) : (setWord s a w).accs = s.accs := rfl
@[simp] theorem setWord_updates (a : Nat) (w : Word) : (setWord s a w).updates = s.updates := rfl
@[simp] theorem setWord_landPkts (a : Nat) (w : Word) : (setWord s a w).landPkts = s.landPkts := rfl
@[simp] theorem setWord_parked (a : Nat) (w : Word) : (setWord s a w).parked = s.parked := rfl
@[simp] theorem setWord_tc2Held (a : Nat) (w : Word) : (setWord s a w).tc2Held = s.tc2Held := rfl
@[simp] theorem setWord_landSeq (a : Nat) (w : Word) : (setWord s a w).landSeq = s.landSeq := rfl
@[simp] theorem setWord_loadWaits (a : Nat) (w : Word) : (setWord s a w).loadWaits = s.loadWaits := rfl
@[simp] theorem setWord_tokens (a : Nat) (w : Word) : (setWord s a w).tokens = s.tokens := rfl
@[simp] theorem setWord_deficit (a : Nat) (w : Word) : (setWord s a w).deficit = s.deficit := rfl
@[simp] theorem setWord_turn (a : Nat) (w : Word) : (setWord s a w).turn = s.turn := rfl
@[simp] theorem setWord_arbTick (a : Nat) (w : Word) : (setWord s a w).arbTick = s.arbTick := rfl
@[simp] theorem setWord_fnTurn (a : Nat) (w : Word) : (setWord s a w).fnTurn = s.fnTurn := rfl
@[simp] theorem setWord_fnDeficit (a : Nat) (w : Word) : (setWord s a w).fnDeficit = s.fnDeficit := rfl
@[simp] theorem setWord_agenda (a : Nat) (w : Word) : (setWord s a w).agenda = s.agenda := rfl
@[simp] theorem setWord_heldOnce (a : Nat) (w : Word) : (setWord s a w).heldOnce = s.heldOnce := rfl
@[simp] theorem setWord_lineOut (a : Nat) (w : Word) : (setWord s a w).lineOut = s.lineOut := rfl
@[simp] theorem setWord_cores (a : Nat) (w : Word) : (setWord s a w).cores = s.cores := rfl
@[simp] theorem setWord_deepWrites (a : Nat) (w : Word) : (setWord s a w).deepWrites = s.deepWrites := rfl
@[simp] theorem setWord_pushes (a : Nat) (w : Word) : (setWord s a w).pushes = s.pushes := rfl
@[simp] theorem setWord_ring (a : Nat) (w : Word) : (setWord s a w).ring = s.ring := rfl
@[simp] theorem setWord_twin (a : Nat) (w : Word) : (setWord s a w).twin = s.twin := rfl
@[simp] theorem setWord_watch (a : Nat) (w : Word) : (setWord s a w).watch = s.watch := rfl
@[simp] theorem setWord_ranks (a : Nat) (w : Word) : (setWord s a w).ranks = s.ranks := rfl
@[simp] theorem setWord_beatAt (a : Nat) (w : Word) : (setWord s a w).beatAt = s.beatAt := rfl
@[simp] theorem setWord_msgs (a : Nat) (w : Word) : (setWord s a w).msgs = s.msgs := rfl
@[simp] theorem setWord_puts (a : Nat) (w : Word) : (setWord s a w).puts = s.puts := rfl
@[simp] theorem setWord_marginWindows (a : Nat) (w : Word) : (setWord s a w).marginWindows = s.marginWindows := rfl
@[simp] theorem setWord_margins (a : Nat) (w : Word) : (setWord s a w).margins = s.margins := rfl
@[simp] theorem setWord_floor (a : Nat) (w : Word) : (setWord s a w).floor = s.floor := rfl
@[simp] theorem setWord_hold (a : Nat) (w : Word) : (setWord s a w).hold = s.hold := rfl
@[simp] theorem setWord_pfail (a : Nat) (w : Word) : (setWord s a w).pfail = s.pfail := rfl
@[simp] theorem setWord_line (a : Nat) (w : Word) : (setWord s a w).line = s.line := rfl
@[simp] theorem setWord_mon (a : Nat) (w : Word) : (setWord s a w).mon = s.mon := rfl
@[simp] theorem setWord_integ (a : Nat) (w : Word) : (setWord s a w).integ = s.integ := rfl
@[simp] theorem setWord_nvm (a : Nat) (w : Word) : (setWord s a w).nvm = s.nvm := rfl
@[simp] theorem setWord_pwr (a : Nat) (w : Word) : (setWord s a w).pwr = s.pwr := rfl
@[simp] theorem setWord_vfs (a : Nat) (w : Word) : (setWord s a w).vfs = s.vfs := rfl
@[simp] theorem setWord_latch (a : Nat) (w : Word) : (setWord s a w).latch = s.latch := rfl
@[simp] theorem setWord_rwl (a : Nat) (w : Word) : (setWord s a w).rwl = s.rwl := rfl
@[simp] theorem setWord_answer (a : Nat) (w : Word) : (setWord s a w).answer = s.answer := rfl

/-! ### setF -/

@[simp] theorem setF_pending (pg : Nat) (f : Fld) (v : Nat) : (setF s pg f v).pending = s.pending := setWord_pending s _ _
@[simp] theorem setF_variant (pg : Nat) (f : Fld) (v : Nat) : (setF s pg f v).variant = s.variant := setWord_variant s _ _
@[simp] theorem setF_inForce (pg : Nat) (f : Fld) (v : Nat) : (setF s pg f v).inForce = s.inForce := setWord_inForce s _ _
@[simp] theorem setF_fns (pg : Nat) (f : Fld) (v : Nat) : (setF s pg f v).fns = s.fns := setWord_fns s _ _
@[simp] theorem setF_seals (pg : Nat) (f : Fld) (v : Nat) : (setF s pg f v).seals = s.seals := setWord_seals s _ _
@[simp] theorem setF_ticks (pg : Nat) (f : Fld) (v : Nat) : (setF s pg f v).ticks = s.ticks := setWord_ticks s _ _
@[simp] theorem setF_counter (pg : Nat) (f : Fld) (v : Nat) : (setF s pg f v).counter = s.counter := setWord_counter s _ _
@[simp] theorem setF_deep (pg : Nat) (f : Fld) (v : Nat) : (setF s pg f v).deep = s.deep := setWord_deep s _ _
@[simp] theorem setF_near (pg : Nat) (f : Fld) (v : Nat) : (setF s pg f v).near = s.near := setWord_near s _ _
@[simp] theorem setF_posted (pg : Nat) (f : Fld) (v : Nat) : (setF s pg f v).posted = s.posted := setWord_posted s _ _
@[simp] theorem setF_hostDown (pg : Nat) (f : Fld) (v : Nat) : (setF s pg f v).hostDown = s.hostDown := setWord_hostDown s _ _
@[simp] theorem setF_msi (pg : Nat) (f : Fld) (v : Nat) : (setF s pg f v).msi = s.msi := setWord_msi s _ _
@[simp] theorem setF_msiLast (pg : Nat) (f : Fld) (v : Nat) : (setF s pg f v).msiLast = s.msiLast := setWord_msiLast s _ _
@[simp] theorem setF_msiPend (pg : Nat) (f : Fld) (v : Nat) : (setF s pg f v).msiPend = s.msiPend := setWord_msiPend s _ _
@[simp] theorem setF_egress (pg : Nat) (f : Fld) (v : Nat) : (setF s pg f v).egress = s.egress := setWord_egress s _ _
@[simp] theorem setF_sent (pg : Nat) (f : Fld) (v : Nat) : (setF s pg f v).sent = s.sent := setWord_sent s _ _
@[simp] theorem setF_dlbUsed (pg : Nat) (f : Fld) (v : Nat) : (setF s pg f v).dlbUsed = s.dlbUsed := setWord_dlbUsed s _ _
@[simp] theorem setF_poisons (pg : Nat) (f : Fld) (v : Nat) : (setF s pg f v).poisons = s.poisons := setWord_poisons s _ _
@[simp] theorem setF_waits (pg : Nat) (f : Fld) (v : Nat) : (setF s pg f v).waits = s.waits := setWord_waits s _ _
@[simp] theorem setF_resends (pg : Nat) (f : Fld) (v : Nat) : (setF s pg f v).resends = s.resends := setWord_resends s _ _
@[simp] theorem setF_requests (pg : Nat) (f : Fld) (v : Nat) : (setF s pg f v).requests = s.requests := setWord_requests s _ _
@[simp] theorem setF_bags (pg : Nat) (f : Fld) (v : Nat) : (setF s pg f v).bags = s.bags := setWord_bags s _ _
@[simp] theorem setF_held (pg : Nat) (f : Fld) (v : Nat) : (setF s pg f v).held = s.held := setWord_held s _ _
@[simp] theorem setF_accs (pg : Nat) (f : Fld) (v : Nat) : (setF s pg f v).accs = s.accs := setWord_accs s _ _
@[simp] theorem setF_updates (pg : Nat) (f : Fld) (v : Nat) : (setF s pg f v).updates = s.updates := setWord_updates s _ _
@[simp] theorem setF_landPkts (pg : Nat) (f : Fld) (v : Nat) : (setF s pg f v).landPkts = s.landPkts := setWord_landPkts s _ _
@[simp] theorem setF_parked (pg : Nat) (f : Fld) (v : Nat) : (setF s pg f v).parked = s.parked := setWord_parked s _ _
@[simp] theorem setF_tc2Held (pg : Nat) (f : Fld) (v : Nat) : (setF s pg f v).tc2Held = s.tc2Held := setWord_tc2Held s _ _
@[simp] theorem setF_landSeq (pg : Nat) (f : Fld) (v : Nat) : (setF s pg f v).landSeq = s.landSeq := setWord_landSeq s _ _
@[simp] theorem setF_loadWaits (pg : Nat) (f : Fld) (v : Nat) : (setF s pg f v).loadWaits = s.loadWaits := setWord_loadWaits s _ _
@[simp] theorem setF_tokens (pg : Nat) (f : Fld) (v : Nat) : (setF s pg f v).tokens = s.tokens := setWord_tokens s _ _
@[simp] theorem setF_deficit (pg : Nat) (f : Fld) (v : Nat) : (setF s pg f v).deficit = s.deficit := setWord_deficit s _ _
@[simp] theorem setF_turn (pg : Nat) (f : Fld) (v : Nat) : (setF s pg f v).turn = s.turn := setWord_turn s _ _
@[simp] theorem setF_arbTick (pg : Nat) (f : Fld) (v : Nat) : (setF s pg f v).arbTick = s.arbTick := setWord_arbTick s _ _
@[simp] theorem setF_fnTurn (pg : Nat) (f : Fld) (v : Nat) : (setF s pg f v).fnTurn = s.fnTurn := setWord_fnTurn s _ _
@[simp] theorem setF_fnDeficit (pg : Nat) (f : Fld) (v : Nat) : (setF s pg f v).fnDeficit = s.fnDeficit := setWord_fnDeficit s _ _
@[simp] theorem setF_agenda (pg : Nat) (f : Fld) (v : Nat) : (setF s pg f v).agenda = s.agenda := setWord_agenda s _ _
@[simp] theorem setF_heldOnce (pg : Nat) (f : Fld) (v : Nat) : (setF s pg f v).heldOnce = s.heldOnce := setWord_heldOnce s _ _
@[simp] theorem setF_lineOut (pg : Nat) (f : Fld) (v : Nat) : (setF s pg f v).lineOut = s.lineOut := setWord_lineOut s _ _
@[simp] theorem setF_cores (pg : Nat) (f : Fld) (v : Nat) : (setF s pg f v).cores = s.cores := setWord_cores s _ _
@[simp] theorem setF_deepWrites (pg : Nat) (f : Fld) (v : Nat) : (setF s pg f v).deepWrites = s.deepWrites := setWord_deepWrites s _ _
@[simp] theorem setF_pushes (pg : Nat) (f : Fld) (v : Nat) : (setF s pg f v).pushes = s.pushes := setWord_pushes s _ _
@[simp] theorem setF_ring (pg : Nat) (f : Fld) (v : Nat) : (setF s pg f v).ring = s.ring := setWord_ring s _ _
@[simp] theorem setF_twin (pg : Nat) (f : Fld) (v : Nat) : (setF s pg f v).twin = s.twin := setWord_twin s _ _
@[simp] theorem setF_watch (pg : Nat) (f : Fld) (v : Nat) : (setF s pg f v).watch = s.watch := setWord_watch s _ _
@[simp] theorem setF_ranks (pg : Nat) (f : Fld) (v : Nat) : (setF s pg f v).ranks = s.ranks := setWord_ranks s _ _
@[simp] theorem setF_beatAt (pg : Nat) (f : Fld) (v : Nat) : (setF s pg f v).beatAt = s.beatAt := setWord_beatAt s _ _
@[simp] theorem setF_msgs (pg : Nat) (f : Fld) (v : Nat) : (setF s pg f v).msgs = s.msgs := setWord_msgs s _ _
@[simp] theorem setF_puts (pg : Nat) (f : Fld) (v : Nat) : (setF s pg f v).puts = s.puts := setWord_puts s _ _
@[simp] theorem setF_marginWindows (pg : Nat) (f : Fld) (v : Nat) : (setF s pg f v).marginWindows = s.marginWindows := setWord_marginWindows s _ _
@[simp] theorem setF_margins (pg : Nat) (f : Fld) (v : Nat) : (setF s pg f v).margins = s.margins := setWord_margins s _ _
@[simp] theorem setF_floor (pg : Nat) (f : Fld) (v : Nat) : (setF s pg f v).floor = s.floor := setWord_floor s _ _
@[simp] theorem setF_hold (pg : Nat) (f : Fld) (v : Nat) : (setF s pg f v).hold = s.hold := setWord_hold s _ _
@[simp] theorem setF_pfail (pg : Nat) (f : Fld) (v : Nat) : (setF s pg f v).pfail = s.pfail := setWord_pfail s _ _
@[simp] theorem setF_line (pg : Nat) (f : Fld) (v : Nat) : (setF s pg f v).line = s.line := setWord_line s _ _
@[simp] theorem setF_mon (pg : Nat) (f : Fld) (v : Nat) : (setF s pg f v).mon = s.mon := setWord_mon s _ _
@[simp] theorem setF_integ (pg : Nat) (f : Fld) (v : Nat) : (setF s pg f v).integ = s.integ := setWord_integ s _ _
@[simp] theorem setF_nvm (pg : Nat) (f : Fld) (v : Nat) : (setF s pg f v).nvm = s.nvm := setWord_nvm s _ _
@[simp] theorem setF_pwr (pg : Nat) (f : Fld) (v : Nat) : (setF s pg f v).pwr = s.pwr := setWord_pwr s _ _
@[simp] theorem setF_vfs (pg : Nat) (f : Fld) (v : Nat) : (setF s pg f v).vfs = s.vfs := setWord_vfs s _ _
@[simp] theorem setF_latch (pg : Nat) (f : Fld) (v : Nat) : (setF s pg f v).latch = s.latch := setWord_latch s _ _
@[simp] theorem setF_rwl (pg : Nat) (f : Fld) (v : Nat) : (setF s pg f v).rwl = s.rwl := setWord_rwl s _ _
@[simp] theorem setF_answer (pg : Nat) (f : Fld) (v : Nat) : (setF s pg f v).answer = s.answer := setWord_answer s _ _

/-! ### setFnSt -/

@[simp] theorem setFnSt_pending (n : Nat) (x : FnSt) : (setFnSt s n x).pending = s.pending := by simp only [setFnSt]
@[simp] theorem setFnSt_variant (n : Nat) (x : FnSt) : (setFnSt s n x).variant = s.variant := by simp only [setFnSt]
@[simp] theorem setFnSt_regs (n : Nat) (x : FnSt) : (setFnSt s n x).regs = s.regs := by simp only [setFnSt]
@[simp] theorem setFnSt_inForce (n : Nat) (x : FnSt) : (setFnSt s n x).inForce = s.inForce := by simp only [setFnSt]
@[simp] theorem setFnSt_seals (n : Nat) (x : FnSt) : (setFnSt s n x).seals = s.seals := by simp only [setFnSt]
@[simp] theorem setFnSt_ticks (n : Nat) (x : FnSt) : (setFnSt s n x).ticks = s.ticks := by simp only [setFnSt]
@[simp] theorem setFnSt_counter (n : Nat) (x : FnSt) : (setFnSt s n x).counter = s.counter := by simp only [setFnSt]
@[simp] theorem setFnSt_deep (n : Nat) (x : FnSt) : (setFnSt s n x).deep = s.deep := by simp only [setFnSt]
@[simp] theorem setFnSt_near (n : Nat) (x : FnSt) : (setFnSt s n x).near = s.near := by simp only [setFnSt]
@[simp] theorem setFnSt_posted (n : Nat) (x : FnSt) : (setFnSt s n x).posted = s.posted := by simp only [setFnSt]
@[simp] theorem setFnSt_hostDown (n : Nat) (x : FnSt) : (setFnSt s n x).hostDown = s.hostDown := by simp only [setFnSt]
@[simp] theorem setFnSt_msi (n : Nat) (x : FnSt) : (setFnSt s n x).msi = s.msi := by simp only [setFnSt]
@[simp] theorem setFnSt_msiLast (n : Nat) (x : FnSt) : (setFnSt s n x).msiLast = s.msiLast := by simp only [setFnSt]
@[simp] theorem setFnSt_msiPend (n : Nat) (x : FnSt) : (setFnSt s n x).msiPend = s.msiPend := by simp only [setFnSt]
@[simp] theorem setFnSt_egress (n : Nat) (x : FnSt) : (setFnSt s n x).egress = s.egress := by simp only [setFnSt]
@[simp] theorem setFnSt_sent (n : Nat) (x : FnSt) : (setFnSt s n x).sent = s.sent := by simp only [setFnSt]
@[simp] theorem setFnSt_dlbUsed (n : Nat) (x : FnSt) : (setFnSt s n x).dlbUsed = s.dlbUsed := by simp only [setFnSt]
@[simp] theorem setFnSt_poisons (n : Nat) (x : FnSt) : (setFnSt s n x).poisons = s.poisons := by simp only [setFnSt]
@[simp] theorem setFnSt_waits (n : Nat) (x : FnSt) : (setFnSt s n x).waits = s.waits := by simp only [setFnSt]
@[simp] theorem setFnSt_resends (n : Nat) (x : FnSt) : (setFnSt s n x).resends = s.resends := by simp only [setFnSt]
@[simp] theorem setFnSt_requests (n : Nat) (x : FnSt) : (setFnSt s n x).requests = s.requests := by simp only [setFnSt]
@[simp] theorem setFnSt_bags (n : Nat) (x : FnSt) : (setFnSt s n x).bags = s.bags := by simp only [setFnSt]
@[simp] theorem setFnSt_held (n : Nat) (x : FnSt) : (setFnSt s n x).held = s.held := by simp only [setFnSt]
@[simp] theorem setFnSt_accs (n : Nat) (x : FnSt) : (setFnSt s n x).accs = s.accs := by simp only [setFnSt]
@[simp] theorem setFnSt_updates (n : Nat) (x : FnSt) : (setFnSt s n x).updates = s.updates := by simp only [setFnSt]
@[simp] theorem setFnSt_landPkts (n : Nat) (x : FnSt) : (setFnSt s n x).landPkts = s.landPkts := by simp only [setFnSt]
@[simp] theorem setFnSt_parked (n : Nat) (x : FnSt) : (setFnSt s n x).parked = s.parked := by simp only [setFnSt]
@[simp] theorem setFnSt_tc2Held (n : Nat) (x : FnSt) : (setFnSt s n x).tc2Held = s.tc2Held := by simp only [setFnSt]
@[simp] theorem setFnSt_landSeq (n : Nat) (x : FnSt) : (setFnSt s n x).landSeq = s.landSeq := by simp only [setFnSt]
@[simp] theorem setFnSt_loadWaits (n : Nat) (x : FnSt) : (setFnSt s n x).loadWaits = s.loadWaits := by simp only [setFnSt]
@[simp] theorem setFnSt_tokens (n : Nat) (x : FnSt) : (setFnSt s n x).tokens = s.tokens := by simp only [setFnSt]
@[simp] theorem setFnSt_deficit (n : Nat) (x : FnSt) : (setFnSt s n x).deficit = s.deficit := by simp only [setFnSt]
@[simp] theorem setFnSt_turn (n : Nat) (x : FnSt) : (setFnSt s n x).turn = s.turn := by simp only [setFnSt]
@[simp] theorem setFnSt_arbTick (n : Nat) (x : FnSt) : (setFnSt s n x).arbTick = s.arbTick := by simp only [setFnSt]
@[simp] theorem setFnSt_fnTurn (n : Nat) (x : FnSt) : (setFnSt s n x).fnTurn = s.fnTurn := by simp only [setFnSt]
@[simp] theorem setFnSt_fnDeficit (n : Nat) (x : FnSt) : (setFnSt s n x).fnDeficit = s.fnDeficit := by simp only [setFnSt]
@[simp] theorem setFnSt_agenda (n : Nat) (x : FnSt) : (setFnSt s n x).agenda = s.agenda := by simp only [setFnSt]
@[simp] theorem setFnSt_heldOnce (n : Nat) (x : FnSt) : (setFnSt s n x).heldOnce = s.heldOnce := by simp only [setFnSt]
@[simp] theorem setFnSt_lineOut (n : Nat) (x : FnSt) : (setFnSt s n x).lineOut = s.lineOut := by simp only [setFnSt]
@[simp] theorem setFnSt_cores (n : Nat) (x : FnSt) : (setFnSt s n x).cores = s.cores := by simp only [setFnSt]
@[simp] theorem setFnSt_deepWrites (n : Nat) (x : FnSt) : (setFnSt s n x).deepWrites = s.deepWrites := by simp only [setFnSt]
@[simp] theorem setFnSt_pushes (n : Nat) (x : FnSt) : (setFnSt s n x).pushes = s.pushes := by simp only [setFnSt]
@[simp] theorem setFnSt_ring (n : Nat) (x : FnSt) : (setFnSt s n x).ring = s.ring := by simp only [setFnSt]
@[simp] theorem setFnSt_twin (n : Nat) (x : FnSt) : (setFnSt s n x).twin = s.twin := by simp only [setFnSt]
@[simp] theorem setFnSt_watch (n : Nat) (x : FnSt) : (setFnSt s n x).watch = s.watch := by simp only [setFnSt]
@[simp] theorem setFnSt_ranks (n : Nat) (x : FnSt) : (setFnSt s n x).ranks = s.ranks := by simp only [setFnSt]
@[simp] theorem setFnSt_beatAt (n : Nat) (x : FnSt) : (setFnSt s n x).beatAt = s.beatAt := by simp only [setFnSt]
@[simp] theorem setFnSt_msgs (n : Nat) (x : FnSt) : (setFnSt s n x).msgs = s.msgs := by simp only [setFnSt]
@[simp] theorem setFnSt_puts (n : Nat) (x : FnSt) : (setFnSt s n x).puts = s.puts := by simp only [setFnSt]
@[simp] theorem setFnSt_marginWindows (n : Nat) (x : FnSt) : (setFnSt s n x).marginWindows = s.marginWindows := by simp only [setFnSt]
@[simp] theorem setFnSt_margins (n : Nat) (x : FnSt) : (setFnSt s n x).margins = s.margins := by simp only [setFnSt]
@[simp] theorem setFnSt_floor (n : Nat) (x : FnSt) : (setFnSt s n x).floor = s.floor := by simp only [setFnSt]
@[simp] theorem setFnSt_hold (n : Nat) (x : FnSt) : (setFnSt s n x).hold = s.hold := by simp only [setFnSt]
@[simp] theorem setFnSt_pfail (n : Nat) (x : FnSt) : (setFnSt s n x).pfail = s.pfail := by simp only [setFnSt]
@[simp] theorem setFnSt_line (n : Nat) (x : FnSt) : (setFnSt s n x).line = s.line := by simp only [setFnSt]
@[simp] theorem setFnSt_mon (n : Nat) (x : FnSt) : (setFnSt s n x).mon = s.mon := by simp only [setFnSt]
@[simp] theorem setFnSt_integ (n : Nat) (x : FnSt) : (setFnSt s n x).integ = s.integ := by simp only [setFnSt]
@[simp] theorem setFnSt_nvm (n : Nat) (x : FnSt) : (setFnSt s n x).nvm = s.nvm := by simp only [setFnSt]
@[simp] theorem setFnSt_pwr (n : Nat) (x : FnSt) : (setFnSt s n x).pwr = s.pwr := by simp only [setFnSt]
@[simp] theorem setFnSt_vfs (n : Nat) (x : FnSt) : (setFnSt s n x).vfs = s.vfs := by simp only [setFnSt]
@[simp] theorem setFnSt_latch (n : Nat) (x : FnSt) : (setFnSt s n x).latch = s.latch := by simp only [setFnSt]
@[simp] theorem setFnSt_rwl (n : Nat) (x : FnSt) : (setFnSt s n x).rwl = s.rwl := by simp only [setFnSt]
@[simp] theorem setFnSt_answer (n : Nat) (x : FnSt) : (setFnSt s n x).answer = s.answer := by simp only [setFnSt]

/-! ### modFn -/

@[simp] theorem modFn_pending (n : Nat) (f : FnSt → FnSt) : (modFn s n f).pending = s.pending := setFnSt_pending s _ _
@[simp] theorem modFn_variant (n : Nat) (f : FnSt → FnSt) : (modFn s n f).variant = s.variant := setFnSt_variant s _ _
@[simp] theorem modFn_regs (n : Nat) (f : FnSt → FnSt) : (modFn s n f).regs = s.regs := setFnSt_regs s _ _
@[simp] theorem modFn_inForce (n : Nat) (f : FnSt → FnSt) : (modFn s n f).inForce = s.inForce := setFnSt_inForce s _ _
@[simp] theorem modFn_seals (n : Nat) (f : FnSt → FnSt) : (modFn s n f).seals = s.seals := setFnSt_seals s _ _
@[simp] theorem modFn_ticks (n : Nat) (f : FnSt → FnSt) : (modFn s n f).ticks = s.ticks := setFnSt_ticks s _ _
@[simp] theorem modFn_counter (n : Nat) (f : FnSt → FnSt) : (modFn s n f).counter = s.counter := setFnSt_counter s _ _
@[simp] theorem modFn_deep (n : Nat) (f : FnSt → FnSt) : (modFn s n f).deep = s.deep := setFnSt_deep s _ _
@[simp] theorem modFn_near (n : Nat) (f : FnSt → FnSt) : (modFn s n f).near = s.near := setFnSt_near s _ _
@[simp] theorem modFn_posted (n : Nat) (f : FnSt → FnSt) : (modFn s n f).posted = s.posted := setFnSt_posted s _ _
@[simp] theorem modFn_hostDown (n : Nat) (f : FnSt → FnSt) : (modFn s n f).hostDown = s.hostDown := setFnSt_hostDown s _ _
@[simp] theorem modFn_msi (n : Nat) (f : FnSt → FnSt) : (modFn s n f).msi = s.msi := setFnSt_msi s _ _
@[simp] theorem modFn_msiLast (n : Nat) (f : FnSt → FnSt) : (modFn s n f).msiLast = s.msiLast := setFnSt_msiLast s _ _
@[simp] theorem modFn_msiPend (n : Nat) (f : FnSt → FnSt) : (modFn s n f).msiPend = s.msiPend := setFnSt_msiPend s _ _
@[simp] theorem modFn_egress (n : Nat) (f : FnSt → FnSt) : (modFn s n f).egress = s.egress := setFnSt_egress s _ _
@[simp] theorem modFn_sent (n : Nat) (f : FnSt → FnSt) : (modFn s n f).sent = s.sent := setFnSt_sent s _ _
@[simp] theorem modFn_dlbUsed (n : Nat) (f : FnSt → FnSt) : (modFn s n f).dlbUsed = s.dlbUsed := setFnSt_dlbUsed s _ _
@[simp] theorem modFn_poisons (n : Nat) (f : FnSt → FnSt) : (modFn s n f).poisons = s.poisons := setFnSt_poisons s _ _
@[simp] theorem modFn_waits (n : Nat) (f : FnSt → FnSt) : (modFn s n f).waits = s.waits := setFnSt_waits s _ _
@[simp] theorem modFn_resends (n : Nat) (f : FnSt → FnSt) : (modFn s n f).resends = s.resends := setFnSt_resends s _ _
@[simp] theorem modFn_requests (n : Nat) (f : FnSt → FnSt) : (modFn s n f).requests = s.requests := setFnSt_requests s _ _
@[simp] theorem modFn_bags (n : Nat) (f : FnSt → FnSt) : (modFn s n f).bags = s.bags := setFnSt_bags s _ _
@[simp] theorem modFn_held (n : Nat) (f : FnSt → FnSt) : (modFn s n f).held = s.held := setFnSt_held s _ _
@[simp] theorem modFn_accs (n : Nat) (f : FnSt → FnSt) : (modFn s n f).accs = s.accs := setFnSt_accs s _ _
@[simp] theorem modFn_updates (n : Nat) (f : FnSt → FnSt) : (modFn s n f).updates = s.updates := setFnSt_updates s _ _
@[simp] theorem modFn_landPkts (n : Nat) (f : FnSt → FnSt) : (modFn s n f).landPkts = s.landPkts := setFnSt_landPkts s _ _
@[simp] theorem modFn_parked (n : Nat) (f : FnSt → FnSt) : (modFn s n f).parked = s.parked := setFnSt_parked s _ _
@[simp] theorem modFn_tc2Held (n : Nat) (f : FnSt → FnSt) : (modFn s n f).tc2Held = s.tc2Held := setFnSt_tc2Held s _ _
@[simp] theorem modFn_landSeq (n : Nat) (f : FnSt → FnSt) : (modFn s n f).landSeq = s.landSeq := setFnSt_landSeq s _ _
@[simp] theorem modFn_loadWaits (n : Nat) (f : FnSt → FnSt) : (modFn s n f).loadWaits = s.loadWaits := setFnSt_loadWaits s _ _
@[simp] theorem modFn_tokens (n : Nat) (f : FnSt → FnSt) : (modFn s n f).tokens = s.tokens := setFnSt_tokens s _ _
@[simp] theorem modFn_deficit (n : Nat) (f : FnSt → FnSt) : (modFn s n f).deficit = s.deficit := setFnSt_deficit s _ _
@[simp] theorem modFn_turn (n : Nat) (f : FnSt → FnSt) : (modFn s n f).turn = s.turn := setFnSt_turn s _ _
@[simp] theorem modFn_arbTick (n : Nat) (f : FnSt → FnSt) : (modFn s n f).arbTick = s.arbTick := setFnSt_arbTick s _ _
@[simp] theorem modFn_fnTurn (n : Nat) (f : FnSt → FnSt) : (modFn s n f).fnTurn = s.fnTurn := setFnSt_fnTurn s _ _
@[simp] theorem modFn_fnDeficit (n : Nat) (f : FnSt → FnSt) : (modFn s n f).fnDeficit = s.fnDeficit := setFnSt_fnDeficit s _ _
@[simp] theorem modFn_agenda (n : Nat) (f : FnSt → FnSt) : (modFn s n f).agenda = s.agenda := setFnSt_agenda s _ _
@[simp] theorem modFn_heldOnce (n : Nat) (f : FnSt → FnSt) : (modFn s n f).heldOnce = s.heldOnce := setFnSt_heldOnce s _ _
@[simp] theorem modFn_lineOut (n : Nat) (f : FnSt → FnSt) : (modFn s n f).lineOut = s.lineOut := setFnSt_lineOut s _ _
@[simp] theorem modFn_cores (n : Nat) (f : FnSt → FnSt) : (modFn s n f).cores = s.cores := setFnSt_cores s _ _
@[simp] theorem modFn_deepWrites (n : Nat) (f : FnSt → FnSt) : (modFn s n f).deepWrites = s.deepWrites := setFnSt_deepWrites s _ _
@[simp] theorem modFn_pushes (n : Nat) (f : FnSt → FnSt) : (modFn s n f).pushes = s.pushes := setFnSt_pushes s _ _
@[simp] theorem modFn_ring (n : Nat) (f : FnSt → FnSt) : (modFn s n f).ring = s.ring := setFnSt_ring s _ _
@[simp] theorem modFn_twin (n : Nat) (f : FnSt → FnSt) : (modFn s n f).twin = s.twin := setFnSt_twin s _ _
@[simp] theorem modFn_watch (n : Nat) (f : FnSt → FnSt) : (modFn s n f).watch = s.watch := setFnSt_watch s _ _
@[simp] theorem modFn_ranks (n : Nat) (f : FnSt → FnSt) : (modFn s n f).ranks = s.ranks := setFnSt_ranks s _ _
@[simp] theorem modFn_beatAt (n : Nat) (f : FnSt → FnSt) : (modFn s n f).beatAt = s.beatAt := setFnSt_beatAt s _ _
@[simp] theorem modFn_msgs (n : Nat) (f : FnSt → FnSt) : (modFn s n f).msgs = s.msgs := setFnSt_msgs s _ _
@[simp] theorem modFn_puts (n : Nat) (f : FnSt → FnSt) : (modFn s n f).puts = s.puts := setFnSt_puts s _ _
@[simp] theorem modFn_marginWindows (n : Nat) (f : FnSt → FnSt) : (modFn s n f).marginWindows = s.marginWindows := setFnSt_marginWindows s _ _
@[simp] theorem modFn_margins (n : Nat) (f : FnSt → FnSt) : (modFn s n f).margins = s.margins := setFnSt_margins s _ _
@[simp] theorem modFn_floor (n : Nat) (f : FnSt → FnSt) : (modFn s n f).floor = s.floor := setFnSt_floor s _ _
@[simp] theorem modFn_hold (n : Nat) (f : FnSt → FnSt) : (modFn s n f).hold = s.hold := setFnSt_hold s _ _
@[simp] theorem modFn_pfail (n : Nat) (f : FnSt → FnSt) : (modFn s n f).pfail = s.pfail := setFnSt_pfail s _ _
@[simp] theorem modFn_line (n : Nat) (f : FnSt → FnSt) : (modFn s n f).line = s.line := setFnSt_line s _ _
@[simp] theorem modFn_mon (n : Nat) (f : FnSt → FnSt) : (modFn s n f).mon = s.mon := setFnSt_mon s _ _
@[simp] theorem modFn_integ (n : Nat) (f : FnSt → FnSt) : (modFn s n f).integ = s.integ := setFnSt_integ s _ _
@[simp] theorem modFn_nvm (n : Nat) (f : FnSt → FnSt) : (modFn s n f).nvm = s.nvm := setFnSt_nvm s _ _
@[simp] theorem modFn_pwr (n : Nat) (f : FnSt → FnSt) : (modFn s n f).pwr = s.pwr := setFnSt_pwr s _ _
@[simp] theorem modFn_vfs (n : Nat) (f : FnSt → FnSt) : (modFn s n f).vfs = s.vfs := setFnSt_vfs s _ _
@[simp] theorem modFn_latch (n : Nat) (f : FnSt → FnSt) : (modFn s n f).latch = s.latch := setFnSt_latch s _ _
@[simp] theorem modFn_rwl (n : Nat) (f : FnSt → FnSt) : (modFn s n f).rwl = s.rwl := setFnSt_rwl s _ _
@[simp] theorem modFn_answer (n : Nat) (f : FnSt → FnSt) : (modFn s n f).answer = s.answer := setFnSt_answer s _ _

/-! ### setCore -/

@[simp] theorem setCore_pending (i : Nat) (c : CoreSt) : (setCore s i c).pending = s.pending := by simp only [setCore]
@[simp] theorem setCore_variant (i : Nat) (c : CoreSt) : (setCore s i c).variant = s.variant := by simp only [setCore]
@[simp] theorem setCore_regs (i : Nat) (c : CoreSt) : (setCore s i c).regs = s.regs := by simp only [setCore]
@[simp] theorem setCore_inForce (i : Nat) (c : CoreSt) : (setCore s i c).inForce = s.inForce := by simp only [setCore]
@[simp] theorem setCore_fns (i : Nat) (c : CoreSt) : (setCore s i c).fns = s.fns := by simp only [setCore]
@[simp] theorem setCore_seals (i : Nat) (c : CoreSt) : (setCore s i c).seals = s.seals := by simp only [setCore]
@[simp] theorem setCore_ticks (i : Nat) (c : CoreSt) : (setCore s i c).ticks = s.ticks := by simp only [setCore]
@[simp] theorem setCore_counter (i : Nat) (c : CoreSt) : (setCore s i c).counter = s.counter := by simp only [setCore]
@[simp] theorem setCore_deep (i : Nat) (c : CoreSt) : (setCore s i c).deep = s.deep := by simp only [setCore]
@[simp] theorem setCore_near (i : Nat) (c : CoreSt) : (setCore s i c).near = s.near := by simp only [setCore]
@[simp] theorem setCore_posted (i : Nat) (c : CoreSt) : (setCore s i c).posted = s.posted := by simp only [setCore]
@[simp] theorem setCore_hostDown (i : Nat) (c : CoreSt) : (setCore s i c).hostDown = s.hostDown := by simp only [setCore]
@[simp] theorem setCore_msi (i : Nat) (c : CoreSt) : (setCore s i c).msi = s.msi := by simp only [setCore]
@[simp] theorem setCore_msiLast (i : Nat) (c : CoreSt) : (setCore s i c).msiLast = s.msiLast := by simp only [setCore]
@[simp] theorem setCore_msiPend (i : Nat) (c : CoreSt) : (setCore s i c).msiPend = s.msiPend := by simp only [setCore]
@[simp] theorem setCore_egress (i : Nat) (c : CoreSt) : (setCore s i c).egress = s.egress := by simp only [setCore]
@[simp] theorem setCore_sent (i : Nat) (c : CoreSt) : (setCore s i c).sent = s.sent := by simp only [setCore]
@[simp] theorem setCore_dlbUsed (i : Nat) (c : CoreSt) : (setCore s i c).dlbUsed = s.dlbUsed := by simp only [setCore]
@[simp] theorem setCore_poisons (i : Nat) (c : CoreSt) : (setCore s i c).poisons = s.poisons := by simp only [setCore]
@[simp] theorem setCore_waits (i : Nat) (c : CoreSt) : (setCore s i c).waits = s.waits := by simp only [setCore]
@[simp] theorem setCore_resends (i : Nat) (c : CoreSt) : (setCore s i c).resends = s.resends := by simp only [setCore]
@[simp] theorem setCore_requests (i : Nat) (c : CoreSt) : (setCore s i c).requests = s.requests := by simp only [setCore]
@[simp] theorem setCore_bags (i : Nat) (c : CoreSt) : (setCore s i c).bags = s.bags := by simp only [setCore]
@[simp] theorem setCore_held (i : Nat) (c : CoreSt) : (setCore s i c).held = s.held := by simp only [setCore]
@[simp] theorem setCore_accs (i : Nat) (c : CoreSt) : (setCore s i c).accs = s.accs := by simp only [setCore]
@[simp] theorem setCore_updates (i : Nat) (c : CoreSt) : (setCore s i c).updates = s.updates := by simp only [setCore]
@[simp] theorem setCore_landPkts (i : Nat) (c : CoreSt) : (setCore s i c).landPkts = s.landPkts := by simp only [setCore]
@[simp] theorem setCore_parked (i : Nat) (c : CoreSt) : (setCore s i c).parked = s.parked := by simp only [setCore]
@[simp] theorem setCore_tc2Held (i : Nat) (c : CoreSt) : (setCore s i c).tc2Held = s.tc2Held := by simp only [setCore]
@[simp] theorem setCore_landSeq (i : Nat) (c : CoreSt) : (setCore s i c).landSeq = s.landSeq := by simp only [setCore]
@[simp] theorem setCore_loadWaits (i : Nat) (c : CoreSt) : (setCore s i c).loadWaits = s.loadWaits := by simp only [setCore]
@[simp] theorem setCore_tokens (i : Nat) (c : CoreSt) : (setCore s i c).tokens = s.tokens := by simp only [setCore]
@[simp] theorem setCore_deficit (i : Nat) (c : CoreSt) : (setCore s i c).deficit = s.deficit := by simp only [setCore]
@[simp] theorem setCore_turn (i : Nat) (c : CoreSt) : (setCore s i c).turn = s.turn := by simp only [setCore]
@[simp] theorem setCore_arbTick (i : Nat) (c : CoreSt) : (setCore s i c).arbTick = s.arbTick := by simp only [setCore]
@[simp] theorem setCore_fnTurn (i : Nat) (c : CoreSt) : (setCore s i c).fnTurn = s.fnTurn := by simp only [setCore]
@[simp] theorem setCore_fnDeficit (i : Nat) (c : CoreSt) : (setCore s i c).fnDeficit = s.fnDeficit := by simp only [setCore]
@[simp] theorem setCore_agenda (i : Nat) (c : CoreSt) : (setCore s i c).agenda = s.agenda := by simp only [setCore]
@[simp] theorem setCore_heldOnce (i : Nat) (c : CoreSt) : (setCore s i c).heldOnce = s.heldOnce := by simp only [setCore]
@[simp] theorem setCore_lineOut (i : Nat) (c : CoreSt) : (setCore s i c).lineOut = s.lineOut := by simp only [setCore]
@[simp] theorem setCore_deepWrites (i : Nat) (c : CoreSt) : (setCore s i c).deepWrites = s.deepWrites := by simp only [setCore]
@[simp] theorem setCore_pushes (i : Nat) (c : CoreSt) : (setCore s i c).pushes = s.pushes := by simp only [setCore]
@[simp] theorem setCore_ring (i : Nat) (c : CoreSt) : (setCore s i c).ring = s.ring := by simp only [setCore]
@[simp] theorem setCore_twin (i : Nat) (c : CoreSt) : (setCore s i c).twin = s.twin := by simp only [setCore]
@[simp] theorem setCore_watch (i : Nat) (c : CoreSt) : (setCore s i c).watch = s.watch := by simp only [setCore]
@[simp] theorem setCore_ranks (i : Nat) (c : CoreSt) : (setCore s i c).ranks = s.ranks := by simp only [setCore]
@[simp] theorem setCore_beatAt (i : Nat) (c : CoreSt) : (setCore s i c).beatAt = s.beatAt := by simp only [setCore]
@[simp] theorem setCore_msgs (i : Nat) (c : CoreSt) : (setCore s i c).msgs = s.msgs := by simp only [setCore]
@[simp] theorem setCore_puts (i : Nat) (c : CoreSt) : (setCore s i c).puts = s.puts := by simp only [setCore]
@[simp] theorem setCore_marginWindows (i : Nat) (c : CoreSt) : (setCore s i c).marginWindows = s.marginWindows := by simp only [setCore]
@[simp] theorem setCore_margins (i : Nat) (c : CoreSt) : (setCore s i c).margins = s.margins := by simp only [setCore]
@[simp] theorem setCore_floor (i : Nat) (c : CoreSt) : (setCore s i c).floor = s.floor := by simp only [setCore]
@[simp] theorem setCore_hold (i : Nat) (c : CoreSt) : (setCore s i c).hold = s.hold := by simp only [setCore]
@[simp] theorem setCore_pfail (i : Nat) (c : CoreSt) : (setCore s i c).pfail = s.pfail := by simp only [setCore]
@[simp] theorem setCore_line (i : Nat) (c : CoreSt) : (setCore s i c).line = s.line := by simp only [setCore]
@[simp] theorem setCore_mon (i : Nat) (c : CoreSt) : (setCore s i c).mon = s.mon := by simp only [setCore]
@[simp] theorem setCore_integ (i : Nat) (c : CoreSt) : (setCore s i c).integ = s.integ := by simp only [setCore]
@[simp] theorem setCore_nvm (i : Nat) (c : CoreSt) : (setCore s i c).nvm = s.nvm := by simp only [setCore]
@[simp] theorem setCore_pwr (i : Nat) (c : CoreSt) : (setCore s i c).pwr = s.pwr := by simp only [setCore]
@[simp] theorem setCore_vfs (i : Nat) (c : CoreSt) : (setCore s i c).vfs = s.vfs := by simp only [setCore]
@[simp] theorem setCore_latch (i : Nat) (c : CoreSt) : (setCore s i c).latch = s.latch := by simp only [setCore]
@[simp] theorem setCore_rwl (i : Nat) (c : CoreSt) : (setCore s i c).rwl = s.rwl := by simp only [setCore]
@[simp] theorem setCore_answer (i : Nat) (c : CoreSt) : (setCore s i c).answer = s.answer := by simp only [setCore]

/-! ### advance -/

@[simp] theorem advance_pending (n : Nat) : (advance s n).pending = s.pending := rfl
@[simp] theorem advance_variant (n : Nat) : (advance s n).variant = s.variant := rfl
@[simp] theorem advance_regs (n : Nat) : (advance s n).regs = s.regs := rfl
@[simp] theorem advance_inForce (n : Nat) : (advance s n).inForce = s.inForce := rfl
@[simp] theorem advance_fns (n : Nat) : (advance s n).fns = s.fns := rfl
@[simp] theorem advance_seals (n : Nat) : (advance s n).seals = s.seals := rfl
@[simp] theorem advance_deep (n : Nat) : (advance s n).deep = s.deep := rfl
@[simp] theorem advance_near (n : Nat) : (advance s n).near = s.near := rfl
@[simp] theorem advance_posted (n : Nat) : (advance s n).posted = s.posted := rfl
@[simp] theorem advance_hostDown (n : Nat) : (advance s n).hostDown = s.hostDown := rfl
@[simp] theorem advance_msi (n : Nat) : (advance s n).msi = s.msi := rfl
@[simp] theorem advance_msiLast (n : Nat) : (advance s n).msiLast = s.msiLast := rfl
@[simp] theorem advance_msiPend (n : Nat) : (advance s n).msiPend = s.msiPend := rfl
@[simp] theorem advance_egress (n : Nat) : (advance s n).egress = s.egress := rfl
@[simp] theorem advance_sent (n : Nat) : (advance s n).sent = s.sent := rfl
@[simp] theorem advance_dlbUsed (n : Nat) : (advance s n).dlbUsed = s.dlbUsed := rfl
@[simp] theorem advance_poisons (n : Nat) : (advance s n).poisons = s.poisons := rfl
@[simp] theorem advance_waits (n : Nat) : (advance s n).waits = s.waits := rfl
@[simp] theorem advance_resends (n : Nat) : (advance s n).resends = s.resends := rfl
@[simp] theorem advance_requests (n : Nat) : (advance s n).requests = s.requests := rfl
@[simp] theorem advance_bags (n : Nat) : (advance s n).bags = s.bags := rfl
@[simp] theorem advance_held (n : Nat) : (advance s n).held = s.held := rfl
@[simp] theorem advance_accs (n : Nat) : (advance s n).accs = s.accs := rfl
@[simp] theorem advance_updates (n : Nat) : (advance s n).updates = s.updates := rfl
@[simp] theorem advance_landPkts (n : Nat) : (advance s n).landPkts = s.landPkts := rfl
@[simp] theorem advance_parked (n : Nat) : (advance s n).parked = s.parked := rfl
@[simp] theorem advance_tc2Held (n : Nat) : (advance s n).tc2Held = s.tc2Held := rfl
@[simp] theorem advance_landSeq (n : Nat) : (advance s n).landSeq = s.landSeq := rfl
@[simp] theorem advance_loadWaits (n : Nat) : (advance s n).loadWaits = s.loadWaits := rfl
@[simp] theorem advance_tokens (n : Nat) : (advance s n).tokens = s.tokens := rfl
@[simp] theorem advance_deficit (n : Nat) : (advance s n).deficit = s.deficit := rfl
@[simp] theorem advance_turn (n : Nat) : (advance s n).turn = s.turn := rfl
@[simp] theorem advance_arbTick (n : Nat) : (advance s n).arbTick = s.arbTick := rfl
@[simp] theorem advance_fnTurn (n : Nat) : (advance s n).fnTurn = s.fnTurn := rfl
@[simp] theorem advance_fnDeficit (n : Nat) : (advance s n).fnDeficit = s.fnDeficit := rfl
@[simp] theorem advance_agenda (n : Nat) : (advance s n).agenda = s.agenda := rfl
@[simp] theorem advance_heldOnce (n : Nat) : (advance s n).heldOnce = s.heldOnce := rfl
@[simp] theorem advance_lineOut (n : Nat) : (advance s n).lineOut = s.lineOut := rfl
@[simp] theorem advance_cores (n : Nat) : (advance s n).cores = s.cores := rfl
@[simp] theorem advance_deepWrites (n : Nat) : (advance s n).deepWrites = s.deepWrites := rfl
@[simp] theorem advance_pushes (n : Nat) : (advance s n).pushes = s.pushes := rfl
@[simp] theorem advance_ring (n : Nat) : (advance s n).ring = s.ring := rfl
@[simp] theorem advance_twin (n : Nat) : (advance s n).twin = s.twin := rfl
@[simp] theorem advance_watch (n : Nat) : (advance s n).watch = s.watch := rfl
@[simp] theorem advance_ranks (n : Nat) : (advance s n).ranks = s.ranks := rfl
@[simp] theorem advance_beatAt (n : Nat) : (advance s n).beatAt = s.beatAt := rfl
@[simp] theorem advance_msgs (n : Nat) : (advance s n).msgs = s.msgs := rfl
@[simp] theorem advance_puts (n : Nat) : (advance s n).puts = s.puts := rfl
@[simp] theorem advance_marginWindows (n : Nat) : (advance s n).marginWindows = s.marginWindows := rfl
@[simp] theorem advance_margins (n : Nat) : (advance s n).margins = s.margins := rfl
@[simp] theorem advance_floor (n : Nat) : (advance s n).floor = s.floor := rfl
@[simp] theorem advance_hold (n : Nat) : (advance s n).hold = s.hold := rfl
@[simp] theorem advance_pfail (n : Nat) : (advance s n).pfail = s.pfail := rfl
@[simp] theorem advance_line (n : Nat) : (advance s n).line = s.line := rfl
@[simp] theorem advance_mon (n : Nat) : (advance s n).mon = s.mon := rfl
@[simp] theorem advance_integ (n : Nat) : (advance s n).integ = s.integ := rfl
@[simp] theorem advance_nvm (n : Nat) : (advance s n).nvm = s.nvm := rfl
@[simp] theorem advance_pwr (n : Nat) : (advance s n).pwr = s.pwr := rfl
@[simp] theorem advance_vfs (n : Nat) : (advance s n).vfs = s.vfs := rfl
@[simp] theorem advance_latch (n : Nat) : (advance s n).latch = s.latch := rfl
@[simp] theorem advance_rwl (n : Nat) : (advance s n).rwl = s.rwl := rfl
@[simp] theorem advance_answer (n : Nat) : (advance s n).answer = s.answer := rfl

/-! ### rangeWrite -/

@[simp] theorem rangeWrite_pending (n o : Nat) (bs : List Byte) : (rangeWrite s n o bs).pending = s.pending := rfl
@[simp] theorem rangeWrite_variant (n o : Nat) (bs : List Byte) : (rangeWrite s n o bs).variant = s.variant := rfl
@[simp] theorem rangeWrite_regs (n o : Nat) (bs : List Byte) : (rangeWrite s n o bs).regs = s.regs := rfl
@[simp] theorem rangeWrite_inForce (n o : Nat) (bs : List Byte) : (rangeWrite s n o bs).inForce = s.inForce := rfl
@[simp] theorem rangeWrite_fns (n o : Nat) (bs : List Byte) : (rangeWrite s n o bs).fns = s.fns := rfl
@[simp] theorem rangeWrite_seals (n o : Nat) (bs : List Byte) : (rangeWrite s n o bs).seals = s.seals := rfl
@[simp] theorem rangeWrite_ticks (n o : Nat) (bs : List Byte) : (rangeWrite s n o bs).ticks = s.ticks := rfl
@[simp] theorem rangeWrite_counter (n o : Nat) (bs : List Byte) : (rangeWrite s n o bs).counter = s.counter := rfl
@[simp] theorem rangeWrite_near (n o : Nat) (bs : List Byte) : (rangeWrite s n o bs).near = s.near := rfl
@[simp] theorem rangeWrite_posted (n o : Nat) (bs : List Byte) : (rangeWrite s n o bs).posted = s.posted := rfl
@[simp] theorem rangeWrite_hostDown (n o : Nat) (bs : List Byte) : (rangeWrite s n o bs).hostDown = s.hostDown := rfl
@[simp] theorem rangeWrite_msi (n o : Nat) (bs : List Byte) : (rangeWrite s n o bs).msi = s.msi := rfl
@[simp] theorem rangeWrite_msiLast (n o : Nat) (bs : List Byte) : (rangeWrite s n o bs).msiLast = s.msiLast := rfl
@[simp] theorem rangeWrite_msiPend (n o : Nat) (bs : List Byte) : (rangeWrite s n o bs).msiPend = s.msiPend := rfl
@[simp] theorem rangeWrite_egress (n o : Nat) (bs : List Byte) : (rangeWrite s n o bs).egress = s.egress := rfl
@[simp] theorem rangeWrite_sent (n o : Nat) (bs : List Byte) : (rangeWrite s n o bs).sent = s.sent := rfl
@[simp] theorem rangeWrite_dlbUsed (n o : Nat) (bs : List Byte) : (rangeWrite s n o bs).dlbUsed = s.dlbUsed := rfl
@[simp] theorem rangeWrite_poisons (n o : Nat) (bs : List Byte) : (rangeWrite s n o bs).poisons = s.poisons := rfl
@[simp] theorem rangeWrite_waits (n o : Nat) (bs : List Byte) : (rangeWrite s n o bs).waits = s.waits := rfl
@[simp] theorem rangeWrite_resends (n o : Nat) (bs : List Byte) : (rangeWrite s n o bs).resends = s.resends := rfl
@[simp] theorem rangeWrite_requests (n o : Nat) (bs : List Byte) : (rangeWrite s n o bs).requests = s.requests := rfl
@[simp] theorem rangeWrite_bags (n o : Nat) (bs : List Byte) : (rangeWrite s n o bs).bags = s.bags := rfl
@[simp] theorem rangeWrite_held (n o : Nat) (bs : List Byte) : (rangeWrite s n o bs).held = s.held := rfl
@[simp] theorem rangeWrite_accs (n o : Nat) (bs : List Byte) : (rangeWrite s n o bs).accs = s.accs := rfl
@[simp] theorem rangeWrite_updates (n o : Nat) (bs : List Byte) : (rangeWrite s n o bs).updates = s.updates := rfl
@[simp] theorem rangeWrite_landPkts (n o : Nat) (bs : List Byte) : (rangeWrite s n o bs).landPkts = s.landPkts := rfl
@[simp] theorem rangeWrite_parked (n o : Nat) (bs : List Byte) : (rangeWrite s n o bs).parked = s.parked := rfl
@[simp] theorem rangeWrite_tc2Held (n o : Nat) (bs : List Byte) : (rangeWrite s n o bs).tc2Held = s.tc2Held := rfl
@[simp] theorem rangeWrite_landSeq (n o : Nat) (bs : List Byte) : (rangeWrite s n o bs).landSeq = s.landSeq := rfl
@[simp] theorem rangeWrite_loadWaits (n o : Nat) (bs : List Byte) : (rangeWrite s n o bs).loadWaits = s.loadWaits := rfl
@[simp] theorem rangeWrite_tokens (n o : Nat) (bs : List Byte) : (rangeWrite s n o bs).tokens = s.tokens := rfl
@[simp] theorem rangeWrite_deficit (n o : Nat) (bs : List Byte) : (rangeWrite s n o bs).deficit = s.deficit := rfl
@[simp] theorem rangeWrite_turn (n o : Nat) (bs : List Byte) : (rangeWrite s n o bs).turn = s.turn := rfl
@[simp] theorem rangeWrite_arbTick (n o : Nat) (bs : List Byte) : (rangeWrite s n o bs).arbTick = s.arbTick := rfl
@[simp] theorem rangeWrite_fnTurn (n o : Nat) (bs : List Byte) : (rangeWrite s n o bs).fnTurn = s.fnTurn := rfl
@[simp] theorem rangeWrite_fnDeficit (n o : Nat) (bs : List Byte) : (rangeWrite s n o bs).fnDeficit = s.fnDeficit := rfl
@[simp] theorem rangeWrite_agenda (n o : Nat) (bs : List Byte) : (rangeWrite s n o bs).agenda = s.agenda := rfl
@[simp] theorem rangeWrite_heldOnce (n o : Nat) (bs : List Byte) : (rangeWrite s n o bs).heldOnce = s.heldOnce := rfl
@[simp] theorem rangeWrite_lineOut (n o : Nat) (bs : List Byte) : (rangeWrite s n o bs).lineOut = s.lineOut := rfl
@[simp] theorem rangeWrite_cores (n o : Nat) (bs : List Byte) : (rangeWrite s n o bs).cores = s.cores := rfl
@[simp] theorem rangeWrite_deepWrites (n o : Nat) (bs : List Byte) : (rangeWrite s n o bs).deepWrites = s.deepWrites := rfl
@[simp] theorem rangeWrite_pushes (n o : Nat) (bs : List Byte) : (rangeWrite s n o bs).pushes = s.pushes := rfl
@[simp] theorem rangeWrite_ring (n o : Nat) (bs : List Byte) : (rangeWrite s n o bs).ring = s.ring := rfl
@[simp] theorem rangeWrite_twin (n o : Nat) (bs : List Byte) : (rangeWrite s n o bs).twin = s.twin := rfl
@[simp] theorem rangeWrite_watch (n o : Nat) (bs : List Byte) : (rangeWrite s n o bs).watch = s.watch := rfl
@[simp] theorem rangeWrite_ranks (n o : Nat) (bs : List Byte) : (rangeWrite s n o bs).ranks = s.ranks := rfl
@[simp] theorem rangeWrite_beatAt (n o : Nat) (bs : List Byte) : (rangeWrite s n o bs).beatAt = s.beatAt := rfl
@[simp] theorem rangeWrite_msgs (n o : Nat) (bs : List Byte) : (rangeWrite s n o bs).msgs = s.msgs := rfl
@[simp] theorem rangeWrite_puts (n o : Nat) (bs : List Byte) : (rangeWrite s n o bs).puts = s.puts := rfl
@[simp] theorem rangeWrite_marginWindows (n o : Nat) (bs : List Byte) : (rangeWrite s n o bs).marginWindows = s.marginWindows := rfl
@[simp] theorem rangeWrite_margins (n o : Nat) (bs : List Byte) : (rangeWrite s n o bs).margins = s.margins := rfl
@[simp] theorem rangeWrite_floor (n o : Nat) (bs : List Byte) : (rangeWrite s n o bs).floor = s.floor := rfl
@[simp] theorem rangeWrite_hold (n o : Nat) (bs : List Byte) : (rangeWrite s n o bs).hold = s.hold := rfl
@[simp] theorem rangeWrite_pfail (n o : Nat) (bs : List Byte) : (rangeWrite s n o bs).pfail = s.pfail := rfl
@[simp] theorem rangeWrite_line (n o : Nat) (bs : List Byte) : (rangeWrite s n o bs).line = s.line := rfl
@[simp] theorem rangeWrite_mon (n o : Nat) (bs : List Byte) : (rangeWrite s n o bs).mon = s.mon := rfl
@[simp] theorem rangeWrite_integ (n o : Nat) (bs : List Byte) : (rangeWrite s n o bs).integ = s.integ := rfl
@[simp] theorem rangeWrite_nvm (n o : Nat) (bs : List Byte) : (rangeWrite s n o bs).nvm = s.nvm := rfl
@[simp] theorem rangeWrite_pwr (n o : Nat) (bs : List Byte) : (rangeWrite s n o bs).pwr = s.pwr := rfl
@[simp] theorem rangeWrite_vfs (n o : Nat) (bs : List Byte) : (rangeWrite s n o bs).vfs = s.vfs := rfl
@[simp] theorem rangeWrite_latch (n o : Nat) (bs : List Byte) : (rangeWrite s n o bs).latch = s.latch := rfl
@[simp] theorem rangeWrite_rwl (n o : Nat) (bs : List Byte) : (rangeWrite s n o bs).rwl = s.rwl := rfl
@[simp] theorem rangeWrite_answer (n o : Nat) (bs : List Byte) : (rangeWrite s n o bs).answer = s.answer := rfl

/-! ### nearWrite -/

@[simp] theorem nearWrite_pending (a : Nat) (bs : List Byte) : (nearWrite s a bs).pending = s.pending := rfl
@[simp] theorem nearWrite_variant (a : Nat) (bs : List Byte) : (nearWrite s a bs).variant = s.variant := rfl
@[simp] theorem nearWrite_regs (a : Nat) (bs : List Byte) : (nearWrite s a bs).regs = s.regs := rfl
@[simp] theorem nearWrite_inForce (a : Nat) (bs : List Byte) : (nearWrite s a bs).inForce = s.inForce := rfl
@[simp] theorem nearWrite_fns (a : Nat) (bs : List Byte) : (nearWrite s a bs).fns = s.fns := rfl
@[simp] theorem nearWrite_seals (a : Nat) (bs : List Byte) : (nearWrite s a bs).seals = s.seals := rfl
@[simp] theorem nearWrite_ticks (a : Nat) (bs : List Byte) : (nearWrite s a bs).ticks = s.ticks := rfl
@[simp] theorem nearWrite_counter (a : Nat) (bs : List Byte) : (nearWrite s a bs).counter = s.counter := rfl
@[simp] theorem nearWrite_deep (a : Nat) (bs : List Byte) : (nearWrite s a bs).deep = s.deep := rfl
@[simp] theorem nearWrite_posted (a : Nat) (bs : List Byte) : (nearWrite s a bs).posted = s.posted := rfl
@[simp] theorem nearWrite_hostDown (a : Nat) (bs : List Byte) : (nearWrite s a bs).hostDown = s.hostDown := rfl
@[simp] theorem nearWrite_msi (a : Nat) (bs : List Byte) : (nearWrite s a bs).msi = s.msi := rfl
@[simp] theorem nearWrite_msiLast (a : Nat) (bs : List Byte) : (nearWrite s a bs).msiLast = s.msiLast := rfl
@[simp] theorem nearWrite_msiPend (a : Nat) (bs : List Byte) : (nearWrite s a bs).msiPend = s.msiPend := rfl
@[simp] theorem nearWrite_egress (a : Nat) (bs : List Byte) : (nearWrite s a bs).egress = s.egress := rfl
@[simp] theorem nearWrite_sent (a : Nat) (bs : List Byte) : (nearWrite s a bs).sent = s.sent := rfl
@[simp] theorem nearWrite_dlbUsed (a : Nat) (bs : List Byte) : (nearWrite s a bs).dlbUsed = s.dlbUsed := rfl
@[simp] theorem nearWrite_poisons (a : Nat) (bs : List Byte) : (nearWrite s a bs).poisons = s.poisons := rfl
@[simp] theorem nearWrite_waits (a : Nat) (bs : List Byte) : (nearWrite s a bs).waits = s.waits := rfl
@[simp] theorem nearWrite_resends (a : Nat) (bs : List Byte) : (nearWrite s a bs).resends = s.resends := rfl
@[simp] theorem nearWrite_requests (a : Nat) (bs : List Byte) : (nearWrite s a bs).requests = s.requests := rfl
@[simp] theorem nearWrite_bags (a : Nat) (bs : List Byte) : (nearWrite s a bs).bags = s.bags := rfl
@[simp] theorem nearWrite_held (a : Nat) (bs : List Byte) : (nearWrite s a bs).held = s.held := rfl
@[simp] theorem nearWrite_accs (a : Nat) (bs : List Byte) : (nearWrite s a bs).accs = s.accs := rfl
@[simp] theorem nearWrite_updates (a : Nat) (bs : List Byte) : (nearWrite s a bs).updates = s.updates := rfl
@[simp] theorem nearWrite_landPkts (a : Nat) (bs : List Byte) : (nearWrite s a bs).landPkts = s.landPkts := rfl
@[simp] theorem nearWrite_parked (a : Nat) (bs : List Byte) : (nearWrite s a bs).parked = s.parked := rfl
@[simp] theorem nearWrite_tc2Held (a : Nat) (bs : List Byte) : (nearWrite s a bs).tc2Held = s.tc2Held := rfl
@[simp] theorem nearWrite_landSeq (a : Nat) (bs : List Byte) : (nearWrite s a bs).landSeq = s.landSeq := rfl
@[simp] theorem nearWrite_loadWaits (a : Nat) (bs : List Byte) : (nearWrite s a bs).loadWaits = s.loadWaits := rfl
@[simp] theorem nearWrite_tokens (a : Nat) (bs : List Byte) : (nearWrite s a bs).tokens = s.tokens := rfl
@[simp] theorem nearWrite_deficit (a : Nat) (bs : List Byte) : (nearWrite s a bs).deficit = s.deficit := rfl
@[simp] theorem nearWrite_turn (a : Nat) (bs : List Byte) : (nearWrite s a bs).turn = s.turn := rfl
@[simp] theorem nearWrite_arbTick (a : Nat) (bs : List Byte) : (nearWrite s a bs).arbTick = s.arbTick := rfl
@[simp] theorem nearWrite_fnTurn (a : Nat) (bs : List Byte) : (nearWrite s a bs).fnTurn = s.fnTurn := rfl
@[simp] theorem nearWrite_fnDeficit (a : Nat) (bs : List Byte) : (nearWrite s a bs).fnDeficit = s.fnDeficit := rfl
@[simp] theorem nearWrite_agenda (a : Nat) (bs : List Byte) : (nearWrite s a bs).agenda = s.agenda := rfl
@[simp] theorem nearWrite_heldOnce (a : Nat) (bs : List Byte) : (nearWrite s a bs).heldOnce = s.heldOnce := rfl
@[simp] theorem nearWrite_lineOut (a : Nat) (bs : List Byte) : (nearWrite s a bs).lineOut = s.lineOut := rfl
@[simp] theorem nearWrite_cores (a : Nat) (bs : List Byte) : (nearWrite s a bs).cores = s.cores := rfl
@[simp] theorem nearWrite_deepWrites (a : Nat) (bs : List Byte) : (nearWrite s a bs).deepWrites = s.deepWrites := rfl
@[simp] theorem nearWrite_pushes (a : Nat) (bs : List Byte) : (nearWrite s a bs).pushes = s.pushes := rfl
@[simp] theorem nearWrite_ring (a : Nat) (bs : List Byte) : (nearWrite s a bs).ring = s.ring := rfl
@[simp] theorem nearWrite_twin (a : Nat) (bs : List Byte) : (nearWrite s a bs).twin = s.twin := rfl
@[simp] theorem nearWrite_watch (a : Nat) (bs : List Byte) : (nearWrite s a bs).watch = s.watch := rfl
@[simp] theorem nearWrite_ranks (a : Nat) (bs : List Byte) : (nearWrite s a bs).ranks = s.ranks := rfl
@[simp] theorem nearWrite_beatAt (a : Nat) (bs : List Byte) : (nearWrite s a bs).beatAt = s.beatAt := rfl
@[simp] theorem nearWrite_msgs (a : Nat) (bs : List Byte) : (nearWrite s a bs).msgs = s.msgs := rfl
@[simp] theorem nearWrite_puts (a : Nat) (bs : List Byte) : (nearWrite s a bs).puts = s.puts := rfl
@[simp] theorem nearWrite_marginWindows (a : Nat) (bs : List Byte) : (nearWrite s a bs).marginWindows = s.marginWindows := rfl
@[simp] theorem nearWrite_margins (a : Nat) (bs : List Byte) : (nearWrite s a bs).margins = s.margins := rfl
@[simp] theorem nearWrite_floor (a : Nat) (bs : List Byte) : (nearWrite s a bs).floor = s.floor := rfl
@[simp] theorem nearWrite_hold (a : Nat) (bs : List Byte) : (nearWrite s a bs).hold = s.hold := rfl
@[simp] theorem nearWrite_pfail (a : Nat) (bs : List Byte) : (nearWrite s a bs).pfail = s.pfail := rfl
@[simp] theorem nearWrite_line (a : Nat) (bs : List Byte) : (nearWrite s a bs).line = s.line := rfl
@[simp] theorem nearWrite_mon (a : Nat) (bs : List Byte) : (nearWrite s a bs).mon = s.mon := rfl
@[simp] theorem nearWrite_integ (a : Nat) (bs : List Byte) : (nearWrite s a bs).integ = s.integ := rfl
@[simp] theorem nearWrite_nvm (a : Nat) (bs : List Byte) : (nearWrite s a bs).nvm = s.nvm := rfl
@[simp] theorem nearWrite_pwr (a : Nat) (bs : List Byte) : (nearWrite s a bs).pwr = s.pwr := rfl
@[simp] theorem nearWrite_vfs (a : Nat) (bs : List Byte) : (nearWrite s a bs).vfs = s.vfs := rfl
@[simp] theorem nearWrite_latch (a : Nat) (bs : List Byte) : (nearWrite s a bs).latch = s.latch := rfl
@[simp] theorem nearWrite_rwl (a : Nat) (bs : List Byte) : (nearWrite s a bs).rwl = s.rwl := rfl
@[simp] theorem nearWrite_answer (a : Nat) (bs : List Byte) : (nearWrite s a bs).answer = s.answer := rfl

/-! ### Time -/

@[simp] theorem advance_ticks (n : Nat) : (advance s n).ticks = s.ticks + n := rfl
@[simp] theorem advance_counter (n : Nat) : (advance s n).counter = (s.counter + n) % 2 ^ 64 := rfl

/-! ### Registers -/

/-- A register reads as the word stored in it. -/
@[simp] theorem wordAt_setWord_same (a : Nat) (w : Word) : wordAt (setWord s a w) a = w := by
  simp only [wordAt, setWord]
  rw [tabFind_put_same]
  split <;> simp_all

/-- A store into one register leaves every other as it was. -/
theorem wordAt_setWord_other {a b : Nat} (w : Word) (hne : b ≠ a) :
    wordAt (setWord s a w) b = wordAt s b := by
  simp only [wordAt, setWord]
  rw [tabFind_put_other _ _ hne]

theorem setWord_regs_wf (a : Nat) (w : Word) (h : tabWf s.regs = true) : tabWf (setWord s a w).regs = true :=
  tabWf_put a _ h

theorem setF_regs_wf (pg : Nat) (f : Fld) (v : Nat) (h : tabWf s.regs = true) : tabWf (setF s pg f v).regs = true :=
  setWord_regs_wf s _ _ h

/-- A field replaced in a word reads as the value put there, and the word keeps its size. -/
theorem putFld_spec (f : Fld) (w v : Nat) (hlo : f.lo ≤ f.hi) (hhi : f.hi < 32) (hw : w < 2 ^ 32) :
    fldOf f (putFld f w v) = v % 2 ^ (f.hi + 1 - f.lo) ∧ putFld f w v < 2 ^ 32 := by
  obtain ⟨hi, hhi'⟩ : ∃ k, f.hi + 1 = f.lo + k := ⟨f.hi + 1 - f.lo, by omega⟩
  have hk : f.hi + 1 - f.lo = hi := by omega
  have hkl : f.lo + hi ≤ 32 := by omega
  simp only [putFld, fldOf, bits, hk]
  generalize f.lo = l at *
  have hL : 0 < 2 ^ l := Nat.two_pow_pos l
  have hK : 0 < 2 ^ hi := Nat.two_pow_pos hi
  have hsplit : 2 ^ 32 = 2 ^ (32 - (l + hi)) * (2 ^ hi * 2 ^ l) := by
    rw [← Nat.pow_add, ← Nat.pow_add]; congr 1; omega
  have hq : w / 2 ^ l = 2 ^ hi * (w / 2 ^ l / 2 ^ hi) + w / 2 ^ l % 2 ^ hi := (Nat.div_add_mod _ _).symm
  have hr : w = 2 ^ l * (w / 2 ^ l) + w % 2 ^ l := (Nat.div_add_mod _ _).symm
  have hA : w / 2 ^ l / 2 ^ hi < 2 ^ (32 - (l + hi)) := by
    rw [Nat.div_div_eq_div_mul, Nat.div_lt_iff_lt_mul (Nat.mul_pos hL hK), Nat.mul_comm (2 ^ l), ← hsplit]
    exact hw
  generalize w / 2 ^ l / 2 ^ hi = A at *
  generalize w / 2 ^ l % 2 ^ hi = F at *
  have hB : w % 2 ^ l < 2 ^ l := Nat.mod_lt _ hL
  generalize w % 2 ^ l = B at *
  have hV : v % 2 ^ hi < 2 ^ hi := Nat.mod_lt _ hK
  generalize v % 2 ^ hi = V at *
  have e1 : w - F * 2 ^ l + V * 2 ^ l = 2 ^ l * (2 ^ hi * A + V) + B := by
    rw [hr, hq]
    have : 2 ^ l * (2 ^ hi * A + F) + B - F * 2 ^ l = 2 ^ l * (2 ^ hi * A) + B := by
      rw [Nat.mul_add, Nat.mul_comm F]; omega
    rw [this]; ring
  rw [e1]
  refine ⟨?_, ?_⟩
  · rw [Nat.mul_add_div hL, Nat.div_eq_of_lt hB, Nat.add_zero, Nat.mul_add_mod, Nat.mod_eq_of_lt hV]
  · rw [hsplit]
    have h1 : 2 ^ hi * A + V + 1 ≤ 2 ^ hi * (A + 1) := by rw [Nat.mul_add]; omega
    have h2 : 2 ^ hi * (A + 1) ≤ 2 ^ hi * 2 ^ (32 - (l + hi)) := Nat.mul_le_mul_left _ hA
    calc 2 ^ l * (2 ^ hi * A + V) + B < 2 ^ l * (2 ^ hi * A + V) + 2 ^ l := by omega
      _ = 2 ^ l * (2 ^ hi * A + V + 1) := by ring
      _ ≤ 2 ^ l * (2 ^ hi * 2 ^ (32 - (l + hi))) := Nat.mul_le_mul_left _ (Nat.le_trans h1 h2)
      _ = 2 ^ (32 - (l + hi)) * (2 ^ hi * 2 ^ l) := by ring

/-- A field reads as the value written to it, modulo its width. -/
theorem getF_setF_same (pg : Nat) (f : Fld) (v : Nat) (hlo : f.lo ≤ f.hi) (hhi : f.hi < 32) :
    getF (setF s pg f v) pg f = v % 2 ^ (f.hi + 1 - f.lo) := by
  unfold getF setF
  rw [wordAt_setWord_same]
  have hw : (wordAt s (pg + f.off)).toNat < 2 ^ 32 := (wordAt s (pg + f.off)).isLt
  have hp := putFld_spec f (wordAt s (pg + f.off)).toNat v hlo hhi hw
  rw [BitVec.toNat_ofNat, Nat.mod_eq_of_lt hp.2]
  exact hp.1

/-- A write of a field leaves every field of every other register as it was. -/
theorem getF_setF_other {pg pg' : Nat} {f g : Fld} (v : Nat) (hne : pg' + g.off ≠ pg + f.off) :
    getF (setF s pg f v) pg' g = getF s pg' g := by
  unfold getF setF
  rw [wordAt_setWord_other s _ hne]

/-! ### Records -/

@[simp] theorem fnSt_setFnSt_same (n : Nat) (x : FnSt) : fnSt (setFnSt s n x) n = x := tabGet_set_same _ _ _ _

theorem fnSt_setFnSt_other {n m : Nat} (x : FnSt) (hne : m ≠ n) : fnSt (setFnSt s n x) m = fnSt s m :=
  tabGet_set_other _ _ _ hne

@[simp] theorem fnSt_modFn_same (n : Nat) (f : FnSt → FnSt) : fnSt (modFn s n f) n = f (fnSt s n) := tabGet_set_same _ _ _ _

theorem fnSt_modFn_other {n m : Nat} (f : FnSt → FnSt) (hne : m ≠ n) : fnSt (modFn s n f) m = fnSt s m :=
  tabGet_set_other _ _ _ hne

@[simp] theorem coreSt_setCore_same (i : Nat) (c : CoreSt) : coreSt (setCore s i c) i = c := tabGet_set_same _ _ _ _

theorem coreSt_setCore_other {i j : Nat} (c : CoreSt) (hne : j ≠ i) : coreSt (setCore s i c) j = coreSt s j :=
  tabGet_set_other _ _ _ hne

/-! ### Core registers -/

/-- s0 reads zero whatever is written (R117). -/
theorem sReg_zero (c : CoreSt) : sReg c 0 = 0 := rfl

theorem setS_zero (c : CoreSt) (v : Nat) : setS c 0 v = c := rfl

theorem sReg_setS_same {c : CoreSt} {r : Nat} (v : Nat) (hr : r ≠ 0) : sReg (setS c r v) r = v % 2 ^ 64 := by
  simp [sReg, setS, hr]

theorem sReg_setS_other {c : CoreSt} {r q : Nat} (v : Nat) (hne : q ≠ r) :
    sReg (setS c r v) q = sReg c q := by
  unfold sReg setS
  split
  · rfl
  · split
    · rfl
    · simp only; rw [tabGet_set_other _ _ _ hne]

theorem vReg_setV_same (c : CoreSt) (r v : Nat) : vReg (setV c r v) r = (BitVec.ofNat 1024 v).toNat := by
  simp only [vReg, setV]
  rw [tabGet_set_same]

theorem vReg_setV_other {c : CoreSt} {r q : Nat} (v : Nat) (hne : q ≠ r) :
    vReg (setV c r v) q = vReg c q := by
  simp only [vReg, setV]
  rw [tabGet_set_other _ _ _ hne]

/-- lm0 reads all ones (R117). -/
theorem lmReg_zero (c : CoreSt) : lmReg c 0 = 2 ^ 128 - 1 := rfl

/-! ### Memories of the state -/

theorem rangeWrite_wf (n o : Nat) (bs : List Byte) (h : memWf s.deep = true) : memWf (rangeWrite s n o bs).deep = true :=
  memWriteN_wf _ bs h

theorem nearWrite_wf (a : Nat) (bs : List Byte) (h : memWf s.near = true) : memWf (nearWrite s a bs).near = true :=
  memWriteN_wf _ bs h

theorem memXor_wf {m : Mem} (a : Nat) (bs : List Byte) (h : memWf m = true) : memWf (memXor m a bs) = true :=
  memWriteN_wf _ _ h

end Sys2Proof.Laws
end

