-- ==== Sys2Proof/Laws/Command.lean ====
section
/-!
SUPPORT. What the ends of a command can do: every command answers a next state and leaves the queue as it was; and in a state with
nothing to carry out an end adds nothing to the command's effect.
-/

namespace Sys2Proof.Laws

open Sys2Proof.Machine

/-! ### The queue -/

@[simp] theorem conclude_pending (s t : State) : (conclude s t).pending = s.pending := rfl

theorem onPower_next (s : State) (f : State → State) : onPower s f = .next (conclude s (f s)) := rfl

theorem onDie_next (s : State) (f : State → State) : ∃ t, onDie s f = .next t ∧ t.pending = s.pending := by
  unfold onDie
  split
  · exact ⟨_, rfl, rfl⟩
  · exact ⟨_, rfl, rfl⟩

theorem onDie_alive {s : State} (f : State → State) (h : alive s = true) : onDie s f = .next (conclude s (f s)) := by
  simp only [onDie, h, if_true]

theorem onDie_reset {s : State} (f : State → State) (h : alive s = false) : onDie s f = .next s := by
  simp [onDie, h]

theorem onFabric_run {s : State} (f : State → State) (h : alive s = true) (hp : positioned s = true) :
    onFabric s f = .next (conclude s (f s)) := by
  simp only [onFabric, onDie_alive _ h, hp, if_true]

theorem onPort_run {s : State} {p : Packet} (f : State → State) (h : alive s = true) (hp : portTakes s p = true) :
    onPort s p f = .next (conclude s (f (touchShadow s p))) := by
  simp only [onPort, onDie_alive _ h, hp, if_true]

theorem onControl_run {s : State} (f : State → State) (h : alive s = true) (hs : switching s = false) :
    onControl s f = .next (conclude s (f s)) := by
  simp [onControl, onDie_alive _ h, hs]

theorem onFloor_run {s : State} (f : State → State) (h : alive s = true) (hv : s.variant = .F) :
    onFloor s f = .next (conclude s (f s)) := by
  simp [onFloor, onDie_alive _ h, hv]

/-! ### An end that adds nothing -/

theorem fwHoldCheck_quiet {s : State} (h : Quiet s) : fwHoldCheck s = s := by
  unfold fwHoldCheck
  simp [h.activation, h.cut]

theorem foldl_same {α β : Type} (f : β → α → β) (b : β) (l : List α) (h : ∀ e ∈ l, f b e = b) : l.foldl f b = b := by
  induction l with
  | nil => rfl
  | cons x l ih =>
    rw [List.foldl_cons, h x (List.mem_cons_self ..)]
    exact ih (fun e he => h e (List.mem_cons_of_mem _ he))

theorem shadowNotes_quiet {s : State} (h : Quiet s) : shadowNotes s = s := by
  unfold shadowNotes
  exact foldl_same _ _ _ (fun e he => by simp [h.shadow e he])

theorem settle_quiet {s : State} (h : Quiet s) : settle s = s := by
  unfold settle
  rw [fwHoldCheck_quiet h]
  simp only [h.switching, Bool.false_eq_true, if_false]
  have : runAgenda 65536 s = s := by
    unfold runAgenda
    rw [h.agenda]
  rw [this, shadowNotes_quiet h]

theorem answerWaits_none {s : State} (h : s.loadWaits = []) : answerWaits s = s := by
  unfold answerWaits
  simp only [h, List.filter_nil, List.foldl_nil]
  cases s
  simp_all

/-- A command that leads to a state with nothing to carry out ends there. -/
theorem conclude_quiet {s t : State} (h : Quiet t) (hp : t.pending = s.pending) : conclude s t = t := by
  unfold conclude
  rw [settle_quiet h, answerWaits_none h.loadWaits, ← hp]

end Sys2Proof.Laws
end

