-- ==== Sys2Proof/Tests/Slice0.lean ====
section
/-!
SUPPORT. The model's own tests: commands that the well-formedness check refuses, worked examples of the spec, instruction words
written out from it, and for each statement that has hypotheses a state and operands that meet them.
-/

namespace Sys2Proof.Tests

-- One theorem at a time: each evaluation in a thread of its own would take the memory of all of them together.
set_option Elab.async false

open Sys2Proof Sys2Proof.Machine Sys2Proof.Claims

/-- The bytes of a list of numbers. -/
def hexs (l : List Nat) : List Byte := l.map (BitVec.ofNat 8)

/-! ### States that meet the statements' hypotheses -/

/-- What `Quiet` asks, as a Bool. -/
def calm (s : State) : Bool :=
  decide (s.agenda = []) && decide (s.loadWaits = []) && !switching s && !s.nvm.cut && !bgRunning s 0 0x35 &&
    s.fns.all (fun e => decide (e.2.routeShadow = none))

theorem quiet_of_calm (s : State) (h : calm s = true) : Quiet s := by
  simp only [calm, Bool.and_eq_true, decide_eq_true_eq, Bool.not_eq_true', List.all_eq_true] at h
  exact ⟨h.1.1.1.1.1, h.1.1.1.1.2, h.1.1.1.2, h.1.1.2, h.1.2, h.2⟩

/-- A die that is up, with a valid position. -/
def placed : State := { setF State.reset pgClkpwr CLKPWR_POSITION_VALID 1 with pwr := { phase := 2 } }

/-- The command answers a next state of which `P` holds. -/
def gives (c : Instr) (s : State) (P : State → Bool) : Bool :=
  match exec c s with
  | .next t => P t
  | _ => false

/-- The command changes nothing. -/
def ignores (c : Instr) (s : State) : Bool := gives c s (fun t => decide (t = s))

/-- Every register but those listed reads as before. -/
def sameBut (s t : State) (ex : List Nat) : Bool :=
  (s.regs ++ t.regs).all (fun e => ex.contains e.1 || decide (wordAt t e.1 = wordAt s e.1))

/-- Only registers changed, and of them only those listed. -/
def regsBut (s t : State) (ex : List Nat) : Bool := decide (t = { s with regs := t.regs }) && sameBut s t ex

/-- What `Reaches` asks. -/
def reaches (s : State) (src : Source) : Bool := alive s && calm s && sourceOn s src

theorem reaches_of (s : State) (src : Source) (h : reaches s src = true) : Reaches s src := by
  simp only [reaches, Bool.and_eq_true] at h
  exact ⟨h.1.1, quiet_of_calm s h.1.2, h.2⟩

/-- What `MayAct` asks. -/
def mayAct (s : State) (src : Source) (a : Nat) : Bool := reaches s src && mayWrite src a && !pageLocked s a

theorem mayAct_of (s : State) (src : Source) (a : Nat) (h : mayAct s src a = true) : MayAct s src a := by
  simp only [mayAct, Bool.and_eq_true, Bool.not_eq_true'] at h
  exact ⟨reaches_of s src h.1.1, h.1.2, h.2⟩

/-- The window offset lies in a page of a kind and an instance whose unit the variant has. -/
def there (s : State) (a : Nat) (k : PageKind) (i : Nat) : Bool :=
  decide (a % 4 = 0) && decide (pageAt a = some (k, i)) && !unitAbsent s k (a % 4096)

/-- `s` with a page locked. -/
def locked (s : State) (pg : Nat) : State := setF s pg HDR_LOCK_LOCKED 1

/-- A core that issues. -/
def at0 : Issue := ⟨0, 0, .none⟩


/-- A manifest of job 0x7A11. -/
def job : Manifest := ⟨0, 0x7A11, 0, 0, 64, 64, 0, 0, 0, 0, [], [], [], []⟩


/-- A HOLD that has begun. -/
def inHold (stage : Nat) : HoldPhase := ⟨0, 0, stage, none, false, false, []⟩


/-- Function 5 in a state of Table 13.1. -/
def fn5 (k : Nat) : State := setFnF placed 5 FN_STATE_STATE k

/-- A group of three members of which this die is the first: k 2, r 1. -/
def trio : GroupEntry := ⟨0, 2, 1, 0, 0, 3, 0, 0⟩

/-- A manifest of that group. -/
def job3 : Manifest := { job with groups := [trio] }

/-- What the die keeps for a member of that group on boards 0, 1 and 2. -/
def member : FnSt := { manifest := some job3, role := 1, members := [⟨true, 1, []⟩, ⟨true, 131073, []⟩, ⟨true, 262145, []⟩] }

/-- A command entry of an opcode, with TAG 7 and fields as offset, size and value. -/
def entryOf (op : Nat) (fs : List (Nat × Nat × Nat)) : List Byte :=
  fs.foldl (fun l q => setField l q.1 q.2.1 q.2.2) (setField (setField (zeros 64) 0 1 op) 4 4 7)

/-- Function `n`'s box is armed with one entry in its queue. -/
def boxed (s : State) (n : Nat) (e : List Byte) : State := modFn (setFnF s n FN_PB_CTRL_ARM 1) n (fun x => { x with queue := [e] })

/-- What `Takes` asks of a box with one entry. -/
def takes (s : State) (n op : Nat) (e : List Byte) : Bool :=
  alive s && calm s && armed s n && !s.hostDown && (decide (op < 0x30) || !holding s) && decide ((fnSt s n).queue = [e]) && decide (eOp e = op)

/-- What `Passes` asks. -/
def passes (s : State) (n op : Nat) (e : List Byte) : Bool := takes s n op e && decide (cmdRejected s n e = none)

theorem takes_of (s : State) (n op : Nat) (e : List Byte) (h : takes s n op e = true) : Takes s n op e [] := by
  simp only [takes, Bool.and_eq_true, Bool.or_eq_true, decide_eq_true_eq, Bool.not_eq_true'] at h
  exact ⟨h.1.1.1.1.1.1, quiet_of_calm s h.1.1.1.1.1.2, h.1.1.1.1.2, h.1.1.1.2, h.1.1.2, h.1.2, h.2, by simp⟩

/-- The command, whose entry passes the tests of R372, ends with a status and DETAIL: its completion is posted behind `wrote` other writes. -/
def ends (s : State) (n : Fin 64) (e : List Byte) (c : Instr) (st d wrote : Nat) : Bool :=
  let b := boxed s n e
  passes b n (eOp e) e && gives c b (fun t => decide (t.posted.drop (s.posted.length + wrote) = [cplEntry b n ⟨7, eOp e, st, d⟩]) && decide ((fnSt t n).queue = []))

/-- The command begins: it is listed as running with its argument, and nothing is posted. -/
def begins (s : State) (n : Fin 64) (e : List Byte) (c : Instr) (arg : Nat) : Bool :=
  let b := boxed s n e
  passes b n (eOp e) e && gives c b (fun t => decide (t.posted = s.posted) && decide ((fnSt t n).bg = [⟨eOp e, 7, arg⟩]))
/-! ### Well-formedness: one ill-formed command for each check -/

/-- A header of 32 zero bytes with a payload of `n` bytes. -/
def pkt (n : Nat) : Packet := ⟨List.replicate 32 0, List.replicate n 0⟩

theorem test_wf_packet : Instr.wf (.fifeOpen ⟨[], []⟩) = false ∧ Instr.wf (.result (pkt 63)) = false ∧
    Instr.wf (.buglePacket (.packet (pkt 4160))) = false ∧ Instr.wf (.counts (pkt 64)) = true := by decide +kernel

theorem test_wf_rows : Instr.wf (.nearReadComplete .window false [some [1]]) = false ∧
    Instr.wf (.nearReadComplete .window false (List.replicate 17 none)) = false ∧
    Instr.wf (.runRestart 0 [⟨2, 0, 0, []⟩]) = false ∧ Instr.wf (.runRestart 0 [⟨0, 0, 2 ^ 32, []⟩]) = false ∧
    Instr.wf (.runRestart 0 [⟨1, 0, 5, [none]⟩]) = true := by decide +kernel

theorem test_wf_boxes : Instr.wf (.commandFetch 0 (some [0])) = false ∧ Instr.wf (.commandFetch 0 none) = true ∧
    Instr.wf (.readRaw .mf 0 [0] .none) = false ∧ Instr.wf (.readout ⟨1, 0, 4096, 0⟩) = false := by decide +kernel

theorem test_wf_numbers : Instr.wf (.auditorRun 0 ⟨2 ^ 64, List.replicate 128 0, 0, 0⟩) = false ∧
    Instr.wf (.occupancyWindow [] []) = false ∧ Instr.wf (.marginWindow [0] true) = false ∧ Instr.wf (.powerWindow 65536) = false ∧
    Instr.wf (.intentRegistered 0 0 (2 ^ 32)) = false ∧ Instr.wf (.verifyDue (2 ^ 32)) = false ∧ Instr.wf (.bandRefresh (2 ^ 32) []) = false ∧
    Instr.wf (.floorProgramDone true (2 ^ 64)) = false ∧ Instr.wf (.absorbedRowWork ⟨1, 0, 0, 0⟩ 32 true []) = false := by decide +kernel

/-! ### Worked examples of the spec -/

/-- The nine characters of "123456789". -/
def digits : List Byte := hexs [0x31, 0x32, 0x33, 0x34, 0x35, 0x36, 0x37, 0x38, 0x39]

/-- R23's check value. -/
theorem test_crc64 : crc64 digits = 0x6C40DF5F0B497347 := by decide +kernel

/-- R43: x to the eighth, a product of 1 and a power of the generator. -/
theorem test_gf_products : gfMul 0x80 0x02 = 0x1D ∧ gfMul 0xF4 0x03 = 0x01 ∧ gfMul 0xE7 0x91 = 0xCF := by decide +kernel

/-- The coefficients of Table 2.9. -/
theorem test_parity_coefficients :
    (List.range 8).map (coeff 0) = hexs [0xE3, 0xE7, 0xB5, 0xEA, 0x03, 0x8F, 0xD3, 0xC9] ∧
    (List.range 8).map (coeff 1) = hexs [0xE7, 0xE3, 0xEA, 0xB5, 0x8F, 0x03, 0xC9, 0xD3] := by decide +kernel

/-- The data bytes of Table 2.9. -/
def rowBytes : List Byte := hexs [0x3C, 0x91, 0x07, 0xA5, 0x5E, 0xC2, 0x18, 0x6B]

/-- The two parity bytes of Table 2.9. -/
theorem test_parity_bytes : (List.range 2).map (fun p => (List.range 8).foldl (fun a i => a ^^^ gfMul (coeff p i) (rowBytes.getD i 0)) 0) =
    hexs [0xB3, 0x41] := by decide +kernel

/-- The inverse of the worked example of two erasures. -/
theorem test_erasure_matrix : gfInvert [[0xB5, 0x8F], [0xEA, 0x03]] = [[0x12, 0x09], [0x45, 0x58]] := by decide +kernel

/-- Table 4.4. -/
theorem test_fx96_conversions :
    fx96OfFp32 0x4B800000 25 = ⟨2 ^ 77, false, false⟩ ∧ fx96OfFp32 0x3F800000 25 = ⟨2 ^ 53, false, false⟩ ∧
    fx96OfFp32 0xBF800000 25 = ⟨-2 ^ 53, false, false⟩ ∧ fx96OfFp32 0x2F800001 25 = ⟨2 ^ 21, false, false⟩ ∧
    fx96OfFp32 0x4D000000 25 = ⟨0x7FFFFFFFFFFFFFFFFFFF, true, false⟩ := by decide +kernel

/-- Table 4.5 rounded back by R106: 2^24 + 2 is exact in FP32. -/
theorem test_fp32_of_fx96 : fp32OfFx96 0x20000040000000000000 25 = (0x4B800001, false) := by decide +kernel

/-- Table 6.4, under rounding to nearest. -/
theorem test_lg16_codes : [0, 0x00800000, 0x3F000000, 0x3F800000, 0x40000000, 0x40400000, 0xBF800000].map
    (fun v => convert 12 .rne (valOf 0 v)) = [0, 0x0200, 0x7F00, 0x8000, 0x8100, 0x8196, 0] := by decide +kernel

/-- The worked example of R163: FP32 to BF16 to nearest, by vector A's and by vector C's first draw. -/
theorem test_rounding : convert 1 .rne (valOf 0 0x3F80C000) = 0x3F81 ∧ convert 1 (.sr 0x509946A4) (valOf 0 0x3F80C000) = 0x3F81 ∧
    convert 1 (.sr 0) (valOf 0 0x3F80C000) = 0x3F80 := by decide +kernel

/-- Vector A and vector B of Table 6.7. -/
theorem test_lane_states : lane0 0 0 0 0 0 = ⟨0xE220A8397B1DCDAF, 0x6E789E6AA1B965F4⟩ ∧ (draw (lane0 0 0 0 0 0)).1 = 0x509946A41CD733A3 ∧
    lane0 0x9E3779B97F4A7C15 0 0 0 0 = ⟨0x6E789E6AA1B965F4, 0x06C45D188009454F⟩ ∧
    (draw (lane0 0x9E3779B97F4A7C15 0 0 0 0)).1 = 0x753CFB8321C2AB43 := by decide +kernel

/-- Vector C of Table 6.7. -/
theorem test_draws : (let a := draw ⟨1, 2⟩; let b := draw a.2; let c := draw b.2; (a.1, b.1, c.1, c.2)) =
    (3, 0x800025, 0x2040083, ⟨0x1840060, 0x400000882400⟩) := by decide +kernel

/-- A line of zeros but for byte `i`, which is 1. -/
def oneAt (i : Nat) : List Byte := (List.replicate 64 0).set i 1

/-- R326: the check bytes of a line with a single 1, and the worked example of a corrupted check byte. -/
theorem test_check_bytes : rsCheck (oneAt 63) = hexs [0x0F, 0x36, 0x78, 0x40] ∧
    (let r := decodeLine (oneAt 63) (hexs [0x0F, 0x36, 0x79, 0x40])
     r.data = oneAt 63 ∧ r.check = hexs [0x0F, 0x36, 0x78, 0x40] ∧ r.errs = [66] ∧ r.bad = false) := by decide +kernel

/-- R327: two wrong symbols are corrected, and three that the code sees are uncorrectable. -/
theorem test_two_symbols : (let r := decodeLine ((oneAt 63).set 5 0x77 |>.set 40 0x21) (hexs [0x0F, 0x36, 0x78, 0x40])
    r.data = oneAt 63 ∧ r.bad = false ∧ r.errs.length = 2) ∧
    (decodeLine ((oneAt 63).set 5 0x77 |>.set 40 0x21 |>.set 8 0x13) (hexs [0x0F, 0x36, 0x78, 0x40])).bad = true := by decide +kernel

/-- R246's check value and the worked example of two frames. -/
theorem test_line_frames : digits.foldl (fun c b => crc8Byte c b.toNat) 0 = 0xF4 ∧ keystream 0 = 0xD2D2A223D9 ∧ keystream 2 = 0xD2D3A22759 ∧
    lineFrame 0 0 = 0xC6D5D2D2A223D946 ∧ lineFrame 2 0x1420500251 = 0xC6D5C6F3F2250840 := by decide +kernel

/-- Table 8.9: packet 15 of the worked delta, but for HCHECK. -/
theorem test_delta_header : setField (mkHeader 0x00C20300 0x00CC0300 8 1 (flagsByte true 0) 61 5 16 (codingForm 3 4801 9 960 (areaByte 0 0 false) 6)) 0xE 2 0 =
    hexs [0x00, 0x03, 0xC2, 0x00, 0x00, 0x03, 0xCC, 0x00, 0x28, 0x01, 0x3D, 0x05, 0x10, 0x00, 0x00, 0x00,
          0x03, 0x00, 0x00, 0x00, 0xC1, 0x12, 0x00, 0x00, 0x09, 0x00, 0x00, 0x00, 0xC0, 0x03, 0x00, 0x06] := by decide +kernel

/-- The strap word of member 6 of group 7: STRAP_CHECK 2 agrees with bits 9:0, and no other value does. -/
theorem test_strap_word : (List.range 4).map (fun c => strapOk (c * 1024 + 6)) = [false, false, true, false] := by decide +kernel

/-- Table 17.14: object 1,001 armed with EXPECTED 2 for FN5, after a STORE of 1 and a FETCH_ADD of 2. -/
theorem test_seal_object :
    sealBytes (arriveObj (arriveObj ⟨0, 2, 1, 5, 8, 0, false, 0⟩ 1 0x240000A00).1 2 0x240001230).1 =
      hexs [0x02, 0, 0, 0, 0x02, 0, 0, 0, 0x00, 0x01, 0x08, 0x85, 0x30, 0x12, 0x00, 0x40] ∧
    sealStatus ⟨0, 2, 1, 5, 8, 0, false, 0⟩ = 0x45080000 := by decide +kernel

/-- Table 7.7: the deviation record of the stalled readout. -/
theorem test_deviation_record :
    devBytes { setFnSt State.reset 5 { manifest := some job, step := 4801 } with counter := 0x100009C60 } 5 17 1 3 12 0 41 0x100009600 1200 0 =
      hexs [0x00, 0x96, 0, 0, 1, 0, 0, 0, 0x60, 0x9C, 0, 0, 1, 0, 0, 0, 0x11, 0x7A, 0, 0, 0, 0, 0, 0, 0xC1, 0x12, 0, 0, 0, 0, 0, 0,
            0x11, 0, 0, 0, 1, 3, 0x0C, 0, 0x29, 0, 0, 0, 0xB0, 0x04, 0, 0, 0, 0, 0, 0, 0, 0, 0, 0, 0, 0, 0, 0, 0, 0, 0, 0] := by decide +kernel

/-- SHA-384 of "abc" (FIPS 180-4, which R389 names). -/
theorem test_sha384 : sha384 (hexs [0x61, 0x62, 0x63]) =
    0xCB00753F45A35E8BB5A03D699AC65007272C32AB0EDED1631A8B605A43FF5BED8086072BA1E7CC2358BAECA134C825A7 := by decide +kernel

/-! ### Instruction words (Tables 5.3 and 5.4) -/

/-- A word of each form. -/
theorem test_core_words : decodeA at0 0x0118440B = some (.vadd at0 ⟨3, 1, 2, 0, 5, true⟩) ∧
    decodeB at0 0x8008C020 = some (.vld at0 ⟨1, 3, 0, false, 0, true, false⟩) ∧ decodeB at0 0x9308BFFF = some (.saddi at0 ⟨1, 2, 0x3FFF⟩) ∧
    decodeB at0 0x9053E800 = some (.sli at0 ⟨10, 0x3E800⟩) ∧ decodeB at0 0xB2480010 = some (.bnz at0 ⟨9, 16⟩) := by decide +kernel

/-- R128: an opcode of the other port, one of no table, and a non-zero bit in a field shown as zero. -/
theorem test_core_words_refused : decodeA at0 0x924A9600 = none ∧ decodeB at0 0x0118440B = none ∧ decodeA at0 0x7F000000 = none ∧
    decodeB at0 0x8008C021 = none ∧ decodeB at0 0xB2484010 = none := by decide +kernel

/-! ### Update cores -/

/-- A run of function 5 at the first of four bundles, in its port B. -/
def runB : CoreRun :=
  { fn := 5, prelude := false, cls := 0, member := 0, row := 0, tensor := 0, leafIndex := 0, first := 0, length := 4, entry := 0, pc := 0,
    start := 0, windowEnd := 100, budget := 1000, halted := false, again := none, decode := none, fetchUe := false, dataUe := false,
    droppedAt := none, aDone := true, aWrite := .none, loops := [], cycle := 0, ready := [], lastStore := none, srds := [], planes := [],
    bound := 0 }

/-- The same run in its port A. -/
def runA : CoreRun := { runB with aDone := false }

/-- Core 0 with a run, a lane format, s1 = `s1`, and the lanes' sources, at a bundle; the bundles after it are zero. -/
def coreAt (r : CoreRun) (mode s1 bundle : Nat) : State :=
  { setFnSt placed 5 { progs := some ⟨0, [], [], [], [bundle, 0, 0, 0]⟩ } with
    cores := [(0, { s := [(1, BitVec.ofNat 64 s1)], mode := mode, lanes := List.replicate 128 ⟨1, 2⟩, run := some r })] }

/-- The state that issues word `w` in port B. -/
def inB (mode s1 w : Nat) : State := coreAt runB mode s1 (w * 2 ^ 32)

/-- The state that issues word `w` in port A. -/
def inA (mode w : Nat) : State := coreAt runA mode 0 w

/-- What `IssuesB` asks at core 0. -/
def issuesB (s : State) (w : Nat) (r : CoreRun) : Bool := calm s && alive s && decide (readyRun s (ix at0) true w = some r)

/-- What `IssuesA` asks at core 0. -/
def issuesA (s : State) (w : Nat) (r : CoreRun) : Bool :=
  calm s && alive s && decide (readyRun s (ix at0) false w = some r) && decide (issueCycle r (bundleAt s r) < r.budget)

theorem issuesB_of (s : State) (w : Nat) (r : CoreRun) (h : issuesB s w r = true) : IssuesB s at0 w r := by
  simp only [issuesB, Bool.and_eq_true, decide_eq_true_eq] at h
  exact ⟨quiet_of_calm s h.1.1, h.1.2, rfl, h.2⟩

theorem issuesA_of (s : State) (w : Nat) (r : CoreRun) (h : issuesA s w r = true) : IssuesA s at0 w r := by
  simp only [issuesA, Bool.and_eq_true, decide_eq_true_eq] at h
  exact ⟨quiet_of_calm s h.1.1.1, h.1.1.2, rfl, h.1.2, h.2⟩

/-- d = 2, a = 1, b = 1, c = 1, mask 0. -/
def vf (c : Fin 32) (rnd : Bool) : VForm := ⟨2, 1, 1, c, 0, rnd⟩

/-- Every scalar instruction of two registers, at s1 = 63, the largest shift. -/
theorem test_meets_scalar_integer : (∀ q ∈ intRows.map (fun q => q.2.1), issuesB (inB 0 63 (bWordV (vf 0 false) q)) (bWordV (vf 0 false) q) runB = true) ∧
    (∀ w ∈ [bWordL ⟨2, 0x7FFFF⟩ 0x90, bWordL ⟨2, 0xFFFF⟩ 0x91, bWordI ⟨2, 1, 0x3FFF⟩ 0x93, bWordI ⟨2, 1, 0x2000⟩ 0x97],
      issuesB (inB 0 63 w) w runB = true) ∧ runB.first ≤ (loopNext runB.loops runB.pc).1 ∧
    (loopNext runB.loops runB.pc).1 < runB.first + runB.length := by decide +kernel

/-- The FP64 and FP32 instructions, rounding stochastically, and SFCVT both ways. -/
theorem test_meets_scalar_float : (∀ q ∈ fp64Rows.map (fun q => q.2.1), issuesB (inB 0 1 (bWordV (vf 1 true) q)) (bWordV (vf 1 true) q) runB = true) ∧
    (∀ w ∈ [bWordV (vf 0 true) 0xA6, bWordV (vf 0 true) 0xA7, bWordV (vf 0 false) 0xA5, bWordV (vf 1 true) 0xA5],
      issuesB (inB 0 1 w) w runB = true) ∧ (coreSt (inB 0 1 0) 0).lanes.length = 128 := by decide +kernel

/-- Loads and stores at the first and last 8 bytes of frame B, and a branch of each kind, taken and not taken. -/
theorem test_meets_scalar_memory : (∀ w ∈ [bWordI ⟨2, 1, 0⟩ 0x88, bWordI ⟨2, 1, 0⟩ 0x89, bWordI ⟨2, 1, 0⟩ 0x8A],
      ∀ a ∈ [0x20000, 0x2FFF8], issuesB (inB 0 a w) w runB = true ∧ rangeRight (sramReadable false) a 8 = true ∧
        rangeRight (sramWritable false) a 8 = true ∧ immAddr (coreSt (inB 0 a w) 0) ⟨2, 1, 0⟩ = a) := by decide +kernel

/-- A vector load and store of 32 FP32 lanes in the scratch region, with rnd and inc, and the broadcast load. -/
theorem test_meets_vector_memory : (∀ w ∈ [bWordM ⟨3, 1, 0, false, 0, true, true⟩ 0x80, bWordM ⟨3, 1, 0, false, 0, true, true⟩ 0x81,
      bWordI ⟨3, 1, 0⟩ 0x82], issuesB (inB 0 0x20000 w) w runB = true) ∧ fmtLane 0 = true ∧
    transferBytes (coreSt (inB 0 0x20000 0) 0) 0 false = 128 ∧ rangeRight (sramReadable false) 0x20000 128 = true ∧
    rangeRight (sramWritable false) 0x20000 128 = true ∧ recordStart runB 0 false 0x20000 = true := by decide +kernel

/-- Every branch at a target of the program; bit 63 of s1 makes BNEG go. -/
theorem test_meets_branches : (∀ q ∈ branchRows.map (fun q => q.2.1), ∀ v ∈ [0, 2 ^ 63],
      issuesB (inB 0 v (bWordJ ⟨1, 2⟩ q)) (bWordJ ⟨1, 2⟩ q) runB = true) ∧ branchTo runB ⟨1, 2⟩ < 4 ∧
    branchRows.map (fun q => (q.2.2 0, q.2.2 (2 ^ 63))) = [(true, true), (true, false), (false, true), (false, true)] := by decide +kernel

/-- A loop that is skipped, one that repeats, a halt in a leaf run and in a prelude run, and NOP. -/
theorem test_meets_loops_and_halts : issuesB (inB 0 0 (bWordJ ⟨1, 2⟩ 0xB4)) (bWordJ ⟨1, 2⟩ 0xB4) runB = true ∧
    issuesB (inB 0 9 (bWordJ ⟨1, 2⟩ 0xB4)) (bWordJ ⟨1, 2⟩ 0xB4) runB = true ∧ (loopNext runB.loops (runB.pc + 2)).1 = 3 ∧
    (∀ p : Bool, issuesB (coreAt { runB with prelude := p } 0 0 (bWordJ ⟨0, 0⟩ 0xB5 * 2 ^ 32)) (bWordJ ⟨0, 0⟩ 0xB5) { runB with prelude := p } = true) ∧
    issuesB (inB 0 0 (7 : BitVec 24).toNat) (7 : BitVec 24).toNat runB = true := by decide +kernel

/-- Every vector arithmetic instruction in FP32, BF16 and INT32 lanes, with rnd. -/
theorem test_meets_vector_arithmetic : ∀ q ∈ vectorRows.map (fun q => q.2.1), ∀ m ∈ [0, 1, 8],
    fmtLane m = true ∧ issuesA (inA m (vWord (vf 3 true) q)) (vWord (vf 3 true) q) runA = true := by decide +kernel

/-- The other vector instructions and, on Lyith-F, the tile instructions under BF16. -/
theorem test_meets_vector_functions : (∀ q ∈ [0x09, 0x0F, 0x11, 0x12, 0x0D, 0x10, 0x20, 0x0E, 0x21, 0x22, 0x13],
      issuesA (inA 0 (vWord (vf 1 true) q)) (vWord (vf 1 true) q) runA = true) ∧
    (∀ q ∈ [0x30, 0x31, 0x32], issuesA (inA 1 (vWord (vf 1 true) q)) (vWord (vf 1 true) q) runA = true) ∧
    (tileReg (coreSt (inA 1 0) 0) 1).length = 64 ∧ issuesA (inA 1 (9 : BitVec 24).toNat) (9 : BitVec 24).toNat runA = true := by decide +kernel

/-- A stream read of nothing, SWAIT and FWAIT with nothing outstanding and with a read outstanding, postmark and counter. -/
theorem test_meets_streams : (let w := bWordV ⟨1, 0, 0, 0, 0, false⟩ 0xC0
      issuesB (inB 0 0x20000 w) w runB = true ∧ srdSource (fnSt (inB 0 0 w) 5) runB 0 0 = .ok ∧ (fnSt (inB 0 0 w) 5).hold = none) ∧
    (∀ w ∈ [bWordJ ⟨0, 0⟩ 0xC1, bWordJ ⟨0, 0⟩ 0xDC, bWordI ⟨2, 1, 31⟩ 0xC8, bWordI ⟨2, 1, 4⟩ 0xC9, bWordL ⟨2, 0⟩ 0xD0],
      issuesB (inB 0 0 w) w runB = true ∧ awaited (inB 0 0 w) 0 = []) ∧
    (let r := { runB with srds := [⟨0x20000, 0, 64⟩] }
     issuesB (coreAt r 0 0 (bWordJ ⟨0, 0⟩ 0xC1 * 2 ^ 32)) (bWordJ ⟨0, 0⟩ 0xC1) r = true) := by decide +kernel

/-- The fabric instructions under an ownership entry that allows writing the place they name. -/
theorem test_meets_fabric : ∀ q ∈ [0xD8, 0xD9, 0xDA, 0xDB],
    (let s := modFn (inB 0 64 (bWordV (vf 2 false) q)) 5 (fun x => { x with own := [⟨0, 0, 0, 4096, 2⟩] })
     issuesB s (bWordV (vf 2 false) q) runB = true ∧ ownMode (fnSt s 5).own 64 64 8 = 2 ∧ (fnSt s 5).proxies = []) := by decide +kernel

/-- The traps: SOFT, the tile instructions on Lyith-C, TMMA under FP32 on Lyith-F, and a vld at an odd address. -/
theorem test_meets_traps : issuesB (inB 0 0 (bWordJ ⟨0, 77⟩ 0xB6)) (bWordJ ⟨0, 77⟩ 0xB6) runB = true ∧
    (∀ q ∈ [0x30, 0x31, 0x32], issuesA { inA 1 (vWord (vf 1 false) q) with variant := .C } (vWord (vf 1 false) q) runA = true) ∧
    issuesA (inA 0 (vWord (vf 1 false) 0x31)) (vWord (vf 1 false) 0x31) runA = true ∧
    issuesB (inB 0 0x20001 (bWordM ⟨3, 1, 0, false, 0, true, true⟩ 0x80)) (bWordM ⟨3, 1, 0, false, 0, true, true⟩ 0x80) runB = true ∧
    (fnSt (inB 0 0 0) 5).trapAt = none := by decide +kernel

/-! ### The register window -/

/-- Writes by access type: an RW word, the same word locked, a partial write, one without the right, and one in no page. -/
theorem test_meets_register_writes : (let s := placed;
      there s 0x8050 .wheel 0 && (descAt .wheel 0x050).isSome && !actsOn .wheel 0 0x050 && reaches s .mf && mayWrite .mf 0x8050 &&
      gives (.registerWrite .mf 0x008050 0x12345678 true) s (fun t => regsBut s t [0x8050] && decide (wordAt t 0x8050 = 0x12345678)) &&
      gives (.registerWrite .mf 0x008050 1 false) s (fun t => regsBut s t [0x050] && decide (getF t pgGlobal GLOBAL_WINDOW_STATUS_PARTIAL = 1)) &&
      ignores (.registerWrite .mf 0xFFFFF0 1 true) s) = true ∧
    (let s := locked placed 0x8000;
      reaches s .mc && pageLocked s 0x8050 && !ringCount .wheel 0x050 &&
      gives (.registerWrite .mc 0x008050 0x12345678 true) s (fun t => decide (wordAt t 0x8050 = wordAt s 0x8050) &&
        decide (getF t pgGlobal GLOBAL_LOCK_INFO_PAGE = 8) && decide (getF t pgGlobal GLOBAL_LOCK_INFO_OFFSET = 0x50) &&
        decide (fnF t 0 FN_INT_LOCK_VIOLATION = 1))) = true ∧
    (let s := { placed with vfs := 5 };
      reaches s (.jf 5) && !mayWrite (.jf 5) 0x8050 && gives (.registerWrite (.jf 5) 0x008050 1 true) s (fun t =>
        decide (fnF t 5 FN_INT_DENIED = 1) && sameBut s t [pgFn 5 + 0x018])) = true := by decide +kernel

/-- Reads: an RC word, a latched HI register, a word that the source may not read, and a source without a BAR. -/
theorem test_meets_register_reads : (let s := { placed with vfs := 5, latch := [(0x8048 + 4, 77)] };
      reaches s .mf && mayRead s .mf 0xE060 && !isLatched 0xE060 && gives (.readClear .mf 0x00E060) s (fun t => decide (t.answer = some 0)) &&
      !mayRead s (.jf 5) (pgFn 6 + 8) && gives (.readClear (.jf 5) (BitVec.ofNat 24 (pgFn 6 + 8))) s (fun t => decide (t = { s with answer := some 0 })) &&
      !sourceOn s (.jf 6) && ignores (.readClear (.jf 6) 0) s) = true ∧
    ([0x804C, 0x8044, 0x8048].filter isLatched).length = 1 := by decide +kernel

/-- The first words of a page of every kind, and R5's mirror on both variants. -/
theorem test_meets_page_headers : ([(0x00000, PageKind.global, 0), (0x08000, .wheel, 0), (0x0E000, .clkpwr, 0), (0x23000, .fn, 3), (0x8F000, .seal, 15)].all
      (fun q => reaches placed .mf && there placed q.1 q.2.1 q.2.2 &&
        gives (.readClear .mf (BitVec.ofNat 24 q.1)) placed (fun t => decide (t = { placed with answer := some (pageId q.2.1 q.2.2) })) &&
        gives (.readClear .mf (BitVec.ofNat 24 (q.1 + 4))) placed (fun t => decide (t = { placed with answer := some 0x00010000 })))) = true ∧
    ([(Variant.F, some 7), (.C, some 0)].all (fun v => [0x000008, 0x025008].all (fun a => gives (.readClear .mf a) { placed with variant := v.1 }
      (fun t => decide (t.answer.map (fun w => w.toNat % 8) = v.2))))) = true := by decide +kernel

/-- Seal objects as MF, the owner and another function read them; object 1,001 lies at 0x083F90 (Table 17.14). -/
theorem test_meets_seal_reads : (let s := { placed with vfs := 9, seals := [(1001, ⟨2, 2, 2, 5, 8, 1, false, 0x40001230⟩)] };
      reaches s .mf && reaches s (.jf 5) && reaches s (.jf 6) &&
      gives (.readClear .mf 0x083F90) s (fun t => decide (t.answer = some 2)) &&
      gives (.readClear (.jf 5) 0x083F98) s (fun t => decide (t.answer = some 0x85080100)) &&
      gives (.readClear (.jf 6) 0x083F98) s (fun t => decide (t.answer = some 0))) = true := by decide +kernel

/-- CLEAR_COUNTS, LOCK and INT_FORCE on a function's page, free and locked; the force of an enabled bit requests its vector. -/
theorem test_meets_header_writes : (let s := setWord { placed with vfs := 5 } (pgFn 5 + 0x01C) 0xFFFFFFFF;
      there s (pgFn 5 + 0x010) .fn 5 && mayWrite .mf (pgFn 5 + 0x010) && reaches s .mf && !pageLocked s (pgFn 5) &&
      gives (.clearCounts .mf (BitVec.ofNat 12 (pgFn 5 / 4096))) s (fun t => decide (t = { s with regs := t.regs })) &&
      gives (.lock .mf (BitVec.ofNat 12 (pgFn 5 / 4096)) true) s (fun t => decide (t.rwl = [pgFn 5 + 0x024]) && pageLocked t (pgFn 5) &&
        gives (.lock .mf (BitVec.ofNat 12 (pgFn 5 / 4096)) false) t (fun u => pageLocked u (pgFn 5) && decide (fnF u 0 FN_INT_LOCK_VIOLATION = 1))) &&
      gives (.intForce .mf (BitVec.ofNat 12 (pgFn 5 / 4096)) 0x80000000) s (fun t => decide (t.msi = [(5, fnF s 5 FN_MSIX_MAP_CPL_VEC)]) &&
        sameBut s t [pgFn 5 + 0x018] && decide (fnF t 5 FN_INT_CPL = 1))) = true := by decide +kernel

/-! ### Slices, position, checker, areas -/

/-- Slices free and in use, the position free and fixed. -/
theorem test_meets_slices_and_position : (let s := { placed with pwr := { placed.pwr with phase := 2 } };
      mayAct s .mf 0xE04C && mayAct s .mf 0xE054 && !sliceUsed s 3 &&
      gives (.gate .mf 3) s (fun t => regsBut s t [0xE04C] && decide (getF t pgClkpwr CLKPWR_GATE_SL = 8)) &&
      gives (.sliceReset .mf 3) s (fun t => regsBut s t []) && positioned s &&
      gives (.position .mf 0) s (fun t => decide (fnF t 0 FN_INT_LOCK_VIOLATION = 1) && decide (wordAt t 0xE040 = wordAt s 0xE040))) = true ∧
    (let s := State.reset;
      mayAct s .mf 0xE040 && !positioned s && gives (.position .mf 0x12345678) s (fun t => regsBut s t [0xE040] && positioned t &&
        decide (wordAt t 0xE040 = 0x12345001))) = true ∧
    (let s := setF { placed with pwr := { placed.pwr with phase := 2 } } pgClkpwr CLKPWR_DOMAIN_STATUS_SL 0xFFFF;
      alive s && calm s && gives (.gate .mf 3) s (fun t => gives (.sliceGated 3) t (fun u =>
        decide (getF u pgClkpwr CLKPWR_DOMAIN_STATUS_SL = 0xFFF7) && gives (.ungate .mf 3) u (fun v => gives (.sliceUngated 3) v (fun w =>
          decide (getF w pgClkpwr CLKPWR_DOMAIN_STATUS_SL = 0xFFFF)))))) = true ∧
    (let s := setFnF (modFn placed 5 (fun x => { x with wheel := some ⟨12, 0, 0, 0, 0, 0, 0, 0, 0, 0, 0, 0, [0, 1, 2, 3, 4, 5, 6, 7, 8, 9, 10, 11, 12, 13, 14, 15], [], [], []⟩ })) 5 FN_STATE_STATE 2;
      mayAct s .mf 0xE04C && sliceUsed s 3 && gives (.gate .mf 3) s (fun t => decide (getF t pgClkpwr CLKPWR_GATE_SL = 0) &&
        decide (fnF t 0 FN_INT_LOCK_VIOLATION = 1)) &&
      gives (.regionReset .mf 0) s (fun t => decide (fnF t 0 FN_INT_LOCK_VIOLATION = 1) && decide (t.cores = s.cores))) = true := by decide +kernel

/-! ### The checker, remap, watch log, push area and Bugle -/

/-- A stored block of zeros with its TAG. -/
def zeroBlock (ch block : Nat) : List Byte := zeros 1020 ++ leBytes 4 (blockTag ch block)

/-- Slice 2's checker enabled at channel 1, block 0. -/
def checking : State := setF (setF placed (pgSlice 2) SL_CHK_CTRL_ENABLE 1) (pgSlice 2) SL_CHK_ADDR_CHANNEL 1

/-- The checker disabled, refused and carrying out its three operations. -/
theorem test_meets_checker : mayAct checking .mf (pgSlice 2 + 0x064) = true ∧
    (let s := placed; let raw := zeroBlock 9 0;
      gives (.readRaw .mf 2 raw .none) s (fun t => regsBut s t [pgSlice 2 + 0x064]) && chkRefused checking .spare &&
      gives (.writeRaw .mf 2 raw .spare) checking (fun t => decide (getF t (pgSlice 2) SL_CHK_CTRL_STATUS = 1)) &&
      !chkRefused checking .none && decide ((storedRaw checking 9 0 raw).length = 1024) &&
      gives (.readRaw .mf 2 raw .none) checking (fun t => decide (chkBuf t 2 = raw)) &&
      gives (.writeRaw .mf 2 [] .none) checking (fun t => decide (tabFind t.integ.blocks (blockAddr 9 0) = some (zeros 1024)) &&
        decide (t.deep = checking.deep))) = true := by decide +kernel

/-- A block of zeros under its TAG is clean, whatever the channel's place. -/
theorem test_meets_clean_block : (decodeBlock 9 0 (zeroBlock 9 0)).clean = true := by decide +kernel

/-- A remap entry written once, the watch log emptied, the push area moved, and Bugle for a function that runs and for one that does not. -/
theorem test_meets_remap_and_areas : (let s := placed;
      mayAct s .mf (remapAt 9 3) && gives (.remap .mf 9 3 0x80000123) s (fun t => decide (wordAt t (remapAt 9 3) = 0x80000123) &&
        sameBut s t [remapAt 9 3] && ignores (.remap .mf 9 3 0x80000456) t) &&
      mayAct s .mf 0xB058 && gives (.watchLogClear .mf) s (fun t => decide (getF t pgDrone DRONE_LOG_STATUS_ENTRIES = 0)) &&
      mayAct s .mf 0xC048 && !pushClash s 5 1 &&
      gives (.pushArea .mf (BitVec.ofNat 32 (putFld FLOOR_PUSH_AREA_PUSH_BASE (putFld FLOOR_PUSH_AREA_PUSH_SIZE 0 1) 5))) s (fun t =>
        regsBut s t [0xC048] && decide (getF t pgFloor FLOOR_PUSH_AREA_PUSH_BASE = 5)) &&
      pushClash s 0 1 && gives (.pushArea .mf (BitVec.ofNat 32 (putFld FLOOR_PUSH_AREA_PUSH_SIZE 0 1))) s (fun t =>
        decide (fnF t 0 FN_INT_LOCK_VIOLATION = 1) && decide (wordAt t 0xC048 = wordAt s 0xC048)) &&
      mayAct s .mf (pgFn 5 + 0x178) && !actsRunning s 5 && gives (.bugle .mf 5) s (fun t => regsBut s t []) &&
      actsRunning (setFnF s 5 FN_STATE_STATE 2) 5 && gives (.bugle .mf 5) (setFnF s 5 FN_STATE_STATE 2) (fun t =>
        decide (fnF t 5 FN_FIFE_STATUS_CAUSE = 6))) = true := by decide +kernel

/-! ### Power, reset and clocks -/

/-- The states of start-up: up, in power-on reset, and after it. -/
def phase (k : Nat) : State := { placed with pwr := { placed.pwr with phase := k } }

/-- Power-on reset and its end, chip reset begun and held back, a reset in HOLD deferred, and its expiry. -/
theorem test_meets_resets : ([0, 3, 4].all (fun k => calm (phase k))) = true ∧
    (let s := { placed with near := [(5, 7)], seals := [(1, ⟨1, 2, 1, 5, 1, 0, false, 0⟩)] };
      gives (.powerOnReset false) s (fun t => decide (t.pwr.phase = 3) && decide (t.regs = []) && decide (t.near = []) && decide (t.seals = [])) &&
      gives .powerOnResetEnd (phase 3) (fun t => decide (t = phase 4)) && ignores (.chipReset .pll 5) (phase 3) &&
      ignores .powerOnResetEnd (phase 2) &&
      gives (.chipReset .pll 0x806) (phase 4) (fun t => decide (getF t pgClkpwr CLKPWR_RESET_CAUSE_CAUSE = 1) &&
        decide (getF t pgClkpwr CLKPWR_STRAP_WORD = 0x806) && decide (getF t pgClkpwr CLKPWR_POSITION_BOARD = 6) &&
        decide (getF t pgClkpwr CLKPWR_POSITION_STRAP_BAD = 0) && !positioned t) &&
      ignores (.chipReset .pll 5) { phase 4 with pwr := { (phase 4).pwr with pll := false } } &&
      gives (.chipReset .host 0x006) s (fun t => decide (t.near = s.near) && decide (t.seals = []) && decide (t.pwr.phase = 0) &&
        decide (getF t pgClkpwr CLKPWR_RESET_CAUSE_RETAINED = 1) && decide (getF t pgClkpwr CLKPWR_POSITION_STRAP_BAD = 1)) &&
      gives (.chipReset .pll 0x006) s (fun t => decide (t.near = []) && decide (getF t pgClkpwr CLKPWR_RESET_CAUSE_CAUSE = 4))) = true ∧
    (let s := { placed with hold := some (inHold 2) };
      calm s && alive s && gives (.chipReset .mf 7) s (fun t => decide (t = { s with pwr := { s.pwr with deferred := some (3, 7, 0) } }) &&
        gives .resetDeferralExpiry t (fun u => decide (getF u pgClkpwr CLKPWR_RESET_CAUSE_CAUSE = 3) && decide (u.hold = none))) &&
      gives (.chipReset .pll 7) s (fun t => decide (t.hold = none))) = true := by decide +kernel

/-- The chip reset's cause and straps are those of the request, and a function that ran comes back FENCED. -/
theorem test_meets_reset_of_running : (let s := setFnF (modFn placed 5 (fun x => { x with manifest := some job, role := 1, step := 9, queue := [[1]] })) 5 FN_STATE_STATE 2;
    isBusyFn s 5 && gives (.chipReset .management 0) s (fun t => decide ((fnSt t 5).role = 3) && decide ((fnSt t 5).step = 9) &&
      decide ((fnSt t 5).queue = []) && decide (stateOf t 5 = 0))) = true := by decide +kernel

/-- Start-up, the clock reference, and the monitors at their limits. -/
theorem test_meets_start_and_monitors : (let s := phase 1;
      calm s && alive s && ignores (.boot true) s && gives .deepTierInitDone s (fun t => decide (t.pwr.phase = 2) &&
        decide (getF t pgClkpwr CLKPWR_DOMAIN_STATUS_SL = 0xFFFF) && sameBut s t [0xE050]) &&
      decide (s.pwr.refLostAt = none) && gives .refLost s (fun t => decide (t.pwr.refLostAt = some 0) &&
        decide (getF t pgClkpwr CLKPWR_CLOCK_STATUS_HOLDOVER = 1) && sameBut s t [0xE05C, 0xE018, 0xE014, 0x014, 0x018] &&
        gives .referenceReturn t (fun u => decide (getF u pgClkpwr CLKPWR_CLOCK_STATUS_HOLDOVER = 0)) &&
        gives (.holdoverExpiry false 0) t (fun u => decide (getF u pgClkpwr CLKPWR_RESET_CAUSE_CAUSE = 4))) &&
      gives (.boot true) { phase 0 with nvm := { (phase 0).nvm with boot := { (phase 0).nvm.boot with state0 := 4, digest0 := some 0 } } } (fun t =>
        decide (getF t pgNvm NVM_FW_STATUS_STAGE = 7))) = true ∧
    (let s := setF (setF (phase 2) pgClkpwr CLKPWR_PCAP_HARD_W 400) pgClkpwr CLKPWR_PCAP_SOFT_W 300;
      gives (.powerWindow 401) s (fun t => decide (getF t pgClkpwr CLKPWR_MONITOR_POWER_W = 401) && t.pwr.paused &&
        decide (getF t pgClkpwr CLKPWR_INT_PCAP_OVER = 1) && gives (.powerWindow 290) t (fun u => u.pwr.paused) &&
        gives (.powerWindow 289) t (fun u => !u.pwr.paused)) &&
      gives (.powerWindow 400) s (fun t => decide (getF t pgClkpwr CLKPWR_INT_PCAP_OVER = 0) && sameBut s t [0xE06C])) = true ∧
    (let s := setF (setF (phase 2) pgClkpwr CLKPWR_TCAP_WARN_C 90) pgClkpwr CLKPWR_TCAP_TRIP_C 105;
      gives (.thermalSample 90 3) s (fun t => decide (getF t pgClkpwr CLKPWR_INT_THERM_WARN = 1) && decide (getF t pgClkpwr CLKPWR_INT_THERM_TRIP = 0) &&
        decide (getF t pgClkpwr CLKPWR_MONITOR_HOT = 3)) &&
      gives (.thermalSample 89 3) s (fun t => decide (getF t pgClkpwr CLKPWR_INT_THERM_WARN = 0))) = true := by decide +kernel

/-! ### The Fife line and the counter -/

/-- A die whose line is in a state of Table 9.9, with the receive count and phase. -/
def onLine (st ph rx : Nat) : State :=
  { setF (setF placed pgFife FIFE_STATUS_LINE st) pgFife FIFE_STATUS_PHASE ph with line := { rxFc := rx } }

/-- The frame of plaintext `p` at the place that `onLine` expects. -/
def frameOf (rx p : Nat) : BitVec 64 := BitVec.ofNat 64 (lineFrame rx p)

/-- What `GoodFrame` asks. -/
def goodFrame (s : State) (w : BitVec 64) (p : Nat) : Bool :=
  alive s && calm s && decide (lineState s = 4) && syncOk w.toNat && decide (linePayload w.toNat ^^^ keystream s.line.rxFc = p) &&
    reservedOk s.line.hubPhase s.line.rxFc p && zeroOk p && decide (s.line.rx = none)

theorem goodFrame_of (s : State) (w : BitVec 64) (p : Nat) (h : goodFrame s w p = true) : GoodFrame s w p := by
  simp only [goodFrame, Bool.and_eq_true, decide_eq_true_eq] at h
  exact ⟨h.1.1.1.1.1.1.1, quiet_of_calm s h.1.1.1.1.1.1.2, h.1.1.1.1.1.2, h.1.1.1.1.2, h.1.1.1.2, h.1.1.2, h.1.2, h.2⟩

/-- HUNT, CONFIRM at its last frame but one and its last, ACQUIRE at the second marker, LOCKED losing lock, and FIFE_DOWN. -/
theorem test_meets_lock : (let w := frameOf 0 0; let bad : BitVec 64 := 0;
      gives (.frame w []) (onLine 1 0 0) (fun t => decide (lineState t = 2) && decide (t.line.confirm = 1)) && ignores (.frame bad []) (onLine 1 0 0) &&
      gives (.frame w []) { onLine 2 0 0 with line := { confirm := 6 } } (fun t => decide (lineState t = 2)) &&
      gives (.frame w []) { onLine 2 0 0 with line := { confirm := 7 } } (fun t => decide (lineState t = 3)) &&
      gives (.frame bad []) (onLine 3 0 0) (fun t => decide (lineState t = 1)) &&
      gives (.frame (frameOf 64 0) []) { onLine 3 0 0 with line := { acquire := 100, marks := [(36, 0)] } } (fun t =>
        decide (lineState t = 4) && decide (t.line.rxFc = 65)) &&
      gives (.frame bad []) (onLine 4 0 9) (fun t => decide (lineState t = 4) && decide (t.line.bad = 1)) &&
      gives (.frame bad []) { onLine 4 0 9 with line := { rxFc := 9, bad := 3 } } (fun t => decide (lineState t = 1) &&
        decide (getF t pgFife FIFE_STATUS_LOCK_LOST = 1))) = true := by decide +kernel

theorem test_meets_hunt : (gives .huntExpiry (onLine 1 0 0) (fun t => decide (lineState t = 5) && decide (t.ticks = 40000000) &&
        gives .huntRetry t (fun u => decide (lineState u = 1) && decide (u.ticks = 840000000))) &&
      mayAct (onLine 4 0 0) .mf 0xA040 && gives (.retrain .mf) (onLine 4 0 0) (fun t => decide (lineState t = 1) && sameBut (onLine 4 0 0) t [0xA044])) =
    true := by decide +kernel

/-- PHASE of the hub in LAUNCH, RUN and HOLD. -/
theorem test_meets_phase : (let p := 9 * 2 ^ 36 + 2 ^ 34; let z := 9 * 2 ^ 36;
      goodFrame (onLine 4 0 1) (frameOf 1 p) p && gives (.phase (frameOf 1 p) []) (onLine 4 0 1) (fun t => decide (linePhase t = 1) && decide (t.line.hubPhase = some 1)) &&
      goodFrame (onLine 4 1 1) (frameOf 1 z) z && gives (.phase (frameOf 1 z) []) (onLine 4 1 1) (fun t => decide (linePhase t = 0)) &&
      gives (.phase (frameOf 1 p) []) { onLine 4 2 1 with hold := some { inHold 4 with ended := true } } (fun t => decide (linePhase t = 1) && decide (t.hold = none)) &&
      gives (.phase (frameOf 1 z) []) (setFnF (onLine 4 1 1) 5 FN_STATE_STATE 2) (fun t => decide (linePhase t = 1))) = true := by decide +kernel

/-- An echo, both halves of a beacon with a round trip of 138 ticks, and a heartbeat that is 9 ticks off. -/
theorem test_meets_counter_frames : (let e := 0xB * 2 ^ 36 + 3; let b := 0xC * 2 ^ 36 + 2 ^ 32 + 1000; let hi := 0xC * 2 ^ 36 + 7; let hb := 8 * 2 ^ 36 + 1000;
      goodFrame (onLine 4 0 5) (frameOf 5 e) e &&
      gives (.echoRsp (frameOf 5 e) []) { onLine 4 0 5 with ticks := 300, line := { rxFc := 5, launch := some ⟨0, 0, 3, some 160, none⟩ } } (fun t =>
        decide (t.line.launch = some ⟨0, 0, 4, none, some 140⟩)) &&
      goodFrame (onLine 4 0 5) (frameOf 5 hi) hi && gives (.beacon (frameOf 5 hi) []) (onLine 4 0 5) (fun t => decide (t.line.high = some 7)) &&
      goodFrame (onLine 4 0 5) (frameOf 5 b) b &&
      gives (.beacon (frameOf 5 b) []) { onLine 4 0 5 with line := { rxFc := 5, high := some 7, launch := some ⟨0, 0, 16, none, some 138⟩ } } (fun t =>
        decide (t.counter = 7 * 2 ^ 32 + 1000 + 5 + 4) && decide (getF t pgWheel WHEEL_STATUS_LINE_DELAY = 5) &&
        decide (getF t pgWheel WHEEL_STATUS_COUNTER_STATE = 2)) &&
      goodFrame (onLine 4 1 32) (frameOf 32 hb) hb &&
      gives (.heartbeat (frameOf 32 hb) []) { onLine 4 1 32 with counter := 1009 } (fun t => decide (getF t pgFife FIFE_STATUS_DRIFT = 9) &&
        decide (getF t pgFife FIFE_STATUS_DRIFT_ALARM = 1)) &&
      gives (.heartbeat (frameOf 32 hb) []) { onLine 4 1 32 with counter := 1004 } (fun t => decide (getF t pgFife FIFE_STATUS_DRIFT_ALARM = 0))) = true := by decide +kernel

theorem test_meets_test_frames : (let l := 0xF * 2 ^ 36 + 5; let q := 0xF * 2 ^ 36 + 2 ^ 32 + 7; let c := 0xF * 2 ^ 36 + 2 * 2 ^ 32 + 9; let s := onLine 4 3 5;
      goodFrame s (frameOf 5 l) l && gives (.testLoop (frameOf 5 l) []) s (fun t => decide (t.line.single = [l])) &&
      goodFrame s (frameOf 5 q) q && gives (.testPattern (frameOf 5 q) []) { s with line := { rxFc := 5, pattern := some 9 } } (fun t =>
        decide (t.line.pattern = some 7) && decide (getF t pgFife FIFE_TEST_ERRORS = 1)) &&
      goodFrame s (frameOf 5 c) c && gives (.testScan (frameOf 5 c) []) s (fun t => decide (getF t pgFife FIFE_SCAN_SCAN = 9))) = true := by decide +kernel

/-- The frames of the transmitter's reserved places, and a free one. -/
theorem test_meets_transmit : ([(64, 0), (65, 9 * 2 ^ 36 + 2 ^ 34), (1056, 8 * 2 ^ 36 + 40), (70, 77)].all (fun q =>
      gives .frameTransmit { onLine 4 1 0 with counter := 40, line := { txFc := q.1, single := [77] } } (fun t =>
        decide (t.line.sent = [lineFrame q.1 q.2]) && decide (t.line.txFc = q.1 + 1) && decide (t.line.txAt = 8)))) = true := by decide +kernel

theorem test_meets_repeats : (let m : LineMsg := ⟨1, 5, 0, [1], 1, some 100, 14⟩; let l : LineMsg := { m with repeats := 15 };
      gives .messageRepeat { onLine 4 1 0 with lineOut := [m] } (fun t => decide (t.ticks = 100) &&
        decide (t.lineOut = [{ m with next := 0, due := none, repeats := 15 }]) && decide (getF t pgFife FIFE_COUNT_REPEATS = 1)) &&
      gives .messageRepeat { onLine 4 1 0 with lineOut := [l] } (fun t => decide (lineState t = 1) && decide (t.lineOut = []))) = true := by decide +kernel

/-- Launch and its time-out, SET, ADJ at its bound, a correction of 40 ticks in two guard slots of LEN 4,096, and LEN_LOG2. -/
theorem test_meets_counter : (let s := onLine 4 0 0;
      mayAct s .mf 0x8040 && mayAct s .mf 0x8058 && gives (.launch .mf) s (fun t => decide (getF t pgWheel WHEEL_STATUS_COUNTER_STATE = 1) &&
        decide (t.line.single = [0xA * 2 ^ 36]) && gives .launchTimeout t (fun u => decide (u.ticks = 80000000) &&
          decide (getF u pgWheel WHEEL_STATUS_LAUNCH_FAIL = 1) && decide (getF u pgWheel WHEEL_STATUS_COUNTER_STATE = getF s pgWheel WHEEL_STATUS_COUNTER_STATE))) &&
      gives (.setCounter .mf) (setWord s 0x8050 99) (fun t => decide (t.counter = 99) && decide (getF t pgWheel WHEEL_STATUS_COUNTER_STATE = 3)) &&
      gives (.adj .mf 0x8000) s (fun t => decide (getF t pgWheel WHEEL_COUNTER_ADJ_PENDING = 65536 - 32767)) &&
      gives (.adj .mf 40) s (fun t => gives .counterCorrection t (fun u => decide (u.counter = 131072 - 32 + 1 + 16) &&
        decide (getF u pgWheel WHEEL_COUNTER_ADJ_PENDING = 24))) &&
      gives (.lenLog2 .mf 8) s (fun t => sameBut s t [0x8040] && decide (getF t pgWheel WHEEL_CTRL_LEN_LOG2 = 8)) &&
      gives (.lenLog2 .mf 8) (setFnF s 5 FN_STATE_STATE 3) (fun t => decide (getF t pgWheel WHEEL_CTRL_LEN_LOG2 = 12) &&
        decide (fnF t 0 FN_INT_LOCK_VIOLATION = 1))) = true := by decide +kernel

/-! ### HOLD and Bellows -/

/-- PFAIL_N and POWER WARN begin HOLD; its stages; its ends. -/
theorem test_meets_hold : (let s := onLine 4 1 5; let warn := 0xD * 2 ^ 36 + 2 ^ 32; let cancel := 0xD * 2 ^ 36 + 2 * 2 ^ 32;
      gives .pfailAssert s (fun t => t.pfail && decide (t.hold = some ⟨0, 1, 1, none, false, false, []⟩) && decide (linePhase t = 2) && ignores .pfailAssert t) &&
      goodFrame s (frameOf 5 warn) warn && gives (.powerWarn (frameOf 5 warn) []) s (fun t => decide (t.hold = some ⟨0, 1, 1, none, false, false, []⟩)) &&
      gives .bellowsDeltas { s with hold := some (inHold 1) } (fun t => decide (t.hold = some (inHold 2))) &&
      gives .bellowsDeltas { s with hold := some (inHold 1), variant := .C } (fun t => decide (t.hold = some (inHold 4))) &&
      ignores .bellowsDeltas { s with hold := some (inHold 1), deepWrites := [⟨0, 5, 0, 0, 0, 0, false, []⟩] } &&
      gives (.bellowsJournal []) { s with hold := some (inHold 2) } (fun t => decide (t.hold = some (inHold 3))) &&
      ignores (.bellowsJournal []) { s with hold := some (inHold 2), floor := { s.floor with flights := [⟨5, 0, 0, []⟩] } } &&
      gives (.bellowsDone []) { s with hold := some (inHold 3) } (fun t => decide (t.hold = some (inHold 4))) &&
      gives (.bellowsDone []) { s with hold := some (inHold 3), pwr := { s.pwr with deferred := some (3, 9, 0) } } (fun t => decide (t.hold = none)) &&
      ignores (.pfailDeassert []) s &&
      gives (.pfailDeassert []) { s with pfail := true, hold := some (inHold 2) } (fun t => !t.pfail && decide (t.hold = some { inHold 2 with calmAt := some 0 })) &&
      gives (.pfailDeassert []) { onLine 5 2 5 with pfail := true, hold := some { inHold 2 with before := 1 } } (fun t => !t.pfail && decide (t.hold = none) &&
        decide (linePhase t = 1) && decide (t.ticks = 8000000)) &&
      goodFrame (onLine 4 2 5) (frameOf 5 cancel) cancel &&
      gives (.powerCancel (frameOf 5 cancel) []) { onLine 4 2 5 with hold := some (inHold 2) } (fun t => decide (t.hold = some { inHold 2 with ended := true })) &&
      gives (.powerCancel (frameOf 5 cancel) []) { onLine 4 2 5 with pfail := true, hold := some (inHold 2) } (fun t =>
        decide (t.hold = some { inHold 2 with cancel := true }))) = true := by decide +kernel

/-! ### Functions -/

/-- START where nothing is due, of a draining function, and of a stopped one, which no manifest lets run. -/
theorem test_meets_start : (reaches placed .mf && mayWrite .mf (pgFn 5 + 0x040)) = true ∧
    ([(fn5 0, 5), (fn5 2, 5), (placed, 0)].all (fun q => ignores (.start .mf q.2) q.1) &&
      gives (.start .mf 5) (fn5 3) (fun t => decide (fnF t 5 FN_STATE_START_STATUS = 0) && sameBut (fn5 3) t [pgFn 5 + 0x044]) &&
      (let s := fn5 1; let r := restarted s 5;
       match (restartTests r 5 (fnSt s 5) (restartRecord r (fnSt r 5)) false).find? (fun q => q.2) with
       | some q => decide (fnF s 5 FN_STATE_STATUS_PENDING = 0) && gives (.start .mf 5) s (fun t => decide (fnF t 5 FN_STATE_START_STATUS = q.1) && decide (stateOf t 5 = 1))
       | none => false)) = true := by decide +kernel

/-- STOP, RESET and a function level reset in the states that they act in, and in those that they do not. -/
theorem test_meets_stop_and_reset : (gives (.stop 5 (.register .mf)) (fn5 2) (fun t => decide ((fnSt t 5).stop = some ⟨0, none⟩) &&
        decide (fnF t 5 FN_STATE_STOP_ARMED = 1) && sameBut (fn5 2) t [pgFn 5 + 0x044]) &&
      [fn5 0, fn5 1, fn5 3].all (fun s => ignores (.stop 5 (.register .mf)) s) &&
      gives (.stop 5 (.register .mf)) (setFnF (modFn (fn5 1) 5 (fun x => { x with formatting := true })) 5 FN_STATE_START_STATUS 2) (fun t =>
        decide (stateOf t 5 = 1) && decide (fnF t 5 FN_STATE_START_STATUS = 3) && (fnSt t 5).cancelled) &&
      [fn5 1, fn5 2].all (fun s => gives (.reset .mf 5) s (fun t => decide ((fnSt t 5).drain = some ⟨true, 0⟩) && decide (stateOf t 5 = 3))) &&
      ignores (.reset .mf 5) (fn5 0) && ignores (.functionLevelReset 5) (fn5 0) &&
      gives (.functionLevelReset 5) (fn5 3) (fun t => decide ((fnSt t 5).drain = some ⟨true, 0⟩) && decide (fnF t 5 FN_STATE_DRAINS = 1)) &&
      gives (.functionLevelReset 0) (setFnF placed 0 FN_MSIX_MAP_MOD 5) (fun t => decide (fnF t 0 FN_MSIX_MAP_MOD = 0))) = true := by decide +kernel

/-- Drains that end, and formatting that does not go on. -/
theorem test_meets_drain : (let s := modFn (fn5 3) 5 (fun x => { x with drain := some ⟨true, 7⟩, queue := [[1]] });
      gives (.drainComplete 5 []) s (fun t => decide (stateOf t 5 = 1) && decide ((fnSt t 5).drain = none) && decide ((fnSt t 5).queue = [])) &&
      gives (.drainForced 5) s (fun t => decide (stateOf t 5 = 1) && decide (t.ticks = 80000007) && decide (fnF t 5 FN_STATE_DRAIN_FORCED = 1)) &&
      gives (.drainForced 5) (setFnF s 5 FN_STATE_TARGET 1) (fun t => decide (stateOf t 5 = 0)) &&
      ignores (.drainComplete 5 []) (fn5 2) && ignores (.drainForced 5) (fn5 3) && ignores (.formatComplete 5) (fn5 1)) = true := by decide +kernel

/-- Enable bits of functions in every state, with and without the endpoint's virtual function, and a fall of NumVFs. -/
theorem test_meets_enables : (let on := fun (s : State) => setWord s 0x040 (wordAt s 0x040 ||| 0x20); let vf := fun (s : State) => { s with vfs := 9 };
      mayAct placed .mf 0x040 && mayEnable placed && ignores (.enableBitSet .mf 5) (on (fn5 1)) &&
      gives (.enableBitSet .mf 5) (fn5 0) (fun t => enabled t 5 && decide (stateOf t 5 = 0) && sameBut (fn5 0) t [0x040]) &&
      gives (.enableBitSet .mf 5) (vf (fn5 0)) (fun t => enabled t 5 && decide (stateOf t 5 = 1) && decide (fnF t 5 FN_INT_STATE_CHANGE = 1)) &&
      gives (.enableBitSet .mf 5) (vf (setFnF (fn5 3) 5 FN_STATE_TARGET 1)) (fun t => decide (stateOf t 5 = 3) && decide (fnF t 5 FN_STATE_TARGET = 0) &&
        decide (fnF t 5 FN_STATE_ENABLE_PENDING = 1)) &&
      ignores (.enableBitClear .mf 5) (fn5 0) &&
      gives (.enableBitClear .mf 5) (on (fn5 1)) (fun t => decide (stateOf t 5 = 0) && !enabled t 5) &&
      gives (.enableBitClear .mf 5) (on (fn5 2)) (fun t => decide (stateOf t 5 = 3) && decide (fnF t 5 FN_STATE_TARGET = 1)) &&
      gives (.enableBitClear .mf 5) (on (fn5 3)) (fun t => decide (stateOf t 5 = 3) && decide (fnF t 5 FN_STATE_TARGET = 1)) &&
      gives (.vfEnableChange 7) placed (fun t => decide (t = { placed with vfs := 7 })) &&
      gives (.vfEnableChange 4) { on (fn5 1) with vfs := 5 } (fun t => decide (t.vfs = 4) && decide (stateOf t 5 = 0) && !enabled t 5)) = true := by decide +kernel

/-! ### The post box -/

/-- ARM, DISARM, the link, doorbells at their bound, and fetches. -/
theorem test_meets_box_front : (let on := setFnF (fn5 1) 5 FN_PB_CTRL_ARM 1; let e := entryOf 0x0A [];
      mayAct placed .mf (pgFn 5 + 0x048) && ignores (.arm .mf 5) on && ignores (.arm .mf 5) (fn5 0) &&
      gives (.arm .mf 5) (setFnF (fn5 1) 5 FN_CMD_HEAD_HEAD 9) (fun t => armed t 5 && decide (fnF t 5 FN_CMD_TAIL_TAIL = 9)) &&
      gives (.disarm .mf 5) on (fun t => !armed t 5 && sameBut on t [pgFn 5 + 0x048]) &&
      gives .linkDown on (fun t => t.hostDown && !armed t 5) &&
      gives (.doorbell .mf 5 64) on (fun t => decide (fnF t 5 FN_CMD_TAIL_TAIL = 64)) &&
      gives (.doorbell .mf 5 65) on (fun t => decide (fnF t 5 FN_INT_DOORBELL_BAD = 1) && sameBut on t [pgFn 5 + 0x018]) &&
      (let s := setFnF on 5 FN_CMD_TAIL_TAIL 2;
        gives (.commandFetch 5 (some e)) s (fun t => decide ((fnSt t 5).queue = [e]) && decide (fnF t 5 FN_CMD_HEAD_HEAD = 1)) &&
        gives (.commandFetch 5 none) s (fun t => decide (t.posted = [cplEntry s 5 ⟨0, 0, 0x0E, 0⟩]))) &&
      ignores (.commandFetch 5 (some e)) on) = true := by decide +kernel

/-- A test of R372 ends the command of function 5 with a status and DETAIL. -/
def turnedAway (s : State) (e : List Byte) (c : Instr) (st d : Nat) : Bool :=
  takes (boxed s 5 e) 5 (eOp e) e && decide (cmdRejected (boxed s 5 e) 5 e = some (st, d)) &&
    gives c (boxed s 5 e) (fun t => decide (t.posted = [cplEntry (boxed s 5 e) 5 ⟨7, eOp e, st, d⟩]))

/-- The tests of R372: a job function's MF command, a reserved byte, an argument, a state; a command of another opcode, and one in HOLD. -/
theorem test_meets_rejections : (turnedAway (fn5 1) (entryOf 0x20 []) (.clearRemap 5) 3 0 &&
      turnedAway (fn5 1) (entryOf 0x0A [(0x30, 1, 1)]) (.saveContext 5) 1 0x30 &&
      turnedAway (fn5 1) (entryOf 0x0A [(8, 8, 1)]) (.saveContext 5) 1 8 && turnedAway (fn5 2) (entryOf 0x0A []) (.saveContext 5) 2 0 &&
      ignores (.rejoin 5) (boxed (fn5 1) 5 (entryOf 0x0A [])) &&
      ignores (.nvmStore 0) { boxed placed 0 (entryOf 0x30 []) with hold := some (inHold 1) }) = true := by decide +kernel

/-- Loads: a buffer that cannot be read, and one whose header does not parse. -/
theorem test_meets_loads : ([(0x01, fun b => Instr.loadManifest 5 b), (0x02, fun b => .loadPrograms 5 b), (0x03, fun b => .loadWheel 5 b)].all (fun q =>
      let e := entryOf q.1 [(0x10, 8, 256)];
      ends (fn5 1) 5 e (q.2 none) 0x0E 0 0 && (match q.1 with
        | 0x01 => ends (fn5 1) 5 e (q.2 (some (zeros 256))) 1 0 0
        | 0x02 => (match progsFailing (zeros 256) (4096 * fnF (fn5 1) 5 FN_PROG_CTRL_REGION_SIZE) with | some o => ends (fn5 1) 5 e (q.2 (some (zeros 256))) 1 o 0 | none => false)
        | _ => (match wheelFailing (zeros 256) with | some o => ends (fn5 1) 5 e (q.2 (some (zeros 256))) 1 o 0 | none => false)))) = true := by
  decide +kernel

/-- The tables: SET_OWNERSHIP empty and of one entry, ROUTE_LOAD good and bad, CONTRACT of nothing, CLEAR_REMAP of one valid entry. -/
theorem test_meets_tables : (ends (fn5 1) 5 (entryOf 7 []) (.setOwnership 5 (some [])) 0 0 0 &&
      ends (fn5 2) 5 (entryOf 7 [(0x10, 8, 1)]) (.setOwnership 5 (some (setField (zeros 32) 0x18 1 2))) 0 1 0 &&
      ends (fn5 1) 5 (entryOf 7 [(0x10, 8, 1)]) (.setOwnership 5 none) 0x0E 0 0 &&
      (let s := setFnF (fn5 1) 5 FN_ROUTE_CTRL_ROUTE_SIZE 1;
        ends s 5 (entryOf 8 [(0x10, 8, 1)]) (.routeLoad 5 (some (leBytes 4 0x20001))) 0 0 0 &&
        ends s 5 (entryOf 8 [(0x10, 8, 1)]) (.routeLoad 5 (some (leBytes 4 0x20003))) 1 0 0) &&
      ends (fn5 2) 5 (entryOf 0x14 []) (.contract 5 none) 0 0 0 &&
      ends (setWord placed (remapAt 9 3) 0x80000005) 0 (entryOf 0x20 [(8, 1, 2), (9, 1, 1), (0xA, 2, 0xFFFF)]) (.clearRemap 0) 0 1 0) = true := by decide +kernel

/-- A route generation staged on a die that it places, and one staged already. -/
theorem test_meets_route_stage : (let r := modFn (fn5 2) 5 (fun x => { x with manifest := some job3 });
      let s := { r with inForce := [(pgFn 5 + FN_ROUTE_CTRL_ROUTE_SIZE.off, BitVec.ofNat 32 (putFld FN_ROUTE_CTRL_ROUTE_SIZE 0 3))] };
      let e := entryOf 9 [(0x10, 8, 3), (0x18, 4, 0xFFFFFFFF)]; let l := leBytes 4 1 ++ leBytes 4 131073 ++ leBytes 4 262145;
      stagedRoutesOk s 5 ⟨1, routeWords l⟩ && ends s 5 e (.routeStage 5 (some l)) 0 0 0 &&
      ends (modFn s 5 (fun x => { x with routeStaged := some (⟨1, []⟩, 0) })) 5 e (.routeStage 5 (some l)) 5 0 0) = true := by decide +kernel

/-- The context record saved and restored, a twin report, and the newest catalog of a formatted floor. -/
theorem test_meets_context : (ends (fn5 1) 5 (entryOf 0x0A [(8, 8, 0x40)]) (.saveContext 5) 0 0 1 &&
      ends (fn5 1) 5 (entryOf 0x0B []) (.restoreContext 5 (some (contextRecord (fnSt (fn5 1) 5)))) 0 0 0 &&
      ends (fn5 1) 5 (entryOf 0x0B []) (.restoreContext 5 none) 0x0E 0 0 &&
      ends { fn5 1 with twin := { report := some (zeros 256) } } 5 (entryOf 0x28 []) (.twinReport 5) 0 0 1) = true := by decide +kernel

/-- A running function under a manifest, as a member of its group. -/
def run5 : State := modFn (fn5 2) 5 (fun _ => member)

/-- MIGRATE of a page to come near, of one that is there, and past the range; VERIFY_ROWS within the area and past it; STOP. -/
theorem test_meets_page_and_rows : (let s := { run5 with inForce := [(pgFn 5 + FN_STATE_CFG_NEAR_QUOTA.off, BitVec.ofNat 32 (putFld FN_STATE_CFG_NEAR_QUOTA 0 1))] };
      begins s 5 (entryOf 5 [(8, 4, 0), (0xC, 1, 1)]) (.migrate 5) 0 && ends s 5 (entryOf 5 [(8, 4, 0)]) (.migrate 5) 0 0 0 &&
      ends s 5 (entryOf 5 [(8, 4, 0xFFFFFFF)]) (.migrate 5) 0xF 0 0 &&
      ends (modFn s 5 (fun x => { x with migration := some ⟨9, 1, true, false⟩ })) 5 (entryOf 5 []) (.migrate 5) 5 0 0 &&
      begins s 5 (entryOf 6 [(0xC, 4, 60), (0x10, 4, 4)]) (.verifyRows 5) 0 && ends s 5 (entryOf 6 [(0xC, 4, 60), (0x10, 4, 5)]) (.verifyRows 5) 0xF 0 0 &&
      begins s 5 (entryOf 0xC [(8, 8, 9)]) (.stop 5 .command) 9 &&
      ends (modFn s 5 (fun x => { x with step := 10 })) 5 (entryOf 0xC [(8, 8, 9)]) (.stop 5 .command) 2 0 0) = true := by decide +kernel

/-- LOAD_LEAVES of nothing and of a leaf that no binding names; FIFE_COLLECTIVE; the buffers that cannot be read. -/
theorem test_meets_leaves_and_collective : (let s := modFn (fn5 1) 5 (fun x => { x with manifest := some job3, route := ⟨0, []⟩ });
      ends s 5 (entryOf 4 []) (.loadLeaves 5 none) 0 0 0 &&
      ends s 5 (entryOf 4 [(0x10, 8, 65280), (0x20, 4, 1)]) (.loadLeaves 5 none) 0xE 0 0 &&
      ends (setFnF (modFn s 5 (fun x => { x with routeLoaded := some [1, 131073, 262145] })) 5 FN_ROUTE_CTRL_ROUTE_SIZE 3) 5
        (entryOf 4 [(0x10, 8, 65280), (0x20, 4, 1)]) (.loadLeaves 5 (some [])) 1 0x18 0 &&
      ends run5 5 (entryOf 0x10 []) (.fifeCollective 5 none) 0xE 0 0 &&
      begins run5 5 (entryOf 0x10 []) (.fifeCollective 5 (some (zeros 128))) 0 &&
      ends run5 5 (entryOf 0x15 [(0x10, 8, 64)]) (.reshard 5 none) 0xE 0 0 && ends run5 5 (entryOf 0x15 [(0x10, 8, 64)]) (.reshard 5 (some (zeros 64))) 1 0 0 &&
      ends run5 5 (entryOf 0x1B []) (.reload 5 none) 0 0 0 && ends run5 5 (entryOf 0x1B [(0x10, 8, 64)]) (.reload 5 none) 0xE 0 0) = true := by decide +kernel

/-- DECLARE_FAILED on the keeper and off it; EVACUATE and REJOIN, which ask the keeper; SNAPSHOT of a later step and of a past one. -/
theorem test_meets_member_commands : (let away := modFn (fn5 2) 5 (fun _ => { member with self := 1 });
      ends away 5 (entryOf 0x11 [(8, 1, 2)]) (.declareFailed 5 true) 0xB 0 0 &&
      (let b := boxed run5 5 (entryOf 0x11 [(8, 1, 2)]); passes b 5 0x11 (entryOf 0x11 [(8, 1, 2)]) && amKeeper (fnSt b 5) && !epochsOpen b 5 && memLive (fnSt b 5) 2 &&
        gives (.declareFailed 5 true) b (fun t => decide ((fnSt t 5).epoch = 1))) &&
      ends (modFn (fn5 2) 5 (fun _ => { member with role := 2 })) 5 (entryOf 0x12 []) (.evacuate 5 true) 2 0 0 &&
      begins away 5 (entryOf 0x12 []) (.evacuate 5 true) 0 &&
      begins (modFn (fn5 1) 5 (fun _ => { member with role := 3 })) 5 (entryOf 0x13 []) (.rejoin 5) 0 &&
      begins run5 5 (entryOf 0x18 [(8, 8, 1)]) (.snapshot 5) 1 && ends run5 5 (entryOf 0x18 []) (.snapshot 5) 1 8 0) = true := by decide +kernel

/-! ### The MRAM and the firmware -/

/-- The management function's box with what the MRAM and the firmware hold: both slots written with nothing, and a stage. -/
def mram (stage : Nat) (b : BootRec) : State :=
  { setF placed pgNvm NVM_FW_STATUS_STAGE stage with nvm := { placed.nvm with slots := [(0, []), (1, [])], boot := b } }

/-- The same with a background command running alone. -/
def mramRun (stage op : Nat) (b : BootRec) : State := modFn (setFnF (mram stage b) 0 FN_PB_CTRL_ARM 1) 0 (fun x => { x with bg := [⟨op, 7, 0⟩] })

/-- NVM_STORE of two items and of none, and LOG_READ of two records. -/
theorem test_meets_store : (ends placed 0 (entryOf 0x30 []) (.nvmStore 0) 0 0 0 && ends placed 0 (entryOf 0x31 []) (.nvmClear 0) 0 0 0 &&
      begins placed 0 (entryOf 0x30 [(8, 2, 0x82)]) (.nvmStore 0) 0 && ends placed 0 (entryOf 0x32 [(0x14, 4, 2)]) (.logRead 0) 0 2 1 &&
      gives (.nvmStore 0) (boxed placed 0 (entryOf 0x30 [(8, 2, 0x82)])) (fun t => decide (getF t pgNvm NVM_STATUS_BUSY = 1) && gives .mramWriteDone t (fun u =>
        decide (u.nvm.seq = 1) && decide (u.nvm.recs.map (fun r => (r.item, r.body.length)) = [(1, 24)]) && gives .mramWriteDone u (fun v => decide (v.nvm.seq = 2) &&
          decide (v.nvm.recs.map (fun r => (r.item, r.body.length)) = [(1, 24), (7, 8)]) && decide (getF v pgNvm NVM_STATUS_BUSY = 0) &&
          decide (v.posted = [cplEntry (boxed placed 0 []) 0 ⟨7, 0x30, 0, 2⟩]))))) = true := by decide +kernel

/-- A compaction commits with the other half. -/
theorem test_meets_compaction : (let s := setF { placed with nvm := { placed.nvm with recs := [⟨4, [1], 1⟩, ⟨4, [2], 2⟩], seq := 2, writing := true, jobs := [⟨0x30, 16, [(4, zeros 8)], 0⟩] } } pgNvm NVM_STATUS_COMPACTING 1;
      gives .mramWriteDone s (fun t => decide (t.nvm.half = 1) && decide (t.nvm.recs = [⟨4, [2], 2⟩]) && decide (t.nvm.generation = 2)) &&
      ignores .mramWriteDone placed) = true := by decide +kernel

/-- An image header in form: 512 bytes for either variant, with its parts inside. -/
def goodHeader : List Byte :=
  [(0, 4, 0x1A5EF200), (4, 2, 1), (6, 1, 3), (8, 4, 0x2000), (0xC, 4, 5), (0x10, 2, 2), (0x14, 4, 256), (0x18, 4, 256), (0x1C, 4, 512), (0x20, 4, 256)].foldl
    (fun l q => setField l q.1 q.2.1 q.2.2) (zeros 256)

/-- Chunks: no buffer, one that is not the next, the next one, and a first one of a bad header. -/
theorem test_meets_download : (let e := fun k => entryOf 0x33 [(0x10, 4, k)];
      ends (mram 0 {}) 0 (e 0) (.fwDownload 0 none) 0xE 0 0 && ends (mram 0 {}) 0 (e 0) (.fwDownload 0 (some (zeros 4096))) 1 0 0 &&
      ends (mram 0 {}) 0 (e 3) (.fwDownload 0 (some (zeros 4096))) 1 0 0 &&
      ends (setF (mram 1 { state1 := 1 }) pgNvm NVM_FW_STATUS_CHUNKS 1) 0 (e 1) (.fwDownload 0 (some (zeros 4096))) 0 2 0) = true := by decide +kernel

theorem test_meets_first_chunk : (headerForm goodHeader && ends (mram 0 {}) 0 (entryOf 0x33 []) (.fwDownload 0 (some (goodHeader ++ zeros 3840))) 0 1 0) = true := by
  decide +kernel

/-- FW_VERIFY, FW_ACTIVATE, FW_CONFIRM and FW_ABANDON in their stages. -/
theorem test_meets_firmware : (begins (mram 0 { state1 := 2 }) 0 (entryOf 0x34 []) (.fwVerify 0) 0 && begins (mram 0 { state1 := 3 }) 0 (entryOf 0x35 []) (.fwActivate 0) 0 &&
      ends (mram 6 { state1 := 3, trial := some 1 }) 0 (entryOf 0x36 []) (.fwConfirm 0) 0 0 0 &&
      begins (mram 6 { state1 := 3, trial := some 1 }) 0 (entryOf 0x37 []) (.fwAbandon 0) 0) = true := by decide +kernel

/-- Key records: one that does not name itself, and the last ACTIVE key, which cannot be revoked; another key that can. -/
theorem test_meets_keys : (let s := { placed with nvm := { placed.nvm with keys := [⟨1, some 5⟩, ⟨1, some 9⟩, ⟨0, some 0⟩, ⟨0, some 0⟩], slots := [(0, []), (1, [])] } };
      ends s 0 (entryOf 0x38 []) (.keyAdd 0 (some (zeros 320))) 1 0 0 && ends s 0 (entryOf 0x39 [(8, 1, 1)]) (.keyRevoke 0) 0 1 0 &&
      ends { s with nvm := { s.nvm with keys := [⟨1, some 5⟩, ⟨0, some 9⟩, ⟨0, some 0⟩, ⟨0, some 0⟩] } } 0 (entryOf 0x39 []) (.keyRevoke 0) 0xF 0 0) = true := by
  decide +kernel

/-- Checks that fail, loading with and without the recorded digest, the switch, its end in a trial and its abortion. -/
theorem test_meets_firmware_events : (let d := sha384 [];
      gives .fwVerifyDone (mramRun 2 0x34 { state1 := 2 }) (fun t => decide (t.posted.length = 1) && decide (getF t pgNvm NVM_FW_STATUS_VERIFY_FAIL = 1)) &&
      ignores .fwVerifyDone (mram 2 {}) &&
      gives .fwLoadingDone (mramRun 3 0x35 { state1 := 3, digest1 := some d }) (fun t => decide (getF t pgNvm NVM_FW_STATUS_STAGE = 4) && decide (t.nvm.boot.trial = some 1)) &&
      gives .fwLoadingDone (mramRun 3 0x35 { state1 := 3, digest1 := some 0 }) (fun t => decide (getF t pgNvm NVM_FW_STATUS_STAGE = 0) && decide (t.nvm.boot.state1 = 2)) &&
      switchQuiet (mramRun 4 0x35 { trial := some 1 }) &&
      gives .fwSwitchStart { mramRun 4 0x35 { trial := some 1 } with counter := 9 } (fun t => decide (getF t pgNvm NVM_FW_STATUS_STAGE = 5) && decide (t.counter = 131072)) &&
      ignores .fwSwitchStart (mram 0 {}) && ignores (.fwSwitchEnd true) (mram 0 {})) = true := by decide +kernel

theorem test_meets_switch_end : (let s := { setF (mramRun 5 0x35 { state1 := 3, trial := some 1 }) pgNvm NVM_FW_CTRL_CONFIRM_STEPS 3 with counter := 55 };
      gives (.fwSwitchEnd true) s (fun t => decide (getF t pgNvm NVM_FW_STATUS_STAGE = 6) && decide (t.nvm.running = 1) &&
        decide (t.posted = [cplEntry s 0 ⟨7, 0x35, 0, 55⟩])) &&
      gives (.fwSwitchEnd false) s (fun t => decide (getF t pgNvm NVM_FW_STATUS_SWITCH_ABORTED = 1) && decide (t.nvm.boot.state1 = 4) &&
        decide (t.posted = [cplEntry s 0 ⟨7, 0x35, 0xD, 0⟩]))) = true := by decide +kernel

/-! ### The fabric port -/

/-- What `Arrives` asks. -/
def arrives (s : State) (p : Packet) (type : Nat) : Bool :=
  portTakes s p && calm s && headerOk' p && decide (hType p = type) && !hPoison p

theorem arrives_of (s : State) (p : Packet) (type : Nat) (h : arrives s p type = true) : Arrives s p type := by
  simp only [arrives, Bool.and_eq_true, decide_eq_true_eq, Bool.not_eq_true'] at h
  exact ⟨h.1.1.1.1, quiet_of_calm s h.1.1.1.2, h.1.1.2, h.1.2, h.2⟩

/-- A memory-form packet for function 5 of this die, TAG 9. -/
def toMem (type tc off nbytes len : Nat) (pl : List Byte) : Packet :=
  ⟨mkHeader 0 0x20000 type tc 0 len 5 9 (memForm off nbytes 0), padPayload pl⟩

/-- The packet arrives and the command answers a next state of which `P` holds. -/
def port (s : State) (p : Packet) (type : Nat) (c : Packet → Instr) (P : State → Bool) : Bool := arrives s p type && gives (c p) s P

/-- One response has gone into egress: its type, STATUS and payload. -/
def replied (t : State) (p : Packet) (type st : Nat) (bs : List Byte) : Bool :=
  match t.egress with
  | [q] => decide (hType q = type) && decide (hStatus q = st) && decide (hTag q = hTag p) && decide (hDst q = hSrc p) &&
      decide (hCheck q = headerCheck q.hdr) && decide (q.payload = padPayload bs)
  | _ => false

/-- Function 5 under a manifest with 4 KiB of working copies, which begin at 8 MiB. -/
def withWc (k : Nat) : State := modFn (fn5 k) 5 (fun x => { x with manifest := some { job with wcBytes := 4096 } })

/-- LOADs that are answered NO_FUNCTION, RANGE and with their bytes. -/
theorem test_meets_memory_loads : (let p := toMem 1 6 8388608 8 0 []; let far := toMem 1 6 0x1000000 8 0 [];
      port (withWc 0) p 1 (.loadMem · .none none [] true) (fun t => replied t p 2 1 []) &&
      port (withWc 1) far 1 (.loadMem · .none none [] true) (fun t => replied t far 2 2 []) &&
      !readWaits (withWc 1) 5 8388608 8 &&
      port (rangeWrite (withWc 1) 5 8388608 (hexs [7, 8])) p 1 (.loadMem · .none none [] true) (fun t =>
        replied t p 2 0 (hexs [7, 8, 0, 0, 0, 0, 0, 0]))) = true := by decide +kernel

/-- STOREs: to no function, past the range, of 8 bytes into a working copy, into a coded area, and an arrival at a seal. -/
theorem test_meets_memory_stores : (let p := toMem 3 6 8388608 8 1 (hexs [1, 2, 3]); let coded := toMem 3 6 65536 8 1 (hexs [0]);
      let sealed := toMem 3 6 (2 ^ 44 + 128) 8 1 (hexs [2]);
      port (withWc 0) p 3 (.storeMem · .none) (fun t => decide (getF t pgPort PORT_COUNT_STORE_DROP = 1)) &&
      port (fn5 1) p 3 (.storeMem · .none) (fun t => decide (getF t pgPort PORT_COUNT_STORE_DROP = 1)) &&
      (List.range 8).all (fun i => decide (partOf' (withWc 1) 5 (8388608 + i) = .workingCopy)) &&
      port (withWc 1) p 3 (.storeMem · .none) (fun t => decide (t = { withWc 1 with deep := t.deep }) &&
        decide (rangeRead t 5 8388607 5 = hexs [0, 1, 2, 3, 0])) &&
      (List.range 8).all (fun i => decide (partOf' (withWc 1) 5 (65536 + i) = .coded 0 0 1)) &&
      port (withWc 1) coded 3 (.storeMem · .none) (fun t => decide (t.deep = []) && decide (fnF t 5 FN_STATE_STATUS_WRITE_REJECT = 1)) &&
      (let s := { withWc 1 with seals := [(4, { owner := 5, state := 1, expected := 9 })] };
        decide (sealOf sealed = some 4) && port s sealed 3 (.storeMem · .none) (fun t => decide ((sealAt t 4).count = 2)))) = true := by
  decide +kernel

/-- FETCH_ADD and COMPARE_SWAP. -/
theorem test_meets_atomics : (let p := toMem 4 6 8388608 8 1 (hexs [3]); let bad := toMem 4 6 65536 8 1 (hexs [3]);
      let c := toMem 5 6 8388608 8 1 (hexs [5, 0, 0, 0, 0, 0, 0, 0, 9]); let s := rangeWrite (withWc 1) 5 8388608 (hexs [5]);
      port (withWc 0) p 4 (.fetchAdd · .none) (fun t => replied t p 6 1 (zeros 64)) &&
      port s bad 4 (.fetchAdd · .none) (fun t => replied t bad 6 2 (zeros 64)) && atomicPlace s 5 8388608 &&
      port s p 4 (.fetchAdd · .none) (fun t => replied t p 6 0 (fit 64 (hexs [5])) && decide (rangeRead t 5 8388608 8 = fit 8 (hexs [8]))) &&
      port s c 5 (.compareSwap · .none) (fun t => replied t c 6 0 (fit 64 (hexs [5])) && decide (rangeRead t 5 8388608 8 = fit 8 (hexs [9])))) = true := by
  decide +kernel

/-- A response that a core waits for, and one that nothing waits for. -/
theorem test_meets_responses : (let s := { placed with requests := [⟨9, 5, .core 0 1 3, 0, 0⟩] };
      [(2, Instr.loadData (toMem 2 6 0 8 1 (hexs [77])) .none, toMem 2 6 0 8 1 (hexs [77])),
        (6, .atomicData (toMem 6 6 0 8 1 (hexs [77])) .none, toMem 6 6 0 8 1 (hexs [77]))].all (fun q =>
        arrives s q.2.2 q.1 && ignores q.2.1 placed &&
        gives q.2.1 s (fun t => decide (t.requests = []) && decide (sReg (coreSt t (coreIx 0 1)) 3 = 77)))) = true := by decide +kernel

/-- Packets of TC0 and TC6 leave, one of a stopped class does not; XOFF, a lane code, a resend and a shadow generation's end. -/
theorem test_meets_egress : (let p := toMem 1 6 0 8 0 []; let f : Packet := ⟨mkHeader 0x20000 0 16 0 0 1 5 0 (zeros 16), zeros 64⟩;
      let full := { placed with egress := [p], tokens := [0, 0, 0, 0, 0, 0, 40000, 0] };
      gives .egressArbitration { placed with egress := [p, f] } (fun t => decide (t.sent = [f]) && decide (t.egress = [p])) &&
      gives .egressArbitration full (fun t => decide (t.sent = [p]) && decide (t.egress = [])) &&
      gives .egressArbitration (setF full pgPort PORT_STATUS_XOFF_IN 32) (fun t => decide (t.sent = []) && decide (t.egress = [p])) &&
      ignores .egressArbitration { State.reset with egress := [p] } &&
      gives (.linkFlowControl 6 true) placed (fun t => decide (getF t pgPort PORT_STATUS_XOFF_IN = 32)) && ignores (.linkFlowControl 0 true) placed &&
      gives (.laneCountChange 3 2) placed (fun t => decide (laneCode t 3 = 2) && decide (laneCode t 2 = laneCode placed 2)) &&
      gives .resend { placed with resends := [⟨5, 1024, p⟩] } (fun t => decide (t.egress = [p]) && decide (t.ticks = 1024)) && ignores .resend placed &&
      gives (.shadowRetire 5) (modFn placed 5 (fun x => { x with routeShadow := some ⟨1, []⟩, shadowZeroAt := some 7 })) (fun t =>
        decide ((fnSt t 5).routeShadow = none) && decide (t.ticks = 32775))) = true := by decide +kernel

/-! ### Coding packets -/

/-- A binding of one leaf to a member of the group: its data slot, which is that of its gradient too. -/
def leafOf (mem slot : Nat) : Binding := ⟨mem, 1, 2, 0, 0, 0, 1, 0, mem, slot, slot, 0, 0, 0⟩

/-- Function 5 runs as member 0 of the group, in whose row 1 it holds the pigeonhole of members 1 and 2. -/
def holder : State := modFn (fn5 2) 5 (fun _ => { member with
  manifest := some { job3 with bindings := [leafOf 1 1, leafOf 2 0] }, route := ⟨0, [1, 131073, 262145]⟩ })

/-- The buffer of row 1 with members' records. -/
def bagOf (recs : List BagRec) : Bag := ⟨0, 5, 0, 0, 1, 0, false, false, true, false, false, [], recs⟩

/-- A coding packet of member 1's die for function 5: type, class, LEN, row, epoch, the AREA byte, the MEMBER byte and the payload. -/
def coding (type tc len row epoch area memB : Nat) (pl : List Byte) : Packet :=
  ⟨mkHeader 0 0x20000 type tc 0 len 5 0 (codingForm row 0 epoch 0 area memB), pl⟩

/-- What `Admitted` asks beside `Arrives`. -/
def admitted (s : State) (p : Packet) (type : Nat) : Bool :=
  arrives s p type && (match (fnSt s 5).manifest, grpOf (fnSt s 5) with
    | some m, some g => rowExpected (fnSt s 5) m g (hArea p) (hAreaGen p) (hRow p) (hMember p) (hParity p) (hLoad p)
    | _, _ => false) &&
    decide (codingVerdict s 5 p true ((fnSt s 5).flushed.contains (hSlice p)) true 6 = .apply)

/-- A FOLD of which the part is there already, and one that is new; a NULL_DELTA. -/
theorem test_meets_folds : (let p := coding 8 1 1 1 0 0 1 (fit 64 (hexs [1, 2])); let q := coding 9 1 0 1 0 0 1 [];
      let old := { holder with bags := [bagOf [⟨1, 0, 1, 0, false, false, 0x20000⟩]] };
      let new := { holder with bags := [bagOf [⟨1, 0, 2, 0, false, false, 0x20000⟩]] };
      admitted old p 8 && gives (.fold p .none) old (fun t => decide (t.bags = old.bags) && decide (getF t (pgSlice 0) SL_MAILBAG_STATUS_DUPLICATES = 1)) &&
      admitted new p 8 && gives (.fold p .none) new (fun t =>
        decide (t.bags = [{ bagOf [⟨1, 0, 3, 0, false, false, 0x20000⟩] with image := [(0, 1), (1, 2)] }])) &&
      (let s := { holder with bags := [bagOf []] };
        admitted s q 9 && gives (.nullDelta q .none) s (fun t => decide (t.bags = [bagOf [⟨1, 0, 0, 0, true, true, 0x20000⟩]])))) = true := by
  decide +kernel

/-- Packets of an older epoch, and a held row that a free buffer takes. -/
theorem test_meets_bin_and_hold : (let s := modFn holder 5 (fun x => { x with epoch := 1 }); let put := coding 11 3 64 1 0 0 1 (zeros 4096);
      let p := coding 8 1 1 1 0 0 1 (zeros 64); let q := coding 9 1 0 1 0 0 1 [];
      [(8, Instr.fold p .none, p), (9, .nullDelta q .none, q), (11, .leafPut put .none, put)].all (fun e => arrives s e.2.2 e.1 &&
        gives e.2.1 s (fun t => decide (getF t pgPort PORT_DLB_COUNT_TOTAL = 1) && decide (t.bags = []) && decide (t.puts = []))) &&
      ignores (.heldRowRelease 0) holder &&
      decide (bufferSource { holder with held := [(0, p)] } 0 5 = some false) &&
      !bagComplete (fnSt holder 5) (foldPacket { bagOf [] with ownShare := false } p).1 &&
      gives (.heldRowRelease 0) { holder with held := [(0, p)] } (fun t => decide (t.held = []) &&
        t.bags.any (fun b => b.isRow 0 5 0 0 1 0 && (b.recOf 1).isSome))) = true := by decide +kernel

/-- A gradient leaf of row 2 that waits for two holders: one receipt WRITTEN, one RESEND, and one whose header is bad. -/
theorem test_meets_receipts : (let w : Wait := ⟨.grad, 5, 0, 0, 1, 0, 2, 0, 0, 0, 0, true, true, 0, [], [⟨1, 0, 131073, false⟩, ⟨2, 1, 262145, false⟩]⟩;
      let s := { holder with waits := [w] }; let p := coding 10 1 0 2 0 1 1 []; let again := coding 10 1 0 2 0 1 65 [];
      arrives s p 10 && decide (waitOf s 5 p = some w) && decide (waitOf s 5 again = some w) &&
      routeMatches (fnSt s 5) trio ⟨0, [1, 131073, 262145]⟩ 1 2 0x20000 && !(markReceipt w 1 0).allDone &&
      gives (.receipt p false) s (fun t => decide (t.waits = [markReceipt w 1 0])) &&
      gives (.receipt again false) s (fun t => match t.resends with
        | [r] => decide (r.due = 1024) && decide (hType r.packet = 9) && decide (hRow r.packet = 2)
        | _ => false) &&
      gives (.receipt p true) s (fun t => decide (getF t pgPort PORT_DLB_COUNT_TOTAL = 1) && decide (t.waits = [w]))) = true := by decide +kernel

/-- The first LEAF_PUT of a slot for a spare. -/
theorem test_meets_leaf_put : (let p := coding 11 3 64 1 0 0 1 (zeros 4096); let s := modFn holder 5 (fun x => { x with role := 2 });
      arrives s p 11 && transferArmed s 5 p && decide (codingVerdict s 5 p true false true 7 = .apply) &&
      gives (.leafPut p .none) s (fun t => decide (t.puts = [⟨5, 0, 3, 0x20000, 1, 0, 0, 1, 0, 0, 1, []⟩]))) = true := by decide +kernel

/-! ### Landing -/

/-- Function 5 runs as member 0 and takes in step 3; bucket 0 is one leaf of row 0 with seal 20, bucket 1 has probes with seal 21. -/
def intake : State := { modFn (fn5 2) 5 (fun _ => { member with
  manifest := some { job3 with bindings := [leafOf 0 0], intake := [⟨0, 0, 0, 0, 0, 1, 0, 0, 2, 20, 0⟩, ⟨0, 1, 0, 0, 0, 1, 0, 0, 2, 22, 21⟩] },
  self := 0, step := 3, opened := true, intakeOpen := true }) with
  seals := [(20, { owner := 5, state := 1, expected := 2 })], accs := [⟨5, 0, 0, true, []⟩] }

/-- A landing packet: its bucket, step, kind, count, probe exponent, flag and data. -/
def toLand (bucket step kind count probe : Nat) (flag : Bool) (data : List Byte) : Packet :=
  let pl := leBytes 4 bucket ++ leBytes 4 step ++ leBytes 1 0 ++ leBytes 1 kind ++ leBytes 2 count ++ leBytes 2 probe ++ zeros 10 ++ leBytes 8 7 ++
    zeros 32 ++ padPayload data
  ⟨mkHeader 0 0x20000 3 2 (flagsByte flag 0) (pl.length / 64) 5 0 (memForm (2 * 2 ^ 44) pl.length 0), pl⟩

/-- What `Lands` asks. -/
def lands (s : State) (p : Packet) : Bool := arrives s p 3 && decide (hSpace p = 2) && fnTakes s 5 && decide ((fnSt s 5).forwardTo = none)

/-- The class of a landing packet of function 5. -/
def landing5 (s : State) (p : Packet) : LandClass := landClass s 5 (parseLanding p.payload)

/-- Packets that are stale, late, and early while the park region has room. -/
theorem test_meets_landing_classes : (let old := toLand 0 2 0 0 0 false []; let now := toLand 0 3 0 0 0 false []; let next := toLand 0 4 0 0 0 false [];
      let shut := modFn intake 5 (fun x => { x with intakeOpen := false });
      let room := { intake with inForce := [(pgFn 5 + FN_LANDING_AREA_PARK_SIZE.off, BitVec.ofNat 32 (putFld FN_LANDING_AREA_PARK_SIZE 0 1))] };
      lands intake old && decide (landing5 intake old = .stale) && gives (.landingPacket old .none) intake (fun t =>
        decide (fnF t 5 FN_INTAKE_COUNT_STALE = 1) && sameBut intake t [pgFn 5 + 0x114]) &&
      lands shut now && decide (landing5 shut now = .late) && gives (.landingPacket now .none) shut (fun t =>
        decide (fnF t 5 FN_INTAKE_COUNT_LATE = 1) && sameBut shut t [pgFn 5 + 0x114]) &&
      lands room next && decide (landing5 room next = .early) && gives (.landingPacket next .none) room (fun t =>
        decide (t.parked = [⟨0, 5, 0, next⟩]) && decide (fnF t 5 FN_INTAKE_STATUS_PARKING = 1))) = true := by decide +kernel

/-- One element of a dense bucket, a flagged packet without elements, and a probe. -/
theorem test_meets_landing : (let one := toLand 0 3 0 1 0 false (leBytes 4 0x3F800000); let last := toLand 0 3 0 0 0 true []; let probe := toLand 1 3 1 0 5 false [];
      (match bucketOf (fnSt intake 5) 0, (fnSt intake 5).manifest with
        | some e, some m => decide (intakeBinding m e = some (leafOf 0 0)) && !e.auto && !e.compressed && decide (e.contribFormat ≠ 1) && !(leafOf 0 0).s24
        | _, _ => false) &&
      decide (grpOf (fnSt intake 5) = some trio) && decide (gradRowOf trio (leafOf 0 0) 0 = 0) && accHeld intake 5 0 &&
      lands intake one && decide (landing5 intake one = .current) && gives (.landingPacket one .none) intake (fun t =>
        decide (t.updates = [⟨0, 0, 0, 5, 0, 0, 0, [(0, 0x3F800000)]⟩])) &&
      lands intake last && decide (landing5 intake last = .current) && gives (.landingPacket last .none) intake (fun t =>
        decide ((sealAt t 20).count = 1) && decide ((fnSt t 5).partTokens = 7)) &&
      lands intake probe && decide (landing5 intake probe = .current) && gives (.probe probe .none) intake (fun t =>
        decide ((fnSt t 5).probes = [⟨1, some 5, none⟩]))) = true := by decide +kernel

/-- 1.0 and 2.0 added to an accumulator under a window of top 0; a parked packet that has become stale. -/
theorem test_meets_banks : (let u : LineUpd := ⟨0, 0, 0, 5, 0, 0, 0, [(9, 0x3F800000)]⟩; let v : LineUpd := { u with adds := [(9, 0x40000000)] };
      let old := toLand 0 2 0 0 0 false [];
      ignores (.bankLineUpdate 0 0) intake && ignores (.bankLineUpdate 0 1) { intake with updates := [u] } &&
      gives (.bankLineUpdate 0 0) { intake with updates := [u] } (fun t => decide (t.updates = []) && decide (t.accs = [⟨5, 0, 0, true, [(9, 2 ^ 78)]⟩])) &&
      gives (.bankLineUpdate 0 0) { intake with updates := [v] } (fun t => decide (fnF t 5 FN_INTAKE_STATUS_OVERRANGE = 1) &&
        decide (t.accs = [⟨5, 0, 0, true, [(9, 2 ^ 79 - 1)]⟩])) &&
      gives (.parkReplay 5) { intake with parked := [⟨0, 5, 0, old⟩] } (fun t => decide (t.parked = []) &&
        decide (fnF t 5 FN_INTAKE_COUNT_STALE = 1) && decide (fnF t 5 FN_INTAKE_STATUS_PARKING = 0))) = true := by decide +kernel

/-! ### Collectives -/

/-- A FIFE packet of member 1's die for function 5: kind, slot, SEQ, layout, count, status and value, and its payload. -/
def fife (kind slot seq layout count status value : Nat) (pl : List Byte) : Packet :=
  ⟨mkHeader 0 0x20000 16 0 0 ((padPayload pl).length / 64) 5 0 (leBytes 1 kind ++ leBytes 1 slot ++ leBytes 1 seq ++ leBytes 1 layout ++
    leBytes 2 count ++ leBytes 1 status ++ leBytes 1 0 ++ leBytes 8 value), padPayload pl⟩

/-- What `FifeIn` asks. -/
def fifeIn (s : State) (p : Packet) (kind : Nat) : Bool :=
  arrives s p 16 && decide (fKind p = kind) && decide (hFn p ≠ 0) && decide (stateOf s (hFn p) ≠ 0)

/-- One FIFE packet of a kind has gone into egress, with COUNT, STATUS and VALUE. -/
def fifeOut (t : State) (kind count status value : Nat) : Bool :=
  match t.egress with
  | [q] => decide (hType q = 16) && decide (hTc q = 0) && decide (fKind q = kind) && decide (hCheck q = headerCheck q.hdr) &&
      decide (fCount q = count) && decide (fStatus q = status) && decide (fValue q = value)
  | _ => false

/-- A member whose slot at an offset is in use. -/
def inSlot (off : Nat) (c : Coll) : State := modFn holder 5 (fun x => { x with colls := [(off, c)] })

/-- OPENs of an older SEQ and of the present one, an ACK, and results of a software collective. -/
theorem test_meets_tree_messages : (let s := inSlot 2 { seq := 9, layout := 2 }; let v := fife 1 2 9 2 1 0 0 (leBytes 8 5);
      let done := setFnF (modFn (inSlot 7 { seq := 9, opened := true }) 5 (fun x => { x with bg := [⟨0x10, 7, 0⟩] })) 5 FN_PB_CTRL_ARM 1;
      decide (slotOff s 5 2 = some 2) && fifeIn s (fife 1 2 8 2 1 0 0 []) 1 && gives (.fifeOpen (fife 1 2 8 2 1 0 0 [])) s (fun t => fifeOut t 4 0 1 0) &&
      fifeIn s v 1 && gives (.fifeOpen v) s (fun t => fifeOut t 4 0 0 0 && (match (collAt (fnSt t 5) 2).kids with
        | [k] => decide (k.die = 0x20000) && decide (k.count = 1) && decide (k.vals = [5])
        | _ => false)) &&
      fifeIn s (fife 4 2 9 2 0 0 0 []) 4 && ignores (.fifeAck (fife 4 2 9 2 0 0 0 [])) s &&
      gives (.fifeAck (fife 4 2 9 2 0 0 0 [])) (inSlot 2 { seq := 9, layout := 2, opened := true }) (fun t => (collAt (fnSt t 5) 2).delivered) &&
      fifeIn done (fife 5 7 9 0 0 0 77 []) 5 && gives (.result (fife 5 7 9 0 0 0 77 [])) done (fun t =>
        decide (t.posted = [cplEntry done 5 ⟨7, 0x10, 0, 77⟩]) && decide (collAt (fnSt t 5) 7 = { seq := 10 }) && decide ((fnSt t 5).bg = [])) &&
      ignores (.result (fife 5 7 8 0 0 1 77 [])) done) = true := by decide +kernel

/-- Recovery, Bugles and heartbeats. -/
theorem test_meets_recovery_and_bugles : (let s := setFnF holder 5 FN_RECOVERY_STATUS_ACTIVE 1; let b := fife 7 0 0 0 0 0 0 []; let old := fife 7 0 0 0 0 0 5 [];
      let beat := fife 8 0 3 0 0 0 0 [];
      ignores (.recoveryDone 5 []) holder && decide (ledgerListed s = []) &&
      gives (.recoveryDone 5 []) s (fun t => decide (fnF t 5 FN_RECOVERY_STATUS_ACTIVE = 0) && (collAt (fnSt t 5) 4).opened) &&
      fifeIn (fn5 1) b 7 && ignores (.buglePacket (.packet b)) (fn5 1) && decide (bugleSerial holder 5 = 0) &&
      gives (.buglePacket (.packet old)) holder (fun t => decide (fnF t 5 FN_FIFE_COUNT_STALE_BUGLES = 1)) &&
      gives (.buglePacket (.packet b)) holder (fun t => decide (fnF t 5 FN_FIFE_STATUS_BUGLE = 1) && decide (fnF t 5 FN_FIFE_STATUS_ABORTS = 1)) &&
      arrives placed beat 16 && ignores (.heartbeatPacket beat) placed &&
      gives (.heartbeatPacket beat) { placed with ticks := 50, watch := [⟨0x20000, 1, true⟩] } (fun t =>
        decide (t.watch = [⟨0x20000, 50, false⟩]) && decide (tabFind t.ranks 0x20000 = some 3))) = true := by decide +kernel

/-- A plan of two participants of which this die is the first. -/
def plan2 (phase : Nat) (counts : List (Nat × Nat)) (told : List Nat) : Plan :=
  ⟨[1, 131073], 0, job3, ⟨15, 0, 0, 0, 0, 0, 0, 0, 0, 0, 0, 0, [], [], [], []⟩, [⟨1, 0, 0, 1, 0⟩], phase, 0, 0, counts, told, false, [], [], []⟩

/-- The member with such a plan. -/
def planned (phase : Nat) (counts : List (Nat × Nat)) (told : List Nat) : State := modFn holder 5 (fun x => { x with plan := some (plan2 phase counts told) })

/-- The same with three participants. -/
def planned3 : State := modFn holder 5 (fun x => { x with plan := some { plan2 2 [] [] with parts := [1, 131073, 262145] } })

/-- Counts told, asked for and sent, and the move to the tree. -/
theorem test_meets_counts : (let tell := fife 0x10 6 0 0 0 0 4 []; let ask := fife 0x10 6 0 0 1 0 0 []; let down := fife 0x11 0 0 0 0 0 0 [];
      fifeIn planned3 tell 0x10 && decide (partOf { plan2 2 [] [] with parts := [1, 131073, 262145] } 0x20000 = some 1) &&
      gives (.counts tell) planned3 (fun t => decide ((fnSt t 5).plan = some { plan2 2 [(1, 4)] [] with parts := [1, 131073, 262145] })) &&
      gives (.counts ask) (planned 2 [] []) (fun t => fifeOut t 0x10 0 0 1) &&
      gives (.countsSend 5 1) (planned 2 [] []) (fun t => fifeOut t 0x10 0 0 1 && decide ((fnSt t 5).plan = some (plan2 2 [] [1])) && decide (t.ticks = 128)) &&
      ignores (.countsSend 5 1) (planned 2 [] [1]) && ignores (.countsTimeout 5) (planned 2 [(1, 0)] []) &&
      gives (.countsTimeout 5) (planned 2 [] []) (fun t => fifeOut t 0x10 1 0 0 && decide (t.ticks = 80256)) &&
      fifeIn holder down 0x11 && ignores (.pathDown down) (fn5 1) && ignores (.pathDown down) (setFnF holder 5 FN_FIFE_STATUS_PATH_ACTIVE 1) &&
      gives (.pathDown down) holder (fun t => decide (fnF t 5 FN_FIFE_STATUS_PATH_ACTIVE = 1))) = true := by decide +kernel

/-! ### The slot wheel -/

/-- A wheel image whose one entry is an action on core 2 of slice 0, 4 slots from slot 0. -/
def wheelFor (code sched : Nat) (item : Int) : WheelImage :=
  ⟨15, 0, 0, 0, 0, 0, 512, 1, 1, 1, 1, 0, List.replicate 64 0, [7], [], [⟨0, 0, 4, code, 2, sched, false, item⟩]⟩

/-- The manifest of the group with one leaf for each member, and member 0's bucket. -/
def job3w : Manifest := { job3 with
  wcBytes := 4096, windowSealBase := 100, bindings := [{ leafOf 0 0 with flags := 0, layer := 7 }, leafOf 1 1, leafOf 2 0],
  intake := [⟨0, 0, 0, 0, 0, 1, 0, 0, 2, 20, 0⟩] }

/-- A program set of one class, with a prelude, for tensor 0. -/
def progs0 : ProgSet := ⟨0, [⟨0, 4, 0, 1, 1000, 1000, false, false⟩], [⟨0, 0, 0, 0, 0⟩], [[]], [0, 0, 0, 0]⟩

/-- Member 0 in step 3, at the entry of a schedule, with the work records of its rows. -/
def atWork (code sched : Nat) (item : Int) (work : List RowWork) : State := modFn (fn5 2) 5 (fun _ => { member with
  manifest := some job3w, self := 0, step := 3, wheel := some (wheelFor code sched item), sched := sched + 1, work := work,
  progs := some progs0, route := ⟨0, [1, 131073, 262145]⟩ })

/-- The work record of row 0 of an area after its READOUT or LREAD on core 2. -/
def read0 (area : Nat) : RowWork :=
  { member := 0, area := area, row := 0, slice := 0, core := 2, isNull := false, settled := false, loaded := true, run := false, committed := false,
    reg := false, registered := false, sent := false, written := false, done := false, ledger := 0, twin := 0, twinAt := 0 }

/-- The command's operand: entry 0 of slice 0 of function 5, in turn 0. -/
def k0 : ActAt := ⟨5, 0, 0, 0⟩

/-- What `Reached` asks of the state's entry, and `P` of what the action works on. -/
def acting (s : State) (code : Nat) (imgs : RowSet) (P : ActOn → Bool) : Bool :=
  match (fnSt s 5).wheel, (fnSt s 5).manifest with
  | some w, some m => (match w.entries with
    | [e] => alive s && calm s && decide (namedEntry s k0 code = some (w, e)) && decide (grpOf (fnSt s 5) = some trio) && decide ((fnSt s 5).hold = none) &&
        decide (0 = (fnSt s 5).turn) &&
        (match (if actOnRow code then actOn w e 5 0 (if e.sched = 0 then m.gradRows else m.stripeRows) (fnSt s 5).self imgs
            else some ⟨5, e.slice, e.core, (fnSt s 5).self, e.item.toNat, imgs⟩) with
          | some a => !coreFailed s (coreIx a.sl a.core) && P a
          | none => false)
    | _ => false)
  | _, _ => false

/-- The action works on row 0 of this member, of which its record is as given, and which a leaf is bound to. -/
def onRow (s : State) (code area : Nat) (v : RowWork) (P : ActOn → Bool) : Bool :=
  acting s code [] (fun a => (a.leaf (fnSt s 5) area).isSome && decide (a.work (fnSt s 5) area = v) && P a)

/-- A command of no entry, a readout whose bucket is open, and one of a leaf that nothing touched; what landed needs a free core. -/
theorem test_meets_readout : (let open_ := atWork actReadout 0 0 []; let fired := { open_ with seals := [(20, { owner := 5, state := 2 })] };
      ignores (.readout k0) (atWork actGcommit 0 0 []) && ignores (.mgmt k0) placed &&
      acting open_ actReadout [] (fun a => (a.leaf (fnSt open_ 5) 1).isSome && !(a.work (fnSt open_ 5) 1).loaded && decide ((rowBucket (fnSt open_ 5) a.j).isSome)) &&
      gives (.readout k0) open_ (fun t => (match (fnSt t 5).hold with | some h => decide (h.cause = 1) && decide (h.detail = 0) | none => false) &&
        decide (fnF t 5 FN_INTAKE_STATUS_STALLED = 1)) &&
      acting fired actReadout [] (fun a => sealFired fired 20 && !accHeld fired 5 a.j && coreFree fired a.ix) &&
      gives (.readout k0) fired (fun t => match workAt (fnSt t 5) 0 1 0 with | some v => v.isNull && v.loaded | none => false)) = true := by decide +kernel

/-- The other actions of the intake schedule. -/
theorem test_meets_intake_actions : (let r := read0 1; let c := atWork actGcommit 0 0 [r]; let w := atWork actGwrite 0 0 [{ r with committed := true }];
      let n := atWork actGsend 0 0 [{ r with isNull := true }];
      let b : Bag := { bagOf [⟨1, 3, 0, 0, true, true, 0x20000⟩, ⟨2, 3, 0, 0, true, true, 0x40000⟩] with area := 1 };
      let h := { atWork actGhold 0 1 [] with bags := [b] };
      onRow c actGcommit 1 r (fun _ => true) && onRow w actGwrite 1 { r with committed := true } (fun a => !sliceHalted w a.sl) &&
      onRow n actGsend 1 { r with isNull := true } (fun a => decide (holdersOf (fnSt n 5) trio a.j = [⟨2, 0, 262145, false⟩])) &&
      gives (.gsend k0) n (fun t => match t.waits with | [v] => v.isNull && v.sent && decide (v.row = 0) && decide (v.stamp = 3) | _ => false) &&
      acting h actGhold [] (fun a => decide (holdDue (fnSt h 5) a 1 = some 0) && decide (bagFind h 0 5 1 0 1 0 = some b) && bagComplete (fnSt h 5) b)) = true := by
  decide +kernel

/-- PRELUDE, RUN, a stream read of a working copy, and REG. -/
theorem test_meets_runs : (let r := read0 0; let p := atWork actPrelude 1 0 []; let run := atWork actRun 1 0 [r];
      let z : CoreRun := { runB with srds := [⟨256, 8388608, 64⟩] };
      let srd := { rangeWrite (atWork actSrd 1 0 [{ r with run := true }]) 5 8388608 (hexs [1, 2]) with cores := [(0, { run := some z })] };
      let reg := atWork actReg 1 0 [{ r with run := true, committed := true }];
      acting p actPrelude [] (fun a => decide (classProg progs0 a.j = some (⟨0, 0, 0, 0, 0⟩, ⟨0, 4, 0, 1, 1000, 1000, false, false⟩)) && coreFree p a.ix) &&
      gives (.prelude k0) p (fun t => match (coreSt t 2).run with | some q => q.prelude && decide (q.pc = 1) && decide (q.windowEnd = q.start + 128) | none => false) &&
      acting run actRun [] (fun a => decide (a.work (fnSt run 5) 0 = { r with core := a.core }) && decide (classOf progs0 0 = some 0) &&
        (match a.leaf (fnSt run 5) 0 with | some l => decide (l.kind = .state) | none => false)) &&
      acting srd actSrd [] (fun a => decide ((coreSt srd a.ix).run = some z) && decide (rangePart job3w 8388608 = .workingCopy) && decide (rangePart job3w 8388671 = .workingCopy)) &&
      gives (.srdAction k0 []) srd (fun t => decide (memReadN (coreSt t 0).sram 255 4 = hexs [0, 1, 2, 0])) &&
      onRow reg actReg 0 { r with run := true, committed := true } (fun a => entryOk (nearRead reg (32 * ledgerIx a.sl 2 0) 32)) &&
      gives (.reg k0) reg (fun t => decide (getF t (pgSlice 0) SL_LEDGER_STATUS_IN_USE = 1) && decide (tabGet 0 t.ring 2 = 1) &&
        decide (field (nearRead t (32 * ledgerIx 0 2 0) 32) 0 1 = 1))) = true := by decide +kernel

/-- SEND, LWRITE, EMIT, HOLD apart from its pigeonhole, FILL and MGMT. -/
theorem test_meets_pass_actions : (let r : RowWork := { read0 0 with run := true, committed := true, reg := true, registered := true };
      let v : Wait := ⟨.state, 5, 0, 2, 0, 0, 0, 0, 3, 0, 0, false, false, 0, [], [⟨2, 0, 262145, false⟩]⟩;
      let d : Wait := { v with sent := true, holders := [⟨2, 0, 262145, true⟩] };
      let send := { atWork actSend 1 0 [r] with waits := [v] }; let wr := { atWork actLwrite 1 0 [{ r with sent := true }] with waits := [d] };
      let e := { read0 0 with isNull := true, sent := true }; let emit := atWork actEmit 1 0 [e];
      let fill := { atWork actFill 1 0 [] with
        seals := [(100, { owner := 5 }), (101, { owner := 5, state := 2 })],
        inForce := [(pgFn 5 + FN_STATE_CFG_WINDOW_SIZE.off, BitVec.ofNat 32 (putFld FN_STATE_CFG_WINDOW_SIZE 0 1))] };
      onRow send actSend 0 r (fun a => decide (holdersOf (fnSt send 5) trio a.j = v.holders)) &&
      onRow wr actLwrite 0 { r with sent := true } (fun a => decide (deltaWait wr 5 a.m a.j = some d) && d.allDone && !sliceHalted wr a.sl) &&
      onRow emit actEmit 0 e (fun _ => true) &&
      acting fill actFill [] (fun _ => decide (fillSeal job3w 0 = 100) && sealFired fill (freeSeal job3w 0) &&
        decide (layerBindings (fnSt fill 5) job3w 7 = [{ leafOf 0 0 with flags := 0, layer := 7 }])) &&
      gives (.mgmt k0) (atWork actMgmt 1 0 []) (fun t => decide (t = counterTo (atWork actMgmt 1 0 []) 0))) = true := by decide +kernel

/-! A slot of a valid postmark and a zero body, whose digest is zero. -/

theorem spread_nil : ∀ n a, spread [] a n = zeros n
  | 0, _ => rfl
  | n + 1, a => by rw [spread, spread_nil n (a + 1)]; rfl

theorem spread_cells (k : Nat) : ∀ (post : List Byte) (a : Nat), spread (cellsOf a post) a (post.length + k) = post ++ zeros k
  | [], a => by simpa [cellsOf] using spread_nil k a
  | b :: bs, a => by
    have ih := spread_cells k bs (a + 1)
    have e : (b :: bs).length + k = (bs.length + k) + 1 := by simp; omega
    rw [e]
    by_cases hb : b = 0
    · subst hb
      simp only [cellsOf, if_pos]
      cases h : cellsOf (a + 1) bs with
      | nil => rw [h] at ih; simp [spread, ih]
      | cons c t =>
        obtain ⟨q, v⟩ := c
        have hq : a + 1 ≤ q := Sys2Proof.Laws.tabAbove_mem (Sys2Proof.Laws.cellsOf_above bs (a + 1)) (q, v) (by rw [h]; simp)
        rw [h] at ih
        simp [spread, ih, show ¬ a = q by omega]
    · rw [cellsOf, if_neg hb, spread, if_pos rfl, ih]; rfl

theorem crc64_zeros (n : Nat) : crc64 (zeros n) = 0 := by
  unfold crc64 zeros
  induction n with
  | zero => rfl
  | succ n ih => rw [List.replicate_succ, List.foldl_cons, show crcByte 0 (0 : Byte) = 0 by decide +kernel]; exact ih

/-- A number that is computed before it is used. -/
def forced {α : Type} (f : Nat → α) : Nat → α
  | 0 => f 0
  | n + 1 => f (n + 1)

theorem forced_eq {α : Type} (f : Nat → α) (v : Nat) : forced f v = f v := by cases v <;> rfl

/-- The CRC-64 with each step's value computed before the next. -/
def crcGo : List Byte → Nat → Nat
  | [], c => c
  | b :: bs, c => forced (crcGo bs) (crcByte c b)

theorem crcGo_eq (bs : List Byte) : ∀ c, crcGo bs c = bs.foldl crcByte c := by
  induction bs with
  | nil => intro c; rfl
  | cons b bs ih => intro c; rw [crcGo, forced_eq, ih, List.foldl_cons]

/-- The postmark's own bytes decide whether such a slot reads as erased. -/
def markGood (area : Nat) (isHole : Bool) (post : List Byte) : Bool :=
  decide (post.length = 256) && decide (field post 0xF8 8 = crcGo (post.take 0xF8) 0) && kindFits area isHole (field post 0 1) && decide (field post 0 1 ≠ 0) &&
    decide (field post 2 1 = 1) && decide (field post 0x38 8 = 0) && decide (field post 0x28 4 = 0)

theorem field_append {post z : List Byte} {o n : Nat} (h : o + n ≤ post.length) : field (post ++ z) o n = field post o n := by
  unfold field
  rw [List.drop_append_of_le_length (by omega), List.take_append_of_le_length (by simp; omega)]

theorem slot_here {area : Nat} {isHole : Bool} {post : List Byte} (e : Nat) (h : markGood area isHole post = true) :
    slotErased e area isHole (post ++ zeros 65280) = false := by
  simp only [markGood, Bool.and_eq_true, decide_eq_true_eq] at h
  rw [crcGo_eq] at h
  obtain ⟨⟨⟨⟨⟨⟨hl, hc⟩, hk⟩, h0⟩, hv⟩, hd⟩, he⟩ := h
  have hb : slotBody (post ++ zeros 65280) = zeros 65280 := by
    unfold slotBody zeros
    rw [← hl, List.drop_left]
    exact List.take_of_length_le (by rw [List.length_replicate])
  have ht : (post ++ zeros 65280).take 0xF8 = post.take 0xF8 := List.take_append_of_le_length (by omega)
  have f (o n : Nat) (q : o + n ≤ 256) : field (post ++ zeros 65280) o n = field post o n := field_append (by omega)
  simp only [slotErased, hb, ht, pmKind, pmVersion, pmDigest, pmEpoch, crc64_zeros, f 0 1 (by omega), f 2 1 (by omega), f 0x38 8 (by omega),
    f 0x28 4 (by omega), f 0xF8 8 (by omega), hc, hk, hv, hd, he]
  simp [h0, crc64]

/-- A postmark of a kind and a stamp, with its PM_CHECK. -/
def mark (kind stamp check : Nat) : List Byte :=
  leBytes 1 kind ++ zeros 1 ++ leBytes 1 1 ++ zeros 21 ++ leBytes 8 stamp ++ zeros 216 ++ leBytes 8 check

/-- PM_CHECK of a leaf's postmark in step 2 or 3. -/
def check1 (stamp : Nat) : Nat := if stamp = 2 then 5782102882035680761 else 17556280317503547736

/-- A memory's bytes from an address on are those of a postmark. -/
theorem slot_bytes {m : Mem} {a : Nat} {post : List Byte} (hl : post.length = 256)
    (h : m.filter (fun c => decide (a ≤ c.1) && decide (c.1 < a + 65536)) = cellsOf a post) : memReadN m a 65536 = post ++ zeros 65280 := by
  unfold memReadN
  rw [h, show 65536 = post.length + 65280 by omega]
  exact spread_cells 65280 post a

/-- A member's slot in its own state range. -/
theorem own_slot {s : State} {area gen j : Nat} {m : Manifest} {post : List Byte} (h0 : (fnSt s 5).self = 0) (hm : (fnSt s 5).manifest = some m)
    (hl : post.length = 256) (h : s.deep.filter (fun c => decide (rangeAddr 5 (slotOffset m area gen j) ≤ c.1) &&
      decide (c.1 < rangeAddr 5 (slotOffset m area gen j) + 65536)) = cellsOf (rangeAddr 5 (slotOffset m area gen j)) post) :
    heldSlot s 5 0 area gen j = post ++ zeros 65280 := by
  unfold heldSlot slotRead rangeRead
  rw [if_pos h0, hm]
  exact slot_bytes hl h

/-- Member 0 before an LREAD, with its stripe slot of row 0 under a stamp, and the gradient slot of row 0 that the pass applies. -/
def atRead (stamp : Nat) : State :=
  { atWork actLread 1 0 [] with deep := cellsOf (rangeAddr 5 0) (mark 1 stamp (check1 stamp)) ++ cellsOf (rangeAddr 5 (slotOffset job3w 1 0 0)) (mark 2 3 13909999803690433010) }

/-- LREAD of a settled leaf and of one with its gradient; HOLD of an old pigeonhole. -/
theorem test_meets_lread (stamp : Nat) (h : stamp = 2 ∨ stamp = 3) :
    acting (atRead stamp) actLread [] (fun a => (match a.leaf (fnSt (atRead stamp) 5) 0 with
        | some l => decide (l.kind = .state) && decide (leafPhase (fnSt (atRead stamp) 5) l.binding.tensor = 0) &&
            decide (coveredRows (fnSt (atRead stamp) 5) l = [(0, 0)])
        | none => false) && !(a.work (fnSt (atRead stamp) 5) 0).loaded && coreFree (atRead stamp) a.ix && heldHere (fnSt (atRead stamp) 5) a.m a.j) = true ∧
      slotErased (fnSt (atRead stamp) 5).epoch 0 false (heldSlot (atRead stamp) 5 0 0 0 0) = false ∧
      pmKind (heldSlot (atRead stamp) 5 0 0 0 0) = 1 ∧ pmStamp (heldSlot (atRead stamp) 5 0 0 0 0) = stamp ∧
      slotErased (fnSt (atRead stamp) 5).epoch 1 false (heldSlot (atRead stamp) 5 0 1 0 0) = false ∧
      gradPresent (fnSt (atRead stamp) 5) (heldSlot (atRead stamp) 5 0 1 0 0) = true := by
  have hm : (fnSt (atRead stamp) 5).manifest = some job3w := by obtain rfl | rfl := h <;> decide +kernel
  have h0 : (fnSt (atRead stamp) 5).self = 0 := by obtain rfl | rfl := h <;> decide +kernel
  have hs : (fnSt (atRead stamp) 5).step = 3 := by obtain rfl | rfl := h <;> decide +kernel
  have ha : heldSlot (atRead stamp) 5 0 0 0 0 = mark 1 stamp (check1 stamp) ++ zeros 65280 :=
    own_slot h0 hm (by obtain rfl | rfl := h <;> decide +kernel) (by obtain rfl | rfl := h <;> decide +kernel)
  have hb : heldSlot (atRead stamp) 5 0 1 0 0 = mark 2 3 13909999803690433010 ++ zeros 65280 :=
    own_slot h0 hm (by decide +kernel) (by obtain rfl | rfl := h <;> decide +kernel)
  have l1 : (mark 1 stamp (check1 stamp)).length = 256 := by obtain rfl | rfl := h <;> decide +kernel
  have l2 : (mark 2 3 13909999803690433010).length = 256 := by decide +kernel
  rw [ha, hb]
  refine ⟨by obtain rfl | rfl := h <;> decide +kernel, slot_here _ (by obtain rfl | rfl := h <;> decide +kernel), ?_, ?_, slot_here _ (by decide +kernel), ?_⟩
  · rw [pmKind, field_append (by omega)]; obtain rfl | rfl := h <;> decide +kernel
  · rw [pmStamp, field_append (by omega)]; obtain rfl | rfl := h <;> decide +kernel
  · rw [gradPresent, hm, pmKind, pmStamp, hs, field_append (by omega), field_append (by omega)]; decide +kernel

/-- Member 0 before a HOLD of row 1, whose pigeonhole has a valid postmark and whose contributions are here. -/
def atHold : State :=
  { atWork actHold 1 1 [] with
    deep := cellsOf (rangeAddr 5 65536) (mark 0x10 2 1943289350347523436)
    bags := [bagOf [⟨1, 3, 0, 0, true, true, 0x20000⟩, ⟨2, 3, 0, 0, true, true, 0x40000⟩]] }

theorem test_meets_hold_action : acting atHold actHold [] (fun a => decide (holdDue (fnSt atHold 5) a 0 = some 0) &&
      atHold.bags.all (fun b => decide (bagFind atHold 0 5 0 0 1 0 = some b) && bagComplete (fnSt atHold 5) b)) = true ∧
    slotErased (fnSt atHold 5).epoch 0 true (heldSlot atHold 5 0 0 0 1) = false := by
  have hm : (fnSt atHold 5).manifest = some job3w := by decide +kernel
  rw [own_slot (post := mark 0x10 2 1943289350347523436) (by decide +kernel) hm (by decide +kernel) (by decide +kernel)]
  exact ⟨by decide +kernel, slot_here _ (by decide +kernel)⟩

/-! ### Passes and runs -/

/-- Member 0 of the group under the manifest without leaves, with a wheel image. -/
def atPass (f : FnSt → FnSt) : State := modFn (fn5 2) 5 (fun _ => f { member with wheel := some (wheelFor actMgmt 1 0) })

/-- The watchdog of a readout hold, and the gradient seal. -/
theorem test_meets_watchdog_and_seal : (let h : HoldState := ⟨1, 0, 0, 2, 0, 0, 0, some 0⟩;
      let held := setFnF (modFn (atWork actReadout 0 0 []) 5 (fun x => { x with hold := some h })) 5 FN_INTAKE_CTRL_STALL_LIMIT 1;
      let sent := atPass (fun x => { x with intakeOpen := true, scalarsSent := true, colls := [(0, { delivered := true })] });
      ignores (.stallWatchdog 5) placed && (bucketOf (fnSt held 5) 0).isSome && decide (evRing held 5 = 0) && calm held &&
      gives (.stallWatchdog 5) held (fun t => decide (t.ticks = 8000000) && decide ((fnSt t 5).hold = some h) && decide (t.posted = [])) &&
      ignores (.gradientSeal 5) placed && partialsReady sent 5 && calm sent &&
      gives (.gradientSeal 5) sent (fun t => (fnSt t 5).gradSealed && !(fnSt t 5).intakeOpen && decide (fnF t 5 FN_STEP_STATUS_PHASE = 2))) = true := by
  decide +kernel

/-- INTAKE_START, PASS_START, RERUN_START and LOAD_PASS_START. -/
theorem test_meets_starts : (let i := atPass (fun x => { x with intakeFrom := some 9 });
      let p := fun (r : Bool) => atPass (fun x => { x with passFrom := some 5, gradSealed := true, rerunDue := r });
      let l := setFnF (setFnF (atPass (fun x => { x with loadPass := true, passFrom := some 5 })) 5 FN_STATE_STATE 1) 5 FN_STATE_START_STATUS 2;
      gives (.intakeStart 5) i (fun t => decide ((fnSt t 5).sched = 1) && decide (t.counter = wheelLen i * 32) && decide (fnF t 5 FN_WHEEL_STATUS_SCHED = 1)) &&
      ignores (.intakeStart 5) placed && ignores (.passStart 5) placed && ignores (.rerunStart 5) placed && ignores (.loadPassStart 5) placed &&
      intakeOver (fnSt (p false) 5) && actsRunning (p false) 5 && calm (p false) &&
      gives (.passStart 5) (p false) (fun t => decide ((fnSt t 5).sched = 2) && decide (fnF t 5 FN_STEP_STATUS_RERUN = 0)) &&
      gives (.rerunStart 5) (p true) (fun t => decide ((fnSt t 5).sched = 2) && decide (fnF t 5 FN_STEP_STATUS_RERUN = 1)) &&
      isStarting l 5 && decide (boundRows (fnSt l 5) = []) && decide (absorbedRows (fnSt l 5) 64 = []) && calm l &&
      gives (.loadPassStart 5) l (fun t => (fnSt t 5).passOn && decide (t.counter = turnStartAt l 5))) = true := by decide +kernel

/-- A die whose core 2 runs for function 5. -/
def running (r : CoreRun) : State := { atWork actMgmt 1 0 [{ read0 0 with member := 1, row := 1 }] with cores := [(2, { run := some r })] }

/-- The end of a prelude's and of an absorbed leaf's window, a budget that expires, a restart, and a fabric request without answer. -/
theorem test_meets_run_ends : (let pre := running { runB with prelude := true, halted := true }; let leaf := running { runB with halted := true, member := 1, row := 1 };
      let again := running { runB with prelude := true, again := some 2 }; let req : Request := ⟨9, 5, .core 0 2 3, 0, 40⟩;
      ignores (.runWindowEnd 2) placed && ignores (.runBudgetExpiry 2) placed && ignores (.runRestart 2 []) placed && calm pre &&
      gives (.runWindowEnd 2) pre (fun t => decide ((coreSt t 2).run = none) && decide (t.ticks = 100)) &&
      (match (fnSt leaf 5).manifest with | some m => (leafAt m trio 1 0 1).isSome | none => false) && decide (grpOf (fnSt leaf 5) = some trio) &&
      (workAt (fnSt leaf 5) 1 0 1).isSome && decide ((fnSt leaf 5).self = 0) &&
      gives (.runBudgetExpiry 2) (running runB) (fun t => decide (t.ticks = 500) && (match (coreSt t 2).run with | some q => q.droppedAt.isSome | none => true)) &&
      (classProg progs0 0).isSome && gives (.runRestart 2 []) { again with counter := 33 } (fun t => decide (t.ticks = 31) &&
        decide (getF t (pgSlice 0) SL_CORE_COUNT_RESTARTS = 1) && (match (coreSt t 2).run with | some q => q.prelude && decide (q.again = none) && decide (q.pc = 1) | none => false)) &&
      ignores (.fabricTimeout 0 2) placed && gives (.fabricTimeout 0 2) { running runB with requests := [req] } (fun t =>
        decide (t.requests = []) && decide (t.ticks = 8040) && decide (fnF t 5 FN_PROG_STATUS_FABRIC_TIMEOUT = 1))) = true := by decide +kernel

/-! ### Stored data and monitors -/

/-- A clean block of channel 9, one whose first byte is wrong, and one under the TAG of another place. -/
def cleanRaw : List Byte := zeroBlock 9 3
def wrongRaw : List Byte := setField (zeroBlock 9 3) 0 1 1
def strayRaw : List Byte := zeroBlock 9 4

/-- A die with integrity state. -/
def integ (i : IntegSt) : State := { placed with integ := i }

/-- Block reads without and with an error; resumes after a corrected line and after one that is lost in no slot. -/
theorem test_meets_halts : (let h : Halt := ⟨9, 3, .none⟩; let halted := setF (integ { halted := [h] }) (pgSlice 2) SL_LINE_STATUS_HALTED 2;
      let one := blockNow placed 9 3 wrongRaw; let lost := blockNow placed 9 3 strayRaw;
      (blockNow placed 9 3 cleanRaw).clean && ignores (.deepReadComplete 9 3 cleanRaw .none) placed &&
      !one.clean && decide (one.ce = 1) && decide (one.ue = 0) && decide (one.symbols.length = 1) && !lost.clean && lost.address && decide (lost.ue = 15) &&
      gives (.deepReadComplete 9 3 wrongRaw .none) placed (fun t => chanBit t SL_LINE_STATUS_HALTED 9 && decide (t.integ.halted = [h]) &&
        decide (getF t (pgSlice 2) SL_LINE_COUNT_CE = 1)) &&
      ignores (.channelResume 9 [] []) placed && !chanBit halted SL_LINE_STATUS_FAILED 9 &&
      gives (.channelResume 9 wrongRaw []) halted (fun t => !chanBit t SL_LINE_STATUS_HALTED 9 && decide (t.integ.fixes = [⟨9, 3, one.symbols, false⟩])) &&
      gives (.channelResume 9 strayRaw []) halted (fun t => !chanBit t SL_LINE_STATUS_HALTED 9 && decide (t.integ.fixes = []))) = true := by decide +kernel

/-- A line lost in a reserved slot, and the member's slot that a resume then marks. -/
theorem test_meets_lost_slot : (let s := { setF (setFnSt placed 5 (fnSt holder 5)) (pgSlice 2) SL_LINE_STATUS_HALTED 2 with
        integ := { halted := [⟨9, 3, .slot 5 0 0 0 1 0⟩] }, bags := [bagOf []] };
      rowReserved s 5 0 0 1 && (fnSt s 5).manifest.isSome && Memory.wf s && decide ((blockNow s 9 3 strayRaw).ue ≠ 0)) = true := by decide +kernel

/-- Write-backs, hard faults that are remapped or find the table full, and a channel that fails. -/
theorem test_meets_fixes : (let k := (blockNow placed 9 3 wrongRaw).symbols; let f : BlockFix := ⟨9, 3, k, false⟩; let w := integ { fixes := [{ f with written := true }] };
      let full := { w with regs := (List.range 16).foldl (fun l e => tabPut l (remapAt 9 e) (some 0x80000000)) w.regs };
      ignores (.ceWriteback 9 3 true) placed && ignores (.hardFaultCheck 9 3 []) placed &&
      gives (.ceWriteback 9 3 true) (integ { fixes := [f] }) (fun t => decide (t.integ.fixes = [])) &&
      gives (.ceWriteback 9 3 false) (integ { fixes := [f] }) (fun t => decide (t.integ.fixes = [{ f with written := true }])) &&
      gives (.hardFaultCheck 9 3 cleanRaw) w (fun t => decide (t.integ.fixes = []) && decide (t.regs = w.regs)) &&
      gives (.hardFaultCheck 9 3 wrongRaw) w (fun t => decide (wordAt t (remapAt 9 0) = 0x80000003)) &&
      gives (.hardFaultCheck 9 3 wrongRaw) full (fun t => chanBit t SL_LINE_STATUS_REMAP_FULL 9 && t.integ.unmapped.contains (9, 3)) &&
      gives (.channelTrainingFailure 9) placed (fun t => chanBit t SL_LINE_STATUS_FAILED 9 && decide (getF t pgGlobal GLOBAL_WITHDRAW_CAUSE = 1) &&
        decide (getF t pgGlobal GLOBAL_WITHDRAW_CHANNEL = 9) && ignores (.channelTrainingFailure 9) t && ignores .sequencerLockstep t) &&
      gives .sequencerLockstep placed (fun t => decide (getF t pgGlobal GLOBAL_WITHDRAW_CAUSE = 2))) = true := by decide +kernel

/-- The Drone within its lap, at its end, and switched off. -/
theorem test_meets_drone : (let on := setF (setF placed pgDrone DRONE_CTRL_ENABLE 1) pgDrone DRONE_CTRL_RATE 1;
      let last := { on with integ := { lapNext := ((List.range 64).map (fun c => (c, if c = 9 then 2 ^ 23 - 1 else 2 ^ 23))) } };
      ignores (.droneBlockRead 9 [] .none) (setF placed pgDrone DRONE_CTRL_ENABLE 0) &&
      gives (.droneBlockRead 9 cleanRaw .none) { on with integ := { lapNext := [(9, 3)] } } (fun t => decide (t.integ.lapNext = [(9, 4)])) &&
      (blockNow last 9 (2 ^ 23 - 1) (zeroBlock 9 (2 ^ 23 - 1))).clean &&
      gives (.droneBlockRead 9 (zeroBlock 9 (2 ^ 23 - 1)) .none) last (fun t => decide (t.integ.lapNext = []))) = true := by decide +kernel

/-- A delayed write of a leaf, on a slice that is not halted. -/
theorem test_meets_delayed_write : (let d : DeepWrite := ⟨2, 5, 0, 0, 0, 0, false, zeros 65536⟩; d.bytes.length = 65536) ∧
    (let s := { atWork actLwrite 1 0 [read0 0] with deepWrites := [⟨2, 5, 0, 0, 0, 0, false, []⟩] };
      ignores (.deepWriteComplete 2) placed && !sliceHalted s 2 && (fnSt s 5).manifest.isSome && (workAt (fnSt s 5) 0 0 0).isSome && calm s) = true :=
  ⟨List.length_replicate, by decide +kernel⟩

/-- Near-tier lines of every region. -/
theorem test_meets_near_lines : (let p : Push := ⟨5, 1, 2, []⟩;
      ignores (.nearReadComplete (.landing 5) false []) placed && ignores (.nearReadComplete .window true []) placed && ignores (.nearReadComplete (.page .spare) true []) placed &&
      gives (.nearReadComplete (.landing 5) true []) (fn5 2) (fun t => decide (fnF t 5 FN_INTEG_STATUS_CAUSE = 1)) &&
      gives (.nearReadComplete (.rowList 5) true []) (fn5 2) (fun t => decide (fnF t 5 FN_INTEG_STATUS_CAUSE = 3)) &&
      gives (.nearReadComplete (.ledger 1 2 3) true []) placed (fun t => !entryOk (nearRead t (4194304 + 262144 + 96) 32)) &&
      gives (.nearReadComplete (.push 0) true []) { placed with pushes := [p] } (fun t => decide (t.pushes = []))) = true := by decide +kernel

/-- Rows to verify: a pigeonhole marked as erased, VERIFY_ROWS within its rows and at its last, and the parity lap. -/
theorem test_meets_rows : (let a := { holder with deep := [(rangeAddr 5 65536, 0xFF)] };
      let v : VerifyJob := ⟨7, 0, 0, 0, 3, 0, 0, 0, 0⟩; let more := modFn holder 5 (fun x => { x with verify := some v });
      let end_ := setFnF (modFn (fn5 2) 5 (fun x => { x with verify := some { v with left := 1 }, bg := [⟨6, 7, 0⟩] })) 5 FN_PB_CTRL_ARM 1;
      let lap := setF holder pgDrone DRONE_CTRL_PARITY 1;
      heldHere (fnSt a 5) (holeMember trio 1 0) 1 && decide (pmKind (heldSlot a 5 (holeMember trio 1 0) 0 0 1) = 0xFF) && !rowReserved a 5 0 0 1 &&
      !(fnSt a 5).passOn && ignores (.erasureReencode 5 0 0 1 []) placed && ignores (.verifyRow 5 []) placed &&
      actsRunning more 5 && !verifyWaits more 5 0 0 0 && calm more &&
      gives (.verifyRow 5 []) end_ (fun t => decide ((fnSt t 5).verify = none) && decide (t.posted.length = 1)) &&
      ignores (.parityLapRow 5 []) (setF holder pgDrone DRONE_CTRL_PARITY 0) && !parityPaused lap 5 &&
      (List.range 3).any (fun i => lapRow (fnSt lap 5) job3 trio i) && !verifyWaits lap 5 0 0 1) = true := by decide +kernel

/-- An intent entry's acknowledgement, receipts past their limit, a moderated vector, and a page copied. -/
theorem test_meets_limits : (let r := { read0 0 with reg := true }; let s := atWork actReg 1 0 [r];
      let w : Wait := ⟨.grad, 5, 0, 0, 1, 0, 2, 0, 0, 0, 0, true, true, 4, [], [⟨1, 0, 131073, false⟩]⟩;
      let late := { holder with waits := [w], inForce := [(pgFn 5 + FN_INTEG_CTRL_RECEIPT_LIMIT.off, BitVec.ofNat 32 (putFld FN_INTEG_CTRL_RECEIPT_LIMIT 0 2))] };
      decide (workAt (fnSt s 5) 0 0 0 = some r) && ignores (.intentRegistered 5 0 0) placed && ignores (.receiptTimeout 5) placed && actsRunning late 5 &&
      gives (.receiptTimeout 5) late (fun t => decide (t.ticks = 1600004) && decide (fnF t 5 FN_INTEG_STATUS_CAUSE = 5)) &&
      ignores (.msixModeration 5 2) placed &&
      gives (.msixModeration 5 2) { placed with msiPend := [162] } (fun t => decide (t.msi = [(5, 2)]) && decide (t.msiPend = [])) &&
      gives (.migrationCopyDone 5) (modFn placed 5 (fun x => { x with migration := some ⟨7, 2, true, false⟩ })) (fun t =>
        decide ((fnSt t 5).migration = some ⟨7, 2, true, true⟩)) &&
      ignores (.migrationCopyDone 5) { placed with pwr := { placed.pwr with paused := true } }) = true := by decide +kernel

/-- Audits: chosen, late, agreed, disputed, and decided against the auditor, against the core and not at all; one past its limit. -/
theorem test_meets_audits : (let on := setF (running runB) pgDrone DRONE_AUDIT_ENABLE 1; let a : AuditRes := ⟨1, [], 0, 0⟩; let b : AuditRes := ⟨2, [], 0, 6⟩; let c : AuditRes := ⟨3, [], 0, 0⟩;
      let first : Audit := ⟨5, 2, 0, 0, 3, 0, some a, none⟩; let s := fun (q : Audit) => { placed with integ := { audits := [(0, q)] } };
      let two := s { first with second := some b };
      ignores (.auditSelect 0 2) placed && ignores (.auditSelect 0 2) (setF (running runB) pgDrone DRONE_AUDIT_ENABLE 0) &&
      gives (.auditSelect 0 2) on (fun t => decide ((tabFind t.integ.audits 0).isSome) &&
        gives (.auditSelect 0 2) t (fun u => decide (getF u (pgSlice 0) SL_AUDIT_STATUS_LATE = 1))) &&
      ignores (.auditorRun 0 a) placed && ignores (.refereeRun 0 a) placed && ignores (.auditTimeout 0) placed && decide (auditorOf (s first) 0 2 = some 10) &&
      gives (.auditorRun 0 a) (s first) (fun t => decide (t.integ.audits = []) && decide (getF t (pgSlice 0) SL_AUDIT_STATUS_AUDITS = 1)) &&
      gives (.auditorRun 0 b) (s first) (fun t => decide (t.integ.audits = two.integ.audits)) && (auditCore two 0 2 16 [2, 3, 10]).isSome &&
      gives (.refereeRun 0 a) two (fun t => coreFailed t (coreIx 0 10) && !coreFailed t (coreIx 0 2)) &&
      gives (.refereeRun 0 b) two (fun t => coreFailed t (coreIx 0 2) && decide (getF t (pgSlice 0) SL_AUDIT_STATUS_LINE = 6)) &&
      gives (.refereeRun 0 c) two (fun t => decide (getF t (pgSlice 0) SL_AUDIT_STATUS_UNRESOLVED = 1)) &&
      ignores (.auditTimeout 0) (setF (s first) pgDrone DRONE_AUDIT_AUDIT_LIMIT 0) &&
      gives (.auditTimeout 0) (setF (s first) pgDrone DRONE_AUDIT_AUDIT_LIMIT 1) (fun t => decide (t.ticks = 800000) && decide (t.integ.audits = []))) = true := by
  decide +kernel

/-- A window of occupancy, four windows of margins, and a refresh rate. -/
theorem test_meets_monitors : (let low := { placed with margins := [(4, [1, 1, 1])] };
      gives (.occupancyWindow [[7, 8, 9, 10]] []) placed (fun t => decide (getF t (pgSlice 0) SL_OCCUPANCY_CH2 = 9) && decide (t.ticks = 2 ^ 20)) &&
      gives (.marginWindow [255, 255, 255, 255, 1] true) low (fun t => decide (tabGet [] t.margins 4 = [1, 1, 1, 1]) && decide (getF t pgPort PORT_MARGIN_STATUS_LINK = 1) &&
        decide (getF t pgPort PORT_MARGIN_STATUS_WORST_PCT = 1)) &&
      gives (.refreshIndication 3 .x2) placed (fun t => decide (requiredRate t 3 = 2))) = true := by decide +kernel

/-! ### Membership -/

/-- A membership message of a die to function 5: its kind, member, epoch, and fields as offset, size and value. -/
def note (die kind mem epoch : Nat) (fs : List (Nat × Nat × Nat)) : List Byte :=
  let m := fs.foldl (fun l q => setField l q.1 q.2.1 q.2.2)
    (leBytes 1 kind ++ leBytes 1 mem ++ leBytes 2 0 ++ leBytes 4 epoch ++ leBytes 4 77 ++ leBytes 4 die ++ zeros 40)
  m ++ leBytes 8 (crc64 m)

/-- The packet of a message. -/
def posted (m : List Byte) : Packet := ⟨mkHeader 0 (mmSender m) 3 7 0 1 0 9 (memForm (3 * 2 ^ 44 + pgFn 5 + 0xF00) 64 0), m⟩

/-- What `Told` asks. -/
def told (s : State) (m : List Byte) (type : Nat) : Bool :=
  portTakes s (posted m) && calm s && decide (membOf (posted m) = some (5, m)) && decide (mmKind m = type) && decide (mmGroup m = (fnSt s 5).group) &&
    (decide (type = 0xF) || !(fnSt s 5).seenMsgs.contains (dieBits (mmSender m), mmId m)) && (decide ((fnSt s 5).kept = none) || decide ((fnSt s 5).role = 1)) &&
    !s.nvm.acked && decide (getF s pgGlobal GLOBAL_WITHDRAW_WITHDRAWN = 0)

theorem told_of (s : State) (m : List Byte) (type : Nat) (h : told s m type = true) : Told s (posted m) type 5 m := by
  simp only [told, Bool.and_eq_true, Bool.or_eq_true, decide_eq_true_eq, Bool.not_eq_true'] at h
  exact ⟨h.1.1.1.1.1.1.1.1, quiet_of_calm s h.1.1.1.1.1.1.1.2, h.1.1.1.1.1.1.2, h.1.1.1.1.1.2, h.1.1.1.1.2, h.1.1.1.2, h.1.1.2, h.1.2, h.2⟩

/-- The first packet in egress is the ACK of a message with a status. -/
def acked (t : State) (m : List Byte) (st : Nat) : Bool :=
  match t.egress with
  | a :: _ => decide (hType a = 3) && decide (hTc a = 7) && decide (mmKind a.payload = 0xF) && decide (mmId a.payload = mmId m) &&
      decide (mmModeByte a.payload = st) && decide (hDst a = dieBits (mmSender m))
  | [] => false

/-- The message arrives and its command answers a next state of which `P` holds. -/
def told' (s : State) (m : List Byte) (type : Nat) (c : Packet → Instr) (P : State → Bool) : Bool := told s m type && gives (c (posted m)) s P

/-- The function awaits the answer to one message of a kind, with its MODE byte. -/
def asking (t : State) (kind mode : Nat) : Bool := match t.msgs with | [q] => decide (mmKind q.bytes = kind) && decide (mmModeByte q.bytes = mode) | _ => false

/-- The keeper of the group, with what the die keeps changed. -/
def keeper (f : FnSt → FnSt) : State := modFn holder 5 f

/-- Messages of another kind and met again, and EPOCHs: STALE, the next one as a switch and as a change, and a later one. -/
theorem test_meets_epochs : (let s := holder; let m := fun (new mode subj live : Nat) => note 0x20000 1 1 0 [(0x18, 1, subj), (0x19, 1, mode), (0x1A, 2, live), (0x1C, 4, new)];
      let old := m 0 0 0 7; let sw := m 1 132 0 7; let bump := m 1 2 2 3; let far := m 3 2 2 3;
      ignores (.gseal (posted old) true) s && decide (membOf (posted old) = some (5, old)) &&
      gives (.epoch (posted old) true) (keeper (fun x => { x with seenMsgs := [(0x20000, 77)] })) (fun t => acked t old 0 && decide ((fnSt t 5).seenMsgs.length = 1)) &&
      told' s old 1 (.epoch · true) (fun t => acked t old 1 && decide ((fnSt t 5).epoch = 0)) &&
      mmSwitch sw && told' s sw 1 (.epoch · true) (fun t => acked t sw 0 && decide ((fnSt t 5).kept = some sw)) &&
      !mmSwitch bump && told s bump 1 && decide ((grpOf (fnSt s 5)).isSome) &&
      told' s far 1 (.epoch · true) (fun t => acked t far 0 && (fnSt t 5).asked && asking t 5 0)) = true := by decide +kernel

/-- CONFIRM_REQ about a member heard and not heard, and while this die answered another; CONFIRM_RSP; GSEAL. -/
theorem test_meets_confirmations : (let q := note 0x20000 2 1 0 [(0x18, 1, 2)]; let silent := { holder with watch := [⟨0x40000, 0, false⟩], ticks := 16000 };
      let r := fun (mode : Nat) => note 0x20000 3 1 0 [(0x18, 1, 2), (0x19, 1, mode)]; let d := fun (l : List Nat) => keeper (fun x => { x with decl := some ⟨2, [1, 9], l⟩ });
      let g := note 0x20000 4 1 0 [(0x10, 8, 3)];
      told' holder q 2 (.confirmReq · true) (fun t => acked t q 0 && asking t 3 1) &&
      silentFor silent (fnSt silent 5) 2 16000 && told' silent q 2 (.confirmReq · true) (fun t => asking t 3 0 && decide ((fnSt t 5).suspectFor = some (0x20000, 1))) &&
      told' (modFn silent 5 (fun x => { x with suspectFor := some (0x60000, 1) })) q 2 (.confirmReq · true) (fun t => asking t 3 2) &&
      told' holder (r 0) 3 (.confirmRsp · true) (fun t => acked t (r 0) 0) &&
      told' (d []) (r 1) 3 (.confirmRsp · true) (fun t => decide ((fnSt t 5).decl = none) && decide (fnF t 5 FN_MEMB_STATUS_UNCONFIRMED = 1)) &&
      told' (d []) (r 0) 3 (.confirmRsp · true) (fun t => decide ((fnSt t 5).decl = some ⟨2, [1, 9], [1]⟩)) && told (d [9]) (r 0) 3 &&
      told' holder g 4 (.gseal · true) (fun t => acked t g 0 && decide ((fnSt t 5).gseals = [(1, 3)]))) = true := by decide +kernel

/-- REPORTs of a die that is level and of one that is behind; requests at a member that is no keeper, and at a busy keeper. -/
theorem test_meets_reports : (let m := note 0x20000 5 1 0 [(0x1C, 4, 0), (0x26, 1, 6)]; let last := note 0 1 0 0 [(0x18, 1, 2), (0x19, 1, 2), (0x1C, 4, 1)];
      let ev := note 0x20000 8 1 0 []; let re := note 0x60000 6 1 0 []; let busy := keeper (fun x => { x with decl := some ⟨2, [1, 9], []⟩ });
      told' holder m 5 (.report · true) (fun t => acked t m 0 && decide (tabGet 0 t.ranks 0x20000 = 6) && decide (t.msgs = [])) &&
      told' (keeper (fun x => { x with epoch := 1, lastEpoch := some last })) m 5 (.report · true) (fun t => asking t 1 2) &&
      !amKeeper (fnSt (keeper (fun x => { x with self := 2 })) 5) &&
      told' (keeper (fun x => { x with self := 2 })) ev 8 (.evacReq · true) (fun t => acked t ev 0) &&
      told' (keeper (fun x => { x with self := 2 })) re 6 (.rejoinReq · true) (fun t => acked t re 0) &&
      amKeeper (fnSt busy 5) && !keeperFree busy 5 &&
      told' busy ev 8 (.evacReq · true) (fun t => acked t ev 0 && decide ((fnSt t 5).membReqs.length = 1)) &&
      told' busy re 6 (.rejoinReq · true) (fun t => acked t re 0 && decide ((fnSt t 5).membReqs.length = 1))) = true := by decide +kernel

/-- A free keeper evacuates to a spare, or cannot; takes a die up as spare, turns one away, and lets an absorbed member rejoin. -/
theorem test_meets_keeper : (let ev := note 0x20000 8 1 0 []; let re := note 0x60000 6 1 0 [];
      let spare := keeper (fun x => { x with spares := [⟨true, 393217⟩] }); let used := keeper (fun x => { x with spares := [⟨false, 524289⟩] });
      let absorbed := keeper (fun x => { x with members := [⟨true, 1, []⟩, ⟨false, 131073, [0, 2]⟩, ⟨true, 262145, []⟩] });
      keeperFree spare 5 && decide (pickSpare (fnSt spare 5) 1 = some 0) && told' spare ev 8 (.evacReq · true) (fun t =>
        acked t ev 0 && decide ((fnSt t 5).xfer = some ⟨4, 1, 393217, [1], false⟩) && decide (fnF t 5 FN_MEMB_STATUS_TRANSFER = 1)) &&
      decide (pickSpare (fnSt holder 5) 1 = none) && !absorbOk holder 5 1 false && told' holder ev 8 (.evacReq · false) (fun t => acked t ev 9) &&
      keeperFree used 5 && told used re 6 && decide (senderEntry (fnSt used 5) re = 393217) &&
      placementOk trio (liveDies (fnSt used 5).members) (standbyDies [⟨true, 393217⟩]) &&
      told' holder re 6 (.rejoinReq · true) (fun t => acked t re 0xA) && keeperFree absorbed 5 &&
      told' absorbed re 6 (.rejoinReq · true) (fun t => decide ((fnSt t 5).xfer = some ⟨5, 1, 393217, [0, 2], false⟩))) = true := by decide +kernel

/-- TRANSFER_DONE of one source of two and of the last, and ACKs. -/
theorem test_meets_answers : (let m := note 0x20000 7 1 0 []; let x2 := fun (l : List Nat) => keeper (fun x => { x with xfer := some ⟨4, 1, 393217, l, false⟩ });
      let a := fun (epoch mode : Nat) => note 0x20000 0xF 1 epoch [(0x19, 1, mode)]; let q := fun (kind id : Nat) => (⟨5, 131073, id, note 0 kind 0 0 [(0x19, 1, 2), (0x18, 1, 2)], 0, 0⟩ : MembMsg);
      told' holder m 7 (.transferDone · true) (fun t => acked t m 0) &&
      told' (x2 [1, 2]) m 7 (.transferDone · true) (fun t => decide ((fnSt t 5).xfer = some ⟨4, 1, 393217, [2], false⟩)) &&
      !epochsOpen (x2 [1]) 5 && told' (x2 [1]) m 7 (.transferDone · true) (fun t => decide ((fnSt t 5).xfer = some ⟨4, 1, 393217, [], true⟩) &&
        (match (fnSt t 5).kept with | some b => mmSwitch b && decide (mmMode b = 4) && decide (mmNewEpoch b = 1) | none => false)) &&
      told (holder) (a 0 0) 0xF && ignores (.membershipAck (posted (a 0 0)) true) holder &&
      gives (.membershipAck (posted (a 0 0)) true) { holder with msgs := [q 5 77] } (fun t => decide (t.msgs = [])) &&
      gives (.membershipAck (posted (a 0 0)) true) { holder with msgs := [q 1 77, q 1 78] } (fun t => decide (t.msgs = [q 1 78])) &&
      gives (.membershipAck (posted (a 3 1)) true) { holder with msgs := [q 1 77] } (fun t => asking t 5 0 && (fnSt t 5).asked &&
        decide ((fnSt t 5).again = some (2, 2, 0)))) = true := by decide +kernel

/-- Heartbeats and silence. -/
theorem test_meets_watch : (let w : Watched := ⟨0x20000, 5, false⟩; let s := { holder with watch := [w], ranks := [(0x20000, 2)] };
      ignores (.heartbeatSend 0) placed && ignores (.suspectTimeout 0) placed && ignores (.heartbeatSend 0) { holder with watch := [w] } &&
      gives (.heartbeatSend 0) s (fun t => decide (t.counter = 256) && (match t.egress with | [a] => decide (hType a = 16) && decide (fKind a = 8) && decide (hDst a = 0x20000) | _ => false)) &&
      gives (.suspectTimeout 0) s (fun t => decide (t.ticks = 16005) && decide (t.watch = [{ w with suspect := true }]) && ignores (.suspectTimeout 0) t) &&
      ignores .isolationTimeout placed && gives .isolationTimeout s (fun t => decide (t.ticks = 160005) && decide (getF t pgPort PORT_WATCH_STATUS_ISOLATED = 1) && (fnSt t 5).mute)) = true := by
  decide +kernel

/-- Declarations with two confirmers and with too few, and repeats. -/
theorem test_meets_declarations : (let four : GroupEntry := ⟨0, 3, 1, 0, 0, 3, 0, 0⟩;
      let s := { setFnSt (fn5 2) 5 { member with manifest := some { job with groups := [four] }, members := member.members ++ [⟨true, 393217, []⟩] } with watch := [⟨0x60000, 7, false⟩] };
      let few := { holder with watch := [⟨0x40000, 7, false⟩] }; let q : MembMsg := ⟨5, 131073, 77, note 0 5 0 0 [], 10, 0⟩;
      ignores (.declareTimeout 5 3) placed && decide (confirmersOf (fnSt s 5) 3 = [1, 2]) &&
      gives (.declareTimeout 5 3) s (fun t => decide (t.ticks = 160007) && decide ((fnSt t 5).decl = some ⟨3, [1, 2], []⟩) && decide (t.msgs.length = 2)) &&
      decide (confirmersOf (fnSt few 5) 2 = [1]) &&
      gives (.declareTimeout 5 2) few (fun t => decide ((fnSt t 5).decl = none) && decide (fnF t 5 FN_MEMB_STATUS_UNCONFIRMED = 1)) &&
      ignores (.membershipRepeat 5) placed &&
      gives (.membershipRepeat 5) { holder with msgs := [q] } (fun t => decide (t.ticks = 8202) && decide (t.msgs = [{ q with sentAt := 8202, repeats := 1 }])) &&
      gives (.membershipRepeat 5) { holder with msgs := [{ q with repeats := 8 }] } (fun t => decide (t.msgs = []) && decide (t.egress = []))) = true := by decide +kernel

/-! ### The floor -/

/-- Lyith-F with its floor in a state of Table 11.13, band 5 open. -/
def floored (k : Nat) (f : FloorSt) : State := { setF (setFnSt (fn5 2) 5 member) pgFloor FLOOR_STATUS_STATE k with floor := { f with bands := [(5, { state := 1, pos := 1, owner := 3 })] } }

/-- What `FloorUp` asks. -/
def floorUp (s : State) (k : Nat) : Bool := alive s && calm s && decide (s.variant = .F) && decide (getF s pgFloor FLOOR_STATUS_STATE = k)

theorem floorUp_of (s : State) (k : Nat) (h : floorUp s k = true) : Claims.FloorUp s k := by
  simp only [floorUp, Bool.and_eq_true, decide_eq_true_eq] at h
  exact ⟨h.1.1.1, quiet_of_calm s h.1.1.2, h.1.2, h.2⟩

/-- A sweep of function 5 for snapshot 3, with an index and the bands it took, and the snapshot's entry. -/
def sweep5 (ix : Tab Nat) (bands : List Nat) : Sweep := ⟨3, 2, 0, 9, job3, 0, 1, [], ix, 0, 0, 0, 0, bands, 0⟩
def snap3 (k : Nat) : SnapEnt := ⟨3, k, 5, 0, 0x7A11, 2, 0, 0, 0⟩

/-- The die while it sweeps. -/
def sweeping (f : FloorSt) (ix : Tab Nat) (bands : List Nat) : State := modFn (floored 2 f) 5 (fun x => { x with self := 1, sweep := some (sweep5 ix bands) })

/-- The indexes of every row but the last, and of every row. -/
def some63 : Tab Nat := (List.range 63).map (fun i => (i, indexFree))
def all64 : Tab Nat := (List.range 64).map (fun i => (i, indexFree))

/-- Lyith-C; a function that does not sweep; a sweep's next slot; pushes and their drain. -/
theorem test_meets_sweep : (let c := { placed with variant := .C }; let s := sweeping {} [(0, indexFree)] [5]; let p : Push := ⟨5, 3, 2, []⟩; let held := { s with hold := some (inHold 1), pushes := [p] };
      alive c && calm c && [Instr.sweepRead 5, .pushDrain, .catalogTimer [], .verifyDue 3, .floorMounted true, .floorReadComplete true].all (fun i => ignores i c) &&
      floorUp (floored 2 {}) 2 && ignores (.sweepRead 5) (floored 2 {}) && ignores (.snapSealed 5 []) (floored 2 {}) && ignores .pushDrain (floored 2 {}) &&
      floorUp s 2 && decide (grpOf (fnSt s 5) = some trio) && decide ((sweepOrder (fnSt s 5) (sweep5 [(0, indexFree)] [5])).find? (fun q =>
        match sweepOrdinal (sweep5 [(0, indexFree)] [5]) q.1 q.2.1 q.2.2 with | some o => (tabFind [(0, indexFree)] o).isNone | none => false) = some (0, 0, 1)) &&
      decide (sweepOrdinal (sweep5 [(0, indexFree)] [5]) 0 0 1 = some 1) &&
      floorUp held 2 && holding held && ignores .pushDrain held && ignores (.sweepRead 5) held && ignores (.catalogTimer []) held &&
      gives .pushDrain { s with pushes := [p] } (fun t => decide (t.floor.flights = [⟨5, 3, 2, []⟩]) && decide (t.pushes = []))) = true := by decide +kernel

/-- Programs in flight: none, one of a sweep that ended, and one that lands or fails; a catalog in band 0. -/
theorem test_meets_flights : (let p : FlProg := ⟨5, 3, 2, []⟩; let s := sweeping { flights := [p] } [] [5]; let gone := floored 2 { flights := [p] };
      ignores (.floorProgramDone true 0) (floored 2 {}) && floorUp gone 2 && gives (.floorProgramDone true 0) gone (fun t => decide (t.floor.flights = [])) &&
      floorUp s 2 && decide (usableFrom (bandAt s 5) (bandAt s 5).pos = some 1) &&
      gives (.floorProgramDone false 0) s (fun t => decide (t.floor.flights = [p]) && bit (bandAt t 5).bad 1 && decide ((bandAt t 5).pos = 2)) &&
      !holding s && decide (s.floor.sysBand < 2) && decide (threePositions (bandAt s s.floor.sysBand) = some (0, 1, 2))) = true := by decide +kernel

/-- A sweep with a slot left, and one with none whose snapshot can be sealed. -/
theorem test_meets_sealing : (let part := sweeping {} some63 [5]; let s := setFnF (sweeping { snaps := [snap3 1] } all64 [5]) 5 FN_FLOOR_CTRL_KEEP 1;
      floorUp part 2 && ((groupOf job3 0).isSome) && decide ((tabFind some63 63) = none) && ignores (.snapSealed 5 []) part &&
      floorUp s 2 && !holding s && (List.range 64).all (fun o => match tabFind all64 o with | some v => decide (v ≠ indexWaits) | none => false) &&
      decide (job3.stripeRows + 0 * job3.gradRows = 64) && decide ((bandAt s 5).bad = 0) && decide ((bandAt s 5).pos + ceilDiv 64 16384 + 1 ≤ 65536) &&
      decide (forceF s 5 FN_FLOOR_CTRL_KEEP ≠ 0) && decide (s.floor.snaps.getLast? = some (snap3 1)) && decide (s.floor.snaps.map (fun q => q.id)).Nodup) = true := by
  decide +kernel

/-- A snapshot to verify and one still being swept; a band that is read seldom; mounting that fails, and an empty floor. -/
theorem test_meets_verify : (let s := floored 2 { snaps := [snap3 2] }; let open_ := floored 2 { snaps := [snap3 1] };
      floorUp open_ 2 && decide (snapOf open_ 3 = some (snap3 1)) && ignores (.verifyDue 3) open_ &&
      floorUp s 2 && decide (snapOf s 3 = some (snap3 2)) && decide (s.floor.verify = none) && !holding s &&
      gives (.verifyDue 3) s (fun t => decide (fnF t 5 FN_FLOOR_STATUS_VERIFYING = 1) && decide (t.floor.verify = some ⟨3, [(0, none)], 0⟩)) &&
      decide ((bandAt s 5).reads < 4194304) && decide (snapOf s (bandAt s 5).owner = some (snap3 2)) && ignores (.bandRefresh 5 []) s &&
      ignores (.floorMounted true) s && floorUp (floored 1 {}) 1 &&
      gives (.floorMounted false) (floored 1 {}) (fun t => decide (getF t pgFloor FLOOR_STATUS_STATE = 4)) && decide ((floored 1 {}).floor.pages = [])) = true := by decide +kernel

/-- Verification: none under way, a page of several and the last one of a snapshot whose seal page can be read. -/
theorem test_meets_floor_reads : (let v : VerifyRun := ⟨3, [(0, none), (1, none)], 0⟩; let f : FloorSt := { snaps := [snap3 2], pages := [(0, [])] };
      let more := floored 2 { f with verify := some v }; let end_ := floored 2 { f with verify := some { v with left := [(1, none)] } };
      ignores (.floorReadComplete true) (floored 2 f) && floorUp more 2 && decide (snapOf more 3 = some (snap3 2)) && (readPage more 0).isSome &&
      gives (.floorReadComplete false) more (fun t => decide (t.floor.verify = some ⟨3, [(1, none)], 1⟩)) && floorUp end_ 2 &&
      gives (.floorReadComplete false) end_ (fun t => decide (t.floor.verify = none) && (match snapOf t 3 with | some e => decide (e.verify = 2) && decide (e.badPages = 1) | none => false))) = true := by
  decide +kernel

/-- A reload: none under way, and a move lost before and after its slot came. -/
theorem test_meets_moves : (let v : SliceMove := ⟨0, 0, 0, 0, 0, 0, 0, 0⟩; let q : Reload := ⟨2, [⟨0, 3, 0, 1, 5⟩], [0x20000], [v], [v], [v], [], [], 0, 0, 0, false⟩;
      let on := fun (q : Reload) => modFn (floored 2 {}) 5 (fun x => { x with bg := [⟨0x1B, 7, 0⟩], reload := some q });
      ignores (.reloadMove 5 0 true false ⟨0, 0, 0⟩ []) (floored 2 {}) && positioned (on q) && bgRunning (on q) 5 0x1B && calm (on q) && alive (on q) && ignores (.reloadMove 5 1 true false ⟨0, 0, 0⟩ []) (on q) &&
      gives (.reloadMove 5 0 true true ⟨0, 0, 0⟩ []) (on q) (fun t => match (fnSt t 5).reload with | some r => decide (r.toGet = []) && decide (r.lost = 1) | none => false) &&
      decide ({ q with toGet := [] }.toGet.find? (fun u => decide (u = v)) = none) && alive (on { q with toGet := [] }) && calm (on { q with toGet := [] })) = true := by decide +kernel

/-- A move whose slot the snapshot holds as free: the index page says so, and the seal page names the index page. -/
def reloadSource : State :=
  { floored 2 { snaps := [snap3 2], pages := [(0, [⟨0x3C, 1⟩, ⟨0x100, 1⟩]), (1, [⟨0, 0xFE⟩, ⟨1, 0xFF⟩, ⟨2, 0xFF⟩, ⟨3, 0xFF⟩])] } with hostDown := false }

theorem test_meets_source : (let s := reloadSource; let c : SliceSource := ⟨0, 3, 0, 1, 5⟩;
      (mySources s 5 [c]).contains c && (sourcePage s c).isSome && decide (dieBits 0x20000 ≠ selfDie s) &&
      decide ((snapSlot s c 0 true).map pmKind = some 0)) = true := by decide +kernel

/-- A band read often, whose snapshot is sealed, with free bands and a short index. -/
theorem test_meets_refresh : (let b : BandEnt := { state := 2, pos := 65536, owner := 3, reads := 4194304 };
      let s := { reloadSource with floor := { reloadSource.floor with bands := [(5, b)] } };
      floorUp s 2 && decide (snapOf s (bandAt s 5).owner = some (snap3 2)) && decide ((bandAt s 5).reads = 4194304) && !holding s && (List.range 64).all (fun k => (fnSt s k).reload.isNone) &&
      (readPage s 0).isSome && decide ((bandAt s 5).state = 2) && decide (s.floor.sysBand < 2) && decide (freeBands s ≠ []) && (freeBands s).all (fun f => decide ((bandAt s f).bad = 0)) &&
      decide (snapTotal s (snap3 2) = 0) && decide ((snapIndex s (snap3 2)).2.length ≤ 16384)) = true := by decide +kernel
/-! ### The twin comparator -/

/-- The packet of a twin message of the partner. -/
def twinPkt (b : List Byte) : Packet := ⟨mkHeader 0 0x20000 3 7 0 ((b.length + 63) / 64) 0 9 (memForm (3 * 2 ^ 44 + pgTwin + 0x800) b.length 0), padPayload b⟩

/-- What `TwinMessage` asks. -/
def tells (s : State) (b : List Byte) (kind : Nat) : Bool :=
  let p := twinPkt b
  portTakes s p && calm s && decide (s.variant = .F) && headerOk' p && decide (hType p = 3) && decide (hSpace p = 3) && decide (hAddr p = pgTwin + 0x800) &&
    !hPoison p && decide (b = p.payload.take (hBytes p)) && twinMsgOk b && decide (field b 0 1 = kind) &&
    (decide (s.twin.fn = none) || decide (dieBits (hSrc p) = dieBits s.twin.partner))

theorem twinMessage_of (s : State) (b : List Byte) (kind : Nat) (h : tells s b kind = true) : Claims.TwinMessage s (twinPkt b) kind b := by
  simp only [tells, Bool.and_eq_true, Bool.or_eq_true, decide_eq_true_eq, Bool.not_eq_true'] at h
  exact ⟨h.1.1.1.1.1.1.1.1.1.1.1, quiet_of_calm s h.1.1.1.1.1.1.1.1.1.1.2, h.1.1.1.1.1.1.1.1.1.2, h.1.1.1.1.1.1.1.1.2,
    ⟨h.1.1.1.1.1.1.1.2, h.1.1.1.1.1.1.2, h.1.1.1.1.1.2, h.1.1.1.1.2⟩, h.1.1.1.2, h.1.1.2, h.1.2, h.2⟩

/-- Function 5 runs with the die at 0x20000 as its twin. -/
def twinned (armed : Nat) (t : TwinSt) : State := { setF (atWork actReadout 0 0 []) pgTwin TWIN_STATUS_ARMED armed with
  twin := { t with fn := some 5, partner := 0x20000 } }

/-- The digest of leaf 0 of tensor 0 in step 3 on this die, its bytes, and the mismatch with the partner's digest of it. -/
def leafHere (d : Nat) : TwinPend := ⟨true, 3, 0, 0, d, 0, 0, 2, 0⟩
def leafThere (d : Nat) : List Byte := digestMsg { leafHere d with own := false }
def differ : TwinMm := ⟨leafHere 1, leafHere 2, false, 4, [], none, none⟩

/-- Messages on Lyith-C, and PAIRs: before the function is twinned, before it runs, of its own digests, of others, and while armed. -/
theorem test_meets_pairs : (let mine := pairMsg (twinned 0 {}) 5; let other := setField mine 8 1 9; let w := modFn (setFnF (twinned 0 {}) 5 FN_STATE_STATE 1) 5 (fun x => { x with step := 3 });
      ignores (.pair (twinPkt mine)) { twinned 0 {} with variant := .C } && ignores (.digest (twinPkt mine)) (twinned 0 {}) &&
      tells placed mine 1 && gives (.pair (twinPkt mine)) placed (fun t => decide (t.twin.pair = some mine)) &&
      tells w mine 1 && !actsRunning w 5 && gives (.pair (twinPkt mine)) w (fun t => decide (t.twin.pair = some mine) && !twinArmed t) &&
      tells (twinned 0 {}) mine 1 && gives (.pair (twinPkt mine)) (twinned 0 {}) (fun t => twinArmed t && decide (t.twin.pair = none)) &&
      tells (twinned 0 {}) other 1 && gives (.pair (twinPkt other)) (twinned 0 {}) (fun t => !twinArmed t && decide (getF t pgTwin TWIN_STATUS_PAIR_FAIL = 1)) &&
      (let on := { twinned 1 { pend := [leafHere 1] } with twin := { pend := [leafHere 1] } };
        tells on mine 1 && gives (.pair (twinPkt mine)) on (fun t => !twinArmed t && decide (t.twin.pend = []) &&
          decide (getF t pgTwin TWIN_COUNT_UNCHECKED = 1)))) = true := by decide +kernel

/-- DIGESTs: equal to the leaf that waits, different with and without the leaf in frame B, and of a leaf that is not ready. -/
theorem test_meets_digests : (let w := modFn (twinned 1 { waiting := [leafHere 7] }) 5 (fun x => { x with work := [{ read0 0 with twin := 1 }] });
      let row : State → List Nat := fun t => (fnSt t 5).work.map (fun v => v.twin); let holds := setCore w (coreIx 0 2) { leaf := some (5, 0, 0, 0) };
      ignores (.digest (twinPkt (leafThere 7))) placed && tells w (leafThere 7) 2 && decide (w.twin.waiting.find? (sameLeaf { leafHere 7 with own := false }) = some (leafHere 7)) &&
      gives (.digest (twinPkt (leafThere 7))) w (fun t => decide (t.twin.waiting = []) && decide (t.twin.compared = [(3, 0, 0)]) && decide (row t = [2])) &&
      !holdsLeaf w 5 (leafHere 7) && gives (.digest (twinPkt (leafThere 8))) w (fun t => t.twin.mm.isSome && decide (t.egress = []) && decide (row t = [4])) &&
      tells holds (leafThere 8) 2 && holdsLeaf holds 5 (leafHere 7) &&
      tells (twinned 1 {}) (leafThere 8) 2 && gives (.digest (twinPkt (leafThere 8))) (twinned 1 {}) (fun t => decide (t.twin.pend = [{ leafHere 8 with own := false }]) &&
        decide (getF t pgTwin TWIN_STATUS_PENDING = 1))) = true := by decide +kernel

/-- LINES and LINE: without a mismatch, the first part of one, and the line that both found or the partner only. -/
theorem test_meets_lines : (let l0 := linesMsg (leafHere 1) 0 []; let ln := lineMsg (leafHere 1) 9 []; let mm := twinned 0 { mm := some differ };
      let holds := setCore (twinned 0 { mm := some { differ with line := some 9 } }) (coreIx 0 2) { leaf := some (5, 0, 0, 0) };
      tells (twinned 0 {}) l0 3 && ignores (.lines (twinPkt l0)) (twinned 0 {}) && tells (twinned 0 {}) ln 4 && ignores (.line (twinPkt ln)) (twinned 0 {}) &&
      tells mm l0 3 && !holdsLeaf mm 5 differ.mine &&
      tells holds ln 4 && holdsLeaf holds 5 differ.mine && decide (field ln 2 2 = 9) &&
      tells mm ln 4 && gives (.line (twinPkt ln)) mm (fun t => (match t.twin.mm with | some q => decide (q.theirLine = some (9, zeros 64)) | none => false))) = true := by
  decide +kernel

/-- The waiting of a leaf ends; the partner is lost; a location takes too long. -/
theorem test_meets_twin_timers : (let w := modFn (twinned 1 { waiting := [leafHere 7] }) 5 (fun x => { x with work := [{ read0 0 with twin := 1, twinAt := 5 }] });
      let l := setF (twinned 1 { pend := [leafHere 1], lastAt := 4 }) pgTwin TWIN_CTRL_LOST 2; let mm := twinned 0 { mm := some differ };
      ignores (.twinWaitExpiry 5) (twinned 1 {}) && ignores .partnerLost (twinned 1 {}) && ignores .locationTimeout (twinned 1 {}) && calm w && alive w &&
      gives (.twinWaitExpiry 5) w (fun t => decide (t.ticks = 5 + getF w pgTwin TWIN_CTRL_WAIT * 800) && decide (t.twin.waiting = []) && decide (t.twin.pend = [leafHere 7])) &&
      gives .partnerLost l (fun t => decide (t.ticks = 16000004) && decide (t.twin.fn = none) && decide (getF t pgTwin TWIN_STATUS_PARTNER_LOST = 1)) &&
      gives .locationTimeout mm (fun t => decide (t.ticks = 160004) && decide (getF t pgTwin TWIN_STATUS_MISMATCH = 1) && t.twin.report.isSome)) = true := by decide +kernel
/-! ### Rebuilding, copying and absorbed rows -/

/-- The rebuild map: empty, with a row of member 1, and with rows to verify after a rejoin. -/
theorem test_meets_rebuild : (let s := keeper (fun x => { x with unrebuilt := [(1, 0, 0, 0)] });
      let v := modFn atHold 5 (fun x => { x with unrebuilt := [(1, 0, 0, 1), (1, 0, 0, 2)], rejoinVerify := true });
      ignores (.backgroundRebuild 5 []) holder && actsRunning s 5 && !(fnSt s 5).rejoinVerify && alive s && calm s && alive v && calm v && actsRunning v 5 && (fnSt v 5).rejoinVerify) = true ∧
    verifyKeeps (modFn atHold 5 (fun x => { x with unrebuilt := [(1, 0, 0, 1), (1, 0, 0, 2)], rejoinVerify := true })) 5 0 0 1 (imgsOf [] 0 0 1) = true := by
  refine ⟨by decide +kernel, ?_⟩
  generalize hv : modFn atHold 5 (fun x => { x with unrebuilt := [(1, 0, 0, 1), (1, 0, 0, 2)], rejoinVerify := true }) = v
  have hm : (fnSt v 5).manifest = some job3w := by subst hv; decide +kernel
  have hg : grpOf (fnSt v 5) = some trio := by subst hv; decide +kernel
  have hs : (fnSt v 5).self = 0 := by subst hv; decide +kernel
  have ho := own_slot (s := v) (area := 0) (gen := 0) (j := 1) (post := mark 0x10 2 1943289350347523436) hs hm (by decide +kernel) (by subst hv; decide +kernel)
  have h1 : slotOf v 5 0 0 1 (imgsOf [] 0 0 1) [] 1 = none := by subst hv; decide +kernel
  have h2 : slotOf v 5 0 0 1 (imgsOf [] 0 0 1) [] 2 = none := by subst hv; decide +kernel
  have he : slotErased (fnSt v 5).epoch 0 true (mark 0x10 2 1943289350347523436 ++ zeros 65280) = false := slot_here _ (by decide +kernel)
  have hd : (!isData trio.k trio.n 0 1) = true := by decide +kernel
  unfold verifyKeeps
  simp only [hg, hs, ho, hd, he, Bool.false_eq_true, if_false, if_true]
  show (List.range 2).all _ = true
  have e1 : (1 + 0) % trio.n = 1 := by decide
  have e2 : (1 + 1) % trio.n = 2 := by decide
  simp only [List.range, List.range.loop, List.all_cons, List.all_nil, e1, e2, h1, h2, Bool.and_self]

/-- A transfer's walk: another one, and its next row. -/
theorem test_meets_copy : (let s := keeper (fun x => { x with copy := some ⟨4, 1, 393217, [(0, 0, 0), (0, 0, 1)], [], false⟩ });
      ignores (.transferCopySlot 5 5 1 0 []) s && ignores (.transferCopySlot 5 4 2 0 []) s && !(fnSt s 5).mute && decide (unrebuiltAt (fnSt s 5) 0 0 0 = []) && positioned s && alive s && calm s) = true := by
  decide +kernel

/-- Member 0 with the rows of one that it and another absorb. -/
def absorbs (dead sched : Nat) (work : List RowWork) : State := modFn (atWork 0 (sched - 1) 0 work) 5 (fun x => { x with
  members := (List.range 3).map (fun m => ⟨decide (m ≠ dead), x.route.entries.getD m 0, if m = dead then [3 - dead, 0] else []⟩) })

/-- What an absorbed row's work asks. -/
def mayAbsorb (s : State) (k : AbsAt) (sched : Nat) : Bool :=
  let x := fnSt s 5
  alive s && calm s && !holding s && actsRunning s 5 && !x.aborting && decide (x.self ≠ k.member.val) && heldHere x k.member k.row && decide (x.sched = sched) &&
    !coreFailed s (coreIx (rowSlice x k.row) k.core)

/-- Rows that are not absorbed here, actions that are due on one that is, and actions that are not. -/
theorem test_meets_absorbed : (let k1 : AbsAt := ⟨5, 1, 1, 2⟩; let k2 : AbsAt := ⟨5, 2, 1, 2⟩; let r := { read0 0 with member := 2, row := 1 };
      let a : ActOn := ⟨5, 0, 2, 2, 1, []⟩; let s := fun (w : List RowWork) => absorbs 2 2 w; let go := fun (w : List RowWork) (f : State → ActOn → Cond) => mayAbsorb (s w) k2 2 && decide (f (s w) a = .go);
      let idle := fun (w : List RowWork) (c : Nat) => mayAbsorb (s w) k2 2 && ignores (.absorbedRowWork k2 c false []) (s w);
      let g := absorbs 1 1 [];
      ignores (.absorbedRowWork k1 actGsend false []) placed && decide (rowSlice (fnSt g 5) 1 = 0) && decide (rowSlice (fnSt (s []) 5) 1 = 0) &&
      mayAbsorb g k1 1 && (ActOn.leaf ⟨5, 0, 2, 1, 1, []⟩ (fnSt g 5) 1).isSome && !(ActOn.work ⟨5, 0, 2, 1, 1, []⟩ (fnSt g 5) 1).sent && ignores (.absorbedRowWork k1 actGhold false []) g &&
      go [r] condRun && go [{ r with committed := true }] condReg && go [{ r with registered := true }] condSend && go [{ r with written := true }] condEmit &&
      idle [] actRun && idle [r] actLread && idle [{ r with reg := true }] actReg && idle [{ r with sent := true }] actSend && idle [{ r with written := true }] actLwrite &&
      idle [{ r with done := true }] actEmit && idle [] actHold) = true := by decide +kernel

end Sys2Proof.Tests
end

/-!
SUPPORT. Rules that the statements about single commands share: what a command outside power-on reset gives in a quiet state, which
changes leave a state quiet, the bits of a field, and changes of registers alone.
-/

namespace Sys2Proof.Proofs

open Sys2Proof Sys2Proof.Machine Sys2Proof.Claims Sys2Proof.Laws

/-! ### Quiet states -/

/-- Quietness speaks of the agenda, the waiting LOADs, the firmware's stage and the functions' records alone. -/
theorem quiet_of_same {s t : State} (h : Quiet s) (hagenda : t.agenda = s.agenda) (hwaits : t.loadWaits = s.loadWaits)
    (hstage : switching t = switching s) (hnvm : t.nvm = s.nvm) (hfns : t.fns = s.fns) : Quiet t where
  agenda := hagenda.trans h.agenda
  loadWaits := hwaits.trans h.loadWaits
  switching := hstage.trans h.switching
  cut := by rw [hnvm]; exact h.cut
  activation := by
    have hfn : fnSt t 0 = fnSt s 0 := by simp only [fnSt, hfns]
    simpa only [bgRunning, hfn] using h.activation
  shadow := by rw [hfns]; exact h.shadow

/-- A command outside power-on reset whose effect leads from `s` to the quiet state `t` ends in `t`. -/
theorem gives_onDie {c : Instr} {s t : State} {f : State → State} {P : State → Prop} (hexec : exec c s = onDie s f) (hup : alive s = true)
    (hf : f s = t) (hq : Quiet t) (hpending : t.pending = s.pending) (hP : P t) : Gives c s P := by
  refine ⟨t, ?_, hP⟩
  rw [hexec, onDie_alive f hup, hf, conclude_quiet hq hpending]

theorem tabFind_mem {α : Type} {t : Tab α} {i : Nat} {v : α} (h : tabFind t i = some v) : (i, v) ∈ t := by
  induction t with
  | nil => cases h
  | cons e t ih =>
    obtain ⟨k, w⟩ := e
    unfold tabFind at h
    split at h
    · next hk => rw [hk, Option.some.inj h]; exact List.mem_cons_self ..
    · exact List.mem_cons_of_mem _ (ih h)

theorem fnSt_routeShadow {s : State} (h : Quiet s) (n : Nat) : (fnSt s n).routeShadow = none := by
  unfold fnSt tabGet
  cases hx : tabFind s.fns n with
  | none => rfl
  | some x => exact h.shadow (n, x) (tabFind_mem hx)

/-- A change of a function's record that keeps its background commands and its lack of a route shadow leaves a state quiet. -/
theorem quiet_modFn {s : State} (h : Quiet s) (n : Nat) (f : FnSt → FnSt) (hbg : ∀ x, (f x).bg = x.bg)
    (hshadow : ∀ x, (f x).routeShadow = x.routeShadow) : Quiet (modFn s n f) where
  agenda := h.agenda
  loadWaits := h.loadWaits
  switching := h.switching
  cut := h.cut
  activation := by
    have hsame : (fnSt (modFn s n f) 0).bg = (fnSt s 0).bg := by
      by_cases h0 : 0 = n
      · subst h0; rw [fnSt_modFn_same, hbg]
      · rw [fnSt_modFn_other s f h0]
    simpa only [bgRunning, hsame] using h.activation
  shadow := by
    intro e he
    rcases tabPut_mem he with he | he
    · exact h.shadow e he
    · split at he
      · cases he
      · rw [← Option.some.inj he, hshadow]
        exact fnSt_routeShadow h n

/-! ### The bits of a field -/

/-- A field reads the same in two words that agree on its bits. -/
theorem fldOf_congr {f : Fld} {w w' : Nat} (h : ∀ b, f.lo ≤ b → b ≤ f.hi → w.testBit b = w'.testBit b) : fldOf f w = fldOf f w' := by
  unfold fldOf bits
  refine Nat.eq_of_testBit_eq (fun j => ?_)
  simp only [Nat.testBit_mod_two_pow, Nat.testBit_div_two_pow]
  by_cases hj : j < f.hi + 1 - f.lo
  · rw [h (j + f.lo) (by omega) (by omega)]
  · simp only [hj, decide_false, Bool.false_and]

/-- A bit outside the `k` bits from `l` does not depend on them. -/
theorem testBit_outside {l k b : Nat} (high mid mid' low : Nat) (hmid : mid < 2 ^ k) (hmid' : mid' < 2 ^ k) (hlow : low < 2 ^ l)
    (hb : b < l ∨ l + k ≤ b) :
    (2 ^ l * (2 ^ k * high + mid) + low).testBit b = (2 ^ l * (2 ^ k * high + mid') + low).testBit b := by
  rw [Nat.testBit_two_pow_mul_add _ hlow, Nat.testBit_two_pow_mul_add _ hlow]
  rcases hb with hb | hb
  · rw [if_pos hb, if_pos hb]
  · rw [if_neg (by omega), if_neg (by omega), Nat.testBit_two_pow_mul_add _ hmid, Nat.testBit_two_pow_mul_add _ hmid',
      if_neg (by omega), if_neg (by omega)]

/-- A word split at the ends of a field. -/
theorem split_fldOf (f : Fld) (w : Nat) :
    2 ^ f.lo * (2 ^ (f.hi + 1 - f.lo) * (w / 2 ^ f.lo / 2 ^ (f.hi + 1 - f.lo)) + fldOf f w) + w % 2 ^ f.lo = w := by
  rw [fldOf, bits, Nat.div_add_mod, Nat.div_add_mod]

theorem split_putFld (f : Fld) (w v : Nat) :
    2 ^ f.lo * (2 ^ (f.hi + 1 - f.lo) * (w / 2 ^ f.lo / 2 ^ (f.hi + 1 - f.lo)) + v % 2 ^ (f.hi + 1 - f.lo)) + w % 2 ^ f.lo =
      putFld f w v := by
  have hsplit := split_fldOf f w
  unfold putFld
  rw [Nat.mul_add, Nat.mul_comm _ (v % _)]
  rw [Nat.mul_add, Nat.mul_comm _ (fldOf f w)] at hsplit
  omega

/-- A write of a field leaves the bits outside it. -/
theorem testBit_putFld_other {f : Fld} {b : Nat} (w v : Nat) (hlo : f.lo ≤ f.hi) (hb : b < f.lo ∨ f.hi < b) :
    (putFld f w v).testBit b = w.testBit b := by
  rw [← split_putFld]
  conv_rhs => rw [← split_fldOf f w]
  exact testBit_outside _ _ _ _ (Nat.mod_lt _ (Nat.two_pow_pos _)) (Nat.mod_lt _ (Nat.two_pow_pos _)) (Nat.mod_lt _ (Nat.two_pow_pos _))
    (by omega)

/-- A write of a field leaves another field of its register as it was. -/
theorem getF_setF_disjoint (s : State) (pg : Nat) {f g : Fld} (v : Nat) (hoff : g.off = f.off) (hlo : f.lo ≤ f.hi) (hhi : g.hi < 32)
    (hdis : g.hi < f.lo ∨ f.hi < g.lo) : getF (setF s pg f v) pg g = getF s pg g := by
  unfold getF setF
  rw [hoff, wordAt_setWord_same]
  refine fldOf_congr (fun b hglo hghi => ?_)
  rw [BitVec.toNat_ofNat, Nat.testBit_mod_two_pow, testBit_putFld_other _ _ hlo (by omega)]
  simp only [show b < 32 by omega, decide_true, Bool.true_and]

/-! ### Changes of registers -/

/-- Nothing changed but the registers at the window offsets `l` and the interrupt messages. -/
def Touches (s t : State) (l : List Nat) : Prop :=
  t = { s with regs := t.regs, msi := t.msi, msiLast := t.msiLast, msiPend := t.msiPend } ∧ ∀ a, a ∉ l → wordAt t a = wordAt s a

theorem touches_refl (s : State) : Touches s s [] := ⟨rfl, fun _ _ => rfl⟩

theorem touches_trans {s t u : State} {l m : List Nat} (h : Touches s t l) (h' : Touches t u m) : Touches s u (l ++ m) := by
  obtain ⟨hst, hwords⟩ := h
  obtain ⟨htu, hwords'⟩ := h'
  refine ⟨?_, fun a ha => ?_⟩
  · rw [htu, hst]
  · rw [List.mem_append, not_or] at ha
    rw [hwords' a ha.2, hwords a ha.1]

theorem touches_setWord (s : State) (a : Nat) (w : Word) : Touches s (setWord s a w) [a] :=
  ⟨rfl, fun _ hb => wordAt_setWord_other s w (by simpa using hb)⟩

theorem touches_setF (s : State) (pg : Nat) (f : Fld) (v : Nat) : Touches s (setF s pg f v) [pg + f.off] := touches_setWord ..

theorem oneWord_setWord (s : State) (a : Nat) (w : Word) : OneWord s (setWord s a w) a := ⟨rfl, fun _ => wordAt_setWord_other s w⟩

theorem touches_msiRequest (s : State) (n vec : Nat) : Touches s (msiRequest s n vec) [] := by
  simp only [msiRequest]
  split
  · split <;> exact ⟨rfl, fun _ _ => rfl⟩
  · exact ⟨rfl, fun _ _ => rfl⟩

/-- A change that may be left out. -/
theorem touches_ite {s t : State} {l : List Nat} (c : Prop) [Decidable c] (h : Touches s t l) : Touches s (if c then t else s) l := by
  split
  · exact h
  · exact ⟨rfl, fun _ _ => rfl⟩

theorem touches_raiseFn (s : State) (n : Nat) (f : Fld) : Touches s (raiseFn s n f) [pgFn n + f.off] :=
  touches_trans (touches_setF s (pgFn n) f 1) (touches_ite _ (touches_msiRequest ..))

theorem touches_raiseUnit (s : State) (pg : Nat) (f : Fld) : Touches s (raiseUnit s pg f) [pg + f.off] :=
  touches_trans (touches_setF s pg f 1) (touches_ite _ (touches_msiRequest ..))

theorem touches_errBit (s : State) (f : Fld) (pg : Nat) : Touches s (errBit s f pg) [pg + f.off, pg + HDR_INT_STATUS_ERROR.off] :=
  touches_trans (touches_setF s pg f 1) (touches_ite _ (touches_raiseUnit ..))

theorem getF_of_touches {s t : State} {l : List Nat} (h : Touches s t l) {pg : Nat} {f : Fld} (hf : pg + f.off ∉ l) :
    getF t pg f = getF s pg f := by
  unfold getF
  rw [h.2 _ hf]

/-- Where the firmware's stage is not touched, a quiet state stays quiet. -/
theorem quiet_of_touches {s t : State} {l : List Nat} (hq : Quiet s) (h : Touches s t l)
    (hstage : getF t pgNvm NVM_FW_STATUS_STAGE = getF s pgNvm NVM_FW_STATUS_STAGE) : Quiet t := by
  have hsame := h.1
  refine quiet_of_same hq ?_ ?_ ?_ ?_ ?_
  case refine_3 => unfold switching; rw [hstage]
  all_goals rw [hsame]

end Sys2Proof.Proofs

/-!
PROOF. The end of a bundle of an update core, and LOOP, HALT and NOP (O17).
-/

namespace Sys2Proof.Proofs

open Sys2Proof Sys2Proof.Machine Sys2Proof.Claims Sys2Proof.Laws

/-! ### The end of a bundle (R127, R129) -/

/-- The bundle that follows `r.pc`, and the loops then in progress. -/
def nextStep (r : CoreRun) : Option Nat → Nat × List LoopSt
  | some b => (b, r.loops)
  | none => loopNext r.loops r.pc

/-- The run after its bundle ended. -/
def endedRun (s : State) (r : CoreRun) (next : Option Nat) (taken : Bool) : CoreRun :=
  { afterIssue r (bundleAt s r) taken with
    pc := (nextStep r next).1, loops := (nextStep r next).2, aDone := false, aWrite := .none }

theorem readyRun_run {s : State} {i word : Nat} {portB : Bool} {r : CoreRun} (h : readyRun s i portB word = some r) :
    (coreSt s i).run = some r := by
  unfold readyRun at h
  split at h
  · cases h
  · next r' hr =>
    simp only [Option.ite_none_right_eq_some] at h
    rw [hr, h.2]

/-- A bundle whose run has halted or goes on inside its program ends as a change of its core alone. -/
theorem endBundle_eq {s : State} {i : Nat} {c : CoreSt} {r : CoreRun} {vec : Option (Nat × Nat)} {next : Option Nat} {taken : Bool}
    (hrun : c.run = some r) (hin : r.halted = true ∨ Inside r (nextStep r next).1) :
    endBundle s i c vec next taken = setCore s i { applyA c r.aWrite vec with run := some (endedRun s r next taken) } := by
  unfold endBundle
  rw [hrun]
  cases next <;> exact if_pos hin

/-- An instruction of port B that neither traps nor waits ends its bundle. -/
theorem issueB_done {s u : State} {k : Issue} {word : Nat} {residue : Bool} {f : State → CoreSt → CoreRun → BRes} {r : CoreRun}
    {c : CoreSt} {vec : Option (Nat × Nat)} {next : Option Nat} {taken : Bool} (h : IssuesB s k word r)
    (hf : f s (coreSt s (ix k)) r = .done u c vec next taken) :
    issueB s k word residue f = endBundle u (ix k) c vec next taken := by
  unfold issueB
  simp only [h.ready, h.clean, meetErr, hf]

theorem coreOnly_setCore (s : State) (i : Nat) (c : CoreSt) : CoreOnly s (setCore s i c) i :=
  ⟨rfl, fun _ hj => coreSt_setCore_other s c hj⟩

/-- A port A instruction writes neither a scalar register nor the data SRAM. -/
theorem applyA_scalars_sram (c : CoreSt) (w : AWrite) : (applyA c w none).s = c.s ∧ (applyA c w none).sram = c.sram := by
  cases w with
  | mask d v =>
    by_cases hd : d = 0
    · simp [applyA, setLm, hd]
    · simp [applyA, setLm, hd]
  | none | vec | tile | mode => exact ⟨rfl, rfl⟩

/-- A bundle ended on core `i`, where port B left the core as `c` with the run `r` and wrote no vector register: the die but for the core
is as before, the run goes on as `next` says, and the registers that port A does not write are those of `c`. -/
structure Ends (s t : State) (i : Nat) (c : CoreSt) (r : CoreRun) (next : Option Nat) : Prop where
  core : CoreOnly s t i
  run : ∃ r', (coreSt t i).run = some r' ∧ r'.halted = r.halted ∧ r'.pc = (nextStep r next).1 ∧ r'.loops = (nextStep r next).2 ∧
    r'.aDone = false ∧ r'.aWrite = .none
  scalars : (coreSt t i).s = c.s
  sram : (coreSt t i).sram = c.sram
  vectors : r.aWrite = .none → (coreSt t i).v = c.v ∧ (coreSt t i).lm = c.lm ∧ (coreSt t i).ta = c.ta ∧ (coreSt t i).mode = c.mode

theorem ends_endBundle {s : State} {i : Nat} {c : CoreSt} {r : CoreRun} {next : Option Nat} {taken : Bool}
    (hrun : c.run = some r) (hin : r.halted = true ∨ Inside r (nextStep r next).1) :
    Ends s (endBundle s i c none next taken) i c r next := by
  rw [endBundle_eq hrun hin]
  constructor
  case core => exact coreOnly_setCore ..
  all_goals rw [coreSt_setCore_same]
  case run => exact ⟨_, rfl, rfl, rfl, rfl, rfl, rfl⟩
  case scalars => exact (applyA_scalars_sram ..).1
  case sram => exact (applyA_scalars_sram ..).2
  case vectors => intro hw; rw [hw]; exact ⟨rfl, rfl, rfl, rfl⟩

/-- An instruction of port B that leads from `s` to the quiet state `u` and leaves its core's registers alone, the run becoming `r1`. -/
theorem gives_endBundle {c : Instr} {s u : State} {k : Issue} {word : Nat} {f : State → CoreSt → CoreRun → BRes} {r r1 : CoreRun}
    {next : Option Nat} {P : State → Prop} (h : IssuesB s k word r) (hexec : exec c s = onDie s (fun s => issueB s k word false f))
    (hu : Quiet u) (hpending : u.pending = s.pending)
    (hf : f s (coreSt s (ix k)) r = .done u { coreSt s (ix k) with run := some r1 } none next false)
    (hin : r1.halted = true ∨ Inside r1 (nextStep r1 next).1)
    (hP : ∀ t, Ends u t (ix k) { coreSt s (ix k) with run := some r1 } r1 next → P t) : Gives c s P := by
  have hends := ends_endBundle (s := u) (i := ix k) (taken := false) (c := { coreSt s (ix k) with run := some r1 }) rfl hin
  refine gives_onDie hexec h.up (issueB_done h hf) ?_ ?_ (hP _ hends)
  · rw [hends.core.1]
    exact quiet_of_same hu rfl rfl rfl rfl rfl
  · rw [hends.core.1, ← hpending]

theorem keepsVector_of_ends {s t : State} {i : Nat} {r r1 : CoreRun} {next : Option Nat}
    (h : Ends s t i { coreSt s i with run := some r1 } r1 next) (hw : r1.aWrite = r.aWrite) : KeepsVector s t i r :=
  fun ha => h.vectors (hw.trans ha)

theorem goesOn_of_ends {s t : State} {i : Nat} {c : CoreSt} {r : CoreRun} {next : Option Nat} (h : Ends s t i c r next) :
    GoesOn t i (nextStep r next).1 (nextStep r next).2 := by
  obtain ⟨r', hrun, -, hpc, hloops, hdone, hw⟩ := h.run
  exact ⟨r', hrun, hpc, hloops, hdone, hw⟩

/-! ### Control instructions (R11, R123, R126, R127, R129) -/

/-- The loop that begins at the next bundle does not end at the present one. -/
theorem loopNext_enter (l : LoopSt) (rest : List LoopSt) (pc : Nat) (h : pc ≠ l.last) : loopNext (l :: rest) pc = (pc + 1, l :: rest) := by
  simp only [loopNext, if_neg h]

theorem gives_loop_skip {s : State} {k : Issue} {f : JForm} {r : CoreRun} (h : IssuesB s k (bWordJ f 0xB4) r)
    (hskip : sReg (coreSt s (ix k)) f.s = 0 ∨ f.target = 0) (hin : Inside r (loopNext r.loops (r.pc + f.target.toNat)).1) :
    Gives (.loop k f) s (fun t => CoreOnly s t (ix k) ∧ KeepsVector s t (ix k) r ∧
      GoesOn t (ix k) (loopNext r.loops (r.pc + f.target.toNat)).1 (loopNext r.loops (r.pc + f.target.toNat)).2) := by
  have hcond : sReg (coreSt s (ix k)) f.s = 0 ∨ f.target.toNat = 0 := hskip.imp_right (fun h0 => by rw [h0]; rfl)
  exact gives_endBundle h rfl h.quiet rfl (if_pos hcond) (.inr hin) (fun _ he => ⟨he.core, keepsVector_of_ends he rfl, goesOn_of_ends he⟩)

/-- A loop inside any number of others is carried out (log entry 12); its body begins at the next bundle (log entry 11). -/
theorem gives_loop_enter {s : State} {k : Issue} {f : JForm} {r : CoreRun} {c : Nat} (h : IssuesB s k (bWordJ f 0xB4) r)
    (hcount : sReg (coreSt s (ix k)) f.s = c + 1) (htarget : f.target ≠ 0) (hin : Inside r (r.pc + 1)) :
    Gives (.loop k f) s (fun t => CoreOnly s t (ix k) ∧ KeepsVector s t (ix k) r ∧
      GoesOn t (ix k) (r.pc + 1) (⟨r.pc + 1, r.pc + f.target.toNat, c⟩ :: r.loops)) := by
  have hlen : f.target.toNat ≠ 0 := fun h0 => htarget (BitVec.eq_of_toNat_eq h0)
  have hcond : ¬ (sReg (coreSt s (ix k)) f.s = 0 ∨ f.target.toNat = 0) := by omega
  have hnext := loopNext_enter ⟨r.pc + 1, r.pc + f.target.toNat, c⟩ r.loops r.pc (by simpa using hlen)
  refine gives_endBundle (r1 := { r with loops := ⟨r.pc + 1, r.pc + f.target.toNat, c⟩ :: r.loops }) (next := none) h rfl
    h.quiet rfl ?_ (.inr ?_) (fun t he => ⟨he.core, keepsVector_of_ends he rfl, ?_⟩)
  · exact (if_neg hcond).trans (by simp only [hcount, Nat.add_sub_cancel])
  · show Inside r (loopNext _ r.pc).1
    rw [hnext]
    exact hin
  · simpa only [nextStep, hnext] using goesOn_of_ends he

theorem gives_nopB {s : State} {k : Issue} {w : BitVec 24} {r : CoreRun} (h : IssuesB s k w.toNat r)
    (hin : Inside r (loopNext r.loops r.pc).1) :
    Gives (.nop k true w) s (fun t => CoreOnly s t (ix k) ∧ KeepsVector s t (ix k) r ∧ GoesNext t (ix k) r ∧
      (coreSt t (ix k)).s = (coreSt s (ix k)).s ∧ (coreSt t (ix k)).sram = (coreSt s (ix k)).sram) := by
  have hword : w.toNat % 2 ^ 24 = w.toNat := Nat.mod_eq_of_lt w.isLt
  have hrun : { coreSt s (ix k) with run := some r } = coreSt s (ix k) := by rw [← readyRun_run h.ready]
  refine gives_endBundle (r1 := r) (next := none) (f := fun s c _ => .done s c none none false) h ?_ h.quiet rfl (by rw [hrun]) (.inr hin)
    (fun t he => ⟨he.core, keepsVector_of_ends he rfl, goesOn_of_ends he, he.scalars, he.sram⟩)
  have hexec : exec (.nop k true w) s = execNop k true w s := rfl
  simp only [hexec, execNop, nopB, hword, if_true]

/-- The step area that a prelude's HALT keeps on its slice for its class (R126). -/
def keepStepArea (s : State) (k : Issue) (r : CoreRun) : State :=
  modFn s r.fn (fun x => { x with
    stepAreas := tabPut x.stepAreas (256 * k.slice + r.cls) (some (memReadN (coreSt s (ix k)).sram 0x3E400 1024)) })

theorem keepStepArea_frame (s : State) (k : Issue) (r : CoreRun) :
    keepStepArea s k r = { s with fns := (keepStepArea s k r).fns } ∧
      tabFind (fnSt (keepStepArea s k r) r.fn).stepAreas (256 * k.slice + r.cls) = some (memReadN (coreSt s (ix k)).sram 0x3E400 1024) ∧
      ∀ n, n ≠ r.fn → fnSt (keepStepArea s k r) n = fnSt s n := by
  refine ⟨rfl, ?_, fun n hn => fnSt_modFn_other s _ hn⟩
  rw [keepStepArea, fnSt_modFn_same, tabFind_put_same]

theorem gives_halt {s u : State} {k : Issue} {f : JForm} {r : CoreRun} {P : State → Prop} (h : IssuesB s k (bWordJ f 0xB5) r)
    (hu : u = if r.prelude then keepStepArea s k r else s)
    (hP : ∀ t, Ends u t (ix k) { coreSt s (ix k) with run := some { r with halted := true } } { r with halted := true } none → P t) :
    Gives (.halt k f) s P := by
  have hkeeps : Quiet u ∧ u.pending = s.pending := by
    rw [hu]
    split
    · exact ⟨quiet_modFn h.quiet _ _ (fun _ => rfl) (fun _ => rfl), rfl⟩
    · exact ⟨h.quiet, rfl⟩
  exact gives_endBundle h rfl hkeeps.1 hkeeps.2 (by rw [hu]; rfl) (.inl rfl) hP

/-- What a halt leaves on its core and on the die. -/
theorem gives_halt_frame {s : State} {k : Issue} {f : JForm} {r : CoreRun} (h : IssuesB s k (bWordJ f 0xB5) r) :
    Gives (.halt k f) s (fun t => (∃ r', (coreSt t (ix k)).run = some r' ∧ r'.halted = true) ∧
      (coreSt t (ix k)).sram = (coreSt s (ix k)).sram ∧ (coreSt t (ix k)).s = (coreSt s (ix k)).s ∧
      (r.prelude = false → CoreOnly s t (ix k)) ∧
      (r.prelude = true → t = { s with cores := t.cores, fns := t.fns } ∧
        tabFind (fnSt t r.fn).stepAreas (256 * k.slice + r.cls) = some (memReadN (coreSt s (ix k)).sram 0x3E400 1024) ∧
        ∀ n, n ≠ r.fn → fnSt t n = fnSt s n)) := by
  refine gives_halt h rfl (fun t he => ?_)
  obtain ⟨r', hrun, hhalted, -⟩ := he.run
  refine ⟨⟨r', hrun, hhalted⟩, he.sram, he.scalars, fun hleaf => ?_, fun hprelude => ?_⟩
  · simpa [hleaf] using he.core
  · have hcore := he.core.1
    simp only [hprelude, if_true] at hcore
    obtain ⟨hframe, harea, hothers⟩ := keepStepArea_frame s k r
    have hfn : ∀ n, fnSt t n = fnSt (keepStepArea s k r) n := fun n => by rw [hcore]; rfl
    refine ⟨?_, by rw [hfn]; exact harea, fun n hn => by rw [hfn]; exact hothers n hn⟩
    rw [hcore, hframe]

/-- Settles O17: each of LOOP, HALT and NOP ends its bundle on its own core (`gives_endBundle`). -/
theorem loopsAndHalts : Obligations.LoopsAndHalts :=
  ⟨fun _ _ _ _ h => ⟨gives_loop_skip h, fun _ => gives_loop_enter h⟩, fun _ _ _ _ h => gives_halt_frame h,
    fun _ _ _ _ h => gives_nopB h⟩

end Sys2Proof.Proofs

/-!
PROOF. Reads of the first words of a page (O30).
-/

namespace Sys2Proof.Proofs

open Sys2Proof Sys2Proof.Machine Sys2Proof.Claims Sys2Proof.Laws

/-! ### Reads of the page header (R5, R437, R440, R441) -/

/-- No described register lies in the first four words of a page. -/
theorem headerEnd_le_off (k : PageKind) : ∀ d ∈ allRegs k, 0x10 ≤ d.off := by cases k <;> decide +kernel

theorem descAt_header {k : PageKind} {o : Nat} (ho : o < 0x10) : descAt k o = none := by
  unfold descAt
  refine List.find?_eq_none.mpr (fun d hd => ?_)
  have := headerEnd_le_off k d hd
  simp only [Bool.and_eq_true, decide_eq_true_eq]
  omega

theorem isLatched_header {a : Nat} (ha : a % 4096 < 0x10) : isLatched a = false := by
  unfold isLatched
  split
  · simp only [descAt_header ha]
  · rfl

theorem rcMask_header (s : State) {a : Nat} (ha : a % 4096 < 0x10) : rcMask s a = 0 := by
  unfold rcMask
  split
  · simp only [descAt_header ha, ite_self]
  · rfl

/-- A read of one of the first three words of a page answers it and changes nothing else. -/
theorem windowRead_header {s : State} {src : Source} {a : Nat} (hword : a % 4 = 0) (hend : a < 0x1000000) (hpage : a % 4096 < 0xC)
    (hon : sourceOn s src = true) (hmay : mayRead s src a = true) :
    windowRead s src a = { s with answer := some (BitVec.ofNat 32 (readWord s a)) } := by
  have haligned : a / 4 * 4 = a := by omega
  have hnext : isLatched (a + 4) = false := isLatched_header (by omega)
  have hout : ¬ 0x1000000 ≤ a := by omega
  simp [windowRead, haligned, hon, hout, hmay, isLatched_header (show a % 4096 < 0x10 by omega), hnext,
    rcMask_header s (show a % 4096 < 0x10 by omega)]

theorem mayRead_mf (s : State) (a : Nat) : mayRead s .mf a = true := rfl

/-- What MF gets where it reads one of the first three words of a page. -/
theorem gives_readClear_header {s : State} {off : BitVec 24} (h : Reaches s .mf) (hword : off.toNat % 4 = 0)
    (hpage : off.toNat % 4096 < 0xC) :
    Gives (.readClear .mf off) s (fun t => t = { s with answer := some (BitVec.ofNat 32 (readWord s off.toNat)) }) := by
  have hread := windowRead_header (a := off.toNat) hword (by have := off.isLt; omega) hpage h.on (mayRead_mf s _)
  exact gives_onDie (f := fun s => windowRead s .mf off.toNat) rfl h.up hread (quiet_of_same h.quiet rfl rfl rfl rfl rfl) rfl rfl

/-- Table 17.1: the pages of the functions. -/
theorem pageAt_pgFn {n o : Nat} (hn : n < 64) (ho : o < 4096) : pageAt (pgFn n + o) = some (.fn, n) := by
  have hp : (pgFn n + o) / 4096 = n + 32 := by unfold pgFn; omega
  unfold pageAt
  simp only [hp]
  rw [if_neg (by omega), if_neg (by omega)]
  simp [show ¬ n + 32 = 8 by omega]
  omega

theorem readWord_pageCap {s : State} {a : Nat} {k : PageKind} {i : Nat} (hpage : pageAt a = some (k, i)) (ho : a % 4096 = 8)
    (hunit : unitAbsent s k 8 = false) : readWord s a = pageCap s k := by
  simp [readWord, hpage, ho, hunit]

/-- Bits 2:0 of the global page's PAGE_CAP are the whole of a function page's (R441). -/
theorem pageCap_units (s : State) : (BitVec.ofNat 32 (pageCap s .fn)).extractLsb 2 0 = (BitVec.ofNat 32 (pageCap s .global)).extractLsb 2 0 := by
  cases hv : s.variant <;> simp [pageCap, hv]

theorem pageCap_fn (s : State) : (BitVec.ofNat 32 (pageCap s .fn)).toNat = if s.variant = .F then 7 else 0 := by
  cases hv : s.variant <;> simp [pageCap, hv]

/-- Settles O30: both reads answer `pageCap` of their page, and the units of the variant are its bits 2:0 on either page. -/
theorem functionPagesMirrorTheUnits : Obligations.FunctionPagesMirrorTheUnits := by
  intro s n h
  have hoff : (BitVec.ofNat 24 (0x20008 + 0x1000 * n.val)).toNat = pgFn n + 8 := by
    have := n.isLt
    simp only [BitVec.toNat_ofNat, pgFn]
    omega
  have hmod : (pgFn n + 8) % 4096 = 8 := by unfold pgFn; omega
  have hglobal : readWord s (0x000008#24).toNat = pageCap s .global := readWord_pageCap (i := 0) rfl rfl (by simp [unitAbsent])
  have hfn : readWord s (pgFn n + 8) = pageCap s .fn := readWord_pageCap (pageAt_pgFn n.isLt (by omega)) hmod (by simp [unitAbsent])
  have hread := gives_readClear_header (off := BitVec.ofNat 24 (0x20008 + 0x1000 * n.val)) h (by rw [hoff]; omega) (by rw [hoff]; omega)
  rw [hoff, hfn] at hread
  refine ⟨BitVec.ofNat 32 (pageCap s .global), BitVec.ofNat 32 (pageCap s .fn), ?_, hread, pageCap_units s, pageCap_fn s⟩
  rw [← hglobal]
  exact gives_readClear_header h (by decide) (by decide)

end Sys2Proof.Proofs

/-!
PROOF. Writes of registers through the window (O27).
-/

namespace Sys2Proof.Proofs

open Sys2Proof Sys2Proof.Machine Sys2Proof.Claims Sys2Proof.Laws

/-! ### A write by access types (R12, R444) -/

/-- The word that a write leaves, bit by bit, where no field's values are restricted. -/
theorem testBit_writtenWord {d : RegDesc} {a b : Nat} (old v : Nat) (hkeep : ∀ old new, keepFields a old new = new) (hb : b < 32) :
    (writtenWord d a old v).testBit b = (if d.w1c.testBit b && v.testBit b then false
      else if d.rw.testBit b || d.rws.testBit b then v.testBit b else old.testBit b) := by
  have hones : (0xFFFFFFFF : Nat).testBit b = true := by
    rw [show (0xFFFFFFFF : Nat) = 2 ^ 32 - 1 from rfl, Nat.testBit_two_pow_sub_one]
    simpa using hb
  simp only [writtenWord, hkeep, Nat.testBit_and, Nat.testBit_or, Nat.testBit_xor, hones]
  rw [Bool.and_comm (v.testBit b) (d.w1c.testBit b)]
  cases d.w1c.testBit b && v.testBit b with
  | true => simp
  | false => cases d.rw.testBit b || d.rws.testBit b <;> simp

/-- A register whose writes have no effect of their own is none whose writes have one. -/
theorem ne_of_actsOn {a a' i i' : Nat} {k k' : PageKind} (hpage : pageAt a = some (k, i)) (hacts : actsOn k i (a % 4096) = false)
    (hpage' : pageAt a' = some (k', i')) (hacts' : actsOn k' i' (a' % 4096) = true) : a ≠ a' := by
  rintro rfl
  obtain ⟨rfl, rfl⟩ : k = k' ∧ i = i' := by simpa [hpage] using hpage'
  rw [hacts] at hacts'
  cases hacts'

/-- The registers whose fields take only some values (R172, Tables 8.19 and 8.20) are among those whose writes act. -/
theorem keepFields_of_not_actsOn {a i : Nat} {k : PageKind} (hpage : pageAt a = some (k, i)) (hacts : actsOn k i (a % 4096) = false)
    (old new : Nat) : keepFields a old new = new := by
  have hcap0 : a ≠ pgPort + 0x04C := ne_of_actsOn hpage hacts rfl rfl
  have hcap1 : a ≠ pgPort + 0x050 := ne_of_actsOn hpage hacts rfl rfl
  have hshare : a ≠ pgPort + 0x054 := ne_of_actsOn hpage hacts rfl rfl
  have hlen : a ≠ pgWheel + 0x040 := ne_of_actsOn hpage hacts rfl rfl
  simp only [keepFields, hcap0, hcap1, hshare, hlen, if_false]

theorem plainWrite_eq {s : State} {a i : Nat} {k : PageKind} {d : RegDesc} (v : Nat) (hpage : pageAt a = some (k, i))
    (hdesc : descAt k (a % 4096) = some d) :
    plainWrite s a v = setWord s a (BitVec.ofNat 32 (writtenWord d a (wordAt s a).toNat v)) := by
  simp only [plainWrite, hpage, hdesc]

theorem touches_plainWrite (s : State) (a v : Nat) : Touches s (plainWrite s a v) [a] := by
  unfold plainWrite
  split
  · exact ⟨rfl, fun _ _ => rfl⟩
  · split
    · exact ⟨rfl, fun _ _ => rfl⟩
    · exact touches_setWord ..

theorem wordAt_plainWrite_bit {s : State} {a i b : Nat} {k : PageKind} {d : RegDesc} (v : Nat) (hpage : pageAt a = some (k, i))
    (hdesc : descAt k (a % 4096) = some d) (hkeep : ∀ old new, keepFields a old new = new) (hb : b < 32) :
    (wordAt (plainWrite s a v) a).getLsbD b = (if d.w1c.testBit b && v.testBit b then false
      else if d.rw.testBit b || d.rws.testBit b then v.testBit b else (wordAt s a).getLsbD b) := by
  rw [plainWrite_eq v hpage hdesc, wordAt_setWord_same, BitVec.getLsbD_ofNat, testBit_writtenWord _ _ hkeep hb]
  simp only [hb, decide_true, Bool.true_and, BitVec.testBit_toNat]

/-- STAGE of LY_NVM_FW_STATUS has no field that a write changes. -/
theorem stage_plainWrite (s : State) (a v : Nat) :
    getF (plainWrite s a v) pgNvm NVM_FW_STATUS_STAGE = getF s pgNvm NVM_FW_STATUS_STAGE := by
  by_cases ha : pgNvm + NVM_FW_STATUS_STAGE.off = a
  · subst ha
    refine fldOf_congr (fun b hlo hhi => ?_)
    have hbits : ∀ b ∈ List.range' 28 4, (0x1C000 : Nat).testBit b = false := by decide
    have hb := hbits b (by simp only [NVM_FW_STATUS_STAGE] at hlo hhi; simp only [List.mem_range'_1]; omega)
    have hbit := wordAt_plainWrite_bit (s := s) (b := b) (a := pgNvm + NVM_FW_STATUS_STAGE.off) (k := .nvm) (i := 0)
      (d := ⟨0x044, 1, 0x0, 0x1C000, 0x0, 0x0, 0x0, 0x0, 0x0, 0x0, false, false⟩) v rfl (by decide +kernel) (fun _ _ => rfl)
      (by simp only [NVM_FW_STATUS_STAGE] at hhi; omega)
    simpa only [hb, Bool.false_and, Nat.zero_testBit, Bool.or_self, Bool.false_eq_true, if_false, ← BitVec.testBit_toNat] using hbit
  · exact getF_of_touches (touches_plainWrite s a v) (by simpa using ha)

/-! ### LOCK_VIOLATION (R377) -/

/-- The registers that a LOCK_VIOLATION sets: LOCK_INFO, FN0's INT_STATUS, and the global page's ERR_SUMMARY and INT_STATUS. -/
def violationWords : List Nat := [0x048, 0x048, 0x048, 0x20018, 0x014, 0x018]

theorem errUnit_global (s : State) (f : Fld) : errUnit s f pgGlobal = errBit s f pgGlobal := if_pos rfl

/-- A LOCK_VIOLATION sets MULTIPLE where one stands already, names the register, raises FN0's LOCK_VIOLATION and records the error. -/
theorem lockViolation_eq (s : State) (a : Nat) : ∃ s1, Touches s s1 [0x048] ∧
    lockViolation s a = errBit (raiseFn (setF (setF s1 pgGlobal GLOBAL_LOCK_INFO_PAGE (a / 4096)) pgGlobal GLOBAL_LOCK_INFO_OFFSET (a % 4096))
      0 FN_INT_LOCK_VIOLATION) HDR_ERR_SUMMARY_LOCK pgGlobal :=
  ⟨if decide (getF s (pgFn 0) FN_INT_LOCK_VIOLATION = 1) then flagF s pgGlobal GLOBAL_LOCK_INFO_MULTIPLE else s,
    touches_ite _ (touches_setF ..), errUnit_global ..⟩

theorem touches_lockViolation (s : State) (a : Nat) : Touches s (lockViolation s a) violationWords := by
  obtain ⟨s1, hmultiple, heq⟩ := lockViolation_eq s a
  rw [heq]
  exact touches_trans (touches_trans (touches_trans (touches_trans hmultiple (touches_setF ..)) (touches_setF ..))
    (touches_raiseFn ..)) (touches_errBit ..)

/-- A flag of a function's INT_STATUS reads 1 after it is raised. -/
theorem fnF_raiseFn (s : State) (n : Nat) {f : Fld} (hbit : f.hi = f.lo) (hhi : f.hi < 32) : fnF (raiseFn s n f) n f = 1 := by
  have hset : getF (flagF s (pgFn n) f) (pgFn n) f = 1 := by
    rw [flagF, getF_setF_same _ _ _ _ hbit.ge hhi, hbit, Nat.add_sub_cancel_left]
    rfl
  exact (getF_of_touches (touches_ite _ (touches_msiRequest ..)) List.not_mem_nil).trans hset

/-- LOCK_INFO names the register whose write was ignored, and FN0's LOCK_VIOLATION is set. -/
theorem lockViolation_reports (s : State) {a : Nat} (ha : a < 2 ^ 24) :
    getF (lockViolation s a) pgGlobal GLOBAL_LOCK_INFO_PAGE = a / 4096 ∧
      getF (lockViolation s a) pgGlobal GLOBAL_LOCK_INFO_OFFSET = a % 4096 ∧ fnF (lockViolation s a) 0 FN_INT_LOCK_VIOLATION = 1 := by
  obtain ⟨s1, -, heq⟩ := lockViolation_eq s a
  rw [heq]
  have herr := fun t => touches_errBit t HDR_ERR_SUMMARY_LOCK pgGlobal
  have hflags := fun t => touches_trans (touches_raiseFn t 0 FN_INT_LOCK_VIOLATION) (herr _)
  refine ⟨?_, ?_, ?_⟩
  · have hoff : GLOBAL_LOCK_INFO_PAGE.off = GLOBAL_LOCK_INFO_OFFSET.off := rfl
    have hdis : GLOBAL_LOCK_INFO_PAGE.hi < GLOBAL_LOCK_INFO_OFFSET.lo ∨ GLOBAL_LOCK_INFO_OFFSET.hi < GLOBAL_LOCK_INFO_PAGE.lo := by decide
    rw [getF_of_touches (hflags _) (by decide), getF_setF_disjoint _ _ _ hoff (by decide) (by decide) hdis,
      getF_setF_same _ _ _ _ (by decide) (by decide)]
    exact Nat.mod_eq_of_lt (show a / 4096 < 2 ^ 19 by omega)
  · rw [getF_of_touches (hflags _) (by decide), getF_setF_same _ _ _ _ (by decide) (by decide)]
    exact Nat.mod_eq_of_lt (show a % 4096 < 2 ^ 12 by omega)
  · exact (getF_of_touches (herr _) (by decide)).trans (fnF_raiseFn _ 0 rfl (by decide))

/-! ### Writes through the window -/

/-- Table 17.1: a page of a function lies where its number says. -/
theorem pgFn_of_pageAt {a i : Nat} (hpage : pageAt a = some (.fn, i)) : pgFn i + a % 4096 = a := by
  have hp : 32 ≤ a / 4096 ∧ i = a / 4096 - 32 := by
    simp only [pageAt, ite_eq_iff] at hpage
    simp at hpage
    omega
  unfold pgFn
  omega

/-- The header registers whose writes act: PAGE_CTRL, INT_ENABLE, INT_FORCE and LOCK. -/
theorem header_of_not_actsOn {k : PageKind} {i o : Nat} (h : actsOn k i o = false) : o ≠ 0x010 ∧ o ≠ 0x01C ∧ o ≠ 0x020 ∧ o ≠ 0x024 := by
  simpa using (Bool.or_eq_false_iff.mp h).1

theorem writeFn_eq_plainWrite (s : State) {i o : Nat} (v : Nat) (hword : o % 4 = 0) (hacts : actsOn .fn i o = false) :
    writeFn s i o v = plainWrite s (pgFn i + o) v := by
  simp [actsOn] at hacts
  unfold writeFn
  rw [if_neg (by omega), if_neg (by omega), if_neg (by omega), if_neg (by omega), if_neg (by omega), if_neg (by omega),
    if_neg (by omega), if_neg (by omega)]

/-- A write of a register whose writes have no effect of their own. -/
theorem applyWrite_eq_plainWrite (s : State) (src : Source) {k : PageKind} {i a : Nat} (v : Nat) (locked : Bool) (hword : a % 4 = 0)
    (hpage : pageAt a = some (k, i)) (hacts : actsOn k i (a % 4096) = false) :
    applyWrite s src k i (a % 4096) a v locked = plainWrite s a v := by
  cases k with
  | fn =>
    have hfn := writeFn_eq_plainWrite s v (by omega) hacts
    rw [pgFn_of_pageAt hpage] at hfn
    simp [actsOn] at hacts
    simp [applyWrite, hacts, hfn]
  | slice =>
    simp [actsOn] at hacts
    simp [applyWrite, hacts]
    omega
  | _ =>
    simp [actsOn] at hacts
    simp [applyWrite, hacts]

section

variable {s : State} {src : Source} {k : PageKind} {i a : Nat} {d : RegDesc} (v : Nat)

theorem registerWrite_unlocked (hword : a % 4 = 0) (hpage : pageAt a = some (k, i)) (hdesc : descAt k (a % 4096) = some d)
    (hacts : actsOn k i (a % 4096) = false) (hlock : pageLocked s a = false) : registerWrite s src a v = plainWrite s a v := by
  have hplain := applyWrite_eq_plainWrite s src v false hword hpage hacts
  obtain ⟨hctrl, -, -, hlockReg⟩ := header_of_not_actsOn hacts
  simp [registerWrite, hpage, hdesc, hctrl, hlockReg, hlock, hplain]

theorem registerWrite_locked (hword : a % 4 = 0) (hpage : pageAt a = some (k, i)) (hdesc : descAt k (a % 4096) = some d)
    (hacts : actsOn k i (a % 4096) = false) (hlock : pageLocked s a = true) (hlockable : d.rw ||| d.rws ||| d.rwl ≠ 0)
    (hring : ringCount k (a % 4096) = false) :
    registerWrite s src a v = plainWrite (lockViolation s a) a (lockedValue d (wordAt s a).toNat v) := by
  have hplain := applyWrite_eq_plainWrite (lockViolation s a) src (lockedValue d (wordAt s a).toNat v) true hword hpage hacts
  obtain ⟨hctrl, -, -, hlockReg⟩ := header_of_not_actsOn hacts
  simp only [registerWrite, hpage, hdesc, hctrl, hlockReg, hlock, hring, hlockable, hplain, ne_eq, not_false_eq_true, decide_true, Bool.not_false,
    Bool.and_self, if_true, if_false]

theorem windowWrite_there (f : State → State) (hon : sourceOn s src = true) (hthere : There s a k i) (hmay : mayWrite src a = true) :
    windowWrite s src a f = f s := by
  obtain ⟨-, hpage, hunit⟩ := hthere
  simp [windowWrite, hon, hpage, hunit, hmay]

/-- R354: a write without the right to the page sets the writer's DENIED. -/
theorem windowWrite_denied {n : Fin 64} (f : State → State) (hon : sourceOn s (.jf n) = true) (hthere : There s a k i)
    (hmay : mayWrite (.jf n) a = false) : windowWrite s (.jf n) a f = raiseFn s n FN_INT_DENIED := by
  obtain ⟨-, hpage, hunit⟩ := hthere
  simp [windowWrite, hon, hpage, hunit, hmay, sourceJob]

/-- R6: where no page or no unit is, a write is ignored. -/
theorem windowWrite_absent (f : State → State)
    (habsent : pageAt a = none ∨ ∃ k i, pageAt a = some (k, i) ∧ unitAbsent s k (a % 4096) = true) : windowWrite s src a f = s := by
  unfold windowWrite
  rcases habsent with hnone | ⟨k, i, hpage, hunit⟩
  · simp [hnone]
  · simp [hpage, hunit]

/-- A write that changes nothing where the source has the right to the page changes nothing. -/
theorem windowWrite_id (hmay : mayWrite src a = true) : windowWrite s src a (fun s => s) = s := by
  unfold windowWrite
  rw [hmay]
  split
  · rfl
  · split
    · rfl
    · split <;> rfl

theorem windowStore_whole (hword : a % 4 = 0) :
    windowStore s src a v true = windowWrite s src a (fun s => registerWrite s src a v) := by
  simp [windowStore, hword]

theorem windowStore_partial (hon : sourceOn s src = true) (hpage : pageAt (a / 4 * 4) ≠ none) (hmay : mayWrite src (a / 4 * 4) = true) :
    windowStore s src a v false = flagF s pgGlobal GLOBAL_WINDOW_STATUS_PARTIAL := by
  simp [windowStore, hon, hpage, windowWrite_id hmay]

end

/-! ### Locked pages (R444) -/

/-- No bit of a register is both W1C and protected by a lock, or both WO and read-write (Tables 17.2 and 17.15 to 17.19). -/
theorem accessTypes_disjoint (k : PageKind) :
    ∀ d ∈ allRegs k, d.w1c &&& (d.rw ||| d.rws ||| d.rwl) = 0 ∧ d.wo &&& (d.rw ||| d.rws) = 0 := by
  cases k <;> decide +kernel

/-- What a locked page's value clears and sets: a 1 still clears a W1C bit, and every RW and RWS bit is the old one. -/
theorem testBit_lockedValue {k : PageKind} {d : RegDesc} (hd : d ∈ allRegs k) (old v b : Nat) :
    (if d.w1c.testBit b && (lockedValue d old v).testBit b then false
      else if d.rw.testBit b || d.rws.testBit b then (lockedValue d old v).testBit b else old.testBit b) =
      if d.w1c.testBit b && v.testBit b then false else old.testBit b := by
  obtain ⟨hw1c, hwo⟩ := accessTypes_disjoint k d hd
  have hw1cb := congrArg (Nat.testBit · b) hw1c
  have hwob := congrArg (Nat.testBit · b) hwo
  simp only [Nat.testBit_and, Nat.testBit_or, Nat.zero_testBit] at hw1cb hwob
  simp only [lockedValue, Nat.testBit_and, Nat.testBit_or]
  cases hc : d.w1c.testBit b with
  | true =>
    simp [hc] at hw1cb
    simp [hw1cb]
  | false =>
    cases hr : d.rw.testBit b || d.rws.testBit b with
    | true =>
      simp [hr] at hwob
      simp [hwob]
    | false => simp

theorem descAt_mem {k : PageKind} {o : Nat} {d : RegDesc} (h : descAt k o = some d) : d ∈ allRegs k := List.mem_of_find?_eq_some h

/-- A register that a lock protects is none of those that a LOCK_VIOLATION sets. -/
theorem not_mem_violationWords {a i : Nat} {k : PageKind} {d : RegDesc} (hpage : pageAt a = some (k, i))
    (hdesc : descAt k (a % 4096) = some d) (hlockable : d.rw ||| d.rws ||| d.rwl ≠ 0) : a ∉ violationWords := by
  have hnone : ∀ a ∈ violationWords, ∀ q ∈ pageAt a, ∀ d ∈ descAt q.1 (a % 4096), d.rw ||| d.rws ||| d.rwl = 0 := by decide +kernel
  exact fun ha => hlockable (hnone a ha _ hpage d hdesc)

/-! ### Register writes (R12, R13, R14, R436, R437, R444) -/

section

variable {s : State} {src : Source} {off : BitVec 24} {k : PageKind} {i : Nat} {d : RegDesc} (v : BitVec 32)

theorem gives_registerWrite {whole : Bool} {t : State} {l : List Nat} {P : State → Prop} (h : Reaches s src)
    (hstore : windowStore s src off.toNat v.toNat whole = t) (htouches : Touches s t l)
    (hstage : getF t pgNvm NVM_FW_STATUS_STAGE = getF s pgNvm NVM_FW_STATUS_STAGE) (hP : P t) :
    Gives (.registerWrite src off v whole) s P :=
  gives_onDie (f := fun s => windowStore s src off.toNat v.toNat whole) rfl h.up hstore (quiet_of_touches h.quiet htouches hstage)
    (by rw [htouches.1]) hP

/-- A plain write of one register is a change of that register alone, bit by bit by its fields' access types. -/
theorem gives_registerWrite_unlocked (h : Reaches s src) (hthere : There s off.toNat k i) (hdesc : descAt k (off.toNat % 4096) = some d)
    (hacts : actsOn k i (off.toNat % 4096) = false) (hmay : mayWrite src off.toNat = true) (hlock : pageLocked s off.toNat = false) :
    Gives (.registerWrite src off v true) s (fun t => OneWord s t off.toNat ∧
      ∀ b, b < 32 → (wordAt t off.toNat).getLsbD b = (if d.w1c.testBit b && v.getLsbD b then false
        else if d.rw.testBit b || d.rws.testBit b then v.getLsbD b else (wordAt s off.toNat).getLsbD b)) := by
  obtain ⟨hword, hpage, hunit⟩ := hthere
  have hstore : windowStore s src off.toNat v.toNat true = plainWrite s off.toNat v.toNat := by
    rw [windowStore_whole _ hword, windowWrite_there _ h.on ⟨hword, hpage, hunit⟩ hmay]
    exact registerWrite_unlocked _ hword hpage hdesc hacts hlock
  have htouches := touches_plainWrite s off.toNat v.toNat
  refine gives_registerWrite v h hstore htouches (stage_plainWrite ..) ⟨?_, fun b hb => ?_⟩
  · rw [plainWrite_eq _ hpage hdesc]
    exact oneWord_setWord ..
  · simpa only [BitVec.testBit_toNat] using wordAt_plainWrite_bit v.toNat hpage hdesc (keepFields_of_not_actsOn hpage hacts) hb

/-- On a locked page the W1C bits alone follow the write, and the LOCK_VIOLATION is reported. -/
theorem gives_registerWrite_locked (h : Reaches s src) (hthere : There s off.toNat k i) (hdesc : descAt k (off.toNat % 4096) = some d)
    (hacts : actsOn k i (off.toNat % 4096) = false) (hmay : mayWrite src off.toNat = true) (hlock : pageLocked s off.toNat = true)
    (hlockable : d.rw ||| d.rws ||| d.rwl ≠ 0) (hring : ringCount k (off.toNat % 4096) = false) :
    Gives (.registerWrite src off v true) s (fun t =>
      (∀ b, b < 32 → (wordAt t off.toNat).getLsbD b =
        (if d.w1c.testBit b && v.getLsbD b then false else (wordAt s off.toNat).getLsbD b)) ∧
      getF t pgGlobal GLOBAL_LOCK_INFO_PAGE = off.toNat / 4096 ∧ getF t pgGlobal GLOBAL_LOCK_INFO_OFFSET = off.toNat % 4096 ∧
      fnF t 0 FN_INT_LOCK_VIOLATION = 1) := by
  obtain ⟨hword, hpage, hunit⟩ := hthere
  have hstore : windowStore s src off.toNat v.toNat true =
      plainWrite (lockViolation s off.toNat) off.toNat (lockedValue d (wordAt s off.toNat).toNat v.toNat) := by
    rw [windowStore_whole _ hword, windowWrite_there _ h.on ⟨hword, hpage, hunit⟩ hmay]
    exact registerWrite_locked _ hword hpage hdesc hacts hlock hlockable hring
  have hviolation := touches_lockViolation s off.toNat
  have hwrite := touches_plainWrite (lockViolation s off.toNat) off.toNat (lockedValue d (wordAt s off.toNat).toNat v.toNat)
  have hother := not_mem_violationWords hpage hdesc hlockable
  obtain ⟨hinfoPage, hinfoOffset, hflag⟩ := lockViolation_reports s off.isLt
  have hreport : ∀ b ∈ violationWords, b ∉ [off.toNat] := fun b hb hoff => hother (List.mem_singleton.mp hoff ▸ hb)
  refine gives_registerWrite v h hstore (touches_trans hviolation hwrite) ?_ ⟨fun b hb => ?_, ?_, ?_, ?_⟩
  · rw [stage_plainWrite, getF_of_touches hviolation (by decide)]
  · rw [wordAt_plainWrite_bit _ hpage hdesc (keepFields_of_not_actsOn hpage hacts) hb, hviolation.2 _ hother]
    simpa only [BitVec.testBit_toNat] using testBit_lockedValue (descAt_mem hdesc) (wordAt s off.toNat).toNat v.toNat b
  · exact (getF_of_touches hwrite (hreport _ (by decide))).trans hinfoPage
  · exact (getF_of_touches hwrite (hreport _ (by decide))).trans hinfoOffset
  · exact (getF_of_touches hwrite (hreport _ (by decide))).trans hflag

theorem gives_registerWrite_partial (h : Reaches s src) (hpage : pageAt (off.toNat / 4 * 4) ≠ none)
    (hmay : mayWrite src (off.toNat / 4 * 4) = true) :
    Gives (.registerWrite src off v false) s (fun t => getF t pgGlobal GLOBAL_WINDOW_STATUS_PARTIAL = 1 ∧ OneWord s t 0x050) := by
  have htouches := touches_setF s pgGlobal GLOBAL_WINDOW_STATUS_PARTIAL 1
  have hset : getF (flagF s pgGlobal GLOBAL_WINDOW_STATUS_PARTIAL) pgGlobal GLOBAL_WINDOW_STATUS_PARTIAL = 1 :=
    getF_setF_same _ _ _ _ (by decide) (by decide)
  exact gives_registerWrite v h (windowStore_partial _ h.on hpage hmay) htouches (getF_of_touches htouches (by decide))
    ⟨hset, oneWord_setWord ..⟩

theorem gives_registerWrite_denied {n : Fin 64} (h : Reaches s (.jf n)) (hthere : There s off.toNat k i)
    (hmay : mayWrite (.jf n) off.toNat = false) :
    Gives (.registerWrite (.jf n) off v true) s (fun t => fnF t n FN_INT_DENIED = 1 ∧
      (∀ a, a ≠ pgFn n + FN_INT_DENIED.off → wordAt t a = wordAt s a) ∧
      t = { s with regs := t.regs, msi := t.msi, msiLast := t.msiLast, msiPend := t.msiPend }) := by
  have hstore : windowStore s (.jf n) off.toNat v.toNat true = raiseFn s n FN_INT_DENIED := by
    rw [windowStore_whole _ hthere.1, windowWrite_denied _ h.on hthere hmay]
  have htouches := touches_raiseFn s n FN_INT_DENIED
  have hstage : pgNvm + NVM_FW_STATUS_STAGE.off ∉ [pgFn n + FN_INT_DENIED.off] := by
    simp only [List.mem_singleton, pgNvm, pgFn, NVM_FW_STATUS_STAGE]
    omega
  refine gives_registerWrite v h hstore htouches (getF_of_touches htouches hstage) ⟨fnF_raiseFn _ _ rfl (by decide), ?_, htouches.1⟩
  exact fun a ha => htouches.2 a (by simpa using ha)

theorem ignores_registerWrite_absent (h : Reaches s src) (hword : off.toNat % 4 = 0)
    (habsent : pageAt off.toNat = none ∨ ∃ k i, pageAt off.toNat = some (k, i) ∧ unitAbsent s k (off.toNat % 4096) = true) :
    Ignores (.registerWrite src off v true) s := by
  have hstore : windowStore s src off.toNat v.toNat true = s := by rw [windowStore_whole _ hword, windowWrite_absent _ habsent]
  obtain ⟨t, hexec, rfl⟩ := gives_registerWrite (P := (· = s)) v h hstore (touches_refl s) rfl rfl
  exact hexec

end

/-- Settles O27: a write leads to a plain write of its register, after the LOCK_VIOLATION on a locked page; or to one flag; or nowhere. -/
theorem registerWritesByAccessType : Obligations.RegisterWritesByAccessType := by
  intro src off v s h
  refine ⟨fun k i d hthere hdesc hacts hmay => ⟨?_, ?_⟩, gives_registerWrite_partial v h, ?_, ignores_registerWrite_absent v h⟩
  · exact gives_registerWrite_unlocked v h hthere hdesc hacts hmay
  · exact gives_registerWrite_locked v h hthere hdesc hacts hmay
  · rintro n k i rfl hthere hmay
    exact gives_registerWrite_denied v h hthere hmay

end Sys2Proof.Proofs

/-!
SUPPORT and CLAIM. What every step keeps: the byte memories of the die in canonical form. `MemOk` says it field by field; each function of the
model that gives a state keeps it (one lemma per function, in the order in which the model builds them, under the function's own name), since
every write of the deep tier, the near tier and the data SRAMs goes through `memWriteN` and `memZero`; a step is then one function among them.
-/

namespace Sys2Proof.Proofs
open Sys2Proof Sys2Proof.Machine Sys2Proof.Claims Sys2Proof.Laws

/-- The data SRAM of a core is in canonical form. -/
def SramOk (c : CoreSt) : Prop := memWf c.sram = true

/-- The byte memories in canonical form, one field for each (`memOk_iff` ties it to `Memory.wf`). -/
structure MemOk (s : State) : Prop where
  deep : memWf s.deep = true
  near : memWf s.near = true
  cores : ∀ e ∈ s.cores, SramOk e.2

theorem memOk_iff {s : State} : MemOk s ↔ Memory.wf s = true := by
  simp only [Memory.wf, Bool.and_eq_true, List.all_eq_true]
  exact ⟨fun h => ⟨⟨h.deep, h.near⟩, h.cores⟩, fun h => ⟨h.1.1, h.1.2, h.2⟩⟩

namespace SramOk

variable {c : CoreSt} {r v : Nat}

theorem setS (h : SramOk c) : SramOk (setS c r v) := by
  unfold Machine.setS
  split
  · exact h
  · exact h

theorem incremented (h : SramOk c) (up : Bool) : SramOk (if up then Machine.setS c r v else c) := by
  split
  · exact h.setS
  · exact h

theorem setV (h : SramOk c) : SramOk (setV c r v) := h

theorem setLm (h : SramOk c) : SramOk (setLm c r v) := by
  unfold Machine.setLm
  split
  · exact h
  · exact h

theorem applyA {w : AWrite} {vec : Option (Nat × Nat)} (h : SramOk c) : SramOk (applyA c w vec) := by
  unfold Machine.applyA
  have hport : SramOk (match w with
    | .none => c
    | .vec d v => Machine.setV c d v
    | .mask d v => Machine.setLm c d v
    | .tile t v => setTileReg c t v
    | .mode f => { c with mode := f }) := by
    cases w with
    | none | vec | tile | mode => exact h
    | mask => exact h.setLm
  dsimp only
  split
  · split
    · exact hport
    · exact hport
  · exact hport
  · exact hport

theorem write {bs : List Byte} (h : SramOk c) (a : Nat) : memWf (memWriteN c.sram a bs) = true := memWriteN_wf _ _ h

theorem runSram {params step ctx : List Byte} (h : SramOk c) : memWf (runSram c.sram params step ctx) = true :=
  memWriteN_wf _ _ (memWriteN_wf _ _ (memWriteN_wf _ _ (memWriteN_wf _ _ (memZero_wf _ _ (memZero_wf _ _ h)))))

end SramOk

namespace MemOk

theorem upd {s : State} (h : MemOk s) {pending variant regs inForce fns seals ticks counter posted hostDown msi msiLast msiPend egress
  sent
    dlbUsed poisons waits resends requests bags held accs updates landPkts parked tc2Held landSeq loadWaits tokens deficit turn arbTick
      fnTurn
    fnDeficit agenda heldOnce lineOut deepWrites pushes ring twin watch ranks beatAt msgs puts marginWindows margins floor hold pfail line
      mon
    integ nvm pwr vfs latch rwl answer} :
    MemOk { s with
      pending, variant, regs, inForce, fns, seals, ticks, counter, posted, hostDown, msi, msiLast, msiPend, egress, sent,
      dlbUsed, poisons, waits, resends, requests, bags, held, accs, updates, landPkts, parked, tc2Held, landSeq, loadWaits, tokens,
        deficit,
      turn, arbTick, fnTurn, fnDeficit, agenda, heldOnce, lineOut, deepWrites, pushes, ring, twin, watch, ranks, beatAt, msgs, puts,
      marginWindows, margins, floor, hold, pfail, line, mon, integ, nvm, pwr, vfs, latch, rwl, answer } :=
  ⟨h.deep, h.near, h.cores⟩

theorem branch {c : Prop} [Decidable c] {s t : State} (hs : MemOk s) (ht : MemOk t) : MemOk (if c then s else t) := by
  split
  · exact hs
  · exact ht

theorem branch₁ {α : Type} {c : Prop} [Decidable c] {s t : State × α} (hs : MemOk s.1) (ht : MemOk t.1) :
    MemOk (if c then s else t).1 := by
  split
  · exact hs
  · exact ht

theorem branchPair {α : Type} {c : Prop} [Decidable c] {s t : State} {x y : α} (hs : MemOk s) (ht : MemOk t) :
    MemOk (if c then (s, x) else (t, y)).1 := branch₁ hs ht

theorem dbranch {c : Prop} [Decidable c] {f : c → State} {g : ¬c → State} (hf : ∀ x, MemOk (f x)) (hg : ∀ x, MemOk (g x)) :
    MemOk (if x : c then f x else g x) := by
  split
  · exact hf _
  · exact hg _

theorem pair {α : Type} {p : State × α} {f : State → α → State} (hp : MemOk p.1) (hf : ∀ t x, MemOk t → MemOk (f t x)) :
    MemOk (match (generalizing := false) p with | (t, x) => f t x) := hf _ _ hp

theorem fold {α : Type} {s : State} {f : State → α → State} {l : List α} (h : MemOk s) (hf : ∀ t x, MemOk t → MemOk (f t x)) :
    MemOk (l.foldl f s) := by
  induction l generalizing s with
  | nil => exact h
  | cons x l ih => exact ih (hf s x h)

theorem fold₁ {α β : Type} {q : State × β} {f : State × β → α → State × β} {l : List α} (h : MemOk q.1)
    (hf : ∀ t x, MemOk t.1 → MemOk (f t x).1) : MemOk (l.foldl f q).1 := by
  induction l generalizing q with
  | nil => exact h
  | cons x l ih => exact ih (hf q x h)

theorem withDeep {s : State} {d : Mem} (h : MemOk s) (hd : memWf d = true) : MemOk { s with deep := d } := ⟨hd, h.near, h.cores⟩

theorem withNear {s : State} {d : Mem} (h : MemOk s) (hd : memWf d = true) : MemOk { s with near := d } := ⟨h.deep, hd, h.cores⟩

theorem withCores {s : State} {d : Tab CoreSt} (h : MemOk s) (hd : ∀ e ∈ d, SramOk e.2) :
    MemOk { s with cores := d } := ⟨h.deep, h.near, hd⟩

theorem sram {s : State} (h : MemOk s) (i : Nat) : SramOk (coreSt s i) := by
  unfold coreSt tabGet
  cases hfind : tabFind s.cores i with
  | none => exact memWf_nil
  | some c => exact h.cores _ (tabFind_mem hfind)

theorem some_mem {t : State} (h : MemOk t) : ∀ u ∈ some t, MemOk u := fun _ hu => Option.mem_some_iff.mp hu ▸ h

theorem none_mem : ∀ u ∈ (none : Option State), MemOk u := fun _ hu => nomatch hu

theorem pairOf {α : Type} {s : State} {x : α} (h : MemOk s) : MemOk (s, x).1 := h

/-- The state of a pair that a `match` has named. -/
theorem fst_of_eq {α : Type} {p : State × α} {t : State} {x : α} (heq : p = (t, x)) (hp : MemOk p.1) : MemOk t := by
  subst heq
  exact hp

theorem branchRow {c : Prop} [Decidable c] {p q : RowResult} (hp : MemOk p.state) (hq : MemOk q.state) :
    MemOk (if c then p else q).state := by
  split
  · exact hp
  · exact hq

variable {_e body bs bytes data e msg old payload raw : List Byte} {a addr area block c cause ch code core cval detail die dst : Nat}
   {entry eraseBad flags fnThere fpa gen holder i id j kind layout leaf len m mask member mode n o off op pg pos reason rest row : Nat}
   {sched seq serial sl slice slot stage stamp status strap sub subj tag target tc tensor ticks type v vec word : Nat} {alone : Bool}
   {bad fromLine late load locked ok readable residue room selfCheck sends toOff : Bool} {at_ : Issue} {b : HostRead} {d : Landing}
   {f : VForm} {fails vals : List Nat} {fromDie via : Option Nat} {g : GroupEntry} {image : Option (List Byte)} {imgs : RowImages}
   {k : ActAt} {l : LeafRef} {mine theirs : TwinPend} {owner : BlockOwner} {p : Packet} {r : CoreRun} {rows : RowSet} {s : State}
   {src : Source} {t : PutStage} {u : Upset} {w : Wait} {x : FnSt}

theorem advance (h : MemOk s) : MemOk (advance s n) := h.upd

theorem idle (h : MemOk s) : MemOk (idle s) := branch h.advance h

theorem sendPacket (h : MemOk s) : MemOk (sendPacket s p) := h.upd

theorem respond (h : MemOk s) : MemOk (respond s p type status bytes) := h.sendPacket

theorem rangeWrite (h : MemOk s) : MemOk (rangeWrite s n off bs) := h.withDeep (memWriteN_wf _ _ h.deep)

theorem emitWcAt {m : Manifest} {step : Nat} {w : Nat} (h : MemOk s) : MemOk (emitWcAt s n m l body step w) :=
  branch h (branch h.rangeWrite.rangeWrite h.rangeWrite)

theorem formerCopies (h : MemOk s) : MemOk (formerCopies s n m off len rows) := by
  fun_cases Machine.formerCopies
  · refine fold (h.withDeep memWf_nil) fun t j h => ?_
    split
    · split
      · exact h
      · split
        · exact branch h.emitWcAt h.emitWcAt.emitWcAt
        · exact h
    · exact h
  · exact h

theorem rangeLoad (h : MemOk s) : MemOk (rangeLoad s p via rows readable) := by
  fun_cases Machine.rangeLoad
  exacts [h.respond, h.respond, h.respond, h.respond, h.respond, h.upd, h.respond]

theorem answerWaits (h : MemOk s) : MemOk (answerWaits s) := fold h.upd (fun _ _ h => branch h.rangeLoad h.respond)

theorem modNvm {f : NvmSt → NvmSt} (h : MemOk s) : MemOk (modNvm s f) := h.upd

theorem setWord {w : Word} (h : MemOk s) : MemOk (setWord s a w) := h.upd

theorem setF {f : Fld} (h : MemOk s) : MemOk (setF s pg f v) := h.setWord

theorem flagF {f : Fld} (h : MemOk s) : MemOk (flagF s pg f) := h.setF

theorem logWrite (h : MemOk s) : MemOk (logWrite s code data) := ((branch h.flagF h).upd).setF

theorem fwStage (h : MemOk s) : MemOk (fwStage s stage slot) := branch h h.setF.logWrite

theorem hostWrite (h : MemOk s) : MemOk (hostWrite s n addr bs) := branch h h.upd

theorem msiRequest (h : MemOk s) : MemOk (msiRequest s n vec) := by
  fun_cases Machine.msiRequest <;> exact h.upd

theorem raiseFn {f : Fld} (h : MemOk s) : MemOk (raiseFn s n f) := branch h.flagF.msiRequest h.flagF

theorem setFnF {f : Fld} (h : MemOk s) : MemOk (setFnF s n f v) := h.setF

theorem cplWrite {c : Cpl} (h : MemOk s) : MemOk (cplWrite s n c) := h.hostWrite.setFnF.raiseFn

theorem setFnSt (h : MemOk s) : MemOk (setFnSt s n x) := h.upd

theorem modFn {f : FnSt → FnSt} (h : MemOk s) : MemOk (modFn s n f) := h.setFnSt

theorem complete (h : MemOk s) : MemOk (complete s n tag op status detail) := branch h.upd (branch h.cplWrite h.modFn)

theorem addF {f : Fld} {k : Nat} (h : MemOk s) : MemOk (addF s pg f k) := h.setF

theorem evWrite {e : Nat} (h : MemOk s) : MemOk (evWrite s n code e payload) :=
  branch h.modFn.addF.raiseFn (((fold h.modFn (fun _ _ h => h.hostWrite)).setFnF).raiseFn)

theorem evMarker (h : MemOk s) : MemOk (evMarker s n) := branch h.setFnF.evWrite h

theorem postEvent (h : MemOk s) : MemOk (postEvent s n code payload) :=
  branch h.upd (branch h.evMarker.evWrite h.evMarker.modFn.addF.raiseFn)

theorem sendFife {form : List Byte} (h : MemOk s) : MemOk (sendFife s n entry form payload) := h.sendPacket

theorem setColl {c : Coll} (h : MemOk s) : MemOk (setColl s n off c) := h.modFn.setFnF

theorem lineDrop (h : MemOk s) : MemOk (lineDrop s slot seq) := h.upd

theorem collEnd (h : MemOk s) : MemOk (collEnd s n off) := h.lineDrop.setColl

theorem collCancel (h : MemOk s) : MemOk (collCancel s n off status) := branch ((fold h (fun _ _ h => h.sendFife)).collEnd) h

theorem bgComplete (h : MemOk s) : MemOk (bgComplete s n op status detail) := by
  fun_cases Machine.bgComplete
  exacts [h, h.modFn.complete]

theorem todo {t : Todo} (h : MemOk s) : MemOk (todo s t) := h.upd

theorem cancelAll (h : MemOk s) : MemOk (cancelAll s n) :=
  branch (branch ((fold h (fun _ _ h => h.collCancel)).bgComplete) (fold h (fun _ _ h => h.collCancel)))
    ((((branch ((fold h (fun _ _ h => h.collCancel)).bgComplete) (fold h (fun _ _ h => h.collCancel))).modFn).bgComplete).todo)

theorem migrationDrop (h : MemOk s) : MemOk (migrationDrop s n) := by
  fun_cases Machine.migrationDrop
  exacts [h, h.modFn.setFnF.bgComplete, h]

theorem schedStop (h : MemOk s) : MemOk (schedStop s n) := h.modFn.setFnF.setFnF

theorem dropHold (h : MemOk s) : MemOk (dropHold s n) := h.modFn.setFnF.setFnF

theorem dropCores (h : MemOk s) : MemOk (dropCores s n) := by
  refine h.withCores fun e he => ?_
  obtain ⟨c, hc, rfl⟩ := List.mem_map.mp he
  have hsram := h.cores c hc
  dsimp only
  split
  · split <;> exact hsram
  · split
    · split <;> exact hsram
    · exact hsram

theorem sendCloses (h : MemOk s) : MemOk (sendCloses s n) := branch h (fold h (fun _ _ h => fold h (fun _ _ h => h.sendPacket)))

theorem putWait {old : Wait} {new : Wait} (h : MemOk s) : MemOk (putWait s old new) := h.upd

theorem raiseUnit {f : Fld} (h : MemOk s) : MemOk (raiseUnit s pg f) := branch h.flagF.msiRequest h.flagF

theorem errBit {f : Fld} (h : MemOk s) : MemOk (errBit s f pg) := branch h.flagF.raiseUnit h.flagF

theorem errSlice {f : Fld} (h : MemOk s) : MemOk (errSlice s f sl) := h.errBit.errBit.errBit

theorem errUnit {f : Fld} (h : MemOk s) : MemOk (errUnit s f pg) := branch h.errBit h.errBit.errBit

theorem sendReceipt {src : Nat} {areaB : Nat} {par : Nat} (h : MemOk s) :
    MemOk (sendReceipt s n dst src fnThere row stamp areaB holder par status tag) :=
  branch h ((branch (branch h h.addF) ((branch h h.addF).errUnit)).sendPacket)

theorem answerReceipt (h : MemOk s) : MemOk (answerReceipt s n p status) := h.sendReceipt

theorem notePoison (h : MemOk s) : MemOk (notePoison s sl) := branch h.addF.upd.errUnit.flagF.postEvent h.addF.upd.errUnit

theorem flushHold (h : MemOk s) : MemOk (flushHold s sl) := fold h.upd.errSlice (fun _ _ h => h.notePoison.answerReceipt)

theorem wordsAt (h : MemOk s) : MemOk (wordsAt s a bs n) := by
  induction n generalizing s with
  | zero => exact h
  | succ n ih => exact ih h.setWord

theorem bin (h : MemOk s) : MemOk (bin s p cause slice) :=
  branch (((((branch h.wordsAt.upd.flagF h.wordsAt.upd).setF).addF).errUnit).postEvent)
    ((((branch h.wordsAt.upd.flagF h.wordsAt.upd).setF).addF).errUnit)

theorem poisoned (h : MemOk s) : MemOk (poisoned s sl n p) := h.notePoison.answerReceipt

theorem maxF {f : Fld} (h : MemOk s) : MemOk (maxF s pg f v) := h.setF

theorem showBags (h : MemOk s) : MemOk (showBags s sl) := h.setF.maxF

theorem release {p : Nat} (h : MemOk s) : MemOk (release s sl n area gen row p) := h.upd.showBags

theorem dropWait (h : MemOk s) : MemOk (dropWait s w) := h.upd

theorem waitSettled (h : MemOk s) : MemOk (waitSettled s w) := by
  fun_cases Machine.waitSettled
  exacts [h.dropWait, h, h.dropWait.todo, h.todo, h.dropWait.todo, h]

theorem nearWrite (h : MemOk s) : MemOk (nearWrite s a bs) := h.withNear (memWriteN_wf _ _ h.near)

theorem ledgerReceipt {p : Nat} (h : MemOk s) : MemOk (ledgerReceipt s w p) := by
  fun_cases Machine.ledgerReceipt
  exacts [h.nearWrite, h, h]

theorem applyWritten {p : Nat} (h : MemOk s) : MemOk (applyWritten s w holder p) := h.putWait.ledgerReceipt.waitSettled

theorem sendReceipts {b : Bag} (h : MemOk s) : MemOk (sendReceipts s b g) :=
  fold h (fun _ _ h => branch (by split; exacts [h.applyWritten, h]) h.sendReceipt)

theorem sealStray (h : MemOk s) : MemOk (sealStray s) := h.flagF.addF.errUnit

theorem setSeal {o : SealObj} (h : MemOk s) : MemOk (setSeal s i o) := h.upd

theorem sealArrive (h : MemOk s) : MemOk (sealArrive s i a) := branch h.sealStray (branch h.setSeal.todo h.setSeal)

theorem groupArrive (h : MemOk s) : MemOk (groupArrive s n) := by
  fun_cases Machine.groupArrive
  exacts [h.sealArrive, h, h]

theorem finishRow {b : Bag} (h : MemOk s) : MemOk (finishRow s b) := by
  fun_cases Machine.finishRow
  exacts [h, h.sendReceipts.release.modFn.groupArrive, h.sendReceipts.release.modFn]

theorem sweepMark {ordinal : Nat} (h : MemOk s) : MemOk (sweepMark s n ordinal v) := h.modFn

theorem devPut {r : List Byte} (h : MemOk s) : MemOk (devPut s n r) := h.hostWrite.setFnF

theorem devOverflow (h : MemOk s) : MemOk (devOverflow s n) := branch h.setFnSt.devPut h

theorem deviation {since : Nat} {skipped : Nat} (h : MemOk s) :
    MemOk (deviation s n cause slice core sched detail since pos skipped) := by
  unfold Machine.deviation
  extract_lets s₁ x r s₂ s₃ s₄
  have h₂ : MemOk s₂ := h.devOverflow.setFnSt
  have h₄ : MemOk s₄ := addF (branch h₂.addF h₂)
  exact branch (branch h₄.modFn h₄.addF.modFn) (branch h₄.devPut h₄.addF.modFn)

theorem slip (h : MemOk s) : MemOk (slip s n cause slice core sched detail) := h.deviation

theorem pushBefore (h : MemOk s) : MemOk (pushBefore s n m area gen j) := by
  fun_cases Machine.pushBefore
  exacts [h, h, h, h, h.sweepMark, h.sweepMark, (((branch ((branch h.slip h).flagF) (branch h.slip h)).upd).sweepMark).modFn]

theorem slotWrite (h : MemOk s) : MemOk (slotWrite s n area gen row bs) := by
  fun_cases Machine.slotWrite
  exacts [h, h.rangeWrite]

theorem mirrorNote (h : MemOk s) : MemOk (mirrorNote s n m area gen j) := by
  fun_cases Machine.mirrorNote
  exacts [h.modFn, h, h]

theorem foldStep {slot : List Byte} (h : MemOk s) : MemOk (foldStep s n m j slot) := branch h.setFnSt h

theorem heldWrite {slot : List Byte} (h : MemOk s) : MemOk (heldWrite s n m area gen j slot) := by
  refine branch (c := area = 0) (foldStep ?_) ?_
  all_goals exact mirrorNote (branch h.pushBefore.slotWrite (h.pushBefore.withDeep (memWriteN_wf _ _ h.pushBefore.deep)))

theorem writeHole {b : Bag} (h : MemOk s) : MemOk (writeHole s b old) := by
  fun_cases Machine.writeHole
  exacts [h.heldWrite, h]

theorem rowProgress {b : Bag} (h : MemOk s) : MemOk (rowProgress s b) := by
  fun_cases Machine.rowProgress
  exacts [h.finishRow, h.writeHole.finishRow, h, h, h]

theorem putBag {b : Bag} (h : MemOk s) : MemOk (putBag s b) := h.upd

theorem foldInto {b : Bag} (h : MemOk s) : MemOk (foldInto s b p) := by
  fun_cases Machine.foldInto
  exacts [h.upd.addF, h.upd.putBag.rowProgress]

theorem countHeld (h : MemOk s) : MemOk (countHeld s sl p) := branch h h.addF.slip

theorem reserve {p : Nat} {decode : Bool} (h : MemOk s) : ∀ t ∈ reserve s sl n area gen row p load decode, MemOk t := by
  unfold Machine.reserve
  split
  · exact none_mem
  · exact some_mem h.upd.showBags

theorem admitFold (h : MemOk s) : MemOk (admitFold s sl n p) := by
  unfold Machine.admitFold
  dsimp only
  split
  · exact h.foldInto
  · refine branch h.answerReceipt (branch (branch h.upd h.countHeld.upd.answerReceipt) ?_)
    split
    next hreserve =>
      have hbag : MemOk _ := reserve h _ (Option.mem_ite_none_left.mp hreserve).2
      split
      · exact hbag.foldInto
      · exact hbag
    · exact branch h.countHeld.upd h.countHeld.upd.answerReceipt

theorem recvCoding (h : MemOk s) : MemOk (recvCoding s p u) := by
  unfold Machine.recvCoding
  extract_lets sl n s₁ s₂ x placed
  have h₁ : MemOk s₁ := branch h h.errSlice
  have h₂ : MemOk s₂ := branch h₁.flushHold h₁
  split
  · exact h₂.bin
  · exact h₂.answerReceipt
  · exact branch h₂.poisoned h₂.admitFold

theorem localFolds {ps : List Packet} (h : MemOk s) : MemOk (localFolds s ps) := fold h (fun _ _ h => branch h.recvCoding h)

theorem errFn {f : Fld} (h : MemOk s) : MemOk (errFn s f n) := h.errBit.errBit

theorem routeInvalid (h : MemOk s) : MemOk (routeInvalid s n id) := h.flagF.errFn.postEvent

theorem sendTo {k : Nat} {q : WaitHolder} (h : MemOk s) : MemOk (sendTo s w k n q) :=
  branch h (branch h.routeInvalid (branch h.sendPacket (branch h.sendPacket (fold h (fun _ _ h => h.sendPacket)))))

theorem sendWait (h : MemOk s) : MemOk (sendWait s w tc) := fold h.putWait (fun _ _ h => branch h (branch h.localFolds h.sendTo))

theorem drainSend (h : MemOk s) : MemOk (drainSend s n) := fold ((fold h (fun _ _ h => h.sendWait)).upd) (fun _ _ h => h.sendPacket)

theorem passAbort {group : Bool} {stops : Bool} (h : MemOk s) : MemOk (passAbort s n group alone stops) :=
  (((branch h.migrationDrop.flagF.addF.setFnF.setFnF.modFn.dropCores.dropHold.schedStop
    h.migrationDrop.flagF.addF.setFnF.setFnF.modFn.dropCores.dropHold.schedStop.drainSend.sendCloses).upd).modFn).todo

theorem abortOver (h : MemOk s) : MemOk (abortOver s n) := h.modFn

theorem showLines (h : MemOk s) : MemOk (showLines s sl) := h.setF

theorem showParking (h : MemOk s) : MemOk (showParking s n) := h.setFnF

theorem discardLanded (h : MemOk s) : MemOk (discardLanded s n) := ((fold h.upd (fun _ _ h => h.showLines)).modFn).showParking

theorem lineQueue {frames : List Nat} (h : MemOk s) : MemOk (lineQueue s kind slot seq frames) := h.upd

theorem sendVals {count : Nat} {value : Nat} (h : MemOk s) : MemOk (sendVals s n entry kind slot seq layout count status value vals) :=
  branch h.sendFife h.sendFife.sendFife

theorem collResult (h : MemOk s) : MemOk (collResult s n off status cval vals) :=
  branch ((fold h (fun _ _ h => h.sendVals)).lineQueue) ((fold h (fun _ _ h => h.sendVals)).todo)

theorem collCombine (h : MemOk s) : MemOk (collCombine s n off) := by
  fun_cases Machine.collCombine
  exacts [h, h.setColl.collResult, h.setColl.sendVals, h.setColl, h]

theorem collOpen (h : MemOk s) : MemOk (collOpen s n off layout vals) := branch h.todo (branch h.setColl.lineQueue h.setColl.collCombine)

theorem partialsCheck (h : MemOk s) : MemOk (partialsCheck s n) := branch h.modFn.collOpen h

theorem lockViolation (h : MemOk s) : MemOk (lockViolation s a) := ((((branch h.flagF h).setF).setF).raiseFn).errUnit

theorem sealArm {expected : Nat} (h : MemOk s) : MemOk (sealArm s n i expected) :=
  branch h.flagF.lockViolation.errUnit (branch h.setSeal.todo h.setSeal)

theorem armBuckets (h : MemOk s) : MemOk (armBuckets s n) := fold h (fun _ _ h => branch h.sealArm.sealArm h.sealArm)

theorem stepAbort (h : MemOk s) : MemOk (stepAbort s n) :=
  branch h.migrationDrop
    h.migrationDrop.discardLanded.flagF.modFn.schedStop.setFnF.setFnF.setFnF.setFnF.modFn.armBuckets.postEvent.partialsCheck

theorem bugleAct (h : MemOk s) : MemOk (bugleAct s n cause alone) := by
  unfold Machine.bugleAct
  extract_lets serial s₁ s₂ s₃ s₄
  have h₃ : MemOk s₃ := h.setFnF.flagF.setFnF.cancelAll
  have h₄ : MemOk s₄ := branch h₃.setFnF (branch h₃.setFnF h₃)
  exact branch h₄.setFnF.abortOver.passAbort h₄.stepAbort

theorem membStore {m : List Byte} (h : MemOk s) : MemOk (membStore s dst m) := branch h h.sendPacket

theorem membAck {m : List Byte} (h : MemOk s) : MemOk (membAck s n m status) := branch h h.membStore

theorem membSend {b : MembBody} (h : MemOk s) : MemOk (membSend s n dst b) := h.modFn.upd.membStore

theorem reportTo {e : Nat} (h : MemOk s) : MemOk (reportTo s n e) := h.membSend

theorem showRecord (h : MemOk s) : MemOk (showRecord s n) := h.setFnF.setFnF.setFnF.setFnF.setFnF.setFnF.setFnF.setFnF.setFnF.setFnF

theorem xferStart (h : MemOk s) : MemOk (xferStart s n mode subj target) := h.modFn.showRecord

theorem transferDrop (h : MemOk s) : MemOk (transferDrop s n) := by
  unfold Machine.transferDrop
  exact (branch h.upd.setFnF.setFnF.setFnF.setFnF h.upd).modFn

theorem modFloor {f : FloorSt → FloorSt} (h : MemOk s) : MemOk (modFloor s f) := h.upd

theorem freeOwned (h : MemOk s) : MemOk (freeOwned s id) := h.modFloor

theorem modSnap {g : SnapEnt → SnapEnt} (h : MemOk s) : MemOk (modSnap s id g) := h.modFloor

theorem showFloor (h : MemOk s) : MemOk (showFloor s) := h.setF.setF.setF.setF.setF

theorem showSnap (h : MemOk s) : MemOk (showSnap s n) := by
  fun_cases Machine.showSnap
  exacts [h, h.setFnF.setFnF.setFnF.setFnF.setFnF.setFnF, h.setFnF.setFnF.setFnF.setFnF.setFnF.setFnF]

theorem snapCommand {step : Nat} (h : MemOk s) : MemOk (snapCommand s n step status detail) := by
  fun_cases Machine.snapCommand
  exacts [h.modFn.bgComplete, h, h]

theorem sweepAbandon (h : MemOk s) : MemOk (sweepAbandon s n) := by
  fun_cases Machine.sweepAbandon
  exacts [h, h.modSnap.freeOwned.upd.modFloor.modFn.flagF.errFn.postEvent.snapCommand.showSnap.showFloor]

theorem setPend {l : List TwinPend} (h : MemOk s) : MemOk (setPend s l) := h.upd.setF

theorem twinOff (h : MemOk s) : MemOk (twinOff s) := h.addF.upd.setF.setPend

theorem twinDisarm (h : MemOk s) : MemOk (twinDisarm s n) := branch ((branch h.twinOff h).upd) h

theorem markUnrebuilt {old : FnSt} (h : MemOk s) : MemOk (markUnrebuilt s n old mode subj) :=
  branch h.modFn.setFnF h.modFn.setFnF.setFnF.setFnF.setFnF

theorem freeFrames {old new : FnSt} (h : MemOk s) : MemOk (freeFrames s n m old new) :=
  fold h fun _ _ h => branch (h.withDeep (memZero_wf _ _ h.deep)) h

theorem openIntake {attempt : Nat} (h : MemOk s) : MemOk (openIntake s n attempt) :=
  h.modFn.setFnF.setFnF.setFnF.schedStop.setFnF.armBuckets.partialsCheck

theorem takeOver {m : List Byte} {switch : Bool} (h : MemOk s) : MemOk (takeOver s n m switch) := by
  unfold Machine.takeOver
  extract_lets s₁ t s₂ s₃ s₄ s₅
  have h₃ : MemOk s₃ := (fold h fun _ _ h => h.setColl).modFn.setFnF.setFnF
  exact branch h₃ (branch h₃.openIntake (branch h₃.openIntake.setFnF.modFn h₃.setFnF.setFnF.modFn.todo))

theorem showSuspects (h : MemOk s) : MemOk (showSuspects s) := fold h.setF (fun _ _ h => branch h h.setFnF)

theorem watchUpdate (h : MemOk s) : MemOk (watchUpdate s) := by
  unfold Machine.watchUpdate
  exact h.upd.setF.showSuspects

theorem collReform (h : MemOk s) :
    MemOk (collReform s n off) := branch (branch h.addF.lineDrop.setColl.collOpen h.addF.lineDrop.setColl) h

theorem reformAll {setChanged : Bool} (h : MemOk s) : MemOk (reformAll s n setChanged) := by
  unfold Machine.reformAll
  extract_lets s₁ aborts s₂ s₃
  have h₂ : MemOk s₂ := branch h.collReform.collReform.collReform h.collReform
  have h₃ : MemOk s₃ := h₂.collReform.collReform.collReform
  exact branch (branch h₃.collCancel.modFn.bgComplete.todo h₃) h₂

theorem bumpIntake (h : MemOk s) : MemOk (bumpIntake s n) := by
  fun_cases Machine.bumpIntake
  exacts [h, fold (fold h.modFn (fun _ _ h => h.release))
    (fun _ _ h => branch h.putWait.waitSettled (branch h.putWait.sendWait h.putWait))]

theorem bumpAct (h : MemOk s) : MemOk (bumpAct s n) := branch h (branch h.modFn.todo (branch h.todo h.bumpIntake))

theorem adoptNow {m : List Byte} (h : MemOk s) : MemOk (adoptNow s n m) := by
  unfold Machine.adoptNow
  extract_lets x mode subj
  split
  · exact h
  · generalize roleAfter s x m = roles
    obtain ⟨role, self⟩ := roles
    dsimp -zeta -zetaHave only
    extract_lets s₁ x' former ms sp staged ents s₂ s₃ s₄ s₅ taker s₆ s₇ s₈ fenced posted left told done shrunk full
      passed heard
    have h₂ : MemOk s₂ := setFnSt (branch h h.twinDisarm.sweepAbandon)
    have h₅ : MemOk s₅ := fold (markUnrebuilt (branch h₂.postEvent h₂)) fun _ _ h => branch h h.freeFrames
    have h₇ : MemOk s₇ := watchUpdate (showRecord (branch h₅.takeOver h₅))
    have h₈ : MemOk s₈ := branch h₇ h₇.reformAll
    have hposted : MemOk posted := h₈.modFn.flagF.postEvent
    have hdone : MemOk done := h₈.modFn.postEvent.bgComplete
    have hshrunk : MemOk shrunk := branch h₈.postEvent h₈
    have hfull : MemOk full := hshrunk.flagF.postEvent
    have hpassed : MemOk passed := branch (branch hfull.todo hfull) (branch hshrunk hshrunk.bumpAct)
    have hheard : MemOk heard := hpassed.modFn
    exact branch (branch hposted.todo hposted) (branch (branch hdone.todo hdone) (branch (branch hheard.modFn hheard.bgComplete) hpassed))

theorem adopt {m : List Byte} (h : MemOk s) : MemOk (adopt s n m) := by
  unfold Machine.adopt
  extract_lets s₁ s₂ s₃
  have h₁ : MemOk s₁ := branch h h.transferDrop
  have h₂ : MemOk s₂ := h₁.modFn.adoptNow
  have h₃ : MemOk s₃ := branch h₂.todo h₂
  exact branch h₁.modFn (branch h₃.transferDrop.showRecord h₃)

theorem epochSend {b : MembBody} {dies : List Nat} (h : MemOk s) : MemOk (epochSend s n b dies) := fold h (fun _ _ h => h.membSend)

theorem bump (h : MemOk s) : MemOk (bump s n mode subj die) := h.adopt.modFn.epochSend

theorem keeperServe (h : MemOk s) : MemOk (keeperServe s n kind member die room).1 := by
  fun_cases Machine.keeperServe
  exacts [h.xferStart, h.xferStart, h, h.bump, h, h, h, h.xferStart, h.bump, h, h]

theorem keeperIdle (h : MemOk s) : MemOk (keeperIdle s n room) := by
  fun_cases Machine.keeperIdle
  exacts [h, h.modFn.keeperServe, h, h.xferStart, h, h]

theorem bumpCheck (h : MemOk s) : MemOk (bumpCheck s n) :=
  branch h (((branch ((branch h.modFn.todo h).bgComplete) (branch h.modFn.todo h)).todo).keeperIdle)

theorem recvMembAck {m : List Byte} (h : MemOk s) : MemOk (recvMembAck s n m) := by
  fun_cases Machine.recvMembAck
  exacts [h, h.upd.modFn.reportTo, h.upd.bumpCheck, h.upd.modFn.bgComplete, h.upd.bgComplete, h.upd]

theorem adoptLate {epoch : Nat} (h : MemOk s) : MemOk (adoptLate s n epoch) := by
  fun_cases Machine.adoptLate
  exacts [h.adopt, h, h]

theorem recvEpoch {m : List Byte} (h : MemOk s) : MemOk (recvEpoch s n m) :=
  branch h.membAck (branch (branch h.membAck.modFn h.membAck.adopt) h.membAck.modFn.membSend)

theorem recvConfirmReq {m : List Byte} (h : MemOk s) : MemOk (recvConfirmReq s n m) := (branch h.membAck.modFn h.membAck).membSend

theorem unconfirmed (h : MemOk s) : MemOk (unconfirmed s n m) := by
  unfold Machine.unconfirmed
  exact h.flagF.postEvent.modFn

theorem declareFailed (h : MemOk s) : MemOk (declareFailed s n m room) := by
  fun_cases Machine.declareFailed <;> exact h.bump

theorem recvConfirmRsp {m : List Byte} (h : MemOk s) : MemOk (recvConfirmRsp s n m room) := by
  fun_cases Machine.recvConfirmRsp
  exacts [h.membAck, h.membAck, h.membAck.unconfirmed, h.membAck.modFn.modFn.declareFailed, h.membAck.modFn]

theorem recvGseal {m : List Byte} (h : MemOk s) : MemOk (recvGseal s n m) := by
  unfold Machine.recvGseal
  exact h.membAck.modFn

theorem recvReport {m : List Byte} (h : MemOk s) : MemOk (recvReport s n m) := by
  fun_cases Machine.recvReport
  exacts [h.membAck.upd.membSend, h.membAck.upd, h.membAck.upd]

theorem switchTry (h : MemOk s) : MemOk (switchTry s n) := by
  fun_cases Machine.switchTry
  exacts [h, h.modFn.postEvent.epochSend, h]

theorem transferDoneAt (h : MemOk s) : MemOk (transferDoneAt s n member) := by
  fun_cases Machine.transferDoneAt
  exacts [h.modFn.switchTry, h]

theorem recvTransferDone {m : List Byte} (h : MemOk s) : MemOk (recvTransferDone s n m) := h.membAck.transferDoneAt

theorem recvRequest {m : List Byte} (h : MemOk s) : MemOk (recvRequest s n m room) :=
  branch h.membAck (branch h.keeperServe.membAck h.modFn.membAck)

theorem recvMemb (h : MemOk s) : MemOk (recvMemb s p kind room) := by
  unfold Machine.recvMemb
  split
  · exact h
  · extract_lets key s₁ nvm s₂ s₃
    have h₁ : MemOk s₁ := branch h h.membAck
    have h₃ : MemOk s₃ := branch h.modFn h.modFn.adoptLate
    exact branch h (branch (branch h h.membAck) (branch h₁.upd (branch h.recvMembAck (branch h.membAck
      (branch h₃.recvEpoch (branch h₃.recvConfirmReq (branch h₃.recvConfirmRsp (branch h₃.recvGseal (branch h₃.recvReport
        (branch h₃.recvTransferDone h₃.recvRequest))))))))))

theorem switchRelease (h : MemOk s) : MemOk (switchRelease s) := by
  unfold Machine.switchRelease
  exact (fold (fold (fold (fold h.modNvm (fun _ _ h => h.complete)) (fun _ _ h => h.postEvent)) (fun _ _ h => branch h.bugleAct h))
    (fun _ _ h => h.recvMemb)).modNvm

theorem showBoot (h : MemOk s) : MemOk (showBoot s) := h.setF.setF.setF.setF

theorem putBoot {b : BootRec} (h : MemOk s) : MemOk (putBoot s b) := h.modNvm.showBoot

theorem activationUndone (h : MemOk s) : MemOk (activationUndone s) := ((branch h.putBoot h).modNvm).bgComplete

theorem fwHoldCheck (h : MemOk s) : MemOk (fwHoldCheck s) :=
  branch (branch (branch (((branch h h.fwStage).modNvm).switchRelease) ((branch h h.fwStage).modNvm)) h) (branch h.activationUndone h)

theorem shadowCount (h : MemOk s) : MemOk (shadowCount s n) := branch (branch h h.setFnSt) (branch h.setFnSt h)

theorem shadowNotes (h : MemOk s) : MemOk (shadowNotes s) := fold h (fun _ _ h => branch h.shadowCount h)

theorem landArrive {k : LandPkt} (h : MemOk s) : MemOk (landArrive s k) := by
  fun_cases Machine.landArrive
  exacts [h, h.modFn.sealArrive]

theorem landProgress {fuel : Nat} (h : MemOk s) : MemOk (landProgress fuel s) := by
  fun_induction Machine.landProgress fuel s
  case case1 => exact h
  case case2 => exact h
  case case3 ih => exact ih (branch h.upd.landArrive h.upd)

theorem landBad (h : MemOk s) : MemOk (landBad s n id p d) := by
  fun_cases Machine.landBad
  exacts [h.addF.postEvent, h.addF.postEvent, h.addF.postEvent.upd.landProgress, h.addF.postEvent.sealArrive, h.addF.postEvent]

theorem landProbe {flagged : Bool} (h : MemOk s) : MemOk (landProbe s n flagged d) := by
  fun_cases Machine.landProbe
  exacts [h, h, h.addF, h.modFn.sealArrive, h.modFn]

theorem accAlloc (h : MemOk s) : ∀ t ∈ accAlloc s n row, MemOk t := by
  unfold Machine.accAlloc
  dsimp only
  split_ifs
  · exact some_mem h
  · exact some_mem h.upd.showLines
  · exact some_mem h.upd
  · exact none_mem

theorem accAllocAll {rs : List Nat} (h : MemOk s) : ∀ t ∈ accAllocAll s n rs, MemOk t := by
  fun_induction Machine.accAllocAll s n rs
  case case1 => exact some_mem h
  case case2 => exact none_mem
  case case3 hstep ih => exact ih (h.accAlloc _ hstep)

theorem queueUpd {u : LineUpd} (h : MemOk s) : MemOk (queueUpd s u) := ((branch h.addF h).maxF).upd

theorem landData (h : MemOk s) : ∀ t ∈ landData s n id p d, MemOk t := by
  unfold Machine.landData
  dsimp only
  split
  · split
    · split
      · exact none_mem
      · split
        · exact none_mem
        next halloc => exact some_mem (landProgress (upd (fold (h.accAllocAll _ halloc) fun _ _ h => h.queueUpd)))
    · exact none_mem
  · exact some_mem h

theorem landTry (h : MemOk s) : ∀ t ∈ landTry s n id p, MemOk t := by
  unfold Machine.landTry
  dsimp only
  split
  · exact none_mem
  · exact some_mem h.addF
  · exact some_mem h.addF
  · exact some_mem h.landBad
  · split
    · exact some_mem h.landProbe
    · exact h.landData

theorem replay {l : List Parked} (h : MemOk s) : MemOk (replay s n l) := by
  refine fold h fun t q h => ?_
  split
  · split
    next hland => exact h.upd.landTry _ hland
    · exact h
  · exact h

theorem tc2Flow (h : MemOk s) : MemOk (tc2Flow s) := h.setF

theorem park (h : MemOk s) : MemOk (park s n sl id p) := branch h.upd.showParking (((branch h h.flagF).upd).tc2Flow)

theorem retryHeld {l : List Parked} (h : MemOk s) : MemOk (retryHeld s l) := by
  refine fold h fun t q h => ?_
  dsimp only
  split
  next hland => exact h.upd.landTry _ hland
  · exact branch h.upd.park h

theorem parkReplay (h : MemOk s) : MemOk (parkReplay s n) := h.replay.showParking.retryHeld.tc2Flow

theorem probeFired {b : Nat} {e : IntakeEntry} (h : MemOk s) : MemOk (probeFired s n b e) := h.modFn

theorem probeSeals (h : MemOk s) : MemOk (probeSeals s i) :=
  fold h (fun _ _ h => branch (fold h (fun _ _ h => branch h.probeFired.parkReplay h)) h)

theorem heldProbes (h : MemOk s) : MemOk (heldProbes s) := fold h (fun _ _ h => (by split; exacts [h.probeSeals, h]))

theorem groupSealFired (h : MemOk s) : MemOk (groupSealFired s n i) := by
  fun_cases Machine.groupSealFired
  exacts [h.setFnF.collOpen, h, h]

theorem showRoute (h : MemOk s) : MemOk (showRoute s n) := h.setFnF.setFnF.setFnF.setFnF.setFnF

theorem routeSwitch (h : MemOk s) : MemOk (routeSwitch s n) := by
  fun_cases Machine.routeSwitch
  exacts [h, h.setFnSt]

theorem switchAtSeal (h : MemOk s) : MemOk (switchAtSeal s n i) := by
  fun_cases Machine.switchAtSeal
  exacts [h.routeSwitch.modFn.showRecord.watchUpdate.showRoute, h, h]

theorem onSeal (h : MemOk s) : MemOk (onSeal s i) := fold h.probeSeals.partialsCheck.groupSealFired (fun _ _ h => h.switchAtSeal)

theorem collFailed (h : MemOk s) : MemOk (collFailed s n off status cval vals) :=
  branch (branch h.collEnd.collOpen h.collEnd) (branch h.setColl.collReform
    (branch h.flagF.todo.errFn.collEnd (branch h.collEnd h.todo.collEnd)))

theorem collTake (h : MemOk s) : MemOk (collTake s n off status cval vals) := branch h.collEnd h.collFailed

theorem gradSealCheck (h : MemOk s) : MemOk (gradSealCheck s n) := branch ((branch h.modFn.setFnF h.modFn.setFnF.postEvent).todo) h

theorem scalarsClosed (h : MemOk s) : MemOk (scalarsClosed s n c vals) := h.modFn.setFnF.gradSealCheck

theorem stepArrive (h : MemOk s) : MemOk (stepArrive s n) := branch h.collOpen h

theorem setFnState {new : Nat} (h : MemOk s) : MemOk (setFnState s n new) := branch h h.setFnF.raiseFn.postEvent.postEvent

theorem sendReports (h : MemOk s) : MemOk (sendReports s n) := fold h (fun _ _ h => h.reportTo)

theorem twinTest (h : MemOk s) : MemOk (twinTest s n) := by
  fun_cases Machine.twinTest
  exacts [h, h.upd.setF, h.upd.flagF.raiseUnit]

theorem twinSend (h : MemOk s) : MemOk (twinSend s msg) := h.sendPacket

theorem twinEnter (h : MemOk s) : MemOk (twinEnter s n) := branch h.upd.twinSend.twinTest h

theorem showRates (h : MemOk s) : MemOk (showRates s) := h.setF.setF

theorem reshardEnd (h : MemOk s) : MemOk (reshardEnd s n) := branch h.modFn.openIntake h.modFn.todo

theorem planLoad {image : List Byte} (h : MemOk s) : MemOk (planLoad s n row stamp image) := by
  fun_cases Machine.planLoad
  exacts [h, h.upd.sendWait.todo, h.upd.sendWait]

theorem sendFree (h : MemOk s) : MemOk (sendFree s n row) := h.planLoad

theorem freesSend (h : MemOk s) : MemOk (freesSend s n) := by
  fun_cases Machine.freesSend
  exacts [h.reshardEnd, fold h (fun _ _ h => h.sendFree), h]

theorem modPlan {f : Plan → Plan} (h : MemOk s) : MemOk (modPlan s n f) := h.modFn

theorem reshardResume (h : MemOk s) : MemOk (reshardResume s n) := by
  fun_cases Machine.reshardResume
  exacts [h.modFn, h.modPlan.freesSend, h.freesSend, h]

theorem enterIntake (h : MemOk s) : MemOk (enterIntake s n c) := h.openIntake.modFn

theorem enterRunning (h : MemOk s) : MemOk (enterRunning s n c) := by
  unfold Machine.enterRunning
  extract_lets s₁ s₂ s₃ s₄
  have h₄ : MemOk s₄ := h.modFn.setFnF.setFnState.watchUpdate.showRates.twinEnter.sendReports.reshardResume
  exact branch h₄ (branch h₄.modFn h₄.enterIntake)

theorem loadPassClosed (h : MemOk s) : MemOk (loadPassClosed s n c) := by
  unfold Machine.loadPassClosed
  exact h.modFn.setFnF.enterRunning

theorem digPut {r : List Byte} (h : MemOk s) : MemOk (digPut s n r) := h.hostWrite.setFnF

theorem digRecord {build : Nat → List Byte} (h : MemOk s) : MemOk (digRecord s n build) :=
  branch (branch h.setFnSt.modFn h.setFnSt.addF) (branch h.setFnSt.digPut h.setFnSt.addF)

theorem stepRecord (h : MemOk s) : MemOk (stepRecord s n) := by
  unfold Machine.stepRecord
  exact h.modFn.setFnF.digRecord

theorem exactLost (h : MemOk s) : MemOk (exactLost s n) := branch h.postEvent h

theorem placementRecord (h : MemOk s) : MemOk (placementRecord s n) := by
  fun_cases Machine.placementRecord
  exacts [h.setFnF, h.setFnF.slip, h]

theorem showSeed (h : MemOk s) : MemOk (showSeed s n) := by
  fun_cases Machine.showSeed
  exacts [h, h.setFnF.setFnF.setFnF.setFnF]

theorem showStep (h : MemOk s) : MemOk (showStep s n) := h.setFnF.setFnF.setFnF.setFnF.showSeed

theorem migrationSeal (h : MemOk s) : MemOk (migrationSeal s n) := by
  fun_cases Machine.migrationSeal
  exacts [h.modFn.setFnF.bgComplete, h, h]

theorem governor (h : MemOk s) : MemOk (governor s) := branch h.modFloor.showFloor h.modFloor.showFloor.flagF.errUnit.postEvent

theorem snapSkipped {step : Nat} (h : MemOk s) : MemOk (snapSkipped s n step) := h.flagF.addF.errFn.postEvent

theorem setBand {b : Nat} {e : BandEnt} (h : MemOk s) : MemOk (setBand s b e) := h.modFloor

theorem blockFails {b : Nat} {pageToo : Bool} (h : MemOk s) : MemOk (blockFails s b pos pageToo) :=
  branch h.setBand.addF.errUnit.modFloor h.setBand.addF.errUnit

theorem storePage (h : MemOk s) : MemOk (storePage s fpa data) := h.modFloor

theorem progPage {b fuel : Nat} (h : MemOk s) : MemOk (progPage fails s b data fuel).1 := by
  fun_induction Machine.progPage fails s b data fuel
  case case1 => exact h
  case case2 => exact h
  case case3 ih => exact ih h.setBand.blockFails
  case case4 => exact h.setBand.storePage

theorem openBandRaw {b : Nat} {owner : Nat} (h : MemOk s) : MemOk (openBandRaw fails eraseBad s b kind owner) :=
  (fold h.modFloor.setBand (fun _ _ h => h.blockFails)).progPage

theorem catalogTry {flags fuel : Nat} (h : MemOk s) : MemOk (catalogTry fails flags fuel s) := by
  fun_induction Machine.catalogTry fails flags fuel s
  case case1 => exact h
  case case2 ih => exact ih h.modFloor.openBandRaw
  case case3 ih => exact ih h.setBand.blockFails
  case case4 => exact fold h.setBand.modFloor fun _ _ h => h.storePage

theorem takeResume (h : MemOk s) : MemOk (takeResume s reason stage) := fold h (fun _ _ h => (by split; exacts [h, h.modFloor]))

theorem writeCatalog {flags reason : Nat} (h : MemOk s) : MemOk (writeCatalog fails s flags reason stage) := by
  unfold Machine.writeCatalog
  split
  · exact h
  · exact showFloor (modFloor (catalogTry h.takeResume))

theorem newCatalog (h : MemOk s) : MemOk (newCatalog fails s) := h.writeCatalog

theorem retire (h : MemOk s) : MemOk (retire s id) := h.modSnap.freeOwned

theorem makeRoom {need fuel : Nat} (h : MemOk s) : MemOk (makeRoom n need fuel s) := by
  fun_induction Machine.makeRoom n need fuel s
  case case3 ih => exact ih h.retire.newCatalog
  all_goals exact h

theorem addSnap {e : SnapEnt} (h : MemOk s) : ∀ t ∈ addSnap s e, MemOk t := by
  unfold Machine.addSnap
  dsimp only
  split
  · exact some_mem h.modFloor
  · split
    · exact some_mem h.modFloor
    · exact none_mem

theorem snapshotBegin {step c : Nat} (h : MemOk s) : MemOk (snapshotBegin s n step c).1 := by
  fun_cases Machine.snapshotBegin
  case case1 => exact h
  case case2 => exact h.snapSkipped
  case case3 => exact h.makeRoom.snapSkipped
  case case4 => exact h.makeRoom.snapSkipped
  case case5 hadd _ _ => exact showSnap (modFn (modFloor (h.makeRoom.addSnap _ hadd)))

theorem snapshotDue {step : Nat} (h : MemOk s) : MemOk (snapshotDue s n step c) := by
  unfold Machine.snapshotDue
  refine branch h.modFn (branch (pair (snapshotBegin (branch h.modFn.governor h.modFn)) fun t b
    ht => branch (branch ht.modFn ht.modFn.bgComplete) ht) ?_)
  split
  · exact branch (bgComplete (modFn (branch h.modFn.governor h.modFn))) (branch h.modFn.governor h.modFn)
  · exact branch h.modFn.governor h.modFn

theorem fwConfirm (h : MemOk s) : MemOk (fwConfirm s) := by
  fun_cases Machine.fwConfirm
  exacts [h, h.putBoot.setF.fwStage]

theorem fwStepSeal (h : MemOk s) : MemOk (fwStepSeal s) := branch h.modNvm (branch (branch h.addF.fwConfirm h.addF) h)

theorem adoptSwitch {step : Nat} (h : MemOk s) : MemOk (adoptSwitch s n step) := by
  fun_cases Machine.adoptSwitch
  exacts [h.adopt, h, h]

theorem flushBag {b : Bag} (h : MemOk s) : MemOk (flushBag s b) := release (branch (branch h (by split; exacts [h.writeHole, h])) h.addF)

theorem flushSlice (h : MemOk s) : MemOk (flushSlice s n sl) := by
  unfold Machine.flushSlice
  exact (fold ((fold h (fun _ _ h => h.flushBag)).upd) (fun _ _ h => h.bin)).modFn

theorem drainActs (h : MemOk s) : MemOk (drainActs s n sends) :=
  (((((((fold (branch h.dropCores.dropHold.schedStop.drainSend.sendCloses h.dropCores.dropHold.schedStop)
    (fun _ _ h => branch h h.flushSlice)).discardLanded).upd).modFn).setFnF).setFnF).setFnF).showParking

theorem drainBegin {reset : Bool} (h : MemOk s) : MemOk (drainBegin s n reset toOff sends) :=
  h.twinDisarm.sweepAbandon.setFnF.setFnF.modFn.setFnF.setFnState.drainActs.showRates

theorem drainStop (h : MemOk s) : MemOk (drainStop s n) := branch h.drainBegin h

theorem stopAtSeal {t : Nat} (h : MemOk s) : MemOk (stopAtSeal s n t) := by
  fun_cases Machine.stopAtSeal
  exacts [drainStop (by dsimp +zetaDelta only; split; exacts [h.bgComplete, h]), h, h]

theorem reshardBegin {sealed : Nat} (h : MemOk s) : MemOk (reshardBegin s n sealed) := by
  fun_cases Machine.reshardBegin
  exacts [h, h.modFn.collOpen]

theorem intakeNext (h : MemOk s) : MemOk (intakeNext s n) := branch h.modFn.openIntake h

theorem stepSeal (h : MemOk s) : MemOk (stepSeal s n c) := by
  unfold Machine.stepSeal
  extract_lets t s₁ s₂ s₃ s₄ s₅ s₆ s₇ s₈ s₉
  have h₅ : MemOk s₅ := h.placementRecord.exactLost.stepRecord.modFn.setFnF.setFnF.schedStop.setFnF.showStep.migrationSeal.switchAtSeal
  have h₈ : MemOk s₈ := h₅.snapshotDue.adoptSwitch.fwStepSeal.stopAtSeal
  have h₉ : MemOk s₉ := h₈.intakeNext
  exact branch h₈ (branch h₈.reshardBegin (branch h₉.switchTry h₉))

theorem recoveryStart (h : MemOk s) : MemOk (recoveryStart s n) := h.setFnF.setFnF

theorem abortClosed (h : MemOk s) : MemOk (abortClosed s n) := branch h (branch h.upd h.recoveryStart)

theorem resumed (h : MemOk s) : MemOk (resumed s n c) := branch h.abortOver.setFnF.todo h.abortOver.modFn.setFnF

theorem dropColls (h : MemOk s) : MemOk (dropColls s n) := fold h (fun _ _ h => h.collCancel)

theorem sealDisarmAll (h : MemOk s) : MemOk (sealDisarmAll s n) := h.upd

theorem endRestart (h : MemOk s) : MemOk (endRestart s n status) :=
  ((((fold h.dropColls.upd (fun _ _ h => h.showBags)).sealDisarmAll).modFn).setFnF).setFnF

theorem startClosed (h : MemOk s) : MemOk (startClosed s n c vals) := branch h (branch h.endRestart (branch h.enterRunning h.modFn))

theorem putsCheck (h : MemOk s) : MemOk (putsCheck s n) := by
  fun_cases Machine.putsCheck
  exacts [h.modPlan.collOpen, h, h]

theorem sendPuts (h : MemOk s) : MemOk (sendPuts s n) := by
  fun_cases Machine.sendPuts
  exacts [h, fold h.modPlan (fun _ _ h => (by split; exacts [h, fold h.upd (fun _ _ h => h.sendTo)])), h]

theorem showManifest (h : MemOk s) : MemOk (showManifest s n) := by
  fun_cases Machine.showManifest
  exacts [h, h.setFnF.setFnF.setFnF.setFnF, h.setFnF.setFnF.setFnF.setFnF.setFnF.setFnF.setFnF.setFnF.setFnF]

theorem reshardSwitch (h : MemOk s) : MemOk (reshardSwitch s n) := by
  fun_cases Machine.reshardSwitch
  exacts [h.modFn.showManifest.bgComplete.reshardEnd, h.modFn.showManifest.freesSend, h]

theorem permuteClosed (h : MemOk s) : MemOk (permuteClosed s n c) := by
  fun_cases Machine.permuteClosed
  exacts [h.modPlan.sendPuts.putsCheck, h.reshardSwitch, h, h]

theorem softwareClosed (h : MemOk s) : MemOk (softwareClosed s n c layout vals) := by
  fun_cases Machine.softwareClosed
  exacts [(branch h h.hostWrite).bgComplete, h]

theorem collClosed (h : MemOk s) : MemOk (collClosed s n off c layout vals) :=
  branch h.scalarsClosed (branch (branch h.modFn h.modFn.setFnF.stepArrive)
    (branch (branch h.loadPassClosed h.stepSeal) (branch h.abortClosed
    (branch (branch h.resumed h) (branch h.startClosed (branch h.permuteClosed h.softwareClosed))))))

theorem bugleSend (h : MemOk s) : MemOk (bugleSend s n cause serial fromDie fromLine) := by
  fun_cases Machine.bugleSend
  exacts [branch h (fold h (fun _ _ h => h.lineQueue)), fold (branch h (fold h (fun _ _ h => h.lineQueue))) (fun _ _ h => h.sendFife)]

theorem bugleSound (h : MemOk s) : MemOk (bugleSound s n cause alone) := branch h h.bugleSend.bugleAct

theorem startConflict (h : MemOk s) : MemOk (startConflict s n) := branch h.endRestart h

theorem collEnded (h : MemOk s) : MemOk (collEnded s n off status) :=
  branch (branch h.flagF.postEvent.errFn.bugleSound (branch h.flagF.postEvent.errFn.bgComplete h.flagF.postEvent.errFn))
    (branch (branch h.startConflict (branch h.bgComplete h)) h)

theorem onColl (h : MemOk s) : MemOk (onColl s n off status c vals) :=
  branch (branch h.collTake.collClosed h.collTake) (branch h h.collEnded)

theorem integrityAbort (h : MemOk s) : MemOk (integrityAbort s n cause) :=
  branch h (((branch h.flagF.setFnF.setFnF.errFn h.flagF.setFnF.setFnF).postEvent).bugleSound)

theorem cancelRestart (h : MemOk s) : MemOk (cancelRestart s n) := branch h.endRestart h

theorem fnAbort (h : MemOk s) : MemOk (fnAbort s n cause) :=
  branch h.bugleSound (branch h.bugleSound (branch h.setFnF.cancelAll.setFnF.abortOver.passAbort h.setFnF.cancelRestart))

theorem groupAbort (h : MemOk s) : MemOk (groupAbort s n) := branch h.passAbort h

theorem withdrawDie (h : MemOk s) : MemOk (withdrawDie s cause ch) :=
  branch h (((branch (((((fold (fold h (fun _ _ h => h.setFnF.bugleSound)) (fun _ _ h => h.modFn)).flagF).setF).setF).todo)
    ((((fold (fold h (fun _ _ h => h.setFnF.bugleSound)) (fun _ _ h => h.modFn)).flagF).setF).setF)).postEvent).logWrite)

theorem rolledBack (h : MemOk s) : MemOk (rolledBack s) := h.flagF.errUnit

theorem logRollback (h : MemOk s) : MemOk (logRollback s slot reason) := h.logWrite

theorem rejectTrial {t : Nat} (h : MemOk s) : MemOk (rejectTrial s t reason) := h.putBoot.logRollback

theorem trialFault (h : MemOk s) : MemOk (trialFault s reason) := by
  fun_cases Machine.trialFault
  exacts [h, h, h.rejectTrial.rolledBack.setF.fwStage.modNvm, h.rejectTrial.rolledBack.setF.fwStage]

theorem drainCheck (h : MemOk s) : MemOk (drainCheck s n) :=
  branch h (branch (((fold h (fun _ _ h => branch h.flushSlice h)).modFn).collOpen) (fold h (fun _ _ h => branch h.flushSlice h)))

theorem setChan {f : Fld} {v : Bool} (h : MemOk s) : MemOk (setChan s f ch v) := h.setF

theorem escalate {lower : Nat} {upper : Nat} (h : MemOk s) : MemOk (escalate s lower upper) := h.errBit.errBit

theorem channelFail (h : MemOk s) : MemOk (channelFail s ch) := branch h h.setChan.setChan.errSlice.escalate.escalate.withdrawDie

theorem sendGseal (h : MemOk s) : MemOk (sendGseal s n) := fold h.modFn (fun _ _ h => branch h h.membSend)

theorem modReload {f : Reload → Reload} (h : MemOk s) : MemOk (modReload s n f) := h.modFn

theorem loadEmit {m : Manifest} {slot : List Byte} (h : MemOk s) : MemOk (loadEmit s n m l slot) := branch h.emitWcAt h

theorem reloadReceipt (h : MemOk s) : MemOk (reloadReceipt s n t) := branch h h.sendReceipt

theorem reloadWrite (h : MemOk s) : MemOk (reloadWrite s n t) :=
  reloadReceipt (by split; exacts [(by split; exacts [h.modReload.heldWrite.loadEmit, h.modReload]), h.modReload])

theorem reloadProgress (h : MemOk s) : MemOk (reloadProgress s n) := by
  unfold Machine.reloadProgress
  refine branch h ?_
  extract_lets done s₁
  have h₁ : MemOk s₁ := fold h fun t w h => by
    dsimp only
    split
    · exact h.dropWait.reloadWrite
    · exact h.dropWait
  split
  · exact h₁
  · exact branch h₁.bgComplete h₁

theorem reshardAbandon (h : MemOk s) : MemOk (reshardAbandon s n) := by
  fun_cases Machine.reshardAbandon
  exacts [h, h, h.upd.modFn.freesSend]

theorem permuteWrite (h : MemOk s) : MemOk (permuteWrite s n t) := by
  fun_cases Machine.permuteWrite
  exacts [modPlan (sendReceipt (by dsimp +zetaDelta only; split; exacts [h.heldWrite, h])), h]

theorem reshardCheck (h : MemOk s) : MemOk (reshardCheck s n) := by
  unfold Machine.reshardCheck
  split
  · exact h
  · extract_lets done s₁ s₂
    have h₁ : MemOk s₁ := fold h fun _ _ h => by
      split
      · exact h.dropWait.permuteWrite
      · exact h
    have h₂ : MemOk s₂ := fold h fun _ _ h => branch h.dropWait.heldWrite.modPlan h
    refine branch (branch h.reshardAbandon h₁.putsCheck) ?_
    split
    · exact branch (reshardEnd (branch h₂.bgComplete h₂)) h₂
    · exact h₂

theorem loadSettle (h : MemOk s) : MemOk (loadSettle s w) := by
  fun_cases Machine.loadSettle
  exacts [groupArrive
    (branch h.dropWait
    (by split; exacts [h.dropWait, (by split; exacts [h.dropWait.heldWrite.loadEmit, branch h.dropWait.loadEmit h.dropWait])])),
    h.dropWait]

theorem loadProgress (h : MemOk s) : MemOk (loadProgress s n) :=
  branch h (fold ((fold h (fun _ _ h => h.loadSettle)).modFn) (fun _ _ h => h.complete))

theorem copyCheck (h : MemOk s) : MemOk (copyCheck s n) := by
  fun_cases Machine.copyCheck
  exacts [h, h.modFn.setFnF.transferDoneAt, h.modFn.setFnF.membSend, h.modFn.setFnF, h]

theorem evacRequest (h : MemOk s) : MemOk (evacRequest s n room) := by
  fun_cases Machine.evacRequest
  exacts [h, h.modFn.keeperServe, h.modFn.keeperServe.modFn.bgComplete, h.modFn.modFn, h.modFn.membSend, h.modFn]

theorem reportEvacuation (h : MemOk s) : MemOk (reportEvacuation s) := fold h.postEvent (fun _ _ h => branch h.evacRequest h)

theorem clearPage (h : MemOk s) : MemOk (clearPage s pg) := h.upd

theorem resetFn (h : MemOk s) : MemOk (resetFn s n toOff) :=
  branch (((fold h (fun _ _ h => h.complete)).modFn).clearPage)
    (branch h.cancelRestart.drainBegin (branch h.bugleSend.drainBegin (branch h.addF.modFn h)))

theorem changeAgain (h : MemOk s) : MemOk (changeAgain s n) := by
  fun_cases Machine.changeAgain
  exacts [h, h.upd.modFn, h.upd.modFn.declareFailed, h.upd.modFn.bump, h.upd.modFn.bumpCheck]

theorem runTodo {t : Todo} (h : MemOk s) : MemOk (runTodo s t) := by
  fun_cases Machine.runTodo
  exacts [h.onSeal, h.onColl, h.gradSealCheck, h, h.bugleSound, h.integrityAbort, h.fnAbort, h.drainStop, h.groupAbort, h.withdrawDie,
    h.trialFault, h.drainCheck, h.partialsCheck.gradSealCheck, h.channelFail, h.sendGseal, h.loadProgress.reshardCheck.reloadProgress,
    h.stepArrive, h.copyCheck.putsCheck.reloadProgress, h.reportEvacuation, h.resetFn, h.collOpen, h.changeAgain]

theorem runAgenda {fuel : Nat} (h : MemOk s) : MemOk (runAgenda fuel s) := by
  fun_induction Machine.runAgenda fuel s
  case case3 ih => exact ih h.upd.runTodo
  all_goals exact h

theorem settle (h : MemOk s) : MemOk (settle s) := by
  unfold Machine.settle
  exact shadowNotes (branch (heldProbes (fwHoldCheck h)) (runAgenda (fwHoldCheck h)))

theorem conclude {t : State} (ht : MemOk t) : MemOk (conclude s t) := ht.settle.answerWaits.upd

theorem skipUnknown {fuel : Nat} (h : MemOk s) : MemOk (skipUnknown s n fuel) := by
  fun_induction Machine.skipUnknown s n fuel
  case case3 ih => exact ih h.modFn.complete
  all_goals exact h

theorem runCmd {act : State → List Byte → State} (h : MemOk s) (hact : ∀ t e, MemOk t → MemOk (act t e)) :
    MemOk (runCmd s n op act) := by
  fun_cases Machine.runCmd
  case case4 => exact skipUnknown (by dsimp +zetaDelta only; split; exacts [h.modFn.complete, hact _ _ h.modFn])
  all_goals exact h

theorem fore {f : State → List Byte → State × Nat × Nat} (hf : ∀ t e, MemOk t → MemOk (f t e).1) (h : MemOk s) :
    MemOk (fore n f s e) :=
  (hf _ _ h).complete

theorem withBuf {len : Nat} {f : List Byte → State × Nat × Nat} (h : MemOk s) (hf : ∀ l, MemOk (f l).1) :
    MemOk (withBuf s b len f).1 := by
  fun_cases Machine.withBuf
  · exact hf _
  · exact hf _
  · exact h

theorem cmdLoadManifest (h : MemOk s) : MemOk (cmdLoadManifest n b s e).1 := by
  refine branch₁ h (h.withBuf fun l => ?_)
  split
  · exact h
  · refine branch₁ h ?_
    dsimp only
    exact h.modFn

theorem cmdLoadPrograms (h : MemOk s) : MemOk (cmdLoadPrograms n b s e).1 := by
  refine branch₁ h (h.withBuf fun l => ?_)
  split
  · exact h
  · dsimp only
    split
    · exact h
    · dsimp only
      exact h.setFnF.setFnF.modFn

theorem cmdLoadWheel (h : MemOk s) : MemOk (cmdLoadWheel n b s e).1 := by
  refine branch₁ h (h.withBuf fun l => ?_)
  split
  · exact h
  · dsimp only
    exact h.modFn

theorem cmdLoadLeaves (h : MemOk s) : MemOk (cmdLoadLeaves n b s e) := by
  fun_cases Machine.cmdLoadLeaves
  exacts [h.complete, h.complete, h.complete, h.modFn]

theorem bgStart {arg : Nat} (h : MemOk s) : MemOk (bgStart s n op tag arg) := h.modFn

theorem cmdMigrate (h : MemOk s) : MemOk (cmdMigrate n s e) :=
  branch h.complete (branch h.complete (branch h.complete (branch h.complete h.bgStart.modFn.setFnF)))

theorem cmdVerifyRows (h : MemOk s) : MemOk (cmdVerifyRows n s e) := branch h.complete (branch h.complete h.bgStart.modFn.setFnF)

theorem cmdSetOwnership (h : MemOk s) : MemOk (cmdSetOwnership n b s e).1 := by
  unfold Machine.cmdSetOwnership
  exact withBuf h (fun _ => branch₁ (setFnF (modFn h)) h)

theorem cmdRouteLoad (h : MemOk s) : MemOk (cmdRouteLoad n b s e).1 := h.withBuf fun _ => branchPair h.modFn h

theorem cmdRouteStage (h : MemOk s) : MemOk (cmdRouteStage n b s e).1 := by
  unfold Machine.cmdRouteStage
  exact branch₁ h (withBuf h (fun _ => branch₁ (setFnF (modFn h)) (errFn (flagF h))))

theorem putBuf {l : List Byte} (h : MemOk s) : MemOk (putBuf s n addr l detail).1 := branch₁ h (branch h h.hostWrite)

theorem cmdSaveContext (h : MemOk s) : MemOk (cmdSaveContext n s e).1 := h.putBuf

theorem cmdRestoreContext (h : MemOk s) : MemOk (cmdRestoreContext n b s _e).1 :=
  h.withBuf (fun _ => (by dsimp +zetaDelta only; split <;> exact h))

theorem windowWrite {f : State → State} (h : MemOk s) (hf : ∀ t, MemOk t → MemOk (f t)) : MemOk (windowWrite s src a f) := by
  fun_cases Machine.windowWrite
  exacts [h, h, h, hf _ h, h.raiseFn, h]

theorem writeLock (h : MemOk s) : MemOk (writeLock s pg v) := branch h.lockViolation h.upd.setF

theorem clearCounts (h : MemOk s) : MemOk (clearCounts s pg) := by
  fun_cases Machine.clearCounts
  exacts [h, fold h (fun _ _ h => branch h h.setWord)]

theorem armStop {step : Nat} {tag : Option Nat} (h : MemOk s) : MemOk (armStop s n step tag) :=
  setFnF (modFn (by split; exacts [h.modFn.complete, h]))

theorem ctrlStop (h : MemOk s) : MemOk (ctrlStop s n) := branch h.armStop h.cancelRestart

theorem showImages (h : MemOk s) : MemOk (showImages s n) := by
  fun_cases Machine.showImages
  exacts [(by dsimp +zetaDelta only; split; exacts [h, h.setFnF.setFnF.setFnF.setFnF.setFnF]), setFnF
    (by dsimp +zetaDelta only; split; exacts [h, h.setFnF.setFnF.setFnF.setFnF.setFnF])]

theorem applyStaged {badD : Bool} (h : MemOk s) : MemOk (applyStaged s n badD) := by
  unfold Machine.applyStaged
  exact h.upd.modFn

theorem twinRestart (h : MemOk s) : MemOk (twinRestart s n) := branch h (branch h.twinDisarm.upd h.twinDisarm)

theorem showRetained (h : MemOk s) : MemOk (showRetained s n) := h.showManifest.showRecord.showRoute.showImages.showStep.showSnap

theorem startBarrier (h : MemOk s) : MemOk (startBarrier s n) := by
  fun_cases Machine.startBarrier
  exacts [h, h.enterRunning, h.endRestart, h.enterRunning, h.modFn, h.collOpen]

theorem startFn (h : MemOk s) : MemOk (startFn s n) := by
  unfold Machine.startFn
  refine branch h (branch h.setFnF (branch h ?_))
  extract_lets old badD s₁ x
  have h₁ : MemOk s₁ := h.applyStaged.showImages.showRoute
  split
  · exact showManifest (setFnF (branch h₁.flagF h₁))
  · split
    · extract_lets due y s₃ s₄ s₅ s₆ s₇ s₈
      have h₈ : MemOk s₈ := twinRestart (showRetained (setFnF
        (setFnF (setFnF (setFnF (setFnF (abortOver (branch h₁.setFnSt h₁.setFnSt.setFnF))))))))
      exact branch h₈.setFnF h₈.startBarrier
    · exact h₁

theorem writeCtrl (h : MemOk s) : MemOk (writeCtrl s n v) :=
  branch ((branch ((branch h.resetFn h).ctrlStop) (branch h.resetFn h)).startFn)
    (branch ((branch h.resetFn h).ctrlStop) (branch h.resetFn h))

theorem flushKept (h : MemOk s) : MemOk (flushKept s n) :=
  ((fold (fold (fold h.modFn (fun _ _ h => h.cplWrite)) (fun _ _ h => branch h.devOverflow.devPut h.devOverflow.addF.modFn))
    (fun _ _ h => branch h.digPut h.addF)).evMarker).devOverflow

theorem armBox (h : MemOk s) : MemOk (armBox s n) := branch h h.upd.setFnF.setFnF.flushKept

theorem disarm (h : MemOk s) : MemOk (disarm s n) := h.setFnF

theorem disarmBox (h : MemOk s) : MemOk (disarmBox s n) := h.disarm

theorem writeArm (h : MemOk s) : MemOk (writeArm s n v) := branch h (branch h.armBox h.disarmBox)

theorem plainWrite (h : MemOk s) : MemOk (plainWrite s a v) := by
  fun_cases Machine.plainWrite
  exacts [h, h, h.setWord]

theorem doorbell (h : MemOk s) : MemOk (doorbell s n v) := branch h.setFnF h.raiseFn

theorem writeFn (h : MemOk s) : MemOk (writeFn s n o v) :=
  branch h (branch h.writeCtrl (branch h.writeArm (branch (branch h h.plainWrite)
    (branch h.doorbell (branch h.plainWrite.evMarker (branch h.plainWrite.devOverflow
    (branch (branch h.plainWrite.bugleSound h.plainWrite) h.plainWrite)))))))

theorem requestInts (h : MemOk s) : MemOk (requestInts s pg mask) := fold h (fun _ _ h => branch (branch h.msiRequest h.msiRequest) h)

theorem writeIntEnable (h : MemOk s) : MemOk (writeIntEnable s pg v) := h.plainWrite.requestInts

theorem forceInts (h : MemOk s) : MemOk (forceInts s pg v) := h.setWord.requestInts

theorem putEnable {v : Bool} (h : MemOk s) : MemOk (putEnable s n v) := h.setWord

theorem enableSet (h : MemOk s) : MemOk (enableSet s n) :=
  branch h (branch h.putEnable (branch h.putEnable.setFnState.showRetained (branch h.putEnable.setFnF.setFnF h.putEnable)))

theorem enableClear (h : MemOk s) : MemOk (enableClear s n) :=
  branch h (branch h.putEnable.cancelRestart.setFnState.disarm
    (branch h.putEnable.resetFn (branch h.putEnable.setFnF.setFnF h.putEnable)))

theorem writeEnables {base : Nat} {old : Nat} (h : MemOk s) : MemOk (writeEnables s base old v) :=
  fold h (fun _ _ h => branch h (branch h.enableSet h.enableClear))

theorem setLen (h : MemOk s) : MemOk (setLen s v) := branch h.lockViolation (branch h.setF h)

theorem modLine {f : LineSt → LineSt} (h : MemOk s) : MemOk (modLine s f) := h.upd

theorem launch (h : MemOk s) : MemOk (launch s) := branch h h.setF.modLine

theorem launchWrite (h : MemOk s) : MemOk (launchWrite s) := branch h.launch h

theorem counterSet (h : MemOk s) : MemOk (counterSet s) := branch h h.advance.upd.setF.modLine

theorem setWrite (h : MemOk s) : MemOk (setWrite s) := branch h.counterSet h

theorem writeWheelCtrl (h : MemOk s) : MemOk (writeWheelCtrl s v) :=
  branch ((branch (((branch h h.setLen).setF).launchWrite) ((branch h h.setLen).setF)).setWrite)
    (branch (((branch h h.setLen).setF).launchWrite) ((branch h h.setLen).setF))

theorem counterAdj (h : MemOk s) : MemOk (counterAdj s v) := h.setF

theorem setRate (h : MemOk s) : MemOk (setRate s) := h.setF.setF

theorem pathDown {tell : Bool} (h : MemOk s) : MemOk (pathDown s n tell) :=
  branch h (fold (branch (fold h.setFnF (fun _ _ h => h.sendFife)) h.setFnF) (fun _ _ h => h.collReform))

theorem allPathsDown (h : MemOk s) : MemOk (allPathsDown s) := fold h (fun _ _ h => h.pathDown)

theorem toHunt (h : MemOk s) : MemOk (toHunt s) := branch h.setF.modLine.allPathsDown h.setF.modLine

theorem huntStart (h : MemOk s) : MemOk (huntStart s) := h.toHunt.modLine

theorem watchClear (h : MemOk s) : MemOk (watchClear s) := h.upd.setF

theorem modInteg {f : IntegSt → IntegSt} (h : MemOk s) : MemOk (modInteg s f) := h.upd

theorem remapEntry {e : Nat} (h : MemOk s) : MemOk (remapEntry s ch e v) := branch h (branch h.setWord.modInteg h.setWord)

theorem writePushArea (h : MemOk s) : MemOk (writePushArea s v) := branch h (branch h.lockViolation h.plainWrite)

theorem writeFwCtrl (h : MemOk s) : MemOk (writeFwCtrl s v locked) :=
  branch h.plainWrite (branch h.plainWrite.lockViolation h.plainWrite.upd.setF)

theorem writePosition (h : MemOk s) : MemOk (writePosition s v) := branch h.lockViolation h.setWord

theorem putSliceBit {f : Fld} {v : Bool} (h : MemOk s) : MemOk (putSliceBit s f sl v) := h.setF

theorem gateSlice (h : MemOk s) : MemOk (gateSlice s sl) := branch h.lockViolation h.putSliceBit

theorem ungateSlice (h : MemOk s) : MemOk (ungateSlice s sl) := h.putSliceBit

theorem writeGate {old : Nat} (h : MemOk s) : MemOk (writeGate s old v) :=
  fold h (fun _ _ h => branch h (branch h.gateSlice h.ungateSlice))

theorem sliceClear (h : MemOk s) : MemOk (sliceClear s sl) :=
  (h.withCores fun e he => h.cores e (List.mem_of_mem_filter he)).upd

theorem sliceReset (h : MemOk s) : MemOk (sliceReset s sl) := branch h.lockViolation h.sliceClear

theorem regionReset {q : Nat} (h : MemOk s) : MemOk (regionReset s q) := branch h.lockViolation (fold h (fun _ _ h => h.sliceClear))

theorem cleared {retained : Bool} (h : MemOk s) : MemOk (cleared s retained) := by
  cases retained
  · exact ⟨memWf_nil, memWf_nil, fun e he => nomatch he⟩
  · exact ⟨h.deep, h.near, fun e he => nomatch he⟩

theorem sampleStraps {w : Nat} (h : MemOk s) : MemOk (sampleStraps s w) :=
  branch h.setF.setF.setF.setF h.setF.setF.setF.setF.setF.raiseUnit

theorem chipReset (h : MemOk s) : MemOk (chipReset s cause strap) := h.cleared.setF.setF.setF.setF.sampleStraps

theorem modPwr {f : PowerSt → PowerSt} (h : MemOk s) : MemOk (modPwr s f) := h.upd

theorem chipResetRequest (h : MemOk s) : MemOk (chipResetRequest s cause strap) :=
  branch h (branch (branch h.chipReset h) (branch h.modPwr h.chipReset))

theorem writeReset (h : MemOk s) : MemOk (writeReset s src v) :=
  branch ((fold (fold h (fun _ _ h => branch h.sliceReset h)) (fun _ _ h => branch h.regionReset h)).chipResetRequest)
    (fold (fold h (fun _ _ h => branch h.sliceReset h)) (fun _ _ h => branch h.regionReset h))

theorem applyWrite {k : PageKind} (h : MemOk s) : MemOk (applyWrite s src k i o a v locked) :=
  branch h.writeFn (branch h.writeIntEnable (branch h.forceInts
    (branch (branch h.plainWrite h) (branch h.writeEnables
    (branch h.writeEnables (branch h.writeWheelCtrl (branch h.counterAdj
    (branch h.plainWrite.setRate (branch (branch h.plainWrite.huntStart h.plainWrite)
    (branch (branch h.plainWrite.watchClear h.plainWrite) (branch (branch h h.remapEntry)
    (branch (branch h h.writePushArea) (branch h.writeFwCtrl
    (branch (branch h h.writePosition) (branch h.writeGate (branch h.writeReset h.plainWrite))))))))))))))))

theorem registerWrite (h : MemOk s) : MemOk (registerWrite s src a v) := by
  fun_cases Machine.registerWrite
  exacts [h, h, h.writeLock, h.lockViolation, h.clearCounts, h, h.lockViolation.applyWrite, h.applyWrite]

theorem windowStore {whole : Bool} (h : MemOk s) : MemOk (windowStore s src a v whole) :=
  branch (h.windowWrite (fun _ h => h.registerWrite)) (branch h ((h.windowWrite (fun _ h => h)).flagF))

theorem fieldWrite (h : MemOk s) : MemOk (fieldWrite s src a mask v) := h.windowStore

theorem cmdStop (h : MemOk s) : MemOk (cmdStop n s e) := branch h.complete h.armStop.bgStart

theorem cmdCollective (h : MemOk s) : MemOk (cmdCollective n b s e) := by
  fun_cases Machine.cmdCollective
  exacts [h.complete, h.bgStart.collOpen]

theorem cmdDeclareFailed (h : MemOk s) : MemOk (cmdDeclareFailed n room s e) :=
  branch h.complete (branch h.complete (branch h.complete h.bgStart.modFn.declareFailed))

theorem cmdEvacuate (h : MemOk s) : MemOk (cmdEvacuate n room s e) := branch h.complete h.bgStart.evacRequest

theorem rejoinRequest (h : MemOk s) : MemOk (rejoinRequest s n) := by
  fun_cases Machine.rejoinRequest
  exacts [h.modFn.membSend, h.modFn.bgComplete]

theorem cmdRejoin (h : MemOk s) : MemOk (cmdRejoin n s e) := h.bgStart.rejoinRequest

theorem cmdContract (h : MemOk s) : MemOk (cmdContract n b s e).1 := by
  refine h.withBuf fun l => ?_
  dsimp only
  split
  · dsimp only
    exact h.modFn
  · exact h

theorem cmdReshard (h : MemOk s) : MemOk (cmdReshard n b s e) := by
  fun_cases Machine.cmdReshard
  exacts [h.complete, h.complete, h.complete, h.complete, h.bgStart.modFn, h.complete, h.complete]

theorem cmdSnapshot (h : MemOk s) : MemOk (cmdSnapshot n s e) := branch h.complete h.bgStart.modFn

theorem floorFormat (h : MemOk s) : MemOk (floorFormat s fails) :=
  fold h.modFloor.setBand.openBandRaw.setF.newCatalog (fun _ _ h => h.showSnap)

theorem cmdFloorFormat (h : MemOk s) : MemOk (cmdFloorFormat n fails s e) := h.bgStart.floorFormat.bgComplete

theorem cmdFloorList (h : MemOk s) : MemOk (cmdFloorList n s e).1 := by
  unfold Machine.cmdFloorList
  dsimp only
  split
  · exact h.putBuf
  · exact h

theorem formatRows {mf : Manifest} {g : GroupEntry} {k j : Nat} (h : MemOk s) : MemOk (formatRows s n mf g area gen k j) := by
  induction k generalizing s j with
  | zero => exact h
  | succ k ih => exact ih h.slotWrite

theorem formatGrads {mf : Manifest} {g : GroupEntry} (h : MemOk s) : MemOk (formatGrads s n mf g) := fold h fun _ _ h => h.formatRows

theorem formatAll {mf : Manifest} {g : GroupEntry} (h : MemOk s) : MemOk (formatAll s n mf g) := h.formatRows.formatGrads

theorem launchWait (h : MemOk s) : MemOk (launchWait s w) := branch h.sendWait.waitSettled h.sendWait

theorem contribute (h : MemOk s) : MemOk (contribute s w) := h.upd.launchWait

theorem reloadSend (h : MemOk s) : MemOk (reloadSend s n area gen row stamp image) := by
  fun_cases Machine.reloadSend
  exacts [h.contribute, h]

theorem gradNulls (h : MemOk s) : MemOk (gradNulls s n row) := by
  fun_cases Machine.gradNulls
  exacts [h, fold h (fun _ _ h => h.reloadSend), h]

theorem reloadFormat {m : Manifest} (h : MemOk s) : MemOk (reloadFormat s n x m g) :=
  fold (fold h.setFnSt.formatAll.showRetained (fun _ _ h => h.reloadSend)) (fun _ _ h => h.gradNulls)

theorem reloadTry (h : MemOk s) : MemOk (reloadTry s n bs).2 := by
  fun_cases Machine.reloadTry
  case case4 =>
    dsimp only
    exact h.modFn
  case case7 => exact h.reloadFormat
  all_goals exact h

theorem cmdReload (h : MemOk s) : MemOk (cmdReload n b s e) := by
  fun_cases Machine.cmdReload
  · exact h.complete
  · exact h.complete
  · exact h.reloadTry.bgStart.todo
  · exact h.complete

theorem clearRemap (h : MemOk s) : MemOk (clearRemap s ch mask).1 := fold h (fun _ _ h => h.setWord)

theorem cmdClearRemap (h : MemOk s) : MemOk (cmdClearRemap s e).1 := h.clearRemap

theorem cmdTwinReport (h : MemOk s) : MemOk (cmdTwinReport n s e).1 := by
  fun_cases Machine.cmdTwinReport
  exacts [h.putBuf, h]

theorem beginWrite (h : MemOk s) : MemOk (beginWrite s) := by
  fun_cases Machine.beginWrite
  exacts [h.modNvm.setF, h, h.modNvm.setF, h.modNvm.setF.setF]

theorem storeStart (h : MemOk s) : MemOk (storeStart s op mask) := branch h.bgComplete (branch h.modNvm.beginWrite h.modNvm)

theorem cmdStore (h : MemOk s) : MemOk (cmdStore s e) := h.bgStart.storeStart

theorem cmdLogRead (h : MemOk s) : MemOk (cmdLogRead s e).1 := h.putBuf

theorem fwDownload {chunk : Nat} (h : MemOk s) : MemOk (fwDownload s chunk bytes).1 :=
  branch₁ (branch₁ h h.putBoot.modNvm.fwStage.setF) (branch₁ h (branch₁ h.modNvm.setF.putBoot.fwStage h.modNvm.setF))

theorem cmdDownload (h : MemOk s) : MemOk (cmdDownload b s e).1 := h.withBuf (fun _ => h.fwDownload)

theorem cmdVerify (h : MemOk s) : MemOk (cmdVerify s e) := h.bgStart.fwStage

theorem cmdActivate (h : MemOk s) : MemOk (cmdActivate s e) := h.bgStart.fwStage

theorem cmdConfirm (h : MemOk s) : MemOk (cmdConfirm s _e).1 := h.fwConfirm

theorem fwAbandon (h : MemOk s) : MemOk (fwAbandon s) := branch h.trialFault h.activationUndone.fwStage.bgComplete

theorem cmdAbandon (h : MemOk s) : MemOk (cmdAbandon s e) := h.bgStart.fwAbandon

theorem showKeys (h : MemOk s) : MemOk (showKeys s) := h.setF

theorem putKey {k : KeySlot} (h : MemOk s) : MemOk (putKey s i k) := h.modNvm.showKeys.logWrite

theorem keyAdd {b : List Byte} (h : MemOk s) : MemOk (keyAdd s b).1 := branch₁ h.putKey h

theorem cmdKeyAdd (h : MemOk s) : MemOk (cmdKeyAdd b s _e).1 := h.withBuf (fun _ => h.keyAdd)

theorem keyRevoke (h : MemOk s) : MemOk (keyRevoke s i).1 := branch₁ h (branch₁ h (branch₁ h h.putKey))

theorem cmdKeyRevoke (h : MemOk s) : MemOk (cmdKeyRevoke s e).1 := h.keyRevoke

theorem commandFetch {entry : HostRead} (h : MemOk s) : MemOk (commandFetch s n entry) := by
  fun_cases Machine.commandFetch
  exacts [h, h.setFnF.complete, h.setFnF.modFn.skipUnknown]

theorem vfChange {k : Nat} (h : MemOk s) : MemOk (vfChange s k) := fold h.upd (fun _ _ h => h.enableClear)

theorem hostLinkDown (h : MemOk s) : MemOk (hostLinkDown s) := (fold h (fun _ _ h => h.disarm)).upd

theorem sliceGated (h : MemOk s) : MemOk (sliceGated s sl) := branch h.putSliceBit.sliceClear h

theorem sliceUngated (h : MemOk s) : MemOk (sliceUngated s sl) := branch h h.sliceClear.putSliceBit

theorem setChkBuf (h : MemOk s) : MemOk (setChkBuf s sl raw) := h.wordsAt

theorem rawToSlot (h : MemOk s) : MemOk (rawToSlot s owner raw) := by
  fun_cases Machine.rawToSlot
  · exact h
  · exact fold h fun _ _ h => branch (h.withDeep (memWriteN_wf _ _ h.deep)) h
  · exact h

theorem setLog {k : Nat} (h : MemOk s) : MemOk (setLog s i k v) := h.setWord

theorem watchNote {b : BlockRead} (h : MemOk s) : MemOk (watchNote s ch block b) := by
  fun_cases Machine.watchNote
  exacts [h.flagF, h.setLog.setLog.setLog.setLog, h.setLog.setLog.setLog.setLog.addF]

theorem noteRead {b : BlockRead} (h : MemOk s) : MemOk (noteRead s ch block b) :=
  branch (((branch h.addF.addF.setChan h.addF.addF).errSlice).watchNote) ((branch h.addF.addF.setChan h.addF.addF).errSlice)

theorem haltChannel {b : BlockRead} (h : MemOk s) : MemOk (haltChannel s ch block owner b) :=
  branch h.noteRead.setChan.addF.modInteg.todo h.noteRead.setChan.addF.modInteg

theorem readBlock (h : MemOk s) : MemOk (readBlock s ch block raw owner) := branch h (branch h h.haltChannel)

theorem checkerOp (h : MemOk s) : MemOk (checkerOp s sl op raw owner) :=
  branch h.setF (branch h.setF.setF (branch h.setF.setF.setChkBuf
    (branch h.setF.setF.modInteg.rawToSlot ((branch h.setF.setF.setChkBuf.setF.setF h.setF.setF.setChkBuf.setF).readBlock))))

theorem checkerWrite (h : MemOk s) : MemOk (checkerWrite s src sl op raw owner) := by
  unfold Machine.checkerWrite
  exact h.windowWrite (fun _ h => branch h.lockViolation.checkerOp h.checkerOp)

theorem windowRead (h : MemOk s) : MemOk (windowRead s src a) :=
  branch h (branch h.upd (branch h.upd ((branch (branch h.upd h) ((branch h.upd h).setWord)).upd)))

theorem touchShadow (h : MemOk s) : MemOk (touchShadow s p) := by
  fun_cases Machine.touchShadow
  exacts [h.modFn, h, h]

theorem queueError (h : MemOk s) : MemOk (queueError s p u) := branch h (branch h.notePoison.errSlice h.errUnit)

theorem storeDrop (h : MemOk s) : MemOk (storeDrop s) := h.addF.errUnit

theorem landArrival (h : MemOk s) : MemOk (landArrival s n sl p) := by
  fun_cases Machine.landArrival
  · exact h.sendPacket
  case case2 hland => exact h.upd.landTry _ hland
  · exact h.upd.park

theorem recvLanding (h : MemOk s) : MemOk (recvLanding s p u) :=
  branch h.storeDrop (branch h.integrityAbort (branch h.storeDrop h.landArrival))

theorem recvPair (h : MemOk s) : MemOk (recvPair s msg) := by
  fun_cases Machine.recvPair
  exacts [(branch h.upd.twinOff h.upd).twinTest, branch h.upd.twinOff h.upd, branch h.upd.twinOff h.upd]

theorem setTwin (h : MemOk s) : MemOk (setTwin s n row v) := h.modFn

theorem twinMismatch (h : MemOk s) : MemOk (twinMismatch s n mine theirs late) :=
  branch h.setTwin (branch (fold h.setTwin.upd (fun _ _ h => h.twinSend)) h.setTwin.upd)

theorem twinCompare (h : MemOk s) : MemOk (twinCompare s n mine theirs late) :=
  branch (branch h.addF.upd h.addF.upd.setTwin) h.addF.upd.twinMismatch

theorem pendAdd {p : TwinPend} (h : MemOk s) : MemOk (pendAdd s p) := branch h.addF.setPend h.setPend

theorem recvDigest (h : MemOk s) : MemOk (recvDigest s msg) := by
  fun_cases Machine.recvDigest
  exacts [h, h.upd, h.upd.upd.twinCompare, h.upd.setPend.twinCompare, h.upd, h.upd.pendAdd]

theorem twinReport {mm : TwinMm} {located : Option (Nat × List Byte × List Byte)} (h : MemOk s) : MemOk (twinReport s n mm located) :=
  h.setF.setF.setF.setF.setF.setF.setF.setF.setF.setF.setF.setF.setF.setF.upd.flagF.raiseUnit.twinDisarm.todo

theorem twinLocate (h : MemOk s) : MemOk (twinLocate s n) := by
  fun_cases Machine.twinLocate
  exacts [h, h, twinReport (upd (by dsimp +zetaDelta only; split; exacts [h.twinSend, h])), upd
    (by dsimp +zetaDelta only; split; exacts [h.twinSend, h]), upd (by dsimp +zetaDelta only; split; exacts [h.twinSend, h])]

theorem recvLines (h : MemOk s) : MemOk (recvLines s msg) := by
  fun_cases Machine.recvLines
  exacts [h.upd.twinLocate, h, h]

theorem recvLine (h : MemOk s) : MemOk (recvLine s msg) := by
  fun_cases Machine.recvLine
  exacts [h.upd.twinLocate, h, h]

theorem twinStore {src : Nat} (h : MemOk s) : MemOk (twinStore s src msg) :=
  branch h (branch h.recvPair (branch h.recvDigest (branch h.recvLines h.recvLine)))

theorem twinPacket (h : MemOk s) : MemOk (twinPacket s p kind) := branch h.twinStore h

theorem windowPacket (h : MemOk s) : MemOk (windowPacket s p) := by
  fun_cases Machine.windowPacket
  exacts [h, h.twinPacket, h.storeDrop, h.recvMemb, h.storeDrop]

theorem sealStore (h : MemOk s) : MemOk (sealStore s p) := by
  fun_cases Machine.sealStore
  exacts [h.storeDrop, h.storeDrop, h.sealStray, h.sealArrive]

theorem storeBytes (h : MemOk s) : MemOk (storeBytes s n off bs).1 := by
  refine fold₁ h fun q x h => ?_
  split
  · exact h.rangeWrite
  · exact h
  · exact h

theorem writeRejected (h : MemOk s) : MemOk (writeRejected s n off) := h.flagF.postEvent

theorem rangeStore (h : MemOk s) : MemOk (rangeStore s n off bs) := by
  fun_cases Machine.rangeStore
  exacts [h.storeDrop, h.storeBytes.writeRejected, h.storeBytes]

theorem recvStore (h : MemOk s) : MemOk (recvStore s p u) :=
  branch h (branch h.queueError.recvLanding (branch h.queueError.storeDrop
    (branch h.queueError.windowPacket (branch h.queueError.storeDrop (branch h.queueError.sealStore h.queueError.rangeStore)))))

theorem landingOf {probe : Bool} (h : MemOk s) : MemOk (landingOf s p u probe) := branch h.recvStore h

theorem accAdd {u : LineUpd} {pat : Nat} (h : MemOk s) : MemOk (accAdd s u pos pat) :=
  (branch ((((branch ((branch h.modFn h).setFnF) (branch h.modFn h)).flagF).addF).modFn) (branch h.modFn h)).upd

theorem bankApply {bank : Nat} (h : MemOk s) : MemOk (bankApply s sl bank) := by
  fun_cases Machine.bankApply
  exacts [h, ((fold h.upd (fun _ _ h => h.accAdd)).upd).landProgress]

theorem recvClose (h : MemOk s) : MemOk (recvClose s p u) := by
  fun_cases Machine.recvClose
  exacts [h.bin, h.answerReceipt, h.modFn.todo]

theorem holdRelease (h : MemOk s) : MemOk (holdRelease s sl) := by
  fun_cases Machine.holdRelease
  · exact h
  · exact h
  case case3 hreserve _ _ =>
    exact fold (h.reserve _ hreserve).upd fun _ _ h => by split; exacts [h.foldInto, h]

theorem putRepeat (h : MemOk s) : MemOk (putRepeat s n p w) := by
  fun_cases Machine.putRepeat
  exacts [fold h.putWait (fun _ _ h => h.sendTo), h.upd, h]

theorem putReceipt (h : MemOk s) : MemOk (putReceipt s n p w) := branch h.applyWritten h.putRepeat

theorem recvReceipt {badHeader : Bool} (h : MemOk s) : MemOk (recvReceipt s p badHeader) := by
  fun_cases Machine.recvReceipt
  exacts [h.bin, h.putReceipt, h, h.bin, h.bin, h.bin, h.bin, h.bin, h.bin, h.bin, h.applyWritten, h.putRepeat]

theorem advanceTo {t : Nat} (h : MemOk s) : MemOk (advanceTo s t) := h.advance

theorem resendDue (h : MemOk s) : MemOk (resendDue s) := by
  fun_cases Machine.resendDue
  exacts [h, h.upd.advanceTo, h.upd.advanceTo.sendPacket]

theorem putAnswer (h : MemOk s) : MemOk (putAnswer s n p status) := h.sendReceipt

theorem transferKeep (h : MemOk s) : MemOk (transferKeep s n m area gen row) := h.modFn

theorem putPostmark (h : MemOk s) : MemOk (putPostmark s n p) := branch h.transferKeep.putAnswer h.putAnswer

theorem targetWrite {slot : List Byte} (h : MemOk s) : MemOk (targetWrite s n m area gen row slot) :=
  branch (h.withDeep (memWriteN_wf _ _ h.deep)) h.slotWrite

theorem transferWrite {slot : List Byte} (h : MemOk s) : MemOk (transferWrite s n m area gen row slot) := h.targetWrite.modFn.showRecord

theorem permuteGot (h : MemOk s) : MemOk (permuteGot s n t) := by
  fun_cases Machine.permuteGot
  exacts [h, h.modPlan.planLoad, h]

theorem reloadNull {v : SliceMove} (h : MemOk s) : MemOk (reloadNull s n v) := by
  fun_cases Machine.reloadNull
  exacts [h.reloadSend, h.gradNulls, h]

theorem reloadGot (h : MemOk s) : MemOk (reloadGot s n t) := by
  fun_cases Machine.reloadGot
  exacts [h.modReload.reloadNull.reloadReceipt, h.modReload.reloadNull.reloadReceipt, h.modReload.modReload.reloadNull.reloadReceipt,
    h.modReload.modReload.reloadSend.gradNulls, h.modReload.modReload.reloadSend, h]

theorem putWhole (h : MemOk s) : MemOk (putWhole s n p t) := branch h.transferWrite.putAnswer (branch h.permuteGot h.reloadGot.todo)

theorem putPart (h : MemOk s) : MemOk (putPart s n p) := branch h.upd.putWhole h.upd

theorem recvPut (h : MemOk s) : MemOk (recvPut s p u) := by
  unfold Machine.recvPut
  extract_lets sl n s₁ s₂ mark shape placed
  have h₁ : MemOk s₁ := branch h h.errSlice
  have h₂ : MemOk s₂ := branch h₁.flushHold h₁
  split
  · exact h₂.bin
  · exact h₂.putAnswer
  · exact branch h₂.notePoison.putAnswer (branch h₂.putPostmark h₂.putPart)

theorem recvLoad (h : MemOk s) : MemOk (recvLoad s p u via rows readable) :=
  branch h (branch h.queueError.respond (branch (branch h.queueError.respond h.queueError.respond)
    (branch h.queueError.respond h.queueError.rangeLoad)))

theorem respondAtomic (h : MemOk s) : MemOk (respondAtomic s p status old) := h.sendPacket

theorem atomicGate {f : State → State} (h : MemOk s) (hf : ∀ t, MemOk t → MemOk (f t)) : MemOk (atomicGate s p u f) :=
  branch h.queueError.respondAtomic (branch h.queueError.respondAtomic (hf _ h.queueError))

theorem rangeAtomic {new : Nat → Nat} (h : MemOk s) : MemOk (rangeAtomic s p new) := branch h.rangeWrite.respondAtomic h.respondAtomic

theorem recvFetchAdd (h : MemOk s) : MemOk (recvFetchAdd s p u) := by
  refine branch h (h.atomicGate fun _ h => branch ?_ h.rangeAtomic)
  split
  · exact h.respondAtomic
  · exact branch h.respondAtomic (branch h.sealStray.respondAtomic h.sealArrive.respondAtomic)

theorem recvCompareSwap (h : MemOk s) : MemOk (recvCompareSwap s p u) := branch h (h.atomicGate (fun _ h => h.rangeAtomic))

theorem setCore {core : CoreSt} (h : MemOk s) (hc : SramOk core) : MemOk (setCore s i core) := by
  refine h.withCores fun e he => ?_
  rcases tabPut_mem he with he | he
  · exact h.cores e he
  · split at he
    · cases he
    · cases he
      exact hc

theorem recvResponse {type : Nat} (h : MemOk s) : MemOk (recvResponse s p u type) := by
  unfold Machine.recvResponse
  refine branch h ?_
  split
  · exact h
  next q _ =>
    have hset : ∀ t v, MemOk t → MemOk (match q.owner with
        | .core a b r => Machine.setCore t (coreIx a b) (setS (coreSt t (coreIx a b)) r v)) := fun t v ht => by
      cases q.owner
      exact setCore ht (ht.sram _).setS
    refine branch (flagF (hset _ _ (upd (branch h h.errUnit)))) (hset _ _ (upd (branch h h.errUnit)))

theorem handOff (h : MemOk s) : MemOk (handOff s p) := branch h.upd.upd h.upd

theorem refill (h : MemOk s) : MemOk (refill s) := h.upd

theorem pickClass {live : List Nat} {fuel : Nat} (h : MemOk s) : MemOk (pickClass s live fuel).1 := by
  fun_induction Machine.pickClass s live fuel
  case case3 => exact h.upd
  case case4 ih => exact ih h.upd
  all_goals exact h

theorem passTurn (h : MemOk s) : MemOk (passTurn s tc p) := h.upd

theorem arbitrate (h : MemOk s) : MemOk (arbitrate s) := by
  unfold Machine.arbitrate
  dsimp only
  split
  · exact h.handOff
  · refine branch h.refill ?_
    split
    next hpick =>
      have hpicked := fst_of_eq hpick h.refill.pickClass
      split
      · exact hpicked.passTurn.handOff
      · exact hpicked
    next hpick => exact fst_of_eq hpick h.refill.pickClass

theorem linkXoff {xoff : Bool} (h : MemOk s) : MemOk (linkXoff s tc xoff) := branch h h.setF

theorem laneChange {link : Nat} (h : MemOk s) : MemOk (laneChange s link code) := h.setF.setRate

theorem shadowGone (h : MemOk s) : MemOk (shadowGone s n) := by
  fun_cases Machine.shadowGone
  exacts [h.adopt, h]

theorem shadowRetired (h : MemOk s) : MemOk (shadowRetired s n) := by
  fun_cases Machine.shadowRetired
  exacts [h.advanceTo.modFn.showRoute.shadowGone.intakeNext, h]

theorem sendAck (h : MemOk s) : MemOk (sendAck s n p fnThere status) := h.sendFife

theorem collNewer (h : MemOk s) : MemOk (collNewer s n off seq) := branch h.collCancel.setColl.collOpen h.collCancel.setColl

theorem joinParts (h : MemOk s) : MemOk (joinParts s n off p).1 := by
  fun_cases Machine.joinParts
  exacts [h, h.setColl, h, h.setColl]

theorem recvOpen (h : MemOk s) : MemOk (recvOpen s n off p) := by
  unfold Machine.recvOpen
  dsimp only
  refine branch h.sendAck (branch (branch h.collNewer h).sendAck ?_)
  split
  next hjoin => exact fst_of_eq hjoin (joinParts (branch h.collNewer h))
  next hjoin =>
    have hjoined := fst_of_eq hjoin (joinParts (branch h.collNewer h))
    exact hjoined.setColl.sendAck.collCombine

theorem fifeOpened (h : MemOk s) : MemOk (fifeOpened s p) := by
  unfold Machine.fifeOpened
  split
  · exact h.recvOpen
  · exact h

theorem recvAck (h : MemOk s) : MemOk (recvAck s n off seq status) := branch h (branch h.setColl.todo h.collFailed)

theorem fifeAcked (h : MemOk s) : MemOk (fifeAcked s p) := by
  unfold Machine.fifeAcked
  split
  · exact h.recvAck
  · exact h

theorem recvResult (h : MemOk s) : MemOk (recvResult s n off seq status cval vals) := branch h h.collResult

theorem fifeResult (h : MemOk s) : MemOk (fifeResult s p) := by
  unfold Machine.fifeResult
  split
  · refine branch h.recvResult ?_
    split
    next hjoin => exact fst_of_eq hjoin h.joinParts
    next hjoin => exact (fst_of_eq hjoin h.joinParts).recvResult
  · exact h

theorem decodeReserve (h : MemOk s) : MemOk (decodeReserve s n j) := by
  fun_cases Machine.decodeReserve
  case case1 hreserve => exact (h.reserve _ hreserve).release
  all_goals exact h

theorem markUnrecoverable (h : MemOk s) : MemOk (markUnrecoverable s n area gen j) := h.setFnF.setFnF.setFnF.setFnF.postEvent

theorem state {self : RowResult} (h : MemOk self.state) : MemOk (RowResult.state self) := h

theorem putHeld {slot : List Byte} (h : MemOk s) : MemOk (putHeld s n m area gen j slot) := branch h.heldWrite h

theorem decodeRow {bad : List Nat} (h : MemOk s) : MemOk (decodeRow s n area gen j imgs bad).state := by
  unfold Machine.decodeRow
  dsimp only
  split
  · split
    · exact markUnrecoverable (branch h.flagF h)
    · exact addF (addF (fold (fold (branch (flagF (branch h.flagF h)) (branch h.flagF h)) fun _ _ h => h.putHeld) fun _ _ h => h.putHeld))
  · exact h

theorem ledgerUse {up : Bool} (h : MemOk s) : MemOk (ledgerUse s sl up) := h.setF.maxF

theorem ledgerFree (h : MemOk s) : MemOk (ledgerFree s i) := by
  have hused := fun c hc => @branch c hc _ _ (h.ledgerUse (sl := ledgerSlice i) (up := false)) h
  exact (hused _ _).withNear (memZero_wf _ _ (hused _ _).near)

theorem recoverEntry {imgs : Nat → RowImages} (h : MemOk s) : MemOk (recoverEntry s n i imgs) := by
  unfold Machine.recoverEntry
  extract_lets e j stamp digest x s₁ s₂ mine same whole torn s₃ s₄
  have h₂ : MemOk s₂ := by
    unfold s₂
    split
    · exact branch h.decodeReserve.markUnrecoverable h.decodeReserve.decodeRow
    · exact h.decodeReserve
  have h₃ : MemOk s₃ := branch h₂ h₂.flagF.decodeRow
  exact ledgerFree (branch h₃.addF h₃.addF)

theorem verifyRow (h : MemOk s) : MemOk (verifyRow s n area gen j imgs).state := by
  fun_cases Machine.verifyRow
  exacts [h.decodeRow, h, (fold h (fun _ _ h => h.putHeld)).addF]

theorem recover {imgs : Nat → RowImages} (h : MemOk s) : MemOk (recover s n imgs) := by
  refine fold (fold (fold (fold h.setFnF.setFnF fun _ _ h => h.flagF) fun _ _ h => h.recoverEntry) fun _ _ h => fold
    h fun _ _ h => h.verifyRow)
    fun _ _ h => h.withNear (memZero_wf _ _ h.near)

theorem recoveryDone {imgs : Nat → RowImages} (h : MemOk s) : MemOk (recoveryDone s n imgs) :=
  branch h (branch h.recover.setFnF.todo h.recover.setFnF.collOpen)

theorem bugleRecv (h : MemOk s) : MemOk (bugleRecv s n cause serial fromDie fromLine) :=
  branch h (branch (branch h.bugleSend.upd h.bugleSend.bugleAct) h.addF)

theorem fifeBugle (h : MemOk s) : MemOk (fifeBugle s p) := branch h.bugleRecv h

theorem badFrame (h : MemOk s) : MemOk (badFrame s) := h.addF.errUnit

theorem acquireFrame {w : Nat} (h : MemOk s) : MemOk (acquireFrame s w) := by
  fun_cases Machine.acquireFrame
  exacts [h.setF.modLine, h, h.badFrame.toHunt, h.setF.modLine, h.modLine, h.badFrame.toHunt, h.setF.modLine, h.toHunt, h.modLine,
    h.toHunt, h.modLine, h]

theorem lineAcked {p : Nat} (h : MemOk s) : MemOk (lineAcked s p) := by
  fun_cases Machine.lineAcked
  exacts [h.upd, h.upd.recvAck, h.upd, h]

theorem bugleFrame {p : Nat} (h : MemOk s) : MemOk (bugleFrame s p) := fold h (fun _ _ h => h.bugleRecv)

theorem heartbeatFrame (h : MemOk s) : MemOk (heartbeatFrame s v) :=
  branch (branch h.setF.flagF.errUnit.postEvent h.setF.flagF.errUnit) h.setF

theorem reportStage (h : MemOk s) : MemOk (reportStage s stage) := h.upd

theorem modHold {f : HoldPhase → HoldPhase} (h : MemOk s) : MemOk (modHold s f) := h.upd

theorem reachStage (h : MemOk s) : MemOk (reachStage s stage) := h.modHold.reportStage

theorem enterHold (h : MemOk s) : MemOk (enterHold s) :=
  (fold ((fold h.upd.setF.allPathsDown (fun _ _ h => h.sweepAbandon)).upd) (fun _ _ h => branch h.bugleSound h)).reachStage

theorem holdWanted (h : MemOk s) : MemOk (holdWanted s) := branch h.enterHold h

theorem leaveHold {phase : Nat} (h : MemOk s) : MemOk (leaveHold s phase) := h.upd.setF

theorem linePhaseFrame {ph : Nat} (h : MemOk s) : MemOk (linePhaseFrame s ph) := by
  fun_cases Machine.linePhaseFrame
  exacts [h.modLine.setF, h.modLine.setF.modLine, h.modLine, branch h.modLine.allPathsDown.setF.holdWanted h.modLine.allPathsDown.setF,
    h.modLine, h.modLine.leaveHold, h.modLine, h.modLine, branch h.modLine.setF.holdWanted h.modLine.setF, h.modLine]

theorem echoResponse (h : MemOk s) : MemOk (echoResponse s id) := by
  fun_cases Machine.echoResponse
  exacts [h, h, h, h.modLine]

theorem beaconFrame (h : MemOk s) : MemOk (beaconFrame s sub v) := by
  fun_cases Machine.beaconFrame
  exacts [h.modLine, h, h.modLine, h.modLine.advance.upd.setF.setF.modLine, h.modLine, h.modLine]

theorem cancelHold (h : MemOk s) : MemOk (cancelHold s fails) := by
  fun_cases Machine.cancelHold
  exacts [h, fold ((branch h.writeCatalog h).modHold) (fun _ _ h => branch h.recoveryStart h)]

theorem cancelCheck (h : MemOk s) : MemOk (cancelCheck s fails) := by
  fun_cases Machine.cancelCheck
  exacts [h, h.cancelHold, h]

theorem testFrame (h : MemOk s) : MemOk (testFrame s sub v) := by
  fun_cases Machine.testFrame
  exacts [h.modLine, h.modLine, h.modLine.addF, h.modLine, h.modLine.setF, h]

theorem actFrame {p : Nat} (h : MemOk s) : MemOk (actFrame s fails p) := by
  fun_cases Machine.actFrame
  exacts [h.lineAcked, h, h, h.modLine, h.bugleFrame, h, h.heartbeatFrame, h, h.linePhaseFrame, h.echoResponse, h, h.beaconFrame, h, h,
    h.modHold.holdWanted, h.modHold.cancelCheck, h, h.testFrame, h, h]

theorem lineAck (h : MemOk s) : MemOk (lineAck s slot seq) := h.lineQueue

theorem lineResult {head : Nat} {got : List Nat} (h : MemOk s) : MemOk (lineResult s head got) := by
  fun_cases Machine.lineResult
  exacts [h.lineAck.upd, h.lineAck.upd, h.lineAck.upd.todo, ((branch h.lineAck.upd h.lineAck.upd.setColl.todo).setColl).collCombine,
    branch h.lineAck.upd h.lineAck.upd.setColl.todo]

theorem lockedFrame {fc : Nat} {p : Nat} (h : MemOk s) : MemOk (lockedFrame s fails fc p) := by
  fun_cases Machine.lockedFrame
  exacts [(branch h h.modLine).actFrame, (branch h h.modLine).actFrame, ((branch h h.modLine).modLine).lineResult,
    (branch h h.modLine).modLine, ((branch h h.modLine).modLine).actFrame]

theorem lineEvent (h : MemOk s) : MemOk (lineEvent s) := h.postEvent

theorem lockLost (h : MemOk s) : MemOk (lockLost s) := h.flagF.addF.errUnit.huntStart.lineEvent

theorem recvFrame {w : Nat} (h : MemOk s) : MemOk (recvFrame s fails w) :=
  branch h.acquireFrame (branch h.modLine.modLine.lockedFrame (branch h.modLine.modLine.badFrame.lockLost h.modLine.modLine.badFrame))

theorem recvNamed {w : Nat} {sub : Option Nat} (h : MemOk s) : MemOk (recvNamed s fails w kind sub) := by
  fun_cases Machine.recvNamed
  exacts [h.recvFrame, h, h]

theorem recvHeartbeat (h : MemOk s) : MemOk (recvHeartbeat s p) := branch h h.upd.showSuspects

theorem countsTo {p : Plan} {request : Bool} (h : MemOk s) : MemOk (countsTo s n p j request) := h.sendFife

theorem recvCounts (h : MemOk s) : MemOk (recvCounts s p) := by
  fun_cases Machine.recvCounts
  exacts [h, h, h.countsTo, h, h, h.modPlan.sendPuts.putsCheck]

theorem countsSend (h : MemOk s) : MemOk (countsSend s n j) := by
  fun_cases Machine.countsSend
  exacts [h, h, h.advance.modPlan.countsTo]

theorem countsTimeout (h : MemOk s) : MemOk (countsTimeout s n) := by
  fun_cases Machine.countsTimeout
  exacts [h, h, fold h.advance (fun _ _ h => h.countsTo)]

theorem fifePathDown (h : MemOk s) : MemOk (fifePathDown s p) := branch h.pathDown h

theorem messageRepeat (h : MemOk s) : MemOk (messageRepeat s) := by
  fun_cases Machine.messageRepeat
  exacts [h, h.advanceTo.upd.lockLost, h.advanceTo.upd.huntStart, h.advanceTo.addF.upd]

theorem huntExpiry (h : MemOk s) : MemOk (huntExpiry s) := branch h.advanceTo.toHunt.setF.modLine.lineEvent.allPathsDown h

theorem huntRetry (h : MemOk s) : MemOk (huntRetry s) := by
  fun_cases Machine.huntRetry
  exacts [h.advanceTo.huntStart, h, h]

theorem launchTimeout (h : MemOk s) : MemOk (launchTimeout s) := by
  fun_cases Machine.launchTimeout
  exacts [h, h.advanceTo.flagF.setF.modLine]

theorem counterCorrection (h : MemOk s) : MemOk (counterCorrection s) :=
  branch h (fold ((branch h.advance.advance.upd h.advance.upd.advance).setF) (fun _ _ h => h.slip))

theorem spareCore (h : MemOk s) : MemOk (spareCore s n sl core code).1 := branch₁ h (branch h h.modFn.slip)

theorem holdEnd (h : MemOk s) : MemOk (holdEnd s n) := by
  fun_cases Machine.holdEnd
  exacts [h, h.advance.modFn.upd.setFnF.setFnF.deviation]

theorem counterTo (h : MemOk s) : MemOk (counterTo s c) := h.advance

theorem showTurn {u : Nat} (h : MemOk s) : MemOk (showTurn s n u) := h.setFnF

theorem enterTurn (h : MemOk s) : MemOk (enterTurn s n) := h.counterTo.modFn.showTurn

theorem holdStart {position : Nat} {entry : Option Nat} (h : MemOk s) :
    MemOk (holdStart s n cause detail slice core sched position entry) := by
  fun_cases Machine.holdStart
  exacts [h, h.modFn.setFnF.setFnF.setFnF, h.modFn.setFnF]

theorem act {k : ActAt} {imgs : RowSet} {cond : State → ActOn → Cond} {work : State → ActOn → WheelEntry → State} (h : MemOk s)
    (hwork : ∀ t a e, MemOk t → MemOk (work t a e)) : MemOk (act s k code imgs cond work) := by
  unfold Machine.act
  dsimp only
  split
  · exact h
  · split
    · refine branch ?_ h
      split
      · exact h
      · split
        · exact h
        · exact h.holdEnd
        · exact hwork _ _ _ h.holdEnd
    · refine branch h ?_
      split
      · exact counterTo (branch h h.enterTurn)
      · split
        · exact counterTo (branch h h.enterTurn)
        · exact holdStart (counterTo (branch h h.enterTurn))
        · exact hwork _ _ _ (branch (spareCore (counterTo (branch h h.enterTurn))) (counterTo (branch h h.enterTurn)))

theorem readout {top : Int} (h : MemOk s) : ∀ q ∈ readout s n row top, MemOk q.1 := by
  unfold Machine.readout
  split
  · exact fun _ hq => nomatch hq
  · intro q hq
    rw [← Option.mem_some_iff.mp hq]
    exact h.modFn.upd.showLines

theorem putWork {w : RowWork} (h : MemOk s) : MemOk (putWork s n w) := h.modFn

theorem takeLeaf {k : ActOn} (h : MemOk s) : MemOk (takeLeaf s k area a bs) := h.setCore (memWriteN_wf _ _ (h.sram _))

theorem readoutWork {k : ActOn} (h : MemOk s) : MemOk (readoutWork s k) := by
  fun_cases Machine.readoutWork
  · exact h.putWork
  case case2 hread => exact (h.readout _ hread).takeLeaf.putWork

theorem readoutAct (h : MemOk s) : MemOk (readoutAct s k) := h.act (fun _ _ _ h => h.readoutWork)

theorem gcommitWork {k : ActOn} (h : MemOk s) : MemOk (gcommitWork s k) := by
  fun_cases Machine.gcommitWork
  exacts [h.takeLeaf.putWork, h]

theorem gcommitAct (h : MemOk s) : MemOk (gcommitAct s k) := h.act (fun _ _ _ h => h.gcommitWork)

theorem slotStore {d : DeepWrite} (h : MemOk s) : MemOk (slotStore s d).1 := branch₁ h.upd h.heldWrite

theorem freeCore {leaf : Nat × Nat × Nat × Nat} (h : MemOk s) : MemOk (freeCore s i leaf) := branch (h.setCore (h.sram i)) h

theorem gradRelease {w : RowWork} (h : MemOk s) : MemOk (gradRelease s n w) := branch h.freeCore h

theorem rebuiltRow (h : MemOk s) : MemOk (rebuiltRow s n area gen j) :=
  branch h (branch h.modFn.setFnF.setFnF.setFnF.setFnF.postEvent h.modFn.setFnF)

theorem gwriteDone (h : MemOk s) : MemOk (gwriteDone s n m j gen) := by
  fun_cases Machine.gwriteDone
  exacts [h, h.rebuiltRow.putWork.gradRelease]

theorem gwriteWork {k : ActOn} (h : MemOk s) : MemOk (gwriteWork s k) := branch h.slotStore.gwriteDone h.slotStore

theorem gwriteAct (h : MemOk s) : MemOk (gwriteAct s k) := h.act (fun _ _ _ h => h.gwriteWork)

theorem gsendWork {k : ActOn} (h : MemOk s) : MemOk (gsendWork s k) := h.contribute.putWork.gradRelease.todo

theorem gsendAct (h : MemOk s) : MemOk (gsendAct s k) := h.act (fun _ _ _ h => h.gsendWork)

theorem rebuildRow {bad : List Nat} {demand : Bool} (h : MemOk s) : MemOk (rebuildRow s n area gen j imgs bad demand).state :=
  (branch h.decodeRow h.decodeRow.addF).rebuiltRow

theorem holdWork {k : ActOn} (h : MemOk s) : MemOk (holdWork s k area) := by
  fun_cases Machine.holdWork
  exacts [h, ((branch h.slip.rebuildRow h).writeHole).finishRow, ((branch h.slip.rebuildRow h).slotStore).finishRow,
    ((branch h.slip.rebuildRow h).slotStore).putBag, h]

theorem gholdAct (h : MemOk s) : MemOk (gholdAct s k) := h.act (fun _ _ _ h => h.holdWork)

theorem beginRun {sram : Mem} {lanes : List Src} (h : MemOk s) (hs : memWf sram = true) :
    MemOk (beginRun s i sram lanes r) := h.upd.setCore hs

theorem startPrelude {cls : Nat} {old : Option CoreRun} (h : MemOk s) : MemOk (startPrelude s n i cls ticks old) := by
  fun_cases Machine.startPrelude
  · exact h
  · exact h.beginRun (h.sram i).runSram
  · exact h

theorem preludeAct (h : MemOk s) : MemOk (preludeAct s k) := h.act (fun _ _ _ h => h.startPrelude)

theorem settleSlot {k : ActOn} (h : MemOk s) : MemOk (ActOn.settle k s area gen j bad) := branch h.slip.rebuildRow h

theorem lreadWork {k : ActOn} (h : MemOk s) : MemOk (lreadWork s k bad) := by
  unfold Machine.lreadWork
  dsimp only
  split
  · refine branch h.settleSlot (branch h.settleSlot.takeLeaf.putWork (branch ?_ ?_))
    · exact branch (putWork (fold h.settleSlot fun _ _ h => h.settleSlot))
        (takeLeaf (putWork (fold h.settleSlot fun _ _ h => h.settleSlot)))
    · refine putWork (setCore (takeLeaf (fold h.settleSlot fun _ _ h => h.settleSlot)) ?_)
      exact memWriteN_wf _ _ (memZero_wf _ _ (sram (takeLeaf (fold h.settleSlot fun _ _ h => h.settleSlot)) _))
  · exact h

theorem lreadAct {imgs : RowSet} (h : MemOk s) : MemOk (lreadAct s k bad imgs) := h.act (fun _ _ _ h => h.lreadWork)

theorem startLeafRun {old : Option CoreRun} (h : MemOk s) : MemOk (startLeafRun s n i member j ticks old) := by
  fun_cases Machine.startLeafRun
  · exact h
  · exact h
  · exact h.beginRun (h.sram i).runSram
  · exact h

theorem runWork {k : ActOn} (h : MemOk s) : MemOk (runWork s k ticks) := h.startLeafRun.putWork

theorem runAct (h : MemOk s) : MemOk (runAct s k) := h.act (fun _ _ _ h => h.runWork)

theorem serveSrd {imgs : RowSet} (h : MemOk s) : MemOk (serveSrd s i imgs) := by
  unfold Machine.serveSrd
  split
  · exact h
  · split
    · exact h
    · have hsettled : ∀ (k : ActOn) (l : List RangePart), MemOk (l.foldl (fun s p => match p with
        | .coded area gen row => k.settle s area gen row false
        | _ => s) s) := fun k l => fold h fun t p h => by
          split
          · exact h.settleSlot
          · exact h
      refine setCore (hsettled _ _) ?_
      exact (sram (hsettled _ _) i).write _

theorem srdAct {imgs : RowSet} (h : MemOk s) : MemOk (srdAct s k imgs) := h.act (fun _ _ _ h => h.serveSrd)

theorem twinLate (h : MemOk s) : MemOk (twinLate s n row) := by
  fun_cases Machine.twinLate
  exacts [h.setTwin, h.upd.pendAdd.setTwin]

theorem regWork {k : ActOn} (h : MemOk s) : MemOk (regWork s k) := by
  unfold Machine.regWork
  exact (((((branch (branch h.twinLate h) ((branch h.twinLate h).flagF)).nearWrite).upd).ledgerUse).putWork).modFn

theorem regAct (h : MemOk s) : MemOk (regAct s k) := h.act (fun _ _ _ h => h.regWork)

theorem sendWork {k : ActOn} (h : MemOk s) : MemOk (sendWork s k) := by
  fun_cases Machine.sendWork
  exacts [h.contribute.putWork.groupArrive, h.contribute.putWork, h.putWork.launchWait, h.putWork]

theorem sendAct (h : MemOk s) : MemOk (sendAct s k) := h.act (fun _ _ _ h => h.sendWork)

theorem lwriteDone (h : MemOk s) : MemOk (lwriteDone s n m j) := by
  fun_cases Machine.lwriteDone
  exacts [h, putWork (branch (digRecord (by dsimp +zetaDelta only; split; exacts [h.ledgerFree.dropWait, h.ledgerFree]))
    (by dsimp +zetaDelta only; split; exacts [h.ledgerFree.dropWait, h.ledgerFree]))]

theorem lwriteWork {k : ActOn} (h : MemOk s) : MemOk (lwriteWork s k) := branch h.slotStore.lwriteDone h.slotStore

theorem lwriteAct (h : MemOk s) : MemOk (lwriteAct s k) := h.act (fun _ _ _ h => h.lwriteWork)

theorem emitWc {m : Manifest} (h : MemOk s) : MemOk (emitWc s n m l body) := h.emitWcAt

theorem emitWork {k : ActOn} (h : MemOk s) : MemOk (emitWork s k) := by
  fun_cases Machine.emitWork
  exacts [(((branch h.emitWc h).freeCore).putWork).groupArrive, h]

theorem emitAct (h : MemOk s) : MemOk (emitAct s k) := h.act (fun _ _ _ h => h.emitWork)

theorem holdAct {imgs : RowSet} (h : MemOk s) : MemOk (holdAct s k imgs) := h.act (fun _ _ _ h => h.holdWork)

theorem gatherRows {mf : Manifest} {bd : Binding} {list : List Nat} (h : MemOk s) : MemOk (gatherRows s n mf bd list).1 := 
  fold₁ h fun _ _ h => branch₁ h h.flagF.postEvent

theorem fillPart {mf : Manifest} {bd : Binding} {win : Nat} {q : State × List Byte} (h : MemOk q.1) : MemOk (fillPart n mf win q bd).1 := 
  branch₁ h.gatherRows h

theorem armFree {m : Manifest} {w : Nat} (h : MemOk s) : MemOk (armFree s n m w) := h.sealArm

theorem fillWork (h : MemOk s) : MemOk (fillWork s n) := by
  fun_cases Machine.fillWork
  · exact armFree (sealArrive (sealArm (modFn (nearWrite (fold₁ h fun _ _ h => h.fillPart)))))
  · exact h

theorem fillAct (h : MemOk s) : MemOk (fillAct s k) := h.act (fun _ _ _ h => h.fillWork)

theorem mgmtAct (h : MemOk s) : MemOk (mgmtAct s k) := h.act (fun _ _ _ h => h)

theorem stallWatchdog (h : MemOk s) : MemOk (stallWatchdog s n) := by
  fun_cases Machine.stallWatchdog
  exacts [h, h, h.counterTo, h.counterTo.postEvent]

theorem schedBegin {at_ : Nat} (h : MemOk s) : MemOk (schedBegin s n sched at_) := h.counterTo.modFn.setFnF.showTurn

theorem armPass (h : MemOk s) : MemOk (armPass s n load) := by
  fun_cases Machine.armPass
  exacts [h.modFn.sealArm.sealArrive, h]

theorem passStart {rerun : Bool} (h : MemOk s) : MemOk (passStart s n rerun) := by
  fun_cases Machine.passStart
  exacts [h, (((((branch h.slip h).schedBegin).modFn).setFnF).setFnF).armPass, h]

theorem intakeStart (h : MemOk s) : MemOk (intakeStart s n) := by
  fun_cases Machine.intakeStart
  exacts [h, h.schedBegin.modFn, h]

theorem loadSend {mem : Nat} (h : MemOk s) : MemOk (loadSend s n mem j image) := by
  fun_cases Machine.loadSend
  exacts [h.contribute, h]

theorem loadPassStart (h : MemOk s) : MemOk (loadPassStart s n) := by
  fun_cases Machine.loadPassStart
  exacts [fold (fold h.counterTo.modFn.setFnF.armPass (fun _ _ h => h.loadSend)) (fun _ _ h => h.loadSend), h, h]

theorem auditNote {step : Nat} {r : AuditRes} (h : MemOk s) : MemOk (auditNote s i tensor leaf step r) := by
  fun_cases Machine.auditNote
  exacts [h.upd, h, h]

theorem twinLocal (h : MemOk s) : MemOk (twinLocal s n mine) := by
  fun_cases Machine.twinLocal
  exacts [h, h.twinSend.upd.setPend.twinCompare, h.twinSend.upd.upd.setTwin]

theorem commitLeaf (h : MemOk s) : MemOk (commitLeaf s i r) := by
  unfold Machine.commitLeaf
  dsimp only
  split
  · split
    · exact h
    · refine branch (twinLocal (auditNote (putWork (setCore h ?_)))) (auditNote (putWork (setCore h ?_)))
      all_goals exact (h.sram i).write _
  · exact setCore h (h.sram i)

theorem runWindowEnd (h : MemOk s) : MemOk (runWindowEnd s i) := by
  unfold Machine.runWindowEnd
  split
  · exact h
  · exact branch h (branch (h.advanceTo.setCore (h.advanceTo.sram i)) h.advanceTo.commitLeaf)

theorem trapInfo {multiple : Bool} (h : MemOk s) : MemOk (trapInfo s i code r multiple) :=
  h.setFnF.setFnF.setFnF.setFnF.setFnF.setFnF.setFnF.setFnF

theorem programFault (h : MemOk s) : MemOk (programFault s i code r) :=
  branch (((((branch h.setFnF h.trapInfo).modFn).flagF).errFn).postEvent)
    ((((((branch h.setFnF h.trapInfo).modFn).flagF).errFn).postEvent).todo)

theorem trapRun (h : MemOk s) : MemOk (trapRun s i code r) := programFault (setCore h (h.sram i))

theorem runBudgetExpiry (h : MemOk s) : MemOk (runBudgetExpiry s i) := by
  fun_cases Machine.runBudgetExpiry
  exacts [h, h, h.advanceTo.trapRun]

theorem runRestart {imgs : RowSet} (h : MemOk s) : MemOk (runRestart s i imgs) := by
  unfold Machine.runRestart
  split
  · exact h
  · refine branch h ?_
    refine branch (startPrelude (slip (addF (advance h)))) ?_
    refine startLeafRun ?_
    split
    · exact slip (addF (advance h))
    · refine branch (lreadWork (modFn (settleSlot (slip (addF (advance h)))))) ?_
      split
      · exact lreadWork (modFn (fold (slip (addF (advance h))) fun _ _ h => h.settleSlot))
      · exact slip (addF (advance h))

theorem fabricTimeout {sl c : Nat} (h : MemOk s) : MemOk (fabricTimeout s sl c) := by
  unfold Machine.fabricTimeout
  split
  · exact h
  next q _ =>
    cases hq : q.owner with
    | core a b r =>
      refine flagF (setCore (upd (advanceTo h)) (SramOk.setS ?_))
      exact sram (upd (advanceTo h)) _

theorem residueRetry (h : MemOk s) : MemOk (residueRetry s i n) := h.addF.errSlice.slip

theorem reworkLeaf {l : Option (Nat × Nat × Nat × Nat)} (h : MemOk s) : MemOk (reworkLeaf s l) := by
  fun_cases Machine.reworkLeaf
  exacts [h.modFn, h]

theorem failCore (h : MemOk s) : MemOk (failCore s i code) := by
  refine branch h ?_
  have hlost : ∀ c : CoreSt, SramOk c → MemOk (Machine.setCore
    (Machine.postEvent (Machine.errSlice (Machine.setF s (pgSlice (i / 32)) SL_CORE_STATUS_FAILED
      (putBit (getF s (pgSlice (i / 32)) SL_CORE_STATUS_FAILED) (i % 32) true)) HDR_ERR_SUMMARY_CORE (i / 32)) 0 0x0021
      (leBytes 1 (i / 32) ++ leBytes 1 (i % 32) ++ leBytes 1 code)) i c) := fun c hc => setCore (postEvent (errSlice (setF h))) hc
  refine branch (todo (fold (escalate (escalate (hlost _ ?_))) fun _ _ h => h.todo)) (reworkLeaf (hlost _ ?_))
  all_goals exact sram (postEvent (errSlice (setF h))) i

theorem ueTrap {decode : Option Nat} {c : CoreSt} (h : MemOk s) (hc : SramOk c) : MemOk (ueTrap s i code decode c r) :=
  branch h.errSlice.failCore (h.errSlice.setCore hc)

theorem meetErr {e : CoreErr} {c : CoreSt} (h : MemOk s) (hc : SramOk c) : MemOk (meetErr s i e residue c r).1 := by
  cases e with
  | none => exact h
  | residueOnce => exact branchPair h.residueRetry h
  | residueTwice => exact branchPair h.residueRetry.failCore h
  | fetchUe => exact h.ueTrap hc
  | dataUe a => exact h.ueTrap hc

theorem endBundle {c : CoreSt} {vec : Option (Nat × Nat)} {next : Option Nat} {taken : Bool} (h : MemOk s) (hc : SramOk c) :
    MemOk (endBundle s i c vec next taken) := by
  unfold Machine.endBundle
  split
  · exact h.setCore hc
  · exact branch (setCore h hc.applyA) (trapRun (setCore h hc.applyA))

/-- What the body of a port-B instruction answers with leaves the memories canonical. -/
inductive BOk : BRes → Prop
  | trap {k : Nat} : BOk (.trap k)
  | soft {k : Nat} : BOk (.soft k)
  | wait {s : State} (h : MemOk s) : BOk (.wait s)
  | done {s : State} {c : CoreSt} {vec : Option (Nat × Nat)} {next : Option Nat} {taken : Bool} (h : MemOk s) (hc : SramOk c) :
      BOk (.done s c vec next taken)

theorem BOk.branch {c : Prop} [Decidable c] {p q : BRes} (hp : BOk p) (hq : BOk q) : BOk (if c then p else q) := by
  split
  · exact hp
  · exact hq

theorem issueB {f : State → CoreSt → CoreRun → BRes} (h : MemOk s) (hf : ∀ t c r, MemOk t → SramOk c → BOk (f t c r)) :
    MemOk (issueB s at_ word residue f) := by
  unfold Machine.issueB
  dsimp only
  split
  · exact h
  next r _ =>
    split
    next hmeet => exact fst_of_eq hmeet (h.meetErr (h.sram _))
    next t hmeet =>
      have hmet := fst_of_eq hmeet (h.meetErr (h.sram _))
      have hbody := hf t _ r hmet (h.sram (coreIx at_.slice at_.core))
      generalize f t (coreSt s (coreIx at_.slice at_.core)) r = q at hbody
      cases hbody with
      | trap => exact hmet.trapRun
      | soft => exact hmet.modFn.trapRun
      | wait ht => exact ht
      | done ht hc => exact ht.endBundle hc

theorem nopB (h : MemOk s) : MemOk (nopB s at_ rest) := h.issueB fun _ _ _ ht hc => .done ht hc

theorem issueA {f : CoreSt → CoreRun → ARes} (h : MemOk s) : MemOk (issueA s at_ word residue f) := by
  unfold Machine.issueA
  dsimp only
  split
  · exact h
  · refine branch h.trapRun ?_
    split
    next hmeet => exact fst_of_eq hmeet (h.meetErr (h.sram _))
    next hmeet =>
      have hmet := fst_of_eq hmeet (h.meetErr (h.sram _))
      split
      · exact hmet.trapRun
      · exact setCore hmet (h.sram _)

theorem nopA (h : MemOk s) : MemOk (nopA s at_ rest) := h.issueA

theorem vectorOp {g : CoreSt → List Rnd → List Nat} (h : MemOk s) : MemOk (vectorOp s at_ f op g) := h.issueA

theorem vaddOp (h : MemOk s) : MemOk (vaddOp s at_ f) := h.vectorOp

theorem vsubOp (h : MemOk s) : MemOk (vsubOp s at_ f) := h.vectorOp

theorem vmulOp (h : MemOk s) : MemOk (vmulOp s at_ f) := h.vectorOp

theorem vfmaOp (h : MemOk s) : MemOk (vfmaOp s at_ f) := h.vectorOp

theorem vfnmaOp (h : MemOk s) : MemOk (vfnmaOp s at_ f) := h.vectorOp

theorem vminOp (h : MemOk s) : MemOk (vminOp s at_ f) := h.vectorOp

theorem vmaxOp (h : MemOk s) : MemOk (vmaxOp s at_ f) := h.vectorOp

theorem vdivOp (h : MemOk s) : MemOk (vdivOp s at_ f) := h.vectorOp

theorem vsqrtOp (h : MemOk s) : MemOk (vsqrtOp s at_ f) := h.vectorOp

theorem vabsOp (h : MemOk s) : MemOk (vabsOp s at_ f) := h.vectorOp

theorem vnegOp (h : MemOk s) : MemOk (vnegOp s at_ f) := h.vectorOp

theorem vsignOp (h : MemOk s) : MemOk (vsignOp s at_ f) := h.vectorOp

theorem vselOp (h : MemOk s) : MemOk (vselOp s at_ f) := h.issueA

theorem vcmpOp (h : MemOk s) : MemOk (vcmpOp s at_ f) := h.issueA

theorem vcvtOp (h : MemOk s) : MemOk (vcvtOp s at_ f) := h.vectorOp

theorem vsplatOp (h : MemOk s) : MemOk (vsplatOp s at_ f) := h.vectorOp

theorem vpowiOp (h : MemOk s) : MemOk (vpowiOp s at_ f) := h.vectorOp

theorem vrsumOp (h : MemOk s) : MemOk (vrsumOp s at_ f) := h.vectorOp

theorem vmodeOp (h : MemOk s) : MemOk (vmodeOp s at_ f) := h.issueA

theorem vxorOp (h : MemOk s) : MemOk (vxorOp s at_ f) := h.vectorOp

theorem vgfmulOp (h : MemOk s) : MemOk (vgfmulOp s at_ f) := h.vectorOp

theorem vgfmacOp (h : MemOk s) : MemOk (vgfmacOp s at_ f) := h.vectorOp

theorem tileOp {g : CoreSt → Option AWrite} (h : MemOk s) : MemOk (tileOp s at_ f op g) := h.issueA

theorem tzeroOp (h : MemOk s) : MemOk (tzeroOp s at_ f) := h.tileOp

theorem tmmaOp (h : MemOk s) : MemOk (tmmaOp s at_ f) := h.tileOp

theorem trdOp (h : MemOk s) : MemOk (trdOp s at_ f) := h.tileOp

theorem vldOp {f : MForm} (h : MemOk s) : MemOk (vldOp s at_ f) :=
  h.issueB fun t c r ht hc => .branch .trap (.branch .trap (.done ht (SramOk.incremented (by exact hc) f.inc)))

theorem vstOp {f : MForm} (h : MemOk s) : MemOk (vstOp s at_ f) :=
  h.issueB fun t c r ht hc => .branch .trap (.branch .trap (.done ht (SramOk.incremented (by exact hc.write _) f.inc)))

theorem vldbOp {f : IForm} (h : MemOk s) : MemOk (vldbOp s at_ f) := h.issueB fun _ _ _ ht hc => .branch .trap (.done ht hc)

theorem scalarLoad {f : IForm} (h : MemOk s) : MemOk (scalarLoad s at_ f op n) :=
  h.issueB fun _ _ _ ht hc => .branch .trap (.done ht hc.setS)

theorem sldOp {f : IForm} (h : MemOk s) : MemOk (sldOp s at_ f) := h.scalarLoad

theorem sldwOp {f : IForm} (h : MemOk s) : MemOk (sldwOp s at_ f) := h.scalarLoad

theorem sstOp {f : IForm} (h : MemOk s) : MemOk (sstOp s at_ f) := h.issueB fun _ _ _ ht hc => .branch .trap (.done ht (hc.write _))

theorem sliOp {f : LForm} (h : MemOk s) : MemOk (sliOp s at_ f) := h.issueB fun _ _ _ ht hc => .done ht hc.setS

theorem slihOp {f : LForm} (h : MemOk s) : MemOk (slihOp s at_ f) := h.issueB fun _ _ _ ht hc => .done ht hc.setS

theorem intOp {g : Nat → Nat → Nat} (h : MemOk s) : MemOk (intOp s at_ f op g) := h.issueB fun _ _ _ ht hc => .done ht hc.setS

theorem saddOp (h : MemOk s) : MemOk (saddOp s at_ f) := h.intOp

theorem intImmOp {f : IForm} {g : Nat → Nat → Nat} (h : MemOk s) : MemOk (intImmOp s at_ f op g) :=
  h.issueB fun _ _ _ ht hc => .done ht hc.setS

theorem saddiOp {f : IForm} (h : MemOk s) : MemOk (saddiOp s at_ f) := h.intImmOp

theorem ssubOp (h : MemOk s) : MemOk (ssubOp s at_ f) := h.intOp

theorem smulOp (h : MemOk s) : MemOk (smulOp s at_ f) := h.intOp

theorem sandOp (h : MemOk s) : MemOk (sandOp s at_ f) := h.intOp

theorem sandiOp {f : IForm} (h : MemOk s) : MemOk (sandiOp s at_ f) := h.intImmOp

theorem sorOp (h : MemOk s) : MemOk (sorOp s at_ f) := h.intOp

theorem sxorOp (h : MemOk s) : MemOk (sxorOp s at_ f) := h.intOp

theorem sshlOp (h : MemOk s) : MemOk (sshlOp s at_ f) := h.intOp

theorem sshrOp (h : MemOk s) : MemOk (sshrOp s at_ f) := h.intOp

theorem floatOp {g : CoreSt → Rnd → Nat} (h : MemOk s) : MemOk (floatOp s at_ f op g) :=
  h.issueB fun _ _ _ ht hc => .branch .trap (.done ht (SramOk.setS hc))

theorem fp64Op {g : Machine.Num → Machine.Num → Machine.Num → Machine.Num} (h : MemOk s) : MemOk (fp64Op s at_ f op g) := h.floatOp

theorem sfaddDOp (h : MemOk s) : MemOk (sfaddDOp s at_ f) := h.fp64Op

theorem sfmulDOp (h : MemOk s) : MemOk (sfmulDOp s at_ f) := h.fp64Op

theorem sffmaDOp (h : MemOk s) : MemOk (sffmaDOp s at_ f) := h.fp64Op

theorem sfdivDOp (h : MemOk s) : MemOk (sfdivDOp s at_ f) := h.fp64Op

theorem sfsqrtDOp (h : MemOk s) : MemOk (sfsqrtDOp s at_ f) := h.fp64Op

theorem sfcvtOp (h : MemOk s) : MemOk (sfcvtOp s at_ f) := h.floatOp

theorem fp32Op {g : Machine.Num → Machine.Num → Machine.Num} (h : MemOk s) : MemOk (fp32Op s at_ f op g) := h.floatOp

theorem sfmulSOp (h : MemOk s) : MemOk (sfmulSOp s at_ f) := h.fp32Op

theorem sfaddSOp (h : MemOk s) : MemOk (sfaddSOp s at_ f) := h.fp32Op

theorem branchOp {f : JForm} {cond : Nat → Bool} (h : MemOk s) : MemOk (branchOp s at_ f op cond) :=
  h.issueB fun _ _ _ ht hc => .branch (.done ht hc) (.done ht hc)

theorem brOp {f : JForm} (h : MemOk s) : MemOk (brOp s at_ f) := h.branchOp

theorem bzOp {f : JForm} (h : MemOk s) : MemOk (bzOp s at_ f) := h.branchOp

theorem bnzOp {f : JForm} (h : MemOk s) : MemOk (bnzOp s at_ f) := h.branchOp

theorem bnegOp {f : JForm} (h : MemOk s) : MemOk (bnegOp s at_ f) := h.branchOp

theorem loopOp {f : JForm} (h : MemOk s) : MemOk (loopOp s at_ f) := h.issueB fun _ _ _ ht hc => .branch (.done ht hc) (.done ht hc)

theorem haltOp {f : JForm} (h : MemOk s) : MemOk (haltOp s at_ f) := h.issueB fun _ _ _ ht hc => .done (branch ht.modFn ht) hc

theorem trapOp {f : JForm} (h : MemOk s) : MemOk (trapOp s at_ f) := h.issueB fun _ _ _ _ _ => .soft

theorem srdOp (h : MemOk s) : MemOk (srdOp s at_ f) := by
  refine h.issueB fun t c r ht hc => .branch .trap ?_
  split
  · exact .trap
  · exact .wait ht.holdStart
  · have hend : MemOk (match (fnSt t r.fn).hold with
        | some q => if q.entry = none ∧ q.slice = at_.slice ∧ q.core = at_.core then Machine.holdEnd t r.fn else t
        | none => t) := by
      split
      · exact branch ht.holdEnd ht
      · exact ht
    exact .branch (.done hend hc) (.done hend hc)

theorem swaitOp {f : JForm} (h : MemOk s) : MemOk (swaitOp s at_ f) := h.issueB fun _ _ _ ht hc => .branch (.done ht hc) (.wait ht)

theorem pmrdOp {f : IForm} (h : MemOk s) : MemOk (pmrdOp s at_ f) := h.issueB fun _ _ _ ht hc => .branch .trap (.done ht hc.setS)

theorem pmwxOp {f : IForm} (h : MemOk s) : MemOk (pmwxOp s at_ f) :=
  h.issueB fun _ _ _ ht hc => .branch .trap (.branch (.done ht (hc.write _)) (.done ht hc))

theorem stimeOp {f : LForm} (h : MemOk s) : MemOk (stimeOp s at_ f) := h.issueB fun _ _ _ ht hc => .done ht hc.setS

theorem ownRefused (h : MemOk s) : MemOk (ownRefused s n dst off) := h.flagF.errFn.postEvent

theorem coreRequest {c : CoreSt} {reg : Nat} (h : MemOk s) : MemOk (coreRequest s at_ c n type dst off reg payload).1 := by
  fun_cases Machine.coreRequest
  exacts [h.ownRefused, h.storeDrop, h.sendPacket, h.sendPacket.upd]

theorem coreRequest_sram {c : CoreSt} {reg : Nat} (hc : SramOk c) :
    SramOk (Machine.coreRequest s at_ c n type dst off reg payload).2 := by
  fun_cases Machine.coreRequest
  case case1 =>
    dsimp only
    split
    · exact hc
    · exact hc.setS
  all_goals exact hc

theorem fabricOp {payload : CoreSt → List Byte} (h : MemOk s) : MemOk (fabricOp s at_ f op type payload) :=
  h.issueB fun _ _ _ ht hc => .done ht.coreRequest (coreRequest_sram hc)

theorem fldOp (h : MemOk s) : MemOk (fldOp s at_ f) := h.fabricOp

theorem fstOp (h : MemOk s) : MemOk (fstOp s at_ f) := h.fabricOp

theorem faddOp (h : MemOk s) : MemOk (faddOp s at_ f) := h.fabricOp

theorem fcasOp (h : MemOk s) : MemOk (fcasOp s at_ f) := h.fabricOp

theorem fwaitOp {f : JForm} (h : MemOk s) : MemOk (fwaitOp s at_ f) := h.issueB fun _ _ _ ht hc => .branch (.done ht hc) (.wait ht)

theorem intentAcked (h : MemOk s) : MemOk (intentAcked s n m j) := by
  fun_cases Machine.intentAcked
  exacts [h, h, h.upd.putWork]

theorem deepRead (h : MemOk s) : MemOk (deepRead s ch block raw owner) := h.readBlock

theorem deepDone {d : DeepWrite} (h : MemOk s) : MemOk (deepDone s d) := by
  fun_cases Machine.deepDone
  exacts [h.upd.heldWrite.slip.finishRow, h.upd.heldWrite.slip, h.upd.heldWrite.slip.gwriteDone, h.upd.heldWrite.slip.lwriteDone]

theorem deepWriteComplete (h : MemOk s) : MemOk (deepWriteComplete s sl) := by
  fun_cases Machine.deepWriteComplete
  exacts [h, h.deepDone, h]

theorem eraseSlot (h : MemOk s) : MemOk (eraseSlot s n m area gen row) := by
  refine addF ?_
  split
  · exact h
  · exact branch h.rangeWrite (h.withDeep (memWriteN_wf _ _ h.deep))

theorem eraseAndDecode (h : MemOk s) : MemOk (eraseAndDecode s n m area gen row imgs) := branch h.eraseSlot h.eraseSlot.rebuildRow

theorem regenCopy (h : MemOk s) : MemOk (regenCopy s n tensor leaf) := by
  fun_cases Machine.regenCopy
  exacts [h, fold h (fun _ _ h => branch h (branch h.emitWcAt h.emitWcAt))]

theorem ownerLost (h : MemOk s) : MemOk (ownerLost s owner imgs) := by
  fun_cases Machine.ownerLost
  exacts [h.eraseAndDecode, h.regenCopy, h, h.todo, h, h]

theorem nearReadDone {r : NearRegion} {uncorrectable : Bool} (h : MemOk s) : MemOk (nearReadDone s r uncorrectable imgs) := by
  fun_cases Machine.nearReadDone
  exacts [h, h.todo, h.todo, h.nearWrite, h.ownerLost, h.upd.sweepMark, h, h]

theorem channelResume (h : MemOk s) : MemOk (channelResume s ch raw imgs) := by
  fun_cases Machine.channelResume
  exacts [h, h, h.modInteg.setChan.modInteg.ownerLost, h.modInteg.setChan.modInteg, h.modInteg.setChan]

theorem ceWriteback {overwritten : Bool} (h : MemOk s) : MemOk (ceWriteback s ch block overwritten) := by
  fun_cases Machine.ceWriteback
  exacts [h, h.modInteg, h.modInteg]

theorem hardFault (h : MemOk s) : MemOk (hardFault s ch block) := by
  fun_cases Machine.hardFault
  exacts [h.remapEntry, h.setChan.errSlice.modInteg.postEvent.logWrite]

theorem hardFaultCheck (h : MemOk s) : MemOk (hardFaultCheck s ch block raw) := by
  fun_cases Machine.hardFaultCheck
  exacts [h, h.modInteg.hardFault, h.modInteg]

theorem verifyAt (h : MemOk s) : MemOk (verifyAt s n area gen j imgs).state := branchRow h.verifyRow h.rebuildRow

theorem erasureReencode (h : MemOk s) : MemOk (erasureReencode s n area gen j imgs) := by
  fun_cases Machine.erasureReencode
  exacts [h, h.verifyAt, h]

theorem receiptTimeout (h : MemOk s) : MemOk (receiptTimeout s n) := by
  fun_cases Machine.receiptTimeout
  exacts [h, h, h.advanceTo.todo]

theorem dataLate (h : MemOk s) : MemOk (dataLate s) := branch h.modInteg.flagF.postEvent h

theorem droneRead (h : MemOk s) : MemOk (droneRead s ch raw owner) :=
  branch h (branch h.modInteg.readBlock.dataLate.setF.modInteg.setF h.modInteg.readBlock.dataLate.setF)

theorem parityRow (h : MemOk s) : MemOk (parityRow s n imgs) := by
  fun_cases Machine.parityRow
  exacts [h, h, h, (branch h.verifyAt.modInteg.modInteg.flagF.postEvent h.verifyAt.modInteg).setF,
    (((branch h.verifyAt.modInteg.modInteg.flagF.postEvent h.verifyAt.modInteg).setF).modInteg).setF, h]

theorem auditLateCount (h : MemOk s) : MemOk (auditLateCount s sl) := h.addF.errSlice

theorem auditSelect (h : MemOk s) : MemOk (auditSelect s sl c) := by
  fun_cases Machine.auditSelect
  exacts [h, h, h.auditLateCount, h.modInteg]

theorem auditFree (h : MemOk s) : MemOk (auditFree s sl) := h.modInteg

theorem auditCounted (h : MemOk s) : MemOk (auditCounted s sl) := h.addF.auditFree

theorem auditorRun {r : AuditRes} (h : MemOk s) : MemOk (auditorRun s sl r) := by
  fun_cases Machine.auditorRun
  exacts [h, h.auditCounted, h.modInteg, h, h]

theorem auditFault {a : Audit} {line : Nat} (h : MemOk s) : MemOk (auditFault s sl a line) :=
  h.flagF.setF.setF.flagF.errSlice.postEvent.postEvent.logWrite.failCore

theorem refereeRun {r : AuditRes} (h : MemOk s) : MemOk (refereeRun s sl r) := by
  fun_cases Machine.refereeRun
  exacts [h, h.auditCounted.failCore, h.auditCounted.auditFault, h.auditCounted.flagF.errSlice.postEvent, h, h]

theorem auditTimeout (h : MemOk s) : MemOk (auditTimeout s sl) := by
  fun_cases Machine.auditTimeout
  exacts [h, h.advanceTo.auditLateCount.auditFree, h.advanceTo.auditLateCount.auditFree.modInteg.postEvent, h]

theorem occupancyWindow {deep : List (List Nat)} {near : List (List Nat)} (h : MemOk s) : MemOk (occupancyWindow s deep near) :=
  fold h.advanceTo.upd (fun _ _ h => fold (fold h.setF.setF.setF.setF (fun _ _ h => branch h.setF.postEvent h))
    (fun _ _ h => branch h.setF.postEvent h))

theorem powerError {f : Fld} (h : MemOk s) : MemOk (powerError s f) := h.raiseUnit.errUnit

theorem powerWindow {watts : Nat} (h : MemOk s) : MemOk (powerWindow s watts) :=
  branch h.advanceTo.setF.modPwr.powerError h.advanceTo.setF.modPwr

theorem thermalSample {temp : Nat} {hot : Nat} (h : MemOk s) : MemOk (thermalSample s temp hot) :=
  branch ((branch h.setF.setF.powerError h.setF.setF).powerError) (branch h.setF.setF.powerError h.setF.setF)

theorem marginWindow {mins : List Nat} (h : MemOk s) : MemOk (marginWindow s mins room) := by
  fun_cases Machine.marginWindow
  exacts [h.advanceTo.upd.setF.setF.setF.setF.postEvent, fold h.advanceTo.upd.setF.setF.setF.setF.postEvent
    (fun _ _ h => branch h.evacRequest h), h.advanceTo.upd.setF.setF.setF.setF]

theorem refreshIndication {rate : Nat} (h : MemOk s) : MemOk (refreshIndication s sl rate) := by
  fun_cases Machine.refreshIndication
  exacts [h.upd.showRates, fold h.upd.showRates (fun _ _ h => h.slip)]

theorem msiModerated (h : MemOk s) : MemOk (msiModerated s n vec) := branch h.advanceTo.upd h

theorem migrationCopied (h : MemOk s) : MemOk (migrationCopied s n) := branch h h.modFn

theorem rewriteCopies {m : Manifest} (h : MemOk s) : MemOk (rewriteCopies s n m) :=
  fold h (fun _ _ h => branch h (branch h.emitWcAt h.emitWcAt))

theorem formatComplete (h : MemOk s) : MemOk (formatComplete s n) := by
  fun_cases Machine.formatComplete
  exacts [(((branch h.formatGrads.rewriteCopies h.formatAll).modFn).setFnF).startBarrier, h, h]

theorem drainEnd {forced : Bool} (h : MemOk s) : MemOk (drainEnd s n forced) := by
  unfold Machine.drainEnd
  extract_lets toOff reset s₁ s₂ s₃ s₄ s₅ s₆ s₇ s₈ s₉ s₁₀ s₁₁ s₁₂ s₁₃ s₁₄
  have h₇ : MemOk s₇ := fold h.upd.sealDisarmAll.dropColls.transferDrop.modFn.setFnF.upd fun _ _ h => h.complete
  have h₈ : MemOk s₈ := h₇.modFn.abortOver
  have h₁₁ : MemOk s₁₁ := branch h₈.clearPage.modFn.setFnF h₈
  have h₁₂ : MemOk s₁₂ := h₁₁.setFnF.setFnF.setFnF
  have h₁₃ : MemOk s₁₃ := branch h₁₂.flagF h₁₂
  have h₁₄ : MemOk s₁₄ := h₁₃.setFnState.watchUpdate
  exact showRetained (branch h₁₄.disarm h₁₄)

theorem drainComplete {imgs : Nat → RowImages} (h : MemOk s) : MemOk (drainComplete s n imgs) := branch h (branch h h.recover.drainEnd)

theorem drainForced (h : MemOk s) : MemOk (drainForced s n) := by
  fun_cases Machine.drainForced
  exacts [h.advanceTo.drainEnd, h, h]

theorem heartbeatSend (h : MemOk s) : MemOk (heartbeatSend s i) := by
  fun_cases Machine.heartbeatSend
  exacts [h, h, h, h.advance.upd.sendPacket]

theorem suspectTimeout (h : MemOk s) : MemOk (suspectTimeout s i) := by
  fun_cases Machine.suspectTimeout
  exacts [h, h, h.advanceTo.upd.showSuspects]

theorem isolationTimeout (h : MemOk s) : MemOk (isolationTimeout s) := branch h (fold h.advanceTo.flagF (fun _ _ h => h.modFn.todo))

theorem declareTimeout (h : MemOk s) : MemOk (declareTimeout s n m) := by
  fun_cases Machine.declareTimeout
  exacts [h, h, h.advanceTo.unconfirmed, fold h.advanceTo.modFn (fun _ _ h => h.membSend)]

theorem membRepeat (h : MemOk s) : MemOk (membRepeat s n) := by
  fun_cases Machine.membRepeat
  exacts [h, h.advanceTo.upd.membStore, h.advanceTo.upd.bumpCheck, h.advanceTo.upd.unconfirmed, h.advanceTo.upd,
    h.advanceTo.upd.modFn.bgComplete, h.advanceTo.upd.bgComplete, h.advanceTo.upd]

theorem copyStart (h : MemOk s) : MemOk (copyStart s n mode subj target) := branch h h.modFn.setFnF.setFnF.setFnF.setFnF.showRecord

theorem copySlot {imgs : RowSet} (h : MemOk s) : MemOk (copySlot s n mode subj target imgs) := by
  unfold Machine.copySlot
  extract_lets s₁
  have h₁ : MemOk s₁ := branch h.copyStart h
  split
  · exact h₁
  · refine branch h₁ ?_
    split
    · exact h₁.copyCheck
    · extract_lets q walk s₂ c s₃ s₄ x slot w
      have h₂ : MemOk s₂ := branch h₁ h₁.rebuildRow
      have h₄ : MemOk s₄ := branch h₂.modFn.setFnF h₂.modFn
      exact fold h₄.upd fun _ _ h => h.sendTo

theorem backgroundRebuild {imgs : RowSet} (h : MemOk s) : MemOk (backgroundRebuild s n imgs) := by
  fun_cases Machine.backgroundRebuild
  exacts [h, h, (((branch h.modFn.rebuiltRow h.modFn.rebuildRow).modFn).bgComplete).todo, branch h.modFn.rebuiltRow h.modFn.rebuildRow,
    h.rebuildRow]

theorem lateOnce (h : MemOk s) : MemOk (lateOnce s n sl area j) := branch h h.modFn.slip

theorem absorbedDo {k : ActOn} (h : MemOk s) : MemOk (absorbedDo s k code bad ticks) :=
  branch (branch h.putWork.gsendWork.lateOnce h) (branch (branch h.holdWork.lateOnce h)
    (branch (branch h.lreadWork.lateOnce h) (branch (branch h.runWork.lateOnce h)
    (branch (branch h.regWork.lateOnce h) (branch (branch h.sendWork.lateOnce h)
    (branch (branch h.lwriteWork.lateOnce h) (branch (branch h.emitWork.lateOnce h) (branch (branch h.holdWork.lateOnce h) h))))))))

theorem absorbedWork {k : AbsAt} {imgs : RowSet} (h : MemOk s) : MemOk (absorbedWork s k code bad imgs) := branch h h.absorbedDo

theorem fly {p : FlProg} (h : MemOk s) : MemOk (fly s p) := h.modFloor

theorem sweepRead (h : MemOk s) : MemOk (sweepRead s n) := by
  fun_cases Machine.sweepRead
  exacts [h, h, h.sweepMark.showSnap, h.sweepMark.showSnap, h.sweepMark.fly, h]

theorem pushDrain (h : MemOk s) : MemOk (pushDrain s) := by
  fun_cases Machine.pushDrain
  exacts [h, h, h.upd.fly]

theorem openBand {owner : Nat} (h : MemOk s) : MemOk (openBand fails eraseBad s owner).1 := by
  unfold Machine.openBand
  dsimp only
  split
  · exact h
  · exact h.openBandRaw.newCatalog

theorem progSnap {st : State × List Nat × List Nat} (h : MemOk st.1) : MemOk (progSnap fails id st data).1 := by
  unfold Machine.progSnap
  obtain ⟨s, bands, out⟩ := st
  dsimp only
  have hfirst : MemOk (match bands.getLast? with
    | some b => Machine.progPage fails s b data 129
    | none => (s, none)).1 := by
    split
    · exact h.progPage
    · exact h
  split
  next heq => exact fst_of_eq heq hfirst
  next heq =>
    have hclosed : ∀ t, MemOk t → MemOk (match bands.getLast? with
        | some b => Machine.setBand t b { bandAt t b with state := 2 }
        | none => t) := by
      intro t ht
      split
      · exact ht.setBand
      · exact ht
    have hopen := fun t (ht : MemOk t) => (hclosed t ht).openBand (fails := fails) (eraseBad := 0) (owner := id)
    split
    next hband =>
      have hnew := fst_of_eq hband (hopen _ (fst_of_eq heq hfirst))
      split
      next hpage => exact fst_of_eq hpage hnew.progPage
      next hpage => exact fst_of_eq hpage hnew.progPage
    next hband => exact fst_of_eq hband (hopen _ (fst_of_eq heq hfirst))

theorem snapSealed (h : MemOk s) : MemOk (snapSealed s n fails) := by
  unfold Machine.snapSealed
  dsimp only
  split
  next sw g _ _ =>
    refine branch h ?_
    have hpages := fun l : List (List Byte) => fold₁ (l := l) (q := (s, sw.bands, ([] : List Nat)))
      (f := Machine.progSnap fails sw.snapId) h fun _ _ h => h.progSnap
    split
    · exact sweepAbandon (progSnap (hpages _))
    · exact showSnap (snapCommand (postEvent (newCatalog (fold (modFn (modSnap (fold (progSnap (hpages _)) fun _ _ h => h.setBand)))
        fun _ _ h => h.retire))))
  · exact h

theorem slotWritten {p : FlProg} (h : MemOk s) : MemOk (slotWritten s p fpa) := by
  unfold Machine.slotWritten
  exact h.sweepMark.modFn

theorem programDone (h : MemOk s) : MemOk (programDone s ok eraseBad) := by
  have hclosed : ∀ l : List Nat, MemOk (match l.getLast? with
      | some b => Machine.setBand s b { bandAt s b with state := 2 }
      | none => s) := fun l => by
    split
    · exact h.setBand
    · exact h
  fun_cases Machine.programDone
  case case1 => exact h
  case case2 => exact h.modFloor
  case case3 => exact h.modFloor
  case' case4 cur _ hspot => refine showSnap (sweepMark (modFloor (fst_of_eq hspot ?_)))
  case' case5 cur _ _ _ _ _ _ hspot => refine showFloor (showSnap (slotWritten (storePage (modFloor (setBand (fst_of_eq hspot ?_))))))
  case' case6 cur _ _ _ _ _ hspot => refine showFloor (blockFails (setBand (fst_of_eq hspot ?_)))
  all_goals
    clear hspot
    clear_value cur
    split
    · exact h
    · refine branch₁ (hclosed _) ?_
      split
      next hopen =>
        dsimp only
        exact modFn (fst_of_eq hopen (hclosed _).openBand)
      next hopen => exact fst_of_eq hopen (hclosed _).openBand

theorem catalogTimer (h : MemOk s) : MemOk (catalogTimer s fails) := branch h.advanceTo.newCatalog h

theorem verifyDue (h : MemOk s) : MemOk (verifyDue s id) := by
  fun_cases Machine.verifyDue
  exacts [h, h, setFnF (modFloor (by dsimp +zetaDelta only; split; exacts [h.advanceTo, h]))]

theorem bandRefresh {b : Nat} (h : MemOk s) : MemOk (bandRefresh s b fails) := by
  unfold Machine.bandRefresh
  dsimp only
  split
  · exact h
  next q _ =>
    refine branch h ?_
    split
    · exact h
    · have hmoved := fun l : List Nat => fold₁ (l := l) (q := (s, ([] : List Nat), ([] : List Nat)))
        (f := fun st f => match readPage st.1 f with
          | some d => Machine.progSnap fails q.id st d
          | none => (st.1, st.2.1, st.2.2 ++ [indexAbsent])) h fun st f h => by
            split
            · exact h.progSnap
            · exact h
      have hpages := fun (l : List (List Byte)) (l' : List Nat) b => fold₁ (l := l) (f := Machine.progSnap fails q.id) (q := (_, b, []))
        (hmoved l') fun _ _ h => h.progSnap
      split
      · exact progSnap (hpages _ _ _)
      · exact showFloor (setBand (newCatalog (modSnap (fold (progSnap (hpages _ _ _)) fun _ _ h => h.setBand))))

theorem mount (h : MemOk s) : MemOk (mount s) := by
  unfold Machine.mount
  extract_lets seqOf first look found
  clear_value found
  cases found
  · exact h.setF
  · exact newCatalog (setF (modFloor h))

theorem floorMounted {geometryOk : Bool} (h : MemOk s) : MemOk (floorMounted s geometryOk) :=
  branch h (branch (fold h.mount (fun _ _ h => h.showSnap)) h.setF)

theorem reloadPut {q : Reload} {c : SliceSource} {v : SliceMove} {slot : List Byte} (h : MemOk s) :
    MemOk (reloadPut s n q c v gen slot) :=
  branch h.reloadGot (fold h.upd (fun _ _ h => h.sendTo))

theorem reloadStep {idx : Nat} {lost : Bool} {k : DecodedMark} (h : MemOk s) : MemOk (reloadStep s n idx readable lost k imgs) := by
  unfold Machine.reloadStep
  dsimp only
  split
  · exact h
  · split
    · exact h
    · refine todo (branch ?_ ?_)
      · split
        · exact h.modReload.reloadNull
        · exact h
      · split
        · exact h
        · split
          · exact h.modReload.reloadPut
          · split
            · exact h.modReload
            · refine branch h.modReload ?_
              split
              · exact h.modReload.modReload.reloadPut
              · exact h.modReload.modReload

theorem pfailAssert (h : MemOk s) : MemOk (pfailAssert s) := h.upd.modHold.holdWanted

theorem powerFail (h : MemOk s) : MemOk (powerFail s) := branch h.upd (branch h h.setF.flagF.addF.powerError.pfailAssert)

theorem pfailDeassert (h : MemOk s) : MemOk (pfailDeassert s fails) := by
  fun_cases Machine.pfailDeassert
  exacts [h.upd.modHold, h.upd.modHold.advanceTo.cancelHold.leaveHold, h.upd.modHold.cancelCheck]

theorem powerGood (h : MemOk s) : MemOk (powerGood s fails) := branch h.upd (branch h h.setF.pfailDeassert)

theorem deferredDone (h : MemOk s) : MemOk (deferredDone s) := by
  fun_cases Machine.deferredDone
  exacts [h.chipReset, h, h]

theorem bellowsDeltas (h : MemOk s) : MemOk (bellowsDeltas s) := by
  fun_cases Machine.bellowsDeltas
  exacts [h, h.reachStage.reachStage, h.reachStage, h]

theorem bellowsJournal (h : MemOk s) : MemOk (bellowsJournal s fails) := by
  fun_cases Machine.bellowsJournal
  exacts [h, (branch h.writeCatalog h).reachStage, h]

theorem bellowsDone (h : MemOk s) : MemOk (bellowsDone s fails) := by
  fun_cases Machine.bellowsDone
  exacts [h, (branch h.writeCatalog h).reachStage, h]

theorem powerOnReset {rails : Bool} (h : MemOk s) : MemOk (powerOnReset s rails) := h.cleared.modPwr

theorem powerOnResetEnd (h : MemOk s) : MemOk (powerOnResetEnd s) := branch h.modPwr h

theorem refLost (h : MemOk s) : MemOk (refLost s) := branch h h.modPwr.flagF.setF.powerError

theorem holdoverExpiry {freqError : Bool} (h : MemOk s) : MemOk (holdoverExpiry s freqError strap) := by
  fun_cases Machine.holdoverExpiry
  exacts [h.chipReset, h.advanceTo.chipReset, h]

theorem loadWord (h : MemOk s) : MemOk (loadWord s a v) := branch h.setWord (branch h.setWord h.plainWrite)

theorem loadItem (h : MemOk s) : MemOk (loadItem s i) := by
  fun_cases Machine.loadItem
  exacts [h, h, h.setF.errUnit, fold h (fun _ _ h => (by split; exacts [h.loadWord, h]))]

theorem loadConfig (h : MemOk s) : MemOk (loadConfig s) := (((fold h (fun _ _ h => h.loadItem)).setF).setF).setF

theorem runImage (h : MemOk s) : MemOk (runImage s slot) := h.modNvm.setF.setF.setF.setF

theorem bootImage {trial : Bool} (h : MemOk s) : MemOk (bootImage s slot trial) := h.runImage.setF.logWrite

theorem bootActive (h : MemOk s) : MemOk (bootActive s) := branch h.bootImage (branch h.putBoot.logRollback.bootImage h.setF)

theorem bootChoose (h : MemOk s) : MemOk (bootChoose s selfCheck) := by
  fun_cases Machine.bootChoose
  exacts [h.showBoot.showKeys.bootActive, h.showBoot.showKeys.rejectTrial.rolledBack.bootActive, h.showBoot.showKeys.putBoot.bootImage,
    h.showBoot.showKeys.putBoot.rejectTrial.rolledBack.bootActive, h.showBoot.showKeys.putBoot.rejectTrial.bootActive]

theorem powerSlices (h : MemOk s) : MemOk (powerSlices s) := (h.modPwr.withCores (d := []) fun _ he => absurd he List.not_mem_nil).setF

theorem boot (h : MemOk s) : MemOk (boot s selfCheck) :=
  branch h (branch h.bootChoose.loadConfig.modPwr.setF.powerSlices h.bootChoose.loadConfig.modPwr.setF)

theorem deepInitDone (h : MemOk s) : MemOk (deepInitDone s) := branch h.powerSlices h

theorem trialBegin {t : Nat} (h : MemOk s) : MemOk (trialBegin s t) :=
  branch h.runImage.fwStage.bgComplete.fwConfirm h.runImage.fwStage.bgComplete

theorem fwLoadingDone (h : MemOk s) : MemOk (fwLoadingDone s) :=
  branch h (branch h.putBoot.fwStage.bgComplete (branch h.putBoot.trialBegin h.putBoot.fwStage.modNvm))

theorem toTurnStart (h : MemOk s) : MemOk (toTurnStart s) := h.advance

theorem fwSwitchStart (h : MemOk s) : MemOk (fwSwitchStart s) := branch h h.toTurnStart.fwStage

theorem fwSwitchEnd (h : MemOk s) : MemOk (fwSwitchEnd s ok) := by
  fun_cases Machine.fwSwitchEnd
  exacts [h, h.modNvm.runImage.fwStage.bgComplete.switchRelease, h.fwStage.switchRelease, h.trialBegin.switchRelease,
    h.putBoot.flagF.errUnit.fwStage.bgComplete.switchRelease]

theorem waitExpiry (h : MemOk s) : MemOk (waitExpiry s n) := by
  fun_cases Machine.waitExpiry
  exacts [h, h.advanceTo.twinLate, h]

theorem partnerLost (h : MemOk s) : MemOk (partnerLost s) := by
  fun_cases Machine.partnerLost
  exacts [h, h, h.advanceTo.flagF.raiseUnit.twinDisarm]

theorem pllLock (h : MemOk s) : MemOk (pllLock s) := branch h.modPwr h

theorem refReturn (h : MemOk s) : MemOk (refReturn s) := h.modPwr.setF

theorem railsGood (h : MemOk s) : MemOk (railsGood s) := branch h.modPwr h

theorem verifyEnd {v : VerifyRun} (h : MemOk s) : MemOk (verifyEnd s v) := by
  fun_cases Machine.verifyEnd
  exacts [h.modFloor, h.modFloor.modSnap.setFnF.postEvent]

theorem countRead (h : MemOk s) : MemOk (countRead s fpa) := h.setBand

theorem floorReadComplete (h : MemOk s) : MemOk (floorReadComplete s readable) := by
  fun_cases Machine.floorReadComplete
  exacts [h, h.verifyEnd, ((branch h.countRead h.countRead.addF.errFn).modFloor).verifyEnd,
    (branch h.countRead h.countRead.addF.errFn).modFloor]

theorem verifyNext (h : MemOk s) : MemOk (verifyNext s n imgs) := by
  unfold Machine.verifyNext
  split
  · exact h
  · refine branch h (branch h ?_)
    extract_lets row job marked c
    have hrow : MemOk row.state := branchRow (p := ⟨s, 0, 0, false⟩) h h.verifyAt
    exact branch hrow.modFn.setFnF.bgComplete hrow.modFn

theorem compacted (h : MemOk s) : MemOk (compacted s) := h.modNvm.setF.setF.logWrite

theorem recordWritten (h : MemOk s) : MemOk (recordWritten s) := by
  fun_cases Machine.recordWritten
  exacts [h, h, (branch h.modNvm.setF.logWrite h.modNvm.setF).bgComplete, h.modNvm.setF]

theorem mramWriteDone (h : MemOk s) : MemOk (mramWriteDone s) :=
  branch h (branch h (branch (((branch ((branch h h.beginWrite).compacted) ((branch h h.beginWrite).recordWritten)).modNvm).setF)
    ((branch ((branch h h.beginWrite).compacted) ((branch h h.beginWrite).recordWritten)).beginWrite)))

theorem fwVerifyDone (h : MemOk s) : MemOk (fwVerifyDone s) :=
  branch h (branch h.putBoot.fwStage.bgComplete h.fwStage.flagF.errUnit.bgComplete)

theorem deferralExpiry (h : MemOk s) : MemOk (deferralExpiry s) := by
  fun_cases Machine.deferralExpiry
  exacts [h.advanceTo.chipReset, h]

theorem locationTimeout (h : MemOk s) : MemOk (locationTimeout s) := by
  fun_cases Machine.locationTimeout
  exacts [h.advanceTo.twinReport, h]

theorem freeFrame {t : Nat} (h : MemOk s) : MemOk (freeFrame s t).1 := by
  unfold Machine.freeFrame
  dsimp only
  split
  · exact h.upd
  · split
    · exact h.upd
    · split
      · exact h.upd
      · split
        · exact branch (h.modLine).modLine h.modLine
        · split
          · exact branchPair h.modLine h
          · split
            · exact h.upd
            · exact h

theorem frameTransmit (h : MemOk s) : MemOk (frameTransmit s) := by
  unfold Machine.frameTransmit
  have hsent := (h.advanceTo (t := if s.ticks ≤ s.line.txAt then s.line.txAt else roundUp s.ticks 8)).modLine
    (f := fun l => { l with bellIn := l.bellIn - 1 })
  dsimp only
  exact modLine (branch₁ hsent (branch₁ hsent (branch₁ hsent hsent.freeFrame)))

/-- Where an outcome goes on, it does so with canonical memories. -/
def Keeps (o : Host.Outcome State Fault Refusal) : Prop := ∀ t, o = .next t → MemOk t

theorem keeps_next (h : MemOk s) : Keeps (.next s) := fun _ ht => by
  cases ht
  exact h

theorem onPower {f : State → State} (h : MemOk s) (hf : ∀ t, MemOk t → MemOk (f t)) : Keeps (onPower s f) := keeps_next (hf _ h).conclude

theorem onDie {f : State → State} (h : MemOk s) (hf : ∀ t, MemOk t → MemOk (f t)) : Keeps (onDie s f) :=
  keeps_next (branch (hf _ h).conclude h)

theorem onFabric {f : State → State} (h : MemOk s) (hf : ∀ t, MemOk t → MemOk (f t)) : Keeps (onFabric s f) :=
  h.onDie fun _ h => branch (hf _ h) h

theorem onPort {f : State → State} (h : MemOk s) (hf : ∀ t, MemOk t → MemOk (f t)) : Keeps (onPort s p f) :=
  h.onDie fun _ h => branch (hf _ h.touchShadow) h

theorem onControl {f : State → State} (h : MemOk s) (hf : ∀ t, MemOk t → MemOk (f t)) : Keeps (onControl s f) :=
  h.onDie fun _ h => branch h (hf _ h)

theorem onFloor {f : State → State} (h : MemOk s) (hf : ∀ t, MemOk t → MemOk (f t)) : Keeps (onFloor s f) :=
  h.onDie fun _ h => branch h (hf _ h)

theorem execLoadManifest {n : Fin 64} (h : MemOk s) : Keeps (execLoadManifest n b s) :=
  h.onDie fun _ h => h.runCmd (fun _ _ h => h.fore (fun _ _ h => h.cmdLoadManifest))

theorem execLoadPrograms {n : Fin 64} (h : MemOk s) : Keeps (execLoadPrograms n b s) :=
  h.onDie fun _ h => h.runCmd (fun _ _ h => h.fore (fun _ _ h => h.cmdLoadPrograms))

theorem execLoadWheel {n : Fin 64} (h : MemOk s) : Keeps (execLoadWheel n b s) :=
  h.onDie fun _ h => h.runCmd (fun _ _ h => h.fore (fun _ _ h => h.cmdLoadWheel))

theorem execLoadLeaves {n : Fin 64} (h : MemOk s) : Keeps (execLoadLeaves n b s) :=
  h.onDie fun _ h => h.runCmd (fun _ _ h => h.cmdLoadLeaves)

theorem execMigrate {n : Fin 64} (h : MemOk s) : Keeps (execMigrate n s) := h.onDie fun _ h => h.runCmd (fun _ _ h => h.cmdMigrate)

theorem execVerifyRows {n : Fin 64} (h : MemOk s) : Keeps (execVerifyRows n s) :=
  h.onDie fun _ h => h.runCmd (fun _ _ h => h.cmdVerifyRows)

theorem execSetOwnership {n : Fin 64} (h : MemOk s) : Keeps (execSetOwnership n b s) :=
  h.onDie fun _ h => h.runCmd (fun _ _ h => h.fore (fun _ _ h => h.cmdSetOwnership))

theorem execRouteLoad {n : Fin 64} (h : MemOk s) : Keeps (execRouteLoad n b s) :=
  h.onDie fun _ h => h.runCmd (fun _ _ h => h.fore (fun _ _ h => h.cmdRouteLoad))

theorem execRouteStage {n : Fin 64} (h : MemOk s) : Keeps (execRouteStage n b s) :=
  h.onDie fun _ h => h.runCmd (fun _ _ h => h.fore (fun _ _ h => h.cmdRouteStage))

theorem execSaveContext {n : Fin 64} (h : MemOk s) : Keeps (execSaveContext n s) :=
  h.onDie fun _ h => h.runCmd (fun _ _ h => h.fore (fun _ _ h => h.cmdSaveContext))

theorem execRestoreContext {n : Fin 64} (h : MemOk s) : Keeps (execRestoreContext n b s) :=
  h.onDie fun _ h => h.runCmd (fun _ _ h => h.fore (fun _ _ h => h.cmdRestoreContext))

theorem execStop {n : Fin 64} {by_ : StopBy} (h : MemOk s) : Keeps (execStop n by_ s) :=
  h.onDie fun _ h => (by split; exacts [h.fieldWrite, h.runCmd (fun _ _ h => h.cmdStop)])

theorem execFifeCollective {n : Fin 64} (h : MemOk s) : Keeps (execFifeCollective n b s) :=
  h.onDie fun _ h => h.runCmd (fun _ _ h => h.cmdCollective)

theorem execDeclareFailed {n : Fin 64} (h : MemOk s) : Keeps (execDeclareFailed n room s) :=
  h.onDie fun _ h => h.runCmd (fun _ _ h => h.cmdDeclareFailed)

theorem execEvacuate {n : Fin 64} (h : MemOk s) : Keeps (execEvacuate n room s) :=
  h.onDie fun _ h => h.runCmd (fun _ _ h => h.cmdEvacuate)

theorem execRejoin {n : Fin 64} (h : MemOk s) : Keeps (execRejoin n s) := h.onDie fun _ h => h.runCmd (fun _ _ h => h.cmdRejoin)

theorem execContract {n : Fin 64} (h : MemOk s) : Keeps (execContract n b s) :=
  h.onDie fun _ h => h.runCmd (fun _ _ h => h.fore (fun _ _ h => h.cmdContract))

theorem execReshard {n : Fin 64} (h : MemOk s) : Keeps (execReshard n b s) := h.onDie fun _ h => h.runCmd (fun _ _ h => h.cmdReshard)

theorem execSnapshot {n : Fin 64} (h : MemOk s) : Keeps (execSnapshot n s) := h.onDie fun _ h => h.runCmd (fun _ _ h => h.cmdSnapshot)

theorem execFloorFormat {n : Fin 64} (h : MemOk s) : Keeps (execFloorFormat n fails s) :=
  h.onDie fun _ h => h.runCmd (fun _ _ h => h.cmdFloorFormat)

theorem execFloorList {n : Fin 64} (h : MemOk s) : Keeps (execFloorList n s) :=
  h.onDie fun _ h => h.runCmd (fun _ _ h => h.fore (fun _ _ h => h.cmdFloorList))

theorem execReload {n : Fin 64} (h : MemOk s) : Keeps (execReload n b s) := h.onDie fun _ h => h.runCmd (fun _ _ h => h.cmdReload)

theorem execClearRemap {n : Fin 64} (h : MemOk s) : Keeps (execClearRemap n s) :=
  h.onDie fun _ h => h.runCmd (fun _ _ h => h.fore (fun _ _ h => h.cmdClearRemap))

theorem execTwinReport {n : Fin 64} (h : MemOk s) : Keeps (execTwinReport n s) :=
  h.onDie fun _ h => h.runCmd (fun _ _ h => h.fore (fun _ _ h => h.cmdTwinReport))

theorem execNvmStore {n : Fin 64} (h : MemOk s) : Keeps (execNvmStore n s) := h.onDie fun _ h => h.runCmd (fun _ _ h => h.cmdStore)

theorem execNvmClear {n : Fin 64} (h : MemOk s) : Keeps (execNvmClear n s) := h.onDie fun _ h => h.runCmd (fun _ _ h => h.cmdStore)

theorem execLogRead {n : Fin 64} (h : MemOk s) : Keeps (execLogRead n s) :=
  h.onDie fun _ h => h.runCmd (fun _ _ h => h.fore (fun _ _ h => h.cmdLogRead))

theorem execFwDownload {n : Fin 64} (h : MemOk s) : Keeps (execFwDownload n b s) :=
  h.onDie fun _ h => h.runCmd (fun _ _ h => h.fore (fun _ _ h => h.cmdDownload))

theorem execFwVerify {n : Fin 64} (h : MemOk s) : Keeps (execFwVerify n s) := h.onDie fun _ h => h.runCmd (fun _ _ h => h.cmdVerify)

theorem execFwActivate {n : Fin 64} (h : MemOk s) : Keeps (execFwActivate n s) :=
  h.onDie fun _ h => h.runCmd (fun _ _ h => h.cmdActivate)

theorem execFwConfirm {n : Fin 64} (h : MemOk s) : Keeps (execFwConfirm n s) :=
  h.onDie fun _ h => h.runCmd (fun _ _ h => h.fore (fun _ _ h => h.cmdConfirm))

theorem execFwAbandon {n : Fin 64} (h : MemOk s) : Keeps (execFwAbandon n s) :=
  h.onDie fun _ h => h.runCmd (fun _ _ h => h.cmdAbandon)

theorem execKeyAdd {n : Fin 64} (h : MemOk s) : Keeps (execKeyAdd n b s) :=
  h.onDie fun _ h => h.runCmd (fun _ _ h => h.fore (fun _ _ h => h.cmdKeyAdd))

theorem execKeyRevoke {n : Fin 64} (h : MemOk s) : Keeps (execKeyRevoke n s) :=
  h.onDie fun _ h => h.runCmd (fun _ _ h => h.fore (fun _ _ h => h.cmdKeyRevoke))

theorem execCommandFetch {n : Fin 64} {entry : HostRead} (h : MemOk s) : Keeps (execCommandFetch n entry s) :=
  h.onDie fun _ h => h.commandFetch

theorem execStart {n : Fin 64} (h : MemOk s) : Keeps (execStart src n s) := h.onDie fun _ h => h.fieldWrite

theorem execReset {n : Fin 64} (h : MemOk s) : Keeps (execReset src n s) := h.onDie fun _ h => h.fieldWrite

theorem execFunctionLevelReset {n : Fin 64} (h : MemOk s) : Keeps (execFunctionLevelReset n s) := h.onDie fun _ h => h.resetFn

theorem execEnableBitSet {n : Fin 64} (h : MemOk s) : Keeps (execEnableBitSet src n s) := h.onDie fun _ h => h.fieldWrite

theorem execEnableBitClear {n : Fin 64} (h : MemOk s) : Keeps (execEnableBitClear src n s) := h.onDie fun _ h => h.fieldWrite

theorem execVfEnableChange {k : Fin 64} (h : MemOk s) : Keeps (execVfEnableChange k s) := h.onDie fun _ h => h.vfChange

theorem execDoorbell {n : Fin 64} {v : BitVec 32} (h : MemOk s) : Keeps (execDoorbell src n v s) := h.onDie fun _ h => h.windowStore

theorem execArm {n : Fin 64} (h : MemOk s) : Keeps (execArm src n s) := h.onDie fun _ h => h.fieldWrite

theorem execDisarm {n : Fin 64} (h : MemOk s) : Keeps (execDisarm src n s) := h.onDie fun _ h => h.fieldWrite

theorem execLinkDown (h : MemOk s) : Keeps (execLinkDown s) := h.onDie fun _ h => h.hostLinkDown

theorem execLaunch (h : MemOk s) : Keeps (execLaunch src s) := h.onDie fun _ h => h.fieldWrite

theorem execSetCounter (h : MemOk s) : Keeps (execSetCounter src s) := h.onDie fun _ h => h.fieldWrite

theorem execLenLog2 {v : Fin 16} (h : MemOk s) : Keeps (execLenLog2 src v s) := h.onDie fun _ h => h.fieldWrite

theorem execAdj {v : BitVec 16} (h : MemOk s) : Keeps (execAdj src v s) := h.onDie fun _ h => h.fieldWrite

theorem execRetrain (h : MemOk s) : Keeps (execRetrain src s) := h.onDie fun _ h => h.fieldWrite

theorem execBugle {n : Fin 64} (h : MemOk s) : Keeps (execBugle src n s) := h.onDie fun _ h => h.fieldWrite

theorem execGate {sl : Fin 16} (h : MemOk s) : Keeps (execGate src sl s) := h.onDie fun _ h => h.fieldWrite

theorem execUngate {sl : Fin 16} (h : MemOk s) : Keeps (execUngate src sl s) := h.onDie fun _ h => h.fieldWrite

theorem execSliceGated {sl : Fin 16} (h : MemOk s) : Keeps (execSliceGated sl s) := h.onDie fun _ h => h.sliceGated

theorem execSliceUngated {sl : Fin 16} (h : MemOk s) : Keeps (execSliceUngated sl s) := h.onDie fun _ h => h.sliceUngated

theorem execRegionReset {q : Fin 4} (h : MemOk s) : Keeps (execRegionReset src q s) := h.onDie fun _ h => h.fieldWrite

theorem execSliceReset {sl : Fin 16} (h : MemOk s) : Keeps (execSliceReset src sl s) := h.onDie fun _ h => h.fieldWrite

theorem execPosition {v : BitVec 32} (h : MemOk s) : Keeps (execPosition src v s) := h.onDie fun _ h => h.windowStore

theorem execReadRaw {sl : Fin 16} (h : MemOk s) : Keeps (execReadRaw src sl raw owner s) := h.onDie fun _ h => h.checkerWrite

theorem execWriteRaw {sl : Fin 16} (h : MemOk s) : Keeps (execWriteRaw src sl raw owner s) := h.onDie fun _ h => h.checkerWrite

theorem execReadDecoded {sl : Fin 16} (h : MemOk s) : Keeps (execReadDecoded src sl raw owner s) := h.onDie fun _ h => h.checkerWrite

theorem execWatchLogClear (h : MemOk s) : Keeps (execWatchLogClear src s) := h.onDie fun _ h => h.fieldWrite

theorem execClearCounts {page : BitVec 12} (h : MemOk s) : Keeps (execClearCounts src page s) := h.onDie fun _ h => h.windowStore

theorem execLock {page : BitVec 12} {v : Bool} (h : MemOk s) : Keeps (execLock src page v s) := h.onDie fun _ h => h.windowStore

theorem execPushArea {v : BitVec 32} (h : MemOk s) : Keeps (execPushArea src v s) := h.onDie fun _ h => h.windowStore

theorem execRemap {ch : Fin 64} {entry : Fin 16} {v : BitVec 32} (h : MemOk s) : Keeps (execRemap src ch entry v s) :=
  h.onDie fun _ h => h.windowStore

theorem execIntForce {page : BitVec 12} {v : BitVec 32} (h : MemOk s) : Keeps (execIntForce src page v s) :=
  h.onDie fun _ h => h.windowStore

theorem execRegisterWrite {off : BitVec 24} {v : BitVec 32} {whole : Bool} (h : MemOk s) : Keeps (execRegisterWrite src off v whole s) :=
  h.onDie fun _ h => h.windowStore

theorem execReadClear {off : BitVec 24} (h : MemOk s) : Keeps (execReadClear src off s) := h.onDie fun _ h => h.windowRead

theorem execLatchedRead {off : BitVec 24} (h : MemOk s) : Keeps (execLatchedRead src off s) := h.onDie fun _ h => h.windowRead

theorem execLandingPacket (h : MemOk s) : Keeps (execLandingPacket p u s) := h.onPort fun _ h => h.landingOf

theorem execProbe (h : MemOk s) : Keeps (execProbe p u s) := h.onPort fun _ h => h.landingOf

theorem execBankLineUpdate {sl : Fin 16} {bank : Fin 16} (h : MemOk s) : Keeps (execBankLineUpdate sl bank s) :=
  h.onDie fun _ h => h.bankApply

theorem execParkReplay {n : Fin 64} (h : MemOk s) : Keeps (execParkReplay n s) := h.onDie fun _ h => h.parkReplay

theorem execFold (h : MemOk s) : Keeps (execFold p u s) := h.onPort fun _ h => branch h.recvCoding h

theorem execNullDelta (h : MemOk s) : Keeps (execNullDelta p u s) := h.onPort fun _ h => branch (branch h.recvClose h.recvCoding) h

theorem execHeldRowRelease {sl : Fin 16} (h : MemOk s) : Keeps (execHeldRowRelease sl s) := h.onDie fun _ h => h.holdRelease

theorem execReceipt {badHeader : Bool} (h : MemOk s) : Keeps (execReceipt p badHeader s) := h.onPort fun _ h => branch h.recvReceipt h

theorem execResend (h : MemOk s) : Keeps (execResend s) := h.onFabric fun _ h => h.resendDue

theorem execLeafPut (h : MemOk s) : Keeps (execLeafPut p u s) := h.onPort fun _ h => branch h.recvPut h

theorem execLoadMem {via : Option (Fin 16)} (h : MemOk s) : Keeps (execLoadMem p u via rows readable s) :=
  h.onPort fun _ h => h.recvLoad

theorem execStoreMem (h : MemOk s) : Keeps (execStoreMem p u s) := h.onPort fun _ h => h.recvStore

theorem execFetchAdd (h : MemOk s) : Keeps (execFetchAdd p u s) := h.onPort fun _ h => h.recvFetchAdd

theorem execCompareSwap (h : MemOk s) : Keeps (execCompareSwap p u s) := h.onPort fun _ h => h.recvCompareSwap

theorem execLoadData (h : MemOk s) : Keeps (execLoadData p u s) := h.onPort fun _ h => h.recvResponse

theorem execAtomicData (h : MemOk s) : Keeps (execAtomicData p u s) := h.onPort fun _ h => h.recvResponse

theorem execEgressArbitration (h : MemOk s) : Keeps (execEgressArbitration s) := h.onFabric fun _ h => h.arbitrate

theorem execLinkFlowControl {tc : Fin 8} {xoff : Bool} (h : MemOk s) : Keeps (execLinkFlowControl tc xoff s) :=
  h.onDie fun _ h => h.linkXoff

theorem execLaneCountChange {link : Fin 32} {code : Fin 16} (h : MemOk s) : Keeps (execLaneCountChange link code s) :=
  h.onDie fun _ h => h.laneChange

theorem execShadowRetire {n : Fin 64} (h : MemOk s) : Keeps (execShadowRetire n s) := h.onDie fun _ h => h.shadowRetired

theorem execFifeOpen (h : MemOk s) : Keeps (execFifeOpen p s) := h.onPort fun _ h => h.fifeOpened

theorem execFifeAck (h : MemOk s) : Keeps (execFifeAck p s) := h.onPort fun _ h => h.fifeAcked

theorem execResult (h : MemOk s) : Keeps (execResult p s) := h.onPort fun _ h => h.fifeResult

theorem execRecoveryDone {n : Fin 64} (h : MemOk s) : Keeps (execRecoveryDone n rows s) := h.onControl fun _ h => h.recoveryDone

theorem execBuglePacket {b : BugleIn} (h : MemOk s) : Keeps (execBuglePacket b s) :=
  h.onDie fun _ h => (by split; exacts [branch h.fifeBugle h, h.recvNamed])

theorem execHeartbeatPacket (h : MemOk s) : Keeps (execHeartbeatPacket p s) := h.onPort fun _ h => h.recvHeartbeat

theorem execCounts (h : MemOk s) : Keeps (execCounts p s) := h.onPort fun _ h => h.recvCounts

theorem execCountsSend {n : Fin 64} {j : Fin 64} (h : MemOk s) : Keeps (execCountsSend n j s) := h.onFabric fun _ h => h.countsSend

theorem execCountsTimeout {n : Fin 64} (h : MemOk s) : Keeps (execCountsTimeout n s) := h.onFabric fun _ h => h.countsTimeout

theorem execPathDown (h : MemOk s) : Keeps (execPathDown p s) := h.onPort fun _ h => h.fifePathDown

theorem execFrame {w : BitVec 64} (h : MemOk s) : Keeps (execFrame w fails s) := h.onDie fun _ h => h.recvFrame

theorem execPhase {w : BitVec 64} (h : MemOk s) : Keeps (execPhase w fails s) := h.onDie fun _ h => h.recvNamed

theorem execEchoRsp {w : BitVec 64} (h : MemOk s) : Keeps (execEchoRsp w fails s) := h.onDie fun _ h => h.recvNamed

theorem execBeacon {w : BitVec 64} (h : MemOk s) : Keeps (execBeacon w fails s) := h.onDie fun _ h => h.recvNamed

theorem execHeartbeat {w : BitVec 64} (h : MemOk s) : Keeps (execHeartbeat w fails s) := h.onDie fun _ h => h.recvNamed

theorem execPowerWarn {w : BitVec 64} (h : MemOk s) : Keeps (execPowerWarn w fails s) := h.onDie fun _ h => h.recvNamed

theorem execPowerCancel {w : BitVec 64} (h : MemOk s) : Keeps (execPowerCancel w fails s) := h.onDie fun _ h => h.recvNamed

theorem execTestLoop {w : BitVec 64} (h : MemOk s) : Keeps (execTestLoop w fails s) := h.onDie fun _ h => h.recvNamed

theorem execTestPattern {w : BitVec 64} (h : MemOk s) : Keeps (execTestPattern w fails s) := h.onDie fun _ h => h.recvNamed

theorem execTestScan {w : BitVec 64} (h : MemOk s) : Keeps (execTestScan w fails s) := h.onDie fun _ h => h.recvNamed

theorem execMessageRepeat (h : MemOk s) : Keeps (execMessageRepeat s) := h.onDie fun _ h => h.messageRepeat

theorem execHuntExpiry (h : MemOk s) : Keeps (execHuntExpiry s) := h.onDie fun _ h => h.huntExpiry

theorem execHuntRetry (h : MemOk s) : Keeps (execHuntRetry s) := h.onDie fun _ h => h.huntRetry

theorem execLaunchTimeout (h : MemOk s) : Keeps (execLaunchTimeout s) := h.onDie fun _ h => h.launchTimeout

theorem execCounterCorrection (h : MemOk s) : Keeps (execCounterCorrection s) := h.onDie fun _ h => h.counterCorrection

theorem execReadout (h : MemOk s) : Keeps (execReadout k s) := h.onDie fun _ h => h.readoutAct

theorem execGcommit (h : MemOk s) : Keeps (execGcommit k s) := h.onDie fun _ h => h.gcommitAct

theorem execGwrite (h : MemOk s) : Keeps (execGwrite k s) := h.onDie fun _ h => h.gwriteAct

theorem execGsend (h : MemOk s) : Keeps (execGsend k s) := h.onDie fun _ h => h.gsendAct

theorem execGhold (h : MemOk s) : Keeps (execGhold k s) := h.onDie fun _ h => h.gholdAct

theorem execPrelude (h : MemOk s) : Keeps (execPrelude k s) := h.onDie fun _ h => h.preludeAct

theorem execLread {imgs : RowSet} (h : MemOk s) : Keeps (execLread k bad imgs s) := h.onDie fun _ h => h.lreadAct

theorem execRun (h : MemOk s) : Keeps (execRun k s) := h.onDie fun _ h => h.runAct

theorem execSrdAction {imgs : RowSet} (h : MemOk s) : Keeps (execSrdAction k imgs s) := h.onDie fun _ h => h.srdAct

theorem execReg (h : MemOk s) : Keeps (execReg k s) := h.onDie fun _ h => h.regAct

theorem execSend (h : MemOk s) : Keeps (execSend k s) := h.onDie fun _ h => h.sendAct

theorem execLwrite (h : MemOk s) : Keeps (execLwrite k s) := h.onDie fun _ h => h.lwriteAct

theorem execEmit (h : MemOk s) : Keeps (execEmit k s) := h.onDie fun _ h => h.emitAct

theorem execHold {imgs : RowSet} (h : MemOk s) : Keeps (execHold k imgs s) := h.onDie fun _ h => h.holdAct

theorem execFill (h : MemOk s) : Keeps (execFill k s) := h.onDie fun _ h => h.fillAct

theorem execMgmt (h : MemOk s) : Keeps (execMgmt k s) := h.onDie fun _ h => h.mgmtAct

theorem execStallWatchdog {n : Fin 64} (h : MemOk s) : Keeps (execStallWatchdog n s) := h.onDie fun _ h => h.stallWatchdog

theorem execGradientSeal {n : Fin 64} (h : MemOk s) : Keeps (execGradientSeal n s) := h.onDie fun _ h => h.partialsCheck.gradSealCheck

theorem execPassStart {n : Fin 64} (h : MemOk s) : Keeps (execPassStart n s) := h.onControl fun _ h => h.passStart

theorem execRerunStart {n : Fin 64} (h : MemOk s) : Keeps (execRerunStart n s) := h.onControl fun _ h => h.passStart

theorem execIntakeStart {n : Fin 64} (h : MemOk s) : Keeps (execIntakeStart n s) := h.onDie fun _ h => h.intakeStart

theorem execLoadPassStart {n : Fin 64} (h : MemOk s) : Keeps (execLoadPassStart n s) := h.onControl fun _ h => h.loadPassStart

theorem execRunWindowEnd {core : Fin 512} (h : MemOk s) : Keeps (execRunWindowEnd core s) := h.onDie fun _ h => h.runWindowEnd

theorem execRunBudgetExpiry {core : Fin 512} (h : MemOk s) : Keeps (execRunBudgetExpiry core s) :=
  h.onDie fun _ h => h.runBudgetExpiry

theorem execRunRestart {core : Fin 512} {imgs : RowSet} (h : MemOk s) : Keeps (execRunRestart core imgs s) :=
  h.onDie fun _ h => h.runRestart

theorem execFabricTimeout {sl : Fin 16} {core : Fin 32} (h : MemOk s) : Keeps (execFabricTimeout sl core s) :=
  h.onDie fun _ h => h.fabricTimeout

theorem execNop {portB : Bool} {rest : BitVec 24} (h : MemOk s) : Keeps (execNop at_ portB rest s) :=
  h.onDie fun _ h => branch h.nopB h.nopA

theorem execVadd (h : MemOk s) : Keeps (execVadd at_ f s) := h.onDie fun _ h => h.vaddOp

theorem execVsub (h : MemOk s) : Keeps (execVsub at_ f s) := h.onDie fun _ h => h.vsubOp

theorem execVmul (h : MemOk s) : Keeps (execVmul at_ f s) := h.onDie fun _ h => h.vmulOp

theorem execVfma (h : MemOk s) : Keeps (execVfma at_ f s) := h.onDie fun _ h => h.vfmaOp

theorem execVfnma (h : MemOk s) : Keeps (execVfnma at_ f s) := h.onDie fun _ h => h.vfnmaOp

theorem execVmin (h : MemOk s) : Keeps (execVmin at_ f s) := h.onDie fun _ h => h.vminOp

theorem execVmax (h : MemOk s) : Keeps (execVmax at_ f s) := h.onDie fun _ h => h.vmaxOp

theorem execVdiv (h : MemOk s) : Keeps (execVdiv at_ f s) := h.onDie fun _ h => h.vdivOp

theorem execVsqrt (h : MemOk s) : Keeps (execVsqrt at_ f s) := h.onDie fun _ h => h.vsqrtOp

theorem execVabs (h : MemOk s) : Keeps (execVabs at_ f s) := h.onDie fun _ h => h.vabsOp

theorem execVneg (h : MemOk s) : Keeps (execVneg at_ f s) := h.onDie fun _ h => h.vnegOp

theorem execVsign (h : MemOk s) : Keeps (execVsign at_ f s) := h.onDie fun _ h => h.vsignOp

theorem execVsel (h : MemOk s) : Keeps (execVsel at_ f s) := h.onDie fun _ h => h.vselOp

theorem execVcmp (h : MemOk s) : Keeps (execVcmp at_ f s) := h.onDie fun _ h => h.vcmpOp

theorem execVcvt (h : MemOk s) : Keeps (execVcvt at_ f s) := h.onDie fun _ h => h.vcvtOp

theorem execVsplat (h : MemOk s) : Keeps (execVsplat at_ f s) := h.onDie fun _ h => h.vsplatOp

theorem execVpowi (h : MemOk s) : Keeps (execVpowi at_ f s) := h.onDie fun _ h => h.vpowiOp

theorem execVrsum (h : MemOk s) : Keeps (execVrsum at_ f s) := h.onDie fun _ h => h.vrsumOp

theorem execVmode (h : MemOk s) : Keeps (execVmode at_ f s) := h.onDie fun _ h => h.vmodeOp

theorem execVxor (h : MemOk s) : Keeps (execVxor at_ f s) := h.onDie fun _ h => h.vxorOp

theorem execVgfmul (h : MemOk s) : Keeps (execVgfmul at_ f s) := h.onDie fun _ h => h.vgfmulOp

theorem execVgfmac (h : MemOk s) : Keeps (execVgfmac at_ f s) := h.onDie fun _ h => h.vgfmacOp

theorem execTzero (h : MemOk s) : Keeps (execTzero at_ f s) := h.onDie fun _ h => h.tzeroOp

theorem execTmma (h : MemOk s) : Keeps (execTmma at_ f s) := h.onDie fun _ h => h.tmmaOp

theorem execTrd (h : MemOk s) : Keeps (execTrd at_ f s) := h.onDie fun _ h => h.trdOp

theorem execVld {f : MForm} (h : MemOk s) : Keeps (execVld at_ f s) := h.onDie fun _ h => h.vldOp

theorem execVst {f : MForm} (h : MemOk s) : Keeps (execVst at_ f s) := h.onDie fun _ h => h.vstOp

theorem execVldb {f : IForm} (h : MemOk s) : Keeps (execVldb at_ f s) := h.onDie fun _ h => h.vldbOp

theorem execSld {f : IForm} (h : MemOk s) : Keeps (execSld at_ f s) := h.onDie fun _ h => h.sldOp

theorem execSldw {f : IForm} (h : MemOk s) : Keeps (execSldw at_ f s) := h.onDie fun _ h => h.sldwOp

theorem execSst {f : IForm} (h : MemOk s) : Keeps (execSst at_ f s) := h.onDie fun _ h => h.sstOp

theorem execSli {f : LForm} (h : MemOk s) : Keeps (execSli at_ f s) := h.onDie fun _ h => h.sliOp

theorem execSlih {f : LForm} (h : MemOk s) : Keeps (execSlih at_ f s) := h.onDie fun _ h => h.slihOp

theorem execSadd (h : MemOk s) : Keeps (execSadd at_ f s) := h.onDie fun _ h => h.saddOp

theorem execSaddi {f : IForm} (h : MemOk s) : Keeps (execSaddi at_ f s) := h.onDie fun _ h => h.saddiOp

theorem execSsub (h : MemOk s) : Keeps (execSsub at_ f s) := h.onDie fun _ h => h.ssubOp

theorem execSmul (h : MemOk s) : Keeps (execSmul at_ f s) := h.onDie fun _ h => h.smulOp

theorem execSand (h : MemOk s) : Keeps (execSand at_ f s) := h.onDie fun _ h => h.sandOp

theorem execSandi {f : IForm} (h : MemOk s) : Keeps (execSandi at_ f s) := h.onDie fun _ h => h.sandiOp

theorem execSor (h : MemOk s) : Keeps (execSor at_ f s) := h.onDie fun _ h => h.sorOp

theorem execSxor (h : MemOk s) : Keeps (execSxor at_ f s) := h.onDie fun _ h => h.sxorOp

theorem execSshl (h : MemOk s) : Keeps (execSshl at_ f s) := h.onDie fun _ h => h.sshlOp

theorem execSshr (h : MemOk s) : Keeps (execSshr at_ f s) := h.onDie fun _ h => h.sshrOp

theorem execSfaddD (h : MemOk s) : Keeps (execSfaddD at_ f s) := h.onDie fun _ h => h.sfaddDOp

theorem execSfmulD (h : MemOk s) : Keeps (execSfmulD at_ f s) := h.onDie fun _ h => h.sfmulDOp

theorem execSffmaD (h : MemOk s) : Keeps (execSffmaD at_ f s) := h.onDie fun _ h => h.sffmaDOp

theorem execSfdivD (h : MemOk s) : Keeps (execSfdivD at_ f s) := h.onDie fun _ h => h.sfdivDOp

theorem execSfsqrtD (h : MemOk s) : Keeps (execSfsqrtD at_ f s) := h.onDie fun _ h => h.sfsqrtDOp

theorem execSfcvt (h : MemOk s) : Keeps (execSfcvt at_ f s) := h.onDie fun _ h => h.sfcvtOp

theorem execSfmulS (h : MemOk s) : Keeps (execSfmulS at_ f s) := h.onDie fun _ h => h.sfmulSOp

theorem execSfaddS (h : MemOk s) : Keeps (execSfaddS at_ f s) := h.onDie fun _ h => h.sfaddSOp

theorem execBr {f : JForm} (h : MemOk s) : Keeps (execBr at_ f s) := h.onDie fun _ h => h.brOp

theorem execBz {f : JForm} (h : MemOk s) : Keeps (execBz at_ f s) := h.onDie fun _ h => h.bzOp

theorem execBnz {f : JForm} (h : MemOk s) : Keeps (execBnz at_ f s) := h.onDie fun _ h => h.bnzOp

theorem execBneg {f : JForm} (h : MemOk s) : Keeps (execBneg at_ f s) := h.onDie fun _ h => h.bnegOp

theorem execLoop {f : JForm} (h : MemOk s) : Keeps (execLoop at_ f s) := h.onDie fun _ h => h.loopOp

theorem execHalt {f : JForm} (h : MemOk s) : Keeps (execHalt at_ f s) := h.onDie fun _ h => h.haltOp

theorem execTrap {f : JForm} (h : MemOk s) : Keeps (execTrap at_ f s) := h.onDie fun _ h => h.trapOp

theorem execSrd (h : MemOk s) : Keeps (execSrd at_ f s) := h.onDie fun _ h => h.srdOp

theorem execSwait {f : JForm} (h : MemOk s) : Keeps (execSwait at_ f s) := h.onDie fun _ h => h.swaitOp

theorem execPmrd {f : IForm} (h : MemOk s) : Keeps (execPmrd at_ f s) := h.onDie fun _ h => h.pmrdOp

theorem execPmwx {f : IForm} (h : MemOk s) : Keeps (execPmwx at_ f s) := h.onDie fun _ h => h.pmwxOp

theorem execStime {f : LForm} (h : MemOk s) : Keeps (execStime at_ f s) := h.onDie fun _ h => h.stimeOp

theorem execFld (h : MemOk s) : Keeps (execFld at_ f s) := h.onDie fun _ h => h.fldOp

theorem execFst (h : MemOk s) : Keeps (execFst at_ f s) := h.onDie fun _ h => h.fstOp

theorem execFadd (h : MemOk s) : Keeps (execFadd at_ f s) := h.onDie fun _ h => h.faddOp

theorem execFcas (h : MemOk s) : Keeps (execFcas at_ f s) := h.onDie fun _ h => h.fcasOp

theorem execFwait {f : JForm} (h : MemOk s) : Keeps (execFwait at_ f s) := h.onDie fun _ h => h.fwaitOp

theorem execIntentRegistered {n : Fin 64} {member : Fin 16} (h : MemOk s) : Keeps (execIntentRegistered n member row s) :=
  h.onDie fun _ h => h.intentAcked

theorem execDeepReadComplete {ch : Fin 64} {block : BitVec 23} (h : MemOk s) : Keeps (execDeepReadComplete ch block raw owner s) :=
  h.onDie fun _ h => h.deepRead

theorem execDeepWriteComplete {sl : Fin 16} (h : MemOk s) : Keeps (execDeepWriteComplete sl s) :=
  h.onDie fun _ h => h.deepWriteComplete

theorem execNearReadComplete {region : NearRegion} {uncorrectable : Bool} (h : MemOk s) :
    Keeps (execNearReadComplete region uncorrectable imgs s) :=
  h.onDie fun _ h => h.nearReadDone

theorem execChannelResume {ch : Fin 64} (h : MemOk s) : Keeps (execChannelResume ch raw imgs s) := h.onDie fun _ h => h.channelResume

theorem execCeWriteback {ch : Fin 64} {block : BitVec 23} {overwritten : Bool} (h : MemOk s) :
    Keeps (execCeWriteback ch block overwritten s) :=
  h.onDie fun _ h => h.ceWriteback

theorem execHardFaultCheck {ch : Fin 64} {block : BitVec 23} (h : MemOk s) : Keeps (execHardFaultCheck ch block raw s) :=
  h.onDie fun _ h => h.hardFaultCheck

theorem execErasureReencode {n : Fin 64} {area : Fin 2} (h : MemOk s) : Keeps (execErasureReencode n area gen row imgs s) :=
  h.onDie fun _ h => h.erasureReencode

theorem execReceiptTimeout {n : Fin 64} (h : MemOk s) : Keeps (execReceiptTimeout n s) := h.onDie fun _ h => h.receiptTimeout

theorem execSequencerLockstep (h : MemOk s) : Keeps (execSequencerLockstep s) := h.onDie fun _ h => h.withdrawDie

theorem execDroneBlockRead {ch : Fin 64} (h : MemOk s) : Keeps (execDroneBlockRead ch raw owner s) := h.onDie fun _ h => h.droneRead

theorem execParityLapRow {n : Fin 64} (h : MemOk s) : Keeps (execParityLapRow n imgs s) := h.onDie fun _ h => h.parityRow

theorem execAuditSelect {sl : Fin 16} {core : Fin 32} (h : MemOk s) : Keeps (execAuditSelect sl core s) :=
  h.onDie fun _ h => h.auditSelect

theorem execAuditorRun {sl : Fin 16} {res : AuditRes} (h : MemOk s) : Keeps (execAuditorRun sl res s) :=
  h.onDie fun _ h => h.auditorRun

theorem execRefereeRun {sl : Fin 16} {res : AuditRes} (h : MemOk s) : Keeps (execRefereeRun sl res s) :=
  h.onDie fun _ h => h.refereeRun

theorem execAuditTimeout {sl : Fin 16} (h : MemOk s) : Keeps (execAuditTimeout sl s) := h.onDie fun _ h => h.auditTimeout

theorem execOccupancyWindow {deep : List (List Nat)} {near : List (List Nat)} (h : MemOk s) : Keeps (execOccupancyWindow deep near s) :=
  h.onDie fun _ h => h.occupancyWindow

theorem execPowerWindow {watts : Nat} (h : MemOk s) : Keeps (execPowerWindow watts s) := h.onDie fun _ h => h.powerWindow

theorem execThermalSample {temp : BitVec 8} {hot : BitVec 8} (h : MemOk s) : Keeps (execThermalSample temp hot s) :=
  h.onDie fun _ h => h.thermalSample

theorem execMarginWindow {mins : List Nat} (h : MemOk s) : Keeps (execMarginWindow mins room s) := h.onDie fun _ h => h.marginWindow

theorem execRefreshIndication {sl : Fin 16} {rate : Rate} (h : MemOk s) : Keeps (execRefreshIndication sl rate s) :=
  h.onDie fun _ h => h.refreshIndication

theorem execMsixModeration {n : Fin 64} {vec : Fin 32} (h : MemOk s) : Keeps (execMsixModeration n vec s) :=
  h.onDie fun _ h => h.msiModerated

theorem execMigrationCopyDone {n : Fin 64} (h : MemOk s) : Keeps (execMigrationCopyDone n s) := h.onDie fun _ h => h.migrationCopied

theorem execFormatComplete {n : Fin 64} (h : MemOk s) : Keeps (execFormatComplete n s) := h.onControl fun _ h => h.formatComplete

theorem execDrainComplete {n : Fin 64} (h : MemOk s) : Keeps (execDrainComplete n rows s) := h.onControl fun _ h => h.drainComplete

theorem execDrainForced {n : Fin 64} (h : MemOk s) : Keeps (execDrainForced n s) := h.onControl fun _ h => h.drainForced

theorem execHeartbeatSend {rank : Fin 31} (h : MemOk s) : Keeps (execHeartbeatSend rank s) := h.onFabric fun _ h => h.heartbeatSend

theorem execSuspectTimeout {rank : Fin 31} (h : MemOk s) : Keeps (execSuspectTimeout rank s) := h.onDie fun _ h => h.suspectTimeout

theorem execIsolationTimeout (h : MemOk s) : Keeps (execIsolationTimeout s) := h.onDie fun _ h => h.isolationTimeout

theorem execDeclareTimeout {n : Fin 64} {member : Fin 16} (h : MemOk s) : Keeps (execDeclareTimeout n member s) :=
  h.onControl fun _ h => h.declareTimeout

theorem execMembershipRepeat {n : Fin 64} (h : MemOk s) : Keeps (execMembershipRepeat n s) := h.onControl fun _ h => h.membRepeat

theorem execEpoch (h : MemOk s) : Keeps (execEpoch p room s) := h.onPort fun _ h => h.recvMemb

theorem execConfirmReq (h : MemOk s) : Keeps (execConfirmReq p room s) := h.onPort fun _ h => h.recvMemb

theorem execConfirmRsp (h : MemOk s) : Keeps (execConfirmRsp p room s) := h.onPort fun _ h => h.recvMemb

theorem execGseal (h : MemOk s) : Keeps (execGseal p room s) := h.onPort fun _ h => h.recvMemb

theorem execReport (h : MemOk s) : Keeps (execReport p room s) := h.onPort fun _ h => h.recvMemb

theorem execRejoinReq (h : MemOk s) : Keeps (execRejoinReq p room s) := h.onPort fun _ h => h.recvMemb

theorem execTransferDone (h : MemOk s) : Keeps (execTransferDone p room s) := h.onPort fun _ h => h.recvMemb

theorem execEvacReq (h : MemOk s) : Keeps (execEvacReq p room s) := h.onPort fun _ h => h.recvMemb

theorem execMembershipAck (h : MemOk s) : Keeps (execMembershipAck p room s) := h.onPort fun _ h => h.recvMemb

theorem execTransferCopySlot {n : Fin 64} {subject : Nat} {imgs : RowSet} (h : MemOk s) :
    Keeps (execTransferCopySlot n mode subject target imgs s) :=
  h.onFabric fun _ h => h.copySlot

theorem execBackgroundRebuild {n : Fin 64} {imgs : RowSet} (h : MemOk s) : Keeps (execBackgroundRebuild n imgs s) :=
  h.onDie fun _ h => h.backgroundRebuild

theorem execAbsorbedRowWork {k : AbsAt} {imgs : RowSet} (h : MemOk s) : Keeps (execAbsorbedRowWork k code bad imgs s) :=
  h.onDie fun _ h => h.absorbedWork

theorem execSweepRead {n : Fin 64} (h : MemOk s) : Keeps (execSweepRead n s) := h.onFloor fun _ h => h.sweepRead

theorem execPushDrain (h : MemOk s) : Keeps (execPushDrain s) := h.onFloor fun _ h => h.pushDrain

theorem execSnapSealed {n : Fin 64} (h : MemOk s) : Keeps (execSnapSealed n fails s) := h.onFloor fun _ h => h.snapSealed

theorem execFloorProgramDone (h : MemOk s) : Keeps (execFloorProgramDone ok eraseBad s) := h.onFloor fun _ h => h.programDone

theorem execCatalogTimer (h : MemOk s) : Keeps (execCatalogTimer fails s) := h.onFloor fun _ h => h.catalogTimer

theorem execVerifyDue (h : MemOk s) : Keeps (execVerifyDue id s) := h.onFloor fun _ h => h.verifyDue

theorem execBandRefresh {band : Nat} (h : MemOk s) : Keeps (execBandRefresh band fails s) := h.onFloor fun _ h => h.bandRefresh

theorem execFloorMounted {geometryOk : Bool} (h : MemOk s) : Keeps (execFloorMounted geometryOk s) :=
  h.onFloor fun _ h => h.floorMounted

theorem execReloadMove {n : Fin 64} {move : Nat} {lost : Bool} {mark : DecodedMark} (h : MemOk s) :
    Keeps (execReloadMove n move readable lost mark imgs s) :=
  h.onFloor fun _ h => branch h.reloadStep h

theorem execPfailAssert (h : MemOk s) : Keeps (execPfailAssert s) := h.onDie fun _ h => h.powerFail

theorem execPfailDeassert (h : MemOk s) : Keeps (execPfailDeassert fails s) := h.onDie fun _ h => h.powerGood

theorem execBellowsDeltas (h : MemOk s) : Keeps (execBellowsDeltas s) := h.onDie fun _ h => h.bellowsDeltas.deferredDone

theorem execBellowsJournal (h : MemOk s) : Keeps (execBellowsJournal fails s) := h.onDie fun _ h => h.bellowsJournal

theorem execBellowsDone (h : MemOk s) : Keeps (execBellowsDone fails s) := h.onDie fun _ h => h.bellowsDone.deferredDone

theorem execPowerOnReset {rails : Bool} (h : MemOk s) : Keeps (execPowerOnReset rails s) := h.onPower fun _ h => h.powerOnReset

theorem execPowerOnResetEnd (h : MemOk s) : Keeps (execPowerOnResetEnd s) := h.onPower fun _ h => h.powerOnResetEnd

theorem execChipReset {cause : ResetBy} {strap : BitVec 12} (h : MemOk s) : Keeps (execChipReset cause strap s) :=
  h.onPower fun _ h => h.chipResetRequest

theorem execRefLost (h : MemOk s) : Keeps (execRefLost s) := h.onDie fun _ h => h.refLost

theorem execHoldoverExpiry {freqError : Bool} {strap : BitVec 12} (h : MemOk s) : Keeps (execHoldoverExpiry freqError strap s) :=
  h.onDie fun _ h => h.holdoverExpiry

theorem execBoot (h : MemOk s) : Keeps (execBoot selfCheck s) := h.onDie fun _ h => h.boot

theorem execDeepTierInitDone (h : MemOk s) : Keeps (execDeepTierInitDone s) := h.onDie fun _ h => h.deepInitDone

theorem execFwLoadingDone (h : MemOk s) : Keeps (execFwLoadingDone s) := h.onDie fun _ h => h.fwLoadingDone

theorem execFwSwitchStart (h : MemOk s) : Keeps (execFwSwitchStart s) := h.onDie fun _ h => h.fwSwitchStart

theorem execFwSwitchEnd (h : MemOk s) : Keeps (execFwSwitchEnd ok s) := h.onDie fun _ h => h.fwSwitchEnd

theorem execPair (h : MemOk s) : Keeps (execPair p s) := h.onPort fun _ h => branch h h.twinPacket

theorem execDigest (h : MemOk s) : Keeps (execDigest p s) := h.onPort fun _ h => branch h h.twinPacket

theorem execLines (h : MemOk s) : Keeps (execLines p s) := h.onPort fun _ h => branch h h.twinPacket

theorem execLine (h : MemOk s) : Keeps (execLine p s) := h.onPort fun _ h => branch h h.twinPacket

theorem execTwinWaitExpiry {n : Fin 64} (h : MemOk s) : Keeps (execTwinWaitExpiry n s) := h.onFloor fun _ h => h.waitExpiry

theorem execPartnerLost (h : MemOk s) : Keeps (execPartnerLost s) := h.onFloor fun _ h => h.partnerLost

theorem execPllLock (h : MemOk s) : Keeps (execPllLock s) := h.onPower fun _ h => h.pllLock

theorem execReferenceReturn (h : MemOk s) : Keeps (execReferenceReturn s) := h.onDie fun _ h => h.refReturn

theorem execRailsInRegulation (h : MemOk s) : Keeps (execRailsInRegulation s) := h.onPower fun _ h => h.railsGood

theorem execChannelTrainingFailure {ch : Fin 64} (h : MemOk s) : Keeps (execChannelTrainingFailure ch s) :=
  h.onDie fun _ h => h.channelFail

theorem execFloorReadComplete (h : MemOk s) : Keeps (execFloorReadComplete readable s) := h.onFloor fun _ h => h.floorReadComplete

theorem execVerifyRow {n : Fin 64} (h : MemOk s) : Keeps (execVerifyRow n imgs s) := h.onDie fun _ h => h.verifyNext

theorem execMramWriteDone (h : MemOk s) : Keeps (execMramWriteDone s) := h.onDie fun _ h => h.mramWriteDone

theorem execFwVerifyDone (h : MemOk s) : Keeps (execFwVerifyDone s) := h.onDie fun _ h => h.fwVerifyDone

theorem execResetDeferralExpiry (h : MemOk s) : Keeps (execResetDeferralExpiry s) := h.onDie fun _ h => h.deferralExpiry

theorem execLocationTimeout (h : MemOk s) : Keeps (execLocationTimeout s) := h.onFloor fun _ h => h.locationTimeout

theorem execFrameTransmit (h : MemOk s) : Keeps (execFrameTransmit s) := h.onDie fun _ h => h.frameTransmit

theorem exec (c : Instr) (h : MemOk s) : Keeps (exec c s) := by
  cases c with
  | loadManifest _ _ => exact h.execLoadManifest
  | loadPrograms _ _ => exact h.execLoadPrograms
  | loadWheel _ _ => exact h.execLoadWheel
  | loadLeaves _ _ => exact h.execLoadLeaves
  | migrate _ => exact h.execMigrate
  | verifyRows _ => exact h.execVerifyRows
  | setOwnership _ _ => exact h.execSetOwnership
  | routeLoad _ _ => exact h.execRouteLoad
  | routeStage _ _ => exact h.execRouteStage
  | saveContext _ => exact h.execSaveContext
  | restoreContext _ _ => exact h.execRestoreContext
  | stop _ _ => exact h.execStop
  | fifeCollective _ _ => exact h.execFifeCollective
  | declareFailed _ _ => exact h.execDeclareFailed
  | evacuate _ _ => exact h.execEvacuate
  | rejoin _ => exact h.execRejoin
  | contract _ _ => exact h.execContract
  | reshard _ _ => exact h.execReshard
  | snapshot _ => exact h.execSnapshot
  | floorFormat _ _ => exact h.execFloorFormat
  | floorList _ => exact h.execFloorList
  | reload _ _ => exact h.execReload
  | clearRemap _ => exact h.execClearRemap
  | twinReport _ => exact h.execTwinReport
  | nvmStore _ => exact h.execNvmStore
  | nvmClear _ => exact h.execNvmClear
  | logRead _ => exact h.execLogRead
  | fwDownload _ _ => exact h.execFwDownload
  | fwVerify _ => exact h.execFwVerify
  | fwActivate _ => exact h.execFwActivate
  | fwConfirm _ => exact h.execFwConfirm
  | fwAbandon _ => exact h.execFwAbandon
  | keyAdd _ _ => exact h.execKeyAdd
  | keyRevoke _ => exact h.execKeyRevoke
  | commandFetch _ _ => exact h.execCommandFetch
  | start _ _ => exact h.execStart
  | reset _ _ => exact h.execReset
  | functionLevelReset _ => exact h.execFunctionLevelReset
  | enableBitSet _ _ => exact h.execEnableBitSet
  | enableBitClear _ _ => exact h.execEnableBitClear
  | vfEnableChange _ => exact h.execVfEnableChange
  | doorbell _ _ _ => exact h.execDoorbell
  | arm _ _ => exact h.execArm
  | disarm _ _ => exact h.execDisarm
  | linkDown => exact h.execLinkDown
  | launch _ => exact h.execLaunch
  | setCounter _ => exact h.execSetCounter
  | lenLog2 _ _ => exact h.execLenLog2
  | adj _ _ => exact h.execAdj
  | retrain _ => exact h.execRetrain
  | bugle _ _ => exact h.execBugle
  | gate _ _ => exact h.execGate
  | ungate _ _ => exact h.execUngate
  | sliceGated _ => exact h.execSliceGated
  | sliceUngated _ => exact h.execSliceUngated
  | regionReset _ _ => exact h.execRegionReset
  | sliceReset _ _ => exact h.execSliceReset
  | position _ _ => exact h.execPosition
  | readRaw _ _ _ _ => exact h.execReadRaw
  | writeRaw _ _ _ _ => exact h.execWriteRaw
  | readDecoded _ _ _ _ => exact h.execReadDecoded
  | watchLogClear _ => exact h.execWatchLogClear
  | clearCounts _ _ => exact h.execClearCounts
  | lock _ _ _ => exact h.execLock
  | pushArea _ _ => exact h.execPushArea
  | remap _ _ _ _ => exact h.execRemap
  | intForce _ _ _ => exact h.execIntForce
  | registerWrite _ _ _ _ => exact h.execRegisterWrite
  | readClear _ _ => exact h.execReadClear
  | latchedRead _ _ => exact h.execLatchedRead
  | landingPacket _ _ => exact h.execLandingPacket
  | probe _ _ => exact h.execProbe
  | bankLineUpdate _ _ => exact h.execBankLineUpdate
  | parkReplay _ => exact h.execParkReplay
  | fold _ _ => exact h.execFold
  | nullDelta _ _ => exact h.execNullDelta
  | heldRowRelease _ => exact h.execHeldRowRelease
  | receipt _ _ => exact h.execReceipt
  | resend => exact h.execResend
  | leafPut _ _ => exact h.execLeafPut
  | loadMem _ _ _ _ _ => exact h.execLoadMem
  | storeMem _ _ => exact h.execStoreMem
  | fetchAdd _ _ => exact h.execFetchAdd
  | compareSwap _ _ => exact h.execCompareSwap
  | loadData _ _ => exact h.execLoadData
  | atomicData _ _ => exact h.execAtomicData
  | egressArbitration => exact h.execEgressArbitration
  | linkFlowControl _ _ => exact h.execLinkFlowControl
  | laneCountChange _ _ => exact h.execLaneCountChange
  | shadowRetire _ => exact h.execShadowRetire
  | fifeOpen _ => exact h.execFifeOpen
  | fifeAck _ => exact h.execFifeAck
  | result _ => exact h.execResult
  | recoveryDone _ _ => exact h.execRecoveryDone
  | buglePacket _ => exact h.execBuglePacket
  | heartbeatPacket _ => exact h.execHeartbeatPacket
  | counts _ => exact h.execCounts
  | countsSend _ _ => exact h.execCountsSend
  | countsTimeout _ => exact h.execCountsTimeout
  | pathDown _ => exact h.execPathDown
  | frame _ _ => exact h.execFrame
  | phase _ _ => exact h.execPhase
  | echoRsp _ _ => exact h.execEchoRsp
  | beacon _ _ => exact h.execBeacon
  | heartbeat _ _ => exact h.execHeartbeat
  | powerWarn _ _ => exact h.execPowerWarn
  | powerCancel _ _ => exact h.execPowerCancel
  | testLoop _ _ => exact h.execTestLoop
  | testPattern _ _ => exact h.execTestPattern
  | testScan _ _ => exact h.execTestScan
  | messageRepeat => exact h.execMessageRepeat
  | huntExpiry => exact h.execHuntExpiry
  | huntRetry => exact h.execHuntRetry
  | launchTimeout => exact h.execLaunchTimeout
  | counterCorrection => exact h.execCounterCorrection
  | readout _ => exact h.execReadout
  | gcommit _ => exact h.execGcommit
  | gwrite _ => exact h.execGwrite
  | gsend _ => exact h.execGsend
  | ghold _ => exact h.execGhold
  | prelude _ => exact h.execPrelude
  | lread _ _ _ => exact h.execLread
  | run _ => exact h.execRun
  | srdAction _ _ => exact h.execSrdAction
  | reg _ => exact h.execReg
  | send _ => exact h.execSend
  | lwrite _ => exact h.execLwrite
  | emit _ => exact h.execEmit
  | hold _ _ => exact h.execHold
  | fill _ => exact h.execFill
  | mgmt _ => exact h.execMgmt
  | stallWatchdog _ => exact h.execStallWatchdog
  | gradientSeal _ => exact h.execGradientSeal
  | passStart _ => exact h.execPassStart
  | rerunStart _ => exact h.execRerunStart
  | intakeStart _ => exact h.execIntakeStart
  | loadPassStart _ => exact h.execLoadPassStart
  | runWindowEnd _ => exact h.execRunWindowEnd
  | runBudgetExpiry _ => exact h.execRunBudgetExpiry
  | runRestart _ _ => exact h.execRunRestart
  | fabricTimeout _ _ => exact h.execFabricTimeout
  | nop _ _ _ => exact h.execNop
  | vadd _ _ => exact h.execVadd
  | vsub _ _ => exact h.execVsub
  | vmul _ _ => exact h.execVmul
  | vfma _ _ => exact h.execVfma
  | vfnma _ _ => exact h.execVfnma
  | vmin _ _ => exact h.execVmin
  | vmax _ _ => exact h.execVmax
  | vdiv _ _ => exact h.execVdiv
  | vsqrt _ _ => exact h.execVsqrt
  | vabs _ _ => exact h.execVabs
  | vneg _ _ => exact h.execVneg
  | vsign _ _ => exact h.execVsign
  | vsel _ _ => exact h.execVsel
  | vcmp _ _ => exact h.execVcmp
  | vcvt _ _ => exact h.execVcvt
  | vsplat _ _ => exact h.execVsplat
  | vpowi _ _ => exact h.execVpowi
  | vrsum _ _ => exact h.execVrsum
  | vmode _ _ => exact h.execVmode
  | vxor _ _ => exact h.execVxor
  | vgfmul _ _ => exact h.execVgfmul
  | vgfmac _ _ => exact h.execVgfmac
  | tzero _ _ => exact h.execTzero
  | tmma _ _ => exact h.execTmma
  | trd _ _ => exact h.execTrd
  | vld _ _ => exact h.execVld
  | vst _ _ => exact h.execVst
  | vldb _ _ => exact h.execVldb
  | sld _ _ => exact h.execSld
  | sldw _ _ => exact h.execSldw
  | sst _ _ => exact h.execSst
  | sli _ _ => exact h.execSli
  | slih _ _ => exact h.execSlih
  | sadd _ _ => exact h.execSadd
  | saddi _ _ => exact h.execSaddi
  | ssub _ _ => exact h.execSsub
  | smul _ _ => exact h.execSmul
  | sand _ _ => exact h.execSand
  | sandi _ _ => exact h.execSandi
  | sor _ _ => exact h.execSor
  | sxor _ _ => exact h.execSxor
  | sshl _ _ => exact h.execSshl
  | sshr _ _ => exact h.execSshr
  | sfaddD _ _ => exact h.execSfaddD
  | sfmulD _ _ => exact h.execSfmulD
  | sffmaD _ _ => exact h.execSffmaD
  | sfdivD _ _ => exact h.execSfdivD
  | sfsqrtD _ _ => exact h.execSfsqrtD
  | sfcvt _ _ => exact h.execSfcvt
  | sfmulS _ _ => exact h.execSfmulS
  | sfaddS _ _ => exact h.execSfaddS
  | br _ _ => exact h.execBr
  | bz _ _ => exact h.execBz
  | bnz _ _ => exact h.execBnz
  | bneg _ _ => exact h.execBneg
  | loop _ _ => exact h.execLoop
  | halt _ _ => exact h.execHalt
  | trap _ _ => exact h.execTrap
  | srd _ _ => exact h.execSrd
  | swait _ _ => exact h.execSwait
  | pmrd _ _ => exact h.execPmrd
  | pmwx _ _ => exact h.execPmwx
  | stime _ _ => exact h.execStime
  | fld _ _ => exact h.execFld
  | fst _ _ => exact h.execFst
  | fadd _ _ => exact h.execFadd
  | fcas _ _ => exact h.execFcas
  | fwait _ _ => exact h.execFwait
  | intentRegistered _ _ _ => exact h.execIntentRegistered
  | deepReadComplete _ _ _ _ => exact h.execDeepReadComplete
  | deepWriteComplete _ => exact h.execDeepWriteComplete
  | nearReadComplete _ _ _ => exact h.execNearReadComplete
  | channelResume _ _ _ => exact h.execChannelResume
  | ceWriteback _ _ _ => exact h.execCeWriteback
  | hardFaultCheck _ _ _ => exact h.execHardFaultCheck
  | erasureReencode _ _ _ _ _ => exact h.execErasureReencode
  | receiptTimeout _ => exact h.execReceiptTimeout
  | sequencerLockstep => exact h.execSequencerLockstep
  | droneBlockRead _ _ _ => exact h.execDroneBlockRead
  | parityLapRow _ _ => exact h.execParityLapRow
  | auditSelect _ _ => exact h.execAuditSelect
  | auditorRun _ _ => exact h.execAuditorRun
  | refereeRun _ _ => exact h.execRefereeRun
  | auditTimeout _ => exact h.execAuditTimeout
  | occupancyWindow _ _ => exact h.execOccupancyWindow
  | powerWindow _ => exact h.execPowerWindow
  | thermalSample _ _ => exact h.execThermalSample
  | marginWindow _ _ => exact h.execMarginWindow
  | refreshIndication _ _ => exact h.execRefreshIndication
  | msixModeration _ _ => exact h.execMsixModeration
  | migrationCopyDone _ => exact h.execMigrationCopyDone
  | formatComplete _ => exact h.execFormatComplete
  | drainComplete _ _ => exact h.execDrainComplete
  | drainForced _ => exact h.execDrainForced
  | heartbeatSend _ => exact h.execHeartbeatSend
  | suspectTimeout _ => exact h.execSuspectTimeout
  | isolationTimeout => exact h.execIsolationTimeout
  | declareTimeout _ _ => exact h.execDeclareTimeout
  | membershipRepeat _ => exact h.execMembershipRepeat
  | epoch _ _ => exact h.execEpoch
  | confirmReq _ _ => exact h.execConfirmReq
  | confirmRsp _ _ => exact h.execConfirmRsp
  | gseal _ _ => exact h.execGseal
  | report _ _ => exact h.execReport
  | rejoinReq _ _ => exact h.execRejoinReq
  | transferDone _ _ => exact h.execTransferDone
  | evacReq _ _ => exact h.execEvacReq
  | membershipAck _ _ => exact h.execMembershipAck
  | transferCopySlot _ _ _ _ _ => exact h.execTransferCopySlot
  | backgroundRebuild _ _ => exact h.execBackgroundRebuild
  | absorbedRowWork _ _ _ _ => exact h.execAbsorbedRowWork
  | sweepRead _ => exact h.execSweepRead
  | pushDrain => exact h.execPushDrain
  | snapSealed _ _ => exact h.execSnapSealed
  | floorProgramDone _ _ => exact h.execFloorProgramDone
  | catalogTimer _ => exact h.execCatalogTimer
  | verifyDue _ => exact h.execVerifyDue
  | bandRefresh _ _ => exact h.execBandRefresh
  | floorMounted _ => exact h.execFloorMounted
  | reloadMove _ _ _ _ _ _ => exact h.execReloadMove
  | pfailAssert => exact h.execPfailAssert
  | pfailDeassert _ => exact h.execPfailDeassert
  | bellowsDeltas => exact h.execBellowsDeltas
  | bellowsJournal _ => exact h.execBellowsJournal
  | bellowsDone _ => exact h.execBellowsDone
  | powerOnReset _ => exact h.execPowerOnReset
  | powerOnResetEnd => exact h.execPowerOnResetEnd
  | chipReset _ _ => exact h.execChipReset
  | refLost => exact h.execRefLost
  | holdoverExpiry _ _ => exact h.execHoldoverExpiry
  | boot _ => exact h.execBoot
  | deepTierInitDone => exact h.execDeepTierInitDone
  | fwLoadingDone => exact h.execFwLoadingDone
  | fwSwitchStart => exact h.execFwSwitchStart
  | fwSwitchEnd _ => exact h.execFwSwitchEnd
  | pair _ => exact h.execPair
  | digest _ => exact h.execDigest
  | lines _ => exact h.execLines
  | line _ => exact h.execLine
  | twinWaitExpiry _ => exact h.execTwinWaitExpiry
  | partnerLost => exact h.execPartnerLost
  | pllLock => exact h.execPllLock
  | referenceReturn => exact h.execReferenceReturn
  | railsInRegulation => exact h.execRailsInRegulation
  | channelTrainingFailure _ => exact h.execChannelTrainingFailure
  | floorReadComplete _ => exact h.execFloorReadComplete
  | verifyRow _ _ => exact h.execVerifyRow
  | mramWriteDone => exact h.execMramWriteDone
  | fwVerifyDone => exact h.execFwVerifyDone
  | resetDeferralExpiry => exact h.execResetDeferralExpiry
  | locationTimeout => exact h.execLocationTimeout
  | frameTransmit => exact h.execFrameTransmit

theorem step (h : MemOk s) : Keeps (step s) := by
  unfold Machine.step
  split
  · exact keeps_next h.idle
  · exact h.upd.exec _

end MemOk
/-- Settles O6: each function of the model keeps the memories canonical, and a step is one of them. -/
theorem stepKeepsMemoriesCanonical : Obligations.StepKeepsMemoriesCanonical :=
  fun _ t hs hstep => memOk_iff.mp ((memOk_iff.mpr hs).step t hstep)

end Sys2Proof.Proofs

/-!
# Memory-form packets (R35, R201, R202, R449)

Byte lists and the header that the die forms, the bytes of a memory after a write, packets that the port takes, and what an event record
can change; then LOAD, STORE, the atomics and the responses, each by the equation of its receiver.
-/

namespace Sys2Proof.Proofs

open Sys2Proof Sys2Proof.Machine Sys2Proof.Claims Sys2Proof.Laws

/-! ### Little-endian numbers and fields of byte lists -/

@[simp] theorem length_leBytes : ∀ n v, (leBytes n v).length = n
  | 0, _ => rfl
  | n + 1, v => by rw [leBytes, List.length_cons, length_leBytes n]

@[simp] theorem length_zeros (n : Nat) : (zeros n).length = n := List.length_replicate

theorem leVal_leBytes : ∀ n v, leVal (leBytes n v) = v % 256 ^ n
  | 0, v => by simp [leBytes, leVal, Nat.mod_one]
  | n + 1, v => by
    have hsplit : v % (256 * 256 ^ n) = v % 256 + 256 * (v / 256 % 256 ^ n) := Nat.mod_mul
    rw [leBytes, leVal, leVal_leBytes n, BitVec.toNat_ofNat, Nat.pow_succ' (m := 256), hsplit]

theorem leVal_lt : ∀ bs : List Byte, leVal bs < 256 ^ bs.length
  | [] => by simp [leVal]
  | b :: bs => by
    have hrest := leVal_lt bs
    have hb : b.toNat < 256 := b.isLt
    rw [leVal, List.length_cons, Nat.pow_succ']
    omega

theorem field_lt (bs : List Byte) (o n : Nat) : field bs o n < 256 ^ n :=
  (leVal_lt _).trans_le (Nat.pow_le_pow_right (by decide) (by simp))

/-- A field that begins behind the first part of a list lies in the second. -/
theorem field_append_right {l r : List Byte} {o n : Nat} (h : l.length ≤ o) : field (l ++ r) o n = field r (o - l.length) n := by
  unfold field
  rw [List.drop_append, List.drop_of_length_le h, List.nil_append]

/-- A field that ends within the first part of a list lies in it. -/
theorem field_append_left {l r : List Byte} {o n : Nat} (h : o + n ≤ l.length) : field (l ++ r) o n = field l o n := by
  unfold field
  rw [List.drop_append_of_le_length (by omega), List.take_append_of_le_length (by rw [List.length_drop]; omega)]

/-- The field that is the number's own bytes. -/
theorem field_leBytes (n v : Nat) : field (leBytes n v) 0 n = v % 256 ^ n := by
  unfold field
  rw [List.drop_zero, List.take_of_length_le (length_leBytes n v).le, leVal_leBytes]

theorem setField_eq {bs : List Byte} {o n : Nat} (v : Nat) (h : o + n ≤ bs.length) :
    setField bs o n v = bs.take o ++ leBytes n v ++ bs.drop (o + n) := by
  unfold setField setBytes
  rw [length_leBytes, List.take_of_length_le]
  simp only [List.length_append, List.length_take, length_leBytes, List.length_drop]
  omega

theorem length_setField {bs : List Byte} {o n : Nat} (v : Nat) (h : o + n ≤ bs.length) : (setField bs o n v).length = bs.length := by
  rw [setField_eq v h]
  simp only [List.length_append, List.length_take, length_leBytes, List.length_drop]
  omega

theorem setField_setField {bs : List Byte} {o n : Nat} (v w : Nat) (h : o + n ≤ bs.length) :
    setField (setField bs o n v) o n w = setField bs o n w := by
  rw [setField_eq w ((length_setField v h).symm ▸ h), setField_eq v h, setField_eq w h]
  have hto : (bs.take o).length = o := by rw [List.length_take]; omega
  have hfront : (bs.take o ++ leBytes n v).length = o + n := by rw [List.length_append, hto, length_leBytes]
  rw [List.drop_left' hfront, List.append_assoc (bs.take o) (leBytes n v), List.take_left' hto]

theorem field_setField_same {bs : List Byte} {o n : Nat} (v : Nat) (h : o + n ≤ bs.length) : field (setField bs o n v) o n = v % 256 ^ n := by
  have hto : (bs.take o).length = o := by rw [List.length_take]; omega
  rw [setField_eq v h, List.append_assoc, field_append_right hto.le, hto, Nat.sub_self,
    field_append_left (by rw [length_leBytes]; omega), field_leBytes]

theorem field_setField_before {bs : List Byte} {o n o' n' : Nat} (v : Nat) (h : o + n ≤ bs.length) (hb : o' + n' ≤ o) :
    field (setField bs o n v) o' n' = field bs o' n' := by
  have hto : (bs.take o).length = o := by rw [List.length_take]; omega
  rw [setField_eq v h, List.append_assoc, field_append_left (hto.symm ▸ hb)]
  conv_rhs => rw [← List.take_append_drop o bs]
  rw [field_append_left (hto.symm ▸ hb)]

theorem field_setField_behind {bs : List Byte} {o n o' n' : Nat} (v : Nat) (h : o + n ≤ bs.length) (hb : o + n ≤ o') :
    field (setField bs o n v) o' n' = field bs o' n' := by
  have hfront : (bs.take o ++ leBytes n v).length = o + n := by rw [List.length_append, List.length_take, length_leBytes]; omega
  unfold field
  rw [setField_eq v h, List.drop_append, List.drop_of_length_le (hfront.symm ▸ hb), List.nil_append, List.drop_drop, hfront,
    Nat.add_sub_cancel' hb]

/-! ### The header of a packet that the die forms (Tables 9.3, 9.4) -/

/-- The header's bytes before its check is put in. -/
def bareHeader (dst src type tc flags len fn tag : Nat) (form : List Byte) : List Byte :=
  leBytes 4 dst ++ leBytes 4 src ++ leBytes 1 (tc * 32 + type) ++ leBytes 1 flags ++ leBytes 1 len ++ leBytes 1 fn ++ leBytes 2 tag ++
    leBytes 2 0 ++ fit 16 form

section
variable (dst src type tc flags len fn tag : Nat) (form : List Byte)

theorem mkHeader_eq : mkHeader dst src type tc flags len fn tag form =
    setField (bareHeader dst src type tc flags len fn tag form) 0xE 2 (headerCheck (bareHeader dst src type tc flags len fn tag form)) := rfl

theorem length_fit (n : Nat) (bs : List Byte) : (fit n bs).length = n := by
  unfold fit
  rw [List.length_take, List.length_append, length_zeros]
  omega

theorem length_bareHeader : (bareHeader dst src type tc flags len fn tag form).length = 32 := by
  simp only [bareHeader, List.length_append, length_leBytes, length_fit]

/-- The check that the die puts in is the header's check (R201). -/
theorem headerCheck_mkHeader : headerCheck (mkHeader dst src type tc flags len fn tag form) =
    headerCheck (bareHeader dst src type tc flags len fn tag form) := by
  have hlen := length_bareHeader dst src type tc flags len fn tag form
  rw [mkHeader_eq, headerCheck, setField_setField _ _ (by omega), headerCheck]

theorem field_mkHeader_check : field (mkHeader dst src type tc flags len fn tag form) 0xE 2 =
    headerCheck (mkHeader dst src type tc flags len fn tag form) := by
  have hlen := length_bareHeader dst src type tc flags len fn tag form
  have hlt : headerCheck (bareHeader dst src type tc flags len fn tag form) < 65536 := Nat.mod_lt _ (by decide)
  rw [headerCheck_mkHeader, mkHeader_eq, field_setField_same _ (by omega)]
  exact Nat.mod_eq_of_lt hlt

theorem field_mkHeader_front {o n : Nat} (h : o + n ≤ 0xE) : field (mkHeader dst src type tc flags len fn tag form) o n =
    field (bareHeader dst src type tc flags len fn tag form) o n := by
  have hlen := length_bareHeader dst src type tc flags len fn tag form
  rw [mkHeader_eq, field_setField_before _ (by omega) h]

/-- The form of the header lies behind its 16 common bytes. -/
theorem field_mkHeader_form {o n : Nat} : field (mkHeader dst src type tc flags len fn tag form) (16 + o) n = field (fit 16 form) o n := by
  have hlen := length_bareHeader dst src type tc flags len fn tag form
  rw [mkHeader_eq, field_setField_behind _ (by omega) (by omega), bareHeader, field_append_right (by simp)]
  simp

theorem field_mkHeader_dst : field (mkHeader dst src type tc flags len fn tag form) 0 4 = dst % 2 ^ 32 := by
  rw [field_mkHeader_front _ _ _ _ _ _ _ _ _ (by omega)]
  simp only [bareHeader, List.append_assoc]
  rw [field_append_left (by simp), field_leBytes]
  rfl

theorem field_mkHeader_src : field (mkHeader dst src type tc flags len fn tag form) 4 4 = src % 2 ^ 32 := by
  rw [field_mkHeader_front _ _ _ _ _ _ _ _ _ (by omega)]
  simp only [bareHeader, List.append_assoc]
  rw [field_append_right (by simp), length_leBytes, field_append_left (by simp), field_leBytes]
  rfl

theorem field_mkHeader_type : field (mkHeader dst src type tc flags len fn tag form) 8 1 = (tc * 32 + type) % 256 := by
  rw [field_mkHeader_front _ _ _ _ _ _ _ _ _ (by omega)]
  simp only [bareHeader, List.append_assoc]
  rw [field_append_right (by simp), length_leBytes, field_append_right (by simp), length_leBytes, field_append_left (by simp), field_leBytes]
  rfl

theorem field_mkHeader_tag : field (mkHeader dst src type tc flags len fn tag form) 0xC 2 = tag % 65536 := by
  rw [field_mkHeader_front _ _ _ _ _ _ _ _ _ (by omega)]
  simp only [bareHeader]
  rw [field_append_left (by simp), field_append_left (by simp), field_append_right (by simp)]
  simp only [List.length_append, length_leBytes]
  rw [field_leBytes]
  rfl

end

/-- A response's STATUS (Table 9.4). -/
theorem field_memForm_status (offset nbytes status : Nat) : field (fit 16 (memForm offset nbytes status)) 8 1 = status % 256 := by
  have hfit : fit 16 (memForm offset nbytes status) = memForm offset nbytes status := by
    have hlen : (memForm offset nbytes status).length = 16 := by simp [memForm]
    unfold fit
    rw [hlen, List.take_of_length_le (by rw [List.length_append, hlen]; rfl)]
    exact List.append_nil _
  rw [hfit]
  simp only [memForm]
  rw [field_append_left (by simp), field_append_right (by simp)]
  simp only [List.length_append, length_leBytes]
  rw [field_leBytes]
  rfl

/-- What `respond` and `respondAtomic` send answers the request (R201, R202). -/
theorem reply_mkHeader (p : Packet) {type status : Nat} (flags len fn offset nbytes : Nat) (bytes pl : List Byte) (htype : type < 32)
    (hstatus : status < 256) (hpl : pl = padPayload bytes) :
    Reply p ⟨mkHeader (hSrc p) (hDst p) type (hTc p) flags len fn (hTag p) (memForm offset nbytes status), pl⟩ type status bytes := by
  have htc : hTc p < 8 := by have := field_lt p.hdr 8 1; unfold hTc; omega
  have hsrc : hSrc p < 2 ^ 32 := field_lt p.hdr 4 4
  have hdst : hDst p < 2 ^ 32 := field_lt p.hdr 0 4
  have htag : hTag p < 65536 := field_lt p.hdr 0xC 2
  refine ⟨?_, ?_, ?_, ?_, ?_, ?_, ?_, hpl⟩
  · rw [hType, field_mkHeader_type]; omega
  · rw [hTag, field_mkHeader_tag, Nat.mod_eq_of_lt htag]
  · rw [hDst, field_mkHeader_dst, Nat.mod_eq_of_lt hsrc]
  · rw [hSrc, field_mkHeader_src, Nat.mod_eq_of_lt hdst]
  · rw [hTc, field_mkHeader_type]; omega
  · rw [hStatus, show (0x18 : Nat) = 16 + 8 from rfl, field_mkHeader_form, field_memForm_status, Nat.mod_eq_of_lt hstatus]
  · exact field_mkHeader_check ..

/-! ### Bytes of the deep tier -/

/-- The cells of a byte list read back as the list. -/
theorem spread_cellsOf : ∀ (bs : List Byte) (a : Nat), spread (cellsOf a bs) a bs.length = bs
  | [], _ => by rw [List.length_nil, spread]
  | b :: bs, a => by
    have ih := spread_cellsOf bs (a + 1)
    by_cases hb : b = 0
    · rw [cellsOf, if_pos hb, List.length_cons, hb]
      cases hcells : cellsOf (a + 1) bs with
      | nil => rw [hcells] at ih; rw [spread, ih]
      | cons c t =>
        obtain ⟨k, v⟩ := c
        have hk : a + 1 ≤ k := tabAbove_mem (cellsOf_above bs (a + 1)) (k, v) (by rw [hcells]; exact List.mem_cons_self ..)
        rw [hcells] at ih
        rw [spread, if_neg (by omega), ih]
    · rw [cellsOf, if_neg hb, List.length_cons, spread, if_pos rfl, ih]

/-- Bytes written read back. -/
theorem memReadN_writeN (m : Mem) (a : Nat) (bs : List Byte) : memReadN (memWriteN m a bs) a bs.length = bs := by
  have hcells : (memWriteN m a bs).filter (fun c => decide (a ≤ c.1) && decide (c.1 < a + bs.length)) = cellsOf a bs := by
    have hbelow : (m.filter (fun c => decide (c.1 < a))).filter (fun c => decide (a ≤ c.1) && decide (c.1 < a + bs.length)) = [] := by
      rw [List.filter_filter, List.filter_eq_nil_iff]
      intro c _
      simp only [Bool.and_eq_true, decide_eq_true_eq, not_and]
      omega
    have hbehind : (m.filter (fun c => decide (a + bs.length ≤ c.1))).filter
        (fun c => decide (a ≤ c.1) && decide (c.1 < a + bs.length)) = [] := by
      rw [List.filter_filter, List.filter_eq_nil_iff]
      intro c _
      simp only [Bool.and_eq_true, decide_eq_true_eq, not_and]
      omega
    have hself : (cellsOf a bs).filter (fun c => decide (a ≤ c.1) && decide (c.1 < a + bs.length)) = cellsOf a bs := by
      rw [List.filter_eq_self]
      intro c hc
      simp only [Bool.and_eq_true, decide_eq_true_eq]
      exact ⟨tabAbove_mem (cellsOf_above bs a) c hc, cellsOf_below bs a c hc⟩
    rw [memWriteN, List.filter_append, List.filter_append, hbelow, hself, hbehind, List.nil_append, List.append_nil]
  rw [memReadN, hcells, spread_cellsOf]

theorem length_spread : ∀ (n : Nat) (m : Mem) (a : Nat), (spread m a n).length = n
  | 0, _, _ => by rw [spread]; rfl
  | n + 1, [], a => by rw [spread, List.length_cons, length_spread n]
  | n + 1, (k, b) :: t, a => by
    rw [spread]
    split <;> rw [List.length_cons, length_spread n]

@[simp] theorem length_memReadN (m : Mem) (a n : Nat) : (memReadN m a n).length = n := length_spread ..

/-- Every byte after a write of bytes: the new ones there, the old ones elsewhere. -/
theorem memRead_writeN (m : Mem) (a : Nat) (bs : List Byte) (x : Nat) : memRead (memWriteN m a bs) x =
    if a ≤ x ∧ x < a + bs.length then bs.getD (x - a) 0 else memRead m x := by
  split
  · next h =>
    have hx := memRead_writeN_same m (a := a) (i := x - a) (bs := bs) (by omega)
    rwa [Nat.add_sub_cancel' h.1] at hx
  · next h => exact memRead_writeN_other m (by omega)

/-! ### A packet that the port takes (R201, R212) -/

theorem up_of_arrives {s : State} {p : Packet} {type : Nat} (h : Arrives s p type) : alive s = true := by
  have htakes := h.takes
  simp only [portTakes, Bool.and_eq_true] at htakes
  exact htakes.1.1

theorem touchShadow_quiet {s : State} (h : Quiet s) (p : Packet) : touchShadow s p = s := by
  unfold touchShadow
  rw [fnSt_routeShadow h]

/-- A packet that is worked as far as a quiet state. -/
theorem gives_onPort {c : Instr} {s t : State} {p : Packet} {type : Nat} {f : State → State} {P : State → Prop}
    (hexec : exec c s = onPort s p f) (h : Arrives s p type) (hf : f s = t) (hq : Quiet t) (hpending : t.pending = s.pending) (hP : P t) :
    Gives c s P := by
  refine ⟨t, ?_, hP⟩
  rw [hexec, onPort_run f (up_of_arrives h) h.takes, touchShadow_quiet h.quiet, hf, conclude_quiet hq hpending]

theorem does_onPort {c : Instr} {s t : State} {p : Packet} {type : Nat} {f : State → State} {P : State → Prop}
    (hexec : exec c s = onPort s p f) (h : Arrives s p type) (hf : f s = t) (hP : P t) : Does c s P := by
  refine ⟨t, ?_, hP⟩
  rw [hexec, onPort_run f (up_of_arrives h) h.takes, touchShadow_quiet h.quiet, hf]

/-- A packet that the port ignores. -/
theorem ignores_onPort {c : Instr} {s : State} {p : Packet} {type : Nat} {f : State → State}
    (hexec : exec c s = onPort s p f) (h : Arrives s p type) (hf : f s = s) : Ignores c s := by
  unfold Ignores
  rw [hexec, onPort_run f (up_of_arrives h) h.takes, touchShadow_quiet h.quiet, hf, conclude_quiet h.quiet rfl]

theorem requestOk_of_arrives {s : State} {p : Packet} {type : Nat} (h : Arrives s p type) : requestOk p .none = true := by
  simp [requestOk, h.good]

theorem payloadBad_of_arrives {s : State} {p : Packet} {type : Nat} (h : Arrives s p type) : payloadBad p .none = false := by
  simp [payloadBad, h.clean]

theorem queueError_none (s : State) (p : Packet) : queueError s p .none = s := if_pos rfl

theorem quiet_sendPacket {s : State} (h : Quiet s) (q : Packet) : Quiet (sendPacket s q) := quiet_of_same h rfl rfl rfl rfl rfl

theorem quiet_rangeWrite {s : State} (h : Quiet s) (n o : Nat) (bs : List Byte) : Quiet (rangeWrite s n o bs) :=
  quiet_of_same h rfl rfl rfl rfl rfl

/-- A STORE's payload holds at least the bytes that its header names (R202). -/
theorem hBytes_le_payload {s : State} {p : Packet} (h : Arrives s p 3) : hBytes p ≤ p.payload.length := by
  have hgood := h.good
  unfold headerOk' at hgood
  simp only [h.type, Bool.and_eq_true, decide_eq_true_eq] at hgood
  simp [isCoding] at hgood
  omega

/-! ### Answers (R201, R202) -/

theorem respond_sends (s : State) (p : Packet) {type status : Nat} (bytes : List Byte) (htype : type < 32) (hstatus : status < 256) :
    ∃ q, Sends s (respond s p type status bytes) q ∧ Reply p q type status bytes :=
  ⟨_, rfl, reply_mkHeader p _ _ _ _ _ bytes _ htype hstatus rfl⟩

theorem padPayload_full {bs : List Byte} (h : bs.length = 64) : padPayload bs = bs := by
  unfold padPayload
  rw [h]
  exact List.append_nil bs

theorem respondAtomic_sends (s : State) (p : Packet) {status : Nat} (old : List Byte) (hold : old.length = 8) (hstatus : status < 256) :
    ∃ q, Sends s (respondAtomic s p status old) q ∧ Reply p q 6 status (fit 64 old) := by
  have hfit : fit 8 old = old := by
    unfold fit
    rw [hold, List.take_of_length_le (by rw [List.length_append, hold]; rfl)]
    exact List.append_nil old
  refine ⟨_, rfl, reply_mkHeader p _ _ _ _ _ (fit 64 old) _ (by decide) hstatus ?_⟩
  rw [hfit, padPayload_full (length_fit ..)]

theorem gives_respond {c : Instr} {s : State} {p : Packet} {k type status : Nat} {f : State → State} {bytes : List Byte}
    (hexec : exec c s = onPort s p f) (h : Arrives s p k) (hf : f s = respond s p type status bytes) (htype : type < 32)
    (hstatus : status < 256) : Gives c s (fun t => ∃ q, Sends s t q ∧ Reply p q type status bytes) :=
  gives_onPort hexec h hf (quiet_sendPacket h.quiet _) rfl (respond_sends s p bytes htype hstatus)

/-! ### LOAD (R202) -/

/-- A LOAD on the state range reaches the range of its function, or is answered NO_FUNCTION. -/
theorem recvLoad_stateRange {s : State} {p : Packet} (h : Arrives s p 1) (hspace : hSpace p = 0) (rows : RowSet) (rd : Bool) :
    recvLoad s p .none none rows rd = if fnTakes s (hFn p) then rangeLoad s p none rows rd else respond s p 2 1 [] := by
  unfold recvLoad
  simp only [h.takes, h.type, queueError_none, requestOk_of_arrives h, hspace]
  cases fnTakes s (hFn p) <;> simp

theorem exec_loadMem (s : State) (p : Packet) (rows : RowSet) (rd : Bool) : exec (.loadMem p .none none rows rd) s =
    onPort s p (fun s => recvLoad s p .none none rows rd) := rfl

theorem loads {s : State} {p : Packet} (h : Arrives s p 1) (hspace : hSpace p = 0) (htc : hTc p ≠ 5) (rows : RowSet) (rd : Bool) :
    (fnTakes s (hFn p) = false → Gives (.loadMem p .none none rows rd) s (fun t => ∃ q, Sends s t q ∧ Reply p q 2 1 [])) ∧
    (fnTakes s (hFn p) = true → rangeOf s (hFn p) < hAddr p + hBytes p → Gives (.loadMem p .none none rows rd) s (fun t =>
      ∃ q, Sends s t q ∧ Reply p q 2 2 [])) ∧
    (fnTakes s (hFn p) = true → hAddr p + hBytes p ≤ rangeOf s (hFn p) → readWaits s (hFn p) (hAddr p) (hBytes p) = false →
      Gives (.loadMem p .none none rows rd) s (fun t => ∃ q, Sends s t q ∧ Reply p q 2 0 (rangeRead s (hFn p) (hAddr p) (hBytes p)))) := by
  have hrecv := recvLoad_stateRange h hspace rows rd
  refine ⟨fun hfn => ?_, fun hfn hpast => ?_, fun hfn hin hwaits => ?_⟩
  · rw [hfn, if_neg (by decide)] at hrecv
    exact gives_respond (exec_loadMem ..) h hrecv (by decide) (by decide)
  · rw [hfn, if_pos rfl, rangeLoad, if_neg (fun hc => htc hc.1), if_pos hpast] at hrecv
    exact gives_respond (exec_loadMem ..) h hrecv (by decide) (by decide)
  · rw [hfn, if_pos rfl, rangeLoad, if_neg (fun hc => htc hc.1), if_neg (by omega)] at hrecv
    simp only [hwaits, Bool.false_eq_true, if_false] at hrecv
    exact gives_respond (exec_loadMem ..) h hrecv (by decide) (by decide)

/-! ### Counters and error bits -/

theorem touches_addF (s : State) (pg : Nat) (f : Fld) (k : Nat) : Touches s (addF s pg f k) [pg + f.off] := touches_setF ..

/-- A saturating counter reads its old value and what was added, up to its largest value. -/
theorem getF_addF (s : State) (pg : Nat) (f : Fld) (k : Nat) (hlo : f.lo ≤ f.hi) (hhi : f.hi < 32) :
    getF (addF s pg f k) pg f = min (getF s pg f + k) (2 ^ (f.hi + 1 - f.lo) - 1) := by
  have hpos : 0 < 2 ^ (f.hi + 1 - f.lo) := Nat.two_pow_pos _
  rw [addF, getF_setF_same _ _ _ _ hlo hhi]
  exact Nat.mod_eq_of_lt (by omega)

/-- The error bit of a unit outside the global page is also the global page's. -/
theorem touches_errUnit (s : State) (f : Fld) {pg : Nat} (hpg : pg ≠ pgGlobal) : Touches s (errUnit s f pg)
    [pg + f.off, pg + HDR_INT_STATUS_ERROR.off, pgGlobal + f.off, pgGlobal + HDR_INT_STATUS_ERROR.off] := by
  rw [errUnit, if_neg hpg]
  exact touches_trans (touches_errBit ..) (touches_errBit ..)

/-! ### A STORE that nothing takes (R202) -/

theorem touches_storeDrop (s : State) : Touches s (storeDrop s) [0x9070, 0x9014, 0x9018, 0x014, 0x018] :=
  touches_trans (touches_addF ..) (touches_errUnit _ _ (by decide))

theorem getF_storeDrop (s : State) : getF (storeDrop s) pgPort PORT_COUNT_STORE_DROP = min (getF s pgPort PORT_COUNT_STORE_DROP + 1) 0xFFFF :=
  (getF_of_touches (touches_errUnit _ _ (by decide)) (by decide)).trans (getF_addF s pgPort _ 1 (by decide) (by decide))

theorem quiet_storeDrop {s : State} (h : Quiet s) : Quiet (storeDrop s) :=
  quiet_of_touches h (touches_storeDrop s) (getF_of_touches (touches_storeDrop s) (by decide))

theorem exec_storeMem (s : State) (p : Packet) : exec (.storeMem p .none) s = onPort s p (fun s => recvStore s p .none) := rfl

theorem recvStore_eq {s : State} {p : Packet} (h : Arrives s p 3) (hspace : hSpace p = 0 ∨ hSpace p = 1) : recvStore s p .none =
    if !fnTakes s (hFn p) then storeDrop s else if hSpace p = 1 then sealStore s p
      else rangeStore s (hFn p) (hAddr p) (p.payload.take (hBytes p)) := by
  have h2 : hSpace p ≠ 2 := by omega
  have h3 : hSpace p ≠ 3 := by omega
  simp [recvStore, h.takes, h.type, queueError_none, requestOk_of_arrives h, payloadBad_of_arrives h, h2, h3]

theorem drops {s : State} {p : Packet} (h : Arrives s p 3) (hf : recvStore s p .none = storeDrop s) :
    Gives (.storeMem p .none) s (fun t => getF t pgPort PORT_COUNT_STORE_DROP = min (getF s pgPort PORT_COUNT_STORE_DROP + 1) 0xFFFF ∧
      t.deep = s.deep ∧ t.egress = s.egress) := by
  have hsame := (touches_storeDrop s).1
  refine gives_onPort (exec_storeMem s p) h hf (quiet_storeDrop h.quiet) ?_ ⟨getF_storeDrop s, ?_, ?_⟩
  all_goals rw [hsame]

/-! ### A STORE of working-copy slots (R35, R202) -/

/-- What a store does with the byte at offset `o`, given what it has done before. -/
def storeByte (n off : Nat) (acc : State × Option Nat) (q : Byte × Nat) : State × Option Nat :=
  match partOf' acc.1 n (off + q.2) with
  | .workingCopy => (rangeWrite acc.1 n (off + q.2) [q.1], acc.2)
  | .coded _ _ _ => (acc.1, match acc.2 with | some o => some o | none => some (off + q.2))
  | _ => acc

theorem storeBytes_eq (s : State) (n off : Nat) (bs : List Byte) : storeBytes s n off bs = bs.zipIdx.foldl (storeByte n off) (s, none) := rfl

theorem storeByte_workingCopy {s : State} {n off i : Nat} {b : Byte} (o : Option Nat) (h : partOf' s n (off + i) = .workingCopy) :
    storeByte n off (s, o) (b, i) = (rangeWrite s n (off + i) [b], o) := by
  simp only [storeByte, h]

theorem storeByte_coded {s : State} {n off i area gen row : Nat} {b : Byte} (o : Option Nat) (h : partOf' s n (off + i) = .coded area gen row) :
    storeByte n off (s, o) (b, i) = (s, some (o.getD (off + i))) := by
  simp only [storeByte, h]
  cases o <;> rfl

/-- Bytes that all go to working-copy slots are all written, and nothing else changes. -/
theorem storeBytes_workingCopy (n off : Nat) (bs : List Byte) : ∀ (s : State) (k : Nat),
    (∀ i, k ≤ i → i < k + bs.length → partOf' s n (off + i) = .workingCopy) →
    ∃ m, (bs.zipIdx k).foldl (storeByte n off) (s, none) = ({ s with deep := m }, none) ∧
      ∀ a, memRead m a = (if rangeAddr n off + k ≤ a ∧ a < rangeAddr n off + k + bs.length
        then bs.getD (a - (rangeAddr n off + k)) 0 else memRead s.deep a) := by
  induction bs with
  | nil => exact fun s k _ => ⟨s.deep, rfl, fun a => by rw [List.length_nil, if_neg (by omega)]⟩
  | cons b bs ih =>
    intro s k hpart
    rw [List.length_cons] at hpart
    obtain ⟨m, hfold, hread⟩ := ih (rangeWrite s n (off + k) [b]) (k + 1) (fun i hlo hhi => hpart i (by omega) (by omega))
    refine ⟨m, ?_, fun a => ?_⟩
    · rw [List.zipIdx_cons, List.foldl_cons, storeByte_workingCopy none (hpart k (by omega) (by omega)), hfold]
      rfl
    · have hat : rangeAddr n (off + k) = rangeAddr n off + k := (Nat.add_assoc ..).symm
      have hone : memRead (rangeWrite s n (off + k) [b]).deep a = if a = rangeAddr n off + k then b else memRead s.deep a := by
        rw [rangeWrite, memRead_writeN, hat, List.length_singleton]
        by_cases ha : a = rangeAddr n off + k
        · rw [if_pos (by omega), if_pos ha, ha, Nat.sub_self]; rfl
        · rw [if_neg (by omega), if_neg ha]
      rw [hread, hone, List.length_cons]
      by_cases ha : a = rangeAddr n off + k
      · rw [if_neg (by omega), if_pos ha, if_pos (by omega), ha, Nat.sub_self]; rfl
      · rw [if_neg ha]
        by_cases hin : rangeAddr n off + k ≤ a ∧ a < rangeAddr n off + k + (bs.length + 1)
        · rw [if_pos (by omega), if_pos hin, show a - (rangeAddr n off + k) = (a - (rangeAddr n off + (k + 1))) + 1 by omega,
            List.getD_cons_succ]
        · rw [if_neg (by omega), if_neg hin]

/-- Bytes that all go to coded areas are not written; the first offset is kept. -/
theorem storeBytes_coded (n off : Nat) (bs : List Byte) (s : State) : ∀ (k : Nat) (o : Option Nat),
    (∀ i, k ≤ i → i < k + bs.length → ∃ area gen row, partOf' s n (off + i) = .coded area gen row) →
    ((bs.zipIdx k).foldl (storeByte n off) (s, o)) = (s, if bs = [] then o else some (o.getD (off + k))) := by
  induction bs with
  | nil => exact fun k o _ => rfl
  | cons b bs ih =>
    intro k o hpart
    rw [List.length_cons] at hpart
    obtain ⟨area, gen, row, hk⟩ := hpart k (by omega) (by omega)
    rw [List.zipIdx_cons, List.foldl_cons, storeByte_coded o hk, ih (k + 1) _ (fun i hlo hhi => hpart i (by omega) (by omega))]
    simp

/-- A store within the range whose bytes go where they may. -/
theorem rangeStore_written {s t : State} {n off : Nat} {bs : List Byte} (h : off + bs.length ≤ rangeOf s n)
    (hstore : storeBytes s n off bs = (t, none)) : rangeStore s n off bs = t := by
  rw [rangeStore, if_neg (by omega)]
  simp only [hstore]

/-- A store within the range that names a byte of a coded area. -/
theorem rangeStore_rejected {s t : State} {n off o : Nat} {bs : List Byte} (h : off + bs.length ≤ rangeOf s n)
    (hstore : storeBytes s n off bs = (t, some o)) : rangeStore s n off bs = writeRejected t n o := by
  rw [rangeStore, if_neg (by omega)]
  simp only [hstore]

/-! ### Event records (R374, R375)

What an event record of a function can change outside a firmware switch: registers, interrupts, the writes into host memory, and the
number of the function's next record. -/

/-- From `s` to `t` records have been posted: no other part than these has changed, no function's record but for its event number, and no
word outside `l`. -/
structure Posts (s t : State) (l : List Nat) : Prop where
  frame : t = { s with regs := t.regs, msi := t.msi, msiLast := t.msiLast, msiPend := t.msiPend, fns := t.fns, posted := t.posted }
  fn : ∀ k, fnSt t k = { fnSt s k with evSeq := (fnSt t k).evSeq }
  words : ∀ a, a ∉ l → wordAt t a = wordAt s a

theorem posts_refl (s : State) : Posts s s [] := ⟨rfl, fun _ => rfl, fun _ _ => rfl⟩

theorem posts_of_touches {s t : State} {l : List Nat} (h : Touches s t l) : Posts s t l := by
  obtain ⟨hframe, hwords⟩ := h
  have hfns : t.fns = s.fns := by rw [hframe]
  have hposted : t.posted = s.posted := by rw [hframe]
  refine ⟨?_, fun k => ?_, hwords⟩
  · rw [hfns, hposted]; exact hframe
  · simp only [fnSt, hfns]

theorem posts_trans {s t u : State} {l m : List Nat} (h : Posts s t l) (h' : Posts t u m) : Posts s u (l ++ m) where
  frame := by rw [h'.frame, h.frame]
  fn k := by rw [h'.fn k, h.fn k]
  words a ha := by
    rw [List.mem_append, not_or] at ha
    rw [h'.words a ha.2, h.words a ha.1]

theorem posts_ite {s t u : State} {l : List Nat} (c : Prop) [Decidable c] (ht : Posts s t l) (hu : Posts s u l) :
    Posts s (if c then t else u) l := by
  split
  · exact ht
  · exact hu

theorem posts_mono {s t : State} {l m : List Nat} (h : Posts s t l) (hsub : l ⊆ m) : Posts s t m :=
  ⟨h.frame, h.fn, fun a ha => h.words a (fun hl => ha (hsub hl))⟩

theorem posts_hostWrite (s : State) (n a : Nat) (bs : List Byte) : Posts s (hostWrite s n a bs) [] := by
  unfold hostWrite
  split
  · exact posts_refl s
  · exact ⟨rfl, fun _ => rfl, fun _ _ => rfl⟩

theorem posts_foldl {α : Type} {f : State → α → State} (hf : ∀ s x, Posts s (f s x) []) (l : List α) : ∀ s, Posts s (l.foldl f s) [] := by
  induction l with
  | nil => exact posts_refl
  | cons x l ih => exact fun s => posts_trans (hf s x) (ih (f s x))

/-- The number of the next event record of a function goes on. -/
def countEvent (s : State) (n : Nat) : State := modFn s n (fun x => { x with evSeq := (x.evSeq + 1) % 2 ^ 32 })

theorem posts_countEvent (s : State) (n : Nat) : Posts s (countEvent s n) [] := by
  refine ⟨rfl, fun k => ?_, fun _ _ => rfl⟩
  by_cases hk : k = n
  · rw [hk, countEvent, fnSt_modFn_same]
  · rw [countEvent, fnSt_modFn_other s _ hk]

/-- The words of a function's page that its event records change: EV_CTRL, INT_STATUS and EV_HEAD. -/
def eventWords (n : Nat) : List Nat := [pgFn n + 0x04C, pgFn n + 0x018, pgFn n + 0x078]

/-- A record that finds no place is counted (R375). -/
theorem posts_eventLost (s : State) (n : Nat) :
    Posts s (raiseFn (addF (countEvent s n) (pgFn n) FN_EV_CTRL_OVERFLOW 1) n FN_INT_OVERFLOW) (eventWords n) :=
  posts_mono (posts_trans (posts_countEvent s n) (posts_of_touches (touches_trans (touches_addF ..) (touches_raiseFn ..))))
    (by simp [eventWords, FN_EV_CTRL_OVERFLOW, FN_INT_OVERFLOW])

theorem posts_evWrite (s : State) (n code e : Nat) (payload : List Byte) : Posts s (evWrite s n code e payload) (eventWords n) := by
  refine posts_ite _ (posts_eventLost s n) (posts_mono (posts_trans (posts_countEvent s n) (posts_trans
    (posts_foldl (fun s i => posts_hostWrite ..) (List.range e) _) (posts_of_touches (touches_trans (touches_setF ..) (touches_raiseFn ..))))) ?_)
  simp [eventWords, FN_EV_HEAD_HEAD, FN_INT_EVENT]

theorem posts_evMarker (s : State) (n : Nat) : Posts s (evMarker s n) (eventWords n) := by
  refine posts_ite _ (posts_mono (posts_trans (posts_of_touches (touches_setF ..)) (posts_evWrite ..)) ?_)
    (posts_mono (posts_refl s) (List.nil_subset _))
  simp [eventWords, FN_EV_CTRL_OVERFLOW]

/-- Outside a firmware switch an event record goes into the ring or is counted as lost. -/
theorem posts_postEvent {s : State} (h : switching s = false) (n code : Nat) (payload : List Byte) :
    Posts s (postEvent s n code payload) (eventWords n) := by
  unfold postEvent
  rw [if_neg (by simp [h])]
  refine posts_mono (posts_trans (posts_evMarker s n) (posts_ite _ (posts_evWrite ..) (posts_eventLost ..))) ?_
  simp

theorem getF_of_posts {s t : State} {l : List Nat} (h : Posts s t l) {pg : Nat} {f : Fld} (hf : pg + f.off ∉ l) :
    getF t pg f = getF s pg f := by
  unfold getF
  rw [h.words _ hf]

theorem deep_of_posts {s t : State} {l : List Nat} (h : Posts s t l) : t.deep = s.deep := by rw [h.frame]

theorem switching_setF_fn (s : State) (n : Nat) (f : Fld) (v : Nat) : switching (setF s (pgFn n) f v) = switching s := by
  have hother : pgNvm + NVM_FW_STATUS_STAGE.off ≠ pgFn n + f.off := by
    simp only [pgNvm, NVM_FW_STATUS_STAGE, pgFn]; omega
  unfold switching
  rw [getF_setF_other s v hother]

/-! ### A STORE into a coded area (R35) -/

theorem fnF_flagF (s : State) (n : Nat) {f : Fld} (hbit : f.hi = f.lo) (hhi : f.hi < 32) : fnF (flagF s (pgFn n) f) n f = 1 := by
  rw [fnF, flagF, getF_setF_same _ _ _ _ hbit.ge hhi, hbit, Nat.add_sub_cancel_left]
  rfl

theorem deep_writeRejected {s : State} (h : switching s = false) (n o : Nat) : (writeRejected s n o).deep = s.deep := by
  have hposts := posts_postEvent ((switching_setF_fn s n FN_STATE_STATUS_WRITE_REJECT 1).trans h) n 0x0014 (leBytes 8 o)
  have hdeep : (writeRejected s n o).deep = (flagF s (pgFn n) FN_STATE_STATUS_WRITE_REJECT).deep := deep_of_posts hposts
  exact hdeep.trans (setF_deep ..)

theorem fnF_writeRejected {s : State} (h : switching s = false) (n o : Nat) : fnF (writeRejected s n o) n FN_STATE_STATUS_WRITE_REJECT = 1 := by
  have hposts := posts_postEvent ((switching_setF_fn s n FN_STATE_STATUS_WRITE_REJECT 1).trans h) n 0x0014 (leBytes 8 o)
  refine (getF_of_posts hposts ?_).trans (fnF_flagF s n rfl (by decide))
  simp [eventWords, FN_STATE_STATUS_WRITE_REJECT]

theorem rejects {s : State} {p : Packet} {area gen row : Nat} (h : Arrives s p 3) (hspace : hSpace p = 0) (hfn : fnTakes s (hFn p) = true)
    (hlen : hBytes p = 8) (hin : hAddr p + 8 ≤ rangeOf s (hFn p))
    (hpart : ∀ i, i < 8 → partOf' s (hFn p) (hAddr p + i) = .coded area gen row) : Does (.storeMem p .none) s (fun u =>
      u.deep = s.deep ∧ fnF u (hFn p) FN_STATE_STATUS_WRITE_REJECT = 1) := by
  have hbytes : (p.payload.take (hBytes p)).length = 8 := by
    have := hBytes_le_payload h
    rw [List.length_take]
    omega
  have hne : p.payload.take (hBytes p) ≠ [] := fun hnil => by rw [hnil] at hbytes; cases hbytes
  have hstore : storeBytes s (hFn p) (hAddr p) (p.payload.take (hBytes p)) = (s, some (hAddr p)) := by
    rw [storeBytes_eq, storeBytes_coded _ _ _ _ 0 none (fun i _ hi => ⟨area, gen, row, hpart i (by omega)⟩), if_neg hne]
    rfl
  have hrecv : recvStore s p .none = writeRejected s (hFn p) (hAddr p) := by
    rw [recvStore_eq h (.inl hspace), hfn, rangeStore_rejected (by omega) hstore]
    simp [hspace]
  exact does_onPort (exec_storeMem s p) h hrecv ⟨deep_writeRejected h.quiet.switching .., fnF_writeRejected h.quiet.switching ..⟩

/-! ### STOREs on the state range (R35, R202) -/

theorem stores {s : State} {p : Packet} (h : Arrives s p 3) (hspace : hSpace p = 0) (hfn : fnTakes s (hFn p) = true)
    (hin : hAddr p + hBytes p ≤ rangeOf s (hFn p))
    (hpart : ∀ i, i < hBytes p → partOf' s (hFn p) (hAddr p + i) = .workingCopy) :
    Gives (.storeMem p .none) s (fun t => t = { s with deep := t.deep } ∧
      ∀ a, memRead t.deep a = (if rangeAddr (hFn p) (hAddr p) ≤ a ∧ a < rangeAddr (hFn p) (hAddr p) + hBytes p
        then p.payload.getD (a - rangeAddr (hFn p) (hAddr p)) 0 else memRead s.deep a)) := by
  have hbytes : (p.payload.take (hBytes p)).length = hBytes p := by
    have := hBytes_le_payload h
    rw [List.length_take]
    omega
  obtain ⟨m, hfold, hread⟩ := storeBytes_workingCopy (hFn p) (hAddr p) (p.payload.take (hBytes p)) s 0
    (fun i _ hi => hpart i (by omega))
  have hrecv : recvStore s p .none = { s with deep := m } := by
    rw [recvStore_eq h (.inl hspace), hfn, rangeStore_written (by omega) ((storeBytes_eq ..).trans hfold)]
    simp [hspace]
  refine gives_onPort (exec_storeMem s p) h hrecv (quiet_of_same h.quiet rfl rfl rfl rfl rfl) rfl ⟨rfl, fun a => ?_⟩
  have hat := hread a
  rw [hbytes, Nat.add_zero] at hat
  rw [hat]
  split
  · next ha => rw [List.getD_eq_getElem?_getD, List.getElem?_take_of_lt (by omega), List.getD_eq_getElem?_getD]
  · rfl

theorem untaken {s : State} {p : Packet} (h : Arrives s p 3) (hspace : hSpace p = 0)
    (hno : fnTakes s (hFn p) = false ∨ rangeOf s (hFn p) < hAddr p + hBytes p) : recvStore s p .none = storeDrop s := by
  have hbytes : (p.payload.take (hBytes p)).length = hBytes p := by
    have := hBytes_le_payload h
    rw [List.length_take]
    omega
  rw [recvStore_eq h (.inl hspace)]
  cases hfn : fnTakes s (hFn p) with
  | false => rfl
  | true =>
    have hpast : rangeOf s (hFn p) < hAddr p + hBytes p := hno.resolve_left (by simp [hfn])
    simp [hspace, rangeStore, hbytes, hpast]

/-! ### A STORE of arrivals at a seal (R449) -/

theorem sealAt_setSeal_same (s : State) (i : Nat) (o : SealObj) : sealAt (setSeal s i o) i = o := tabGet_set_same ..

theorem sealAt_setSeal_other (s : State) {i k : Nat} (o : SealObj) (hne : k ≠ i) : sealAt (setSeal s i o) k = sealAt s k :=
  tabGet_set_other _ _ _ hne

/-- Arrivals short of what an armed object expects are counted. -/
theorem arriveObj_short {o : SealObj} {a : Nat} (c : Nat) (hstate : o.state = 1) (hlate : o.late ≤ 255) (hshort : o.count + a < o.expected) :
    arriveObj o a c = ({ o with count := o.count + a }, false) := by
  unfold arriveObj
  by_cases ha : a = 0
  · rw [if_pos ha, ha]; rfl
  · have hcount : min (o.count + a) o.expected = o.count + a := by omega
    have hlate' : min (o.late + (o.count + a - o.expected)) 255 = o.late := by omega
    simp only [if_neg ha, hstate, if_true, hcount, hlate', if_neg (show ¬o.expected ≤ o.count + a by omega)]

theorem arrivals {s : State} {p : Packet} {i : Nat} (h : Arrives s p 3) (hspace : hSpace p = 1) (hfn : fnTakes s (hFn p) = true)
    (hseal : sealOf p = some i) (hzero : field p.payload 4 4 = 0) (howner : (sealAt s i).owner = hFn p) (hstate : (sealAt s i).state = 1)
    (hlate : (sealAt s i).late ≤ 255) (hshort : (sealAt s i).count + field p.payload 0 4 < (sealAt s i).expected) :
    Gives (.storeMem p .none) s (fun t => t = { s with seals := t.seals } ∧
      sealAt t i = { sealAt s i with count := (sealAt s i).count + field p.payload 0 4 } ∧ ∀ k, k ≠ i → sealAt t k = sealAt s k) := by
  have hstray : strayAt s (hFn p) i = false := by simp [strayAt, howner, hstate]
  have hrecv : recvStore s p .none = setSeal s i { sealAt s i with count := (sealAt s i).count + field p.payload 0 4 } := by
    rw [recvStore_eq h (.inr hspace), hfn]
    simp [hspace, sealStore, hseal, hzero, hstray, sealArrive, hstate, arriveObj_short s.counter hstate hlate hshort]
  exact gives_onPort (exec_storeMem s p) h hrecv (quiet_of_same h.quiet rfl rfl rfl rfl rfl) rfl
    ⟨rfl, sealAt_setSeal_same .., fun k => sealAt_setSeal_other s _⟩

/-! ### Atomics (R202) -/

theorem exec_fetchAdd (s : State) (p : Packet) : exec (.fetchAdd p .none) s = onPort s p (fun s => recvFetchAdd s p .none) := rfl

theorem exec_compareSwap (s : State) (p : Packet) : exec (.compareSwap p .none) s = onPort s p (fun s => recvCompareSwap s p .none) := rfl

theorem atomicGate_eq {s : State} {p : Packet} {type : Nat} (h : Arrives s p type) (f : State → State) :
    atomicGate s p .none f = if fnTakes s (hFn p) then f s else respondAtomic s p 1 (zeros 8) := by
  simp only [atomicGate, queueError_none, requestOk_of_arrives h, payloadBad_of_arrives h]
  cases fnTakes s (hFn p) <;> simp

theorem recvFetchAdd_eq {s : State} {p : Packet} (h : Arrives s p 4) (hspace : hSpace p = 0) : recvFetchAdd s p .none =
    if fnTakes s (hFn p) then rangeAtomic s p (fun v => v + field p.payload 0 8) else respondAtomic s p 1 (zeros 8) := by
  rw [recvFetchAdd, h.takes, h.type, if_neg (by decide), atomicGate_eq h]
  simp only [hspace, if_neg (show ¬(0 : Nat) = 1 by decide)]

theorem recvCompareSwap_eq {s : State} {p : Packet} (h : Arrives s p 5) : recvCompareSwap s p .none =
    if fnTakes s (hFn p) then rangeAtomic s p (fun v => if v = field p.payload 0 8 then field p.payload 8 8 else v)
    else respondAtomic s p 1 (zeros 8) := by
  rw [recvCompareSwap, h.takes, h.type, if_neg (by decide), atomicGate_eq h]

theorem fit_zeros : fit 64 (zeros 8) = zeros 64 := by decide

/-- An atomic that is answered with a STATUS and zeros. -/
theorem gives_respondAtomic {c : Instr} {s : State} {p : Packet} {k status : Nat} {f : State → State} (hexec : exec c s = onPort s p f)
    (h : Arrives s p k) (hf : f s = respondAtomic s p status (zeros 8)) (hstatus : status < 256) :
    Gives c s (fun t => ∃ q, Sends s t q ∧ Reply p q 6 status (zeros 64)) := by
  refine gives_onPort hexec h hf (quiet_sendPacket h.quiet _) rfl ?_
  rw [← fit_zeros]
  exact respondAtomic_sends s p (zeros 8) rfl hstatus

/-- An atomic of a working-copy place answers the old value, writes the new one and leaves every other byte. -/
theorem gives_atomic {c : Instr} {s : State} {p : Packet} {k : Nat} {f : State → State} {new : Nat → Nat} (hexec : exec c s = onPort s p f)
    (h : Arrives s p k) (hplace : atomicPlace s (hFn p) (hAddr p) = true) (hf : f s = rangeAtomic s p new) :
    Gives c s (fun t =>
      let old := rangeRead s (hFn p) (hAddr p) 8
      (∃ q, Sends { s with deep := t.deep } t q ∧ Reply p q 6 0 (fit 64 old)) ∧
      leVal (rangeRead t (hFn p) (hAddr p) 8) = new (leVal old) % 2 ^ 64 ∧
      ∀ a, a < rangeAddr (hFn p) (hAddr p) ∨ rangeAddr (hFn p) (hAddr p) + 8 ≤ a → memRead t.deep a = memRead s.deep a) := by
  have heq : rangeAtomic s p new = respondAtomic (rangeWrite s (hFn p) (hAddr p)
      (leBytes 8 (new (leVal (rangeRead s (hFn p) (hAddr p) 8)) % 2 ^ 64))) p 0 (rangeRead s (hFn p) (hAddr p) 8) := by
    rw [rangeAtomic, if_pos hplace]
  refine gives_onPort hexec h (hf.trans heq) (quiet_sendPacket (quiet_rangeWrite h.quiet ..) _) rfl ⟨?_, ?_, fun a ha => ?_⟩
  · exact respondAtomic_sends _ p _ (length_memReadN ..) (by decide)
  · have hread : rangeRead (rangeWrite s (hFn p) (hAddr p) (leBytes 8 (new (leVal (rangeRead s (hFn p) (hAddr p) 8)) % 2 ^ 64)))
        (hFn p) (hAddr p) 8 = leBytes 8 (new (leVal (rangeRead s (hFn p) (hAddr p) 8)) % 2 ^ 64) := by
      have hback := memReadN_writeN s.deep (rangeAddr (hFn p) (hAddr p)) (leBytes 8 (new (leVal (rangeRead s (hFn p) (hAddr p) 8)) % 2 ^ 64))
      rwa [length_leBytes] at hback
    refine (congrArg leVal hread).trans ?_
    rw [leVal_leBytes]
    exact Nat.mod_mod _ _
  · exact memRead_writeN_other _ (by rwa [length_leBytes])

theorem fetchAdds {s : State} {p : Packet} (h : Arrives s p 4) (hspace : hSpace p = 0) :
    (fnTakes s (hFn p) = false → Gives (.fetchAdd p .none) s (fun t => ∃ q, Sends s t q ∧ Reply p q 6 1 (zeros 64))) ∧
    (fnTakes s (hFn p) = true → atomicPlace s (hFn p) (hAddr p) = false → Gives (.fetchAdd p .none) s (fun t =>
      ∃ q, Sends s t q ∧ Reply p q 6 2 (zeros 64))) ∧
    (fnTakes s (hFn p) = true → atomicPlace s (hFn p) (hAddr p) = true → Gives (.fetchAdd p .none) s (fun t =>
      let old := rangeRead s (hFn p) (hAddr p) 8
      (∃ q, Sends { s with deep := t.deep } t q ∧ Reply p q 6 0 (fit 64 old)) ∧
      leVal (rangeRead t (hFn p) (hAddr p) 8) = (leVal old + field p.payload 0 8) % 2 ^ 64 ∧
      ∀ a, a < rangeAddr (hFn p) (hAddr p) ∨ rangeAddr (hFn p) (hAddr p) + 8 ≤ a → memRead t.deep a = memRead s.deep a)) := by
  have hrecv := recvFetchAdd_eq h hspace
  refine ⟨fun hfn => ?_, fun hfn hplace => ?_, fun hfn hplace => ?_⟩ <;> rw [hfn] at hrecv
  · exact gives_respondAtomic (exec_fetchAdd s p) h (hrecv.trans (if_neg Bool.false_ne_true)) (by decide)
  · rw [if_pos rfl, rangeAtomic, if_neg (by simp [hplace])] at hrecv
    exact gives_respondAtomic (exec_fetchAdd s p) h hrecv (by decide)
  · rw [if_pos rfl] at hrecv
    exact gives_atomic (new := fun v => v + field p.payload 0 8) (exec_fetchAdd s p) h hplace hrecv

/-- COMPARE_SWAP's new value is in range. -/
theorem swapped_mod (p : Packet) (old : List Byte) (hold : old.length = 8) :
    (if leVal old = field p.payload 0 8 then field p.payload 8 8 else leVal old) % 2 ^ 64 =
      if leVal old = field p.payload 0 8 then field p.payload 8 8 else leVal old := by
  have hnew : field p.payload 8 8 < 2 ^ 64 := field_lt ..
  have hlt : leVal old < 2 ^ 64 := by have := leVal_lt old; rwa [hold] at this
  split <;> exact Nat.mod_eq_of_lt ‹_›

theorem compareSwaps {s : State} {p : Packet} (h : Arrives s p 5) (hfn : fnTakes s (hFn p) = true)
    (hplace : atomicPlace s (hFn p) (hAddr p) = true) : Gives (.compareSwap p .none) s (fun t =>
      let old := rangeRead s (hFn p) (hAddr p) 8
      (∃ q, Sends { s with deep := t.deep } t q ∧ Reply p q 6 0 (fit 64 old)) ∧
      leVal (rangeRead t (hFn p) (hAddr p) 8) = (if leVal old = field p.payload 0 8 then field p.payload 8 8 else leVal old) ∧
      ∀ a, a < rangeAddr (hFn p) (hAddr p) ∨ rangeAddr (hFn p) (hAddr p) + 8 ≤ a → memRead t.deep a = memRead s.deep a) := by
  have hrecv := recvCompareSwap_eq h
  rw [hfn, if_pos rfl] at hrecv
  obtain ⟨t, hexec, hsends, hval, hother⟩ := gives_atomic (exec_compareSwap s p) h hplace hrecv
  exact ⟨t, hexec, hsends, hval.trans (swapped_mod p _ (length_memReadN ..)), hother⟩

/-! ### Responses (R201) -/

/-- A response that no request matches. -/
theorem recvResponse_unmatched {s : State} {p : Packet} {type : Nat} (h : Arrives s p type)
    (hnone : s.requests.find? (fun q => decide (q.tag = hTag p)) = none) : recvResponse s p .none type = s := by
  rw [recvResponse, if_neg (by simp [h.takes, h.type, h.good]), hnone]

/-- A response goes to the register that waits. -/
theorem recvResponse_matched {s : State} {p : Packet} {type a k d : Nat} {r : Request} (h : Arrives s p type)
    (hfind : s.requests.find? (fun q => decide (q.tag = hTag p)) = some r) (howner : r.owner = .core a k d) : recvResponse s p .none type =
      setCore { s with requests := s.requests.erase r } (coreIx a k) (setS (coreSt s (coreIx a k)) d (field p.payload 0 8)) := by
  rw [recvResponse, if_neg (by simp [h.takes, h.type, h.good]), hfind]
  simp only [payloadBad_of_arrives h, howner, if_true, Bool.false_eq_true, if_false]
  rfl

theorem responses {c : Instr} {s : State} {p : Packet} {type : Nat} (hexec : exec c s = onPort s p (fun s => recvResponse s p .none type))
    (h : Arrives s p type) :
    ((∀ r ∈ s.requests, r.tag ≠ hTag p) → Ignores c s) ∧
    (∀ r a k d, s.requests.find? (fun q => decide (q.tag = hTag p)) = some r → r.owner = .core a k d → Gives c s (fun t =>
      t = { s with requests := s.requests.erase r, cores := t.cores } ∧
      coreSt t (coreIx a k) = setS (coreSt s (coreIx a k)) d (field p.payload 0 8) ∧
      ∀ j, j ≠ coreIx a k → coreSt t j = coreSt s j)) := by
  refine ⟨fun hno => ?_, fun r a k d hfind howner => ?_⟩
  · exact ignores_onPort hexec h (recvResponse_unmatched h (List.find?_eq_none.mpr (fun r hr => by simpa using hno r hr)))
  · exact gives_onPort hexec h (recvResponse_matched h hfind howner) (quiet_of_same h.quiet rfl rfl rfl rfl rfl) rfl
      ⟨rfl, coreSt_setCore_same .., fun j => coreSt_setCore_other _ _⟩

/-- Settles O48: each packet comes to its receiver with a good header, which answers, writes or drops it. -/
theorem memoryFormPackets : Obligations.MemoryFormPackets := by
  unfold Obligations.MemoryFormPackets
  intro s p
  refine ⟨fun h hspace htc rows rd => loads h hspace htc rows rd, fun h hspace => ⟨fun hno => drops h (untaken h hspace hno),
    fun hfn hin hpart => stores h hspace hfn hin hpart, fun area gen row hfn hlen hin hpart => rejects h hspace hfn hlen hin hpart⟩,
    fun h hspace hfn i hseal hzero howner hstate hlate hshort => arrivals h hspace hfn hseal hzero howner hstate hlate hshort,
    fun h hspace => fetchAdds h hspace, fun h _ hfn hplace => compareSwaps h hfn hplace, ?_⟩
  intro c hc h
  simp only [List.mem_cons, List.not_mem_nil, or_false] at hc
  rcases hc with rfl | rfl
  · exact responses rfl h
  · exact responses rfl h

end Sys2Proof.Proofs

/-!
# Foreground commands of loads and tables (R31, R135, R184, R215, R217, R218, R287, R342, R372, R373, R435)

What a command of the post box does that passes its tests: it is taken off its queue, acts, and completes. `Edits` says what the commands
change, `answers` joins it to the completion; each command then is the equation of its own function.
-/

namespace Sys2Proof.Proofs

open Sys2Proof Sys2Proof.Machine Sys2Proof.Claims Sys2Proof.Laws

/-! ### The front of a command queue (R367, R369, R372) -/

/-- The next command has been taken off its queue. -/
def taken (s : State) (n : Nat) (rest : List (List Byte)) : State := modFn s n (fun x => { x with queue := rest })

theorem fnSt_taken (s : State) (n : Nat) (rest : List (List Byte)) : fnSt (taken s n rest) n = { fnSt s n with queue := rest } :=
  fnSt_modFn_same ..

theorem fnSt_taken_other (s : State) {n k : Nat} (rest : List (List Byte)) (hne : k ≠ n) : fnSt (taken s n rest) k = fnSt s k :=
  fnSt_modFn_other s _ hne

/-- The tests of a command do not look at the queue. -/
theorem cmdRejected_taken (s : State) (n : Nat) (rest : List (List Byte)) (e : List Byte) : cmdRejected (taken s n rest) n e = cmdRejected s n e := by
  have harg : argBad (taken s n rest) n e = argBad s n e := by
    unfold argBad
    rw [fnSt_taken]
    rfl
  have haccepted (op : Nat) : accepted (taken s n rest) n op = accepted s n op := by
    unfold accepted
    rw [fnSt_taken]
    rfl
  have hrunning (op : Nat) : bgRunning (taken s n rest) n op = bgRunning s n op := by
    unfold bgRunning
    rw [fnSt_taken]
  have hbusy (op : Nat) : opBusy (taken s n rest) n op = opBusy s n op := by
    unfold opBusy
    simp only [hrunning]
  unfold cmdRejected
  rw [harg]
  simp only [haccepted, hbusy]
  rfl

/-- A queue with a known command in front, or none, is not touched. -/
theorem skipUnknown_known {s : State} {n : Nat} (h : ∀ e, (fnSt s n).queue.head? = some e → knownOps.contains (eOp e) = true) (fuel : Nat) :
    skipUnknown s n fuel = s := by
  cases fuel with
  | zero => rfl
  | succ fuel =>
    rw [skipUnknown]
    split
    · next e rest hq => rw [if_pos (h e (by rw [hq]; rfl))]
    · rfl

/-- A command that its tests let through acts on the state without it. -/
theorem runCmd_passes {s : State} {n op : Nat} {e : List Byte} {rest : List (List Byte)} (act : State → List Byte → State)
    (h : Passes s n op e rest) : runCmd s n op act = skipUnknown (act (taken s n rest) e) n 64 := by
  obtain ⟨htakes, hpasses⟩ := h
  have hwait : (switching s || (decide (0x30 ≤ op) && holding s)) = false := by
    rcases htakes.runs with hop | hhold
    · simp [htakes.quiet.switching, show ¬0x30 ≤ op by omega]
    · simp [htakes.quiet.switching, hhold]
  have hrejected := cmdRejected_taken s n rest e
  rw [hpasses] at hrejected
  have hshown : cmdRejected (modFn s n (fun x => { x with queue := rest })) n e = none := hrejected
  rw [runCmd, hwait]
  simp only [Bool.false_eq_true, if_false, htakes.queue, htakes.opcode, ne_eq, not_true_eq_false, hshown]
  rfl

/-! ### What a foreground command changes -/

/-- From `s` to `t` only the record of function `n` has changed, to `x`, words in `l`, and host memory by the writes `wrote`. -/
structure Edits (s t : State) (n : Nat) (wrote : List HostWrite) (x : FnSt) (l : List Nat) : Prop where
  frame : t = { s with regs := t.regs, fns := t.fns, posted := s.posted ++ wrote }
  fn : fnSt t n = x
  others : ∀ k, k ≠ n → fnSt t k = fnSt s k
  words : ∀ a, a ∉ l → wordAt t a = wordAt s a

section
variable {s t : State} {n : Nat} {wrote : List HostWrite} {x : FnSt} {l : List Nat}

theorem edits_refl (s : State) (n : Nat) : Edits s s n [] (fnSt s n) [] := by
  refine ⟨?_, rfl, fun _ _ => rfl, fun _ _ => rfl⟩
  rw [List.append_nil]

theorem edits_setWord (h : Edits s t n wrote x l) (a : Nat) (w : Word) : Edits s (setWord t a w) n wrote x (a :: l) where
  frame := by rw [setWord, h.frame]
  fn := h.fn
  others := h.others
  words b hb := by
    rw [List.mem_cons, not_or] at hb
    rw [wordAt_setWord_other t w hb.1, h.words b hb.2]

theorem edits_setFnF (h : Edits s t n wrote x l) (f : Fld) (v : Nat) : Edits s (setFnF t n f v) n wrote x ((pgFn n + f.off) :: l) :=
  edits_setWord h ..

theorem edits_modFn (h : Edits s t n wrote x l) (f : FnSt → FnSt) : Edits s (modFn t n f) n wrote (f x) l where
  frame := by rw [modFn, setFnSt, h.frame]
  fn := by rw [fnSt_modFn_same, h.fn]
  others k hk := by rw [fnSt_modFn_other t f hk, h.others k hk]
  words := h.words

theorem edits_hostWrite (h : Edits s t n wrote x l) (hhost : s.hostDown = false) (a : Nat) (bs : List Byte) :
    Edits s (hostWrite t n a bs) n (wrote ++ [⟨n, a, bs⟩]) x l := by
  have hup : t.hostDown = false := by rw [h.frame]; exact hhost
  have hwrite : hostWrite t n a bs = { t with posted := t.posted ++ [⟨n, a, bs⟩] } := by rw [hostWrite, hup]; rfl
  rw [hwrite]
  refine ⟨?_, h.fn, h.others, h.words⟩
  rw [h.frame, ← List.append_assoc]

end

/-! ### The end of a foreground command (R369, R370) -/

/-- The words that a completion rests on: the box's control, head and ring, and the firmware's stage. -/
def boxWords (n : Nat) : List Nat := [pgFn n + 0x048, pgFn n + 0x070, pgFn n + 0x058, pgFn n + 0x05C, pgNvm + 0x044]

/-- The words that a completion changes: CPL_HEAD and INT_STATUS. -/
def completionWords (n : Nat) : List Nat := [pgFn n + 0x070, pgFn n + 0x018]

theorem touches_cplWrite {s : State} (hhost : s.hostDown = false) (n : Nat) (c : Cpl) :
    Touches { s with posted := s.posted ++ [cplEntry s n c] } (cplWrite s n c) (completionWords n) := by
  have hwrite : hostWrite s n (cplEntry s n c).addr (cplEntry s n c).bytes = { s with posted := s.posted ++ [cplEntry s n c] } := by
    rw [hostWrite, hhost]; rfl
  have heq : cplWrite s n c = raiseFn (setFnF { s with posted := s.posted ++ [cplEntry s n c] } n FN_CPL_HEAD_HEAD
      (fnF s n FN_CPL_HEAD_HEAD + 1)) n FN_INT_CPL := by
    rw [← hwrite]; rfl
  rw [heq]
  exact touches_trans (touches_setF ..) (touches_raiseFn ..)

theorem does_mono {c : Instr} {s : State} {P Q : State → Prop} (h : Does c s P) (hpq : ∀ u, P u → Q u) : Does c s Q := by
  obtain ⟨u, hexec, hu⟩ := h
  exact ⟨u, hexec, hpq u hu⟩

/-- The CPL_HEAD after a completion. -/
theorem completed_cplWrite {s : State} (hhost : s.hostDown = false) (n : Nat) (e : List Byte) (st d : Nat) :
    Completed s (cplWrite s n ⟨eTag e, eOp e, st, d⟩) n e st d [] := by
  have htouches := touches_cplWrite hhost n ⟨eTag e, eOp e, st, d⟩
  refine ⟨?_, ?_, fnF_raiseFn _ n rfl (by decide)⟩
  · rw [htouches.1, List.append_nil]
  · have hhead : fnF (setFnF (hostWrite s n (cplEntry s n ⟨eTag e, eOp e, st, d⟩).addr (cplEntry s n ⟨eTag e, eOp e, st, d⟩).bytes) n
        FN_CPL_HEAD_HEAD (fnF s n FN_CPL_HEAD_HEAD + 1)) n FN_CPL_HEAD_HEAD = (fnF s n FN_CPL_HEAD_HEAD + 1) % 2 ^ 32 :=
      getF_setF_same _ _ _ _ (by decide) (by decide)
    exact (getF_of_touches (touches_raiseFn ..) (by simp [FN_CPL_HEAD_HEAD, FN_INT_CPL])).trans hhead

/-- The die without what records and completions change: registers, functions' records, host memory and messages. -/
def unposted (s : State) : State := { s with regs := [], fns := [], posted := [], msi := [], msiLast := [], msiPend := [] }

theorem frame_of_unposted {s t : State} (h : unposted t = unposted s) :
    t = { s with regs := t.regs, fns := t.fns, posted := t.posted, msi := t.msi, msiLast := t.msiLast, msiPend := t.msiPend } :=
  calc t = { unposted t with
        regs := t.regs, fns := t.fns, posted := t.posted, msi := t.msi, msiLast := t.msiLast, msiPend := t.msiPend } := rfl
    _ = { unposted s with
        regs := t.regs, fns := t.fns, posted := t.posted, msi := t.msi, msiLast := t.msiLast, msiPend := t.msiPend } := by rw [h]

theorem unposted_of_edits {s t : State} {n : Nat} {wrote : List HostWrite} {x : FnSt} {l : List Nat} (h : Edits s t n wrote x l) :
    unposted t = unposted s := by
  rw [h.frame]
  rfl

theorem unposted_of_touches {s t : State} {l : List Nat} (h : Touches s t l) : unposted t = unposted s := by
  rw [h.1]
  rfl

section
variable {s t : State} {n : Nat} {wrote : List HostWrite} {x : FnSt} {l : List Nat}

theorem getF_of_edits (h : Edits s t n wrote x l) {pg : Nat} {f : Fld} (hf : pg + f.off ∉ l) : getF t pg f = getF s pg f := by
  unfold getF
  rw [h.words _ hf]

theorem ringBase_of_edits (h : Edits s t n wrote x l) {lo hi : Nat} (hlo : pgFn n + lo ∉ l) (hhi : pgFn n + hi ∉ l) :
    ringBase t n lo hi = ringBase s n lo hi := by
  unfold ringBase
  rw [h.words _ hlo, h.words _ hhi]

/-- A completion entry is the same where the words that it rests on are. -/
theorem cplEntry_of_edits (h : Edits s t n wrote x l) (hbox : ∀ a ∈ l, a ∉ boxWords n) (c : Cpl) : cplEntry t n c = cplEntry s n c := by
  have hnot {a : Nat} (ha : a ∈ boxWords n) : a ∉ l := fun hl => hbox a hl ha
  have hhead : fnF t n FN_CPL_HEAD_HEAD = fnF s n FN_CPL_HEAD_HEAD := getF_of_edits h (hnot (by simp [boxWords, FN_CPL_HEAD_HEAD]))
  rw [cplEntry, ringBase_of_edits h (hnot (by simp [boxWords])) (hnot (by simp [boxWords])), hhead, cplEntry]

/-- What a foreground command has done, and its completion posted behind it. -/
theorem answered_complete {s0 : State} {e : List Byte} {st d : Nat} (hup : armed s n = true) (hhost : s.hostDown = false)
    (hstage : switching s = false) (h : Edits s t n wrote x l) (hbox : ∀ a ∈ l, a ∉ boxWords n)
    (hentry : cplEntry s n ⟨eTag e, eOp e, st, d⟩ = cplEntry s0 n ⟨eTag e, eOp e, st, d⟩)
    (hhead0 : fnF s n FN_CPL_HEAD_HEAD = fnF s0 n FN_CPL_HEAD_HEAD) (hsposted : s.posted = s0.posted) (hframe0 : unposted s = unposted s0)
    (hothers0 : ∀ k, k ≠ n → fnSt s k = fnSt s0 k) :
    Answered s0 (complete t n (eTag e) (eOp e) st d) n e st d wrote x ∧
      ∀ a, a ∉ completionWords n → wordAt (complete t n (eTag e) (eOp e) st d) a = wordAt t a := by
  have hnot {a : Nat} (ha : a ∈ boxWords n) : a ∉ l := fun hl => hbox a hl ha
  have hstageSame : getF t pgNvm NVM_FW_STATUS_STAGE = getF s pgNvm NVM_FW_STATUS_STAGE :=
    getF_of_edits h (hnot (by simp [boxWords, NVM_FW_STATUS_STAGE]))
  have hnotSwitching : switching t = false := by unfold switching at hstage ⊢; rwa [hstageSame]
  have hctrl : fnF t n FN_PB_CTRL_ARM = fnF s n FN_PB_CTRL_ARM := getF_of_edits h (hnot (by simp [boxWords, FN_PB_CTRL_ARM]))
  have harmed : armed t n = true := by unfold armed at hup ⊢; rwa [hctrl]
  have hold : fnF t n FN_CPL_HEAD_HEAD = fnF s n FN_CPL_HEAD_HEAD := getF_of_edits h (hnot (by simp [boxWords, FN_CPL_HEAD_HEAD]))
  have hhostDown : t.hostDown = false := by rw [h.frame]; exact hhost
  have hcomplete : complete t n (eTag e) (eOp e) st d = cplWrite t n ⟨eTag e, eOp e, st, d⟩ := by
    simp only [complete, hnotSwitching, harmed, if_true, Bool.false_eq_true, if_false]
  have htouches := touches_cplWrite hhostDown n ⟨eTag e, eOp e, st, d⟩
  obtain ⟨hposted, hhead, hint⟩ := completed_cplWrite hhostDown n e st d
  have hfns : (cplWrite t n ⟨eTag e, eOp e, st, d⟩).fns = t.fns := by rw [htouches.1]
  have htposted : t.posted = s.posted ++ wrote := by rw [h.frame]
  rw [hcomplete]
  refine ⟨⟨⟨?_, ?_, hint⟩, ?_, fun k hk => ?_, ?_⟩, htouches.2⟩
  · rw [hposted, cplEntry_of_edits h hbox, List.append_nil, htposted, hsposted, hentry]
  · rw [hhead, hold, hhead0]
  · rw [fnSt, hfns]
    exact h.fn
  · rw [fnSt, hfns]
    exact (h.others k hk).trans (hothers0 k hk)
  · exact frame_of_unposted ((unposted_of_touches htouches).trans ((unposted_of_edits h).trans hframe0))

end

theorem cplEntry_taken (s : State) (n : Nat) (rest : List (List Byte)) (c : Cpl) : cplEntry (taken s n rest) n c = cplEntry s n c := rfl

theorem fnF_taken (s : State) (n : Nat) (rest : List (List Byte)) (f : Fld) : fnF (taken s n rest) n f = fnF s n f := rfl

theorem armed_taken (s : State) (n : Nat) (rest : List (List Byte)) : armed (taken s n rest) n = armed s n := rfl

theorem switching_taken (s : State) (n : Nat) (rest : List (List Byte)) : switching (taken s n rest) = switching s := rfl

/-- A foreground command that passes its tests: what it has done with the entry taken, and its completion behind that. -/
theorem answers {c : Instr} {s t : State} {n op st d : Nat} {e : List Byte} {rest : List (List Byte)} {wrote : List HostWrite} {x : FnSt}
    {l : List Nat} {f : State → List Byte → State × Nat × Nat} (hexec : exec c s = onDie s (fun s => runCmd s n op (fore n f)))
    (h : Passes s n op e rest) (hf : f (taken s n rest) e = (t, st, d)) (hedits : Edits (taken s n rest) t n wrote x l) (hqueue : x.queue = rest)
    (hbox : ∀ a ∈ l, a ∉ boxWords n) :
    Does c s (fun u => Answered s u n e st d wrote x ∧ ∀ a, a ∉ completionWords n → wordAt u a = wordAt t a) := by
  have hanswered := answered_complete (s0 := s) (e := e) (st := st) (d := d) ((armed_taken ..).trans h.1.armed) h.1.host
    ((switching_taken ..).trans h.1.quiet.switching) hedits hbox (cplEntry_taken ..) (fnF_taken ..) rfl rfl (fun k => fnSt_taken_other s rest)
  refine ⟨complete t n (eTag e) (eOp e) st d, ?_, hanswered⟩
  rw [hexec, onDie_alive _ h.1.up, runCmd_passes _ h, fore, hf]
  rw [skipUnknown_known]
  intro e' he'
  rw [hanswered.1.fn, hqueue] at he'
  exact h.1.next e' he'

/-- A foreground command that only completes. -/
theorem answers_only {c : Instr} {s : State} {n op st d : Nat} {e : List Byte} {rest : List (List Byte)}
    {f : State → List Byte → State × Nat × Nat} (hexec : exec c s = onDie s (fun s => runCmd s n op (fore n f)))
    (h : Passes s n op e rest) (hf : f (taken s n rest) e = (taken s n rest, st, d)) :
    Does c s (fun u => Answered s u n e st d [] { fnSt s n with queue := rest }) := by
  have hedits := edits_refl (taken s n rest) n
  rw [fnSt_taken] at hedits
  exact does_mono (answers hexec h hf hedits rfl (fun _ ha => (List.not_mem_nil ha).elim)) (fun _ hu => hu.1)

/-- A foreground command that changes only the record of its function. -/
theorem answers_record {c : Instr} {s : State} {n op st d : Nat} {e : List Byte} {rest : List (List Byte)} (g : FnSt → FnSt)
    {f : State → List Byte → State × Nat × Nat} (hexec : exec c s = onDie s (fun s => runCmd s n op (fore n f)))
    (h : Passes s n op e rest) (hf : f (taken s n rest) e = (modFn (taken s n rest) n g, st, d)) (hqueue : ∀ x, (g x).queue = x.queue) :
    Does c s (fun u => Answered s u n e st d [] (g { fnSt s n with queue := rest })) := by
  have hedits := edits_modFn (edits_refl (taken s n rest) n) g
  rw [fnSt_taken] at hedits
  exact does_mono (answers hexec h hf hedits (hqueue _) (fun _ ha => (List.not_mem_nil ha).elim)) (fun _ hu => hu.1)

/-- A foreground command that writes host memory and nothing else. -/
theorem answers_buffer {c : Instr} {s : State} {n op d : Nat} {a : Nat} {bs e : List Byte} {rest : List (List Byte)}
    {f : State → List Byte → State × Nat × Nat} (hexec : exec c s = onDie s (fun s => runCmd s n op (fore n f)))
    (h : Passes s n op e rest) (hf : f (taken s n rest) e = putBuf (taken s n rest) n a bs d) (hbs : bs ≠ []) :
    Does c s (fun u => Answered s u n e 0 d [⟨n, a, bs⟩] { fnSt s n with queue := rest }) := by
  have hhost : (taken s n rest).hostDown = false := h.1.host
  have hput : putBuf (taken s n rest) n a bs d = (hostWrite (taken s n rest) n a bs, 0, d) := by
    rw [putBuf, if_neg (by simp [hhost]), if_neg hbs]
  have hedits := edits_hostWrite (edits_refl (taken s n rest) n) hhost a bs
  rw [fnSt_taken] at hedits
  exact does_mono (answers hexec h (hf.trans hput) hedits rfl (fun _ ha => (List.not_mem_nil ha).elim)) (fun _ hu => hu.1)

/-! ### Host buffers (R370) -/

theorem withBuf_none (s : State) {len : Nat} (f : List Byte → State × Nat × Nat) (hlen : len ≠ 0) : withBuf s none len f = (s, 0x0E, 0) := by
  rw [withBuf, if_neg hlen]
  rfl

theorem withBuf_buf {s : State} {b : HostRead} {l : List Byte} {len : Nat} (f : List Byte → State × Nat × Nat) (hbuf : Buf b l len)
    (hhost : s.hostDown = false) : withBuf s b len f = f l := by
  obtain ⟨rfl, hlen, hne⟩ := hbuf
  rw [withBuf, if_neg hne, hostBuf]
  simp only [hlen, hhost, and_self, if_true]

theorem withBuf_zero (s : State) (b : HostRead) (f : List Byte → State × Nat × Nat) : withBuf s b 0 f = f [] := if_pos rfl

/-! ### Loads and tables (R31, R135, R184, R215, R217, R218, R287)

The commands on the entry's own die: `n` is the function, `e` the entry, `b` the buffer that the host gives. -/

section
variable {s : State} {n : Fin 64} {e : List Byte} {rest : List (List Byte)} {b : HostRead} {l : List Byte}

/-- A buffer that cannot be read completes HOST_FAULT. -/
theorem answers_fault {c : Instr} {op len : Nat} {f : State → List Byte → State × Nat × Nat} {g : List Byte → State × Nat × Nat}
    (hexec : exec c s = onDie s (fun s => runCmd s n op (fore n f))) (h : Passes s n op e rest)
    (hf : f (taken s n rest) e = withBuf (taken s n rest) none len g) (hlen : len ≠ 0) :
    Does c s (fun u => Answered s u n e 0x0E 0 [] { fnSt s n with queue := rest }) :=
  answers_only hexec h (hf.trans (withBuf_none _ _ hlen))

theorem exec_loadManifest (s : State) (n : Fin 64) (b : HostRead) : exec (.loadManifest n b) s =
    onDie s (fun s => runCmd s n 0x01 (fore n (cmdLoadManifest n b))) := rfl
theorem exec_loadPrograms (s : State) (n : Fin 64) (b : HostRead) : exec (.loadPrograms n b) s =
    onDie s (fun s => runCmd s n 0x02 (fore n (cmdLoadPrograms n b))) := rfl
theorem exec_loadWheel (s : State) (n : Fin 64) (b : HostRead) : exec (.loadWheel n b) s =
    onDie s (fun s => runCmd s n 0x03 (fore n (cmdLoadWheel n b))) := rfl
theorem exec_setOwnership (s : State) (n : Fin 64) (b : HostRead) : exec (.setOwnership n b) s =
    onDie s (fun s => runCmd s n 0x07 (fore n (cmdSetOwnership n b))) := rfl
theorem exec_routeLoad (s : State) (n : Fin 64) (b : HostRead) : exec (.routeLoad n b) s =
    onDie s (fun s => runCmd s n 0x08 (fore n (cmdRouteLoad n b))) := rfl
theorem exec_routeStage (s : State) (n : Fin 64) (b : HostRead) : exec (.routeStage n b) s =
    onDie s (fun s => runCmd s n 0x09 (fore n (cmdRouteStage n b))) := rfl
theorem exec_contract (s : State) (n : Fin 64) (b : HostRead) : exec (.contract n b) s =
    onDie s (fun s => runCmd s n 0x14 (fore n (cmdContract n b))) := rfl
theorem exec_saveContext (s : State) (n : Fin 64) : exec (.saveContext n) s =
    onDie s (fun s => runCmd s n 0x0A (fore n (cmdSaveContext n))) := rfl
theorem exec_restoreContext (s : State) (n : Fin 64) (b : HostRead) : exec (.restoreContext n b) s =
    onDie s (fun s => runCmd s n 0x0B (fore n (cmdRestoreContext n b))) := rfl
theorem exec_twinReport (s : State) (n : Fin 64) : exec (.twinReport n) s =
    onDie s (fun s => runCmd s n 0x28 (fore n (cmdTwinReport n))) := rfl
theorem exec_floorList (s : State) (n : Fin 64) : exec (.floorList n) s =
    onDie s (fun s => runCmd s n 0x1A (fore n (cmdFloorList n))) := rfl
theorem exec_clearRemap (s : State) (n : Fin 64) : exec (.clearRemap n) s =
    onDie s (fun s => runCmd s n 0x20 (fore n cmdClearRemap)) := rfl

/-- The commands that read a buffer, when it cannot be read. -/
theorem faults : ∀ c ∈ [(0x01, Instr.loadManifest n none, field e 0x10 8), (0x02, .loadPrograms n none, field e 0x10 8),
      (0x03, .loadWheel n none, field e 0x10 8), (0x07, .setOwnership n none, field e 0x10 8), (0x08, .routeLoad n none, field e 0x10 8),
      (0x14, .contract n none, field e 0x10 8), (0x0B, .restoreContext n none, 1)],
    Passes s n c.1 e rest → c.2.2 ≠ 0 → Does c.2.1 s (fun u => Answered s u n e 0x0E 0 [] { fnSt s n with queue := rest }) := by
  intro c hc h hlen
  simp only [List.mem_cons, List.not_mem_nil, or_false] at hc
  rcases hc with rfl | rfl | rfl | rfl | rfl | rfl | rfl
  · exact answers_fault (exec_loadManifest s n none) h (if_neg hlen) hlen
  · exact answers_fault (exec_loadPrograms s n none) h (if_neg hlen) hlen
  · exact answers_fault (exec_loadWheel s n none) h (if_neg hlen) hlen
  · exact answers_fault (exec_setOwnership s n none) h (by unfold cmdSetOwnership; rfl) (Nat.mul_ne_zero (show 32 ≠ 0 by decide) hlen)
  · exact answers_fault (exec_routeLoad s n none) h rfl (Nat.mul_ne_zero (show 4 ≠ 0 by decide) hlen)
  · exact answers_fault (exec_contract s n none) h (by unfold cmdContract; rfl) (Nat.mul_ne_zero (show 8 ≠ 0 by decide) hlen)
  · exact answers_fault (exec_restoreContext s n none) h rfl (by decide)

/-- What a load that reads its buffer is, once the buffer is there. -/
theorem cmd_buf {len : Nat} {g : List Byte → State × Nat × Nat} {op : Nat} {r : State × Nat × Nat} (h : Passes s n op e rest)
    (hbuf : Buf b l len) (hg : g l = r) : withBuf (taken s n rest) b len g = r :=
  (withBuf_buf (s := taken s n rest) g hbuf h.1.host).trans hg

theorem loads_manifest (h : Passes s n 0x01 e rest) (hbuf : Buf b l (field e 0x10 8)) :
    (∀ f, manifestFailing l = some f → Does (.loadManifest n b) s (fun u =>
      Answered s u n e 1 (f.table * 2 ^ 32 + f.index) [] { fnSt s n with queue := rest })) ∧
    (manifestFailing l = none → fnF s n FN_STATE_STATUS_PENDING = 0 → Does (.loadManifest n b) s (fun u =>
      Answered s u n e 0 0 [] { fnSt s n with queue := rest, staged := some (parseManifest l) })) := by
  refine ⟨fun f hfail => answers_only (exec_loadManifest s n b) h ((if_neg hbuf.2.2).trans (cmd_buf h hbuf ?_)),
    fun hok hpending => answers_record (fun x => { x with staged := some (parseManifest l) }) (exec_loadManifest s n b) h
      ((if_neg hbuf.2.2).trans (cmd_buf h hbuf ?_)) (fun _ => rfl)⟩
  · simp only [hfail]
  · have hnone : fnF (taken s n rest) n FN_STATE_STATUS_PENDING = 0 := hpending
    simp only [hok, hnone]
    cases (fnSt (taken s n rest) n).manifest <;> simp

theorem loads_wheel (h : Passes s n 0x03 e rest) (hbuf : Buf b l (field e 0x10 8)) :
    (∀ o, wheelFailing l = some o → Does (.loadWheel n b) s (fun u => Answered s u n e 1 o [] { fnSt s n with queue := rest })) ∧
    (wheelFailing l = none → Does (.loadWheel n b) s (fun u =>
      Answered s u n e 0 0 [] { fnSt s n with queue := rest, wheelStaged := some (parseWheel l) })) := by
  refine ⟨fun o hfail => answers_only (exec_loadWheel s n b) h ((if_neg hbuf.2.2).trans (cmd_buf h hbuf ?_)),
    fun hok => answers_record (fun x => { x with wheelStaged := some (parseWheel l) }) (exec_loadWheel s n b) h
      ((if_neg hbuf.2.2).trans (cmd_buf h hbuf ?_)) (fun _ => rfl)⟩
  · simp only [hfail]
  · simp only [hok]

theorem loads_route (h : Passes s n 0x08 e rest) (hbuf : Buf b l (4 * field e 0x10 8)) :
    (routeWordsOk (routeWords l) = true → Does (.routeLoad n b) s (fun u =>
      Answered s u n e 0 0 [] { fnSt s n with queue := rest, routeLoaded := some (routeWords l) })) ∧
    (routeWordsOk (routeWords l) = false → Does (.routeLoad n b) s (fun u => Answered s u n e 1 0 [] { fnSt s n with queue := rest })) := by
  refine ⟨fun hok => answers_record (fun x => { x with routeLoaded := some (routeWords l) }) (exec_routeLoad s n b) h (cmd_buf h hbuf ?_)
    (fun _ => rfl), fun hbad => answers_only (exec_routeLoad s n b) h (cmd_buf h hbuf ?_)⟩
  · simp only [hok, if_true]
  · simp only [hbad, Bool.false_eq_true, if_false]

/-! #### LOAD_PROGRAMS (R135) -/

/-- A field that the completion does not change. -/
theorem fnF_of_completed {t u : State} {n : Nat} (h : ∀ a, a ∉ completionWords n → wordAt u a = wordAt t a) {f : Fld}
    (hf : pgFn n + f.off ∉ completionWords n) : fnF u n f = fnF t n f := by
  unfold fnF getF
  rw [h _ hf]

theorem fnF_modFn (s : State) (n m : Nat) (g : FnSt → FnSt) (f : Fld) : fnF (modFn s m g) n f = fnF s n f := rfl

/-- The marks of a program set, as PROG_STATUS reports them. -/
def markPrograms (s : State) (n : Nat) (p : ProgSet) : State :=
  setFnF (setFnF s n FN_PROG_STATUS_ND (b2n (setNd p))) n FN_PROG_STATUS_TILE (b2n (setTile p))

theorem b2n_mod (b : Bool) : b2n b % 2 = if b then 1 else 0 := by cases b <;> rfl

theorem nd_markPrograms (s : State) (n : Nat) (p : ProgSet) : fnF (markPrograms s n p) n FN_PROG_STATUS_ND = if setNd p then 1 else 0 := by
  have hdisjoint : fnF (markPrograms s n p) n FN_PROG_STATUS_ND = fnF (setFnF s n FN_PROG_STATUS_ND (b2n (setNd p))) n FN_PROG_STATUS_ND :=
    getF_setF_disjoint _ _ (f := FN_PROG_STATUS_TILE) (g := FN_PROG_STATUS_ND) _ rfl (by decide) (by decide) (by decide)
  rw [hdisjoint, ← b2n_mod]
  exact getF_setF_same s (pgFn n) FN_PROG_STATUS_ND _ (by decide) (by decide)

theorem tile_markPrograms (s : State) (n : Nat) (p : ProgSet) : fnF (markPrograms s n p) n FN_PROG_STATUS_TILE = if setTile p then 1 else 0 := by
  rw [← b2n_mod]
  exact getF_setF_same _ (pgFn n) FN_PROG_STATUS_TILE _ (by decide) (by decide)

/-- A program set that parses is staged while the function refuses none. -/
theorem cmdLoadPrograms_staged {r : State} (hlen : field e 0x10 8 ≠ 0)
    (hbuf : ∀ g, withBuf r b (field e 0x10 8) g = g l) (hok : progsFailing l (4096 * fnF r n FN_PROG_CTRL_REGION_SIZE) = none)
    (hrefuse : fnF r n FN_PROG_CTRL_REFUSE_ND = 0) :
    cmdLoadPrograms n b r e = (modFn (markPrograms r n (parseProgs l)) n (fun x => { x with progsStaged := some (parseProgs l) }), 0, 0) := by
  have hnd : decide (fnF r n FN_PROG_CTRL_REFUSE_ND = 1) = false := by rw [hrefuse]; rfl
  rw [cmdLoadPrograms, if_neg hlen, hbuf]
  simp only [hok, hnd]
  cases (parseProgs l).progs.findIdx? (fun q => q.nd) <;> rfl

theorem loads_programs (h : Passes s n 0x02 e rest) (hbuf : Buf b l (field e 0x10 8)) :
    (∀ o, progsFailing l (4096 * fnF s n FN_PROG_CTRL_REGION_SIZE) = some o → Does (.loadPrograms n b) s (fun u =>
      Answered s u n e 1 o [] { fnSt s n with queue := rest })) ∧
    (progsFailing l (4096 * fnF s n FN_PROG_CTRL_REGION_SIZE) = none → fnF s n FN_PROG_CTRL_REFUSE_ND = 0 →
      Does (.loadPrograms n b) s (fun u =>
        Answered s u n e 0 0 [] { fnSt s n with queue := rest, progsStaged := some (parseProgs l) } ∧
        fnF u n FN_PROG_STATUS_ND = (if setNd (parseProgs l) then 1 else 0) ∧
        fnF u n FN_PROG_STATUS_TILE = (if setTile (parseProgs l) then 1 else 0))) := by
  refine ⟨fun o hfail => answers_only (exec_loadPrograms s n b) h ((if_neg hbuf.2.2).trans (cmd_buf h hbuf ?_)), fun hok hrefuse => ?_⟩
  · rw [fnF_taken]
    simp only [hfail]
  · have hcmd := cmdLoadPrograms_staged (r := taken s n rest) (n := n) hbuf.2.2 (fun g => cmd_buf h hbuf rfl) hok hrefuse
    have hedits : Edits (taken s n rest) _ n _ _ _ := edits_modFn (edits_setFnF (edits_setFnF (edits_refl (taken s n rest) n) FN_PROG_STATUS_ND
      (b2n (setNd (parseProgs l)))) FN_PROG_STATUS_TILE (b2n (setTile (parseProgs l)))) (fun x => { x with progsStaged := some (parseProgs l) })
    rw [fnSt_taken] at hedits
    have hbox : ∀ a ∈ [pgFn n + FN_PROG_STATUS_TILE.off, pgFn n + FN_PROG_STATUS_ND.off], a ∉ boxWords n := by
      simp [boxWords, FN_PROG_STATUS_TILE, FN_PROG_STATUS_ND, pgFn, pgNvm]
      omega
    refine does_mono (answers (exec_loadPrograms s n b) h hcmd hedits rfl hbox) (fun u hu => ⟨hu.1, ?_, ?_⟩)
    · rw [fnF_of_completed hu.2 (by simp [completionWords, FN_PROG_STATUS_ND]), fnF_modFn, nd_markPrograms]
    · rw [fnF_of_completed hu.2 (by simp [completionWords, FN_PROG_STATUS_TILE]), fnF_modFn, tile_markPrograms]

end

section
variable {s : State} {n : Fin 64} {e : List Byte} {rest : List (List Byte)} {b : HostRead} {l : List Byte}

/-! #### SET_OWNERSHIP (R215) -/

theorem not_boxWords {n : Nat} {off : Nat} (hoff : off ≠ 0x048 ∧ off ≠ 0x070 ∧ off ≠ 0x058 ∧ off ≠ 0x05C) : pgFn n + off ∉ boxWords n := by
  obtain ⟨hctrl, hhead, hlo, hhi⟩ := hoff
  simp only [boxWords, List.mem_cons, List.not_mem_nil, or_false, not_or, pgFn, pgNvm]
  omega

/-- A command that sets one field of its function's page beside the record. -/
theorem answers_field {c : Instr} {op st d v : Nat} (g : FnSt → FnSt) (f : Fld)
    {cmd : State → List Byte → State × Nat × Nat} (hexec : exec c s = onDie s (fun s => runCmd s n op (fore n cmd)))
    (h : Passes s n op e rest) (hcmd : cmd (taken s n rest) e = (setFnF (modFn (taken s n rest) n g) n f v, st, d))
    (hqueue : ∀ x, (g x).queue = x.queue) (hoff : f.off ≠ 0x048 ∧ f.off ≠ 0x070 ∧ f.off ≠ 0x058 ∧ f.off ≠ 0x05C) (hint : f.off ≠ 0x018)
    (hlo : f.lo ≤ f.hi) (hhi : f.hi < 32) :
    Does c s (fun u => Answered s u n e st d [] (g { fnSt s n with queue := rest }) ∧ fnF u n f = v % 2 ^ (f.hi + 1 - f.lo)) := by
  have hedits := edits_setFnF (edits_modFn (edits_refl (taken s n rest) n) g) f v
  rw [fnSt_taken] at hedits
  have hbox : ∀ a ∈ [pgFn n + f.off], a ∉ boxWords n := by
    intro a ha
    rw [List.mem_singleton] at ha
    exact ha ▸ not_boxWords hoff
  refine does_mono (answers hexec h hcmd hedits (hqueue _) hbox) (fun u hu => ⟨hu.1, ?_⟩)
  have hnot : pgFn n + f.off ∉ completionWords n := by
    simp only [completionWords, List.mem_cons, List.not_mem_nil, or_false, not_or]
    omega
  rw [fnF_of_completed hu.2 hnot]
  exact getF_setF_same _ _ _ _ hlo hhi

theorem sets_no_ownership (h : Passes s n 0x07 e rest) (hcount : field e 0x10 8 = 0) : Does (.setOwnership n b) s (fun u =>
    Answered s u n e 0 0 [] { fnSt s n with queue := rest, own := [] } ∧ fnF u n FN_PORT_STATUS_OWN_ENTRIES = 0) := by
  refine answers_field (v := 0) (fun x => { x with own := [] }) FN_PORT_STATUS_OWN_ENTRIES (exec_setOwnership s n b) h ?_ (fun _ => rfl)
    (by decide) (by decide) (by decide) (by decide)
  unfold cmdSetOwnership
  rw [hcount]
  rfl

theorem sets_one_owner (h : Passes s n 0x07 e rest) (hcount : field e 0x10 8 = 1) (hbuf : Buf b l 32) (hlo : field l 0 4 % 4096 = 0)
    (hhi : field l 4 4 % 4096 = 0) (ha : field l 8 8 < 2 ^ 48) (hb : field l 0x10 8 < 2 ^ 48) (hzero : allZero (l.drop 0x19) = true) :
    Does (.setOwnership n b) s (fun u => Answered s u n e 0 1 []
      { fnSt s n with queue := rest, own := [⟨field l 0 4, field l 4 4, field l 8 8, field l 0x10 8, field l 0x18 1⟩] } ∧
      fnF u n FN_PORT_STATUS_OWN_ENTRIES = 1) := by
  refine answers_field (v := 1)
    (fun x => { x with own := [⟨field l 0 4, field l 4 4, field l 8 8, field l 0x10 8, field l 0x18 1⟩] })
    FN_PORT_STATUS_OWN_ENTRIES (exec_setOwnership s n b) h ?_ (fun _ => rfl) (by decide) (by decide) (by decide) (by decide)
  unfold cmdSetOwnership
  rw [hcount]
  refine cmd_buf h hbuf ?_
  have hone : (List.range 1).map (fun i => (l.drop (32 * i)).take 32) = [l] := by
    rw [List.range_one, List.map_singleton, Nat.mul_zero, List.drop_zero, List.take_of_length_le hbuf.2.1.le]
  simp only [hone, List.all_cons, List.all_nil, hlo, hhi, ha, hb, hzero, decide_true, Bool.and_self, if_true, List.map_cons, List.map_nil]

/-! #### ROUTE_STAGE (R218) -/

theorem stages_busy (h : Passes s n 0x09 e rest) (hbusy : (fnSt s n).routeStaged ≠ none ∨ (fnSt s n).routeShadow ≠ none) :
    Does (.routeStage n b) s (fun u => Answered s u n e 5 0 [] { fnSt s n with queue := rest }) := by
  refine answers_only (exec_routeStage s n b) h ?_
  have hsome : ((fnSt (taken s n rest) n).routeStaged.isSome || (fnSt (taken s n rest) n).routeShadow.isSome) = true := by
    rw [fnSt_taken, Bool.or_eq_true, Option.isSome_iff_ne_none, Option.isSome_iff_ne_none]
    exact hbusy
  unfold cmdRouteStage
  simp only [hsome, if_true]

theorem stagedRoutesOk_taken (s : State) (n : Nat) (rest : List (List Byte)) (g : RouteGen) :
    stagedRoutesOk (taken s n rest) n g = stagedRoutesOk s n g := by
  unfold stagedRoutesOk
  rw [fnSt_taken]
  rfl

theorem stages_route (h : Passes s n 0x09 e rest) (hstaged : (fnSt s n).routeStaged = none) (hshadow : (fnSt s n).routeShadow = none)
    (hbuf : Buf b l (4 * field e 0x10 8)) (hwords : routeWordsOk (routeWords l) = true)
    (hroutes : stagedRoutesOk s n ⟨(fnSt s n).route.number + 1, routeWords l⟩ = true) : Does (.routeStage n b) s (fun u =>
      Answered s u n e 0 0 [] { fnSt s n with
        queue := rest, routeStaged := some (⟨(fnSt s n).route.number + 1, routeWords l⟩, field e 0x18 4) } ∧
      fnF u n FN_ROUTE_STATUS_STAGED = 1) := by
  refine answers_field (v := 1) (fun x => { x with routeStaged := some (⟨(fnSt s n).route.number + 1, routeWords l⟩, field e 0x18 4) })
    FN_ROUTE_STATUS_STAGED (exec_routeStage s n b) h ?_ (fun _ => rfl) (by decide) (by decide) (by decide) (by decide)
  have hroutes' : stagedRoutesOk (taken s n rest) n ⟨(fnSt s n).route.number + 1, routeWords l⟩ = true := (stagedRoutesOk_taken ..).trans hroutes
  unfold cmdRouteStage
  rw [fnSt_taken]
  simp only [hstaged, hshadow, Option.isSome_none, Bool.or_self, Bool.false_eq_true, if_false]
  refine cmd_buf h hbuf ?_
  simp only [hwords, hroutes', Bool.and_self, if_true]

/-! #### CONTRACT (R287) -/

theorem contracts_none (h : Passes s n 0x14 e rest) (hcount : field e 0x10 8 = 0) :
    Does (.contract n b) s (fun u => Answered s u n e 0 0 [] { fnSt s n with queue := rest }) := by
  refine answers_record (fun x => { x with contractNext := (fnSt s n).contractNext }) (exec_contract s n b) h ?_ (fun _ => rfl)
  unfold cmdContract
  rw [hcount, fnSt_taken]
  rfl

/-! ### Contexts and reports (R372, R373, R435) -/

/-- The record of a context does not hold the queue. -/
theorem contextRecord_taken (s : State) (n : Nat) (rest : List (List Byte)) : contextRecord (fnSt (taken s n rest) n) = contextRecord (fnSt s n) := by
  rw [fnSt_taken]
  rfl

theorem length_sourceRecord (seed step : Nat) : (sourceRecord seed step).length = 32 := by
  simp [sourceRecord]

theorem length_contextRecord (x : FnSt) : (contextRecord x).length = 64 := by
  simp [contextRecord, length_sourceRecord]

theorem saves_context (h : Passes s n 0x0A e rest) : Does (.saveContext n) s (fun u =>
    Answered s u n e 0 0 [⟨n, field e 8 8, contextRecord { fnSt s n with queue := rest }⟩] { fnSt s n with queue := rest }) := by
  refine answers_buffer (exec_saveContext s n) h ?_ (fun hnil => ?_)
  · rw [cmdSaveContext, fnSt_taken]
  · have hlen := length_contextRecord { fnSt s n with queue := rest }
    rw [hnil] at hlen
    cases hlen

/-- A context's seed and step are the first fields of its record. -/
theorem contextRecord_source (x : FnSt) (hseed : ∀ m, x.manifest = some m → m.jobSeed < 2 ^ 64) (hstep : x.step < 2 ^ 64) :
    sourceRecord (field (contextRecord x) 0 8) (field (contextRecord x) 8 8) ++ (contextRecord x).drop 32 = contextRecord x := by
  obtain ⟨seed, tail, hrecord, hlt⟩ : ∃ seed tail, contextRecord x = sourceRecord seed x.step ++ tail ∧ seed < 2 ^ 64 := by
    cases hm : x.manifest with
    | none => exact ⟨0, _, by simp only [contextRecord, hm, List.append_assoc]; rfl, by decide⟩
    | some m => exact ⟨m.jobSeed, _, by simp only [contextRecord, hm, List.append_assoc]; rfl, hseed m hm⟩
  have hseedField : field (contextRecord x) 0 8 = seed := by
    rw [hrecord, field_append_left (by rw [length_sourceRecord]; decide)]
    simp only [sourceRecord, List.append_assoc]
    rw [field_append_left (by simp), field_leBytes]
    exact Nat.mod_eq_of_lt hlt
  have hstepField : field (contextRecord x) 8 8 = x.step := by
    rw [hrecord, field_append_left (by rw [length_sourceRecord]; decide)]
    simp only [sourceRecord, List.append_assoc]
    rw [field_append_right (by simp), length_leBytes, field_append_left (by simp), field_leBytes]
    exact Nat.mod_eq_of_lt hstep
  rw [hseedField, hstepField]
  conv_lhs => rw [hrecord]
  rw [List.drop_left' (length_sourceRecord ..), hrecord]

theorem restores_context (h : Passes s n 0x0B e rest) (hseed : ∀ m, (fnSt s n).manifest = some m → m.jobSeed < 2 ^ 64)
    (hstep : (fnSt s n).step < 2 ^ 64) : Does (.restoreContext n (some (contextRecord (fnSt s n)))) s (fun u =>
      Answered s u n e 0 0 [] { fnSt s n with queue := rest }) := by
  refine answers_only (exec_restoreContext s n _) h (cmd_buf h ⟨rfl, length_contextRecord _, by decide⟩ ?_)
  have hsource := contextRecord_source (fnSt s n) hseed hstep
  simp only [contextRecord_taken, hsource, ite_self]
  rw [List.find?_eq_none.mpr (by simp)]

theorem reports_twin {r : List Byte} (h : Passes s n 0x28 e rest) (hreport : s.twin.report = some r) (hne : r ≠ []) :
    Does (.twinReport n) s (fun u => Answered s u n e 0 0 [⟨n, field e 8 8, r⟩] { fnSt s n with queue := rest }) := by
  refine answers_buffer (exec_twinReport s n) h ?_ hne
  have hsame : (taken s n rest).twin.report = some r := hreport
  rw [cmdTwinReport, hsame]

theorem lists_floor {q : Nat} {parts : List (List Byte)} (h : Passes s n 0x1A e rest)
    (hscan : scanBand s s.floor.sysBand (fun p => !bit (bandAt s s.floor.sysBand).bad (blockBit p)) = (some parts, q)) (hne : parts ≠ []) :
    Does (.floorList n) s (fun u => Answered s u n e 0 (field (parts.headD []) 8 8)
      [⟨n, field e 8 8, (parts.map (fit 65536)).flatten⟩] { fnSt s n with queue := rest }) := by
  refine answers_buffer (exec_floorList s n) h ?_ (fun hnil => ?_)
  · have hsame : scanBand (taken s n rest) (taken s n rest).floor.sysBand
        (fun p => !bit (bandAt (taken s n rest) (taken s n rest).floor.sysBand).bad (blockBit p)) = (some parts, q) := hscan
    unfold cmdFloorList
    simp only [hsame]
  · obtain ⟨part, more, rfl⟩ := List.exists_cons_of_ne_nil hne
    have hlen : ((part :: more).map (fit 65536)).flatten.length = 0 := by rw [hnil]; rfl
    rw [List.map_cons, List.flatten_cons, List.length_append, length_fit] at hlen
    omega

end

/-! ### CLEAR_REMAP (R342) -/

/-- The words of a channel's remap entries lie in a slice's page, before those of the functions. -/
theorem remapAt_lt {ch i : Nat} (hch : ch < 64) (hi : i < 16) : 0x10000 ≤ remapAt ch i ∧ remapAt ch i < pgFn 0 := by
  unfold remapAt pgSlice pgFn
  omega

theorem remapAt_inj {ch i j : Nat} (h : remapAt ch i = remapAt ch j) : i = j := by
  unfold remapAt at h
  omega

/-- Words cleared one after the other. -/
def clearWords (s : State) (l : List Nat) : State := l.foldl (fun s a => setWord s a 0) s

theorem wordAt_clearWords (l : List Nat) : ∀ (s : State) (a : Nat), wordAt (clearWords s l) a = if a ∈ l then 0 else wordAt s a := by
  induction l with
  | nil => exact fun s a => by rw [if_neg List.not_mem_nil]; rfl
  | cons b l ih =>
    intro s a
    rw [clearWords, List.foldl_cons, ← clearWords, ih]
    by_cases hl : a ∈ l
    · rw [if_pos hl, if_pos (List.mem_cons_of_mem _ hl)]
    · rw [if_neg hl]
      by_cases hab : a = b
      · rw [hab, wordAt_setWord_same, if_pos (List.mem_cons_self ..)]
      · rw [wordAt_setWord_other s 0 hab, if_neg (by simp [hab, hl])]

theorem edits_clearWords {s : State} {n : Nat} {wrote : List HostWrite} {x : FnSt} (m : List Nat) : ∀ {t : State} {l : List Nat},
    Edits s t n wrote x l → Edits s (clearWords t m) n wrote x (m.reverse ++ l) := by
  induction m with
  | nil => exact fun h => h
  | cons a m ih =>
    intro t l h
    have hrest := ih (edits_setWord h a 0)
    rwa [List.reverse_cons, List.append_assoc]

theorem bit_eq_testBit (v i : Nat) : bit v i = v.testBit i := by
  rw [bit, Nat.testBit_eq_decide_div_mod_eq]

theorem clearRemap_eq (s : State) (ch mask : Nat) :
    let hit := (List.range 16).filter (fun i => mask.testBit i && (wordAt s (remapAt ch i)).getLsbD 31)
    clearRemap s ch mask = (clearWords s (hit.map (remapAt ch)), hit.length) := by
  simp only [clearRemap, clearWords, List.foldl_map, bit_eq_testBit]
  rfl

section
variable {s : State} {n : Fin 64} {e : List Byte} {rest : List (List Byte)}

theorem argBad_of_passes {op : Nat} (h : Passes s n op e rest) : argBad s n e = none := by
  by_contra hbad
  obtain ⟨o, ho⟩ := Option.ne_none_iff_exists'.mp hbad
  have hpasses := h.2
  rw [cmdRejected, ho] at hpasses
  cases hres : reservedByte e <;> simp [hres] at hpasses <;> split at hpasses <;> cases hpasses

/-- CLEAR_REMAP's arguments name a slice and a channel of it. -/
theorem remapChannel_lt (h : Passes s n 0x20 e rest) : 4 * field e 8 1 + field e 9 1 < 64 := by
  have hok := argBad_of_passes h
  unfold argBad at hok
  simp [h.1.opcode, takesAddr] at hok
  split at hok
  · cases hok
  · split at hok
    · cases hok
    · omega

theorem clears_remap (h : Passes s n 0x20 e rest) :
    let at_ := remapAt (4 * field e 8 1 + field e 9 1)
    let hit := fun i => (field e 0xA 2).testBit i && (wordAt s (at_ i)).getLsbD 31
    Does (.clearRemap n) s (fun u =>
      Answered s u n e 0 ((List.range 16).filter hit).length [] { fnSt s n with queue := rest } ∧
      ∀ i, i < 16 → wordAt u (at_ i) = (if hit i then 0 else wordAt s (at_ i))) := by
  intro at_ hit
  have hch := remapChannel_lt h
  have hcmd : cmdClearRemap (taken s n rest) e =
      (clearWords (taken s n rest) (((List.range 16).filter hit).map at_), 0, ((List.range 16).filter hit).length) := by
    have heq := clearRemap_eq (taken s n rest) (4 * field e 8 1 + field e 9 1) (field e 0xA 2)
    unfold cmdClearRemap
    rw [heq]
    rfl
  have hplace : ∀ a ∈ ((List.range 16).filter hit).map at_, 0x10000 ≤ a ∧ a < pgFn 0 := by
    intro a ha
    obtain ⟨i, hi, rfl⟩ := List.mem_map.mp ha
    exact remapAt_lt hch (List.mem_range.mp (List.mem_filter.mp hi).1)
  have hedits := edits_clearWords (((List.range 16).filter hit).map at_) (edits_refl (taken s n rest) n)
  rw [fnSt_taken] at hedits
  refine does_mono (answers (exec_clearRemap s n) h hcmd hedits rfl (fun a ha => ?_)) (fun u hu => ⟨hu.1, fun i hi => ?_⟩)
  · rw [List.append_nil, List.mem_reverse] at ha
    have hin := hplace a ha
    simp only [boxWords, List.mem_cons, List.not_mem_nil, or_false, not_or, pgFn, pgNvm] at hin ⊢
    omega
  · have hin : 0x10000 ≤ at_ i ∧ at_ i < pgFn 0 := remapAt_lt hch hi
    have hmem : at_ i ∈ ((List.range 16).filter hit).map at_ ↔ hit i = true := by
      rw [List.mem_map]
      refine ⟨fun hj => ?_, fun hhit => ⟨i, List.mem_filter.mpr ⟨List.mem_range.mpr hi, hhit⟩, rfl⟩⟩
      obtain ⟨j, hj, heq⟩ := hj
      exact remapAt_inj heq ▸ (List.mem_filter.mp hj).2
    have hnot : at_ i ∉ completionWords n := by
      simp only [completionWords, List.mem_cons, List.not_mem_nil, or_false, not_or, pgFn] at hin ⊢
      omega
    rw [hu.2 _ hnot, wordAt_clearWords]
    simp only [hmem]
    rfl

end

/-- Settles O44: each command passes its tests, does its work on the state with the entry taken off the queue, and completes behind that. -/
theorem tableCommands : Obligations.TableCommands := by
  unfold Obligations.TableCommands
  intro s n e rest b l
  refine ⟨faults, loads_manifest, loads_programs, loads_wheel, sets_no_ownership, sets_one_owner, loads_route, fun h => ⟨stages_busy h, ?_⟩,
    contracts_none, saves_context, restores_context, fun r => reports_twin, fun q parts => lists_floor, clears_remap⟩
  exact fun hstaged hshadow hbuf hwords hroutes => stages_route h hstaged hshadow hbuf hwords hroutes

end Sys2Proof.Proofs

/-!
# Monitors and audits (R34, R75, R178, R192, R282, R338, R349, R350, R376)

`Reports` says what error bits, event and deviation records, log entries, messages and completions leave alone, so that what a monitor shows is
read where the model's function sets it. The monitors follow in the order of the statement; each is the equation of its function.
-/

namespace Sys2Proof.Proofs

open Sys2Proof Sys2Proof.Machine Sys2Proof.Claims Sys2Proof.Laws

/-! ### What reports leave alone

Error bits, event records, deviation records, log entries, messages and completions change registers of the functions' pages and the error
words of the others, what the die keeps for a function, and what goes out; never the monitors, the audits, the memories or the time. -/

/-- The die without what reports change. -/
def still (s : State) : State := { s with
  regs := [], msi := [], msiLast := [], msiPend := [], fns := [], posted := [], egress := [], msgs := [], nvm := {}, cores := [], agenda := [] }

/-- The words that reports may change: the functions' pages, the pages' error summary and interrupts, and the log's status. -/
def reportWord (a : Nat) : Prop := 0x20000 ≤ a ∨ a % 4096 = 0x014 ∨ a % 4096 = 0x018 ∨ a = pgNvm + NVM_LOG_STATUS_NEXT.off

/-- From `s` to `t` the die has only reported. -/
structure Reports (s t : State) : Prop where
  still : still t = still s
  words : ∀ a, ¬reportWord a → wordAt t a = wordAt s a

theorem reports_refl (s : State) : Reports s s := ⟨rfl, fun _ _ => rfl⟩

theorem reports_trans {s t u : State} (h : Reports s t) (h' : Reports t u) : Reports s u :=
  ⟨h'.still.trans h.still, fun a ha => (h'.words a ha).trans (h.words a ha)⟩

theorem reports_ite {s t u : State} (c : Prop) [Decidable c] (ht : Reports s t) (hu : Reports s u) : Reports s (if c then t else u) := by
  split
  · exact ht
  · exact hu

theorem reports_foldl {α : Type} {f : State → α → State} (hf : ∀ s x, Reports s (f s x)) (l : List α) : ∀ s, Reports s (l.foldl f s) := by
  induction l with
  | nil => exact reports_refl
  | cons x l ih => exact fun s => reports_trans (hf s x) (ih (f s x))

theorem reports_of_touches {s t : State} {l : List Nat} (h : Touches s t l) (hl : ∀ a ∈ l, reportWord a) : Reports s t := by
  refine ⟨?_, fun a ha => h.2 a (fun hin => ha (hl a hin))⟩
  rw [h.1]
  rfl

theorem reports_of_posts {s t : State} {l : List Nat} (h : Posts s t l) (hl : ∀ a ∈ l, reportWord a) : Reports s t := by
  refine ⟨?_, fun a ha => h.words a (fun hin => ha (hl a hin))⟩
  rw [h.frame]
  rfl

theorem reportWord_fn (n off : Nat) : reportWord (pgFn n + off) := by
  left
  unfold pgFn
  omega

theorem getF_of_reports {s t : State} (h : Reports s t) {pg : Nat} {f : Fld} (hf : ¬reportWord (pg + f.off)) : getF t pg f = getF s pg f := by
  unfold getF
  rw [h.words _ hf]

theorem switching_of_reports {s t : State} (h : Reports s t) : switching t = switching s := by
  have hstage : ¬reportWord (pgNvm + NVM_FW_STATUS_STAGE.off) := by unfold reportWord; decide
  unfold switching
  rw [getF_of_reports h hstage]

theorem reports_setF_fn (s : State) (n : Nat) (f : Fld) (v : Nat) : Reports s (setF s (pgFn n) f v) :=
  reports_of_touches (touches_setF ..) (by simp [reportWord_fn])

theorem reports_modFn (s : State) (n : Nat) (f : FnSt → FnSt) : Reports s (modFn s n f) := ⟨rfl, fun _ _ => rfl⟩

theorem reports_raiseFn (s : State) (n : Nat) (f : Fld) : Reports s (raiseFn s n f) :=
  reports_of_touches (touches_raiseFn ..) (by simp [reportWord_fn])

theorem reports_postEvent {s : State} (h : switching s = false) (n code : Nat) (payload : List Byte) : Reports s (postEvent s n code payload) :=
  reports_of_posts (posts_postEvent h n code payload) (by simp [eventWords, reportWord_fn])

theorem reports_errBit (s : State) {f : Fld} {pg : Nat} (hf : f.off = 0x014) (hpg : pg % 4096 = 0) : Reports s (errBit s f pg) := by
  refine reports_of_touches (touches_errBit ..) (fun a ha => ?_)
  simp only [List.mem_cons, List.not_mem_nil, or_false, hf, HDR_INT_STATUS_ERROR] at ha
  unfold reportWord
  omega

theorem pgSlice_mod (n : Nat) : pgSlice n % 4096 = 0 := by unfold pgSlice; omega
theorem pgRegion_mod (n : Nat) : pgRegion n % 4096 = 0 := by unfold pgRegion; omega

theorem reports_errSlice (s : State) {f : Fld} (sl : Nat) (hf : f.off = 0x014) : Reports s (errSlice s f sl) :=
  reports_trans (reports_trans (reports_errBit s hf (pgSlice_mod sl)) (reports_errBit _ hf (pgRegion_mod _))) (reports_errBit _ hf rfl)

theorem reports_logWrite (s : State) (code : Nat) (data : List Byte) : Reports s (logWrite s code data) := by
  have hword : ∀ a ∈ [pgNvm + NVM_LOG_STATUS_NEXT.off], reportWord a := by unfold reportWord; decide
  have hwrapped : Reports s (if (tabFind s.nvm.log (s.nvm.logSeq % logRecords)).isSome then flagF s pgNvm NVM_LOG_STATUS_WRAPPED else s) :=
    reports_ite _ (reports_of_touches (touches_setF ..) hword) (reports_refl s)
  unfold logWrite
  extract_lets q i marked nvm logged
  have hlogged : Reports s logged := reports_trans hwrapped ⟨rfl, fun _ _ => rfl⟩
  exact reports_trans hlogged (reports_of_touches (touches_setF ..) hword)

theorem reports_hostWrite (s : State) (n a : Nat) (bs : List Byte) : Reports s (hostWrite s n a bs) :=
  reports_of_posts (posts_hostWrite ..) (by simp)

/-! #### Deviation records (R374) -/

theorem reports_setFnSt (s : State) (n : Nat) (x : FnSt) : Reports s (setFnSt s n x) := ⟨rfl, fun _ _ => rfl⟩

theorem reports_addF_fn (s : State) (n : Nat) (f : Fld) (k : Nat) : Reports s (addF s (pgFn n) f k) := reports_setF_fn ..

theorem reports_devPut (s : State) (n : Nat) (r : List Byte) : Reports s (devPut s n r) :=
  reports_trans (reports_hostWrite ..) (reports_setF_fn _ n FN_DEV_HEAD_HEAD _)

theorem reports_devOverflow (s : State) (n : Nat) : Reports s (devOverflow s n) :=
  reports_ite _ (reports_trans (reports_setFnSt ..) (reports_devPut ..)) (reports_refl s)

theorem reports_slip (s : State) (n cause slice core sched detail : Nat) : Reports s (slip s n cause slice core sched detail) := by
  unfold slip deviation
  extract_lets s1 x r s2 s3 s4
  have h2 : Reports s s2 := reports_trans (reports_devOverflow s n) (reports_setFnSt ..)
  have h3 : Reports s s3 := reports_trans h2 (reports_ite _ (reports_addF_fn ..) (reports_refl _))
  have h4 : Reports s s4 := reports_trans h3 (reports_addF_fn ..)
  have hlost : Reports s4 (modFn (addF s4 (pgFn n) FN_DEV_CTRL_LOST 1) n (fun y => { y with devLost := y.devLost + 1 })) :=
    reports_trans (reports_addF_fn ..) (reports_modFn ..)
  exact reports_trans h4 (reports_ite _ (reports_ite _ (reports_modFn ..) hlost) (reports_ite _ (reports_devPut ..) hlost))

/-! ### Commands of the die itself -/

theorem ignores_onDie {c : Instr} {s : State} {f : State → State} (hexec : exec c s = onDie s f) (hup : alive s = true) (hq : Quiet s)
    (hf : f s = s) : Ignores c s := by
  unfold Ignores
  rw [hexec, onDie_alive f hup, hf, conclude_quiet hq rfl]

theorem does_onDie {c : Instr} {s t : State} {f : State → State} {P : State → Prop} (hexec : exec c s = onDie s f) (hup : alive s = true)
    (hf : f s = t) (hP : P t) : Does c s P := by
  refine ⟨t, ?_, hP⟩
  rw [hexec, onDie_alive f hup, hf]

theorem advanceTo_ticks (s : State) (t : Nat) : (advanceTo s t).ticks = max s.ticks t := by
  rw [advanceTo, advance_ticks]
  omega

theorem advanceTo_agenda (s : State) (t : Nat) : (advanceTo s t).agenda = s.agenda := rfl

theorem advanceTo_waits (s : State) (t : Nat) : (advanceTo s t).waits = s.waits := rfl

theorem todo_ticks (s : State) (t : Todo) : (todo s t).ticks = s.ticks := rfl

theorem todo_agenda (s : State) (t : Todo) : (todo s t).agenda = s.agenda ++ [t] := rfl

theorem todo_waits (s : State) (t : Todo) : (todo s t).waits = s.waits := rfl

theorem quiet_advanceTo {s : State} (h : Quiet s) (t : Nat) : Quiet (advanceTo s t) := quiet_of_same h rfl rfl rfl rfl rfl

section
variable {s : State}

/-! ### An acknowledged intent entry (R75) -/

/-- The row of a record that is put into a function's work. -/
theorem workAt_putWork (s : State) (n : Nat) {w : RowWork} {member area row : Nat} (hmember : w.member = member) (harea : w.area = area)
    (hrow : w.row = row) : workAt (fnSt (putWork s n w) n) member area row = some w := by
  subst hmember harea hrow
  rw [putWork, fnSt_modFn_same, workAt, List.find?_append]
  have hnone : (((fnSt s n).work.filter (fun v => !(decide (v.member = w.member) && decide (v.area = w.area) && decide (v.row = w.row)))).find?
      (fun v => decide (v.member = w.member) && decide (v.area = w.area) && decide (v.row = w.row))) = none := by
    rw [List.find?_eq_none]
    intro v hv
    have hkept := (List.mem_filter.mp hv).2
    rwa [Bool.not_eq_true', ← Bool.not_eq_true] at hkept
  rw [hnone]
  simp

theorem workAt_key {x : FnSt} {member area row : Nat} {v : RowWork} (h : workAt x member area row = some v) :
    v.member = member ∧ v.area = area ∧ v.row = row := by
  have hv := List.find?_some h
  simp only [Bool.and_eq_true, decide_eq_true_eq] at hv
  exact ⟨hv.1.1, hv.1.2, hv.2⟩

theorem quiet_putWork {s : State} (h : Quiet s) (n : Nat) (w : RowWork) : Quiet (putWork s n w) :=
  quiet_modFn h _ _ (fun _ => rfl) (fun _ => rfl)

/-- The cells of a byte list hold its bytes. -/
theorem memRead_cellsOf (bs : List Byte) (i : Nat) : memRead (cellsOf 0 bs) i = bs.getD i 0 := by
  have hwrite : memWriteN [] 0 bs = cellsOf 0 bs := by
    rw [memWriteN, List.filter_nil, List.filter_nil, List.nil_append, List.append_nil]
  rw [← hwrite, memRead_writeN]
  split
  · rw [Nat.sub_zero]
  · next h => rw [List.getD_eq_default _ _ (by omega)]; rfl

theorem xorBytes_getD : ∀ (as bs : List Byte) (i : Nat), as.length = bs.length → (xorBytes as bs).getD i 0 = as.getD i 0 ^^^ bs.getD i 0
  | [], [], _, _ => by simp [xorBytes]
  | a :: as, b :: bs, 0, _ => by simp [xorBytes]
  | a :: as, b :: bs, i + 1, h => by
    rw [xorBytes, List.getD_cons_succ, List.getD_cons_succ, List.getD_cons_succ]
    exact xorBytes_getD as bs i (by simpa using h)

theorem length_dataImage {slot : List Byte} (h : slot.length = 65536) : (dataImage slot).length = 65344 := by
  simp [dataImage, slotBody, h]

/-- A wait has begun. -/
def addWait (s : State) (w : Wait) : State := { s with waits := s.waits ++ [w] }

theorem quiet_addWait {s : State} (h : Quiet s) (w : Wait) : Quiet (addWait s w) := quiet_of_same h rfl rfl rfl rfl rfl

/-- The wait that an acknowledged intent entry begins, for the row's record `v`. -/
def intentWait (s : State) (n member row : Nat) (v : RowWork) : Wait :=
  mkWait (fnSt s n) ⟨n, v.slice, v.core, member, row, []⟩ .state 0 0 (fnSt s n).step false
    (xorBytes (dataImage (frameSlot s (coreIx v.slice v.core) 0)) (dataImage (frameSlot s (coreIx v.slice v.core) 0x10000)))

theorem intentAcked_reg {n member row : Nat} {v : RowWork} (hv : workAt (fnSt s n) member 0 row = some v) (hreg : v.reg = true)
    (hnew : v.registered = false) : intentAcked s n member row =
      putWork (addWait s (intentWait s n member row v)) n { v with registered := true } := by
  simp only [intentAcked, hv, hreg, hnew, intentWait, addWait]
  rfl

theorem exec_intentRegistered (s : State) (n : Fin 64) (member : Fin 16) (row : Nat) : exec (.intentRegistered n member row) s =
    onDie s (fun s => intentAcked s n member row) := rfl

theorem intents (hup : alive s = true) (hq : Quiet s) (n : Fin 64) (member : Fin 16) (row : Nat) :
    (∀ v, workAt (fnSt s n) member 0 row = some v → v.reg = true → v.registered = false → Gives (.intentRegistered n member row) s (fun t =>
      ∃ w : Wait, t = { s with waits := s.waits ++ [w], fns := t.fns } ∧ w.kind = .state ∧ w.fn = n ∧ w.member = member ∧ w.row = row ∧
        w.stamp = (fnSt s n).step ∧ w.epoch = (fnSt s n).epoch ∧ w.isNull = false ∧ w.sent = false ∧
        (∀ i, i < 65344 → memRead w.image i = (dataImage (frameSlot s (coreIx v.slice v.core) 0)).getD i 0 ^^^
          (dataImage (frameSlot s (coreIx v.slice v.core) 0x10000)).getD i 0) ∧
        workAt (fnSt t n) member 0 row = some { v with registered := true })) ∧
    ((∀ v, workAt (fnSt s n) member 0 row = some v → v.reg = false ∨ v.registered = true) → Ignores (.intentRegistered n member row) s) := by
  refine ⟨fun v hv hreg hnew => ?_, fun hno => ?_⟩
  · refine gives_onDie (exec_intentRegistered s n member row) hup (intentAcked_reg hv hreg hnew)
      (quiet_putWork (quiet_addWait hq _) ..) rfl
      ⟨intentWait s n member row v, rfl, rfl, rfl, rfl, rfl, rfl, rfl, rfl, rfl, fun i _ => ?_, ?_⟩
    · rw [intentWait, mkWait, memRead_cellsOf, xorBytes_getD]
      exact (length_dataImage (length_memReadN ..)).trans (length_dataImage (length_memReadN ..)).symm
    · obtain ⟨hmember, harea, hrow⟩ := workAt_key hv
      exact workAt_putWork _ n hmember harea hrow
  · refine ignores_onDie (exec_intentRegistered s n member row) hup hq ?_
    unfold intentAcked
    cases hv : workAt (fnSt s n) member 0 row with
    | none => simp only [hv]
    | some v => rcases hno v hv with h | h <;> simp [hv, h]

/-! ### The oldest wait of a function (R338) -/

theorem exec_receiptTimeout (s : State) (n : Fin 64) : exec (.receiptTimeout n) s = onDie s (fun s => receiptTimeout s n) := rfl

theorem foldl_min_eq (ws : List Wait) : ∀ (t : Nat) (m : Nat), (m = t ∨ ∃ w ∈ ws, w.sentAt = m) → m ≤ t → (∀ w ∈ ws, m ≤ w.sentAt) →
    ws.foldl (fun t w => min t w.sentAt) t = m := by
  induction ws with
  | nil => intro t m hm _ _; simpa using (eq_comm.mp (hm.resolve_right (by simp)))
  | cons w ws ih =>
    intro t m hm hle hall
    rw [List.foldl_cons]
    have hw := hall w (List.mem_cons_self ..)
    refine ih _ m ?_ (by omega) (fun v hv => hall v (List.mem_cons_of_mem _ hv))
    rcases hm with rfl | ⟨v, hv, rfl⟩
    · exact .inl (by omega)
    · rcases List.mem_cons.mp hv with rfl | hv
      · exact .inl (by omega)
      · exact .inr ⟨v, hv, rfl⟩

/-- A wait of the function that has been sent and is not done. -/
def openWait (n : Nat) (w : Wait) : Bool := decide (w.fn = n) && w.sent && !w.allDone

theorem openWait_iff {n : Nat} {w : Wait} : openWait n w = true ↔ w.fn = n ∧ w.sent = true ∧ w.allDone = false := by
  simp [openWait, and_assoc]

theorem receiptTimeout_none {n : Nat} (h : s.waits.filter (openWait n) = []) : receiptTimeout s n = s := by
  have hnil : s.waits.filter (fun w => decide (w.fn = n) && w.sent && !w.allDone) = [] := h
  simp only [receiptTimeout, hnil]

theorem receiptTimeout_some {n : Nat} {w : Wait} {ws : List Wait} (h : s.waits.filter (openWait n) = w :: ws) : receiptTimeout s n =
    if forceF s n FN_INTEG_CTRL_RECEIPT_LIMIT = 0 ∨ (fnSt s n).hold.isSome = true ∨ actsRunning s n = false then s
    else todo (advanceTo s (ws.foldl (fun t w => min t w.sentAt) w.sentAt + forceF s n FN_INTEG_CTRL_RECEIPT_LIMIT * 800000)) (.integrity n 5) := by
  have hcons : s.waits.filter (fun w => decide (w.fn = n) && w.sent && !w.allDone) = w :: ws := h
  simp only [receiptTimeout, hcons]

theorem receiptTimeout_idle {n : Nat} (h : (∀ w ∈ s.waits, openWait n w = false) ∨ forceF s n FN_INTEG_CTRL_RECEIPT_LIMIT = 0 ∨
    (fnSt s n).hold ≠ none ∨ actsRunning s n = false) : receiptTimeout s n = s := by
  cases hl : s.waits.filter (openWait n) with
  | nil => exact receiptTimeout_none hl
  | cons w ws =>
    have hw := List.mem_filter.mp (hl ▸ List.mem_cons_self .. : w ∈ s.waits.filter (openWait n))
    rw [receiptTimeout_some hl, if_pos]
    rw [Option.isSome_iff_ne_none]
    exact h.resolve_left (fun hall => by rw [hall w hw.1] at hw; exact absurd hw.2 (by decide))

/-- The wait that was sent first sets the time. -/
theorem receiptTimeout_due {n : Nat} {w : Wait} (hw : w ∈ s.waits) (hopen : openWait n w = true)
    (hold : ∀ v ∈ s.waits, openWait n v = true → w.sentAt ≤ v.sentAt) (hlim : forceF s n FN_INTEG_CTRL_RECEIPT_LIMIT ≠ 0)
    (hhold : (fnSt s n).hold = none) (hacts : actsRunning s n = true) :
    receiptTimeout s n = todo (advanceTo s (w.sentAt + forceF s n FN_INTEG_CTRL_RECEIPT_LIMIT * 800000)) (.integrity n 5) := by
  have hmem : w ∈ s.waits.filter (openWait n) := List.mem_filter.mpr ⟨hw, hopen⟩
  have hall : ∀ v ∈ s.waits.filter (openWait n), w.sentAt ≤ v.sentAt :=
    fun v hv => hold v (List.mem_filter.mp hv).1 (List.mem_filter.mp hv).2
  cases hl : s.waits.filter (openWait n) with
  | nil => rw [hl] at hmem; exact absurd hmem List.not_mem_nil
  | cons v vs =>
    rw [hl] at hmem hall
    have hleast : vs.foldl (fun t w => min t w.sentAt) v.sentAt = w.sentAt := by
      refine foldl_min_eq vs _ _ ?_ (hall v (List.mem_cons_self ..)) (fun y hy => hall y (List.mem_cons_of_mem _ hy))
      rcases List.mem_cons.mp hmem with rfl | hmem
      · exact .inl rfl
      · exact .inr ⟨w, hmem, rfl⟩
    rw [receiptTimeout_some hl, hleast, if_neg]
    simp [hlim, hhold, hacts]

theorem receipts (hup : alive s = true) (hq : Quiet s) (n : Fin 64) :
    let lim := forceF s n FN_INTEG_CTRL_RECEIPT_LIMIT
    let open_ := fun (w : Wait) => w.fn = n.val ∧ w.sent = true ∧ w.allDone = false
    ((∀ w ∈ s.waits, ¬open_ w) ∨ lim = 0 ∨ (fnSt s n).hold ≠ none ∨ actsRunning s n = false → Ignores (.receiptTimeout n) s) ∧
    (∀ w ∈ s.waits, open_ w → (∀ v ∈ s.waits, open_ v → w.sentAt ≤ v.sentAt) → lim ≠ 0 →
      (fnSt s n).hold = none → actsRunning s n = true →
      Does (.receiptTimeout n) s (fun u =>
        u.ticks = max s.ticks (w.sentAt + lim * 800000) ∧ u.agenda = [.integrity n 5] ∧ u.waits = s.waits)) := by
  refine ⟨fun hno => ignores_onDie (exec_receiptTimeout s n) hup hq (receiptTimeout_idle ?_), fun w hw hopen hold hlim hhold hacts => ?_⟩
  · refine hno.imp_left (fun hall w hw => ?_)
    rw [← Bool.not_eq_true, openWait_iff]
    exact hall w hw
  · refine does_onDie (exec_receiptTimeout s n) hup (receiptTimeout_due hw (openWait_iff.mpr hopen)
      (fun v hv hv' => hold v hv (openWait_iff.mp hv')) hlim hhold hacts) ⟨?_, ?_, ?_⟩
    · rw [todo_ticks, advanceTo_ticks]
    · rw [todo_agenda, advanceTo_agenda, hq.agenda, List.nil_append]
    · rw [todo_waits, advanceTo_waits]

/-! ### A moderated vector (R376), and a page's copy (R34) -/

theorem exec_msixModeration (s : State) (n : Fin 64) (vec : Fin 32) : exec (.msixModeration n vec) s = onDie s (fun s => msiModerated s n vec) := rfl

theorem moderates (hup : alive s = true) (hq : Quiet s) (n : Fin 64) (vec : Fin 32) :
    let key := n.val * 32 + vec.val
    (s.msiPend.contains key = false → Ignores (.msixModeration n vec) s) ∧
    (s.msiPend.contains key = true → Gives (.msixModeration n vec) s (fun t => t.msi = s.msi ++ [(n.val, vec.val)] ∧
      t.msiPend = s.msiPend.erase key ∧ t.ticks = max s.ticks (tabGet 0 s.msiLast key + fnF s n FN_MSIX_MAP_MOD * 800) ∧
      tabGet 0 t.msiLast key = t.ticks ∧ t.regs = s.regs)) := by
  intro key
  have heq : msiModerated s n vec = if s.msiPend.contains key then
      (let r := advanceTo s (tabGet 0 s.msiLast key + fnF s n FN_MSIX_MAP_MOD * 800)
       { r with msiPend := r.msiPend.erase key, msi := r.msi ++ [(n.val, vec.val)], msiLast := tabPut r.msiLast key (some r.ticks) }) else s := rfl
  refine ⟨fun hno => ignores_onDie (exec_msixModeration s n vec) hup hq ?_, fun hin => ?_⟩
  · rw [heq, if_neg (by rw [hno]; decide)]
  · rw [if_pos hin] at heq
    refine gives_onDie (exec_msixModeration s n vec) hup heq (quiet_of_same hq rfl rfl rfl rfl rfl) rfl ⟨rfl, rfl, advanceTo_ticks .., ?_, rfl⟩
    rw [tabGet, tabFind_put_same]
    rfl

theorem exec_migrationCopyDone (s : State) (n : Fin 64) : exec (.migrationCopyDone n) s = onDie s (fun s => migrationCopied s n) := rfl

theorem migrates (hup : alive s = true) (hq : Quiet s) (n : Fin 64) :
    (backgroundPaused s = true → Ignores (.migrationCopyDone n) s) ∧
    (backgroundPaused s = false → Gives (.migrationCopyDone n) s (fun t => t = { s with fns := t.fns } ∧
      fnSt t n = { fnSt s n with migration := (fnSt s n).migration.map (fun g => { g with copied := true }) } ∧
      ∀ k, k ≠ n.val → fnSt t k = fnSt s k)) := by
  refine ⟨fun hpaused => ignores_onDie (exec_migrationCopyDone s n) hup hq (if_pos hpaused), fun hgoes => ?_⟩
  exact gives_onDie (exec_migrationCopyDone s n) hup (if_neg (by simp [hgoes])) (quiet_modFn hq _ _ (fun _ => rfl) (fun _ => rfl)) rfl
    ⟨rfl, fnSt_modFn_same .., fun k hk => fnSt_modFn_other s _ hk⟩

end

/-! ### Audits (R349, R350) -/

theorem touches_errSlice (s : State) (f : Fld) (sl : Nat) : Touches s (errSlice s f sl)
    ([pgSlice sl + f.off, pgSlice sl + HDR_INT_STATUS_ERROR.off] ++ [pgRegion (sl / 4) + f.off, pgRegion (sl / 4) + HDR_INT_STATUS_ERROR.off] ++
      [pgGlobal + f.off, pgGlobal + HDR_INT_STATUS_ERROR.off]) :=
  touches_trans (touches_trans (touches_errBit ..) (touches_errBit ..)) (touches_errBit ..)

/-- The words of a slice's page that reports leave alone. -/
theorem not_reportWord_slice {sl off : Nat} (hsl : sl < 16) (hoff : off < 4096) (herr : off ≠ 0x014 ∧ off ≠ 0x018) : ¬reportWord (pgSlice sl + off) := by
  obtain ⟨hsum, hint⟩ := herr
  simp only [reportWord, pgSlice, pgNvm, NVM_LOG_STATUS_NEXT, not_or]
  omega

section
variable {s : State} {sl : Nat}

/-! #### The counters -/

theorem getF_auditLateCount (hsl : sl < 16) : getF (auditLateCount s sl) (pgSlice sl) SL_AUDIT_STATUS_LATE =
    min (getF s (pgSlice sl) SL_AUDIT_STATUS_LATE + 1) 0x7F :=
  (getF_of_reports (reports_errSlice _ sl rfl) (not_reportWord_slice hsl (by decide) (by decide))).trans
    (getF_addF s (pgSlice sl) _ 1 (by decide) (by decide))

theorem touches_auditLateCount (s : State) (sl : Nat) : Touches s (auditLateCount s sl) ([pgSlice sl + SL_AUDIT_STATUS_LATE.off] ++
    ([pgSlice sl + 0x014, pgSlice sl + 0x018] ++ [pgRegion (sl / 4) + 0x014, pgRegion (sl / 4) + 0x018] ++ [0x014, 0x018])) :=
  touches_trans (touches_addF ..) (touches_errSlice ..)

theorem quiet_auditLateCount (h : Quiet s) (sl : Nat) : Quiet (auditLateCount s sl) := by
  refine quiet_of_touches h (touches_auditLateCount s sl) (getF_of_touches (touches_auditLateCount s sl) ?_)
  simp [pgNvm, NVM_FW_STATUS_STAGE, pgSlice, pgRegion, SL_AUDIT_STATUS_LATE]
  omega

theorem integ_auditLateCount (s : State) (sl : Nat) : (auditLateCount s sl).integ = s.integ := by
  rw [(touches_auditLateCount s sl).1]

theorem quiet_modInteg (h : Quiet s) (f : IntegSt → IntegSt) : Quiet (modInteg s f) := quiet_of_same h rfl rfl rfl rfl rfl

theorem quiet_setF_slice (h : Quiet s) (sl : Nat) (f : Fld) (v : Nat) : Quiet (setF s (pgSlice sl) f v) := by
  refine quiet_of_touches h (touches_setF ..) (getF_setF_other s v ?_)
  simp only [pgNvm, NVM_FW_STATUS_STAGE, pgSlice]
  omega

theorem quiet_auditCounted (h : Quiet s) (sl : Nat) : Quiet (auditCounted s sl) := by
  rw [auditCounted, auditFree, addF]
  exact quiet_modInteg (quiet_setF_slice h ..) _

theorem wordAt_modInteg (s : State) (f : IntegSt → IntegSt) (a : Nat) : wordAt (modInteg s f) a = wordAt s a := rfl

theorem getF_modInteg (s : State) (f : IntegSt → IntegSt) (pg : Nat) (g : Fld) : getF (modInteg s f) pg g = getF s pg g := rfl

theorem getF_auditCounted (s : State) (sl : Nat) : getF (auditCounted s sl) (pgSlice sl) SL_AUDIT_STATUS_AUDITS =
    min (getF s (pgSlice sl) SL_AUDIT_STATUS_AUDITS + 1) 0xFF := by
  rw [auditCounted, auditFree, getF_modInteg, getF_addF _ _ _ _ (by decide) (by decide)]
  rfl

theorem audits_auditCounted (s : State) (sl : Nat) : tabFind (auditCounted s sl).integ.audits sl = none :=
  tabFind_put_same (addF s (pgSlice sl) SL_AUDIT_STATUS_AUDITS 1).integ.audits sl none

/-! #### AUDIT_SELECT -/

/-- The program of a tensor is not deterministic, so its leaves are not audited. -/
def auditNd (x : FnSt) (tensor : Nat) : Bool :=
  match x.progs with
  | some p => (((classOf p tensor).bind (classProg p)).map (fun q => q.2.nd)).getD false
  | none => false

theorem auditNd_eq_false {x : FnSt} {tensor : Nat} : auditNd x tensor = false ↔
    ∀ p q, x.progs = some p → (classOf p tensor).bind (classProg p) = some q → q.2.nd = false := by
  unfold auditNd
  cases hp : x.progs with
  | none => simp
  | some p =>
    refine ⟨fun hnd p' q hp' hq => ?_, fun hall => ?_⟩
    · cases hp'
      simpa [hq] using hnd
    · cases hq : (classOf p tensor).bind (classProg p) with
      | none => simp only [hq]; rfl
      | some q => simpa [hq] using hall p q rfl hq

/-- A run that an audit may choose. -/
def auditable (s : State) (r : CoreRun) : Prop :=
  getF s pgDrone DRONE_AUDIT_ENABLE ≠ 0 ∧ r.prelude = false ∧ (fnSt s r.fn).reran = false ∧ r.fetchUe = false ∧ r.dataUe = false ∧
    r.droppedAt = none ∧ auditNd (fnSt s r.fn) r.tensor = false

/-- What the audit of a chosen run starts from. -/
def auditOf (s : State) (c : Nat) (r : CoreRun) : Audit := ⟨r.fn, c, r.tensor, r.leafIndex, (fnSt s r.fn).step, s.ticks, none, none⟩

theorem auditSelect_idle {c : Nat} (h : (coreSt s (coreIx sl c)).run = none) : auditSelect s sl c = s := by
  simp only [auditSelect, h]

theorem auditSelect_passed {c : Nat} {r : CoreRun} (h : (coreSt s (coreIx sl c)).run = some r) (hnot : ¬auditable s r) : auditSelect s sl c = s := by
  have hcond : getF s pgDrone DRONE_AUDIT_ENABLE = 0 ∨ r.prelude = true ∨ auditNd (fnSt s r.fn) r.tensor = true ∨ (fnSt s r.fn).reran = true ∨
      r.fetchUe = true ∨ r.dataUe = true ∨ r.droppedAt.isSome = true := by
    unfold auditable at hnot
    by_contra hall
    simp only [not_or, Bool.not_eq_true, Option.isSome_eq_false_iff, Option.isNone_iff_eq_none] at hall
    obtain ⟨hon, hpre, hnd, hreran, hfetch, hdata, hdrop⟩ := hall
    exact hnot ⟨hon, hpre, hreran, hfetch, hdata, hdrop, hnd⟩
  simp only [auditSelect, h]
  exact if_pos hcond

theorem auditSelect_chosen {c : Nat} {r : CoreRun} (h : (coreSt s (coreIx sl c)).run = some r) (hplain : auditable s r) : auditSelect s sl c =
    if (tabFind s.integ.audits sl).isSome then auditLateCount s sl
    else modInteg s (fun i => { i with audits := tabPut i.audits sl (some (auditOf s c r)) }) := by
  obtain ⟨hon, hpre, hreran, hfetch, hdata, hdrop, hnd⟩ := hplain
  have hcond : ¬(getF s pgDrone DRONE_AUDIT_ENABLE = 0 ∨ r.prelude = true ∨ auditNd (fnSt s r.fn) r.tensor = true ∨ (fnSt s r.fn).reran = true ∨
      r.fetchUe = true ∨ r.dataUe = true ∨ r.droppedAt.isSome = true) := by
    simp [hon, hpre, hreran, hfetch, hdata, hdrop, hnd]
  simp only [auditSelect, h]
  exact if_neg hcond

theorem exec_auditSelect (s : State) (sl : Fin 16) (c : Fin 32) : exec (.auditSelect sl c) s = onDie s (fun s => auditSelect s sl c) := rfl

theorem selects (hup : alive s = true) (hq : Quiet s) (sl : Fin 16) (c : Fin 32) :
    ((coreSt s (coreIx sl c)).run = none → Ignores (.auditSelect sl c) s) ∧
    (∀ r, (coreSt s (coreIx sl c)).run = some r →
      (¬auditable s r → Ignores (.auditSelect sl c) s) ∧
      (auditable s r → tabFind s.integ.audits sl = none → Gives (.auditSelect sl c) s (fun t => t = { s with integ := { s.integ with
        audits := tabPut s.integ.audits sl (some ⟨r.fn, c, r.tensor, r.leafIndex, (fnSt s r.fn).step, s.ticks, none, none⟩) } })) ∧
      (auditable s r → tabFind s.integ.audits sl ≠ none → Gives (.auditSelect sl c) s (fun t => t.integ = s.integ ∧
        getF t (pgSlice sl) SL_AUDIT_STATUS_LATE = min (getF s (pgSlice sl) SL_AUDIT_STATUS_LATE + 1) 0x7F))) := by
  refine ⟨fun hrun => ignores_onDie (exec_auditSelect s sl c) hup hq (auditSelect_idle hrun), fun r hrun => ⟨fun hnot => ?_, fun hplain hfree => ?_,
    fun hplain hbusy => ?_⟩⟩
  · exact ignores_onDie (exec_auditSelect s sl c) hup hq (auditSelect_passed hrun hnot)
  · have hrun' := auditSelect_chosen hrun hplain
    rw [hfree, if_neg (by decide)] at hrun'
    exact gives_onDie (exec_auditSelect s sl c) hup hrun' (quiet_modInteg hq _) rfl rfl
  · have hrun' := auditSelect_chosen hrun hplain
    rw [if_pos (Option.isSome_iff_ne_none.mpr hbusy)] at hrun'
    refine gives_onDie (exec_auditSelect s sl c) hup hrun' (quiet_auditLateCount hq sl) ?_ ⟨integ_auditLateCount .., getF_auditLateCount sl.isLt⟩
    rw [(touches_auditLateCount s sl).1]

/-! #### AUDITOR_RUN and AUDIT_TIMEOUT -/

theorem exec_auditorRun (s : State) (sl : Fin 16) (res : AuditRes) : exec (.auditorRun sl res) s = onDie s (fun s => auditorRun s sl res) := rfl

theorem exec_refereeRun (s : State) (sl : Fin 16) (res : AuditRes) : exec (.refereeRun sl res) s = onDie s (fun s => refereeRun s sl res) := rfl

theorem exec_auditTimeout (s : State) (sl : Fin 16) : exec (.auditTimeout sl) s = onDie s (fun s => auditTimeout s sl) := rfl

theorem no_audit (hup : alive s = true) (hq : Quiet s) (sl : Fin 16) (res : AuditRes) (hfree : tabFind s.integ.audits sl = none) :
    Ignores (.auditorRun sl res) s ∧ Ignores (.refereeRun sl res) s ∧ Ignores (.auditTimeout sl) s := by
  refine ⟨ignores_onDie (exec_auditorRun s sl res) hup hq ?_, ignores_onDie (exec_refereeRun s sl res) hup hq ?_,
    ignores_onDie (exec_auditTimeout s sl) hup hq ?_⟩
  · simp only [auditorRun, hfree]
  · simp only [refereeRun, hfree]
  · simp only [auditTimeout, hfree]

theorem agrees (hup : alive s = true) (hq : Quiet s) (sl : Fin 16) (res : AuditRes) {a : Audit} {o : AuditRes}
    (ha : tabFind s.integ.audits sl = some a) (ho : a.orig = some o) (hd : auditorOf s sl a.core ≠ none) (hsecond : a.second = none) :
    (sameRes o res = true → Gives (.auditorRun sl res) s (fun t => tabFind t.integ.audits sl = none ∧
      getF t (pgSlice sl) SL_AUDIT_STATUS_AUDITS = min (getF s (pgSlice sl) SL_AUDIT_STATUS_AUDITS + 1) 0xFF ∧
      OneWord { s with integ := t.integ } t (pgSlice sl + 0x06C))) ∧
    (sameRes o res = false → Gives (.auditorRun sl res) s (fun t => t = { s with integ := { s.integ with
      audits := tabPut s.integ.audits sl (some { a with second := some res }) } })) := by
  obtain ⟨d, hd⟩ := Option.ne_none_iff_exists'.mp hd
  have hrun : auditorRun s sl res = if sameRes o res then auditCounted s sl
      else modInteg s (fun i => { i with audits := tabPut i.audits sl (some { a with second := some res }) }) := by
    simp only [auditorRun, ha, ho, hd, hsecond]
    rfl
  refine ⟨fun hsame => ?_, fun hdiffers => ?_⟩
  · rw [if_pos hsame] at hrun
    exact gives_onDie (exec_auditorRun s sl res) hup hrun (quiet_auditCounted hq sl) rfl ⟨audits_auditCounted .., getF_auditCounted ..,
      rfl, fun b hb => wordAt_setWord_other s _ hb⟩
  · rw [if_neg (by simp [hdiffers])] at hrun
    exact gives_onDie (exec_auditorRun s sl res) hup hrun (quiet_modInteg hq _) rfl rfl

end

/-! #### Bits that are set one at a time -/

theorem bit_putBit_same (v i : Nat) : bit (putBit v i true) i = true := by
  unfold putBit
  split
  · next h => exact h
  · next h =>
    rw [bit_eq_testBit] at h ⊢
    rw [if_pos rfl, Nat.add_comm, Nat.testBit_two_pow_add_eq]
    simpa using h

/-- No other bit changes. -/
theorem bit_putBit_other (v : Nat) {i j : Nat} (hne : j ≠ i) : bit (putBit v i true) j = bit v j := by
  unfold putBit
  split
  · rfl
  · next h =>
    rw [bit_eq_testBit] at h
    rw [if_pos rfl, bit_eq_testBit, bit_eq_testBit]
    rcases Nat.lt_or_gt_of_ne hne with hlt | hgt
    · rw [Nat.add_comm, Nat.testBit_two_pow_add_gt hlt]
    · obtain ⟨k, rfl⟩ : ∃ k, j = k + (i + 1) := ⟨j - (i + 1), by omega⟩
      have heven : v / 2 ^ i % 2 = 0 := by
        rw [Nat.testBit_eq_decide_div_mod_eq] at h
        simpa using h
      have hhalf : (v + 2 ^ i) / 2 ^ (i + 1) = v / 2 ^ (i + 1) := by
        rw [Nat.pow_succ, ← Nat.div_div_eq_div_mul, ← Nat.div_div_eq_div_mul, Nat.add_div_right _ (Nat.two_pow_pos i)]
        omega
      rw [Nat.testBit_add, Nat.testBit_add, hhalf]

theorem bit_mod_two_pow (v : Nat) {i n : Nat} (hi : i < n) : bit (v % 2 ^ n) i = bit v i := by
  rw [bit_eq_testBit, bit_eq_testBit, Nat.testBit_mod_two_pow, decide_eq_true hi, Bool.true_and]

/-! #### A failed core (R350) -/

section
variable {s : State} {sl : Nat}

/-- The mark of a failed core. -/
def markFailed (s : State) (i : Nat) : State :=
  setF s (pgSlice (i / 32)) SL_CORE_STATUS_FAILED (putBit (getF s (pgSlice (i / 32)) SL_CORE_STATUS_FAILED) (i % 32) true)

theorem coreFailed_markFailed (s : State) (i : Nat) : coreFailed (markFailed s i) i = true := by
  have hmod : i % 32 < 32 := Nat.mod_lt _ (by decide)
  rw [coreFailed, markFailed, getF_setF_same _ _ _ _ (by decide) (by decide)]
  exact (bit_mod_two_pow _ hmod).trans (bit_putBit_same ..)

theorem coreFailed_of_reports {t : State} (h : Reports s t) {i : Nat} (hi : i < 512) : coreFailed t i = coreFailed s i := by
  have hsl : i / 32 < 16 := by omega
  rw [coreFailed, getF_of_reports h (not_reportWord_slice hsl (by decide) (by decide)), coreFailed]

theorem switching_setF_slice (s : State) (sl : Nat) (f : Fld) (v : Nat) : switching (setF s (pgSlice sl) f v) = switching s := by
  have hother : pgNvm + NVM_FW_STATUS_STAGE.off ≠ pgSlice sl + f.off := by
    simp only [pgNvm, NVM_FW_STATUS_STAGE, pgSlice]; omega
  unfold switching
  rw [getF_setF_other s v hother]

theorem reports_setCore (s : State) (i : Nat) (c : CoreSt) : Reports s (setCore s i c) := ⟨rfl, fun _ _ => rfl⟩

theorem reports_todo (s : State) (t : Todo) : Reports s (todo s t) := ⟨rfl, fun _ _ => rfl⟩

theorem reports_escalate (s : State) {lower upper : Nat} (hlower : lower % 4096 = 0) (hupper : upper % 4096 = 0) :
    Reports s (escalate s lower upper) :=
  reports_trans (reports_errBit s rfl hlower) (reports_errBit _ rfl hupper)

theorem reports_reworkLeaf (s : State) (l : Option (Nat × Nat × Nat × Nat)) : Reports s (reworkLeaf s l) := by
  unfold reworkLeaf
  split
  · exact reports_modFn ..
  · exact reports_refl s

/-- A core that fails is marked; the rest are reports, and work for others. -/
theorem failCore_reports (hs : switching s = false) {i : Nat} (code : Nat) (hnew : coreFailed s i = false) :
    Reports (markFailed s i) (failCore s i code) := by
  unfold failCore
  rw [if_neg (by simp [hnew])]
  extract_lets sli leaf marked posted core dropped up1 up2 hit
  have herror : Reports marked (errSlice marked HDR_ERR_SUMMARY_CORE sli) := reports_errSlice _ _ rfl
  have hmarked : switching marked = false := (switching_setF_slice ..).trans hs
  have hposted : Reports marked posted :=
    reports_trans herror (reports_postEvent ((switching_of_reports herror).trans hmarked) ..)
  have hdropped : Reports marked dropped := reports_trans hposted (reports_setCore ..)
  have hup : Reports marked up2 := reports_trans (reports_trans hdropped (reports_escalate _ (pgSlice_mod _) (pgRegion_mod _)))
    (reports_escalate _ (pgRegion_mod _) rfl)
  exact reports_ite _ (reports_trans (reports_trans hup (reports_foldl (fun s n => reports_todo ..) ..)) (reports_todo ..))
    (reports_trans hdropped (reports_reworkLeaf ..))

theorem coreFailed_failCore (hs : switching s = false) {i : Nat} (code : Nat) (hi : i < 512) : coreFailed (failCore s i code) i = true := by
  cases hnew : coreFailed s i with
  | true =>
    rw [failCore, if_pos hnew]
    exact hnew
  | false => rw [coreFailed_of_reports (failCore_reports hs code hnew) hi, coreFailed_markFailed]

/-- A failing core leaves every register of a slice's page but the mark, the errors and the interrupts. -/
theorem getF_failCore (hs : switching s = false) (i code : Nat) (hsl : sl < 16) {f : Fld} (hoff : f.off < 4096)
    (herr : f.off ≠ 0x014 ∧ f.off ≠ 0x018) (hmark : f.off ≠ 0x04C) : getF (failCore s i code) (pgSlice sl) f = getF s (pgSlice sl) f := by
  cases hnew : coreFailed s i with
  | true => rw [failCore, if_pos hnew]
  | false =>
    rw [getF_of_reports (failCore_reports hs code hnew) (not_reportWord_slice hsl hoff herr), markFailed, getF_setF_other]
    simp only [pgSlice, SL_CORE_STATUS_FAILED]
    omega

theorem integ_of_reports {t : State} (h : Reports s t) : t.integ = s.integ := (congrArg State.integ h.still : _)

theorem integ_failCore (hs : switching s = false) (i code : Nat) : (failCore s i code).integ = s.integ := by
  cases hnew : coreFailed s i with
  | true => rw [failCore, if_pos hnew]
  | false => exact (integ_of_reports (failCore_reports hs code hnew)).trans rfl

end

section
variable {s : State} {sl : Nat}

/-! #### REFEREE_RUN (R350) -/

/-- The fault that the referee finds, as AUDIT_STATUS shows it. -/
def showFault (s : State) (sl core line : Nat) : State :=
  setF (setF (flagF s (pgSlice sl) SL_AUDIT_STATUS_FAULT) (pgSlice sl) SL_AUDIT_STATUS_CORE core) (pgSlice sl) SL_AUDIT_STATUS_LINE line

theorem showFault_fault (s : State) (sl core line : Nat) : getF (showFault s sl core line) (pgSlice sl) SL_AUDIT_STATUS_FAULT = 1 := by
  rw [showFault, getF_setF_disjoint _ _ _ (by decide) (by decide) (by decide) (by decide),
    getF_setF_disjoint _ _ _ (by decide) (by decide) (by decide) (by decide), flagF, getF_setF_same _ _ _ _ (by decide) (by decide)]
  rfl

theorem showFault_core (s : State) (sl core line : Nat) : getF (showFault s sl core line) (pgSlice sl) SL_AUDIT_STATUS_CORE = core % 32 := by
  rw [showFault, getF_setF_disjoint _ _ _ (by decide) (by decide) (by decide) (by decide), getF_setF_same _ _ _ _ (by decide) (by decide)]
  rfl

theorem showFault_line (s : State) (sl core line : Nat) : getF (showFault s sl core line) (pgSlice sl) SL_AUDIT_STATUS_LINE = line % 1024 := by
  rw [showFault, getF_setF_same _ _ _ _ (by decide) (by decide)]
  rfl

theorem showFault_audits (s : State) (sl core line : Nat) : getF (showFault s sl core line) (pgSlice sl) SL_AUDIT_STATUS_AUDITS =
    getF s (pgSlice sl) SL_AUDIT_STATUS_AUDITS := by
  rw [showFault, getF_setF_disjoint _ _ _ (by decide) (by decide) (by decide) (by decide),
    getF_setF_disjoint _ _ _ (by decide) (by decide) (by decide) (by decide), flagF, getF_setF_disjoint _ _ _ (by decide) (by decide) (by decide) (by decide)]

theorem switching_showFault (s : State) (sl core line : Nat) : switching (showFault s sl core line) = switching s :=
  (switching_setF_slice ..).trans ((switching_setF_slice ..).trans (switching_setF_slice ..))

theorem integ_showFault (s : State) (sl core line : Nat) : (showFault s sl core line).integ = s.integ := by
  rw [showFault, setF_integ, setF_integ, flagF, setF_integ]

/-- A fault is shown and reported, and then the core fails. -/
theorem auditFault_eq (hs : switching s = false) (a : Audit) (line : Nat) : ∃ t, Reports (showFault s sl a.core line) t ∧
    auditFault s sl a line = failCore t (coreIx sl a.core) 0 := by
  unfold auditFault
  extract_lets shown reported p
  have hshown : switching shown = false := (switching_showFault ..).trans hs
  have hreported : Reports shown reported := reports_trans (reports_setF_fn ..) (reports_errSlice _ _ rfl)
  have hfirst : Reports shown (postEvent reported a.fn 0x0071 p) :=
    reports_trans hreported (reports_postEvent ((switching_of_reports hreported).trans hshown) ..)
  have hsecond : Reports shown (postEvent (postEvent reported a.fn 0x0071 p) 0 0x0071 p) :=
    reports_trans hfirst (reports_postEvent ((switching_of_reports hfirst).trans hshown) ..)
  exact ⟨_, reports_trans hsecond (reports_logWrite ..), rfl⟩

/-- What an audit without a decision shows. -/
theorem unresolved_eq (hs : switching s = false) (payload : List Byte) :
    Reports (flagF s (pgSlice sl) SL_AUDIT_STATUS_UNRESOLVED)
      (postEvent (errSlice (flagF s (pgSlice sl) SL_AUDIT_STATUS_UNRESOLVED) HDR_ERR_SUMMARY_AUDIT sl) 0 0x0072 payload) := by
  have herror := reports_errSlice (flagF s (pgSlice sl) SL_AUDIT_STATUS_UNRESOLVED) sl (f := HDR_ERR_SUMMARY_AUDIT) rfl
  exact reports_trans herror (reports_postEvent ((switching_of_reports herror).trans ((switching_setF_slice ..).trans hs)) ..)

theorem coreFailed_flagF_audit (s : State) (sl i : Nat) : coreFailed (flagF s (pgSlice sl) SL_AUDIT_STATUS_UNRESOLVED) i = coreFailed s i := by
  have hother : pgSlice (i / 32) + SL_CORE_STATUS_FAILED.off ≠ pgSlice sl + SL_AUDIT_STATUS_UNRESOLVED.off := by
    simp only [pgSlice, SL_CORE_STATUS_FAILED, SL_AUDIT_STATUS_UNRESOLVED]
    omega
  rw [coreFailed, flagF, getF_setF_other s 1 hother, coreFailed]

theorem coreFailed_auditCounted (s : State) (sl i : Nat) : coreFailed (auditCounted s sl) i = coreFailed s i := by
  have hother : pgSlice (i / 32) + SL_CORE_STATUS_FAILED.off ≠ pgSlice sl + SL_AUDIT_STATUS_AUDITS.off := by
    simp only [pgSlice, SL_CORE_STATUS_FAILED, SL_AUDIT_STATUS_AUDITS]
    omega
  rw [coreFailed, auditCounted, auditFree, getF_modInteg, addF, getF_setF_other s _ hother, coreFailed]

theorem switching_auditCounted (s : State) (sl : Nat) : switching (auditCounted s sl) = switching s := switching_setF_slice s sl SL_AUDIT_STATUS_AUDITS _

theorem auditCore_lt {c k d : Nat} {out : List Nat} (h : auditCore s sl c k out = some d) : d < 32 := by
  obtain ⟨i, -, rfl⟩ := List.mem_map.mp (List.mem_of_find?_eq_some h)
  exact Nat.mod_lt _ (by decide)

/-- What the referee decides, when there is one. -/
theorem refereeRun_eq {res o b : AuditRes} {a : Audit} {d : Nat} (ha : tabFind s.integ.audits sl = some a) (ho : a.orig = some o)
    (hb : a.second = some b) (hd : auditorOf s sl a.core = some d) (hfree : auditCore s sl a.core 16 [a.core, a.core ^^^ 1, d] ≠ none) :
    refereeRun s sl res = if sameRes res o then failCore (auditCounted s sl) (coreIx sl d) 0
      else if sameRes res b then auditFault (auditCounted s sl) sl a b.line
      else postEvent (errSlice (flagF (auditCounted s sl) (pgSlice sl) SL_AUDIT_STATUS_UNRESOLVED) HDR_ERR_SUMMARY_AUDIT sl) 0 0x0072
        (leBytes 1 sl ++ leBytes 1 a.core) := by
  have hfound : (auditCore s sl a.core 16 [a.core, a.core ^^^ 1, d]).isNone = false := by
    rw [Option.isNone_eq_false_iff, Option.isSome_iff_ne_none]
    exact hfree
  simp only [refereeRun, ha, ho, hb, hd, hfound, Bool.false_eq_true, if_false]

/-- The auditor's core fails. -/
theorem auditor_fails (hs : switching s = false) {i : Nat} (hsl : sl < 16) (hi : i < 512) :
    tabFind (failCore (auditCounted s sl) i 0).integ.audits sl = none ∧
    getF (failCore (auditCounted s sl) i 0) (pgSlice sl) SL_AUDIT_STATUS_AUDITS = min (getF s (pgSlice sl) SL_AUDIT_STATUS_AUDITS + 1) 0xFF ∧
    coreFailed (failCore (auditCounted s sl) i 0) i = true := by
  have hcounted : switching (auditCounted s sl) = false := (switching_auditCounted ..).trans hs
  refine ⟨?_, ?_, coreFailed_failCore hcounted 0 hi⟩
  · rw [integ_failCore hcounted, audits_auditCounted]
  · rw [getF_failCore hcounted _ _ hsl (by decide) (by decide) (by decide), getF_auditCounted]

/-- The audited core fails, and the fault is shown. -/
theorem audited_fails (hs : switching s = false) (hsl : sl < 16) (a : Audit) (line : Nat) (hcore : a.core < 32) :
    let u := auditFault (auditCounted s sl) sl a line
    tabFind u.integ.audits sl = none ∧
    getF u (pgSlice sl) SL_AUDIT_STATUS_AUDITS = min (getF s (pgSlice sl) SL_AUDIT_STATUS_AUDITS + 1) 0xFF ∧
    coreFailed u (coreIx sl a.core) = true ∧ getF u (pgSlice sl) SL_AUDIT_STATUS_FAULT = 1 ∧
    getF u (pgSlice sl) SL_AUDIT_STATUS_CORE = a.core ∧ getF u (pgSlice sl) SL_AUDIT_STATUS_LINE = line % 1024 := by
  have hcounted : switching (auditCounted s sl) = false := (switching_auditCounted ..).trans hs
  obtain ⟨t, hreports, heq⟩ := auditFault_eq (sl := sl) hcounted a line
  have ht : switching t = false := (switching_of_reports hreports).trans ((switching_showFault ..).trans hcounted)
  have hget {f : Fld} (hoff : f.off = 0x06C) : getF (failCore t (coreIx sl a.core) 0) (pgSlice sl) f =
      getF (showFault (auditCounted s sl) sl a.core line) (pgSlice sl) f := by
    rw [getF_failCore ht _ _ hsl (by omega) (by omega) (by omega),
      getF_of_reports hreports (not_reportWord_slice hsl (by omega) (by omega))]
  have hindex : coreIx sl a.core < 512 := by unfold coreIx; omega
  dsimp only
  rw [heq]
  refine ⟨?_, ?_, coreFailed_failCore ht 0 hindex, ?_, ?_, ?_⟩
  · rw [integ_failCore ht, integ_of_reports hreports, integ_showFault, audits_auditCounted]
  · rw [hget rfl, showFault_audits, getF_auditCounted]
  · rw [hget rfl, showFault_fault]
  · rw [hget rfl, showFault_core, Nat.mod_eq_of_lt hcore]
  · rw [hget rfl, showFault_line]

/-- The referee agrees with neither. -/
theorem audit_unresolved (hs : switching s = false) (hsl : sl < 16) (payload : List Byte) :
    let u := postEvent (errSlice (flagF (auditCounted s sl) (pgSlice sl) SL_AUDIT_STATUS_UNRESOLVED) HDR_ERR_SUMMARY_AUDIT sl) 0 0x0072 payload
    tabFind u.integ.audits sl = none ∧
    getF u (pgSlice sl) SL_AUDIT_STATUS_AUDITS = min (getF s (pgSlice sl) SL_AUDIT_STATUS_AUDITS + 1) 0xFF ∧
    getF u (pgSlice sl) SL_AUDIT_STATUS_UNRESOLVED = 1 ∧ ∀ i, i < 512 → coreFailed u i = coreFailed s i := by
  have hreports := unresolved_eq (sl := sl) ((switching_auditCounted s sl).trans hs) payload
  refine ⟨?_, ?_, ?_, fun i hi => ?_⟩
  · rw [integ_of_reports hreports, flagF, setF_integ, audits_auditCounted]
  · rw [getF_of_reports hreports (not_reportWord_slice hsl (by decide) (by decide)), flagF,
      getF_setF_disjoint _ _ _ (by decide) (by decide) (by decide) (by decide), getF_auditCounted]
  · rw [getF_of_reports hreports (not_reportWord_slice hsl (by decide) (by decide)), flagF,
      getF_setF_same _ _ _ _ (by decide) (by decide)]
    rfl
  · rw [coreFailed_of_reports hreports hi, coreFailed_flagF_audit, coreFailed_auditCounted]

theorem referees (hup : alive s = true) (hq : Quiet s) (sl : Fin 16) (res : AuditRes) {a : Audit} {o b : AuditRes} {d : Nat}
    (ha : tabFind s.integ.audits sl = some a) (ho : a.orig = some o) (hb : a.second = some b) (hd : auditorOf s sl a.core = some d)
    (hfree : auditCore s sl a.core 16 [a.core, a.core ^^^ 1, d] ≠ none) (hcore : a.core < 32) :
    Does (.refereeRun sl res) s (fun u => tabFind u.integ.audits sl = none ∧
      getF u (pgSlice sl) SL_AUDIT_STATUS_AUDITS = min (getF s (pgSlice sl) SL_AUDIT_STATUS_AUDITS + 1) 0xFF ∧
      (sameRes res o = true → coreFailed u (coreIx sl d) = true) ∧
      (sameRes res o = false → sameRes res b = true → coreFailed u (coreIx sl a.core) = true ∧
        getF u (pgSlice sl) SL_AUDIT_STATUS_FAULT = 1 ∧ getF u (pgSlice sl) SL_AUDIT_STATUS_CORE = a.core ∧
        getF u (pgSlice sl) SL_AUDIT_STATUS_LINE = b.line % 1024) ∧
      (sameRes res o = false → sameRes res b = false → getF u (pgSlice sl) SL_AUDIT_STATUS_UNRESOLVED = 1 ∧
        ∀ i, i < 512 → coreFailed u i = coreFailed s i)) := by
  have hrun := refereeRun_eq (res := res) ha ho hb hd hfree
  cases horig : sameRes res o with
  | true =>
    rw [if_pos horig] at hrun
    have hindex : coreIx sl d < 512 := by have := auditCore_lt hd; unfold coreIx; omega
    obtain ⟨hnone, hcount, hfailed⟩ := auditor_fails hq.switching sl.isLt hindex
    exact does_onDie (exec_refereeRun s sl res) hup hrun ⟨hnone, hcount, fun _ => hfailed,
      fun hno => (nomatch hno), fun hno => (nomatch hno)⟩
  | false =>
    rw [if_neg (by rw [horig]; decide)] at hrun
    cases hother : sameRes res b with
    | true =>
      rw [if_pos hother] at hrun
      obtain ⟨hnone, hcount, hrest⟩ := audited_fails hq.switching sl.isLt a b.line hcore
      exact does_onDie (exec_refereeRun s sl res) hup hrun ⟨hnone, hcount, fun hno => (nomatch hno), fun _ _ => hrest,
        fun _ hno => (nomatch hno)⟩
    | false =>
      rw [if_neg (by rw [hother]; decide)] at hrun
      obtain ⟨hnone, hcount, hopen⟩ := audit_unresolved hq.switching sl.isLt (leBytes 1 sl ++ leBytes 1 a.core)
      exact does_onDie (exec_refereeRun s sl res) hup hrun ⟨hnone, hcount, fun hno => (nomatch hno),
        fun _ hno => (nomatch hno), fun _ _ => hopen⟩

/-! #### AUDIT_TIMEOUT -/

theorem ticks_of_reports {t : State} (h : Reports s t) : t.ticks = s.ticks := (congrArg State.ticks h.still : _)

/-- The audit that has run out, counted and dropped at its time. -/
def outOfTime (s : State) (sl : Nat) (a : Audit) : State :=
  auditFree (auditLateCount (advanceTo s (a.since + getF s pgDrone DRONE_AUDIT_AUDIT_LIMIT * 800000)) sl) sl

/-- The slice is noted as late. -/
def noteLate (s : State) (sl : Nat) : State := modInteg s (fun i => { i with auditLate := i.auditLate ++ [sl] })

theorem auditTimeout_due {a : Audit} (ha : tabFind s.integ.audits sl = some a) (hlim : getF s pgDrone DRONE_AUDIT_AUDIT_LIMIT ≠ 0) :
    auditTimeout s sl = if (outOfTime s sl a).integ.auditLate.contains sl then outOfTime s sl a
      else postEvent (noteLate (outOfTime s sl a) sl) 0 0x0073 (leBytes 1 sl) := by
  simp only [auditTimeout, ha]
  exact if_neg hlim

theorem ticks_auditLateCount (s : State) (sl : Nat) : (auditLateCount s sl).ticks = s.ticks := by
  rw [(touches_auditLateCount s sl).1]

theorem ticks_outOfTime (s : State) (sl : Nat) (a : Audit) : (outOfTime s sl a).ticks =
    max s.ticks (a.since + getF s pgDrone DRONE_AUDIT_AUDIT_LIMIT * 800000) := by
  have hfree (t : State) : (auditFree t sl).ticks = t.ticks := rfl
  rw [outOfTime, hfree, ticks_auditLateCount, advanceTo_ticks]

theorem audits_outOfTime (s : State) (sl : Nat) (a : Audit) : tabFind (outOfTime s sl a).integ.audits sl = none := by
  have hfree (t : State) : (auditFree t sl).integ.audits = tabPut t.integ.audits sl none := rfl
  rw [outOfTime, hfree, tabFind_put_same]

theorem late_outOfTime (hsl : sl < 16) (a : Audit) : getF (outOfTime s sl a) (pgSlice sl) SL_AUDIT_STATUS_LATE =
    min (getF s (pgSlice sl) SL_AUDIT_STATUS_LATE + 1) 0x7F := by
  have hadvance (t : Nat) : getF (advanceTo s t) (pgSlice sl) SL_AUDIT_STATUS_LATE = getF s (pgSlice sl) SL_AUDIT_STATUS_LATE := rfl
  rw [outOfTime, auditFree, getF_modInteg, getF_auditLateCount hsl, hadvance]

theorem switching_outOfTime (hq : Quiet s) (a : Audit) : switching (outOfTime s sl a) = false := by
  have hfree (t : State) : switching (auditFree t sl) = switching t := rfl
  rw [outOfTime, hfree]
  exact (quiet_auditLateCount (quiet_advanceTo hq _) sl).switching

theorem timesOut (hup : alive s = true) (hq : Quiet s) (sl : Fin 16) {a : Audit} (ha : tabFind s.integ.audits sl = some a) :
    (getF s pgDrone DRONE_AUDIT_AUDIT_LIMIT = 0 → Ignores (.auditTimeout sl) s) ∧
    (getF s pgDrone DRONE_AUDIT_AUDIT_LIMIT ≠ 0 → Does (.auditTimeout sl) s (fun u => tabFind u.integ.audits sl = none ∧
      u.ticks = max s.ticks (a.since + getF s pgDrone DRONE_AUDIT_AUDIT_LIMIT * 800000) ∧
      getF u (pgSlice sl) SL_AUDIT_STATUS_LATE = min (getF s (pgSlice sl) SL_AUDIT_STATUS_LATE + 1) 0x7F ∧ sl.val ∈ u.integ.auditLate)) := by
  refine ⟨fun hlim => ignores_onDie (exec_auditTimeout s sl) hup hq ?_, fun hlim => ?_⟩
  · simp only [auditTimeout, ha]
    exact if_pos hlim
  · have hrun := auditTimeout_due ha hlim
    cases hin : (outOfTime s sl a).integ.auditLate.contains sl.val with
    | true =>
      rw [if_pos hin] at hrun
      exact does_onDie (exec_auditTimeout s sl) hup hrun ⟨audits_outOfTime .., ticks_outOfTime .., late_outOfTime sl.isLt a,
        List.contains_iff_mem.mp hin⟩
    | false =>
      rw [if_neg (by rw [hin]; decide)] at hrun
      have hswitching : switching (noteLate (outOfTime s sl a) sl) = false := switching_outOfTime hq a
      have hreports := reports_postEvent hswitching 0 0x0073 (leBytes 1 sl)
      have hticks : (noteLate (outOfTime s sl a) sl).ticks = (outOfTime s sl a).ticks := rfl
      have hlate : (noteLate (outOfTime s sl a) sl).integ.auditLate = (outOfTime s sl a).integ.auditLate ++ [sl.val] := rfl
      have haudits : (noteLate (outOfTime s sl a) sl).integ.audits = (outOfTime s sl a).integ.audits := rfl
      refine does_onDie (exec_auditTimeout s sl) hup hrun ⟨?_, ?_, ?_, ?_⟩
      · rw [integ_of_reports hreports, haudits, audits_outOfTime]
      · rw [ticks_of_reports hreports, hticks, ticks_outOfTime]
      · rw [getF_of_reports hreports (not_reportWord_slice sl.isLt (by decide) (by decide)), noteLate, getF_modInteg, late_outOfTime sl.isLt]
      · rw [integ_of_reports hreports, hlate]
        exact List.mem_append_right _ (List.mem_singleton_self _)

end

/-! ### Occupancy windows (R192) -/

/-- From `s` to `t` the die has reported, and words in `l` have changed. -/
structure ReportsBut (l : List Nat) (s t : State) : Prop where
  still : still t = still s
  words : ∀ a, ¬reportWord a → a ∉ l → wordAt t a = wordAt s a

section
variable {s t u : State} {l m : List Nat}

theorem reportsBut_of_reports (h : Reports s t) (l : List Nat) : ReportsBut l s t := ⟨h.still, fun a ha _ => h.words a ha⟩

theorem reportsBut_trans (h : ReportsBut l s t) (h' : ReportsBut l t u) : ReportsBut l s u :=
  ⟨h'.still.trans h.still, fun a ha hl => (h'.words a ha hl).trans (h.words a ha hl)⟩

theorem reportsBut_setF (s : State) {pg : Nat} {f : Fld} (v : Nat) (hl : pg + f.off ∈ l) : ReportsBut l s (setF s pg f v) := by
  have htouches := touches_setF s pg f v
  refine ⟨?_, fun a _ ha => htouches.2 a (fun hin => ha (List.mem_singleton.mp hin ▸ hl))⟩
  rw [htouches.1]
  rfl

theorem reportsBut_foldl {α : Type} {f : State → α → State} {ok : State → Prop}
    (hf : ∀ s x, ok s → ReportsBut l s (f s x) ∧ ok (f s x)) (xs : List α) :
    ∀ s, ok s → ReportsBut l s (xs.foldl f s) ∧ ok (xs.foldl f s) := by
  induction xs with
  | nil => exact fun s h => ⟨⟨rfl, fun _ _ _ => rfl⟩, h⟩
  | cons x xs ih =>
    intro s h
    obtain ⟨hstep, hok⟩ := hf s x h
    obtain ⟨hrest, hend⟩ := ih (f s x) hok
    exact ⟨reportsBut_trans hstep hrest, hend⟩

theorem getF_of_reportsBut (h : ReportsBut l s t) {pg : Nat} {f : Fld} (hf : ¬reportWord (pg + f.off)) (hl : pg + f.off ∉ l) :
    getF t pg f = getF s pg f := by
  unfold getF
  rw [h.words _ hf hl]

end

section
variable {s : State} {sl : Nat}

/-- A channel above the limit is marked hot and reported. -/
def markHot (hot sl : Nat) (f : Fld) (kind : Nat) (v : Nat → Nat) (s : State) (c : Nat) : State :=
  if hot < v c then
    postEvent (setF s (pgSlice sl) f (putBit (getF s (pgSlice sl) f) c true)) 0 0x0023
      (leBytes 1 sl ++ leBytes 1 kind ++ leBytes 1 c ++ leBytes 1 (v c))
  else s

/-- The occupancy of a slice's four channels is shown. -/
def showOccupancy (s : State) (sl : Nat) (d : Nat → Nat) : State :=
  setF (setF (setF (setF s (pgSlice sl) SL_OCCUPANCY_CH0 (d 0)) (pgSlice sl) SL_OCCUPANCY_CH1 (d 1)) (pgSlice sl) SL_OCCUPANCY_CH2 (d 2))
    (pgSlice sl) SL_OCCUPANCY_CH3 (d 3)

/-- How busy a channel was in the window. -/
def busyOf (l : List (List Nat)) (sl c : Nat) : Nat := (l.getD sl []).getD c 0 % 256

/-- What a window's end shows of a slice. -/
def occupySlice (hot : Nat) (deep near : List (List Nat)) (s : State) (sl : Nat) : State :=
  (List.range 8).foldl (markHot hot sl SL_HOT_NEAR 1 (busyOf near sl))
    ((List.range 4).foldl (markHot hot sl SL_HOT_DEEP 0 (busyOf deep sl)) (showOccupancy s sl (busyOf deep sl)))

/-- One more window is counted. -/
def countWindow (s : State) : State := { s with mon := { s.mon with windows := s.mon.windows + 1 } }

/-- The window's end, before the slices. -/
def windowEnd (s : State) : State := countWindow (advanceTo s ((s.mon.windows + 1) * 2 ^ 20))

theorem occupancyWindow_eq (s : State) (deep near : List (List Nat)) : occupancyWindow s deep near =
    (List.range 16).foldl (occupySlice (getF (windowEnd s) pgWheel WHEEL_CTRL_HOT_PCT) deep near) (windowEnd s) := rfl

/-- The words of a slice's page that a window's end shows. -/
def occupancyWords (sl : Nat) : List Nat := [pgSlice sl + 0x054, pgSlice sl + 0x058]

theorem markHot_reports {hot kind : Nat} {f : Fld} {v : Nat → Nat} (hf : f.off = 0x058) (s : State) (c : Nat) (hs : switching s = false) :
    ReportsBut (occupancyWords sl) s (markHot hot sl f kind v s c) ∧ switching (markHot hot sl f kind v s c) = false := by
  unfold markHot
  split
  · have hset : switching (setF s (pgSlice sl) f (putBit (getF s (pgSlice sl) f) c true)) = false := (switching_setF_slice ..).trans hs
    have hpost := reports_postEvent hset 0 0x0023 (leBytes 1 sl ++ leBytes 1 kind ++ leBytes 1 c ++ leBytes 1 (v c))
    exact ⟨reportsBut_trans (reportsBut_setF s _ (by simp [occupancyWords, hf])) (reportsBut_of_reports hpost _),
      (switching_of_reports hpost).trans hset⟩
  · exact ⟨⟨rfl, fun _ _ _ => rfl⟩, hs⟩

/-- Marking a channel sets its bit and no other. -/
theorem bit_markHot {hot kind : Nat} {f : Fld} {v : Nat → Nat} (hsl : sl < 16) (hf : f.off = 0x058) (hlo : f.lo ≤ f.hi) (hhi : f.hi < 32)
    {c j : Nat} (hj : j < f.hi + 1 - f.lo) (hs : switching s = false) :
    bit (getF (markHot hot sl f kind v s c) (pgSlice sl) f) j = (bit (getF s (pgSlice sl) f) j || (decide (j = c) && decide (hot < v j))) := by
  unfold markHot
  by_cases hv : hot < v c
  · have hset : switching (setF s (pgSlice sl) f (putBit (getF s (pgSlice sl) f) c true)) = false := (switching_setF_slice ..).trans hs
    have hpost := reports_postEvent hset 0 0x0023 (leBytes 1 sl ++ leBytes 1 kind ++ leBytes 1 c ++ leBytes 1 (v c))
    rw [if_pos hv, getF_of_reports hpost (not_reportWord_slice hsl (by omega) (by omega)), getF_setF_same _ _ _ _ hlo hhi, bit_mod_two_pow _ hj]
    by_cases hjc : j = c
    · subst hjc
      rw [bit_putBit_same]
      simp [hv]
    · rw [bit_putBit_other _ hjc]
      simp [hjc]
  · rw [if_neg hv]
    by_cases hjc : j = c
    · subst hjc
      simp [hv]
    · simp [hjc]

/-- Marking leaves another field of the register. -/
theorem getF_markHot_other {hot kind c : Nat} {f g : Fld} {v : Nat → Nat} (hsl : sl < 16) (hf : f.off = 0x058) (hg : g.off = 0x058)
    (hlo : f.lo ≤ f.hi) (hhi : g.hi < 32) (hdis : g.hi < f.lo ∨ f.hi < g.lo) (hs : switching s = false) :
    getF (markHot hot sl f kind v s c) (pgSlice sl) g = getF s (pgSlice sl) g := by
  unfold markHot
  split
  · have hset : switching (setF s (pgSlice sl) f (putBit (getF s (pgSlice sl) f) c true)) = false := (switching_setF_slice ..).trans hs
    rw [getF_of_reports (reports_postEvent hset ..) (not_reportWord_slice hsl (by omega) (by omega)),
      getF_setF_disjoint _ _ _ (hg.trans hf.symm) hlo hhi hdis]
  · rfl

/-- The marks of the first `k` channels. -/
theorem bit_markHots {hot kind : Nat} {f : Fld} {v : Nat → Nat} (hsl : sl < 16) (hf : f.off = 0x058) (hlo : f.lo ≤ f.hi) (hhi : f.hi < 32)
    {j : Nat} (hj : j < f.hi + 1 - f.lo) (hs : switching s = false) (k : Nat) :
    bit (getF ((List.range k).foldl (markHot hot sl f kind v) s) (pgSlice sl) f) j =
      (bit (getF s (pgSlice sl) f) j || (decide (j < k) && decide (hot < v j))) := by
  induction k with
  | zero => simp
  | succ k ih =>
    have hswitching := (reportsBut_foldl (l := occupancyWords sl) (f := markHot hot sl f kind v) (fun s x => markHot_reports hf s x)
      (List.range k) s hs).2
    rw [List.range_succ, List.foldl_append, List.foldl_cons, List.foldl_nil, bit_markHot hsl hf hlo hhi hj hswitching, ih, Bool.or_assoc,
      ← Bool.and_or_distrib_right]
    congr 2
    rw [← Bool.decide_or]
    exact decide_eq_decide.mpr (by omega)

theorem getF_markHots_other {hot kind : Nat} {f g : Fld} {v : Nat → Nat} (hsl : sl < 16) (hf : f.off = 0x058) (hg : g.off = 0x058)
    (hlo : f.lo ≤ f.hi) (hhi : g.hi < 32) (hdis : g.hi < f.lo ∨ f.hi < g.lo) (hs : switching s = false) (k : Nat) :
    getF ((List.range k).foldl (markHot hot sl f kind v) s) (pgSlice sl) g = getF s (pgSlice sl) g := by
  induction k with
  | zero => rfl
  | succ k ih =>
    have hswitching := (reportsBut_foldl (l := occupancyWords sl) (f := markHot hot sl f kind v) (fun s x => markHot_reports hf s x)
      (List.range k) s hs).2
    rw [List.range_succ, List.foldl_append, List.foldl_cons, List.foldl_nil, getF_markHot_other hsl hf hg hlo hhi hdis hswitching, ih]

end

section
variable {s : State} {sl : Nat}

theorem getF_of_words {t : State} {pg : Nat} {f : Fld} (h : wordAt t (pg + f.off) = wordAt s (pg + f.off)) : getF t pg f = getF s pg f := by
  unfold getF
  rw [h]

/-! #### One slice -/

theorem switching_showOccupancy (s : State) (sl : Nat) (d : Nat → Nat) : switching (showOccupancy s sl d) = switching s :=
  (switching_setF_slice ..).trans ((switching_setF_slice ..).trans ((switching_setF_slice ..).trans (switching_setF_slice ..)))

theorem reportsBut_showOccupancy (s : State) (sl : Nat) (d : Nat → Nat) : ReportsBut (occupancyWords sl) s (showOccupancy s sl d) := by
  have hword (r : State) {f : Fld} (hf : f.off = 0x054) (v : Nat) : ReportsBut (occupancyWords sl) r (setF r (pgSlice sl) f v) :=
    reportsBut_setF r v (by simp [occupancyWords, hf])
  exact reportsBut_trans (reportsBut_trans (reportsBut_trans (hword _ rfl _) (hword _ rfl _)) (hword _ rfl _)) (hword _ rfl _)

theorem showOccupancy_channels (s : State) (sl : Nat) {d : Nat → Nat} (hd : ∀ c, d c < 256) :
    getF (showOccupancy s sl d) (pgSlice sl) SL_OCCUPANCY_CH0 = d 0 ∧ getF (showOccupancy s sl d) (pgSlice sl) SL_OCCUPANCY_CH1 = d 1 ∧
    getF (showOccupancy s sl d) (pgSlice sl) SL_OCCUPANCY_CH2 = d 2 ∧ getF (showOccupancy s sl d) (pgSlice sl) SL_OCCUPANCY_CH3 = d 3 := by
  unfold showOccupancy
  refine ⟨?_, ?_, ?_, ?_⟩
  · rw [getF_setF_disjoint _ _ _ (by decide) (by decide) (by decide) (by decide),
      getF_setF_disjoint _ _ _ (by decide) (by decide) (by decide) (by decide),
      getF_setF_disjoint _ _ _ (by decide) (by decide) (by decide) (by decide), getF_setF_same _ _ _ _ (by decide) (by decide)]
    exact Nat.mod_eq_of_lt (hd 0)
  · rw [getF_setF_disjoint _ _ _ (by decide) (by decide) (by decide) (by decide),
      getF_setF_disjoint _ _ _ (by decide) (by decide) (by decide) (by decide), getF_setF_same _ _ _ _ (by decide) (by decide)]
    exact Nat.mod_eq_of_lt (hd 1)
  · rw [getF_setF_disjoint _ _ _ (by decide) (by decide) (by decide) (by decide), getF_setF_same _ _ _ _ (by decide) (by decide)]
    exact Nat.mod_eq_of_lt (hd 2)
  · rw [getF_setF_same _ _ _ _ (by decide) (by decide)]
    exact Nat.mod_eq_of_lt (hd 3)

theorem getF_showOccupancy_hot (s : State) (sl : Nat) (d : Nat → Nat) {f : Fld} (hf : f.off = 0x058) :
    getF (showOccupancy s sl d) (pgSlice sl) f = getF s (pgSlice sl) f := by
  have hother (r : State) {g : Fld} (hg : g.off = 0x054) (v : Nat) : getF (setF r (pgSlice sl) g v) (pgSlice sl) f = getF r (pgSlice sl) f :=
    getF_setF_other r v (by omega)
  rw [showOccupancy, hother _ rfl, hother _ rfl, hother _ rfl, hother _ rfl]

/-- A slice's window: the state between the two kinds of marks, and what it rests on. -/
theorem occupySlice_reports (hs : switching s = false) (hot : Nat) (deep near : List (List Nat)) (sl : Nat) :
    ReportsBut (occupancyWords sl) s (occupySlice hot deep near s sl) ∧ switching (occupySlice hot deep near s sl) = false := by
  have hshown : switching (showOccupancy s sl (busyOf deep sl)) = false := (switching_showOccupancy ..).trans hs
  obtain ⟨hdeep, hdeepEnd⟩ := reportsBut_foldl (l := occupancyWords sl) (f := markHot hot sl SL_HOT_DEEP 0 (busyOf deep sl))
    (fun s x => markHot_reports rfl s x) (List.range 4) _ hshown
  obtain ⟨hnear, hnearEnd⟩ := reportsBut_foldl (l := occupancyWords sl) (f := markHot hot sl SL_HOT_NEAR 1 (busyOf near sl))
    (fun s x => markHot_reports rfl s x) (List.range 8) _ hdeepEnd
  exact ⟨reportsBut_trans (reportsBut_trans (reportsBut_showOccupancy s sl _) hdeep) hnear, hnearEnd⟩

/-- What a slice's page shows after a window, from what it showed before. -/
structure SliceShown (s t : State) (sl hot : Nat) (deep near : List (List Nat)) : Prop where
  ch0 : getF t (pgSlice sl) SL_OCCUPANCY_CH0 = busyOf deep sl 0
  ch1 : getF t (pgSlice sl) SL_OCCUPANCY_CH1 = busyOf deep sl 1
  ch2 : getF t (pgSlice sl) SL_OCCUPANCY_CH2 = busyOf deep sl 2
  ch3 : getF t (pgSlice sl) SL_OCCUPANCY_CH3 = busyOf deep sl 3
  hotDeep : ∀ c, c < 4 → bit (getF t (pgSlice sl) SL_HOT_DEEP) c = (bit (getF s (pgSlice sl) SL_HOT_DEEP) c || decide (hot < busyOf deep sl c))
  hotNear : ∀ c, c < 8 → bit (getF t (pgSlice sl) SL_HOT_NEAR) c = (bit (getF s (pgSlice sl) SL_HOT_NEAR) c || decide (hot < busyOf near sl c))

theorem busyOf_lt (l : List (List Nat)) (sl c : Nat) : busyOf l sl c < 256 := Nat.mod_lt _ (by decide)

/-- Marking leaves the shown occupancy. -/
theorem getF_markHots_channels {hot kind : Nat} {f g : Fld} {v : Nat → Nat} (hsl : sl < 16) (hf : f.off = 0x058) (hg : g.off = 0x054)
    (hs : switching s = false) (xs : List Nat) : getF (xs.foldl (markHot hot sl f kind v) s) (pgSlice sl) g = getF s (pgSlice sl) g := by
  have hone (r : State) (c : Nat) (hr : switching r = false) :
      ReportsBut [pgSlice sl + 0x058] r (markHot hot sl f kind v r c) ∧ switching (markHot hot sl f kind v r c) = false := by
    refine ⟨?_, (markHot_reports hf r c hr).2⟩
    unfold markHot
    split
    · exact reportsBut_trans (reportsBut_setF r _ (by simp [hf]))
        (reportsBut_of_reports (reports_postEvent ((switching_setF_slice ..).trans hr) ..) _)
    · exact ⟨rfl, fun _ _ _ => rfl⟩
  refine getF_of_reportsBut (reportsBut_foldl hone xs s hs).1 (not_reportWord_slice hsl (by omega) (by omega)) ?_
  rw [List.mem_singleton]
  omega

theorem sliceShown_occupySlice (hs : switching s = false) (hsl : sl < 16) (hot : Nat) (deep near : List (List Nat)) :
    SliceShown s (occupySlice hot deep near s sl) sl hot deep near := by
  have hshown : switching (showOccupancy s sl (busyOf deep sl)) = false := (switching_showOccupancy ..).trans hs
  obtain ⟨-, hdeepEnd⟩ := reportsBut_foldl (l := occupancyWords sl) (f := markHot hot sl SL_HOT_DEEP 0 (busyOf deep sl))
    (fun s x => markHot_reports rfl s x) (List.range 4) _ hshown
  have hchannel {g : Fld} (hg : g.off = 0x054) : getF (occupySlice hot deep near s sl) (pgSlice sl) g =
      getF (showOccupancy s sl (busyOf deep sl)) (pgSlice sl) g := by
    rw [occupySlice, getF_markHots_channels hsl rfl hg hdeepEnd, getF_markHots_channels hsl rfl hg hshown]
  obtain ⟨h0, h1, h2, h3⟩ := showOccupancy_channels s sl (busyOf_lt deep sl)
  refine ⟨(hchannel rfl).trans h0, (hchannel rfl).trans h1, (hchannel rfl).trans h2, (hchannel rfl).trans h3, fun c hc => ?_, fun c hc => ?_⟩
  · rw [occupySlice, getF_markHots_other hsl rfl rfl (by decide) (by decide) (by decide) hdeepEnd,
      bit_markHots hsl rfl (by decide) (by decide) hc hshown, getF_showOccupancy_hot _ _ _ rfl]
    simp [hc]
  · rw [occupySlice, bit_markHots hsl rfl (by decide) (by decide) hc hdeepEnd,
      getF_markHots_other hsl rfl rfl (by decide) (by decide) (by decide) hshown, getF_showOccupancy_hot _ _ _ rfl]
    simp [hc]

/-! #### All slices -/

/-- A slice's page is shown from its words, whatever else has changed. -/
theorem sliceShown_congr {s' t t' : State} {hot : Nat} {deep near : List (List Nat)} (h : SliceShown s t sl hot deep near)
    (hs : ∀ a ∈ occupancyWords sl, wordAt s' a = wordAt s a) (ht : ∀ a ∈ occupancyWords sl, wordAt t' a = wordAt t a) :
    SliceShown s' t' sl hot deep near := by
  have hch {f : Fld} (hf : f.off = 0x054) : getF t' (pgSlice sl) f = getF t (pgSlice sl) f :=
    getF_of_words (ht _ (by simp [occupancyWords, hf]))
  have hhot {f : Fld} (hf : f.off = 0x058) : getF t' (pgSlice sl) f = getF t (pgSlice sl) f :=
    getF_of_words (ht _ (by simp [occupancyWords, hf]))
  have hold {f : Fld} (hf : f.off = 0x058) : getF s' (pgSlice sl) f = getF s (pgSlice sl) f :=
    getF_of_words (hs _ (by simp [occupancyWords, hf]))
  refine ⟨(hch rfl).trans h.ch0, (hch rfl).trans h.ch1, (hch rfl).trans h.ch2, (hch rfl).trans h.ch3, fun c hc => ?_, fun c hc => ?_⟩
  · rw [hhot rfl, hold rfl]
    exact h.hotDeep c hc
  · rw [hhot rfl, hold rfl]
    exact h.hotNear c hc

theorem occupancyWords_apart {k sl : Nat} (hne : k ≠ sl) : ∀ a ∈ occupancyWords k, ¬reportWord a → a ∉ occupancyWords sl := by
  intro a ha _
  simp only [occupancyWords, List.mem_cons, List.not_mem_nil, or_false, pgSlice, not_or] at ha ⊢
  omega

/-- After the first `m` slices. -/
theorem occupySlices (hs : switching s = false) (hot : Nat) (deep near : List (List Nat)) (m : Nat) (hm : m ≤ 16) :
    let t := (List.range m).foldl (occupySlice hot deep near) s
    still t = still s ∧ switching t = false ∧ (∀ k, k < m → SliceShown s t k hot deep near) ∧
      ∀ k, m ≤ k → k < 16 → ∀ a ∈ occupancyWords k, wordAt t a = wordAt s a := by
  induction m with
  | zero => exact ⟨rfl, hs, fun k hk => absurd hk (Nat.not_lt_zero k), fun _ _ _ _ _ => rfl⟩
  | succ m ih =>
    obtain ⟨hstill, hswitching, hshown, hrest⟩ := ih (by omega)
    dsimp only
    rw [List.range_succ, List.foldl_append, List.foldl_cons, List.foldl_nil]
    obtain ⟨hreports, hend⟩ := occupySlice_reports hswitching hot deep near m
    have hapart (k : Nat) (hk : k < 16) (hne : k ≠ m) (a : Nat) (ha : a ∈ occupancyWords k) :
        wordAt (occupySlice hot deep near ((List.range m).foldl (occupySlice hot deep near) s) m) a =
          wordAt ((List.range m).foldl (occupySlice hot deep near) s) a := by
      have hnot : ¬reportWord a := by
        simp only [occupancyWords, List.mem_cons, List.not_mem_nil, or_false] at ha
        rcases ha with rfl | rfl <;> exact not_reportWord_slice hk (by decide) (by decide)
      exact hreports.words a hnot (occupancyWords_apart hne a ha hnot)
    refine ⟨hreports.still.trans hstill, hend, fun k hk => ?_, fun k hk hk16 a ha => ?_⟩
    · by_cases hkm : k = m
      · subst hkm
        exact sliceShown_congr (sliceShown_occupySlice hswitching (by omega) hot deep near)
          (fun a ha => (hrest k (Nat.le_refl k) (by omega) a ha).symm) (fun _ _ => rfl)
      · exact sliceShown_congr (hshown k (by omega)) (fun _ _ => rfl) (hapart k (by omega) hkm)
    · rw [hapart k hk16 (by omega) a ha]
      exact hrest k (by omega) hk16 a ha

theorem wordAt_advanceTo (s : State) (t a : Nat) : wordAt (advanceTo s t) a = wordAt s a := rfl

theorem wordAt_countWindow (s : State) (a : Nat) : wordAt (countWindow s) a = wordAt s a := rfl

theorem wordAt_windowEnd (s : State) (a : Nat) : wordAt (windowEnd s) a = wordAt s a := by
  rw [windowEnd, wordAt_countWindow, wordAt_advanceTo]

theorem mon_of_still {t : State} (h : still t = still s) : t.mon = s.mon := (congrArg State.mon h : _)

theorem ticks_of_still {t : State} (h : still t = still s) : t.ticks = s.ticks := (congrArg State.ticks h : _)

theorem mon_advanceTo (s : State) (t : Nat) : (advanceTo s t).mon = s.mon := rfl

theorem mon_countWindow (s : State) : (countWindow s).mon.windows = s.mon.windows + 1 := rfl

theorem ticks_countWindow (s : State) : (countWindow s).ticks = s.ticks := rfl

theorem exec_occupancyWindow (s : State) (deep near : List (List Nat)) : exec (.occupancyWindow deep near) s =
    onDie s (fun s => occupancyWindow s deep near) := rfl

theorem occupies (hup : alive s = true) (hq : Quiet s) (deep near : List (List Nat)) : Does (.occupancyWindow deep near) s (fun u =>
    u.mon.windows = s.mon.windows + 1 ∧ u.ticks = max s.ticks ((s.mon.windows + 1) * 2 ^ 20) ∧
    ∀ sl, sl < 16 → SliceShown s u sl (getF s pgWheel WHEEL_CTRL_HOT_PCT) deep near) := by
  have hswitching : switching (windowEnd s) = false := by
    rw [← hq.switching]
    unfold switching
    rw [getF_of_words (wordAt_windowEnd s _)]
  have hhot : getF (windowEnd s) pgWheel WHEEL_CTRL_HOT_PCT = getF s pgWheel WHEEL_CTRL_HOT_PCT := getF_of_words (wordAt_windowEnd s _)
  obtain ⟨hstill, -, hshown, -⟩ := occupySlices hswitching (getF (windowEnd s) pgWheel WHEEL_CTRL_HOT_PCT) deep near 16 (Nat.le_refl 16)
  refine does_onDie (exec_occupancyWindow s deep near) hup (occupancyWindow_eq s deep near) ⟨?_, ?_, fun sl hsl => ?_⟩
  · rw [mon_of_still hstill, windowEnd, mon_countWindow, mon_advanceTo]
  · rw [ticks_of_still hstill, windowEnd, ticks_countWindow, advanceTo_ticks]
  · rw [← hhot]
    exact sliceShown_congr (hshown sl hsl) (fun a _ => (wordAt_windowEnd s a).symm) (fun _ _ => rfl)

end

/-! ### Refresh rates (R178) -/

section
variable {s : State}

theorem foldl_max_attained (f : Nat → Nat) (l : List Nat) : ∀ b, (∀ x ∈ l, f x ≤ (l.map f).foldl max b) ∧ b ≤ (l.map f).foldl max b ∧
    ((l.map f).foldl max b = b ∨ ∃ x ∈ l, (l.map f).foldl max b = f x) := by
  induction l with
  | nil => exact fun b => ⟨fun _ h => absurd h List.not_mem_nil, le_refl b, .inl rfl⟩
  | cons y l ih =>
    intro b
    rw [List.map_cons, List.foldl_cons]
    obtain ⟨hle, hb, hat⟩ := ih (max b (f y))
    refine ⟨fun x hx => ?_, le_trans (le_max_left ..) hb, ?_⟩
    · rcases List.mem_cons.mp hx with rfl | hx
      · exact le_trans (le_max_right ..) hb
      · exact hle x hx
    · rcases hat with hat | ⟨x, hx, hat⟩
      · rcases max_choice b (f y) with hc | hc
        · exact .inl (hat.trans hc)
        · exact .inr ⟨y, List.mem_cons_self .., hat.trans hc⟩
      · exact .inr ⟨x, List.mem_cons_of_mem _ hx, hat⟩

/-- The largest of the sixteen required rates is one of them. -/
theorem largest_rate (s : State) : ∃ k, k < 16 ∧ ((List.range 16).map (requiredRate s)).foldl max 1 = requiredRate s k ∧
    ∀ j, j < 16 → requiredRate s j ≤ requiredRate s k := by
  obtain ⟨hle, hone, hat⟩ := foldl_max_attained (requiredRate s) (List.range 16) 1
  have hall (v : Nat) (hv : ((List.range 16).map (requiredRate s)).foldl max 1 = v) : ∀ j, j < 16 → requiredRate s j ≤ v :=
    fun j hj => hv ▸ hle j (List.mem_range.mpr hj)
  rcases hat with hat | ⟨k, hk, hat⟩
  · have hzero : requiredRate s 0 = 1 := le_antisymm (hall 1 hat 0 (by decide)) (le_max_left ..)
    exact ⟨0, by decide, hat.trans hzero.symm, hzero.symm ▸ hall 1 hat⟩
  · exact ⟨k, List.mem_range.mp hk, hat, hall _ hat⟩

/-- A slice's rate has been noted. -/
def noteRate (s : State) (sl rate : Nat) : State := { s with mon := { s.mon with rates := tabSet 0 s.mon.rates sl (if rate = 1 then 0 else rate) } }

theorem requiredRate_noteRate_same (s : State) (sl : Nat) {rate : Nat} (h : 1 ≤ rate) : requiredRate (noteRate s sl rate) sl = rate := by
  have hrate : tabGet 0 (noteRate s sl rate).mon.rates sl = if rate = 1 then 0 else rate := tabGet_set_same ..
  rw [requiredRate, hrate]
  split <;> omega

theorem requiredRate_noteRate_other (s : State) {sl k : Nat} (rate : Nat) (hne : k ≠ sl) : requiredRate (noteRate s sl rate) k = requiredRate s k := by
  have hrate : tabGet 0 (noteRate s sl rate).mon.rates k = tabGet 0 s.mon.rates k := tabGet_set_other _ _ _ hne
  rw [requiredRate, hrate, requiredRate]

theorem requiredRate_of_still {t : State} (h : still t = still s) (k : Nat) : requiredRate t k = requiredRate s k := by
  rw [requiredRate, mon_of_still h, requiredRate]

theorem scheduledRate_noteRate (s : State) (sl rate : Nat) : scheduledRate (noteRate s sl rate) = scheduledRate s := rfl

theorem rateCode_lt (r : Nat) : rateCode r < 4 := by
  unfold rateCode
  split
  · decide
  · split <;> decide

theorem requiredRate_showRates (s : State) (k : Nat) : requiredRate (showRates s) k = requiredRate s k := by
  rw [requiredRate, showRates, setF_mon, setF_mon, requiredRate]

theorem showRates_scheduled (s : State) : getF (showRates s) pgWheel WHEEL_STATUS_REFRESH_SCHED = rateCode (scheduledRate s) := by
  rw [showRates, getF_setF_same _ _ _ _ (by decide) (by decide)]
  exact Nat.mod_eq_of_lt (rateCode_lt _)

theorem showRates_required (s : State) : getF (showRates s) pgWheel WHEEL_STATUS_REFRESH_REQ =
    rateCode (((List.range 16).map (requiredRate s)).foldl max 1) := by
  rw [showRates, getF_setF_disjoint _ _ _ (by decide) (by decide) (by decide) (by decide), getF_setF_same _ _ _ _ (by decide) (by decide)]
  exact Nat.mod_eq_of_lt (rateCode_lt _)

theorem rate_times (rate : Rate) : (if rate.times = 2 ∨ rate.times = 4 then rate.times else 1) = rate.times ∧ 1 ≤ rate.times := by
  cases rate <;> decide

/-- The rate is noted and shown; what follows are deviation records. -/
theorem refreshIndication_reports (s : State) (sl : Nat) (rate : Rate) :
    Reports (showRates (noteRate s sl rate.times)) (refreshIndication s sl rate.times) := by
  have hrate := (rate_times rate).1
  unfold refreshIndication
  rw [hrate]
  extract_lets r sched old rates shown detail
  clear_value detail
  cases detail with
  | none => exact reports_refl _
  | some d => exact reports_foldl (fun s n => reports_slip ..) _ _

theorem exec_refreshIndication (s : State) (sl : Fin 16) (rate : Rate) : exec (.refreshIndication sl rate) s =
    onDie s (fun s => refreshIndication s sl rate.times) := rfl

theorem refreshes (hup : alive s = true) (sl : Fin 16) (rate : Rate) : Does (.refreshIndication sl rate) s (fun u =>
    requiredRate u sl = rate.times ∧ (∀ k, k ≠ sl.val → requiredRate u k = requiredRate s k) ∧
    getF u pgWheel WHEEL_STATUS_REFRESH_SCHED = rateCode (scheduledRate s) ∧
    ∃ k, k < 16 ∧ getF u pgWheel WHEEL_STATUS_REFRESH_REQ = rateCode (requiredRate u k) ∧ ∀ j, j < 16 → requiredRate u j ≤ requiredRate u k) := by
  have hreports := refreshIndication_reports s sl rate
  have hrate (k : Nat) : requiredRate (refreshIndication s sl rate.times) k = requiredRate (noteRate s sl rate.times) k :=
    (requiredRate_of_still hreports.still k).trans (requiredRate_showRates ..)
  have hword : ¬reportWord (pgWheel + 0x044) := by unfold reportWord; decide
  obtain ⟨k, hk, hlargest, hall⟩ := largest_rate (noteRate s sl rate.times)
  refine does_onDie (exec_refreshIndication s sl rate) hup rfl ⟨?_, fun k hk => ?_, ?_, k, hk, ?_, fun j hj => ?_⟩
  · rw [hrate, requiredRate_noteRate_same _ _ (rate_times rate).2]
  · rw [hrate, requiredRate_noteRate_other _ _ hk]
  · rw [getF_of_reports hreports hword, showRates_scheduled, scheduledRate_noteRate]
  · rw [getF_of_reports hreports hword, showRates_required, hlargest, hrate]
  · rw [hrate, hrate]
    exact hall j hj

end

/-! ### Margins of the links (R282) -/

section
variable {s : State}

theorem reports_cplWrite (s : State) (n : Nat) (c : Cpl) : Reports s (cplWrite s n c) :=
  reports_trans (reports_trans (reports_hostWrite ..) (reports_setF_fn ..)) (reports_raiseFn ..)

theorem reports_complete (s : State) (n tag op status detail : Nat) : Reports s (complete s n tag op status detail) := by
  unfold complete
  exact reports_ite _ ⟨rfl, fun _ _ => rfl⟩ (reports_ite _ (reports_cplWrite ..) (reports_modFn ..))

theorem reports_bgComplete (s : State) (n op status detail : Nat) : Reports s (bgComplete s n op status detail) := by
  unfold bgComplete
  split
  · exact reports_refl s
  · exact reports_trans (reports_modFn ..) (reports_complete ..)

theorem reports_setFnF (s : State) (n : Nat) (f : Fld) (v : Nat) : Reports s (setFnF s n f v) := reports_setF_fn ..

theorem reports_showRecord (s : State) (n : Nat) : Reports s (showRecord s n) := by
  unfold showRecord
  extract_lets x f s1 s2 s3 s4 s5 s6 s7
  have hf (r : State) (fl : Fld) (v : Nat) : Reports r (f r fl v) := reports_setFnF ..
  have h1 : Reports s s1 := reports_trans (hf ..) (hf ..)
  have h2 : Reports s s2 := reports_trans h1 (reports_trans (hf ..) (hf ..))
  have h3 : Reports s s3 := reports_trans h2 (hf ..)
  have h4 : Reports s s4 := reports_trans h3 (hf ..)
  have h5 : Reports s s5 := reports_trans h4 (hf ..)
  have h6 : Reports s s6 := reports_trans h5 (hf ..)
  have h7 : Reports s s7 := reports_trans h6 (hf ..)
  exact reports_trans h7 (hf ..)

theorem reports_xferStart (s : State) (n mode subj target : Nat) : Reports s (xferStart s n mode subj target) := by
  unfold xferStart
  exact reports_trans (reports_modFn ..) (reports_showRecord ..)

/-- The keeper answers a request to leave by a transfer, or by a status. -/
theorem reports_keeperServe (s : State) (n member die : Nat) (room : Bool) : Reports s (keeperServe s n 8 member die room).1 := by
  unfold keeperServe
  rw [if_pos rfl]
  split
  · exact reports_xferStart ..
  · split
    · exact reports_xferStart ..
    · exact reports_refl s

theorem reports_membStore (s : State) (dst : Nat) (m : List Byte) : Reports s (membStore s dst m) := by
  unfold membStore
  exact reports_ite _ (reports_refl s) ⟨rfl, fun _ _ => rfl⟩

theorem reports_membSend (s : State) (n dst : Nat) (b : MembBody) : Reports s (membSend s n dst b) := by
  unfold membSend
  extract_lets id m counted
  have hsent : Reports s { counted with msgs := counted.msgs ++ [⟨n, dst, id, m, counted.ticks, 0⟩] } := ⟨rfl, fun _ _ => rfl⟩
  exact reports_trans hsent (reports_membStore ..)

theorem reports_evacRequest (s : State) (n : Nat) (room : Bool) : Reports s (evacRequest s n room) := by
  unfold evacRequest
  extract_lets x asked served
  have hasked : Reports s asked := reports_modFn ..
  have hserved : Reports s served.1 := reports_trans hasked (reports_keeperServe ..)
  refine reports_ite _ (reports_refl s) (reports_ite _ (reports_ite _ (reports_ite _ hserved ?_) ?_) ?_)
  · exact reports_trans hserved (reports_trans (reports_modFn ..) (reports_bgComplete ..))
  · exact reports_trans hasked (reports_modFn ..)
  · split
    · exact reports_trans hasked (reports_membSend ..)
    · exact hasked

end

section
variable {s : State}

/-! #### The least of a list -/

/-- The least value so far with its place, and the next. -/
def leastStep (a : Option (Nat × Nat)) (q : Nat × Nat) : Option (Nat × Nat) :=
  match a with
  | none => some (q.2, q.1)
  | some (i, v) => if q.1 < v then some (q.2, q.1) else some (i, v)

theorem leastOf_eq (l : List Nat) : leastOf l = (l.zipIdx.foldl leastStep none).getD (0, 0) := rfl

theorem foldl_leastStep (l : List Nat) : ∀ (k i v : Nat), ∃ i' v', (l.zipIdx k).foldl leastStep (some (i, v)) = some (i', v') ∧ v' ≤ v ∧
    (∀ x ∈ l, v' ≤ x) ∧ ((i' = i ∧ v' = v) ∨ ∃ j, l[j]? = some v' ∧ i' = k + j) := by
  induction l with
  | nil => exact fun k i v => ⟨i, v, rfl, le_refl v, fun _ h => absurd h List.not_mem_nil, .inl ⟨rfl, rfl⟩⟩
  | cons x l ih =>
    intro k i v
    rw [List.zipIdx_cons, List.foldl_cons]
    by_cases hx : x < v
    · obtain ⟨i', v', hfold, hle, hall, hat⟩ := ih (k + 1) k x
      refine ⟨i', v', ?_, by omega, ?_, ?_⟩
      · rw [leastStep, if_pos hx]; exact hfold
      · exact fun y hy => (List.mem_cons.mp hy).elim (fun he => he ▸ hle) (hall y)
      · rcases hat with ⟨rfl, rfl⟩ | ⟨j, hj, rfl⟩
        · exact .inr ⟨0, rfl, rfl⟩
        · exact .inr ⟨j + 1, hj, by omega⟩
    · obtain ⟨i', v', hfold, hle, hall, hat⟩ := ih (k + 1) i v
      refine ⟨i', v', ?_, hle, ?_, ?_⟩
      · rw [leastStep, if_neg hx]; exact hfold
      · exact fun y hy => (List.mem_cons.mp hy).elim (fun he => he ▸ (by omega)) (hall y)
      · exact hat.imp_right (fun ⟨j, hj, hi⟩ => ⟨j + 1, hj, by omega⟩)

/-- The least value of a list and its place. -/
theorem leastOf_spec (x : Nat) (l : List Nat) : (x :: l)[(leastOf (x :: l)).1]? = some (leastOf (x :: l)).2 ∧
    ∀ y ∈ x :: l, (leastOf (x :: l)).2 ≤ y := by
  obtain ⟨i, v, hfold, hle, hall, hat⟩ := foldl_leastStep l 1 0 x
  have heq : leastOf (x :: l) = (i, v) := by
    rw [leastOf_eq, List.zipIdx_cons, List.foldl_cons, leastStep, hfold]
    rfl
  rw [heq]
  refine ⟨?_, fun y hy => (List.mem_cons.mp hy).elim (fun he => he ▸ hle) (hall y)⟩
  rcases hat with ⟨rfl, rfl⟩ | ⟨j, hj, rfl⟩
  · rfl
  · rw [Nat.add_comm]
    exact hj

/-! #### The history -/

/-- The minima of a link's quantity with the present window's in front. -/
def marginHist (s : State) (mins : List Nat) (i : Nat) : List Nat := (min (mins.getD i 255) 255 :: tabGet [] s.margins i).take 16

theorem tabGet_foldl_tabPut (f : Nat → List Nat) (t : Tab (List Nat)) (m i : Nat) :
    tabGet [] ((List.range m).foldl (fun t i => tabPut t i (some (f i))) t) i = if i < m then f i else tabGet [] t i := by
  induction m with
  | zero => simp
  | succ m ih =>
    rw [List.range_succ, List.foldl_append, List.foldl_cons, List.foldl_nil]
    by_cases him : i = m
    · subst him
      rw [tabGet, tabFind_put_same, if_pos (Nat.lt_succ_self i)]
      rfl
    · rw [tabGet, tabFind_put_other _ _ him, ← tabGet, ih]
      by_cases hlt : i < m
      · rw [if_pos hlt, if_pos (by omega)]
      · rw [if_neg hlt, if_neg (by omega)]

/-- The histories of all links. -/
def marginHists (s : State) (mins : List Nat) : List (List Nat) := (List.range 96).map (marginHist s mins)

theorem marginHists_getD {mins : List Nat} {i : Nat} (hi : i < 96) : (marginHists s mins).getD i [] = marginHist s mins i := by
  rw [marginHists, List.getD_eq_getElem?_getD, List.getElem?_map, List.getElem?_range hi]
  rfl

/-- The window's end, with the histories kept. -/
def keepMargins (s : State) (mins : List Nat) : State := { s with
  marginWindows := s.marginWindows + 1
  margins := (List.range 96).foldl (fun t i => tabPut t i (some ((marginHists s mins).getD i []))) s.margins }

theorem margins_keepMargins {mins : List Nat} {i : Nat} (hi : i < 96) : tabGet [] (keepMargins s mins).margins i = marginHist s mins i := by
  rw [keepMargins, tabGet_foldl_tabPut, if_pos hi, marginHists_getD hi]

/-! #### The state of the links -/

/-- Some link's quantity was below the limit in the window `k` back. -/
def marginBelow (hist : List (List Nat)) (lim k : Nat) : Bool :=
  hist.any (fun l => match l[k]? with | some v => decide (v < lim) | none => false)

/-- A limit was missed in each of the last four windows. -/
def marginRun (hist : List (List Nat)) (lim : Nat) : Bool := (List.range 4).all (fun k => marginBelow hist lim k)

/-- The state that a window's end shows. -/
def marginState (hist : List (List Nat)) (warn evac horizon : Nat) : Nat :=
  if marginRun hist evac || hist.any (fun l => lineReaches l evac horizon) then 2 else if marginRun hist warn then 1 else 0

theorem marginState_lt (hist : List (List Nat)) (warn evac horizon : Nat) : marginState hist warn evac horizon < 4 := by
  unfold marginState
  split
  · decide
  · split <;> decide

theorem marginBelow_iff {mins : List Nat} {lim k : Nat} : marginBelow (marginHists s mins) lim k = true ↔
    ∃ i, i < 96 ∧ ∃ v, (marginHist s mins i)[k]? = some v ∧ v < lim := by
  have hone (l : List Nat) : (match l[k]? with | some v => decide (v < lim) | none => false) = true ↔ ∃ v, l[k]? = some v ∧ v < lim := by
    cases hl : l[k]? <;> simp
  unfold marginBelow
  rw [List.any_eq_true, marginHists]
  constructor
  · rintro ⟨l, hl, hbelow⟩
    obtain ⟨i, hi, rfl⟩ := List.mem_map.mp hl
    exact ⟨i, List.mem_range.mp hi, (hone _).mp hbelow⟩
  · rintro ⟨i, hi, hv⟩
    exact ⟨_, List.mem_map.mpr ⟨i, List.mem_range.mpr hi, rfl⟩, (hone _).mpr hv⟩

theorem marginRun_iff {mins : List Nat} {lim : Nat} : marginRun (marginHists s mins) lim = true ↔
    ∀ k, k < 4 → ∃ i, i < 96 ∧ ∃ v, (marginHist s mins i)[k]? = some v ∧ v < lim := by
  unfold marginRun
  rw [List.all_eq_true]
  exact forall_congr' (fun k => by rw [List.mem_range, marginBelow_iff])

theorem lineReaches_zero (l : List Nat) (limit : Nat) : lineReaches l limit 0 = false := by
  unfold lineReaches
  rw [if_pos (.inr rfl)]

theorem no_line (hist : List (List Nat)) (limit : Nat) : hist.any (fun l => lineReaches l limit 0) = false := by
  rw [List.any_eq_false]
  exact fun l _ => by rw [lineReaches_zero]; decide

/-! #### What a window's end shows -/

/-- MARGIN_STATUS with a state, a link's quantity and its least value. -/
def showMargins (s : State) (st i v : Nat) : State :=
  setF (setF (setF (setF s pgPort PORT_MARGIN_STATUS_STATE st) pgPort PORT_MARGIN_STATUS_QUANTITY (i % 3)) pgPort PORT_MARGIN_STATUS_LINK (i / 3))
    pgPort PORT_MARGIN_STATUS_WORST_PCT v

theorem showMargins_fields {st i v : Nat} (hst : st < 4) (hi : i < 96) (hv : v < 256) :
    getF (showMargins s st i v) pgPort PORT_MARGIN_STATUS_STATE = st ∧
    getF (showMargins s st i v) pgPort PORT_MARGIN_STATUS_QUANTITY = i % 3 ∧
    getF (showMargins s st i v) pgPort PORT_MARGIN_STATUS_LINK = i / 3 ∧
    getF (showMargins s st i v) pgPort PORT_MARGIN_STATUS_WORST_PCT = v := by
  unfold showMargins
  refine ⟨?_, ?_, ?_, ?_⟩
  · rw [getF_setF_disjoint _ _ _ (by decide) (by decide) (by decide) (by decide),
      getF_setF_disjoint _ _ _ (by decide) (by decide) (by decide) (by decide),
      getF_setF_disjoint _ _ _ (by decide) (by decide) (by decide) (by decide), getF_setF_same _ _ _ _ (by decide) (by decide)]
    exact Nat.mod_eq_of_lt hst
  · rw [getF_setF_disjoint _ _ _ (by decide) (by decide) (by decide) (by decide),
      getF_setF_disjoint _ _ _ (by decide) (by decide) (by decide) (by decide), getF_setF_same _ _ _ _ (by decide) (by decide)]
    exact Nat.mod_eq_of_lt (show i % 3 < 4 by omega)
  · rw [getF_setF_disjoint _ _ _ (by decide) (by decide) (by decide) (by decide), getF_setF_same _ _ _ _ (by decide) (by decide)]
    exact Nat.mod_eq_of_lt (show i / 3 < 32 by omega)
  · rw [getF_setF_same _ _ _ _ (by decide) (by decide)]
    exact Nat.mod_eq_of_lt hv

theorem switching_setF_port (s : State) {f : Fld} (hf : f.off = 0x080) (v : Nat) : switching (setF s pgPort f v) = switching s := by
  have hother : pgNvm + NVM_FW_STATUS_STAGE.off ≠ pgPort + f.off := by
    rw [hf]
    decide
  unfold switching
  rw [getF_setF_other s v hother]

theorem switching_showMargins (s : State) (st i v : Nat) : switching (showMargins s st i v) = switching s := by
  rw [showMargins, switching_setF_port _ rfl, switching_setF_port _ rfl, switching_setF_port _ rfl, switching_setF_port _ rfl]

/-- The functions that want it ask their keepers to be moved off the die. -/
def evacuateAll (s : State) (room : Bool) : State :=
  (List.range 64).foldl (fun s n =>
    if n ≠ 0 ∧ stateOf s n = 2 ∧ forceF s n FN_MEMB_CTRL_AUTO_EVAC = 1 then evacRequest s n room else s) s

/-- What a new state of the links brings about. -/
def marginNews (s : State) (st old : Nat) (room : Bool) : State :=
  let w := leBytes 4 (wordAt s (pgPort + 0x080)).toNat
  if st = 1 ∧ old ≠ 1 then postEvent s 0 0x0056 w
  else if st = 2 ∧ old ≠ 2 then evacuateAll (postEvent s 0 0x0057 w) room
  else s

theorem marginNews_reports (hs : switching s = false) (st old : Nat) (room : Bool) : Reports s (marginNews s st old room) := by
  unfold marginNews
  exact reports_ite _ (reports_postEvent hs ..) (reports_ite _ (reports_trans (reports_postEvent hs ..)
    (reports_foldl (fun s n => reports_ite _ (reports_evacRequest ..) (reports_refl s)) ..)) (reports_refl s))

/-- The window's end at its time, with the histories kept. -/
def marginEnd (s : State) (mins : List Nat) : State := keepMargins (advanceTo s ((s.marginWindows + 1) * 2 ^ 30)) mins

/-- The state that the window's end shows, from the histories. -/
def endState (r : State) (hist : List (List Nat)) : Nat :=
  marginState hist (getF r pgPort PORT_MARGIN_LIMIT_WARN_PCT) (getF r pgPort PORT_MARGIN_LIMIT_EVAC_PCT) (getF r pgPort PORT_MARGIN_LIMIT_HORIZON)

/-- The present minima in a list. -/
def presentMins (hist : List (List Nat)) : List Nat := hist.map (fun l => l.headD 255)

theorem marginWindow_eq (s : State) (mins : List Nat) (room : Bool) :
    let r := marginEnd s mins
    let hist := marginHists (advanceTo s ((s.marginWindows + 1) * 2 ^ 30)) mins
    marginWindow s mins room = marginNews (showMargins r (endState r hist) (leastOf (presentMins hist)).1 (leastOf (presentMins hist)).2)
      (endState r hist) (getF r pgPort PORT_MARGIN_STATUS_STATE) room := by
  intro end_ hists
  unfold marginWindow
  extract_lets r hist kept warn evac h below run4 st old
  have hkept : end_ = kept := rfl
  have hhist : hists = hist := rfl
  have hst : endState kept hist = st := rfl
  have hold : getF kept pgPort PORT_MARGIN_STATUS_STATE = old := rfl
  rw [hkept, hhist, hst, hold]
  clear_value st old hist kept
  rfl

end

section
variable {s : State}

theorem wordAt_keepMargins (s : State) (mins : List Nat) (a : Nat) : wordAt (keepMargins s mins) a = wordAt s a := rfl

theorem getF_marginEnd (s : State) (mins : List Nat) (pg : Nat) (f : Fld) : getF (marginEnd s mins) pg f = getF s pg f :=
  getF_of_words (by rw [marginEnd, wordAt_keepMargins, wordAt_advanceTo])

theorem switching_marginEnd (s : State) (mins : List Nat) : switching (marginEnd s mins) = switching s := by
  unfold switching
  rw [getF_marginEnd]

theorem windows_keepMargins (s : State) (mins : List Nat) : (keepMargins s mins).marginWindows = s.marginWindows + 1 := rfl

theorem ticks_keepMargins (s : State) (mins : List Nat) : (keepMargins s mins).ticks = s.ticks := rfl

theorem windows_advanceTo (s : State) (t : Nat) : (advanceTo s t).marginWindows = s.marginWindows := rfl

theorem marginHist_advanceTo (s : State) (t : Nat) (mins : List Nat) (i : Nat) : marginHist (advanceTo s t) mins i = marginHist s mins i := rfl

theorem marginHists_advanceTo (s : State) (t : Nat) (mins : List Nat) : marginHists (advanceTo s t) mins = marginHists s mins := rfl

/-- The present minima of the 96 histories. -/
theorem presentMins_eq (s : State) (mins : List Nat) : presentMins (marginHists s mins) = (List.range 96).map (fun i => min (mins.getD i 255) 255) := by
  rw [presentMins, marginHists, List.map_map]
  rfl

/-- The least of the present minima, and its place. -/
theorem leastOf_presentMins (s : State) (mins : List Nat) : (leastOf (presentMins (marginHists s mins))).1 < 96 ∧
    (leastOf (presentMins (marginHists s mins))).2 = min (mins.getD (leastOf (presentMins (marginHists s mins))).1 255) 255 ∧
    ∀ j, j < 96 → (leastOf (presentMins (marginHists s mins))).2 ≤ min (mins.getD j 255) 255 := by
  have hne : presentMins (marginHists s mins) ≠ [] := by
    rw [presentMins_eq]
    simp
  obtain ⟨x, l, hl⟩ := List.exists_cons_of_ne_nil hne
  obtain ⟨hat, hall⟩ := leastOf_spec x l
  rw [← hl, presentMins_eq] at hat hall
  rw [presentMins_eq]
  obtain ⟨i, hi, hval⟩ := Option.map_eq_some_iff.mp (List.getElem?_map .. ▸ hat)
  obtain ⟨hlt, hri⟩ := List.getElem?_eq_some_iff.mp hi
  rw [List.length_range] at hlt
  rw [List.getElem_range] at hri
  refine ⟨hlt, ?_, fun j hj => hall _ (List.mem_map.mpr ⟨j, List.mem_range.mpr hj, rfl⟩)⟩
  rw [← hval, hri]

theorem windows_of_still {t : State} (h : still t = still s) : t.marginWindows = s.marginWindows := (congrArg State.marginWindows h : _)

theorem margins_of_still {t : State} (h : still t = still s) : t.margins = s.margins := (congrArg State.margins h : _)

theorem still_setF (s : State) (pg : Nat) (f : Fld) (v : Nat) : still (setF s pg f v) = still s := rfl

theorem still_showMargins (s : State) (st i v : Nat) : still (showMargins s st i v) = still s := by
  rw [showMargins, still_setF, still_setF, still_setF, still_setF]

theorem exec_marginWindow (s : State) (mins : List Nat) (room : Bool) : exec (.marginWindow mins room) s =
    onDie s (fun s => marginWindow s mins room) := rfl

/-- The state that is shown follows the runs below the limits. -/
theorem marginState_eq (hist : List (List Nat)) (warn evac horizon : Nat) :
    (marginRun hist evac = true → marginState hist warn evac horizon = 2) ∧
    (horizon = 0 → marginRun hist evac = false →
      (marginRun hist warn = true → marginState hist warn evac horizon = 1) ∧
      (marginRun hist warn = false → marginState hist warn evac horizon = 0)) := by
  unfold marginState
  refine ⟨fun hevac => by rw [hevac, Bool.true_or, if_pos rfl], fun hzero hevac => ?_⟩
  subst hzero
  rw [hevac, no_line]
  exact ⟨fun hwarn => by rw [hwarn]; rfl, fun hwarn => by rw [hwarn]; rfl⟩

theorem margins_end (hup : alive s = true) (hq : Quiet s) (mins : List Nat) (room : Bool) :
    let low := fun (lim : Nat) => ∀ k, k < 4 → ∃ i, i < 96 ∧ ∃ v, (marginHist s mins i)[k]? = some v ∧ v < lim
    Does (.marginWindow mins room) s (fun u => u.marginWindows = s.marginWindows + 1 ∧
      u.ticks = max s.ticks ((s.marginWindows + 1) * 2 ^ 30) ∧ (∀ i, i < 96 → tabGet [] u.margins i = marginHist s mins i) ∧
      (low (getF s pgPort PORT_MARGIN_LIMIT_EVAC_PCT) → getF u pgPort PORT_MARGIN_STATUS_STATE = 2) ∧
      (getF s pgPort PORT_MARGIN_LIMIT_HORIZON = 0 → ¬low (getF s pgPort PORT_MARGIN_LIMIT_EVAC_PCT) →
        (low (getF s pgPort PORT_MARGIN_LIMIT_WARN_PCT) → getF u pgPort PORT_MARGIN_STATUS_STATE = 1) ∧
        (¬low (getF s pgPort PORT_MARGIN_LIMIT_WARN_PCT) → getF u pgPort PORT_MARGIN_STATUS_STATE = 0)) ∧
      ∃ i, i < 96 ∧ getF u pgPort PORT_MARGIN_STATUS_WORST_PCT = min (mins.getD i 255) 255 ∧ getF u pgPort PORT_MARGIN_STATUS_LINK = i / 3 ∧
        getF u pgPort PORT_MARGIN_STATUS_QUANTITY = i % 3 ∧ ∀ j, j < 96 → min (mins.getD i 255) 255 ≤ min (mins.getD j 255) 255) := by
  intro low
  have hrun := marginWindow_eq s mins room
  dsimp only at hrun
  rw [marginHists_advanceTo] at hrun
  obtain ⟨hi, hv, hleast⟩ := leastOf_presentMins s mins
  rw [hv] at hrun hleast
  generalize (leastOf (presentMins (marginHists s mins))).1 = i at hi hrun hleast
  have hv256 : min (mins.getD i 255) 255 < 256 := by omega
  have hstate : endState (marginEnd s mins) (marginHists s mins) = marginState (marginHists s mins) (getF s pgPort PORT_MARGIN_LIMIT_WARN_PCT)
      (getF s pgPort PORT_MARGIN_LIMIT_EVAC_PCT) (getF s pgPort PORT_MARGIN_LIMIT_HORIZON) := by
    rw [endState, getF_marginEnd, getF_marginEnd, getF_marginEnd]
  rw [hstate] at hrun
  obtain ⟨hevac, hnone⟩ := marginState_eq (marginHists s mins) (getF s pgPort PORT_MARGIN_LIMIT_WARN_PCT)
    (getF s pgPort PORT_MARGIN_LIMIT_EVAC_PCT) (getF s pgPort PORT_MARGIN_LIMIT_HORIZON)
  have hst4 := marginState_lt (marginHists s mins) (getF s pgPort PORT_MARGIN_LIMIT_WARN_PCT)
    (getF s pgPort PORT_MARGIN_LIMIT_EVAC_PCT) (getF s pgPort PORT_MARGIN_LIMIT_HORIZON)
  generalize marginState (marginHists s mins) (getF s pgPort PORT_MARGIN_LIMIT_WARN_PCT) (getF s pgPort PORT_MARGIN_LIMIT_EVAC_PCT)
    (getF s pgPort PORT_MARGIN_LIMIT_HORIZON) = st at hrun hevac hnone hst4
  have hswitching : switching (showMargins (marginEnd s mins) st i (min (mins.getD i 255) 255)) = false := by
    rw [switching_showMargins, switching_marginEnd, hq.switching]
  have hreports := marginNews_reports hswitching st (getF (marginEnd s mins) pgPort PORT_MARGIN_STATUS_STATE) room
  have hstill := hreports.still.trans (still_showMargins ..)
  have hword : ¬reportWord (pgPort + 0x080) := by unfold reportWord; decide
  obtain ⟨hst, hquantity, hlink, hworst⟩ := showMargins_fields (s := marginEnd s mins) hst4 hi hv256
  have hrunOf (lim : Nat) : low lim ↔ marginRun (marginHists s mins) lim = true := marginRun_iff.symm
  refine does_onDie (exec_marginWindow s mins room) hup hrun ⟨?_, ?_, fun k hk => ?_, fun hlow => ?_, fun hzero hlow => ⟨fun hwarn => ?_,
    fun hwarn => ?_⟩, i, hi, ?_, ?_, ?_, hleast⟩
  · rw [windows_of_still hstill, marginEnd, windows_keepMargins, windows_advanceTo]
  · rw [ticks_of_still hstill, marginEnd, ticks_keepMargins, advanceTo_ticks]
  · rw [margins_of_still hstill, marginEnd, margins_keepMargins hk, marginHist_advanceTo]
  · rw [getF_of_reports hreports hword, hst]
    exact hevac ((hrunOf _).mp hlow)
  · rw [getF_of_reports hreports hword, hst]
    exact (hnone hzero (Bool.not_eq_true _ ▸ fun h => hlow ((hrunOf _).mpr h))).1 ((hrunOf _).mp hwarn)
  · rw [getF_of_reports hreports hword, hst]
    exact (hnone hzero (Bool.not_eq_true _ ▸ fun h => hlow ((hrunOf _).mpr h))).2 (Bool.not_eq_true _ ▸ fun h => hwarn ((hrunOf _).mpr h))
  · rw [getF_of_reports hreports hword, hworst]
  · rw [getF_of_reports hreports hword, hlink]
  · rw [getF_of_reports hreports hword, hquantity]

end

/-- Settles O56: each monitor by the equation of its function; what follows an outcome only reports. -/
theorem monitorsAndAudits : Obligations.MonitorsAndAudits := by
  unfold Obligations.MonitorsAndAudits
  intro s hup hq
  refine ⟨fun n => ⟨intents hup hq n, receipts hup hq n, moderates hup hq n, (migrates hup hq n).1, (migrates hup hq n).2⟩,
    fun sl c res => ?_, fun deep near => ?_, margins_end hup hq, refreshes hup⟩
  · obtain ⟨hidle, hrun⟩ := selects hup hq sl c
    refine ⟨hidle, fun r hr => ?_, no_audit hup hq sl res, fun a ha => ⟨fun o ho hd => ?_, timesOut hup hq sl ha⟩⟩
    · have hplain : (getF s pgDrone DRONE_AUDIT_ENABLE ≠ 0 ∧ r.prelude = false ∧ (fnSt s r.fn).reran = false ∧ r.fetchUe = false ∧
          r.dataUe = false ∧ r.droppedAt = none ∧
          ∀ p q, (fnSt s r.fn).progs = some p → (classOf p r.tensor).bind (classProg p) = some q → q.2.nd = false) ↔ auditable s r := by
        unfold auditable
        rw [auditNd_eq_false]
      dsimp only
      rw [hplain]
      exact hrun r hr
    · refine ⟨fun hsecond => (agrees hup hq sl res ha ho hd hsecond).1, fun hsecond => (agrees hup hq sl res ha ho hd hsecond).2, ?_⟩
      exact fun b d hb hd hfree hcore => referees hup hq sl res ha ho hb hd hfree hcore
  · refine does_mono (occupies hup hq deep near) (fun u hu => ⟨hu.1, hu.2.1, fun sl hsl => ?_⟩)
    obtain ⟨h0, h1, h2, h3, hdeep, hnear⟩ := hu.2.2 sl hsl
    exact ⟨h0, h1, h2, h3, hdeep, hnear⟩

end Sys2Proof.Proofs

/-!
# The actions of the slot wheel (R37, R68, R73, R75, R83, R93, R106, R119, R125, R126, R132)

An action whose entry is reached finds the state at its slot, `due`, and what it does there is an equation of its work function for each of the
statement's cases. `Records` says what the packets, the records and the notes around a slot's write leave alone, `SealsOnly` and `unsealed` what
an arrival at a seal does.
-/

namespace Sys2Proof.Proofs

open Sys2Proof Sys2Proof.Machine Sys2Proof.Claims Sys2Proof.Laws

/-! ### An entry of the wheel is reached (R183, R186)

What an action finds and does is read on the state at its slot, `due`, which differs from the state before in the time alone. -/

section
variable {s : State} {k : ActAt} {code : Nat} {imgs : RowSet} {w : WheelImage} {e : WheelEntry} {m : Manifest} {g : GroupEntry} {a : ActOn}

theorem fnSt_advance (s : State) (t n : Nat) : fnSt (advance s t) n = fnSt s n := rfl
theorem getF_advance (s : State) (t pg : Nat) (f : Fld) : getF (advance s t) pg f = getF s pg f := rfl
theorem coreFailed_advance (s : State) (t i : Nat) : coreFailed (advance s t) i = coreFailed s i := rfl
theorem coreFree_advance (s : State) (t i : Nat) : coreFree (advance s t) i = coreFree s i := rfl
theorem heldSlot_advance (s : State) (t n m area gen j : Nat) : heldSlot (advance s t) n m area gen j = heldSlot s n m area gen j := rfl
theorem rangeRead_advance (s : State) (t n off len : Nat) : rangeRead (advance s t) n off len = rangeRead s n off len := rfl
theorem nearRead_advance (s : State) (t a len : Nat) : nearRead (advance s t) a len = nearRead s a len := rfl
theorem sealAt_advance (s : State) (t i : Nat) : sealAt (advance s t) i = sealAt s i := rfl
theorem sealFired_advance (s : State) (t i : Nat) : sealFired (advance s t) i = sealFired s i := rfl
theorem forceF_advance (s : State) (t n : Nat) (f : Fld) : forceF (advance s t) n f = forceF s n f := rfl
theorem sliceHalted_advance (s : State) (t sl : Nat) : sliceHalted (advance s t) sl = sliceHalted s sl := rfl
theorem selfDie_advance (s : State) (t : Nat) : selfDie (advance s t) = selfDie s := rfl
theorem accHeld_advance (s : State) (t n row : Nat) : accHeld (advance s t) n row = accHeld s n row := rfl
theorem windowAt_advance (s : State) (t n w : Nat) : windowAt (advance s t) n w = windowAt s n w := rfl
theorem deltaWait_advance (s : State) (t n m j : Nat) : deltaWait (advance s t) n m j = deltaWait s n m j := rfl

theorem due_eq (s : State) (k : ActAt) (e : WheelEntry) : due s k e = advance s (slotAt s (fnSt s k.fn) e.slot - s.counter) := rfl

theorem fnSt_due (s : State) (k : ActAt) (e : WheelEntry) (n : Nat) : fnSt (due s k e) n = fnSt s n := fnSt_advance ..

theorem quiet_advance (h : Quiet s) (t : Nat) : Quiet (advance s t) := quiet_of_same h rfl rfl rfl rfl rfl

theorem quiet_due (h : Quiet s) (k : ActAt) (e : WheelEntry) : Quiet (due s k e) := quiet_advance h _

theorem member_of_reached (h : Reached s k code imgs w e m g a) : a.n = k.fn.val ∧ a.m = (fnSt s k.fn).self ∧ a.rows = imgs := by
  have hon := h.on
  split at hon
  · unfold actOn at hon
    split at hon
    · cases hon
    · cases hon
      exact ⟨rfl, rfl, rfl⟩
  · cases hon
    exact ⟨rfl, rfl, rfl⟩

theorem act_unnamed {cond : State → ActOn → Cond} {work : State → ActOn → WheelEntry → State} (h : namedEntry s k code = none) :
    act s k code imgs cond work = s := by
  unfold act
  rw [h]

theorem spareCore_working {n sl core : Nat} (h : coreFailed s (coreIx sl core) = false) (code : Nat) : spareCore s n sl core code = (s, core) := by
  unfold spareCore
  simp [h]

/-- The rows that the entry's schedule works through. -/
def rowsDue (s : State) (n : Nat) (e : WheelEntry) : Nat := match (fnSt s n).manifest with
  | some m => if e.sched = 0 then m.gradRows else m.stripeRows
  | none => 0

theorem rowsDue_manifest {n : Nat} (h : (fnSt s n).manifest = some m) : rowsDue s n e = if e.sched = 0 then m.gradRows else m.stripeRows := by
  rw [rowsDue, h]

/-- What an action does at its slot, by what its condition says there. -/
def actDue (s : State) (k : ActAt) (code : Nat) (e : WheelEntry) (a : ActOn) (cond : State → ActOn → Cond)
    (work : State → ActOn → WheelEntry → State) : State := match cond s a with
  | .idle => s
  | .wait c d => holdStart s k.fn c d e.slice (if actUsesCore code then e.core else 0xFF) e.sched e.slot (some k.entry)
  | .go => work s a e

theorem act_reached (h : Reached s k code imgs w e m g a) (cond : State → ActOn → Cond) (work : State → ActOn → WheelEntry → State) :
    act s k code imgs cond work = actDue (due s k e) k code e a cond work := by
  have hcore : coreFailed (due s k e) (coreIx a.sl a.core) = false := by
    rw [due_eq, coreFailed_advance]
    exact h.core
  have hon := h.on
  rw [← rowsDue_manifest h.manifest] at hon
  have hspare := spareCore_working (n := k.fn.val) hcore code
  unfold act
  rw [h.named]
  dsimp only
  rw [h.free]
  dsimp only
  rw [if_neg (by rw [h.turn]; exact fun hne => hne.1 rfl), if_pos h.turn]
  change (match (if actOnRow code = true then actOn w e k.fn k.turn (rowsDue s k.fn e) (fnSt s k.fn).self imgs
    else some ⟨k.fn, e.slice, e.core, (fnSt s k.fn).self, e.item.toNat, imgs⟩) with | none => _ | some a => _) = _
  rw [hon]
  change (match cond (due s k e) { a with core := (spareCore (due s k e) k.fn.val a.sl a.core code).2 } with
    | .idle => due s k e
    | .wait c d => holdStart (due s k e) k.fn c d e.slice (if actUsesCore code then e.core else 0xFF) e.sched e.slot (some k.entry)
    | .go => work (if _ then (spareCore (due s k e) k.fn.val a.sl a.core code).1 else due s k e)
      { a with core := (spareCore (due s k e) k.fn.val a.sl a.core code).2 } e) = _
  rw [hspare, ite_self]
  rfl

theorem act_go (h : Reached s k code imgs w e m g a) {cond : State → ActOn → Cond} {work : State → ActOn → WheelEntry → State}
    (hgo : cond (due s k e) a = .go) : act s k code imgs cond work = work (due s k e) a e := by
  rw [act_reached h, actDue, hgo]

theorem act_wait (h : Reached s k code imgs w e m g a) {cond : State → ActOn → Cond} {work : State → ActOn → WheelEntry → State} {c d : Nat}
    (hwait : cond (due s k e) a = .wait c d) : act s k code imgs cond work =
      holdStart (due s k e) k.fn c d e.slice (if actUsesCore code then e.core else 0xFF) e.sched e.slot (some k.entry) := by
  rw [act_reached h, actDue, hwait]

end

/-! #### The sixteen instructions -/

section
variable {s : State} {k : ActAt} {imgs : RowSet} {w : WheelImage} {e : WheelEntry} {m : Manifest} {g : GroupEntry} {a : ActOn}

theorem exec_readout (s : State) (k : ActAt) : exec (.readout k) s = onDie s (fun s => readoutAct s k) := rfl
theorem exec_gcommit (s : State) (k : ActAt) : exec (.gcommit k) s = onDie s (fun s => gcommitAct s k) := rfl
theorem exec_gwrite (s : State) (k : ActAt) : exec (.gwrite k) s = onDie s (fun s => gwriteAct s k) := rfl
theorem exec_gsend (s : State) (k : ActAt) : exec (.gsend k) s = onDie s (fun s => gsendAct s k) := rfl
theorem exec_ghold (s : State) (k : ActAt) : exec (.ghold k) s = onDie s (fun s => gholdAct s k) := rfl
theorem exec_prelude (s : State) (k : ActAt) : exec (.prelude k) s = onDie s (fun s => preludeAct s k) := rfl
theorem exec_lread (s : State) (k : ActAt) (bad : Bool) (imgs : RowSet) : exec (.lread k bad imgs) s = onDie s (fun s => lreadAct s k bad imgs) := rfl
theorem exec_run (s : State) (k : ActAt) : exec (.run k) s = onDie s (fun s => runAct s k) := rfl
theorem exec_srdAction (s : State) (k : ActAt) (imgs : RowSet) : exec (.srdAction k imgs) s = onDie s (fun s => srdAct s k imgs) := rfl
theorem exec_reg (s : State) (k : ActAt) : exec (.reg k) s = onDie s (fun s => regAct s k) := rfl
theorem exec_send (s : State) (k : ActAt) : exec (.send k) s = onDie s (fun s => sendAct s k) := rfl
theorem exec_lwrite (s : State) (k : ActAt) : exec (.lwrite k) s = onDie s (fun s => lwriteAct s k) := rfl
theorem exec_emit (s : State) (k : ActAt) : exec (.emit k) s = onDie s (fun s => emitAct s k) := rfl
theorem exec_hold (s : State) (k : ActAt) (imgs : RowSet) : exec (.hold k imgs) s = onDie s (fun s => holdAct s k imgs) := rfl
theorem exec_fill (s : State) (k : ActAt) : exec (.fill k) s = onDie s (fun s => fillAct s k) := rfl
theorem exec_mgmt (s : State) (k : ActAt) : exec (.mgmt k) s = onDie s (fun s => mgmtAct s k) := rfl

theorem ignores_unnamed (bad : Bool) (imgs : RowSet) (hup : alive s = true) (hq : Quiet s) :
    ∀ c ∈ [(actReadout, Instr.readout k), (actGcommit, .gcommit k), (actGwrite, .gwrite k), (actGsend, .gsend k), (actGhold, .ghold k),
        (actPrelude, .prelude k), (actLread, .lread k bad imgs), (actRun, .run k), (actSrd, .srdAction k imgs), (actReg, .reg k),
        (actSend, .send k), (actLwrite, .lwrite k), (actEmit, .emit k), (actHold, .hold k imgs), (actFill, .fill k), (actMgmt, .mgmt k)],
      namedEntry s k c.1 = none → Ignores c.2 s := by
  simp only [List.forall_mem_cons, List.not_mem_nil, false_implies, implies_true, and_true]
  exact ⟨fun h => ignores_onDie (exec_readout s k) hup hq (act_unnamed h), fun h => ignores_onDie (exec_gcommit s k) hup hq (act_unnamed h),
    fun h => ignores_onDie (exec_gwrite s k) hup hq (act_unnamed h), fun h => ignores_onDie (exec_gsend s k) hup hq (act_unnamed h),
    fun h => ignores_onDie (exec_ghold s k) hup hq (act_unnamed h), fun h => ignores_onDie (exec_prelude s k) hup hq (act_unnamed h),
    fun h => ignores_onDie (exec_lread s k bad imgs) hup hq (act_unnamed h), fun h => ignores_onDie (exec_run s k) hup hq (act_unnamed h),
    fun h => ignores_onDie (exec_srdAction s k imgs) hup hq (act_unnamed h), fun h => ignores_onDie (exec_reg s k) hup hq (act_unnamed h),
    fun h => ignores_onDie (exec_send s k) hup hq (act_unnamed h), fun h => ignores_onDie (exec_lwrite s k) hup hq (act_unnamed h),
    fun h => ignores_onDie (exec_emit s k) hup hq (act_unnamed h), fun h => ignores_onDie (exec_hold s k imgs) hup hq (act_unnamed h),
    fun h => ignores_onDie (exec_fill s k) hup hq (act_unnamed h), fun h => ignores_onDie (exec_mgmt s k) hup hq (act_unnamed h)⟩

/-! #### Management traffic (R183) -/

theorem mgmt_waits (h : Reached s k actMgmt [] w e m g a) : Gives (.mgmt k) s (fun t => t = due s k e) :=
  gives_onDie (exec_mgmt s k) h.up (act_go h rfl) (quiet_due h.quiet k e) rfl rfl

/-! #### Preludes (R126) -/

/-- The state of a core whose prelude begins. -/
theorem startPrelude_begins {n i cls ticks : Nat} {x : FnSt} (hx : fnSt s n = x) {set : ProgSet} {cl : ProgClass} {p : Prog}
    (hm : x.manifest = some m) (hset : x.progs = some set) (hp : classProg set cls = some (cl, p)) :
    startPrelude s n i cls ticks none = beginRun s i
      (runSram (coreSt s i).sram (paramBlock set cl) (zeros 1024) (runContext x m cls 0 none)) [] (mkRun s n cls p true ticks) := by
  subst hx
  unfold startPrelude
  dsimp only
  rw [hm, hset]
  dsimp only
  rw [hp]
  rfl

theorem quiet_beginRun (h : Quiet s) (i : Nat) (sram : Mem) (lanes : List Src) (r : CoreRun) : Quiet (beginRun s i sram lanes r) :=
  quiet_of_same h rfl rfl rfl rfl rfl

theorem coreSt_beginRun_same (s : State) (i : Nat) (sram : Mem) (lanes : List Src) (r : CoreRun) :
    coreSt (beginRun s i sram lanes r) i = { leaf := (coreSt s i).leaf, sram := sram, lanes := lanes, run := some r } := coreSt_setCore_same ..

theorem coreSt_beginRun_other (s : State) {i j : Nat} (sram : Mem) (lanes : List Src) (r : CoreRun) (hne : j ≠ i) :
    coreSt (beginRun s i sram lanes r) j = coreSt s j := coreSt_setCore_other _ _ hne

theorem runBegun_beginRun {t : State} {sram : Mem} {lanes : List Src} {r : CoreRun} {pre : Bool} {ticks : Nat} (hfn : r.fn = a.n)
    (hpre : r.prelude = pre) (hstart : r.start = t.ticks) (hend : r.windowEnd = t.ticks + ticks) (hhalt : r.halted = false)
    (hcores : ∀ i, coreSt t i = coreSt s i) : RunBegun s (beginRun t a.ix sram lanes r) a pre r.pc ticks := by
  have hcore := coreSt_beginRun_same t a.ix sram lanes r
  exact ⟨r, by rw [hcore], hfn, hpre, rfl, hstart, hend, hhalt, by rw [hcore], by rw [hcore],
    fun i hi => (coreSt_beginRun_other t sram lanes r hi).trans (hcores i)⟩

theorem prelude_begins (h : Reached s k actPrelude [] w e m g a) {set : ProgSet} {cl : ProgClass} {p : Prog}
    (hset : (fnSt s k.fn).progs = some set) (hp : classProg set a.j = some (cl, p)) (hentry : p.preludeEntry ≠ 0xFFFF)
    (hfree : coreFree s a.ix = true) : Gives (.prelude k) s (fun t => RunBegun s t a true (p.first + p.preludeEntry) (32 * e.length) ∧
      t.ticks = (due s k e).ticks ∧ t.fns = s.fns) := by
  obtain ⟨hn, -, -⟩ := member_of_reached h
  have hx : fnSt (due s k e) a.n = fnSt s k.fn := by rw [fnSt_due, hn]
  have hwork := startPrelude_begins (i := a.ix) (ticks := 32 * e.length) hx h.manifest hset hp
  have hfree' : coreFree (due s k e) a.ix = true := by rw [due_eq, coreFree_advance, hfree]
  refine gives_onDie (exec_prelude s k) h.up ((act_go h ?_).trans hwork) (quiet_beginRun (quiet_due h.quiet k e) ..) rfl ⟨?_, rfl, rfl⟩
  · rw [hx, hset, Option.bind_some, hp]
    dsimp only
    rw [if_neg hentry, hfree']
    rfl
  · exact runBegun_beginRun rfl rfl rfl rfl rfl (fun i => rfl)

end

/-! #### The record of a row's work -/

section
variable {s t u : State} {k : ActAt} {imgs : RowSet} {w : WheelImage} {e : WheelEntry} {m : Manifest} {g : GroupEntry} {a : ActOn}

theorem work_key (a : ActOn) (x : FnSt) (area : Nat) :
    (a.work x area).member = a.m ∧ (a.work x area).area = area ∧ (a.work x area).row = a.j := by
  unfold ActOn.work
  cases hw : workAt x a.m area a.j with
  | none => exact ⟨rfl, rfl, rfl⟩
  | some v => exact workAt_key hw

/-- A row of which something is recorded done has a record. -/
theorem workAt_of_loaded {x : FnSt} {area : Nat} (h : (a.work x area).loaded = true) : workAt x a.m area a.j = some (a.work x area) := by
  unfold ActOn.work at h ⊢
  cases hw : workAt x a.m area a.j with
  | none => rw [hw] at h; cases h
  | some v => rfl

theorem noted_of_fn {area : Nat} {v : RowWork} (h : fnSt u a.n = fnSt t a.n) (hv : Noted t a area v) : Noted u a area v := by
  unfold Noted
  rw [h]
  exact hv

theorem noted_putWork {area : Nat} {v : RowWork} (hv : v.member = a.m ∧ v.area = area ∧ v.row = a.j) (hfree : (fnSt t a.n).hold = none) :
    Noted (putWork t a.n v) a area v := by
  obtain ⟨hm, ha, hr⟩ := hv
  refine ⟨workAt_putWork t a.n hm ha hr, ?_⟩
  rw [putWork, fnSt_modFn_same]
  exact hfree

theorem free_of_reached {code : Nat} (h : Reached s k code imgs w e m g a) : (fnSt (due s k e) a.n).hold = none := by
  rw [fnSt_due, (member_of_reached h).1]
  exact h.free

theorem fnSt_of_reached {code : Nat} (h : Reached s k code imgs w e m g a) : fnSt (due s k e) a.n = fnSt s k.fn := by
  rw [fnSt_due, (member_of_reached h).1]

/-! #### Leaves in a core's SRAM -/

theorem quiet_takeLeaf (h : Quiet s) (a : ActOn) (area at_ : Nat) (bs : List Byte) : Quiet (takeLeaf s a area at_ bs) :=
  quiet_of_same h rfl rfl rfl rfl rfl

theorem fnSt_takeLeaf (s : State) (a : ActOn) (area at_ : Nat) (bs : List Byte) (n : Nat) : fnSt (takeLeaf s a area at_ bs) n = fnSt s n := rfl

theorem coreSt_takeLeaf (s : State) (a : ActOn) (area at_ : Nat) (bs : List Byte) : coreSt (takeLeaf s a area at_ bs) a.ix =
    { coreSt s a.ix with leaf := some (a.n, area, a.m, a.j), sram := memWriteN (coreSt s a.ix).sram at_ bs } := coreSt_setCore_same ..

theorem coreSt_putWork (s : State) (n i : Nat) (v : RowWork) : coreSt (putWork s n v) i = coreSt s i := rfl

/-- The place of a leaf in frame A, B or the stripe frame reads back what was brought there. -/
theorem frame_takeLeaf (s : State) (a : ActOn) (area at_ : Nat) {bs : List Byte} {len : Nat} (hlen : bs.length = len) :
    memReadN (coreSt (takeLeaf s a area at_ bs) a.ix).sram at_ len = bs := by
  rw [coreSt_takeLeaf, ← hlen]
  exact memReadN_writeN ..

/-! #### Rounding the accumulators out (R106) -/

theorem lt_two_pow_bitlen (a : Nat) : a < 2 ^ bitlen a := by
  unfold bitlen
  split
  · next h => rw [h]; decide
  · exact Nat.lt_log2_self

/-- A magnitude cut to 24 bits by a division or a shift, the last bit rounded. -/
theorem rounded_le {a len : Nat} {drop : Int} (ha : a < 2 ^ len) (hdrop : (len : Int) - 24 ≤ drop) :
    (if drop ≤ 0 then a * 2 ^ (-drop).toNat
    else
      if 2 ^ (drop.toNat - 1) < a % 2 ^ drop.toNat ∨ (a % 2 ^ drop.toNat = 2 ^ (drop.toNat - 1) ∧ a / 2 ^ drop.toNat % 2 = 1)
        then a / 2 ^ drop.toNat + 1 else a / 2 ^ drop.toNat) ≤ 2 ^ 24 := by
  split
  · calc a * 2 ^ (-drop).toNat ≤ 2 ^ len * 2 ^ (-drop).toNat := Nat.mul_le_mul_right _ ha.le
      _ = 2 ^ (len + (-drop).toNat) := (Nat.pow_add ..).symm
      _ ≤ 2 ^ 24 := Nat.pow_le_pow_right (by decide) (by omega)
  · have hq : a / 2 ^ drop.toNat < 2 ^ 24 := by
      rw [Nat.div_lt_iff_lt_mul (Nat.two_pow_pos _), ← Nat.pow_add]
      exact ha.trans_le (Nat.pow_le_pow_right (by decide) (by omega))
    split <;> omega

theorem fp32OfFx96_lt (v top : Int) : (fp32OfFx96 v top).1 < 2 ^ 32 := by
  unfold fp32OfFx96
  split
  · decide
  · extract_lets sign mag lead ulp drop d q rest half m ulp' m'
    have hsign : sign ≤ 2 ^ 31 := by
      simp only [sign]
      split <;> decide
    have hm : m ≤ 2 ^ 24 := rounded_le (lt_two_pow_bitlen mag) (by omega)
    have hm' : m' < 2 ^ 24 := by
      simp only [m']
      split <;> omega
    split
    · omega
    · split
      · change sign + 0x7F800000 < 2 ^ 32
        omega
      · change sign + (ulp' + 23 + 127).toNat * 2 ^ 23 + (m' - 2 ^ 23) < 2 ^ 32
        have hexp : (ulp' + 23 + 127).toNat ≤ 254 := by omega
        omega

theorem length_flatten_leBytes (n : Nat) (l : List Nat) : ((l.map (leBytes n)).flatten).length = n * l.length := by
  induction l with
  | nil => rfl
  | cons v l ih =>
    rw [List.map_cons, List.flatten_cons, List.length_append, ih, length_leBytes, List.length_cons]
    ring

theorem field_flatten_leBytes (n : Nat) : ∀ (l : List Nat) (i : Nat), i < l.length →
    field ((l.map (leBytes n)).flatten) (n * i) n = l.getD i 0 % 256 ^ n
  | [], i, h => absurd h (Nat.not_lt_zero i)
  | v :: l, 0, _ => by
    rw [List.map_cons, List.flatten_cons, Nat.mul_zero, field_append_left (by rw [length_leBytes]; omega), field_leBytes]
    rfl
  | v :: l, i + 1, h => by
    have hi : i < l.length := Nat.lt_of_succ_lt_succ h
    rw [List.map_cons, List.flatten_cons, field_append_right (by rw [length_leBytes, Nat.mul_succ]; omega), length_leBytes,
      Nat.mul_succ, Nat.add_sub_cancel, field_flatten_leBytes n l i hi]
    rfl

theorem quiet_setFnF (h : Quiet s) (n : Nat) (f : Fld) (v : Nat) : Quiet (setFnF s n f v) :=
  quiet_of_same h (setF_agenda ..) (setF_loadWaits ..) (switching_setF_fn ..) (setF_nvm ..) (setF_fns ..)

end

/-! #### READOUT (R106) -/

section
variable {s : State} {k : ActAt} {imgs : RowSet} {w : WheelImage} {e : WheelEntry} {m : Manifest} {g : GroupEntry} {a : ActOn}

/-- The die once a readout holds for its bucket's seal. -/
def stalled (s : State) (n : Nat) (h : HoldState) : State :=
  setFnF (setFnF (setFnF (modFn s n (fun x => { x with hold := some h })) n FN_WHEEL_STATUS_HELD 1) n FN_INTAKE_STATUS_STALLED 1) n
    FN_INTAKE_STATUS_STALL_BUCKET h.detail

theorem holdStart_stalled {n b slice core sched position : Nat} {entry : Option Nat} (hfree : (fnSt s n).hold = none) :
    holdStart s n 1 b slice core sched position entry = stalled s n ⟨1, b, slice, core, sched, s.counter, position, entry⟩ := by
  unfold holdStart
  rw [hfree]
  rfl

theorem quiet_stalled (h : Quiet s) (n : Nat) (o : HoldState) : Quiet (stalled s n o) := by
  have hheld : Quiet (modFn s n (fun x => { x with hold := some o })) := quiet_modFn h n _ (fun _ => rfl) (fun _ => rfl)
  exact quiet_setFnF (quiet_setFnF (quiet_setFnF hheld n _ 1) n _ 1) n _ _

theorem fnSt_stalled (s : State) (n : Nat) (o : HoldState) : fnSt (stalled s n o) n = { fnSt s n with hold := some o } := by
  simp only [stalled, setFnF, fnSt, setF_fns]
  exact fnSt_modFn_same s n _

theorem fnF_stalled (s : State) (n : Nat) (o : HoldState) :
    fnF (stalled s n o) n FN_WHEEL_STATUS_HELD = 1 ∧ fnF (stalled s n o) n FN_INTAKE_STATUS_STALLED = 1 := by
  unfold stalled fnF setFnF
  constructor
  · rw [getF_setF_other _ _ (by simp [FN_WHEEL_STATUS_HELD, FN_INTAKE_STATUS_STALL_BUCKET]),
      getF_setF_other _ _ (by simp [FN_WHEEL_STATUS_HELD, FN_INTAKE_STATUS_STALLED]), getF_setF_same _ _ _ _ (by decide) (by decide)]
    rfl
  · rw [getF_setF_disjoint _ _ _ (by decide) (by decide) (by decide) (by decide), getF_setF_same _ _ _ _ (by decide) (by decide)]
    rfl

theorem ticks_stalled (s : State) (n : Nat) (o : HoldState) : (stalled s n o).ticks = s.ticks := by
  simp only [stalled, setFnF, setF_ticks]
  rfl

theorem counter_stalled (s : State) (n : Nat) (o : HoldState) : (stalled s n o).counter = s.counter := by
  simp only [stalled, setFnF, setF_counter]
  rfl

theorem accs_stalled (s : State) (n : Nat) (o : HoldState) : (stalled s n o).accs = s.accs := by
  simp only [stalled, setFnF, setF_accs]
  rfl

theorem pending_stalled (s : State) (n : Nat) (o : HoldState) : (stalled s n o).pending = s.pending := by
  simp only [stalled, setFnF, setF_pending]
  rfl

theorem readout_holds (h : Reached s k actReadout [] w e m g a) (hleaf : (a.leaf (fnSt s k.fn) 1).isSome = true)
    (hnew : (a.work (fnSt s k.fn) 1).loaded = false) {b : Nat} {q : IntakeEntry} (hbucket : rowBucket (fnSt s k.fn) a.j = some (b, q))
    (hopen : sealFired s q.bucketSeal = false) : Gives (.readout k) s (fun t =>
      (fnSt t k.fn).hold = some ⟨1, b, e.slice, e.core, e.sched, t.counter, e.slot, some k.entry⟩ ∧ t.ticks = (due s k e).ticks ∧
      t.accs = s.accs ∧ fnF t k.fn FN_WHEEL_STATUS_HELD = 1 ∧ fnF t k.fn FN_INTAKE_STATUS_STALLED = 1) := by
  have hcond : condReadout (due s k e) a = .wait 1 b := by
    unfold condReadout
    rw [fnSt_of_reached h]
    dsimp only
    rw [Option.isNone_eq_false_iff.mpr hleaf, hnew, hbucket]
    dsimp only
    rw [due_eq, sealFired_advance, hopen]
    rfl
  have hfree : (fnSt (due s k e) k.fn).hold = none := by rw [fnSt_due]; exact h.free
  refine gives_onDie (exec_readout s k) h.up ((act_wait h hcond).trans (holdStart_stalled hfree)) (quiet_stalled (quiet_due h.quiet k e) ..)
    (pending_stalled ..) ⟨?_, ticks_stalled .., (accs_stalled ..).trans rfl, fnF_stalled ..⟩
  rw [fnSt_stalled, counter_stalled]
  rfl

/-- A row whose bucket is sealed, or that is in none. -/
theorem condReadout_due (h : Reached s k actReadout [] w e m g a) (hleaf : (a.leaf (fnSt s k.fn) 1).isSome = true)
    (hnew : (a.work (fnSt s k.fn) 1).loaded = false)
    (hsealed : ∀ b q, rowBucket (fnSt s k.fn) a.j = some (b, q) → sealFired s q.bucketSeal = true)
    (hroom : accHeld s k.fn a.j = false ∨ coreFree s a.ix = true) : condReadout (due s k e) a = .go := by
  unfold condReadout
  rw [fnSt_of_reached h, (member_of_reached h).1]
  dsimp only
  rw [Option.isNone_eq_false_iff.mpr hleaf, hnew]
  cases hb : rowBucket (fnSt s k.fn) a.j with
  | none => rfl
  | some v =>
    obtain ⟨b, q⟩ := v
    have hnot : (accHeld s k.fn a.j && !coreFree s a.ix) = false := by
      rcases hroom with hr | hr <;> simp [hr]
    dsimp only
    rw [due_eq, sealFired_advance, hsealed b q hb, accHeld_advance, coreFree_advance, hnot]
    rfl

theorem readout_null (h : Reached s k actReadout [] w e m g a) (hleaf : (a.leaf (fnSt s k.fn) 1).isSome = true)
    (hnew : (a.work (fnSt s k.fn) 1).loaded = false)
    (hsealed : ∀ b q, rowBucket (fnSt s k.fn) a.j = some (b, q) → sealFired s q.bucketSeal = true)
    (hnone : accHeld s k.fn a.j = false) : Gives (.readout k) s (fun t => t = { due s k e with fns := t.fns } ∧
      Noted t a 1 { a.work (fnSt s k.fn) 1 with isNull := true, loaded := true }) := by
  have hacc : (due s k e).accs.find? (fun z => decide (z.fn = a.n) && decide (z.row = a.j)) = none := by
    rw [(member_of_reached h).1, List.find?_eq_none]
    exact fun z hz => List.any_eq_false.mp hnone z hz
  have hwork : readoutWork (due s k e) a = putWork (due s k e) a.n { a.work (fnSt s k.fn) 1 with isNull := true, loaded := true } := by
    unfold readoutWork readout
    rw [fnSt_of_reached h, hacc]
  refine gives_onDie (exec_readout s k) h.up ((act_go h (condReadout_due h hleaf hnew hsealed (.inl hnone))).trans hwork)
    (quiet_putWork (quiet_due h.quiet k e) ..) rfl ⟨rfl, noted_putWork ?_ (free_of_reached h)⟩
  exact work_key a (fnSt s k.fn) 1

end

section
variable {s : State} {k : ActAt} {imgs : RowSet} {w : WheelImage} {e : WheelEntry} {m : Manifest} {g : GroupEntry} {a : ActOn}

/-- The values of an accumulator row, each rounded once at the bucket's window. -/
def roundedOut (c : LeafAcc) (top : Int) : List (Nat × Bool) := (List.range 16320).map (fun i => fp32OfFx96 (signed 96 (tabGet 0 c.vals i)) top)

/-- The bytes that a readout brings into the frame. -/
def readoutBytes (c : LeafAcc) (top : Int) : List Byte := (((roundedOut c top).map Prod.fst).map (leBytes 4)).flatten

/-- The function's share of the norm with a readout's squares added. -/
def normAdded (v : Nat) (bad : Bool) (x : FnSt) : FnSt := { x with
  partNorm2 := (x.partNorm2 + v) % 2 ^ 640, partNonfinite := x.partNonfinite || bad }

/-- The die once a row's accumulators are taken out, their squares summing to `v`. -/
def readRow (s : State) (n : Nat) (c : LeafAcc) (v : Nat) (bad : Bool) : State :=
  showLines { modFn s n (normAdded v bad) with accs := s.accs.erase c } c.slice

/-- The sum of the squares of the values that a readout rounds out, and whether one is not finite. -/
def squaresOf (c : LeafAcc) (top : Int) : Nat := (roundedOut c top).foldl (fun acc o => acc + squareTerm o.1) 0
def badOf (c : LeafAcc) (top : Int) : Bool := (roundedOut c top).any (fun o => o.2)

theorem readout_eq {n row : Nat} {c : LeafAcc} (top : Int) (h : s.accs.find? (fun z => decide (z.fn = n) && decide (z.row = row)) = some c) :
    readout s n row top = some (readRow s n c (squaresOf c top) (badOf c top), (roundedOut c top).map Prod.fst) := by
  unfold readout
  rw [h]
  rfl

theorem length_readoutBytes (c : LeafAcc) (top : Int) : (readoutBytes c top).length = 65280 := by
  rw [readoutBytes, length_flatten_leBytes, List.length_map, roundedOut, List.length_map, List.length_range]

theorem field_readoutBytes (c : LeafAcc) (top : Int) {i : Nat} (hi : i < 16320) :
    field (readoutBytes c top) (4 * i) 4 = (fp32OfFx96 (signed 96 (tabGet 0 c.vals i)) top).1 := by
  have hget : ((roundedOut c top).map Prod.fst).getD i 0 = (fp32OfFx96 (signed 96 (tabGet 0 c.vals i)) top).1 := by
    rw [roundedOut, List.map_map, List.getD_eq_getElem?_getD, List.getElem?_map, List.getElem?_range hi]
    rfl
  rw [readoutBytes, field_flatten_leBytes 4 _ i (by rw [List.length_map, roundedOut, List.length_map, List.length_range]; exact hi), hget]
  exact Nat.mod_eq_of_lt (fp32OfFx96_lt ..)

theorem quiet_accs (h : Quiet s) (l : List LeafAcc) : Quiet { s with accs := l } := quiet_of_same h rfl rfl rfl rfl rfl

theorem quiet_showLines (h : Quiet s) (sl : Nat) : Quiet (showLines s sl) := quiet_setF_slice h sl _ _

theorem quiet_readRow (h : Quiet s) (n : Nat) (c : LeafAcc) (v : Nat) (bad : Bool) : Quiet (readRow s n c v bad) :=
  quiet_showLines (quiet_accs (quiet_modFn h n (normAdded v bad) (fun _ => rfl) (fun _ => rfl)) _) _

theorem fnSt_readRow (s : State) (n : Nat) (c : LeafAcc) (v : Nat) (bad : Bool) : fnSt (readRow s n c v bad) n = normAdded v bad (fnSt s n) := by
  rw [← fnSt_modFn_same s n (normAdded v bad)]
  simp only [readRow, showLines, fnSt, setF_fns]

theorem hold_normAdded (v : Nat) (bad : Bool) (x : FnSt) : (normAdded v bad x).hold = x.hold := rfl

theorem accs_readRow (s : State) (n : Nat) (c : LeafAcc) (v : Nat) (bad : Bool) : (readRow s n c v bad).accs = s.accs.erase c := by
  simp only [readRow, showLines, setF_accs]

theorem pending_readRow (s : State) (n : Nat) (c : LeafAcc) (v : Nat) (bad : Bool) : (readRow s n c v bad).pending = s.pending := by
  simp only [readRow, showLines, setF_pending]
  rfl

theorem pending_of_putTake (s : State) (a : ActOn) (area at_ : Nat) (bs : List Byte) (n : Nat) (v : RowWork) :
    (putWork (takeLeaf s a area at_ bs) n v).pending = s.pending := rfl

theorem accs_of_putTake (s : State) (a : ActOn) (area at_ : Nat) (bs : List Byte) (n : Nat) (v : RowWork) :
    (putWork (takeLeaf s a area at_ bs) n v).accs = s.accs := rfl

theorem readout_rounds (h : Reached s k actReadout [] w e m g a) (hleaf : (a.leaf (fnSt s k.fn) 1).isSome = true)
    (hnew : (a.work (fnSt s k.fn) 1).loaded = false) {b : Nat} {q : IntakeEntry} {c : LeafAcc}
    (hbucket : rowBucket (fnSt s k.fn) a.j = some (b, q)) (hsealed : sealFired s q.bucketSeal = true) (hfree : coreFree s a.ix = true)
    (hacc : s.accs.find? (fun z => decide (z.fn = k.fn.val) && decide (z.row = a.j)) = some c) : Gives (.readout k) s (fun t =>
      Noted t a 1 { a.work (fnSt s k.fn) 1 with loaded := true } ∧ t.accs = s.accs.erase c ∧
      (coreSt t a.ix).leaf = some (k.fn.val, 1, a.m, a.j) ∧
      ∀ i, i < 16320 → field (memReadN (coreSt t a.ix).sram 0x10100 65280) (4 * i) 4 =
        (fp32OfFx96 (signed 96 (tabGet 0 c.vals i)) ((bucketTop (fnSt s k.fn) b q).getD q.windowTop)).1) := by
  generalize htop : (bucketTop (fnSt s k.fn) b q).getD q.windowTop = top
  obtain ⟨hn, -, -⟩ := member_of_reached h
  have hgo : condReadout (due s k e) a = .go := condReadout_due h hleaf hnew (fun b' q' hb => by
    rw [hbucket] at hb
    cases hb
    exact hsealed) (.inr hfree)
  have hwork : readoutWork (due s k e) a =
      putWork (takeLeaf (readRow (due s k e) a.n c (squaresOf c top) (badOf c top)) a 1 0x10100
        (readoutBytes c top)) a.n { a.work (fnSt s k.fn) 1 with loaded := true } := by
    unfold readoutWork
    rw [fnSt_of_reached h]
    dsimp only
    rw [hbucket]
    dsimp only
    rw [htop, readout_eq (c := c) _ (by rw [hn]; exact hacc)]
    rfl
  refine gives_onDie (exec_readout s k) h.up ((act_go h hgo).trans hwork)
    (quiet_putWork (quiet_takeLeaf (quiet_readRow (quiet_due h.quiet k e) _ _ _ _) _ _ _ _) _ _) ((pending_of_putTake ..).trans (pending_readRow ..))
    ⟨noted_putWork (work_key a (fnSt s k.fn) 1) ?_, (accs_of_putTake ..).trans (accs_readRow ..), ?_, fun i hi => ?_⟩
  · rw [fnSt_takeLeaf, fnSt_readRow, hold_normAdded]
    exact free_of_reached h
  · rw [coreSt_putWork, coreSt_takeLeaf, hn]
  · rw [coreSt_putWork, frame_takeLeaf _ _ _ _ (length_readoutBytes ..), field_readoutBytes _ _ hi]

end

/-! #### Sealed slots -/

theorem length_sealPostmark {slot : List Byte} (h : slot.length = 65536) : (sealPostmark slot).length = 65536 :=
  (length_setField _ (by omega)).trans h

theorem stamp_sealPostmark {slot : List Byte} (h : slot.length = 65536) : pmStamp (sealPostmark slot) = pmStamp slot :=
  field_setField_before _ (by omega) (by omega)

theorem slotBody_sealPostmark {slot : List Byte} (h : slot.length = 65536) : slotBody (sealPostmark slot) = slotBody slot := by
  unfold slotBody sealPostmark
  rw [setField_eq _ (by omega), List.drop_append, List.drop_of_length_le (by simp), List.nil_append, List.drop_drop]
  simp [h]

theorem fit_self {n : Nat} {bs : List Byte} (h : bs.length = n) : fit n bs = bs := by
  rw [fit, List.take_left' h]

/-! #### GCOMMIT (R125) -/

/-- The first 256 bytes of a leaf's slot, before they are sealed. -/
def leafHead (g : GroupEntry) (member row : Nat) (l : LeafRef) (k : LeafMark) (body : List Byte) : List Byte :=
  leBytes 1 l.kindCode ++ leBytes 1 l.code ++ [1] ++ leBytes 1 (b2n l.binding.s24 + k.flags) ++
    leBytes 4 l.elemCount ++ leBytes 4 row ++ leBytes 4 l.binding.tensor ++ leBytes 8 l.elemOffset ++
    leBytes 8 k.stamp ++ leBytes 8 k.touched ++ leBytes 4 k.epoch ++ leBytes 2 g.group ++ leBytes 1 member ++
    leBytes 1 (g.k * 16 + g.r) ++ leBytes 4 l.index ++ leBytes 4 l.binding.tensor ++ leBytes 8 (crc64 (fit 65280 body)) ++
    leBytes 8 k.chain ++ fit 40 k.ext ++ zeros 144

theorem mkLeaf_eq (g : GroupEntry) (member row : Nat) (l : LeafRef) (k : LeafMark) (body : List Byte) :
    mkLeaf g member row l k body = sealPostmark (leafHead g member row l k body ++ fit 65280 body) := rfl

section
variable {g : GroupEntry} {member row : Nat} {l : LeafRef} {k : LeafMark} {body : List Byte}

theorem length_leafHead : (leafHead g member row l k body).length = 256 := by
  unfold leafHead
  generalize crc64 (fit 65280 body) = digest
  simp [length_fit]

theorem length_leaf : (leafHead g member row l k body ++ fit 65280 body).length = 65536 := by
  rw [List.length_append, length_leafHead, length_fit]

theorem stamp_leafHead : pmStamp (leafHead g member row l k body) = k.stamp % 2 ^ 64 := by
  have hfront : (leBytes 1 l.kindCode ++ leBytes 1 l.code ++ [1] ++ leBytes 1 (b2n l.binding.s24 + k.flags) ++ leBytes 4 l.elemCount ++
      leBytes 4 row ++ leBytes 4 l.binding.tensor ++ leBytes 8 l.elemOffset).length = 24 := by simp
  unfold pmStamp leafHead
  simp (disch := simp [length_fit]) only [field_append_left, field_append_right]
  rw [hfront]
  exact field_leBytes 8 _

theorem stamp_mkLeaf : pmStamp (mkLeaf g member row l k body) = k.stamp % 2 ^ 64 := by
  rw [mkLeaf_eq, stamp_sealPostmark length_leaf, pmStamp, field_append_left (by rw [length_leafHead]; omega), ← pmStamp, stamp_leafHead]

theorem slotBody_mkLeaf (h : body.length = 65280) : slotBody (mkLeaf g member row l k body) = body := by
  rw [mkLeaf_eq, slotBody_sealPostmark length_leaf, fit_self h, slotBody, List.drop_left' length_leafHead, List.take_of_length_le h.le]

theorem length_mkLeaf : (mkLeaf g member row l k body).length = 65536 := length_sealPostmark length_leaf

end

section
variable {s : State} {k : ActAt} {imgs : RowSet} {w : WheelImage} {e : WheelEntry} {m : Manifest} {g : GroupEntry} {a : ActOn}

theorem length_frameB (s : State) (sl c : Nat) : (frameB s sl c).length = 65280 := length_memReadN ..

/-- What the postmark of a committed gradient leaf says of its history. -/
def commitMark (s : State) (a : ActOn) : LeafMark := ⟨0, (fnSt s a.n).step, (fnSt s a.n).step, (fnSt s a.n).epoch,
  chainLink (pmChain (heldSlot s a.n a.m 1 (landGen (fnSt s a.n)) a.j)) (crc64 (frameB s a.sl a.core)) (fnSt s a.n).step, zeros 40⟩

theorem stamp_commitMark (s : State) (a : ActOn) : (commitMark s a).stamp = (fnSt s a.n).step := rfl

theorem gcommit_commits (h : Reached s k actGcommit [] w e m g a) (hleaf : (a.leaf (fnSt s k.fn) 1).isSome = true)
    (hread : (a.work (fnSt s k.fn) 1).loaded = true) (htouched : (a.work (fnSt s k.fn) 1).isNull = false)
    (hnew : (a.work (fnSt s k.fn) 1).committed = false) : Gives (.gcommit k) s (fun t => t = { due s k e with fns := t.fns, cores := t.cores } ∧
      Noted t a 1 { a.work (fnSt s k.fn) 1 with committed := true, core := a.core } ∧ (coreSt t a.ix).leaf = some (k.fn.val, 1, a.m, a.j) ∧
      pmStamp (memReadN (coreSt t a.ix).sram 0x10000 65536) = (fnSt s k.fn).step % 2 ^ 64 ∧
      slotBody (memReadN (coreSt t a.ix).sram 0x10000 65536) = frameB s a.sl a.core) := by
  obtain ⟨hn, -, -⟩ := member_of_reached h
  obtain ⟨l, hl⟩ := Option.isSome_iff_exists.mp hleaf
  have hgo : condGcommit (due s k e) a = .go := by
    unfold condGcommit
    rw [fnSt_of_reached h]
    dsimp only
    rw [hl, hread, htouched, hnew]
    rfl
  have hwork : gcommitWork (due s k e) a = putWork (takeLeaf (due s k e) a 1 0x10000 (mkLeaf g a.m a.j l (commitMark s a) (frameB s a.sl a.core))) a.n
      { a.work (fnSt s k.fn) 1 with committed := true, core := a.core } := by
    unfold gcommitWork
    rw [fnSt_of_reached h]
    dsimp only
    rw [hl, h.group, commitMark, hn]
    rfl
  have hframe := frame_takeLeaf (due s k e) a 1 0x10000 (length_mkLeaf (g := g) (member := a.m) (row := a.j) (l := l) (k := commitMark s a)
    (body := frameB s a.sl a.core))
  refine gives_onDie (exec_gcommit s k) h.up ((act_go h hgo).trans hwork) (quiet_putWork (quiet_takeLeaf (quiet_due h.quiet k e) ..) ..) rfl
    ⟨rfl, noted_putWork ?_ ?_, ?_, ?_, ?_⟩
  · exact work_key a (fnSt s k.fn) 1
  · rw [fnSt_takeLeaf]
    exact free_of_reached h
  · rw [coreSt_putWork, coreSt_takeLeaf, hn]
  · rw [coreSt_putWork, hframe, stamp_mkLeaf, stamp_commitMark, hn]
  · rw [coreSt_putWork, hframe, slotBody_mkLeaf (length_frameB ..)]

end

/-! #### Bytes below a write -/

theorem memReadN_writeN_above (mem : Mem) {a n b : Nat} (bs : List Byte) (h : a + n ≤ b) : memReadN (memWriteN mem b bs) a n = memReadN mem a n := by
  have hbelow : (mem.filter (fun c => decide (c.1 < b))).filter (fun c => decide (a ≤ c.1) && decide (c.1 < a + n)) =
      mem.filter (fun c => decide (a ≤ c.1) && decide (c.1 < a + n)) := by
    rw [List.filter_filter]
    refine List.filter_congr (fun c _ => ?_)
    rw [Bool.eq_iff_iff]
    simp only [Bool.and_eq_true, decide_eq_true_eq]
    omega
  have hcells : (cellsOf b bs).filter (fun c => decide (a ≤ c.1) && decide (c.1 < a + n)) = [] := by
    rw [List.filter_eq_nil_iff]
    intro c hc
    have hge := tabAbove_mem (cellsOf_above bs b) c hc
    simp only [Bool.and_eq_true, decide_eq_true_eq, not_and]
    omega
  have habove : (mem.filter (fun c => decide (b + bs.length ≤ c.1))).filter (fun c => decide (a ≤ c.1) && decide (c.1 < a + n)) = [] := by
    rw [List.filter_filter, List.filter_eq_nil_iff]
    intro c _
    simp only [Bool.and_eq_true, decide_eq_true_eq, not_and]
    omega
  rw [memReadN, memWriteN, List.filter_append, List.filter_append, hbelow, hcells, habove, List.append_nil, List.append_nil, memReadN]

theorem memReadN_zero_above (mem : Mem) {a n b : Nat} (len : Nat) (h : a + n ≤ b) : memReadN (memZero mem b len) a n = memReadN mem a n := by
  have hfilter : (memZero mem b len).filter (fun c => decide (a ≤ c.1) && decide (c.1 < a + n)) =
      mem.filter (fun c => decide (a ≤ c.1) && decide (c.1 < a + n)) := by
    rw [memZero, List.filter_filter]
    refine List.filter_congr (fun c _ => ?_)
    rw [Bool.eq_iff_iff]
    simp only [Bool.and_eq_true, Bool.or_eq_true, decide_eq_true_eq]
    omega
  rw [memReadN, hfilter, memReadN]

/-! #### LREAD (R83, R93) -/

section
variable {s : State} {k : ActAt} {imgs : RowSet} {w : WheelImage} {e : WheelEntry} {m : Manifest} {g : GroupEntry} {a : ActOn} {x : FnSt}

theorem length_heldSlot (s : State) (n mem area gen j : Nat) : (heldSlot s n mem area gen j).length = 65536 := by
  unfold heldSlot slotRead
  split
  · split
    · exact length_zeros _
    · exact length_memReadN ..
  · exact length_memReadN ..

/-- A slot of this die that is neither erased nor to be rebuilt: nothing is decoded for it. -/
structure Settled (s : State) (x : FnSt) (a : ActOn) (area gen j : Nat) : Prop where
  held : heldHere x a.m j = true
  good : slotErased x.epoch area false (heldSlot s a.n a.m area gen j) = false
  built : unrebuiltAt x area gen j = []

theorem settle_settled {area gen j : Nat} (hx : fnSt s a.n = x) (h : Settled s x a area gen j) : a.settle s area gen j false = s := by
  unfold ActOn.settle
  rw [hx]
  dsimp only
  rw [h.good, h.built]
  simp

theorem slot_settled {area gen j : Nat} (hx : fnSt s a.n = x) (h : Settled s x a area gen j) :
    a.slot s area gen j = heldSlot s a.n a.m area gen j := by
  unfold ActOn.slot
  rw [hx]
  dsimp only
  rw [if_pos h.held]

theorem settle_rows {gen : Nat} (hx : fnSt s a.n = x) (l : List (Nat × Nat)) (h : ∀ o ∈ l, Settled s x a 1 gen o.2) :
    l.foldl (fun s q => a.settle s 1 gen q.2 false) s = s := by
  induction l with
  | nil => rfl
  | cons o l ih =>
    rw [List.foldl_cons, settle_settled hx (h o (List.mem_cons_self ..))]
    exact ih (fun q hq => h q (List.mem_cons_of_mem _ hq))

/-- The record of a leaf that an LREAD has read. -/
def leafRead (a : ActOn) (x : FnSt) : RowWork := { a.work x 0 with loaded := true, slice := a.sl, core := a.core }

theorem leafRead_key (a : ActOn) (x : FnSt) : (leafRead a x).member = a.m ∧ (leafRead a x).area = 0 ∧ (leafRead a x).row = a.j := work_key a x 0

/-- What an LREAD finds on a die of its own: the leaf `l` is bound to the row, and its slot stands and is a leaf. -/
structure Readable (s : State) (x : FnSt) (a : ActOn) (m : Manifest) (l : LeafRef) (slot : List Byte) : Prop where
  record : fnSt s a.n = x
  manifest : x.manifest = some m
  leaf : a.leaf x 0 = some l
  slot_eq : heldSlot s a.n a.m 0 0 a.j = slot
  settled : Settled s x a 0 0 a.j
  kind : pmKind slot = 1

theorem lreadWork_settled {l : LeafRef} {slot : List Byte} (h : Readable s x a m l slot) (hstamp : pmStamp slot = x.step) :
    lreadWork s a false = putWork (takeLeaf s a 0 0x10000 slot) a.n { leafRead a x with settled := true } := by
  obtain ⟨hx, hm, hl, hslot, hset, hkind⟩ := h
  have hgood := hset.good
  rw [hslot] at hgood
  unfold lreadWork
  rw [hx]
  dsimp only
  rw [hl, hm]
  dsimp only
  rw [settle_settled hx hset, slot_settled hx hset, hslot, hgood, if_neg (by simp [hkind]), if_pos hstamp, hx]
  rfl

theorem lreadWork_null {l : LeafRef} {slot : List Byte} (h : Readable s x a m l slot) (hstamp : pmStamp slot ≠ x.step)
    (hearly : x.sealedPasses < m.d) :
    lreadWork s a false = takeLeaf (putWork s a.n { leafRead a x with isNull := true }) a 0 0x10000 slot := by
  obtain ⟨hx, hm, hl, hslot, hset, hkind⟩ := h
  have hgood := hset.good
  rw [hslot] at hgood
  unfold lreadWork
  rw [hx]
  dsimp only
  rw [hl, hm]
  dsimp only
  rw [settle_settled hx hset, slot_settled hx hset, hslot, hgood, if_neg (by simp [hkind]), if_neg hstamp, hx, if_pos hearly,
    List.foldl_nil, List.map_nil, List.all_nil, if_pos rfl, if_neg (by omega)]
  rfl

end

section
variable {s : State} {k : ActAt} {imgs : RowSet} {w : WheelImage} {e : WheelEntry} {m : Manifest} {g : GroupEntry} {a : ActOn} {x : FnSt}

/-- The leaf lies in its core, the covered gradients beside it. -/
def leafBrought (s : State) (a : ActOn) (slot part : List Byte) : State :=
  let c := coreSt (takeLeaf s a 0 0 slot) a.ix
  setCore (takeLeaf s a 0 0 slot) a.ix { c with sram := memWriteN (memZero c.sram 0x20000 0x10000) 0x20000 part }

theorem quiet_leafBrought (h : Quiet s) (a : ActOn) (slot part : List Byte) : Quiet (leafBrought s a slot part) :=
  quiet_of_same h rfl rfl rfl rfl rfl

theorem fnSt_leafBrought (s : State) (a : ActOn) (slot part : List Byte) (n : Nat) : fnSt (leafBrought s a slot part) n = fnSt s n := rfl

theorem coreSt_leafBrought (s : State) (a : ActOn) {slot : List Byte} (part : List Byte) (hslot : slot.length = 65536) :
    (coreSt (leafBrought s a slot part) a.ix).leaf = some (a.n, 0, a.m, a.j) ∧
    memReadN (coreSt (leafBrought s a slot part) a.ix).sram 0 65536 = slot := by
  rw [leafBrought, coreSt_setCore_same]
  dsimp only
  rw [memReadN_writeN_above _ _ (by decide), memReadN_zero_above _ _ (by decide), frame_takeLeaf _ _ _ _ hslot, coreSt_takeLeaf]
  exact ⟨rfl, rfl⟩

theorem lreadWork_brings {l : LeafRef} {slot : List Byte} (h : Readable s x a m l slot) (hstamp : pmStamp slot ≠ x.step)
    (hlate : m.d ≤ x.sealedPasses) (hrows : ∀ o ∈ coveredRows x l, Settled s x a 1 (passGen x) o.2)
    (hgrad : ∃ o ∈ coveredRows x l, gradPresent x (heldSlot s a.n a.m 1 (passGen x) o.2) = true) :
    ∃ part, lreadWork s a false = putWork (leafBrought s a slot part) a.n (leafRead a x) := by
  obtain ⟨hx, hm, hl, hslot, hset, hkind⟩ := h
  have hgood := hset.good
  rw [hslot] at hgood
  obtain ⟨o, ho, hpresent⟩ := hgrad
  have hsome : ((coveredRows x l).map (fun q => (q.1, if gradPresent x (a.slot s 1 (passGen x) q.2) then some (a.slot s 1 (passGen x) q.2)
      else none))).all (fun q => q.2.isNone) = false := by
    rw [List.all_eq_false]
    refine ⟨_, List.mem_map_of_mem ho, ?_⟩
    rw [slot_settled hx (hrows o ho), hpresent]
    exact Bool.false_ne_true
  unfold lreadWork
  rw [hx]
  dsimp only
  rw [hl, hm]
  dsimp only
  rw [settle_settled hx hset, slot_settled hx hset, hslot, hgood, if_neg (by simp [hkind]), if_neg hstamp, hx,
    if_neg (show ¬x.sealedPasses < m.d by omega), settle_rows hx _ hrows, hsome]
  exact ⟨_, rfl⟩

/-- An LREAD reaches a readable leaf whose phase has come, on a free core. -/
theorem condLread_due (h : Reached s k actLread imgs w e m g a) {l : LeafRef} (hl : a.leaf (fnSt s k.fn) 0 = some l) (hkind : l.kind = .state)
    (hnew : (a.work (fnSt s k.fn) 0).loaded = false) (hfree : coreFree s a.ix = true)
    (hphase : leafPhase (fnSt s k.fn) l.binding.tensor = 0 ∨ phase0Done (fnSt s k.fn) = true) : condLread (due s k e) a = .go := by
  have hcome : ¬(leafPhase (fnSt s k.fn) l.binding.tensor = 1 ∧ phase0Done (fnSt s k.fn) = false) := by
    rintro ⟨hone, hnot⟩
    rcases hphase with hp | hp
    · omega
    · rw [hp] at hnot; cases hnot
  unfold condLread
  rw [fnSt_of_reached h]
  dsimp only
  rw [hl]
  dsimp only
  rw [if_neg (by simp [hkind, hnew]), due_eq, coreFree_advance, hfree, if_neg (by decide), if_neg hcome]

theorem readable_due (h : Reached s k actLread imgs w e m g a) {l : LeafRef} (hl : a.leaf (fnSt s k.fn) 0 = some l)
    (hheld : heldHere (fnSt s k.fn) a.m a.j = true) (hgood : slotErased (fnSt s k.fn).epoch 0 false (heldSlot s k.fn a.m 0 0 a.j) = false)
    (hbuilt : unrebuiltAt (fnSt s k.fn) 0 0 a.j = []) (hkind : pmKind (heldSlot s k.fn a.m 0 0 a.j) = 1) :
    Readable (due s k e) (fnSt s k.fn) a m l (heldSlot s k.fn a.m 0 0 a.j) := by
  have hslot : heldSlot (due s k e) a.n a.m 0 0 a.j = heldSlot s k.fn a.m 0 0 a.j := by
    rw [due_eq, heldSlot_advance, (member_of_reached h).1]
  exact ⟨fnSt_of_reached h, h.manifest, hl, hslot, ⟨hheld, by rw [hslot]; exact hgood, hbuilt⟩, hkind⟩

variable {bad : Bool}

theorem lread_gives {P : State → Prop} {t : State} (h : Reached s k actLread imgs w e m g a) (hbad : bad = false)
    (hgo : condLread (due s k e) a = .go) (hwork : lreadWork (due s k e) a false = t) (hq : Quiet t) (hpending : t.pending = s.pending) (hP : P t) :
    Gives (.lread k bad imgs) s P := by
  subst hbad
  exact gives_onDie (exec_lread s k false imgs) h.up ((act_go h hgo).trans hwork) hq hpending hP

theorem lread_settled (h : Reached s k actLread imgs w e m g a) (hbad : bad = false) {l : LeafRef} {slot : List Byte}
    (hgo : condLread (due s k e) a = .go) (hread : Readable (due s k e) (fnSt s k.fn) a m l slot) (hstamp : pmStamp slot = (fnSt s k.fn).step) :
    Gives (.lread k bad imgs) s (fun t =>
      Noted t a 0 { a.work (fnSt s k.fn) 0 with loaded := true, slice := a.sl, core := a.core, settled := true } ∧
      (coreSt t a.ix).leaf = some (k.fn.val, 0, a.m, a.j) ∧ memReadN (coreSt t a.ix).sram 0x10000 65536 = slot) := by
  have hlen : slot.length = 65536 := by rw [← hread.slot_eq, length_heldSlot]
  refine lread_gives h hbad hgo (lreadWork_settled hread hstamp) (quiet_putWork (quiet_takeLeaf (quiet_due h.quiet k e) ..) ..) rfl
    ⟨noted_putWork (leafRead_key ..) ?_, ?_, ?_⟩
  · rw [fnSt_takeLeaf]
    exact free_of_reached h
  · rw [coreSt_putWork, coreSt_takeLeaf, (member_of_reached h).1]
  · rw [coreSt_putWork, frame_takeLeaf _ _ _ _ hlen]

theorem lread_null (h : Reached s k actLread imgs w e m g a) (hbad : bad = false) {l : LeafRef} {slot : List Byte}
    (hgo : condLread (due s k e) a = .go) (hread : Readable (due s k e) (fnSt s k.fn) a m l slot) (hstamp : pmStamp slot ≠ (fnSt s k.fn).step)
    (hearly : (fnSt s k.fn).sealedPasses < m.d) : Gives (.lread k bad imgs) s (fun t =>
      Noted t a 0 { a.work (fnSt s k.fn) 0 with loaded := true, slice := a.sl, core := a.core, isNull := true } ∧
      (coreSt t a.ix).leaf = some (k.fn.val, 0, a.m, a.j) ∧ memReadN (coreSt t a.ix).sram 0x10000 65536 = slot) := by
  have hlen : slot.length = 65536 := by rw [← hread.slot_eq, length_heldSlot]
  refine lread_gives h hbad hgo (lreadWork_null hread hstamp hearly) (quiet_takeLeaf (quiet_putWork (quiet_due h.quiet k e) ..) ..) rfl
    ⟨noted_of_fn (fnSt_takeLeaf ..) (noted_putWork (leafRead_key ..) (free_of_reached h)), ?_, ?_⟩
  · rw [coreSt_takeLeaf, (member_of_reached h).1]
  · rw [frame_takeLeaf _ _ _ _ hlen]

theorem lread_brings (h : Reached s k actLread imgs w e m g a) (hbad : bad = false) {l : LeafRef} {slot : List Byte}
    (hgo : condLread (due s k e) a = .go) (hread : Readable (due s k e) (fnSt s k.fn) a m l slot) (hstamp : pmStamp slot ≠ (fnSt s k.fn).step)
    (hlate : m.d ≤ (fnSt s k.fn).sealedPasses)
    (hrows : ∀ o ∈ coveredRows (fnSt s k.fn) l, heldHere (fnSt s k.fn) a.m o.2 = true ∧
      slotErased (fnSt s k.fn).epoch 1 false (heldSlot s k.fn a.m 1 (passGen (fnSt s k.fn)) o.2) = false ∧
      unrebuiltAt (fnSt s k.fn) 1 (passGen (fnSt s k.fn)) o.2 = [])
    (hgrad : ∃ o ∈ coveredRows (fnSt s k.fn) l,
      gradPresent (fnSt s k.fn) (heldSlot s k.fn a.m 1 (passGen (fnSt s k.fn)) o.2) = true) : Gives (.lread k bad imgs) s (fun t =>
      Noted t a 0 { a.work (fnSt s k.fn) 0 with loaded := true, slice := a.sl, core := a.core } ∧
      (coreSt t a.ix).leaf = some (k.fn.val, 0, a.m, a.j) ∧ memReadN (coreSt t a.ix).sram 0 65536 = slot) := by
  have hlen : slot.length = 65536 := by rw [← hread.slot_eq, length_heldSlot]
  have hslots : ∀ j, heldSlot (due s k e) a.n a.m 1 (passGen (fnSt s k.fn)) j = heldSlot s k.fn a.m 1 (passGen (fnSt s k.fn)) j := fun j => by
    rw [due_eq, heldSlot_advance, (member_of_reached h).1]
  have hsettled : ∀ o ∈ coveredRows (fnSt s k.fn) l, Settled (due s k e) (fnSt s k.fn) a 1 (passGen (fnSt s k.fn)) o.2 := fun o ho => by
    obtain ⟨hheld, hgood, hbuilt⟩ := hrows o ho
    exact ⟨hheld, by rw [hslots]; exact hgood, hbuilt⟩
  obtain ⟨part, hwork⟩ := lreadWork_brings hread hstamp hlate hsettled (by simpa only [hslots] using hgrad)
  obtain ⟨hleaf, hmem⟩ := coreSt_leafBrought (due s k e) a part hlen
  refine lread_gives h hbad hgo hwork (quiet_putWork (quiet_leafBrought (quiet_due h.quiet k e) ..) ..) rfl
    ⟨noted_putWork (leafRead_key ..) ?_, ?_, ?_⟩
  · rw [fnSt_leafBrought]
    exact free_of_reached h
  · rw [coreSt_putWork, hleaf, (member_of_reached h).1]
  · rw [coreSt_putWork, hmem]

end

section
variable {s : State} {k : ActAt} {imgs : RowSet} {w : WheelImage} {e : WheelEntry} {m : Manifest} {g : GroupEntry} {a : ActOn} {x : FnSt}

/-! #### RUN (R119) -/

theorem leafAt_of_leaf {l : LeafRef} {area : Nat} (hm : x.manifest = some m) (hg : grpOf x = some g) (hl : a.leaf x area = some l) :
    leafAt m g a.m area a.j = some l := by
  unfold ActOn.leaf at hl
  rw [hm, hg] at hl
  exact hl

theorem startLeafRun_begins {n i mem j ticks : Nat} (hx : fnSt s n = x) {l : LeafRef} {set : ProgSet} {c : Nat} {cl : ProgClass} {p : Prog}
    (hm : x.manifest = some m) (hg : grpOf x = some g) (hset : x.progs = some set) (hl : leafAt m g mem 0 j = some l)
    (hc : classOf set l.binding.tensor = some c) (hp : classProg set c = some (cl, p)) :
    ∃ sram lanes r, startLeafRun s n i mem j ticks none = beginRun s i sram lanes r ∧ r.fn = n ∧ r.prelude = false ∧
      r.pc = p.first + p.leafEntry ∧ r.start = s.ticks ∧ r.windowEnd = s.ticks + ticks ∧ r.halted = false := by
  subst hx
  unfold startLeafRun
  dsimp only
  rw [hm, hg, hset]
  dsimp only
  rw [hl]
  dsimp only
  rw [hc, Option.bind_some, hp]
  exact ⟨_, _, _, rfl, rfl, rfl, rfl, rfl, rfl, rfl⟩

theorem fnSt_beginRun (s : State) (i : Nat) (sram : Mem) (lanes : List Src) (r : CoreRun) (n : Nat) :
    fnSt (beginRun s i sram lanes r) n = fnSt s n := rfl

theorem runBegun_putWork {t : State} {pre : Bool} {pc ticks : Nat} (h : RunBegun s t a pre pc ticks) (n : Nat) (v : RowWork) :
    RunBegun s (putWork t n v) a pre pc ticks := h

theorem run_begins (h : Reached s k actRun [] w e m g a) {l : LeafRef} {set : ProgSet} {c : Nat} {cl : ProgClass} {p : Prog}
    (hl : a.leaf (fnSt s k.fn) 0 = some l) (hkind : l.kind = .state) (hread : (a.work (fnSt s k.fn) 0).loaded = true)
    (htouched : (a.work (fnSt s k.fn) 0).isNull = false) (hopen : (a.work (fnSt s k.fn) 0).settled = false)
    (hnew : (a.work (fnSt s k.fn) 0).run = false) (hcore : (a.work (fnSt s k.fn) 0).core = a.core) (hset : (fnSt s k.fn).progs = some set)
    (hc : classOf set l.binding.tensor = some c) (hp : classProg set c = some (cl, p)) : Gives (.run k) s (fun t =>
      RunBegun s t a false (p.first + p.leafEntry) (32 * e.length) ∧ Noted t a 0 { a.work (fnSt s k.fn) 0 with run := true } ∧
      t.ticks = (due s k e).ticks) := by
  have hgo : condRun (due s k e) a = .go := by
    unfold condRun
    rw [fnSt_of_reached h]
    dsimp only
    rw [hl]
    dsimp only
    rw [hread, htouched, hopen, hnew, if_neg (by simp [hkind])]
    rfl
  obtain ⟨sram, lanes, r, hrun, hfn, hpre, hpc, hstart, hend, hhalt⟩ := startLeafRun_begins (i := a.ix) (ticks := 32 * e.length)
    (fnSt_of_reached h) h.manifest h.group hset (leafAt_of_leaf h.manifest h.group hl) hc hp
  have hwork : runWork (due s k e) a (32 * e.length) = putWork (beginRun (due s k e) a.ix sram lanes r) a.n { a.work (fnSt s k.fn) 0 with run := true } := by
    unfold runWork
    rw [fnSt_of_reached h]
    dsimp only
    rw [hcore, ← hrun]
    rfl
  refine gives_onDie (exec_run s k) h.up ((act_go h hgo).trans hwork) (quiet_putWork (quiet_beginRun (quiet_due h.quiet k e) ..) ..) rfl
    ⟨runBegun_putWork ?_ _ _, noted_putWork (work_key a (fnSt s k.fn) 0) ?_, rfl⟩
  · rw [← hpc]
    exact runBegun_beginRun hfn hpre hstart hend hhalt (fun i => rfl)
  · rw [fnSt_beginRun]
    exact free_of_reached h

/-! #### Stream reads (R132) -/

/-- A part of the range is decoded first where its slot reads as erased. -/
def settlePart (a : ActOn) (s : State) (p : RangePart) : State := match p with
  | .coded area gen row => a.settle s area gen row false
  | _ => s

theorem settlePart_settled (p : RangePart) (hx : fnSt s a.n = x) (h : ∀ ar ge row, p = .coded ar ge row → Settled s x a ar ge row) :
    settlePart a s p = s := by
  cases p with
  | coded ar ge row => exact settle_settled hx (h ar ge row rfl)
  | padding => rfl
  | workingCopy => rfl
  | outside => rfl

/-- The core once the oldest stream read of its run has been served. -/
def srdServed (c : CoreSt) (z : CoreRun) (dst : Nat) (bs : List Byte) (rest : List Srd) : CoreSt :=
  { c with sram := memWriteN c.sram dst bs, run := some { z with srds := rest } }

theorem serveSrd_eq {i : Nat} {z : CoreRun} {q : Srd} {rest : List Srd} (hz : (coreSt s i).run = some z) (hq : z.srds = q :: rest)
    (hm : (fnSt s z.fn).manifest = some m) {b : ActOn} (hb : b = ⟨z.fn, i / 32, i % 32, (fnSt s z.fn).self, 0, imgs⟩)
    (h : ∀ o ∈ [q.off, q.off + q.len - 1], settlePart b s (rangePart m o) = s) :
    serveSrd s i imgs = setCore s i (srdServed (coreSt s i) z q.dst (rangeRead s z.fn q.off q.len) rest) := by
  subst hb
  have hfirst := h q.off (by simp)
  have hlast := h (q.off + q.len - 1) (by simp)
  have hparts : [rangePart m q.off, rangePart m (q.off + q.len - 1)].foldl (settlePart ⟨z.fn, i / 32, i % 32, (fnSt s z.fn).self, 0, imgs⟩) s = s := by
    rw [List.foldl_cons, List.foldl_cons, List.foldl_nil, hfirst, hlast]
  unfold serveSrd
  rw [hz]
  dsimp only
  rw [hq]
  dsimp only
  rw [hm]
  exact (congrArg (fun t => setCore t i (srdServed (coreSt t i) z q.dst (rangeRead t z.fn q.off q.len) rest)) hparts :)

theorem srd_serves (h : Reached s k actSrd imgs w e m g a) {z : CoreRun} {q : Srd} {rest : List Srd} (hz : (coreSt s a.ix).run = some z)
    (hfn : z.fn = k.fn.val) (hrow : z.row = a.j) (hpre : z.prelude = false) (hin : z.droppedAt = none) (hq : z.srds = q :: rest)
    (hparts : ∀ o ∈ [q.off, q.off + q.len - 1], ∀ ar ge row, rangePart m o = .coded ar ge row →
      heldHere (fnSt s k.fn) (fnSt s k.fn).self row = true ∧
      slotErased (fnSt s k.fn).epoch ar false (heldSlot s k.fn (fnSt s k.fn).self ar ge row) = false ∧
      unrebuiltAt (fnSt s k.fn) ar ge row = []) :
    Gives (.srdAction k imgs) s (fun t => t = { due s k e with cores := t.cores } ∧ (coreSt t a.ix).run = some { z with srds := rest } ∧
      (coreSt t a.ix).sram = memWriteN (coreSt s a.ix).sram q.dst (rangeRead s k.fn q.off q.len)) := by
  obtain ⟨hn, -, hrows⟩ := member_of_reached h
  have hz' : (coreSt (due s k e) a.ix).run = some z := hz
  have hx : fnSt (due s k e) z.fn = fnSt s k.fn := by rw [fnSt_due, hfn]
  have hserve := serveSrd_eq (imgs := imgs) hz' hq (by rw [hx]; exact h.manifest) rfl (fun o ho => settlePart_settled (rangePart m o) hx
    (fun ar ge row hp => by
      obtain ⟨hheld, hgood, hbuilt⟩ := hparts o ho ar ge row hp
      rw [hx]
      refine ⟨hheld, ?_, hbuilt⟩
      rw [due_eq, heldSlot_advance, hfn]
      exact hgood))
  refine gives_onDie (exec_srdAction s k imgs) h.up ((act_go h ?_).trans ((congrArg (serveSrd _ _) hrows).trans hserve))
    (quiet_of_same (quiet_due h.quiet k e) rfl rfl rfl rfl rfl) rfl ⟨rfl, ?_, ?_⟩
  · rw [hz']
    dsimp only
    rw [if_pos ⟨hfn.trans hn.symm, hrow, hpre, by simp [hq], hin⟩]
  · rw [coreSt_setCore_same]
    rfl
  · rw [coreSt_setCore_same, ← hfn]
    rfl

end

/-! #### REG (R75) -/

section
variable {s : State} {k : ActAt} {imgs : RowSet} {w : WheelImage} {e : WheelEntry} {m : Manifest} {g : GroupEntry} {a : ActOn} {x : FnSt}

/-- The die once an intent entry is written and the ring of its core has moved on. -/
def intentWritten (s : State) (sl i idx at_ : Nat) (bs : List Byte) : State :=
  ledgerUse { nearWrite s at_ bs with ring := tabSet 0 s.ring i ((idx + 1) % 4096) } sl true

theorem ledgerUse_up (s : State) (sl : Nat) : ledgerUse s sl true =
    maxF (setF s (pgSlice sl) SL_LEDGER_STATUS_IN_USE (getF s (pgSlice sl) SL_LEDGER_STATUS_IN_USE + 1)) (pgSlice sl)
      SL_LEDGER_STATUS_HIGH_WATER (ceilDiv (getF s (pgSlice sl) SL_LEDGER_STATUS_IN_USE + 1) 32) := rfl

theorem getF_ledgerUse_up (s : State) (sl : Nat) : getF (ledgerUse s sl true) (pgSlice sl) SL_LEDGER_STATUS_IN_USE =
    (getF s (pgSlice sl) SL_LEDGER_STATUS_IN_USE + 1) % 2 ^ 18 := by
  rw [ledgerUse_up, maxF, getF_setF_disjoint _ _ _ (by decide) (by decide) (by decide) (by decide), getF_setF_same _ _ _ _ (by decide) (by decide)]
  rfl

theorem quiet_ledgerUse_up (h : Quiet s) (sl : Nat) : Quiet (ledgerUse s sl true) := by
  rw [ledgerUse_up]
  exact quiet_setF_slice (quiet_setF_slice h sl _ _) sl _ _

theorem quiet_nearRing (h : Quiet s) (l : Mem) (r : Tab Nat) : Quiet { s with near := l, ring := r } := quiet_of_same h rfl rfl rfl rfl rfl

theorem quiet_intentWritten (h : Quiet s) (sl i idx at_ : Nat) (bs : List Byte) : Quiet (intentWritten s sl i idx at_ bs) :=
  quiet_ledgerUse_up (quiet_nearRing h _ _) sl

theorem near_intentWritten (s : State) (sl i idx at_ : Nat) (bs : List Byte) : (intentWritten s sl i idx at_ bs).near = memWriteN s.near at_ bs := by
  simp only [intentWritten, ledgerUse_up, maxF, setF_near]
  rfl

theorem ring_intentWritten (s : State) (sl i idx at_ : Nat) (bs : List Byte) :
    (intentWritten s sl i idx at_ bs).ring = tabSet 0 s.ring i ((idx + 1) % 4096) := by
  simp only [intentWritten, ledgerUse_up, maxF, setF_ring]

theorem deep_intentWritten (s : State) (sl i idx at_ : Nat) (bs : List Byte) : (intentWritten s sl i idx at_ bs).deep = s.deep := by
  simp only [intentWritten, ledgerUse_up, maxF, setF_deep]
  rfl

theorem fns_intentWritten (s : State) (sl i idx at_ : Nat) (bs : List Byte) : (intentWritten s sl i idx at_ bs).fns = s.fns := by
  simp only [intentWritten, ledgerUse_up, maxF, setF_fns]
  rfl

theorem pending_intentWritten (s : State) (sl i idx at_ : Nat) (bs : List Byte) : (intentWritten s sl i idx at_ bs).pending = s.pending := by
  simp only [intentWritten, ledgerUse_up, maxF, setF_pending]
  rfl

theorem getF_nearRing (s : State) (at_ : Nat) (bs : List Byte) (r : Tab Nat) (pg : Nat) (f : Fld) :
    getF { nearWrite s at_ bs with ring := r } pg f = getF s pg f := rfl

theorem inUse_intentWritten (s : State) (sl i idx at_ : Nat) (bs : List Byte) :
    getF (intentWritten s sl i idx at_ bs) (pgSlice sl) SL_LEDGER_STATUS_IN_USE = (getF s (pgSlice sl) SL_LEDGER_STATUS_IN_USE + 1) % 2 ^ 18 :=
  (getF_ledgerUse_up ..).trans (by rw [getF_nearRing])

/-- The function has a row that the twin comparison has not passed. -/
def comparing (late : Bool) (x : FnSt) : FnSt := { x with uncompared := x.uncompared || late }

theorem workAt_comparing (late : Bool) (x : FnSt) (mem area row : Nat) : workAt (comparing late x) mem area row = workAt x mem area row := rfl
theorem hold_comparing (late : Bool) (x : FnSt) : (comparing late x).hold = x.hold := rfl

/-- The die once a row is registered at index `idx` of its core's ring. -/
def registered (s : State) (a : ActOn) (v : RowWork) (i idx at_ : Nat) (bs : List Byte) : State :=
  modFn (putWork (intentWritten s a.sl i idx at_ bs) a.n { v with reg := true, ledger := idx }) a.n (comparing (decide (v.twin ≠ 2)))

/-- What a change of the functions' states alone leaves. -/
structure SameButFns (s t : State) : Prop where
  pending : t.pending = s.pending
  near : t.near = s.near
  ring : t.ring = s.ring
  deep : t.deep = s.deep
  fields : ∀ pg f, getF t pg f = getF s pg f

theorem sameButFns_modFn (s : State) (n : Nat) (f : FnSt → FnSt) : SameButFns s (modFn s n f) := ⟨rfl, rfl, rfl, rfl, fun _ _ => rfl⟩

theorem sameButFns_trans {t u : State} (h : SameButFns s t) (h' : SameButFns t u) : SameButFns s u :=
  ⟨h'.pending.trans h.pending, h'.near.trans h.near, h'.ring.trans h.ring, h'.deep.trans h.deep,
    fun pg f => (h'.fields pg f).trans (h.fields pg f)⟩

theorem registered_same (s : State) (a : ActOn) (v : RowWork) (i idx at_ : Nat) (bs : List Byte) :
    SameButFns (intentWritten s a.sl i idx at_ bs) (registered s a v i idx at_ bs) :=
  sameButFns_trans (sameButFns_modFn ..) (sameButFns_modFn ..)

theorem quiet_registered (h : Quiet s) (a : ActOn) (v : RowWork) (i idx at_ : Nat) (bs : List Byte) : Quiet (registered s a v i idx at_ bs) :=
  quiet_modFn (quiet_putWork (quiet_intentWritten h a.sl i idx at_ bs) _ _) _ _ (fun _ => rfl) (fun _ => rfl)

theorem regWork_eq {v : RowWork} (hx : fnSt s a.n = x) (hv : a.work x 0 = v) (htwin : v.twin ≠ 1) {i idx at_ : Nat}
    (hi : coreIx a.sl v.core = i) (hidx : tabGet 0 s.ring i % 4096 = idx) (hat : 32 * ledgerIx a.sl v.core idx = at_)
    (hok : entryOk (nearRead s at_ 32) = true) :
    regWork s a = registered s a v i idx at_ (intentEntry a.n a.j x.step (pmDigest (frameSlot s i 0x10000)) x.epoch) := by
  subst hi hidx hat
  unfold regWork
  rw [hx]
  dsimp only
  rw [hv, if_neg htwin, hx, hv, hok, if_pos rfl]
  rfl

theorem length_intentEntry (fn row stamp digest epoch : Nat) : (intentEntry fn row stamp digest epoch).length = 32 := by
  simp [intentEntry]

theorem noted_registered {v : RowWork} {i idx at_ : Nat} {bs : List Byte} (hv : v.member = a.m ∧ v.area = 0 ∧ v.row = a.j)
    (hfree : (fnSt s a.n).hold = none) : Noted (registered s a v i idx at_ bs) a 0 { v with reg := true, ledger := idx } := by
  have hput : Noted (putWork (intentWritten s a.sl i idx at_ bs) a.n { v with reg := true, ledger := idx }) a 0 { v with reg := true, ledger := idx } := by
    refine noted_putWork hv ?_
    rw [fnSt, fns_intentWritten]
    exact hfree
  obtain ⟨hwork, hhold⟩ := hput
  unfold Noted registered
  rw [fnSt_modFn_same, workAt_comparing, hold_comparing]
  exact ⟨hwork, hhold⟩

theorem reg_enters (h : Reached s k actReg [] w e m g a) (hleaf : (a.leaf (fnSt s k.fn) 0).isSome = true) {v : RowWork}
    (hv : a.work (fnSt s k.fn) 0 = v) (hread : v.loaded = true) (htouched : v.isNull = false) (hopen : v.settled = false)
    (hdone : v.committed = true) (hnew : v.reg = false) (htwin : v.twin = 0 ∨ v.twin = 2) {i idx at_ : Nat} (hi : coreIx a.sl v.core = i)
    (hidx : tabGet 0 s.ring i % 4096 = idx) (hat : 32 * ledgerIx a.sl v.core idx = at_) (hok : entryOk (nearRead s at_ 32) = true)
    (hunused : field (nearRead s at_ 32) 0 1 = 0) : Gives (.reg k) s (fun t =>
      nearRead t at_ 32 = intentEntry k.fn a.j (fnSt s k.fn).step (pmDigest (memReadN (coreSt s i).sram 0x10000 65536)) (fnSt s k.fn).epoch ∧
      Noted t a 0 { v with reg := true, ledger := idx } ∧ tabGet 0 t.ring i = (idx + 1) % 4096 ∧ t.deep = s.deep ∧
      getF t (pgSlice a.sl) SL_LEDGER_STATUS_IN_USE = (getF s (pgSlice a.sl) SL_LEDGER_STATUS_IN_USE + 1) % 2 ^ 18) := by
  have hx := fnSt_of_reached h
  have hcond : condReg (due s k e) a = .go := by
    unfold condReg
    rw [hx]
    dsimp only
    rw [hv, Option.isNone_eq_false_iff.mpr hleaf, hread, htouched, hopen, hdone, hnew]
    have hmatch : ¬(v.twin = 1 ∧ twinWait (due s k e) ≠ 0) := fun hw => by omega
    have hfour : decide (v.twin = 4) = false := decide_eq_false (by omega)
    have hfirst : ¬(entryOk (nearRead s at_ 32) = true ∧ field (nearRead s at_ 32) 0 1 = 1) := fun hw => by omega
    rw [hfour, if_neg (by decide), if_neg (by decide), if_neg hmatch, hi, due_eq, nearRead_advance, advance_ring, hidx, hat, if_neg hfirst]
  have hwork := regWork_eq hx hv (by omega) hi (s := due s k e) hidx hat hok
  refine gives_onDie (exec_reg s k) h.up ((act_go h hcond).trans hwork) ?_ ?_ ⟨?_, noted_registered ?_ (free_of_reached h), ?_, ?_, ?_⟩
  · exact quiet_registered (quiet_due h.quiet k e) ..
  · exact (registered_same ..).pending.trans (pending_intentWritten ..)
  · rw [nearRead, (registered_same ..).near, near_intentWritten, ← length_intentEntry, memReadN_writeN, (member_of_reached h).1]
    rfl
  · rw [← hv]
    exact work_key a (fnSt s k.fn) 0
  · rw [(registered_same ..).ring, ring_intentWritten, tabGet_set_same]
  · exact (registered_same ..).deep.trans (deep_intentWritten ..)
  · rw [(registered_same ..).fields, inUse_intentWritten, due_eq, getF_advance]

end

/-! #### Window fills (R37) -/

section
variable {s : State} {k : ActAt} {imgs : RowSet} {w : WheelImage} {e : WheelEntry} {m : Manifest} {g : GroupEntry} {a : ActOn} {x : FnSt}

theorem wheel_of_reached {code : Nat} (h : Reached s k code imgs w e m g a) : (fnSt s k.fn).wheel = some w := by
  have hnamed := h.named
  unfold namedEntry at hnamed
  dsimp only at hnamed
  rw [h.manifest] at hnamed
  cases hw : (fnSt s k.fn).wheel with
  | none => rw [hw] at hnamed; cases hnamed
  | some w' =>
    rw [hw] at hnamed
    dsimp only at hnamed
    cases hentry : (sliceEntries w' k.slice)[k.entry]? with
    | none => rw [hentry] at hnamed; cases hnamed
    | some o =>
      rw [hentry] at hnamed
      simp only [Option.ite_none_right_eq_some, Option.some.injEq, Prod.mk.injEq] at hnamed
      rw [hnamed.2.1]

/-- From `s` to `t` only the seal objects have changed and work has fallen due. -/
def SealsOnly (s t : State) : Prop := t = { s with seals := t.seals, agenda := t.agenda }

theorem sealsOnly_trans {t u : State} (h : SealsOnly s t) (h' : SealsOnly t u) : SealsOnly s u := by
  unfold SealsOnly at h h' ⊢
  rw [h', h]

theorem sealsOnly_setSeal (s : State) (i : Nat) (o : SealObj) : SealsOnly s (setSeal s i o) := rfl
theorem sealsOnly_todo (s : State) (t : Todo) : SealsOnly s (todo s t) := rfl
theorem sealAt_todo (s : State) (t : Todo) (i : Nat) : sealAt (todo s t) i = sealAt s i := rfl

/-- A seal of one's own is armed; the others stay as they are. -/
theorem sealArm_own {n i : Nat} (expected : Nat) (h : (sealAt s i).owner = n) :
    SealsOnly s (sealArm s n i expected) ∧ ∀ j, j ≠ i → sealAt (sealArm s n i expected) j = sealAt s j := by
  unfold sealArm
  dsimp only
  rw [if_neg (fun hno => hno.1 h)]
  split
  · exact ⟨sealsOnly_trans (sealsOnly_setSeal ..) (sealsOnly_todo ..), fun j hne => (sealAt_todo ..).trans (sealAt_setSeal_other _ _ hne)⟩
  · exact ⟨sealsOnly_setSeal .., fun j hne => sealAt_setSeal_other _ _ hne⟩

/-- A seal armed for one arrival fires with it. -/
theorem sealArrive_armed {n i : Nat} (h : (sealAt s i).owner = n) : SealsOnly s (sealArrive (sealArm s n i 1) i 1) ∧
    sealFired (sealArrive (sealArm s n i 1) i 1) i = true ∧ ∀ j, j ≠ i → sealAt (sealArrive (sealArm s n i 1) i 1) j = sealAt s j := by
  obtain ⟨hsame, hothers⟩ := sealArm_own 1 h
  have hfires : ∃ o, sealArrive (sealArm s n i 1) i 1 = todo (setSeal (sealArm s n i 1) i o) (.sealFired i) ∧ o.state = 2 := by
    unfold sealArm
    dsimp only
    rw [if_neg (fun hno => hno.1 h), if_neg (by decide)]
    unfold sealArrive
    dsimp only
    rw [sealAt_setSeal_same]
    exact ⟨_, rfl, rfl⟩
  obtain ⟨o, ho, hfired⟩ := hfires
  rw [ho]
  refine ⟨sealsOnly_trans hsame (sealsOnly_trans (sealsOnly_setSeal ..) (sealsOnly_todo ..)), ?_, fun j hne => ?_⟩
  · rw [sealFired, sealAt_todo, sealAt_setSeal_same, hfired]
    rfl
  · rw [sealAt_todo, sealAt_setSeal_other _ _ hne, hothers j hne]

/-- The die once a window is filled and the seals are still to come. -/
def windowFilled (s : State) (n at_ : Nat) (bs : List Byte) : State :=
  modFn (nearWrite s at_ bs) n (fun x => { x with fills := x.fills + 1 })

theorem fillWork_eq {n win : Nat} {b : Binding} (hx : fnSt s n = x) (hw : x.wheel = some w) (hm : x.manifest = some m)
    (hwin : x.fills % 2 = win) (hlayer : layerBindings x m (w.fillList.getD x.fills 0) = [b]) (hplain : b.gather = false) {u : State}
    (hu : windowFilled s n (windowAt s n win + 1048576) (rangeRead s n (wcStart m (wcReadSlot x m) + b.wcOffset) (wcRegion b)) = u) :
    fillWork s n = armFree (sealArrive (sealArm u n (fillSeal m win) 1) (fillSeal m win) 1) n m win := by
  subst hu hwin
  unfold fillWork
  rw [hx]
  dsimp only
  rw [hw, hm]
  dsimp only
  rw [hlayer, List.foldl_cons, List.foldl_nil, fillPart, hplain, if_neg (by decide), hx, List.nil_append]
  rfl

theorem fillSeal_ne_freeSeal (m : Manifest) (win : Nat) : fillSeal m win ≠ freeSeal m win := by
  unfold fillSeal freeSeal
  omega

/-- After a fill the window's fill seal has fired, and its free seal is armed. -/
theorem filled_seals {n win : Nat} (hfill : (sealAt s (fillSeal m win)).owner = n) (hfree : (sealAt s (freeSeal m win)).owner = n) :
    SealsOnly s (armFree (sealArrive (sealArm s n (fillSeal m win) 1) (fillSeal m win) 1) n m win) ∧
    sealFired (armFree (sealArrive (sealArm s n (fillSeal m win) 1) (fillSeal m win) 1) n m win) (fillSeal m win) = true := by
  obtain ⟨hsame, hfired, hothers⟩ := sealArrive_armed hfill
  have hne := fillSeal_ne_freeSeal m win
  obtain ⟨hsame', hothers'⟩ := sealArm_own (n := n) (Config.freeSealCount n win % 2 ^ 32) (by rw [hothers _ hne.symm]; exact hfree)
  refine ⟨sealsOnly_trans hsame hsame', ?_⟩
  rw [armFree, sealFired, hothers' _ hne]
  exact hfired

theorem fns_windowFilled (s : State) (n at_ : Nat) (bs : List Byte) :
    fnSt (windowFilled s n at_ bs) n = { fnSt s n with fills := (fnSt s n).fills + 1 } := fnSt_modFn_same ..

theorem sealAt_windowFilled (s : State) (n at_ : Nat) (bs : List Byte) (i : Nat) : sealAt (windowFilled s n at_ bs) i = sealAt s i := rfl

theorem ticks_windowFilled (s : State) (n at_ : Nat) (bs : List Byte) : (windowFilled s n at_ bs).ticks = s.ticks := rfl

theorem near_windowFilled (s : State) (n at_ : Nat) (bs : List Byte) : (windowFilled s n at_ bs).near = memWriteN s.near at_ bs := rfl

theorem fnSt_of_sealsOnly {t : State} (h : SealsOnly s t) (n : Nat) : fnSt t n = fnSt s n := by rw [h]; rfl
theorem ticks_of_sealsOnly {t : State} (h : SealsOnly s t) : t.ticks = s.ticks := by rw [h]
theorem near_of_sealsOnly {t : State} (h : SealsOnly s t) : t.near = s.near := by rw [h]

theorem fill_fills (h : Reached s k actFill [] w e m g a) {b : Binding} {win : Nat} (hwin : (fnSt s k.fn).fills % 2 = win)
    (hleft : (fnSt s k.fn).fills < w.fillList.length) (hsize : forceF s k.fn FN_STATE_CFG_WINDOW_SIZE ≠ 0)
    (hfired : sealFired s (freeSeal m win) = true) (hfill : (sealAt s (fillSeal m win)).owner = k.fn.val)
    (hfree : (sealAt s (freeSeal m win)).owner = k.fn.val)
    (hlayer : layerBindings (fnSt s k.fn) m (w.fillList.getD (fnSt s k.fn).fills 0) = [b]) (hplain : b.gather = false) :
    Does (.fill k) s (fun u => (fnSt u k.fn).fills = (fnSt s k.fn).fills + 1 ∧ sealFired u (fillSeal m win) = true ∧
      u.ticks = (due s k e).ticks ∧ u.near = memWriteN s.near (windowAt s k.fn win + 1048576)
        (rangeRead s k.fn (wcStart m (wcReadSlot (fnSt s k.fn) m) + b.wcOffset) (wcRegion b))) := by
  obtain ⟨hn, -, -⟩ := member_of_reached h
  have hx := fnSt_of_reached h
  have hwork := fillWork_eq (s := due s k e) hx (wheel_of_reached h) h.manifest hwin hlayer hplain rfl
  rw [due_eq, windowAt_advance, rangeRead_advance, hn, ← due_eq] at hwork
  generalize hu : windowFilled (due s k e) k.fn.val (windowAt s k.fn win + 1048576)
    (rangeRead s k.fn (wcStart m (wcReadSlot (fnSt s k.fn) m) + b.wcOffset) (wcRegion b)) = u at hwork
  have hseal : ∀ i, sealAt u i = sealAt s i := fun i => by rw [← hu, sealAt_windowFilled, due_eq, sealAt_advance]
  obtain ⟨hsame, hfilled⟩ := filled_seals (s := u) (m := m) (win := win) (n := k.fn.val) (by rw [hseal, hfill]) (by rw [hseal, hfree])
  refine does_onDie (exec_fill s k) h.up ((act_go h ?_).trans ((congrArg _ hn).trans hwork)) ⟨?_, hfilled, ?_, ?_⟩
  · dsimp only
    rw [hx, wheel_of_reached h, h.manifest]
    dsimp only
    rw [hwin, due_eq, forceF_advance, sealFired_advance, hfired, hn, if_neg (by omega), if_pos rfl]
  · rw [fnSt_of_sealsOnly hsame, ← hu, fns_windowFilled, fnSt_due]
  · rw [ticks_of_sealsOnly hsame, ← hu, ticks_windowFilled]
  · rw [near_of_sealsOnly hsame, ← hu, near_windowFilled]
    rfl

end

/-! #### What sending and recording leave alone

Packets, event and deviation records, the pushes of a snapshot, the mirror notes of a member's copy and the fold of the written leaves: none of
them changes the memories, the seals, the waits, the mailbags, the cores or what a function has to work. -/

/-- The die without what packets and records change. -/
def besides (s : State) : State := { s with
  regs := [], msi := [], msiLast := [], msiPend := [], fns := [], posted := [], egress := [], msgs := [], nvm := {}, agenda := [], pushes := [] }

/-- A function's state without the numbers of its records, its sweep, its copy and the fold of its leaves. -/
def tasks (x : FnSt) : FnSt := { x with
  evSeq := 0, devSeq := 0, devLost := 0, devKept := [], slips := 0, sweep := none, copy := none, xval := 0, xslots := [] }

/-- The words that reports and the pushes of a snapshot may change. -/
def recordWord (a : Nat) : Prop := reportWord a ∨ a = pgFloor + FLOOR_STATUS_PUSH_FULL.off

/-- From `s` to `t` the die has sent and recorded. -/
structure Records (s t : State) : Prop where
  rest : besides t = besides s
  words : ∀ a, ¬recordWord a → wordAt t a = wordAt s a
  fn : ∀ k, tasks (fnSt t k) = tasks (fnSt s k)

section
variable {s t u : State}

theorem records_refl (s : State) : Records s s := ⟨rfl, fun _ _ => rfl, fun _ => rfl⟩

theorem records_trans (h : Records s t) (h' : Records t u) : Records s u :=
  ⟨h'.rest.trans h.rest, fun a ha => (h'.words a ha).trans (h.words a ha), fun k => (h'.fn k).trans (h.fn k)⟩

theorem records_ite (c : Prop) [Decidable c] (ht : Records s t) (hu : Records s u) : Records s (if c then t else u) := by
  split
  · exact ht
  · exact hu

theorem records_foldl {α : Type} {f : State → α → State} (hf : ∀ s x, Records s (f s x)) (l : List α) : ∀ s, Records s (l.foldl f s) := by
  induction l with
  | nil => exact records_refl
  | cons x l ih => exact fun s => records_trans (hf s x) (ih (f s x))

theorem records_of_posts {l : List Nat} (h : Posts s t l) (hl : ∀ a ∈ l, recordWord a) : Records s t := by
  refine ⟨?_, fun a ha => h.words a (fun hin => ha (hl a hin)), fun k => ?_⟩
  · rw [h.frame]
    rfl
  · rw [h.fn k]
    rfl

theorem records_of_touches {l : List Nat} (h : Touches s t l) (hl : ∀ a ∈ l, recordWord a) : Records s t :=
  records_of_posts (posts_of_touches h) hl

theorem records_setF_fn (s : State) (n : Nat) (f : Fld) (v : Nat) : Records s (setF s (pgFn n) f v) :=
  records_of_touches (touches_setF ..) (by simp [recordWord, reportWord_fn])

theorem records_modFn {n : Nat} {f : FnSt → FnSt} (h : ∀ x, tasks (f x) = tasks x) : Records s (modFn s n f) := by
  refine ⟨rfl, fun _ _ => rfl, fun k => ?_⟩
  by_cases hk : k = n
  · rw [hk, fnSt_modFn_same, h]
  · rw [fnSt_modFn_other s f hk]

theorem records_setFnSt {n : Nat} {x : FnSt} (h : tasks x = tasks (fnSt s n)) : Records s (setFnSt s n x) := by
  refine ⟨rfl, fun _ _ => rfl, fun k => ?_⟩
  by_cases hk : k = n
  · rw [hk, fnSt_setFnSt_same, h]
  · rw [fnSt_setFnSt_other s x hk]

theorem records_postEvent (s : State) (n code : Nat) (payload : List Byte) : Records s (postEvent s n code payload) := by
  cases hs : switching s with
  | true =>
    unfold postEvent
    rw [hs, if_pos rfl]
    exact ⟨rfl, fun _ _ => rfl, fun _ => rfl⟩
  | false => exact records_of_posts (posts_postEvent hs n code payload) (by simp [eventWords, recordWord, reportWord_fn])

theorem records_errBit (s : State) {f : Fld} {pg : Nat} (hf : f.off = 0x014) (hpg : pg % 4096 = 0) : Records s (errBit s f pg) := by
  refine records_of_touches (touches_errBit ..) (fun a ha => ?_)
  simp only [List.mem_cons, List.not_mem_nil, or_false, hf, HDR_INT_STATUS_ERROR] at ha
  unfold recordWord reportWord
  omega

/-! ##### Packets -/

theorem records_sendPacket (s : State) (p : Packet) : Records s (sendPacket s p) := ⟨rfl, fun _ _ => rfl, fun _ => rfl⟩

theorem pgFn_mod (n : Nat) : pgFn n % 4096 = 0 := by unfold pgFn; omega

theorem records_routeInvalid (s : State) (n id : Nat) : Records s (routeInvalid s n id) := by
  have hflag : Records s (flagF s (pgFn n) FN_PORT_STATUS_ROUTE_INVALID) := records_setF_fn ..
  have herr := records_errBit (flagF s (pgFn n) FN_PORT_STATUS_ROUTE_INVALID) (f := HDR_ERR_SUMMARY_FABRIC) rfl (pgFn_mod n)
  exact records_trans (records_trans (records_trans hflag herr) (records_errBit _ rfl rfl)) (records_postEvent ..)

theorem records_sendTo (s : State) (v : Wait) (c n : Nat) (h : WaitHolder) : Records s (sendTo s v c n h) := by
  unfold sendTo
  refine records_ite _ (records_refl s) (records_ite _ (records_routeInvalid ..) ?_)
  exact records_ite _ (records_sendPacket ..) (records_ite _ (records_sendPacket ..) (records_foldl (fun _ _ => records_sendPacket ..) _ s))

theorem records_sendReceipt (s : State) (n dst src fnThere row stamp areaB holder par tag : Nat) :
    Records s (sendReceipt s n dst src fnThere row stamp areaB holder par 0 tag) := by
  unfold sendReceipt
  exact records_ite _ (records_refl s) (records_sendPacket ..)

/-! ##### Records -/

theorem records_hostWrite (s : State) (n a : Nat) (bs : List Byte) : Records s (hostWrite s n a bs) :=
  records_of_posts (posts_hostWrite ..) (by simp)

theorem records_devPut (s : State) (n : Nat) (r : List Byte) : Records s (devPut s n r) :=
  records_trans (records_hostWrite ..) (records_setF_fn _ n FN_DEV_HEAD_HEAD _)

theorem tasks_devLost (x : FnSt) (lost seq : Nat) : tasks { x with devLost := lost, devSeq := seq } = tasks x := rfl
theorem tasks_devSeq (x : FnSt) (seq slips : Nat) : tasks { x with devSeq := seq, slips := slips } = tasks x := rfl

theorem records_devOverflow (s : State) (n : Nat) : Records s (devOverflow s n) :=
  records_ite _ (records_trans (records_setFnSt (tasks_devLost ..)) (records_devPut ..)) (records_refl s)

theorem records_slip (s : State) (n cause slice core sched detail : Nat) : Records s (slip s n cause slice core sched detail) := by
  unfold slip deviation
  extract_lets s1 x r s2 s3 s4
  have h2 : Records s s2 := records_trans (records_devOverflow s n) (records_setFnSt (tasks_devSeq ..))
  have h3 : Records s s3 := records_trans h2 (records_ite _ (records_setF_fn _ n _ _) (records_refl _))
  have h4 : Records s s4 := records_trans h3 (records_setF_fn _ n _ _)
  have hlost : Records s4 (modFn (addF s4 (pgFn n) FN_DEV_CTRL_LOST 1) n (fun y => { y with devLost := y.devLost + 1 })) :=
    records_trans (records_setF_fn _ n _ _) (records_modFn (fun _ => rfl))
  exact records_trans h4 (records_ite _ (records_ite _ (records_modFn (fun _ => rfl)) hlost) (records_ite _ (records_devPut ..) hlost))

/-! ##### Before and after a slot is written -/

theorem records_sweepMark (s : State) (n ordinal v : Nat) : Records s (sweepMark s n ordinal v) := records_modFn (fun _ => rfl)

theorem records_pushFull (s : State) : Records s (flagF s pgFloor FLOOR_STATUS_PUSH_FULL) :=
  records_of_touches (touches_setF ..) (by simp [recordWord])

theorem records_pushes (s : State) (l : List Push) : Records s { s with pushes := l } := ⟨rfl, fun _ _ => rfl, fun _ => rfl⟩

end

section
variable {s t u : State}

/-- The slip of a push area that is full, and its flag. -/
def pushFull (s : State) (n sl sched detail : Nat) : State :=
  let full := decide (pushRoom s ≤ s.pushes.length)
  let s := if full then slip s n 9 sl 0xFF sched detail else s
  if full && decide (0 < pushRoom s) then flagF s pgFloor FLOOR_STATUS_PUSH_FULL else s

theorem records_pushFullSlip (s : State) (n sl sched detail : Nat) : Records s (pushFull s n sl sched detail) := by
  unfold pushFull
  extract_lets full s1
  have hslip : Records s s1 := records_ite _ (records_slip ..) (records_refl s)
  exact records_trans hslip (records_ite _ (records_pushFull _) (records_refl _))

/-- A slot about to change is kept for the snapshot that the die sweeps. -/
def pushed (s : State) (n snap o : Nat) (slot : List Byte) : State :=
  modFn (sweepMark { s with pushes := s.pushes ++ [⟨n, snap, o, slot⟩] } n o indexWaits) n
    (fun x => { x with sweep := x.sweep.map (fun sw => { sw with pushed := sw.pushed + 1 }) })

theorem records_pushed (s : State) (n snap o : Nat) (slot : List Byte) : Records s (pushed s n snap o slot) :=
  records_trans (records_trans (records_pushes s _) (records_sweepMark ..)) (records_modFn (fun _ => rfl))

theorem records_pushBefore (s : State) (n m area gen j : Nat) : Records s (pushBefore s n m area gen j) := by
  unfold pushBefore
  dsimp only
  split
  · exact records_refl s
  · split
    · exact records_refl s
    · split
      · exact records_refl s
      · refine records_ite _ (records_refl s) (records_ite _ (records_sweepMark ..) (records_ite _ (records_sweepMark ..) ?_))
        exact records_trans (records_pushFullSlip s n _ _ _) (records_pushed _ n _ _ _)

theorem records_mirrorNote (s : State) (n m area gen j : Nat) : Records s (mirrorNote s n m area gen j) := by
  unfold mirrorNote
  split
  · exact records_ite _ (records_modFn (fun _ => rfl)) (records_refl s)
  · exact records_refl s

theorem records_foldStep (s : State) (n m j : Nat) (slot : List Byte) : Records s (foldStep s n m j slot) :=
  records_ite _ (records_setFnSt rfl) (records_refl s)

/-- A slot of this die's own member is written where it lies. -/
theorem heldWrite_writes {n mem area gen j : Nat} {m : Manifest} (slot : List Byte) (hself : (fnSt s n).self = mem)
    (hm : (fnSt s n).manifest = some m) : ∃ t, Records s t ∧
      Records (rangeWrite t n (slotOffset m area gen j) slot) (heldWrite s n mem area gen j slot) := by
  have hpush := records_pushBefore s n mem area gen j
  have hself' : (fnSt (pushBefore s n mem area gen j) n).self = mem := (congrArg FnSt.self (hpush.fn n) :).trans hself
  have hm' : (fnSt (pushBefore s n mem area gen j) n).manifest = some m := (congrArg FnSt.manifest (hpush.fn n) :).trans hm
  refine ⟨pushBefore s n mem area gen j, hpush, ?_⟩
  unfold heldWrite slotWrite
  dsimp only
  rw [if_pos hself', hm']
  exact records_trans (records_mirrorNote ..) (records_ite _ (records_foldStep ..) (records_refl _))

/-! #### Reading through records -/

theorem deep_of_records (h : Records s t) : t.deep = s.deep := (congrArg State.deep h.rest :)
theorem waits_of_records (h : Records s t) : t.waits = s.waits := (congrArg State.waits h.rest :)
theorem ticks_of_records (h : Records s t) : t.ticks = s.ticks := (congrArg State.ticks h.rest :)
theorem cores_of_records (h : Records s t) : t.cores = s.cores := (congrArg State.cores h.rest :)
theorem self_of_records (h : Records s t) (n : Nat) : (fnSt t n).self = (fnSt s n).self := (congrArg FnSt.self (h.fn n) :)
theorem manifest_of_records (h : Records s t) (n : Nat) : (fnSt t n).manifest = (fnSt s n).manifest := (congrArg FnSt.manifest (h.fn n) :)
theorem work_of_records (h : Records s t) (n : Nat) : (fnSt t n).work = (fnSt s n).work := (congrArg FnSt.work (h.fn n) :)
theorem hold_of_records (h : Records s t) (n : Nat) : (fnSt t n).hold = (fnSt s n).hold := (congrArg FnSt.hold (h.fn n) :)
theorem unrebuilt_of_records (h : Records s t) (n : Nat) : (fnSt t n).unrebuilt = (fnSt s n).unrebuilt := (congrArg FnSt.unrebuilt (h.fn n) :)
theorem group_of_records (h : Records s t) (n : Nat) : (fnSt t n).group = (fnSt s n).group := (congrArg FnSt.group (h.fn n) :)

theorem grpOf_of_records (h : Records s t) (n : Nat) : grpOf (fnSt t n) = grpOf (fnSt s n) := by
  unfold grpOf
  rw [manifest_of_records h, group_of_records h]

theorem workAt_of_records (h : Records s t) (n mem area row : Nat) : workAt (fnSt t n) mem area row = workAt (fnSt s n) mem area row := by
  unfold workAt
  rw [work_of_records h]

theorem heldSlot_of_records (h : Records s t) (n mem area gen j : Nat) : heldSlot t n mem area gen j = heldSlot s n mem area gen j := by
  unfold heldSlot slotRead rangeRead
  rw [self_of_records h, manifest_of_records h, deep_of_records h]

theorem noted_of_records {a : ActOn} {area : Nat} {v : RowWork} (h : Records s t) (hv : Noted s a area v) : Noted t a area v := by
  unfold Noted
  rw [workAt_of_records h, hold_of_records h]
  exact hv

/-- A slot of this die's own member reads back after it is written. -/
theorem heldSlot_heldWrite {n mem area gen j : Nat} {m : Manifest} {slot : List Byte} (hself : (fnSt s n).self = mem)
    (hm : (fnSt s n).manifest = some m) (hlen : slot.length = 65536) :
    heldSlot (heldWrite s n mem area gen j slot) n mem area gen j = slot := by
  obtain ⟨t, hbefore, hafter⟩ := heldWrite_writes (s := s) (area := area) (gen := gen) (j := j) slot hself hm
  have hself' : (fnSt (rangeWrite t n (slotOffset m area gen j) slot) n).self = mem := (self_of_records hbefore n).trans hself
  have hm' : (fnSt (rangeWrite t n (slotOffset m area gen j) slot) n).manifest = some m := (manifest_of_records hbefore n).trans hm
  rw [heldSlot_of_records hafter, heldSlot, if_pos hself', slotRead, hm']
  dsimp only
  rw [rangeRead, rangeWrite, ← hlen, memReadN_writeN]

/-- Writing a slot leaves the rest of the die as recording does. -/
theorem heldWrite_others {n mem area gen j : Nat} {m : Manifest} (slot : List Byte) (hself : (fnSt s n).self = mem)
    (hm : (fnSt s n).manifest = some m) : ∃ d, Records { s with deep := d } (heldWrite s n mem area gen j slot) := by
  obtain ⟨t, hbefore, hafter⟩ := heldWrite_writes (s := s) (area := area) (gen := gen) (j := j) slot hself hm
  have hwrite : Records { s with deep := memWriteN t.deep (rangeAddr n (slotOffset m area gen j)) slot }
      (rangeWrite t n (slotOffset m area gen j) slot) :=
    ⟨congrArg (fun r : State => { r with deep := memWriteN t.deep (rangeAddr n (slotOffset m area gen j)) slot }) hbefore.rest,
      hbefore.words, hbefore.fn⟩
  exact ⟨_, records_trans hwrite hafter⟩

end

/-! #### GSEND and SEND (R68, R75) -/

section
variable {s t : State} {k : ActAt} {imgs : RowSet} {w : WheelImage} {e : WheelEntry} {m : Manifest} {g : GroupEntry} {a : ActOn} {x : FnSt}

theorem selfDie_of_records (h : Records s t) : selfDie t = selfDie s := by
  unfold selfDie
  rw [h.words _ (by unfold recordWord reportWord; decide)]

/-- The wait of deltas on their way. -/
def underway (s : State) (v : Wait) : Wait := { v with sent := true, sentAt := s.ticks }

theorem records_foldl_away {α : Type} {f : State → α → State} (l : List α)
    (hf : ∀ t, Records s t → ∀ y ∈ l, Records t (f t y)) : ∀ t, Records s t → Records s (l.foldl f t) := by
  induction l with
  | nil => exact fun t ht => ht
  | cons y l ih =>
    intro t ht
    exact ih (fun t ht z hz => hf t ht z (List.mem_cons_of_mem _ hz)) _ (records_trans ht (hf t ht y (List.mem_cons_self ..)))

/-- Deltas to other dies go out as packets. -/
theorem sendWait_away {v : Wait} (tc : Nat) (haway : ∀ h ∈ v.holders, dieBits h.dst ≠ selfDie s) :
    Records (putWait s v (underway s v)) (sendWait s v tc) := by
  refine records_foldl_away v.holders (fun t ht h hh => ?_) _ (records_refl _)
  have hself : selfDie t = selfDie s := (selfDie_of_records ht).trans rfl
  refine records_ite _ (records_refl t) ?_
  rw [if_neg (by rw [hself]; exact haway h hh)]
  exact records_sendTo ..

theorem launchWait_away {v : Wait} (haway : ∀ h ∈ v.holders, dieBits h.dst ≠ selfDie s) (hsome : v.holders ≠ []) :
    Records (putWait s v (underway s v)) (launchWait s v) := by
  unfold launchWait
  dsimp only
  rw [if_neg (by rw [List.isEmpty_iff]; exact hsome)]
  exact sendWait_away 1 haway

theorem underway_mem {v : Wait} (h : v ∈ s.waits) : underway s v ∈ (putWait s v (underway s v)).waits := by
  rw [putWait, List.mem_map]
  exact ⟨v, h, if_pos rfl⟩

theorem freeCore_cores (s : State) (i : Nat) (leaf : Nat × Nat × Nat × Nat) : freeCore s i leaf = { s with cores := (freeCore s i leaf).cores } := by
  unfold freeCore
  dsimp only
  split <;> rfl

theorem gradRelease_cores (s : State) (n : Nat) (v : RowWork) : gradRelease s n v = { s with cores := (gradRelease s n v).cores } := by
  unfold gradRelease
  split
  · exact freeCore_cores ..
  · rfl

/-- The die once the work of a gradient row is recorded and its core, if due, released. -/
def gradSent (s : State) (n : Nat) (v : RowWork) : State := todo (gradRelease (putWork s n v) n v) (.gradCheck n)

theorem gsendWork_eq {v : RowWork} (hx : fnSt s a.n = x) (hv : a.work x 1 = v) (hnull : v.isNull = true) :
    gsendWork s a = gradSent (contribute s (mkWait x a .grad 1 (landGen x) x.step true [])) a.n { v with sent := true } := by
  unfold gsendWork
  rw [hx]
  dsimp only
  rw [hv, hnull, if_pos rfl]
  rfl

theorem fnSt_gradSent (s : State) (n : Nat) (v : RowWork) (j : Nat) : fnSt (gradSent s n v) j = fnSt (putWork s n v) j := by
  unfold gradSent
  rw [gradRelease_cores]
  rfl

theorem waits_gradSent (s : State) (n : Nat) (v : RowWork) : (gradSent s n v).waits = s.waits := by
  unfold gradSent
  rw [gradRelease_cores]
  rfl

theorem ticks_gradSent (s : State) (n : Nat) (v : RowWork) : (gradSent s n v).ticks = s.ticks := by
  unfold gradSent
  rw [gradRelease_cores]
  rfl

theorem holders_mkWait {kind : WaitKind} {area gen stamp : Nat} {isNull : Bool} {image : List Byte} (hg : grpOf x = some g) :
    (mkWait x a kind area gen stamp isNull image).holders = holdersOf x g a.j := by
  unfold mkWait
  dsimp only
  rw [hg]

/-- New deltas go out to the holders, all on other dies. -/
theorem contribute_away {v : Wait} (haway : ∀ h ∈ v.holders, dieBits h.dst ≠ selfDie s) (hsome : v.holders ≠ []) :
    Records (putWait { s with waits := s.waits ++ [v] } v (underway s v)) (contribute s v) :=
  launchWait_away (s := { s with waits := s.waits ++ [v] }) haway hsome

theorem gsend_sends (h : Reached s k actGsend [] w e m g a) (hleaf : (a.leaf (fnSt s k.fn) 1).isSome = true) {v : RowWork}
    (hv : a.work (fnSt s k.fn) 1 = v) (hread : v.loaded = true) (hnull : v.isNull = true) (hnew : v.sent = false)
    (hsome : holdersOf (fnSt s k.fn) g a.j ≠ []) (haway : ∀ h ∈ holdersOf (fnSt s k.fn) g a.j, dieBits h.dst ≠ selfDie s) :
    Does (.gsend k) s (fun u => Noted u a 1 { v with sent := true } ∧ u.ticks = (due s k e).ticks ∧ ∃ v ∈ u.waits, v.kind = .grad ∧
      v.fn = k.fn.val ∧ v.row = a.j ∧ v.member = a.m ∧ v.isNull = true ∧ v.sent = true ∧ v.stamp = (fnSt s k.fn).step ∧
      v.holders = holdersOf (fnSt s k.fn) g a.j) := by
  have hx := fnSt_of_reached h
  have hfree := free_of_reached h
  have hcond : condGsend (due s k e) a = .go := by
    unfold condGsend
    rw [hx]
    dsimp only
    rw [hv, Option.isNone_eq_false_iff.mpr hleaf, hnew, hread, hnull]
    simp
  generalize hd : mkWait (fnSt s k.fn) a .grad 1 (landGen (fnSt s k.fn)) (fnSt s k.fn).step true [] = d
  have hholders : d.holders = holdersOf (fnSt s k.fn) g a.j := by rw [← hd]; exact holders_mkWait h.group
  have hsent := contribute_away (s := due s k e) (v := d) (by rw [hholders, due_eq, selfDie_advance]; exact haway) (by rw [hholders]; exact hsome)
  have hwork : gsendWork (due s k e) a = gradSent (contribute (due s k e) d) a.n { v with sent := true } := by rw [← hd]; exact gsendWork_eq hx hv hnull
  refine does_onDie (exec_gsend s k) h.up ((act_go h hcond).trans hwork) ⟨noted_of_fn (fnSt_gradSent ..) (noted_putWork ?_ ?_), ?_,
    underway (due s k e) d, ?_, ?_⟩
  · rw [← hv]
    exact work_key a (fnSt s k.fn) 1
  · rw [hold_of_records hsent]
    exact hfree
  · rw [ticks_gradSent, ticks_of_records hsent]
    rfl
  · rw [waits_gradSent, waits_of_records hsent]
    exact underway_mem (s := { due s k e with waits := (due s k e).waits ++ [d] }) (List.mem_append_right _ (List.mem_singleton_self _))
  · subst hd
    exact ⟨rfl, (member_of_reached h).1, rfl, rfl, rfl, rfl, rfl, hholders⟩

theorem selfDie_putWork (s : State) (n : Nat) (v : RowWork) : selfDie (putWork s n v) = selfDie s := rfl

theorem sendWork_eq {v : RowWork} {d : Wait} (hx : fnSt s a.n = x) (hv : a.work x 0 = v) (htouched : v.isNull = false)
    (hopen : v.settled = false)
    (hd : s.waits.find? (fun q => decide (q.fn = a.n) && decide (q.kind = .state) && decide (q.row = a.j) && decide (q.member = a.m) &&
      !q.sent) = some d) : sendWork s a = launchWait (putWork s a.n { v with sent := true }) d := by
  have hd' : (putWork s a.n { v with sent := true }).waits.find? (fun q => decide (q.fn = a.n) && decide (q.kind = .state) &&
      decide (q.row = a.j) && decide (q.member = a.m) && !q.sent) = some d := hd
  unfold sendWork
  rw [hx]
  dsimp only
  rw [hv, if_neg (by rw [htouched, hopen]; decide), hd']

theorem send_sends (h : Reached s k actSend [] w e m g a) {l : LeafRef} (hl : a.leaf (fnSt s k.fn) 0 = some l) (hkind : l.kind = .state)
    {v : RowWork} (hv : a.work (fnSt s k.fn) 0 = v) (hread : v.loaded = true) (htouched : v.isNull = false) (hopen : v.settled = false)
    (hreg : v.registered = true) (hnew : v.sent = false) (htwin : v.twin ≠ 4) {d : Wait}
    (haway : ∀ h ∈ d.holders, dieBits h.dst ≠ selfDie s) (hsome : d.holders ≠ [])
    (hd : s.waits.find? (fun q => decide (q.fn = k.fn.val) && decide (q.kind = .state) && decide (q.row = a.j) && decide (q.member = a.m) &&
      !q.sent) = some d) :
    Does (.send k) s (fun u => Noted u a 0 { v with sent := true } ∧ { d with sent := true, sentAt := u.ticks } ∈ u.waits ∧
      u.ticks = (due s k e).ticks) := by
  have hx := fnSt_of_reached h
  have hfree := free_of_reached h
  have hcond : condSend (due s k e) a = .go := by
    unfold condSend
    rw [hx]
    dsimp only
    rw [hl]
    dsimp only
    rw [hv, hnew, hread, htouched, hopen, hreg, if_neg (by simp [hkind, htwin])]
    rfl
  have hwork := sendWork_eq hx hv htouched hopen (d := d) (by rw [(member_of_reached h).1]; exact hd)
  have hsent := launchWait_away (s := putWork (due s k e) a.n { v with sent := true }) (v := d)
    (by rw [selfDie_putWork, due_eq, selfDie_advance]; exact haway) hsome
  have hmem : d ∈ s.waits := List.mem_of_find?_eq_some hd
  have hnoted : Noted (putWork (due s k e) a.n { v with sent := true }) a 0 { v with sent := true } := by
    refine noted_putWork ?_ hfree
    rw [← hv]
    exact work_key a (fnSt s k.fn) 0
  have hticks := ticks_of_records hsent
  refine does_onDie (exec_send s k) h.up ((act_go h hcond).trans hwork) ⟨noted_of_records hsent (noted_of_fn rfl hnoted), ?_, hticks⟩
  rw [hticks, waits_of_records hsent]
  exact underway_mem hmem

end

/-! #### GWRITE (R125) -/

section
variable {s t : State} {k : ActAt} {imgs : RowSet} {w : WheelImage} {e : WheelEntry} {m : Manifest} {g : GroupEntry} {a : ActOn} {x : FnSt}

theorem slotStore_written {d : DeepWrite} (h : sliceHalted s d.slice = false) :
    slotStore s d = (heldWrite s d.fn d.member d.area d.gen d.row d.bytes, true) := by
  unfold slotStore
  rw [h, if_neg (by decide)]

theorem heldSlot_putWork (s : State) (n : Nat) (v : RowWork) (mem area gen j : Nat) :
    heldSlot (putWork s n v) n mem area gen j = heldSlot s n mem area gen j := by
  unfold heldSlot slotRead
  rw [putWork, fnSt_modFn_same]
  rfl

theorem heldSlot_of_same {n mem area gen j : Nat} (hfns : t.fns = s.fns) (hdeep : t.deep = s.deep) :
    heldSlot t n mem area gen j = heldSlot s n mem area gen j := by
  unfold heldSlot slotRead rangeRead fnSt
  rw [hfns, hdeep]

theorem fnSt_gradRelease (s : State) (n : Nat) (v : RowWork) (j : Nat) : fnSt (gradRelease s n v) j = fnSt s j := by
  rw [gradRelease_cores]
  rfl

theorem heldSlot_gradRelease (s : State) (i : Nat) (v : RowWork) (n mem area gen j : Nat) :
    heldSlot (gradRelease s i v) n mem area gen j = heldSlot s n mem area gen j := by
  rw [gradRelease_cores]
  exact heldSlot_of_same rfl rfl

theorem rebuiltRow_built {n area gen j : Nat} (h : unrebuiltAt (fnSt s n) area gen j = []) : rebuiltRow s n area gen j = s := by
  unfold rebuiltRow
  dsimp only
  rw [h]
  rfl

theorem gwriteDone_eq {n mem j gen : Nat} {v : RowWork} (hv : workAt (fnSt s n) mem 1 j = some v)
    (hbuilt : unrebuiltAt (fnSt s n) 1 gen j = []) :
    gwriteDone s n mem j gen = gradRelease (putWork s n { v with written := true }) n { v with written := true } := by
  unfold gwriteDone
  rw [hv]
  dsimp only
  rw [rebuiltRow_built hbuilt]

theorem self_of_reached {code : Nat} (h : Reached s k code imgs w e m g a) : (fnSt (due s k e) a.n).self = a.m := by
  rw [fnSt_of_reached h, (member_of_reached h).2.1]

theorem manifest_of_reached {code : Nat} (h : Reached s k code imgs w e m g a) : (fnSt (due s k e) a.n).manifest = some m := by
  rw [fnSt_of_reached h, h.manifest]

theorem landGen_of_manifest (hm : x.manifest = some m) : landGen x = x.step % (m.d + 1) := by
  unfold landGen
  rw [hm]

theorem unrebuiltAt_of_records (h : Records s t) (n area gen j : Nat) : unrebuiltAt (fnSt t n) area gen j = unrebuiltAt (fnSt s n) area gen j := by
  unfold unrebuiltAt
  rw [unrebuilt_of_records h]

theorem gwrite_writes (h : Reached s k actGwrite [] w e m g a) (hleaf : (a.leaf (fnSt s k.fn) 1).isSome = true) {v : RowWork}
    (hv : a.work (fnSt s k.fn) 1 = v) (hread : v.loaded = true) (htouched : v.isNull = false) (hdone : v.committed = true)
    (hnew : v.written = false) (hhalt : sliceHalted s a.sl = false) {gen : Nat} (hgen : (fnSt s k.fn).step % (m.d + 1) = gen)
    (hbuilt : unrebuiltAt (fnSt s k.fn) 1 gen a.j = []) : Does (.gwrite k) s (fun u =>
      Noted u a 1 { v with written := true } ∧
      heldSlot u k.fn a.m 1 gen a.j = memReadN (coreSt s (coreIx a.sl v.core)).sram 0x10000 65536) := by
  have hx := fnSt_of_reached h
  have hfree := free_of_reached h
  have hself := self_of_reached h
  have hm := manifest_of_reached h
  have hcond : condGwrite (due s k e) a = .go := by
    unfold condGwrite
    rw [hx]
    dsimp only
    rw [hv, Option.isNone_eq_false_iff.mpr hleaf, hnew, hread, htouched, hdone]
    rfl
  have hat : workAt (fnSt s k.fn) a.m 1 a.j = some v := by rw [← hv, workAt_of_loaded (by rw [hv]; exact hread)]
  generalize hslot : frameSlot (due s k e) (coreIx a.sl v.core) 0x10000 = slot
  have hlen : slot.length = 65536 := by rw [← hslot]; exact length_memReadN ..
  obtain ⟨d, hwrite⟩ := heldWrite_others (s := due s k e) (area := 1) (gen := gen) (j := a.j) slot hself hm
  have hat' : workAt (fnSt (heldWrite (due s k e) a.n a.m 1 gen a.j slot) a.n) a.m 1 a.j = some v := by
    rw [workAt_of_records hwrite]
    exact (congrArg (fun x => workAt x a.m 1 a.j) hx).trans hat
  have hbuilt' : unrebuiltAt (fnSt (heldWrite (due s k e) a.n a.m 1 gen a.j slot) a.n) 1 gen a.j = [] := by
    rw [unrebuiltAt_of_records hwrite]
    exact (congrArg (fun x => unrebuiltAt x 1 gen a.j) hx).trans hbuilt
  have hwork : gwriteWork (due s k e) a = gradRelease (putWork (heldWrite (due s k e) a.n a.m 1 gen a.j slot) a.n { v with written := true }) a.n
      { v with written := true } := by
    unfold gwriteWork
    rw [hx]
    dsimp only
    rw [hv, landGen_of_manifest h.manifest, hgen, hslot, slotStore_written (by rw [due_eq, sliceHalted_advance]; exact hhalt)]
    exact gwriteDone_eq hat' hbuilt'
  refine does_onDie (exec_gwrite s k) h.up ((act_go h hcond).trans hwork) ⟨noted_of_fn (fnSt_gradRelease ..) (noted_putWork ?_ ?_), ?_⟩
  · rw [← hv]
    exact work_key a (fnSt s k.fn) 1
  · rw [hold_of_records hwrite]
    exact hfree
  · rw [heldSlot_gradRelease, ← (member_of_reached h).1, heldSlot_putWork, heldSlot_heldWrite hself hm hlen, ← hslot]
    rfl

end

/-! #### LWRITE (R75) -/

section
variable {s t : State} {k : ActAt} {imgs : RowSet} {w : WheelImage} {e : WheelEntry} {m : Manifest} {g : GroupEntry} {a : ActOn} {x : FnSt}

theorem spread_nil (a : Nat) : ∀ n, spread [] a n = zeros n := by
  intro n
  induction n generalizing a with
  | zero => rfl
  | succ n ih => rw [spread, ih]; rfl

theorem memReadN_memZero (mem : Mem) (a n : Nat) : memReadN (memZero mem a n) a n = zeros n := by
  have hnone : (memZero mem a n).filter (fun c => decide (a ≤ c.1) && decide (c.1 < a + n)) = [] := by
    rw [memZero, List.filter_filter, List.filter_eq_nil_iff]
    intro c _
    simp only [Bool.and_eq_true, Bool.or_eq_true, decide_eq_true_eq, not_and]
    omega
  rw [memReadN, hnone, spread_nil]

/-- What freeing a ledger entry leaves. -/
structure Frees (s t : State) (i : Nat) : Prop where
  fns : t.fns = s.fns
  deep : t.deep = s.deep
  waits : t.waits = s.waits
  inForce : t.inForce = s.inForce
  variant : t.variant = s.variant
  near : t.near = memZero s.near (32 * i) 32

theorem frees_ledgerFree (s : State) (i : Nat) : Frees s (ledgerFree s i) i := by
  unfold ledgerFree
  dsimp only
  split
  · simp only [ledgerUse, maxF]
    exact ⟨by simp only [setF_fns], by simp only [setF_deep], by simp only [setF_waits], by simp only [setF_inForce], by simp only [setF_variant],
      by simp only [setF_near]⟩
  · exact ⟨rfl, rfl, rfl, rfl, rfl, rfl⟩

theorem deltaWait_of_waits {n mem j : Nat} (h : t.waits = s.waits) : deltaWait t n mem j = deltaWait s n mem j := by
  unfold deltaWait
  rw [h]

theorem forceF_of_inForce (h : t.inForce = s.inForce) (hv : t.variant = s.variant) (n : Nat) (f : Fld) : forceF t n f = forceF s n f := by
  unfold forceF forceAt
  rw [h, hv]

/-- The die once a leaf's write is done: its entry is free and its wait dropped. -/
def leafWritten (s : State) (n : Nat) (v : RowWork) (d : Wait) : State :=
  putWork (dropWait (ledgerFree s (ledgerIx v.slice v.core v.ledger)) d) n { v with written := true }

theorem lwriteDone_eq {n mem j : Nat} {v : RowWork} {d : Wait} (hv : workAt (fnSt s n) mem 0 j = some v) (hd : deltaWait s n mem j = some d)
    (htrace : forceF s n FN_DIG_CTRL_LEAF_TRACE = 0) : lwriteDone s n mem j = leafWritten s n v d := by
  have hfrees := frees_ledgerFree s (ledgerIx v.slice v.core v.ledger)
  have hd' : deltaWait (ledgerFree s (ledgerIx v.slice v.core v.ledger)) n mem j = some d := by rw [deltaWait_of_waits hfrees.waits, hd]
  have htrace' : forceF (dropWait (ledgerFree s (ledgerIx v.slice v.core v.ledger)) d) n FN_DIG_CTRL_LEAF_TRACE = 0 :=
    (forceF_of_inForce hfrees.inForce hfrees.variant n _).trans htrace
  unfold lwriteDone
  dsimp only
  rw [hv]
  dsimp only
  rw [hd']
  dsimp only
  rw [htrace', if_neg (by decide)]
  rfl

theorem fnSt_leafWritten (s : State) (n : Nat) (v : RowWork) (d : Wait) : fnSt (leafWritten s n v d) n = fnSt (putWork s n { v with written := true }) n := by
  rw [leafWritten, putWork, putWork, fnSt_modFn_same, fnSt_modFn_same, fnSt, dropWait, (frees_ledgerFree ..).fns, fnSt]

theorem waits_leafWritten (s : State) (n : Nat) (v : RowWork) (d : Wait) : (leafWritten s n v d).waits = s.waits.erase d := by
  rw [← (frees_ledgerFree s (ledgerIx v.slice v.core v.ledger)).waits]
  rfl

theorem near_leafWritten (s : State) (n : Nat) (v : RowWork) (d : Wait) :
    nearRead (leafWritten s n v d) (32 * ledgerIx v.slice v.core v.ledger) 32 = zeros 32 := by
  have hnear : (leafWritten s n v d).near = (ledgerFree s (ledgerIx v.slice v.core v.ledger)).near := rfl
  rw [nearRead, hnear, (frees_ledgerFree ..).near, memReadN_memZero]

theorem heldSlot_dropWait (s : State) (d : Wait) (n mem area gen j : Nat) : heldSlot (dropWait s d) n mem area gen j = heldSlot s n mem area gen j := rfl

theorem heldSlot_leafWritten (s : State) (n : Nat) (v : RowWork) (d : Wait) (mem area gen j : Nat) :
    heldSlot (leafWritten s n v d) n mem area gen j = heldSlot s n mem area gen j := by
  have hfrees := frees_ledgerFree s (ledgerIx v.slice v.core v.ledger)
  rw [leafWritten, heldSlot_putWork, heldSlot_dropWait]
  exact heldSlot_of_same hfrees.fns hfrees.deep

theorem inForce_of_records (h : Records s t) : t.inForce = s.inForce := (congrArg State.inForce h.rest :)
theorem variant_of_records (h : Records s t) : t.variant = s.variant := (congrArg State.variant h.rest :)

theorem condLwrite_due (h : Reached s k actLwrite [] w e m g a) {l : LeafRef} {v : RowWork} {d : Wait} (hl : a.leaf (fnSt s k.fn) 0 = some l)
    (hkind : l.kind = .state) (hv : a.work (fnSt s k.fn) 0 = v) (htouched : v.isNull = false) (hopen : v.settled = false)
    (hsent : v.sent = true) (hnew : v.written = false) (htwin : v.twin ≠ 4) (hd : deltaWait s k.fn a.m a.j = some d)
    (hall : d.allDone = true) : condLwrite (due s k e) a = .go := by
  unfold condLwrite
  rw [fnSt_of_reached h]
  dsimp only
  rw [hl]
  dsimp only
  rw [hv, hnew, hsent, htouched, hopen, if_neg (by simp [hkind, htwin]), if_neg (by decide), due_eq, deltaWait_advance,
    (member_of_reached h).1, hd]
  dsimp only
  rw [hall, if_pos rfl]

theorem lwrite_writes (h : Reached s k actLwrite [] w e m g a) {l : LeafRef} {v : RowWork} {d : Wait} (hl : a.leaf (fnSt s k.fn) 0 = some l)
    (hkind : l.kind = .state) (hv : a.work (fnSt s k.fn) 0 = v) (hread : v.loaded = true) (htouched : v.isNull = false)
    (hopen : v.settled = false) (hsent : v.sent = true) (hnew : v.written = false) (htwin : v.twin ≠ 4)
    (hd : deltaWait s k.fn a.m a.j = some d) (hall : d.allDone = true) (hhalt : sliceHalted s a.sl = false)
    (htrace : forceF s k.fn FN_DIG_CTRL_LEAF_TRACE = 0) : Does (.lwrite k) s (fun u => Noted u a 0 { v with written := true } ∧
      u.waits = s.waits.erase d ∧ heldSlot u k.fn a.m 0 0 a.j =
        sealPostmark (setField (memReadN (coreSt s (coreIx a.sl v.core)).sram 0x10000 65536) 0x28 4 (fnSt s k.fn).epoch) ∧
      nearRead u (32 * ledgerIx v.slice v.core v.ledger) 32 = zeros 32) := by
  have hx := fnSt_of_reached h
  have hn := (member_of_reached h).1
  have hfree := free_of_reached h
  have hself := self_of_reached h
  have hm := manifest_of_reached h
  generalize hslot : sealPostmark (setField (frameSlot (due s k e) (coreIx a.sl v.core) 0x10000) 0x28 4 (fnSt s k.fn).epoch) = slot
  have hlen : slot.length = 65536 := by
    have hframe : (frameSlot (due s k e) (coreIx a.sl v.core) 0x10000).length = 65536 := length_memReadN ..
    rw [← hslot]
    exact length_sealPostmark ((length_setField _ (by omega)).trans hframe)
  obtain ⟨mem, hwrite⟩ := heldWrite_others (s := due s k e) (area := 0) (gen := 0) (j := a.j) slot hself hm
  have hat : workAt (fnSt (heldWrite (due s k e) a.n a.m 0 0 a.j slot) a.n) a.m 0 a.j = some v := by
    rw [workAt_of_records hwrite, ← hv]
    exact (congrArg (fun x => workAt x a.m 0 a.j) hx).trans (workAt_of_loaded (by rw [hv]; exact hread))
  have hwaits : (heldWrite (due s k e) a.n a.m 0 0 a.j slot).waits = s.waits := (waits_of_records hwrite).trans rfl
  have hd' : deltaWait (heldWrite (due s k e) a.n a.m 0 0 a.j slot) a.n a.m a.j = some d := by
    rw [deltaWait_of_waits hwaits, hn, hd]
  have htrace' : forceF (heldWrite (due s k e) a.n a.m 0 0 a.j slot) a.n FN_DIG_CTRL_LEAF_TRACE = 0 := by
    rw [forceF_of_inForce (s := s) ((inForce_of_records hwrite).trans rfl) ((variant_of_records hwrite).trans rfl), hn, htrace]
  have hwork : lwriteWork (due s k e) a = leafWritten (heldWrite (due s k e) a.n a.m 0 0 a.j slot) a.n v d := by
    unfold lwriteWork
    rw [hx]
    dsimp only
    rw [hv, hslot, slotStore_written (by rw [due_eq, sliceHalted_advance]; exact hhalt)]
    dsimp only
    rw [if_pos rfl]
    exact lwriteDone_eq hat hd' htrace'
  refine does_onDie (exec_lwrite s k) h.up
    ((act_go h (condLwrite_due h hl hkind hv htouched hopen hsent hnew htwin hd hall)).trans hwork)
    ⟨noted_of_fn (fnSt_leafWritten ..) (noted_putWork ?_ ?_), ?_, ?_, near_leafWritten ..⟩
  · rw [← hv]
    exact work_key a (fnSt s k.fn) 0
  · rw [hold_of_records hwrite]
    exact hfree
  · rw [waits_leafWritten, hwaits]
  · rw [← hn, heldSlot_leafWritten, heldSlot_heldWrite hself hm hlen, ← hslot, hn]
    rfl

end

/-! #### EMIT (R75) -/

section
variable {s t : State} {k : ActAt} {imgs : RowSet} {w : WheelImage} {e : WheelEntry} {m : Manifest} {g : GroupEntry} {a : ActOn} {x : FnSt}

/-- The die without what an arrival at a seal changes: the seals, the work that falls due, and registers and interrupts. -/
def unsealed (s : State) : State := { s with regs := [], msi := [], msiLast := [], msiPend := [], seals := [], agenda := [] }

theorem unsealed_of_touches {l : List Nat} (h : Touches s t l) : unsealed t = unsealed s := by
  rw [h.1]
  rfl

theorem unsealed_sealStray (s : State) : unsealed (sealStray s) = unsealed s := by
  unfold sealStray
  generalize hflag : flagF s pgGlobal GLOBAL_WINDOW_STATUS_SEAL_STRAY = t
  have herr : Touches (addF t pgGlobal GLOBAL_WINDOW_STATUS_STRAYS 1)
      (errUnit (addF t pgGlobal GLOBAL_WINDOW_STATUS_STRAYS 1) HDR_ERR_SUMMARY_SEAL pgGlobal)
      [pgGlobal + HDR_ERR_SUMMARY_SEAL.off, pgGlobal + HDR_INT_STATUS_ERROR.off] := by
    rw [errUnit, if_pos rfl]
    exact touches_errBit ..
  rw [unsealed_of_touches herr, unsealed_of_touches (touches_addF ..), ← hflag]
  exact unsealed_of_touches (touches_setF ..)

theorem unsealed_setSeal (s : State) (i : Nat) (o : SealObj) : unsealed (setSeal s i o) = unsealed s := rfl
theorem unsealed_todo (s : State) (d : Todo) : unsealed (todo s d) = unsealed s := rfl

theorem unsealed_sealArrive (s : State) (i v : Nat) : unsealed (sealArrive s i v) = unsealed s := by
  unfold sealArrive
  dsimp only
  split
  · exact unsealed_sealStray s
  · split
    · rw [unsealed_todo, unsealed_setSeal]
    · rw [unsealed_setSeal]

theorem unsealed_groupArrive (s : State) (n : Nat) : unsealed (groupArrive s n) = unsealed s := by
  unfold groupArrive
  dsimp only
  split
  · split
    · exact unsealed_sealArrive ..
    · rfl
  · rfl

theorem fns_of_unsealed (h : unsealed t = unsealed s) : t.fns = s.fns := (congrArg State.fns h :)
theorem cores_of_unsealed (h : unsealed t = unsealed s) : t.cores = s.cores := (congrArg State.cores h :)
theorem deep_of_unsealed (h : unsealed t = unsealed s) : t.deep = s.deep := (congrArg State.deep h :)
theorem bags_of_unsealed (h : unsealed t = unsealed s) : t.bags = s.bags := (congrArg State.bags h :)
theorem ticks_of_unsealed (h : unsealed t = unsealed s) : t.ticks = s.ticks := (congrArg State.ticks h :)

theorem fnSt_of_unsealed (h : unsealed t = unsealed s) (n : Nat) : fnSt t n = fnSt s n := by
  unfold fnSt
  rw [fns_of_unsealed h]

theorem coreSt_of_unsealed (h : unsealed t = unsealed s) (i : Nat) : coreSt t i = coreSt s i := by
  unfold coreSt
  rw [cores_of_unsealed h]

/-- From `s` to `t` only bytes of the deep tier have changed. -/
def DeepOnly (s t : State) : Prop := ∃ d, t = { s with deep := d }

theorem deepOnly_refl (s : State) : DeepOnly s s := ⟨s.deep, rfl⟩

theorem deepOnly_rangeWrite (h : DeepOnly s t) (n off : Nat) (bs : List Byte) : DeepOnly s (rangeWrite t n off bs) := by
  obtain ⟨d, rfl⟩ := h
  exact ⟨_, rfl⟩

theorem deepOnly_ite {u : State} (c : Prop) [Decidable c] (ht : DeepOnly s t) (hu : DeepOnly s u) : DeepOnly s (if c then t else u) := by
  split
  · exact ht
  · exact hu

/-- A new working copy of a leaf changes bytes of the deep tier alone. -/
theorem deepOnly_emitWcAt (s : State) (n : Nat) (m : Manifest) (l : LeafRef) (body : List Byte) (step slot : Nat) :
    DeepOnly s (emitWcAt s n m l body step slot) := by
  have hcopy : ∀ off bs, DeepOnly s (rangeWrite s n off bs) := deepOnly_rangeWrite (deepOnly_refl s) n
  unfold emitWcAt
  dsimp only
  exact deepOnly_ite _ (deepOnly_refl s) (deepOnly_ite _ (deepOnly_rangeWrite (hcopy ..) ..) (hcopy ..))

/-- A core whose leaf is freed no longer has it. -/
theorem leaf_freeCore (s : State) (i : Nat) (leaf : Nat × Nat × Nat × Nat) : (coreSt (freeCore s i leaf) i).leaf ≠ some leaf := by
  unfold freeCore
  dsimp only
  split
  · rw [coreSt_setCore_same]
    exact fun h => nomatch h
  · next h => exact h

/-- The die once a row of the pass is done. -/
def rowEmitted (s : State) (n i : Nat) (leaf : Nat × Nat × Nat × Nat) (v : RowWork) : State :=
  groupArrive (putWork (freeCore s i leaf) n v) n

theorem emitWork_eq {l : LeafRef} {v : RowWork} (hx : fnSt s a.n = x) (hl : a.leaf x 0 = some l) (hm : x.manifest = some m)
    (hself : x.self = a.m) (hv : a.work x 0 = v) : ∃ d, emitWork s a =
      rowEmitted { s with deep := d } a.n (coreIx a.sl v.core) (a.n, 0, a.m, a.j) { v with done := true } := by
  obtain ⟨d, hd⟩ := deepOnly_emitWcAt s a.n m l (frameB s a.sl v.core) (fnSt s a.n).step (wcWriteSlot (fnSt s a.n) m)
  refine ⟨d, ?_⟩
  unfold emitWork
  rw [hx]
  dsimp only
  rw [hl, hm]
  dsimp only
  rw [hv, if_pos hself.symm, emitWc, hd]
  rfl

theorem emit_ends (h : Reached s k actEmit [] w e m g a) {l : LeafRef} {v : RowWork} (hl : a.leaf (fnSt s k.fn) 0 = some l)
    (hkind : l.kind = .state) (hv : a.work (fnSt s k.fn) 0 = v) (hread : v.loaded = true)
    (hready : (v.isNull || v.settled) = true ∧ v.sent = true ∨ (v.isNull || v.settled) = false ∧ v.written = true)
    (hnew : v.done = false) (htwin : v.twin ≠ 4) : Does (.emit k) s (fun u => Noted u a 0 { v with done := true } ∧
      u.ticks = (due s k e).ticks ∧ (coreSt u (coreIx a.sl v.core)).leaf ≠ some (k.fn.val, 0, a.m, a.j)) := by
  have hx := fnSt_of_reached h
  have hn := (member_of_reached h).1
  have hfree := free_of_reached h
  have hcond : condEmit (due s k e) a = .go := by
    unfold condEmit
    rw [hx]
    dsimp only
    rw [hl]
    dsimp only
    rw [hv, hnew, hread, if_neg (by simp [hkind, htwin]), if_neg (by decide)]
    rcases hready with ⟨hpassed, hsent⟩ | ⟨hworked, hwritten⟩
    · rw [hpassed, hsent]
      rfl
    · rw [hworked, hwritten]
      rfl
  obtain ⟨d, hwork⟩ := emitWork_eq (a := a) hx hl h.manifest (member_of_reached h).2.1.symm hv
  generalize hs : ({ due s k e with deep := d } : State) = r at hwork
  have harrive := unsealed_groupArrive (putWork (freeCore r (coreIx a.sl v.core) (a.n, 0, a.m, a.j)) a.n { v with done := true }) a.n
  refine does_onDie (exec_emit s k) h.up ((act_go h hcond).trans hwork) ⟨noted_of_fn (fnSt_of_unsealed harrive _) (noted_putWork ?_ ?_), ?_, ?_⟩
  · rw [← hv]
    exact work_key a (fnSt s k.fn) 0
  · rw [freeCore_cores, ← hs]
    exact hfree
  · rw [rowEmitted, ticks_of_unsealed harrive, freeCore_cores, ← hs]
    rfl
  · rw [rowEmitted, coreSt_of_unsealed harrive, coreSt_putWork, ← hn]
    exact leaf_freeCore _ _ _

end

/-! #### GHOLD and HOLD (R73) -/

section
variable {s t : State} {k : ActAt} {imgs : RowSet} {w : WheelImage} {e : WheelEntry} {m : Manifest} {g : GroupEntry} {a : ActOn} {x : FnSt}

theorem length_mkHole (g : GroupEntry) (member row area stamp epoch : Nat) (rebuilt : Bool) (kindArea image : List Byte) :
    (mkHole g member row area stamp epoch rebuilt kindArea image).length = 65536 := by
  unfold mkHole
  generalize hbody : fit 65280 (image.drop 64) = body
  have hlen : body.length = 65280 := by rw [← hbody, length_fit]
  generalize crc64 body = digest
  refine length_sealPostmark ?_
  rw [List.length_append, hlen]
  simp [length_fit]

theorem length_foldedHole (x : FnSt) (g : GroupEntry) (b : Bag) (mem : Nat) (old : List Byte) (stamp : Nat) :
    (foldedHole x g b mem old stamp).length = 65536 := by
  unfold foldedHole
  dsimp only
  split <;> exact length_mkHole ..

/-- The bag that a row's key finds has that key. -/
theorem bagFind_key {sl n area gen row p : Nat} {b : Bag} (h : bagFind s sl n area gen row p = some b) :
    b.slice = sl ∧ b.fn = n ∧ b.area = area ∧ b.gen = gen ∧ b.row = row ∧ b.p = p := by
  have hb := List.find?_some h
  simp only [Bag.isRow, Bool.and_eq_true, decide_eq_true_eq] at hb
  obtain ⟨⟨⟨⟨⟨⟨h1, h2⟩, h3⟩, h4⟩, h5⟩, h6⟩, -⟩ := hb
  exact ⟨h1, h2, h3, h4, h5, h6⟩

theorem bagFind_of_bags {sl n area gen row p : Nat} (h : t.bags = s.bags) : bagFind t sl n area gen row p = bagFind s sl n area gen row p := by
  unfold bagFind
  rw [h]

theorem release_eq (s : State) (sl n area gen row p : Nat) :
    release s sl n area gen row p = showBags { s with bags := s.bags.filter (fun b => !b.isRow sl n area gen row p) } sl := rfl

/-- What the mailbag's count of a slice leaves. -/
theorem unsealed_showBags (s : State) (sl : Nat) : unsealed (showBags s sl) = unsealed s := by
  unfold showBags maxF
  rw [unsealed_of_touches (touches_setF ..), unsealed_of_touches (touches_setF ..)]

theorem bagFind_release (s : State) (sl n area gen row p : Nat) : bagFind (release s sl n area gen row p) sl n area gen row p = none := by
  rw [release_eq, bagFind_of_bags (bags_of_unsealed (unsealed_showBags ..)), bagFind, List.find?_eq_none]
  intro b hb
  have hnot := (List.mem_filter.mp hb).2
  rw [Bool.not_eq_true'] at hnot
  rw [hnot]
  exact Bool.false_ne_true

/-- The receipts of a finished bag go out to other dies. -/
theorem sendReceipts_away {b : Bag} (haway : ∀ q ∈ b.recs, dieBits q.src ≠ selfDie s) : Records s (sendReceipts s b g) := by
  refine records_foldl_away b.recs (fun t ht q hq => ?_) s (records_refl s)
  rw [if_neg (by rw [selfDie_of_records ht]; exact haway q hq)]
  exact records_sendReceipt ..

/-- A row whose pigeonhole is written. -/
def rowFinished (s : State) (b : Bag) : State :=
  modFn (release s b.slice b.fn b.area b.gen b.row b.p) b.fn (fun x => { x with rowsDone := x.rowsDone ++ [(b.area, b.row, b.p)] })

theorem finishRow_eq {b : Bag} (hg : grpOf (fnSt s b.fn) = some g) :
    unsealed (finishRow s b) = unsealed (rowFinished (sendReceipts s b g) b) := by
  unfold finishRow
  rw [hg]
  dsimp only
  split
  · exact unsealed_groupArrive ..
  · rfl

/-- The row `key` is done. -/
def rowDone (key : Nat × Nat × Nat) (x : FnSt) : FnSt := { x with rowsDone := x.rowsDone ++ [key] }

theorem fnSt_release (s : State) (sl n area gen row p i : Nat) : fnSt (release s sl n area gen row p) i = fnSt s i :=
  (fnSt_of_unsealed (unsealed_showBags ..) i).trans rfl

theorem deep_release (s : State) (sl n area gen row p : Nat) : (release s sl n area gen row p).deep = s.deep :=
  (deep_of_unsealed (unsealed_showBags ..)).trans rfl

theorem fnSt_rowFinished (s : State) (b : Bag) : fnSt (rowFinished s b) b.fn = rowDone (b.area, b.row, b.p) (fnSt s b.fn) := by
  rw [rowFinished, fnSt_modFn_same, fnSt_release]
  rfl

theorem deep_rowFinished (s : State) (b : Bag) : (rowFinished s b).deep = s.deep := (modFn_deep ..).trans (deep_release ..)

theorem bagFind_rowFinished (s : State) (b : Bag) : bagFind (rowFinished s b) b.slice b.fn b.area b.gen b.row b.p = none :=
  (bagFind_of_bags (modFn_bags ..)).trans (bagFind_release ..)

/-- Finishing a row leaves the deep tier, adds the row to those done and removes its bag. -/
theorem finishRow_finishes {b : Bag} (hg : grpOf (fnSt s b.fn) = some g) (haway : ∀ q ∈ b.recs, dieBits q.src ≠ selfDie s) :
    (finishRow s b).deep = s.deep ∧
    (∃ t, Records s t ∧ fnSt (finishRow s b) b.fn = rowDone (b.area, b.row, b.p) (fnSt t b.fn)) ∧
    bagFind (finishRow s b) b.slice b.fn b.area b.gen b.row b.p = none := by
  have hsent := sendReceipts_away (g := g) haway
  have hfin := finishRow_eq hg
  refine ⟨?_, ⟨sendReceipts s b g, hsent, ?_⟩, ?_⟩
  · rw [deep_of_unsealed hfin, deep_rowFinished, deep_of_records hsent]
  · rw [fnSt_of_unsealed hfin, fnSt_rowFinished]
  · rw [bagFind_of_bags (bags_of_unsealed hfin), bagFind_rowFinished]

/-- The generation of a row's pigeonhole. -/
def holeGen (x : FnSt) (area : Nat) : Nat := if area = 0 then 0 else landGen x

theorem condHold_go {area p : Nat} {b : Bag} (hx : fnSt s a.n = x) (hdue : holdDue x a area = some p)
    (hb : bagFind s a.sl a.n area (holeGen x area) a.j p = some b) (hidle : b.writing = false) (hall : bagComplete x b = true) :
    condHold s a area = .go := by
  have hb' : bagFind s a.sl a.n area (if area = 0 then 0 else landGen x) a.j p = some b := hb
  unfold condHold
  rw [hx]
  dsimp only
  rw [hdue]
  dsimp only
  rw [hb']
  dsimp only
  rw [hidle, hall]
  rfl

theorem holdWork_eq {area p gen : Nat} {b : Bag} {old : List Byte} (hx : fnSt s a.n = x) (hm : x.manifest = some m) (hg : grpOf x = some g)
    (hdue : holdDue x a area = some p) (hgen : holeGen x area = gen) (hb : bagFind s a.sl a.n area gen a.j p = some b)
    (hold : heldSlot s a.n a.m area gen a.j = old) (hgood : area = 0 → slotErased x.epoch 0 true old = false) (hwhole : b.damaged = false)
    (hhalt : sliceHalted s a.sl = false) :
    holdWork s a area = finishRow (heldWrite s a.n a.m area gen a.j (foldedHole x g b a.m old x.step)) b := by
  have hnot : ¬(area = 0 ∧ slotErased x.epoch 0 true old = true) := fun hno => by
    rw [hgood hno.1] at hno
    exact Bool.false_ne_true hno.2
  subst hgen
  have hb' : bagFind s a.sl a.n area (if area = 0 then 0 else landGen x) a.j p = some b := hb
  have hold' : heldSlot s a.n a.m area (if area = 0 then 0 else landGen x) a.j = old := hold
  unfold holdWork
  rw [hx]
  dsimp only
  rw [hdue, hm, hg]
  dsimp only
  rw [hb']
  dsimp only
  rw [hold', if_neg hnot, hwhole, if_neg Bool.false_ne_true, hold', slotStore_written (by exact hhalt)]
  exact if_pos rfl

theorem heldSlot_of_fn {n mem area gen j : Nat} (hself : (fnSt t n).self = (fnSt s n).self) (hm : (fnSt t n).manifest = (fnSt s n).manifest)
    (hdeep : t.deep = s.deep) : heldSlot t n mem area gen j = heldSlot s n mem area gen j := by
  unfold heldSlot slotRead rangeRead
  rw [hself, hm, hdeep]

/-- The row's pigeonhole is written and the row done. -/
theorem hold_writes {area p gen : Nat} {b : Bag} {old : List Byte} {u : State} (hx : fnSt s a.n = x) (hself : x.self = a.m)
    (hm : x.manifest = some m) (hg : grpOf x = some g) (hfree : x.hold = none) (hb : bagFind s a.sl a.n area gen a.j p = some b)
    (haway : ∀ q ∈ b.recs, dieBits q.src ≠ selfDie s)
    (hu : finishRow (heldWrite s a.n a.m area gen a.j (foldedHole x g b a.m old x.step)) b = u) :
    heldSlot u a.n a.m area gen a.j = foldedHole x g b a.m old x.step ∧ (fnSt u a.n).rowsDone.contains (area, a.j, p) = true ∧
    bagFind u a.sl a.n area gen a.j p = none ∧ (fnSt u a.n).hold = none := by
  obtain ⟨hsl, hn, harea, hgen, hrow, hp⟩ := bagFind_key hb
  have hself' : (fnSt s a.n).self = a.m := by rw [hx, hself]
  have hm' : (fnSt s a.n).manifest = some m := by rw [hx, hm]
  have hlen := length_foldedHole x g b a.m old x.step
  generalize foldedHole x g b a.m old x.step = slot at hu hlen ⊢
  obtain ⟨d, hwrite⟩ := heldWrite_others (s := s) (area := area) (gen := gen) (j := a.j) slot hself' hm'
  have hslot := heldSlot_heldWrite (s := s) (area := area) (gen := gen) (j := a.j) hself' hm' hlen
  generalize heldWrite s a.n a.m area gen a.j slot = r at hu hwrite hslot
  have hdie : selfDie r = selfDie s := (selfDie_of_records hwrite).trans rfl
  have hg' : grpOf (fnSt r b.fn) = some g := by rw [hn, grpOf_of_records hwrite]; exact (congrArg grpOf hx).trans hg
  obtain ⟨hdeep, ⟨t, ht, hdone⟩, hgone⟩ := finishRow_finishes hg' (fun q hq => by rw [hdie]; exact haway q hq)
  rw [hu] at hdeep hdone hgone
  rw [hn] at hdone hgone
  rw [hsl, harea, hgen, hrow, hp] at hgone
  rw [harea, hrow, hp] at hdone
  refine ⟨?_, ?_, hgone, ?_⟩
  · rw [← hslot]
    refine heldSlot_of_fn ?_ ?_ hdeep
    · rw [hdone]
      exact self_of_records ht a.n
    · rw [hdone]
      exact manifest_of_records ht a.n
  · rw [hdone, rowDone]
    simp
  · rw [hdone]
    exact (hold_of_records ht a.n).trans ((hold_of_records hwrite a.n).trans ((congrArg FnSt.hold hx).trans hfree))

theorem actHold_ends {code area gen p : Nat} (h : Reached s k code imgs w e m g a) {b : Bag} {old : List Byte}
    (hgen : holeGen (fnSt s k.fn) area = gen) (hold : heldSlot s k.fn a.m area gen a.j = old)
    (hdue : holdDue (fnSt s k.fn) a area = some p) (hb : bagFind s a.sl k.fn area gen a.j p = some b) (hidle : b.writing = false)
    (hwhole : b.damaged = false) (hall : bagComplete (fnSt s k.fn) b = true)
    (hgood : area = 0 → slotErased (fnSt s k.fn).epoch 0 true old = false) (hhalt : sliceHalted s a.sl = false)
    (haway : ∀ q ∈ b.recs, dieBits q.src ≠ selfDie s) : ∃ u,
      act s k code imgs (fun s a => condHold s a area) (fun s a _ => holdWork s a area) = u ∧
      heldSlot u k.fn a.m area gen a.j = foldedHole (fnSt s k.fn) g b a.m old (fnSt s k.fn).step ∧
      (fnSt u k.fn).rowsDone.contains (area, a.j, p) = true ∧ bagFind u a.sl k.fn area gen a.j p = none ∧ (fnSt u k.fn).hold = none := by
  have hx := fnSt_of_reached h
  obtain ⟨hn, hmem, -⟩ := member_of_reached h
  have hb' : bagFind (due s k e) a.sl a.n area gen a.j p = some b := by rw [hn]; exact (bagFind_of_bags rfl).trans hb
  have hold' : heldSlot (due s k e) a.n a.m area gen a.j = old := by rw [due_eq, heldSlot_advance, hn, hold]
  have hcond : condHold (due s k e) a area = .go := condHold_go hx hdue (by rw [hgen]; exact hb') hidle hall
  have hwork := holdWork_eq hx h.manifest h.group hdue hgen hb' hold' hgood hwhole (by rw [due_eq, sliceHalted_advance]; exact hhalt)
  have haway' : ∀ q ∈ b.recs, dieBits q.src ≠ selfDie (due s k e) := by
    rw [due_eq, selfDie_advance]
    exact haway
  have hends := hold_writes (x := fnSt s k.fn) (s := due s k e) hx hmem.symm h.manifest h.group h.free hb' haway' hwork.symm
  rw [hn] at hends
  exact ⟨_, act_go h hcond, hends⟩

end

/-! #### The clauses together -/

section
variable {s : State} {k : ActAt} {imgs : RowSet} {w : WheelImage} {e : WheelEntry} {m : Manifest} {g : GroupEntry} {a : ActOn}

theorem actHold_clause :
    ∀ c ∈ [(actGhold, Instr.ghold k, 1, ([] : RowSet)), (actHold, .hold k imgs, 0, imgs)], Reached s k c.1 c.2.2.2 w e m g a → ∀ p b,
      let area := c.2.2.1
      let g' := if area = 0 then 0 else (fnSt s k.fn).step % (m.d + 1)
      let old := heldSlot s k.fn a.m area g' a.j
      holdDue (fnSt s k.fn) a area = some p → bagFind s a.sl k.fn area g' a.j p = some b → b.writing = false → b.damaged = false →
      bagComplete (fnSt s k.fn) b = true → (area = 0 → slotErased (fnSt s k.fn).epoch 0 true old = false) → sliceHalted s a.sl = false →
      (∀ q ∈ b.recs, dieBits q.src ≠ selfDie s) →
      Does c.2.1 s (fun u => heldSlot u k.fn a.m area g' a.j = foldedHole (fnSt s k.fn) g b a.m old (fnSt s k.fn).step ∧
        (fnSt u k.fn).rowsDone.contains (area, a.j, p) = true ∧ bagFind u a.sl k.fn area g' a.j p = none ∧ (fnSt u k.fn).hold = none) := by
  intro c hc
  rcases List.mem_cons.mp hc with rfl | hc
  · intro h p b area g' old hdue hb hidle hwhole hall hgood hhalt haway
    obtain ⟨u, hact, hends⟩ := actHold_ends (area := 1) h (landGen_of_manifest h.manifest) rfl hdue hb hidle hwhole hall hgood hhalt haway
    exact does_onDie (exec_ghold s k) h.up hact hends
  rcases List.mem_singleton.mp hc with rfl
  intro h p b area g' old hdue hb hidle hwhole hall hgood hhalt haway
  obtain ⟨u, hact, hends⟩ := actHold_ends (area := 0) h rfl rfl hdue hb hidle hwhole hall hgood hhalt haway
  exact does_onDie (exec_hold s k imgs) h.up hact hends

end

/-- Settles O53: an action at its slot does what its condition lets it do on the state that time alone has changed. -/
theorem wheelActions : Obligations.WheelActions := by
  intro s k bad imgs
  refine ⟨fun c hc hup hq hnone => ignores_unnamed bad imgs hup hq c hc hnone, fun w e m g a => ?_⟩
  refine ⟨fun h hleaf hnew => ⟨fun b q hb hopen => readout_holds h hleaf hnew hb hopen,
      fun hsealed hnone => readout_null h hleaf hnew hsealed hnone,
      fun b q c hb hsealed hfree hc => readout_rounds h hleaf hnew hb hsealed hfree hc⟩,
    fun h hleaf hread htouched hnew => gcommit_commits h hleaf hread htouched hnew,
    fun h hleaf hread htouched hdone hnew hhalt hbuilt => gwrite_writes h hleaf rfl hread htouched hdone hnew hhalt rfl hbuilt,
    fun h hleaf hread hnull hnew hsome haway => gsend_sends h hleaf rfl hread hnull hnew hsome haway,
    actHold_clause,
    fun h set cl p hset hp hentry hfree => prelude_begins h hset hp hentry hfree,
    ?lread,
    fun h l set c cl p hl hkind hread htouched hopen hnew hcore hset hc hp =>
      run_begins h hl hkind hread htouched hopen hnew hcore hset hc hp,
    fun h z q rest hz hfn hrow hpre hin hq hparts => srd_serves h hz hfn hrow hpre hin hq hparts,
    fun h hleaf hread htouched hopen hdone hnew htwin hok hunused =>
      reg_enters h hleaf rfl hread htouched hopen hdone hnew htwin rfl rfl rfl hok hunused,
    fun h l hl hkind hread htouched hopen hreg hnew htwin d _ haway hsome hd =>
      send_sends h hl hkind rfl hread htouched hopen hreg hnew htwin haway hsome hd,
    fun h l d hl hkind hread htouched hopen hsent hnew htwin hd hall hhalt htrace =>
      lwrite_writes h hl hkind rfl hread htouched hopen hsent hnew htwin hd hall hhalt htrace,
    fun h l hl hkind hread hready hnew htwin => emit_ends h hl hkind rfl hread hready hnew htwin,
    fun h b hleft hsize hfired hfill hfree hlayer hplain => fill_fills h rfl hleft hsize hfired hfill hfree hlayer hplain,
    mgmt_waits⟩
  case lread =>
    intro h hbad l hl hkind hnew hfree hphase hheld slot hgood hbuilt hmark
    have hgo := condLread_due h hl hkind hnew hfree hphase
    have hread := readable_due h hl hheld hgood hbuilt hmark
    exact ⟨fun hstamp => lread_settled h hbad hgo hread hstamp, fun hstamp hearly => lread_null h hbad hgo hread hstamp hearly,
      fun hstamp hlate hrows hgrad => lread_brings h hbad hgo hread hstamp hlate hrows hgrad⟩

end Sys2Proof.Proofs

/-!
# Stored data (R62, R77, R329, R331, R332, R335, R340, R342, R344, R345, R348)

The commands of chapter 12 in the order of the statement: reads of the deep tier and what a halted channel does, write-back and remap, the data lap,
near-tier lines, erasure marks, the verification of rows, the parity lap, delayed writes, and the withdrawal of the die.
-/

namespace Sys2Proof.Proofs

open Sys2Proof Sys2Proof.Machine Sys2Proof.Claims Sys2Proof.Laws

/-! ### Channels

The bits of LINE_STATUS, one of each of its four fields for every channel of a slice. -/

/-- A bit that is put reads as it was put. -/
theorem bit_putBit (v i : Nat) (b : Bool) : bit (putBit v i b) i = b := by
  cases b with
  | true => exact bit_putBit_same v i
  | false =>
    unfold putBit
    split
    · next h => exact h
    · next h =>
      have hset : v / 2 ^ i % 2 = 1 := by simpa [bit] using h
      have hdrop : (v - 2 ^ i) / 2 ^ i = v / 2 ^ i - 1 := by simpa using Nat.sub_mul_div v (2 ^ i) 1
      simp only [bit, if_neg (show ¬(false = true) by decide), hdrop, decide_eq_false_iff_not]
      omega

/-- The fields of LINE_STATUS, a bit for each channel. -/
def lineFields : List Fld := [SL_LINE_STATUS_FAILED, SL_LINE_STATUS_HALTED, SL_LINE_STATUS_REMAP_FULL, SL_LINE_STATUS_ADDRESS]

theorem lineFields_layout : ∀ f ∈ lineFields, f.off = 0x05C ∧ f.hi = f.lo + 3 ∧ f.hi < 32 := by decide

/-- Two fields of LINE_STATUS share no bit. -/
theorem lineFields_apart : ∀ f ∈ lineFields, ∀ g ∈ lineFields, f = g ∨ g.hi < f.lo ∨ f.hi < g.lo := by decide

section
variable {s : State} {f g : Fld} {ch c : Nat}

theorem chanBit_setChan (hf : f ∈ lineFields) (v : Bool) : chanBit (setChan s f ch v) f ch = v := by
  obtain ⟨-, hhi, h32⟩ := lineFields_layout f hf
  have hwidth : ch % 4 < f.hi + 1 - f.lo := by omega
  rw [chanBit, setChan, getF_setF_same _ _ _ _ (by omega) h32, bit_mod_two_pow _ hwidth, bit_putBit]

theorem chanBit_setChan_other (hf : f ∈ lineFields) (hg : g ∈ lineFields) (hne : g ≠ f) (v : Bool) :
    chanBit (setChan s f ch v) g c = chanBit s g c := by
  obtain ⟨hoff, hhi, -⟩ := lineFields_layout f hf
  obtain ⟨hgoff, -, h32⟩ := lineFields_layout g hg
  have hapart := (lineFields_apart f hf g hg).resolve_left (Ne.symm hne)
  unfold chanBit setChan
  by_cases hsl : pgSlice (c / 4) = pgSlice (ch / 4)
  · rw [hsl, getF_setF_disjoint _ _ _ (hgoff.trans hoff.symm) (by omega) h32 hapart]
  · rw [getF_setF_other _ _ (by omega)]

/-- A channel's bits are read in LINE_STATUS. -/
theorem chanBit_of_word {t : State} (hf : f ∈ lineFields) (h : wordAt t (pgSlice (ch / 4) + 0x05C) = wordAt s (pgSlice (ch / 4) + 0x05C)) :
    chanBit t f ch = chanBit s f ch := by
  rw [chanBit, chanBit, getF, getF, (lineFields_layout f hf).1, h]

theorem touches_setChan (hf : f ∈ lineFields) (v : Bool) : Touches s (setChan s f ch v) [pgSlice (ch / 4) + 0x05C] := by
  rw [← (lineFields_layout f hf).1]
  exact touches_setF ..

/-- Reports are never about LINE_STATUS. -/
theorem chanBit_of_reports {t : State} (h : Reports s t) (hf : f ∈ lineFields) (hch : ch < 64) : chanBit t f ch = chanBit s f ch :=
  chanBit_of_word hf (h.words _ (not_reportWord_slice (by omega) (by decide) (by decide)))

end

/-! ### DEEP_READ_COMPLETE (R331) -/

section
variable {s : State} {ch block : Nat}

theorem exec_deepReadComplete (s : State) (ch : Fin 64) (block : BitVec 23) (raw : List Byte) (owner : BlockOwner) :
    exec (.deepReadComplete ch block raw owner) s = onDie s (fun s => readBlock s ch block.toNat raw owner) := rfl

theorem readBlock_clean {raw : List Byte} {owner : BlockOwner} (h : ¬served s ch ∨ (blockNow s ch block raw).clean = true) :
    readBlock s ch block raw owner = s := by
  unfold readBlock
  split
  · rfl
  · next hserved =>
    rw [Bool.or_eq_true, not_or, Bool.not_eq_true, Bool.not_eq_true] at hserved
    exact if_pos (h.resolve_left (fun hno => hno hserved))

theorem readBlock_error {raw : List Byte} {owner : BlockOwner} (h : served s ch) (herr : (blockNow s ch block raw).clean = false) :
    readBlock s ch block raw owner = haltChannel s ch block owner (blockNow s ch block raw) := by
  obtain ⟨hhalted, hfailed⟩ := h
  unfold readBlock
  rw [hhalted, hfailed]
  exact if_neg (by rw [← Bool.not_eq_true] at herr; exact herr)

/-! #### The watch log -/

theorem mem_of_orElse_find {p q : Nat → Bool} {n i : Nat}
    (h : (match (List.range n).find? p with | some i => some i | none => (List.range n).find? q) = some i) : i < n := by
  cases hp : (List.range n).find? p with
  | some j =>
    rw [hp] at h
    cases h
    exact List.mem_range.mp (List.mem_of_find?_eq_some hp)
  | none =>
    rw [hp] at h
    exact List.mem_range.mp (List.mem_of_find?_eq_some h)

/-- The watch log lies in the Drone's page. -/
theorem watchNote_touches (s : State) (ch block : Nat) (b : BlockRead) : ∃ l, Touches s (watchNote s ch block b) l ∧ ∀ a ∈ l, a < 0x10000 := by
  unfold watchNote
  extract_lets a own free
  split
  · exact ⟨_, touches_setF .., by decide⟩
  · next i hi =>
    have hlt : i < 64 := mem_of_orElse_find hi
    extract_lets old count map s1 s2
    have hlog : Touches s s2 ([pgDrone + 0x800 + 16 * i + 4 * 0] ++ [pgDrone + 0x800 + 16 * i + 4 * 1] ++
        ([pgDrone + 0x800 + 16 * i + 4 * 2] ++ [pgDrone + 0x800 + 16 * i + 4 * 3])) :=
      touches_trans (touches_trans (touches_setWord ..) (touches_setWord ..)) (touches_trans (touches_setWord ..) (touches_setWord ..))
    have hin : ∀ w ∈ ([pgDrone + 0x800 + 16 * i + 4 * 0] ++ [pgDrone + 0x800 + 16 * i + 4 * 1] ++
        ([pgDrone + 0x800 + 16 * i + 4 * 2] ++ [pgDrone + 0x800 + 16 * i + 4 * 3])), w < 0x10000 := by
      simp only [List.cons_append, List.nil_append, List.forall_mem_cons, pgDrone]
      simp
      omega
    split
    · exact ⟨_, hlog, hin⟩
    · refine ⟨_, touches_trans hlog (touches_addF ..), fun w hw => ?_⟩
      rcases List.mem_append.mp hw with hw | hw
      · exact hin w hw
      · rw [List.mem_singleton.mp hw]
        decide

/-! #### The counts and the halt -/

/-- A count leaves the other fields of its register. -/
theorem getF_addF_apart (s : State) (pg : Nat) {f g : Fld} (k : Nat) (hoff : g.off = f.off) (hlo : f.lo ≤ f.hi) (hhi : g.hi < 32)
    (hdis : g.hi < f.lo ∨ f.hi < g.lo) : getF (addF s pg f k) pg g = getF s pg g := getF_setF_disjoint s pg _ hoff hlo hhi hdis

/-- A channel's counts of a read's errors. -/
def lineCounted (s : State) (ch : Nat) (b : BlockRead) : State :=
  addF (addF s (pgSlice (ch / 4)) SL_LINE_COUNT_CE b.ce) (pgSlice (ch / 4)) SL_LINE_COUNT_UE b.ue

/-- The counts, and the mark of an address fault. -/
def lineMarked (s : State) (ch : Nat) (b : BlockRead) : State :=
  if b.address then setChan (lineCounted s ch b) SL_LINE_STATUS_ADDRESS ch true else lineCounted s ch b

/-- Only registers change from `s` to `t`, and no word of the slice's page but its error summary and interrupts. -/
structure PageKept (s t : State) (ch : Nat) : Prop where
  touches : ∃ l, Touches s t l
  words : ∀ off, off < 4096 → off ≠ 0x014 ∧ off ≠ 0x018 → wordAt t (pgSlice (ch / 4) + off) = wordAt s (pgSlice (ch / 4) + off)

theorem noteRead_kept (s : State) (hch : ch < 64) (block : Nat) (b : BlockRead) : PageKept (lineMarked s ch b) (noteRead s ch block b) ch := by
  have heq : noteRead s ch block b = (let t := errSlice (lineMarked s ch b) HDR_ERR_SUMMARY_LINE (ch / 4)
      if watched t ch then watchNote t ch block b else t) := rfl
  rw [heq]
  extract_lets t
  have ht := touches_errSlice (lineMarked s ch b) HDR_ERR_SUMMARY_LINE (ch / 4)
  have hwords : ∀ off, off < 4096 → off ≠ 0x014 ∧ off ≠ 0x018 →
      wordAt t (pgSlice (ch / 4) + off) = wordAt (lineMarked s ch b) (pgSlice (ch / 4) + off) := fun off hoff herr =>
    (reports_errSlice _ _ rfl).words _ (not_reportWord_slice (by omega) hoff herr)
  split
  · obtain ⟨l, hnote, hl⟩ := watchNote_touches t ch block b
    refine ⟨⟨_, touches_trans ht hnote⟩, fun off hoff herr => (hnote.2 _ (fun hin => ?_)).trans (hwords off hoff herr)⟩
    have hlt := hl _ hin
    unfold pgSlice at hlt
    omega
  · exact ⟨⟨_, ht⟩, hwords⟩

theorem getF_of_pageKept {t : State} (h : PageKept s t ch) {f : Fld} (hoff : f.off < 4096) (herr : f.off ≠ 0x014 ∧ f.off ≠ 0x018) :
    getF t (pgSlice (ch / 4)) f = getF s (pgSlice (ch / 4)) f := by
  unfold getF
  rw [h.words _ hoff herr]

theorem getF_lineMarked (s : State) (ch : Nat) (b : BlockRead) {f : Fld} (hf : f.off = 0x060) :
    getF (lineMarked s ch b) (pgSlice (ch / 4)) f = getF (lineCounted s ch b) (pgSlice (ch / 4)) f := by
  unfold lineMarked
  split
  · exact getF_setF_other _ _ (by rw [hf]; simp [SL_LINE_STATUS_ADDRESS])
  · rfl

/-- A read's errors are counted, and its channel halts. -/
def lineHalted (s : State) (ch block : Nat) (b : BlockRead) : State :=
  addF (setChan (noteRead s ch block b) SL_LINE_STATUS_HALTED ch true) (pgSlice (ch / 4)) SL_LINE_COUNT_HALTS 1

theorem getF_lineHalted (hch : ch < 64) (b : BlockRead) {f : Fld} (hf : f.off = 0x060) (h32 : f.hi < 32) (hdis : 7 < f.lo) :
    getF (lineHalted s ch block b) (pgSlice (ch / 4)) f = getF (lineCounted s ch b) (pgSlice (ch / 4)) f := by
  rw [lineHalted, getF_addF_apart _ _ _ (by rw [hf]; rfl) (by decide) h32 (.inr hdis), setChan,
    getF_setF_other _ _ (by rw [hf]; simp [SL_LINE_STATUS_HALTED]), getF_of_pageKept (noteRead_kept s hch block b) (by omega) (by omega),
    getF_lineMarked _ _ _ hf]

theorem lineHalted_ce (hch : ch < 64) (b : BlockRead) : getF (lineHalted s ch block b) (pgSlice (ch / 4)) SL_LINE_COUNT_CE =
    min (getF s (pgSlice (ch / 4)) SL_LINE_COUNT_CE + b.ce) 0xFFFF := by
  rw [getF_lineHalted hch b rfl (by decide) (by decide), lineCounted, getF_addF_apart _ _ _ (by rfl) (by decide) (by decide) (by decide),
    getF_addF _ _ _ _ (by decide) (by decide)]
  rfl

theorem lineHalted_ue (hch : ch < 64) (b : BlockRead) : getF (lineHalted s ch block b) (pgSlice (ch / 4)) SL_LINE_COUNT_UE =
    min (getF s (pgSlice (ch / 4)) SL_LINE_COUNT_UE + b.ue) 0xFF := by
  rw [getF_lineHalted hch b rfl (by decide) (by decide), lineCounted, getF_addF _ _ _ _ (by decide) (by decide),
    getF_addF_apart _ _ _ (by rfl) (by decide) (by decide) (by decide)]
  rfl

theorem lineHalted_halts (hch : ch < 64) (b : BlockRead) : getF (lineHalted s ch block b) (pgSlice (ch / 4)) SL_LINE_COUNT_HALTS =
    min (getF s (pgSlice (ch / 4)) SL_LINE_COUNT_HALTS + 1) 0xFF := by
  rw [lineHalted, getF_addF _ _ _ _ (by decide) (by decide), setChan, getF_setF_other _ _ (by simp [SL_LINE_STATUS_HALTED, SL_LINE_COUNT_HALTS]),
    getF_of_pageKept (noteRead_kept s hch block b) (by decide) (by decide), getF_lineMarked _ _ _ rfl, lineCounted,
    getF_addF_apart _ _ _ (by rfl) (by decide) (by decide) (by decide), getF_addF_apart _ _ _ (by rfl) (by decide) (by decide) (by decide)]
  rfl

/-- The counts leave the channels' bits. -/
theorem chanBit_addF_count (s : State) {f g : Fld} (hf : f ∈ lineFields) (hg : g.off = 0x060) (k : Nat) :
    chanBit (addF s (pgSlice (ch / 4)) g k) f ch = chanBit s f ch := by
  refine chanBit_of_word hf (wordAt_setWord_other s _ ?_)
  omega

theorem lineHalted_halted (b : BlockRead) : chanBit (lineHalted s ch block b) SL_LINE_STATUS_HALTED ch = true := by
  rw [lineHalted, chanBit_addF_count _ (by decide) rfl, chanBit_setChan (by decide)]

theorem lineHalted_address (hch : ch < 64) {b : BlockRead} (hb : b.address = true) :
    chanBit (lineHalted s ch block b) SL_LINE_STATUS_ADDRESS ch = true := by
  rw [lineHalted, chanBit_addF_count _ (by decide) rfl, chanBit_setChan_other (by decide) (by decide) (by decide),
    chanBit_of_word (by decide) ((noteRead_kept s hch block b).words _ (by decide) (by decide)), lineMarked, if_pos hb, chanBit_setChan (by decide)]

theorem touches_lineMarked (s : State) (ch : Nat) (b : BlockRead) : ∃ l, Touches s (lineMarked s ch b) l := by
  have hcounted : Touches s (lineCounted s ch b) _ := touches_trans (touches_addF ..) (touches_addF ..)
  unfold lineMarked
  split
  · exact ⟨_, touches_trans hcounted (touches_setF ..)⟩
  · exact ⟨_, hcounted⟩

theorem touches_lineHalted (s : State) (hch : ch < 64) (block : Nat) (b : BlockRead) : ∃ l, Touches s (lineHalted s ch block b) l := by
  obtain ⟨l, hmarked⟩ := touches_lineMarked s ch b
  obtain ⟨m, hnoted⟩ := (noteRead_kept s hch block b).touches
  exact ⟨_, touches_trans (touches_trans hmarked hnoted) (touches_trans (touches_setF ..) (touches_addF ..))⟩

/-- What a halt adds to what the die keeps of its integrity; it may be the halt that fails the channel. -/
def haltKept (s : State) (ch block : Nat) (owner : BlockOwner) (b : BlockRead) : State :=
  let log := (tabGet [] s.integ.haltLog ch).filter (fun t => decide (s.ticks < t + 2 ^ 30)) ++ [s.ticks]
  let s := modInteg s (fun i => { i with halted := i.halted ++ [⟨ch, block, owner⟩], haltLog := tabPut i.haltLog ch (some log) })
  if 16 ≤ log.length ∨ (b.ue ≠ 0 ∧ s.integ.unmapped.contains (ch, block) = true) then todo s (.channelFailed ch) else s

theorem haltChannel_eq (s : State) (ch block : Nat) (owner : BlockOwner) (b : BlockRead) :
    haltChannel s ch block owner b = haltKept (lineHalted s ch block b) ch block owner b := rfl

theorem haltKept_facts (s : State) (ch block : Nat) (owner : BlockOwner) (b : BlockRead) :
    (∀ a, wordAt (haltKept s ch block owner b) a = wordAt s a) ∧
    (haltKept s ch block owner b).integ.halted = s.integ.halted ++ [⟨ch, block, owner⟩] ∧
    (haltKept s ch block owner b).deep = s.deep ∧ (haltKept s ch block owner b).near = s.near := by
  unfold haltKept
  extract_lets log s1
  split <;> exact ⟨fun _ => rfl, rfl, rfl, rfl⟩

/-- A halt leaves the registers as the counts left them. -/
theorem haltChannel_facts (s : State) (hch : ch < 64) (block : Nat) (owner : BlockOwner) (b : BlockRead) :
    (∀ a, wordAt (haltChannel s ch block owner b) a = wordAt (lineHalted s ch block b) a) ∧
    (haltChannel s ch block owner b).integ.halted = s.integ.halted ++ [⟨ch, block, owner⟩] ∧
    (haltChannel s ch block owner b).deep = s.deep ∧ (haltChannel s ch block owner b).near = s.near := by
  obtain ⟨l, htouches, -⟩ := touches_lineHalted s hch block b
  have hinteg : (lineHalted s ch block b).integ.halted = s.integ.halted := by rw [htouches]
  have hdeep : (lineHalted s ch block b).deep = s.deep := by rw [htouches]
  have hnear : (lineHalted s ch block b).near = s.near := by rw [htouches]
  have hkept := haltKept_facts (lineHalted s ch block b) ch block owner b
  rwa [← haltChannel_eq, hinteg, hdeep, hnear] at hkept

end

theorem deepReads {s : State} (hup : alive s = true) (hq : Quiet s) (ch : Fin 64) (raw : List Byte) (block : BitVec 23) (owner : BlockOwner) :
    let pg := pgSlice (ch / 4)
    let b := blockNow s ch block.toNat raw
    (¬served s ch ∨ b.clean = true → Ignores (.deepReadComplete ch block raw owner) s) ∧
    (served s ch → b.clean = false → Does (.deepReadComplete ch block raw owner) s (fun u =>
      chanBit u SL_LINE_STATUS_HALTED ch = true ∧ u.integ.halted = s.integ.halted ++ [⟨ch, block.toNat, owner⟩] ∧
      getF u pg SL_LINE_COUNT_CE = min (getF s pg SL_LINE_COUNT_CE + b.ce) 0xFFFF ∧
      getF u pg SL_LINE_COUNT_UE = min (getF s pg SL_LINE_COUNT_UE + b.ue) 0xFF ∧
      getF u pg SL_LINE_COUNT_HALTS = min (getF s pg SL_LINE_COUNT_HALTS + 1) 0xFF ∧
      (b.address = true → chanBit u SL_LINE_STATUS_ADDRESS ch = true) ∧ u.deep = s.deep ∧ u.near = s.near)) := by
  refine ⟨fun hno => ignores_onDie (exec_deepReadComplete s ch block raw owner) hup hq (readBlock_clean hno), fun hserved herr => ?_⟩
  obtain ⟨hwords, hhalted, hdeep, hnear⟩ := haltChannel_facts s ch.isLt block.toNat owner (blockNow s ch block.toNat raw)
  refine does_onDie (exec_deepReadComplete s ch block raw owner) hup (readBlock_error hserved herr) ⟨?_, hhalted, ?_, ?_, ?_, fun haddr => ?_,
    hdeep, hnear⟩
  · exact (chanBit_of_word (by decide) (hwords _)).trans (lineHalted_halted _)
  · exact (getF_of_words (hwords _)).trans (lineHalted_ce ch.isLt _)
  · exact (getF_of_words (hwords _)).trans (lineHalted_ue ch.isLt _)
  · exact (getF_of_words (hwords _)).trans (lineHalted_halts ch.isLt _)
  · exact (chanBit_of_word (by decide) (hwords _)).trans (lineHalted_address ch.isLt haddr)

/-! ### The bytes of a memory in its canonical form -/

theorem memRead_cons {c : Nat × Byte} {t : Mem} {x : Nat} (hne : x ≠ c.1) : memRead (c :: t) x = memRead t x := by
  obtain ⟨k, b⟩ := c
  simp only [memRead, tabGet, tabFind, if_neg hne]

theorem memRead_below {t : Mem} {lo x : Nat} (h : tabAbove lo t = true) (hx : x < lo) : memRead t x = 0 := by
  have hnone : tabFind t x = none := tabFind_absent (fun e he => by have := tabAbove_mem h e he; omega)
  rw [memRead, tabGet, hnone]
  rfl

theorem spread_getD : ∀ (n : Nat) (t : Mem) (a i : Nat), tabAbove a t = true → i < n → (spread t a n).getD i 0 = memRead t (a + i)
  | 0, _, _, _, _, hi => absurd hi (Nat.not_lt_zero _)
  | n + 1, [], a, i, _, _ => by
    rw [spread_nil]
    simp [zeros, memRead, tabGet, tabFind]
  | n + 1, (k, b) :: t, a, 0, habove, _ => by
    simp only [tabAbove, Bool.and_eq_true, decide_eq_true_eq] at habove
    obtain ⟨hak, hbehind⟩ := habove
    rw [spread]
    split
    · next hk => simp [memRead, tabGet, tabFind, hk]
    · next hk =>
      rw [List.getD_cons_zero, Nat.add_zero, memRead_cons hk, memRead_below hbehind (by omega)]
  | n + 1, (k, b) :: t, a, i + 1, habove, hi => by
    have habove' := habove
    simp only [tabAbove, Bool.and_eq_true, decide_eq_true_eq] at habove'
    obtain ⟨hak, hbehind⟩ := habove'
    have hat : a + (i + 1) = a + 1 + i := by omega
    rw [spread]
    split
    · next hk =>
      subst hk
      rw [List.getD_cons_succ, spread_getD n t (a + 1) i hbehind (by omega), hat, memRead_cons (by simp only; omega)]
    · next hk =>
      have hraised : tabAbove (a + 1) ((k, b) :: t) = true := by
        simp only [tabAbove, Bool.and_eq_true, decide_eq_true_eq]
        exact ⟨by omega, hbehind⟩
      rw [List.getD_cons_succ, spread_getD n _ (a + 1) i hraised (by omega), hat]

/-- The bytes that are read are the memory's, where it is in its canonical form. -/
theorem memReadN_getD {m : Mem} (h : memWf m = true) (a : Nat) {n i : Nat} (hi : i < n) : (memReadN m a n).getD i 0 = memRead m (a + i) := by
  simp only [memWf, Bool.and_eq_true] at h
  obtain ⟨hrising, -⟩ := h
  have hfrom : tabAbove a (m.filter (fun c => decide (a ≤ c.1) && decide (c.1 < a + n))) = true :=
    tabAbove_raise (tabAbove_filter _ hrising) (fun e he => by
      have := (List.mem_filter.mp he).2
      simp only [Bool.and_eq_true, decide_eq_true_eq] at this
      exact this.1)
  have hin : tabFind (m.filter (fun c => decide (a ≤ c.1) && decide (c.1 < a + n))) (a + i) = tabFind m (a + i) :=
    tabFind_filter (fun _ => by simp; omega)
  rw [memReadN, spread_getD n _ a i hfrom hi, memRead, tabGet, hin]
  rfl

/-- A write at the start of what is read changes that start alone. -/
theorem memReadN_writeN_start {m : Mem} (h : memWf m = true) (a k : Nat) (bs : List Byte) :
    memReadN (memWriteN m a bs) a (bs.length + k) = bs ++ (memReadN m a (bs.length + k)).drop bs.length := by
  refine List.ext_getElem (by simp) (fun i hi _ => ?_)
  have hlen : i < bs.length + k := by simpa using hi
  have hread := memReadN_getD (memWriteN_wf a bs h) a hlen
  rw [List.getD_eq_getElem _ _ hi, memRead_writeN] at hread
  rw [hread, List.getElem_append]
  split
  · next hin =>
    rw [dif_pos (by omega), show a + i - a = i by omega, List.getD_eq_getElem]
  · next hout =>
    have hold := memReadN_getD h a hlen
    rw [List.getD_eq_getElem _ _ (by simpa using hlen)] at hold
    rw [dif_neg (by omega), List.getElem_drop, ← hold]
    congr 1
    omega

/-! ### CHANNEL_RESUME (R329, R331) -/

section
variable {s : State} {ch : Nat} {raw : List Byte} {imgs : RowImages}

theorem exec_channelResume (s : State) (ch : Fin 64) (raw : List Byte) (imgs : RowImages) :
    exec (.channelResume ch raw imgs) s = onDie s (fun s => channelResume s ch raw imgs) := rfl

theorem channelResume_none (h : ∀ h ∈ s.integ.halted, h.ch ≠ ch) : channelResume s ch raw imgs = s := by
  have hnone : s.integ.halted.find? (fun h => decide (h.ch = ch)) = none := by
    rw [List.find?_eq_none]
    exact fun q hq => by simpa using h q hq
  simp only [channelResume, hnone]

/-- The halt is over. -/
def haltOver (s : State) (ch : Nat) (h : Halt) : State :=
  setChan (modInteg s (fun i => { i with halted := i.halted.erase h })) SL_LINE_STATUS_HALTED ch false

theorem integ_haltOver (s : State) (ch : Nat) (h : Halt) : (haltOver s ch h).integ = { s.integ with halted := s.integ.halted.erase h } := by
  rw [haltOver, setChan, setF_integ]
  rfl

theorem oneWord_haltOver (s : State) (ch : Nat) (h : Halt) (f : IntegSt → IntegSt) :
    OneWord { s with integ := (modInteg (haltOver s ch h) f).integ } (modInteg (haltOver s ch h) f) (pgSlice (ch / 4) + 0x05C) :=
  ⟨rfl, fun _ hb => (wordAt_modInteg ..).trans (wordAt_setWord_other (modInteg s _) _ hb)⟩

theorem chanBit_haltOver (s : State) (ch : Nat) (h : Halt) : chanBit (haltOver s ch h) SL_LINE_STATUS_HALTED ch = false :=
  chanBit_setChan (by decide) false

theorem pending_haltOver (s : State) (ch : Nat) (h : Halt) (f : IntegSt → IntegSt) : (modInteg (haltOver s ch h) f).pending = s.pending := by
  rw [modInteg, haltOver, setChan, setF_pending, modInteg]

theorem quiet_haltOver (hq : Quiet s) (ch : Nat) (h : Halt) : Quiet (haltOver s ch h) := quiet_setF_slice (quiet_modInteg hq _) ..

/-- The watch registers are the Drone's. -/
theorem watched_haltOver (s : State) (ch : Nat) (h : Halt) : watched (haltOver s ch h) ch = watched s ch := by
  have hword : wordAt (haltOver s ch h) (pgDrone + 0x054) = wordAt s (pgDrone + 0x054) :=
    wordAt_setWord_other s _ (by simp only [pgDrone, pgSlice, SL_LINE_STATUS_HALTED]; omega)
  unfold watched
  rw [hword]

variable {h : Halt}

theorem channelResume_some (hh : s.integ.halted.find? (fun h => decide (h.ch = ch)) = some h)
    (hup : chanBit s SL_LINE_STATUS_FAILED ch = false) : channelResume s ch raw imgs =
      if (blockNow s ch h.block raw).ue ≠ 0 then
        ownerLost (modInteg (haltOver s ch h) (fun i => { i with blocks := tabPut i.blocks (blockAddr ch h.block) none })) h.owner imgs
      else if (blockNow s ch h.block raw).ce ≠ 0 ∧ watched (haltOver s ch h) ch = false ∧
          (haltOver s ch h).integ.fixes.all (fun q => decide (q.ch ≠ ch ∨ q.block ≠ h.block)) = true then
        modInteg (haltOver s ch h) (fun i => { i with fixes := i.fixes ++ [⟨ch, h.block, (blockNow s ch h.block raw).symbols, false⟩] })
      else haltOver s ch h := by
  simp only [channelResume, hh]
  rw [if_neg (by rw [hup]; decide)]
  rfl

/-- What the die keeps of a block whose errors were corrected. -/
def fixNoted (s : State) (ch : Nat) (h : Halt) (b : BlockRead) (i : IntegSt) : IntegSt :=
  { i with fixes := if b.ce ≠ 0 ∧ watched s ch = false ∧ (∀ q ∈ s.integ.fixes, q.ch ≠ ch ∨ q.block ≠ h.block)
      then i.fixes ++ [⟨ch, h.block, b.symbols, false⟩] else i.fixes }

theorem channelResume_corrected (hh : s.integ.halted.find? (fun h => decide (h.ch = ch)) = some h)
    (hup : chanBit s SL_LINE_STATUS_FAILED ch = false) (hue : (blockNow s ch h.block raw).ue = 0) :
    channelResume s ch raw imgs = modInteg (haltOver s ch h) (fixNoted s ch h (blockNow s ch h.block raw)) := by
  rw [channelResume_some hh hup, if_neg (not_not_intro hue), watched_haltOver, integ_haltOver]
  simp only [List.all_eq_true, decide_eq_true_eq]
  by_cases hfix : (blockNow s ch h.block raw).ce ≠ 0 ∧ watched s ch = false ∧ (∀ q ∈ s.integ.fixes, q.ch ≠ ch ∨ q.block ≠ h.block)
  · rw [if_pos hfix]
    unfold fixNoted
    simp only [if_pos hfix]
  · rw [if_neg hfix]
    unfold fixNoted
    simp only [if_neg hfix]
    rfl

/-- The block's lines are lost, and what they were part of. -/
def blockLost (s : State) (ch : Nat) (h : Halt) : State :=
  modInteg (haltOver s ch h) (fun i => { i with blocks := tabPut i.blocks (blockAddr ch h.block) none })

theorem channelResume_lost (hh : s.integ.halted.find? (fun h => decide (h.ch = ch)) = some h)
    (hup : chanBit s SL_LINE_STATUS_FAILED ch = false) (hue : (blockNow s ch h.block raw).ue ≠ 0) :
    channelResume s ch raw imgs = ownerLost (blockLost s ch h) h.owner imgs := by
  rw [channelResume_some hh hup, if_pos hue]
  rfl

theorem quiet_blockLost (hq : Quiet s) (ch : Nat) (h : Halt) : Quiet (blockLost s ch h) := quiet_modInteg (quiet_haltOver hq _ _) _

theorem fnSt_blockLost (s : State) (ch : Nat) (h : Halt) (n : Nat) : fnSt (blockLost s ch h) n = fnSt s n := by
  rw [blockLost, modInteg, haltOver, setChan, fnSt, setF_fns, modInteg, fnSt]

theorem deep_blockLost (s : State) (ch : Nat) (h : Halt) : (blockLost s ch h).deep = s.deep := by
  rw [blockLost, modInteg, haltOver, setChan, setF_deep, modInteg]

theorem bags_blockLost (s : State) (ch : Nat) (h : Halt) : (blockLost s ch h).bags = s.bags := by
  rw [blockLost, modInteg, haltOver, setChan, setF_bags, modInteg]

theorem chanBit_blockLost (s : State) (ch : Nat) (h : Halt) : chanBit (blockLost s ch h) SL_LINE_STATUS_HALTED ch = false := chanBit_haltOver s ch h

/-- The functions' registers are not a slice's. -/
theorem fnF_blockLost (s : State) (hch : ch < 64) (h : Halt) (n : Nat) (f : Fld) : fnF (blockLost s ch h) n f = fnF s n f := by
  have hother : pgFn n + f.off ≠ pgSlice (ch / 4) + SL_LINE_STATUS_HALTED.off := by
    simp only [pgSlice, pgFn, SL_LINE_STATUS_HALTED]
    omega
  rw [fnF, blockLost, getF_modInteg, haltOver, setChan, getF_setF_other _ _ hother, getF_modInteg, fnF]

theorem integ_blockLost (s : State) (ch : Nat) (h : Halt) : (blockLost s ch h).integ =
    { s.integ with halted := s.integ.halted.erase h, blocks := tabPut s.integ.blocks (blockAddr ch h.block) none } := by
  rw [blockLost, modInteg, integ_haltOver]

/-! #### A slot that lost a line (R329) -/

/-- The mark of an erased slot. -/
def eraseMark : List Byte := List.replicate 256 0xFF

theorem length_eraseMark : eraseMark.length = 256 := List.length_replicate

/-- Bytes of the deep tier written. -/
def deepWritten (s : State) (a : Nat) (bs : List Byte) : State := { s with deep := memWriteN s.deep a bs }

theorem quiet_deepWritten (h : Quiet s) (a : Nat) (bs : List Byte) : Quiet (deepWritten s a bs) := quiet_of_same h rfl rfl rfl rfl rfl

/-- The address of the slot of a member, in its own state range or in a parking frame. -/
def slotAddr (s : State) (n m : Nat) (mf : Manifest) (area gen row : Nat) : Nat :=
  if (fnSt s n).self = m then rangeAddr n (slotOffset mf area gen row) else frameAddr n m area gen row

theorem heldSlot_at {n m area gen row : Nat} {mf : Manifest} (hm : (fnSt s n).manifest = some mf) :
    heldSlot s n m area gen row = memReadN s.deep (slotAddr s n m mf area gen row) 65536 := by
  unfold heldSlot slotAddr slotRead
  split
  · rw [hm]
    rfl
  · rfl

theorem eraseSlot_eq {n m area gen row : Nat} {mf : Manifest} (hm : (fnSt s n).manifest = some mf) : eraseSlot s n m area gen row =
    addF (deepWritten s (slotAddr s n m mf area gen row) eraseMark) (pgFn n) FN_INTEG_STATUS_ERASED 1 := by
  unfold eraseSlot slotAddr
  simp only [hm]
  split <;> rfl

theorem heldSlot_eraseSlot {n m area gen row : Nat} {mf : Manifest} (hm : (fnSt s n).manifest = some mf) (hwf : memWf s.deep = true) :
    heldSlot (eraseSlot s n m area gen row) n m area gen row = eraseMark ++ (heldSlot s n m area gen row).drop 256 := by
  have hfn : fnSt (eraseSlot s n m area gen row) n = fnSt s n := by rw [eraseSlot_eq hm, fnSt, addF, setF_fns, deepWritten, fnSt]
  have hm' : (fnSt (eraseSlot s n m area gen row) n).manifest = some mf := by rw [hfn, hm]
  have haddr : slotAddr (eraseSlot s n m area gen row) n m mf area gen row = slotAddr s n m mf area gen row := by
    rw [slotAddr, hfn, slotAddr]
  have hdeep : (eraseSlot s n m area gen row).deep = memWriteN s.deep (slotAddr s n m mf area gen row) eraseMark := by
    rw [eraseSlot_eq hm, addF, setF_deep, deepWritten]
  have hread := memReadN_writeN_start hwf (slotAddr s n m mf area gen row) 65280 eraseMark
  rw [length_eraseMark, show 256 + 65280 = 65536 by norm_num] at hread
  rw [heldSlot_at hm', haddr, heldSlot_at hm, hdeep, hread]

theorem ownerLost_slot {n m area gen row at_ : Nat} (hres : rowReserved s n area gen row = true) :
    ownerLost s (.slot n m area gen row at_) imgs = eraseSlot s n m area gen row := by
  have hbags : (eraseSlot s n m area gen row).bags = s.bags := by
    unfold eraseSlot
    rw [addF, setF_bags]
    split
    · rfl
    · split <;> rfl
  have hres' : rowReserved (eraseSlot s n m area gen row) n area gen row = true := by
    unfold rowReserved
    rw [hbags]
    exact hres
  simp only [ownerLost, eraseAndDecode, hres', Bool.true_or, if_true]

theorem quiet_eraseSlot {n m area gen row : Nat} {mf : Manifest} (hq : Quiet s) (hm : (fnSt s n).manifest = some mf) :
    Quiet (eraseSlot s n m area gen row) := by
  rw [eraseSlot_eq hm]
  exact quiet_setFnF (quiet_deepWritten hq ..) ..

theorem pending_eraseSlot {n m area gen row : Nat} {mf : Manifest} (hm : (fnSt s n).manifest = some mf) :
    (eraseSlot s n m area gen row).pending = s.pending := by
  rw [eraseSlot_eq hm, addF, setF_pending, deepWritten]

theorem erased_eraseSlot {n m area gen row : Nat} {mf : Manifest} (hm : (fnSt s n).manifest = some mf) :
    fnF (eraseSlot s n m area gen row) n FN_INTEG_STATUS_ERASED = min (fnF s n FN_INTEG_STATUS_ERASED + 1) 0xFFFF := by
  rw [eraseSlot_eq hm, fnF, getF_addF _ _ _ _ (by decide) (by decide)]
  rfl

theorem chanBit_eraseSlot {n m area gen row : Nat} {mf : Manifest} {f : Fld} (hm : (fnSt s n).manifest = some mf) (hf : f ∈ lineFields)
    (hch : ch < 64) : chanBit (eraseSlot s n m area gen row) f ch = chanBit s f ch := by
  rw [eraseSlot_eq hm]
  refine chanBit_of_word hf (wordAt_setWord_other _ _ ?_)
  simp only [pgSlice, pgFn]
  omega

theorem resumes_slot {ch : Fin 64} {h : Halt} {n m area gen row o : Nat} (hup : alive s = true) (hq : Quiet s)
    (hh : s.integ.halted.find? (fun h => decide (h.ch = ch.val)) = some h) (hserves : chanBit s SL_LINE_STATUS_FAILED ch = false)
    (hue : (blockNow s ch h.block raw).ue ≠ 0) (howner : h.owner = .slot n m area gen row o) (hres : rowReserved s n area gen row = true)
    (hm : (fnSt s n).manifest ≠ none) (hwf : Memory.wf s = true) :
    Gives (.channelResume ch raw imgs) s (fun t => chanBit t SL_LINE_STATUS_HALTED ch = false ∧
      (heldSlot t n m area gen row).take 256 = List.replicate 256 0xFF ∧
      (heldSlot t n m area gen row).drop 256 = (heldSlot s n m area gen row).drop 256 ∧
      fnF t n FN_INTEG_STATUS_ERASED = min (fnF s n FN_INTEG_STATUS_ERASED + 1) 0xFFFF) := by
  obtain ⟨mf, hm⟩ := Option.ne_none_iff_exists'.mp hm
  have hm' : (fnSt (blockLost s ch h) n).manifest = some mf := by rw [fnSt_blockLost, hm]
  have hwf' : memWf (blockLost s ch h).deep = true := by
    simp only [Memory.wf, Bool.and_eq_true] at hwf
    rw [deep_blockLost]
    exact hwf.1.1
  have hres' : rowReserved (blockLost s ch h) n area gen row = true := by
    rw [rowReserved, bags_blockLost]
    exact hres
  have hlost : channelResume s ch raw imgs = eraseSlot (blockLost s ch h) n m area gen row := by
    rw [channelResume_lost hh hserves hue, howner, ownerLost_slot hres']
  have hslot := heldSlot_eraseSlot (m := m) (area := area) (gen := gen) (row := row) hm' hwf'
  have hold : heldSlot (blockLost s ch h) n m area gen row = heldSlot s n m area gen row := by
    rw [heldSlot_at hm', heldSlot_at hm, deep_blockLost, slotAddr, fnSt_blockLost, slotAddr]
  refine gives_onDie (exec_channelResume s ch raw imgs) hup hlost (quiet_eraseSlot (quiet_blockLost hq ..) hm') ?_ ⟨?_, ?_, ?_, ?_⟩
  · exact (pending_eraseSlot hm').trans (pending_haltOver ..)
  · rw [chanBit_eraseSlot hm' (by decide) ch.isLt, chanBit_blockLost]
  · rw [hslot]
    exact List.take_left' length_eraseMark
  · rw [hslot, hold]
    exact List.drop_left' length_eraseMark
  · rw [erased_eraseSlot hm', fnF_blockLost s ch.isLt]

end

theorem resumes {s : State} (hup : alive s = true) (hq : Quiet s) (ch : Fin 64) (raw : List Byte) (imgs : RowImages) :
    let pg := pgSlice (ch / 4)
    ((∀ h ∈ s.integ.halted, h.ch ≠ ch.val) → Ignores (.channelResume ch raw imgs) s) ∧
    (∀ h, s.integ.halted.find? (fun h => decide (h.ch = ch.val)) = some h → chanBit s SL_LINE_STATUS_FAILED ch = false →
      let b := blockNow s ch h.block raw
      (b.ue = 0 → Gives (.channelResume ch raw imgs) s (fun t => OneWord { s with integ := t.integ } t (pg + 0x05C) ∧
        chanBit t SL_LINE_STATUS_HALTED ch = false ∧
        t.integ = { s.integ with
          halted := s.integ.halted.erase h
          fixes := (if b.ce ≠ 0 ∧ watched s ch = false ∧ (∀ q ∈ s.integ.fixes, q.ch ≠ ch.val ∨ q.block ≠ h.block)
            then s.integ.fixes ++ [⟨ch, h.block, b.symbols, false⟩] else s.integ.fixes) })) ∧
      (b.ue ≠ 0 → h.owner = .spare ∨ h.owner = .none → Gives (.channelResume ch raw imgs) s (fun t =>
        OneWord { s with integ := t.integ } t (pg + 0x05C) ∧ chanBit t SL_LINE_STATUS_HALTED ch = false ∧
        t.integ = { s.integ with halted := s.integ.halted.erase h, blocks := tabPut s.integ.blocks (blockAddr ch h.block) none })) ∧
      (∀ n m area gen row o, b.ue ≠ 0 → h.owner = .slot n m area gen row o → rowReserved s n area gen row = true →
        (fnSt s n).manifest ≠ none → Memory.wf s = true → Gives (.channelResume ch raw imgs) s (fun t => chanBit t SL_LINE_STATUS_HALTED ch = false ∧
          (heldSlot t n m area gen row).take 256 = List.replicate 256 0xFF ∧
          (heldSlot t n m area gen row).drop 256 = (heldSlot s n m area gen row).drop 256 ∧
          fnF t n FN_INTEG_STATUS_ERASED = min (fnF s n FN_INTEG_STATUS_ERASED + 1) 0xFFFF))) := by
  refine ⟨fun hno => ignores_onDie (exec_channelResume s ch raw imgs) hup hq (channelResume_none hno), fun h hh hserves => ⟨fun hue => ?_,
    fun hue howner => ?_, fun n m area gen row o hue howner hres hm hwf => ?_⟩⟩
  · refine gives_onDie (exec_channelResume s ch raw imgs) hup (channelResume_corrected hh hserves hue)
      (quiet_modInteg (quiet_haltOver hq _ _) _) (pending_haltOver ..) ⟨oneWord_haltOver .., chanBit_haltOver .., ?_⟩
    rw [modInteg, integ_haltOver]
    rfl
  · have hlost : channelResume s ch raw imgs = blockLost s ch h := by
      rw [channelResume_lost hh hserves hue]
      rcases howner with howner | howner <;> rw [howner] <;> rfl
    exact gives_onDie (exec_channelResume s ch raw imgs) hup hlost (quiet_blockLost hq ..) (pending_haltOver ..)
      ⟨oneWord_haltOver .., chanBit_blockLost .., integ_blockLost ..⟩
  · exact resumes_slot hup hq hh hserves hue howner hres hm hwf

/-! ### Write-back and remap (R340, R342) -/

section
variable {s : State} {ch block : Nat} {raw : List Byte}

theorem exec_ceWriteback (s : State) (ch : Fin 64) (block : BitVec 23) (w : Bool) :
    exec (.ceWriteback ch block w) s = onDie s (fun s => ceWriteback s ch block.toNat w) := rfl

theorem exec_hardFaultCheck (s : State) (ch : Fin 64) (block : BitVec 23) (raw : List Byte) :
    exec (.hardFaultCheck ch block raw) s = onDie s (fun s => hardFaultCheck s ch block.toNat raw) := rfl

/-- The correction of a block that is written back or not. -/
def openFix (s : State) (ch block : Nat) (w : Bool) : Option BlockFix :=
  s.integ.fixes.find? (fun q => decide (q.ch = ch) && decide (q.block = block) && q.written == w)

theorem openFix_false (s : State) (ch block : Nat) : s.integ.fixes.find? (fun q => decide (q.ch = ch) && decide (q.block = block) && !q.written) =
    openFix s ch block false := by
  simp only [openFix, beq_false]

theorem openFix_true (s : State) (ch block : Nat) : s.integ.fixes.find? (fun q => decide (q.ch = ch) && decide (q.block = block) && q.written) =
    openFix s ch block true := by
  simp only [openFix, beq_true]

theorem ceWriteback_none (h : openFix s ch block false = none) (w : Bool) : ceWriteback s ch block w = s := by
  simp only [ceWriteback, openFix_false, h]

/-- A block that a scheduled write has reached needs no write-back. -/
theorem ceWriteback_overwritten {q : BlockFix} (h : openFix s ch block false = some q) :
    ceWriteback s ch block true = { s with integ := { s.integ with fixes := s.integ.fixes.erase q } } := by
  simp only [ceWriteback, openFix_false, h, if_true]
  rfl

theorem ceWriteback_done {q : BlockFix} (h : openFix s ch block false = some q) (hblock : tabFind s.integ.blocks (blockAddr ch block) = none) :
    ceWriteback s ch block false =
      { s with integ := { s.integ with fixes := s.integ.fixes.map (fun r => if r = q then { r with written := true } else r) } } := by
  simp only [ceWriteback, openFix_false, h, modInteg, hblock]
  rfl

theorem quiet_integ (hq : Quiet s) (i : IntegSt) : Quiet { s with integ := i } := quiet_modInteg hq (fun _ => i)

theorem writesBack (hup : alive s = true) (hq : Quiet s) (ch : Fin 64) (block : BitVec 23) :
    (openFix s ch block.toNat false = none → ∀ w, Ignores (.ceWriteback ch block w) s) ∧
    (∀ q, openFix s ch block.toNat false = some q →
      Gives (.ceWriteback ch block true) s (fun t => t = { s with integ := { s.integ with fixes := s.integ.fixes.erase q } }) ∧
      (tabFind s.integ.blocks (blockAddr ch block.toNat) = none → Gives (.ceWriteback ch block false) s (fun t =>
        t = { s with integ := { s.integ with fixes := s.integ.fixes.map (fun r => if r = q then { r with written := true } else r) } }))) :=
  ⟨fun hnone w => ignores_onDie (exec_ceWriteback s ch block w) hup hq (ceWriteback_none hnone w), fun _ hfix =>
    ⟨gives_onDie (exec_ceWriteback s ch block true) hup (ceWriteback_overwritten hfix) (quiet_integ hq _) rfl rfl, fun hblock =>
      gives_onDie (exec_ceWriteback s ch block false) hup (ceWriteback_done hfix hblock) (quiet_integ hq _) rfl rfl⟩⟩

/-! #### A hard fault -/

/-- The correction is closed. -/
def fixClosed (s : State) (q : BlockFix) : State := { s with integ := { s.integ with fixes := s.integ.fixes.erase q } }

theorem wordAt_fixClosed (s : State) (q : BlockFix) (a : Nat) : wordAt (fixClosed s q) a = wordAt s a := rfl

theorem quiet_fixClosed (hq : Quiet s) (q : BlockFix) : Quiet (fixClosed s q) := quiet_integ hq _

/-- The block shows an error at a symbol that was corrected. -/
def stillWrong (s : State) (ch block : Nat) (raw : List Byte) (q : BlockFix) : Bool :=
  (blockNow s ch block raw).symbols.any (fun k => q.symbols.contains k)

theorem hardFaultCheck_none (h : openFix s ch block true = none) : hardFaultCheck s ch block raw = s := by
  simp only [hardFaultCheck, openFix_true, h]

theorem hardFaultCheck_some {q : BlockFix} (h : openFix s ch block true = some q) : hardFaultCheck s ch block raw =
    if stillWrong s ch block raw q then hardFault (fixClosed s q) ch block else fixClosed s q := by
  simp only [hardFaultCheck, openFix_true, h]
  rfl

/-- The lowest free entry of a channel's remap table. -/
def freeEntry (s : State) (ch : Nat) : Option Nat := (List.range 16).find? (fun e => !bit (wordAt s (remapAt ch e)).toNat 31)

/-- An entry's word: VALID and the block. -/
theorem entryWord {block : Nat} (h : block < 2 ^ 23) :
    (2 ^ 31 + block) % 2 ^ 23 = block ∧ bit (2 ^ 31 + block) 31 = true ∧ (2 ^ 31 + block) % 2 ^ 32 = 2 ^ 31 + block := by
  refine ⟨by omega, ?_, by omega⟩
  rw [bit, decide_eq_true_eq]
  omega

/-- What the die keeps of a block that was remapped. -/
def blockMoved (ch block : Nat) (i : IntegSt) : IntegSt :=
  { i with blocks := tabPut i.blocks (blockAddr ch block) none, fixes := i.fixes.filter (fun q => decide (q.ch ≠ ch ∨ q.block ≠ block)) }

/-- The block's contents have moved to the spare block of an entry. -/
def remapped (s : State) (ch block e : Nat) : State :=
  modInteg (setWord s (remapAt ch e) (BitVec.ofNat 32 (2 ^ 31 + block))) (blockMoved ch block)

theorem hardFault_remaps {e : Nat} (hblock : block < 2 ^ 23) (hfree : freeEntry s ch = some e) : hardFault s ch block = remapped s ch block e := by
  obtain ⟨hlow, hvalid, -⟩ := entryWord hblock
  have hopen := List.find?_some hfree
  rw [Bool.not_eq_true'] at hopen
  unfold freeEntry at hfree
  simp only [hardFault, hfree, remapEntry, hopen, hlow, hvalid, if_true, if_false, Bool.false_eq_true, Nat.add_comm block]
  rfl

theorem oneWord_remapped (s : State) (ch block e : Nat) :
    OneWord { s with integ := (remapped s ch block e).integ } (remapped s ch block e) (remapAt ch e) :=
  ⟨rfl, fun _ hb => (wordAt_modInteg ..).trans (wordAt_setWord_other s _ hb)⟩

theorem wordAt_remapped (s : State) (ch e : Nat) (hblock : block < 2 ^ 23) :
    (wordAt (remapped s ch block e) (remapAt ch e)).toNat = 2 ^ 31 + block := by
  rw [remapped, wordAt_modInteg, wordAt_setWord_same, BitVec.toNat_ofNat, (entryWord hblock).2.2]

theorem pending_remapped (s : State) (ch block e : Nat) : (remapped s ch block e).pending = s.pending := by
  rw [remapped, modInteg, setWord]

theorem quiet_remapped (hq : Quiet s) (hch : ch < 64) {e : Nat} (he : e < 16) (block : Nat) : Quiet (remapped s ch block e) := by
  have hstage : pgNvm + NVM_FW_STATUS_STAGE.off ≠ remapAt ch e := by
    have hlow := (remapAt_lt hch he).1
    simp only [pgNvm, NVM_FW_STATUS_STAGE]
    omega
  exact quiet_modInteg (quiet_of_touches hq (touches_setWord ..) (getF_of_words (wordAt_setWord_other s _ hstage))) _

/-- The fault that no entry is left for. -/
def fullTable (s : State) (ch block : Nat) : State :=
  modInteg (errSlice (setChan s SL_LINE_STATUS_REMAP_FULL ch true) HDR_ERR_SUMMARY_LINE (ch / 4)) (fun i =>
    { i with unmapped := if i.unmapped.contains (ch, block) then i.unmapped else i.unmapped ++ [(ch, block)] })

theorem hardFault_full (hfull : freeEntry s ch = none) :
    hardFault s ch block = logWrite (postEvent (fullTable s ch block) 0 0x0076 (leBytes 1 ch)) 8 (leBytes 1 ch) := by
  unfold freeEntry at hfull
  simp only [hardFault, hfull]
  rfl

theorem mem_unmapped_fullTable (s : State) (ch block : Nat) : (ch, block) ∈ (fullTable s ch block).integ.unmapped := by
  simp only [fullTable, modInteg]
  split
  · next h => simpa using h
  · exact List.mem_append_right _ (List.mem_singleton.mpr rfl)

theorem switching_fullTable (s : State) (hch : ch < 64) (block : Nat) : switching (fullTable s ch block) = switching s := by
  have hreport := switching_of_reports (reports_errSlice (setChan s SL_LINE_STATUS_REMAP_FULL ch true) (ch / 4) (f := HDR_ERR_SUMMARY_LINE) rfl)
  have hbit : switching (setChan s SL_LINE_STATUS_REMAP_FULL ch true) = switching s := by
    unfold switching
    rw [setChan, getF_setF_other _ _ (by simp only [pgNvm, NVM_FW_STATUS_STAGE, pgSlice]; omega)]
  rw [← hbit, ← hreport, fullTable, switching, getF_modInteg, switching]

/-- What a fault without a free entry leaves: a report. -/
theorem reports_hardFault_full (hs : switching s = false) (hch : ch < 64) (block : Nat) :
    Reports (fullTable s ch block) (logWrite (postEvent (fullTable s ch block) 0 0x0076 (leBytes 1 ch)) 8 (leBytes 1 ch)) :=
  reports_trans (reports_postEvent ((switching_fullTable s hch block).trans hs) 0 0x0076 _) (reports_logWrite ..)

theorem reports_fullTable_words (s : State) (ch block : Nat) : ∀ a, ¬reportWord a → a ≠ pgSlice (ch / 4) + 0x05C →
    wordAt (fullTable s ch block) a = wordAt s a := by
  intro a ha hne
  have herr := (reports_errSlice (setChan s SL_LINE_STATUS_REMAP_FULL ch true) (ch / 4) (f := HDR_ERR_SUMMARY_LINE) rfl).words a ha
  have hbit := (touches_setChan (s := s) (ch := ch) (show SL_LINE_STATUS_REMAP_FULL ∈ lineFields by decide) true).2 a (by simpa using hne)
  rw [fullTable, wordAt_modInteg, herr, hbit]

theorem chanBit_fullTable (s : State) (hch : ch < 64) (block : Nat) : chanBit (fullTable s ch block) SL_LINE_STATUS_REMAP_FULL ch = true := by
  have herr := reports_errSlice (setChan s SL_LINE_STATUS_REMAP_FULL ch true) (ch / 4) (f := HDR_ERR_SUMMARY_LINE) rfl
  rw [← chanBit_setChan (s := s) (ch := ch) (show SL_LINE_STATUS_REMAP_FULL ∈ lineFields by decide) true, ← chanBit_of_reports herr (by decide) hch,
    fullTable]
  exact chanBit_of_word (by decide) (wordAt_modInteg ..)

/-- A remap entry is no register that reports write, and not LINE_STATUS. -/
theorem remapAt_apart (hch : ch < 64) {e : Nat} (he : e < 16) : ¬reportWord (remapAt ch e) ∧ remapAt ch e ≠ pgSlice (ch / 4) + 0x05C := by
  have hoff : remapAt ch e = pgSlice (ch / 4) + (0x400 + 4 * (16 * (ch % 4) + e)) := by unfold remapAt; omega
  rw [hoff]
  exact ⟨not_reportWord_slice (by omega) (by omega) (by omega), by omega⟩

theorem freeEntry_fixClosed (q : BlockFix) {o : Option Nat}
    (h : (List.range 16).find? (fun e => !bit (wordAt s (remapAt ch e)).toNat 31) = o) : freeEntry (fixClosed s q) ch = o := h

theorem hardFaults (hup : alive s = true) (hq : Quiet s) (ch : Fin 64) (block : BitVec 23) (raw : List Byte) :
    (openFix s ch block.toNat true = none → Ignores (.hardFaultCheck ch block raw) s) ∧
    (∀ q, openFix s ch block.toNat true = some q →
      let hard := (blockNow s ch block.toNat raw).symbols.any (fun k => q.symbols.contains k)
      (hard = false → Gives (.hardFaultCheck ch block raw) s (fun t =>
        t = { s with integ := { s.integ with fixes := s.integ.fixes.erase q } })) ∧
      (∀ e, hard = true → (List.range 16).find? (fun e => !bit (wordAt s (remapAt ch e)).toNat 31) = some e →
        Gives (.hardFaultCheck ch block raw) s (fun t => OneWord { s with integ := t.integ } t (remapAt ch e) ∧
          (wordAt t (remapAt ch e)).toNat = 2 ^ 31 + block.toNat)) ∧
      (hard = true → (∀ e, e < 16 → bit (wordAt s (remapAt ch e)).toNat 31 = true) → Does (.hardFaultCheck ch block raw) s (fun u =>
        chanBit u SL_LINE_STATUS_REMAP_FULL ch = true ∧ (ch.val, block.toNat) ∈ u.integ.unmapped ∧
        ∀ e, e < 16 → wordAt u (remapAt ch e) = wordAt s (remapAt ch e)))) := by
  have hblock : block.toNat < 2 ^ 23 := block.isLt
  refine ⟨fun hnone => ignores_onDie (exec_hardFaultCheck s ch block raw) hup hq (hardFaultCheck_none hnone), fun q hfix => ⟨fun hsoft => ?_,
    fun e hhard hfree => ?_, fun hhard hfull => ?_⟩⟩
  · have hclosed : hardFaultCheck s ch block.toNat raw = fixClosed s q := (hardFaultCheck_some hfix).trans (if_neg (by
      rw [stillWrong, hsoft]
      decide))
    exact gives_onDie (exec_hardFaultCheck s ch block raw) hup hclosed (quiet_fixClosed hq q) rfl rfl
  · have hmoved : hardFaultCheck s ch block.toNat raw = remapped (fixClosed s q) ch block.toNat e := by
      rw [hardFaultCheck_some hfix, stillWrong, hhard, if_pos rfl, hardFault_remaps hblock (freeEntry_fixClosed q hfree)]
    have he : e < 16 := List.mem_range.mp (List.mem_of_find?_eq_some hfree)
    exact gives_onDie (exec_hardFaultCheck s ch block raw) hup hmoved (quiet_remapped (quiet_fixClosed hq q) ch.isLt he _)
      (pending_remapped ..) ⟨oneWord_remapped .., wordAt_remapped _ _ _ hblock⟩
  · have hnone : freeEntry (fixClosed s q) ch = none := by
      rw [freeEntry, List.find?_eq_none]
      intro e he
      simp only [wordAt_fixClosed, hfull e (List.mem_range.mp he), Bool.not_true, Bool.false_eq_true, not_false_eq_true]
    have hreport := reports_hardFault_full (quiet_fixClosed hq q).switching ch.isLt block.toNat
    refine does_onDie (exec_hardFaultCheck s ch block raw) hup
      (by rw [hardFaultCheck_some hfix, stillWrong, hhard, if_pos rfl, hardFault_full hnone]) ⟨?_, ?_, fun e he => ?_⟩
    · exact (chanBit_of_reports hreport (by decide) ch.isLt).trans (chanBit_fullTable _ ch.isLt _)
    · rw [integ_of_reports hreport]
      exact mem_unmapped_fullTable ..
    · obtain ⟨hword, hstatus⟩ := remapAt_apart ch.isLt he
      rw [hreport.words _ hword, reports_fullTable_words _ _ _ _ hword hstatus, wordAt_fixClosed]

end

/-! ### The data lap (R344) -/

section
variable {s : State} {ch : Nat} {raw : List Byte} {owner : BlockOwner}

theorem exec_droneBlockRead (s : State) (ch : Fin 64) (raw : List Byte) (owner : BlockOwner) :
    exec (.droneBlockRead ch raw owner) s = onDie s (fun s => droneRead s ch raw owner) := rfl

/-- The Drone reads the next block of the channel. -/
def droneWorks (s : State) (ch : Nat) : Prop :=
  getF s pgDrone DRONE_CTRL_ENABLE ≠ 0 ∧ getF s pgDrone DRONE_CTRL_RATE ≠ 0 ∧ backgroundPaused s = false ∧ served s ch ∧
    tabGet 0 s.integ.lapNext ch < 2 ^ 23

theorem droneWorks_iff : droneWorks s ch ↔ ¬(getF s pgDrone DRONE_CTRL_ENABLE = 0 ∨ getF s pgDrone DRONE_CTRL_RATE = 0 ∨ backgroundPaused s = true ∨
    chanBit s SL_LINE_STATUS_HALTED ch = true ∨ chanBit s SL_LINE_STATUS_FAILED ch = true ∨ 2 ^ 23 ≤ tabGet 0 s.integ.lapNext ch) := by
  simp only [droneWorks, served, not_or, Bool.not_eq_true, Nat.not_le, ne_eq, and_assoc]

theorem droneRead_idle (h : ¬droneWorks s ch) : droneRead s ch raw owner = s := by
  rw [droneWorks_iff, not_not] at h
  exact if_pos h

/-- The channel's lap has passed a block. -/
def lapStepped (s : State) (ch : Nat) : State :=
  modInteg s (fun i => { i with lapNext := tabSet 0 i.lapNext ch (tabGet 0 s.integ.lapNext ch + 1) })

/-- The blocks that the lap has read on all channels. -/
def lapRead (i : IntegSt) : Nat := ((List.range 64).map (fun c => tabGet 0 i.lapNext c)).sum

/-- The lap goes on, or ends with the last block of all. -/
def lapShown (s : State) : State :=
  if lapRead s.integ = 64 * 2 ^ 23 then
    setF (modInteg (setF s pgDrone DRONE_LAPS_DATA_LAP (min ((s.ticks - s.integ.lapAt) / 800000000) 0xFFFF)) (fun i =>
      { i with lapNext := [], lapAt := s.ticks, lapLate := false })) pgDrone DRONE_STATUS_DATA_PROGRESS 0
  else setF s pgDrone DRONE_STATUS_DATA_PROGRESS (lapRead s.integ * 1000 / (64 * 2 ^ 23))

theorem droneRead_works (h : droneWorks s ch) : droneRead s ch raw owner =
    lapShown (dataLate (readBlock (lapStepped s ch) ch (tabGet 0 s.integ.lapNext ch) raw owner)) := by
  rw [droneRead, if_neg (droneWorks_iff.mp h)]
  rfl

theorem blockNow_lapStepped (s : State) (ch block : Nat) (raw : List Byte) : blockNow (lapStepped s ch) ch block raw = blockNow s ch block raw := by
  rw [blockNow, blockNow, storedRaw, storedRaw, lapStepped, modInteg]

theorem readBlock_lapStepped (hclean : (blockNow s ch (tabGet 0 s.integ.lapNext ch) raw).clean = true) :
    readBlock (lapStepped s ch) ch (tabGet 0 s.integ.lapNext ch) raw owner = lapStepped s ch :=
  readBlock_clean (.inr (by rw [blockNow_lapStepped, hclean]))

/-- The sum over the channels with one lap stepped. -/
theorem lapRead_lapStepped (s : State) (ch : Nat) : lapRead (lapStepped s ch).integ =
    ((List.range 64).map (fun c => if c = ch then tabGet 0 s.integ.lapNext ch + 1 else tabGet 0 s.integ.lapNext c)).sum := by
  unfold lapRead
  congr 2
  funext c
  simp only [lapStepped, modInteg]
  split
  · next hc => rw [hc, tabGet_set_same]
  · next hc => rw [tabGet_set_other _ _ _ hc]

/-- What the lateness of a lap leaves alone. -/
structure LapKept (s t : State) : Prop where
  lapNext : t.integ.lapNext = s.integ.lapNext
  lapAt : t.integ.lapAt = s.integ.lapAt
  halted : t.integ.halted = s.integ.halted
  rowNext : t.integ.rowNext = s.integ.rowNext
  ticks : t.ticks = s.ticks
  deep : t.deep = s.deep

theorem lapKept_refl (s : State) : LapKept s s := ⟨rfl, rfl, rfl, rfl, rfl, rfl⟩

theorem deep_of_reports {t : State} (h : Reports s t) : t.deep = s.deep := (congrArg State.deep h.still :)

theorem lapKept_reports {t u : State} (h : LapKept s t) (hr : Reports t u) : LapKept s u where
  lapNext := by rw [integ_of_reports hr, h.lapNext]
  lapAt := by rw [integ_of_reports hr, h.lapAt]
  halted := by rw [integ_of_reports hr, h.halted]
  rowNext := by rw [integ_of_reports hr, h.rowNext]
  ticks := (ticks_of_reports hr).trans h.ticks
  deep := (deep_of_reports hr).trans h.deep

/-- The data lap is late. -/
def lapLated (s : State) : State := flagF (modInteg s (fun i => { i with lapLate := true })) pgDrone DRONE_STATUS_DRONE_LAP_LATE

theorem lapKept_lapLated (s : State) : LapKept s (lapLated s) := by
  constructor
  case ticks => rw [lapLated, flagF, setF_ticks, modInteg]
  case deep => rw [lapLated, flagF, setF_deep, modInteg]
  all_goals rw [lapLated, flagF, setF_integ, modInteg]

theorem switching_lapLated (s : State) : switching (lapLated s) = switching s := by
  rw [switching, lapLated, flagF, getF_setF_other _ _ (by decide), getF_modInteg, switching]

theorem dataLate_cases (s : State) : dataLate s = s ∨ ∃ p, dataLate s = postEvent (lapLated s) 0 0x0077 p := by
  unfold dataLate
  extract_lets lim t
  split
  · exact .inr ⟨_, rfl⟩
  · exact .inl rfl

theorem lapKept_dataLate (hs : switching s = false) : LapKept s (dataLate s) := by
  rcases dataLate_cases s with hsame | ⟨p, hpost⟩
  · rw [hsame]
    exact lapKept_refl s
  · rw [hpost]
    exact lapKept_reports (lapKept_lapLated s) (reports_postEvent ((switching_lapLated s).trans hs) ..)

theorem lapShown_going (h : lapRead s.integ ≠ 64 * 2 ^ 23) : LapKept s (lapShown s) ∧
    getF (lapShown s) pgDrone DRONE_STATUS_DATA_PROGRESS = lapRead s.integ * 1000 / (64 * 2 ^ 23) % 1024 := by
  have heq : lapShown s = setF s pgDrone DRONE_STATUS_DATA_PROGRESS (lapRead s.integ * 1000 / (64 * 2 ^ 23)) := if_neg h
  rw [heq, getF_setF_same _ _ _ _ (by decide) (by decide)]
  exact ⟨⟨by rw [setF_integ], by rw [setF_integ], by rw [setF_integ], by rw [setF_integ], setF_ticks .., setF_deep ..⟩, rfl⟩

/-- The lap's time, and the start of the next lap. -/
def lapEnded (s : State) : State :=
  modInteg (setF s pgDrone DRONE_LAPS_DATA_LAP (min ((s.ticks - s.integ.lapAt) / 800000000) 0xFFFF)) (fun i =>
    { i with lapNext := [], lapAt := s.ticks, lapLate := false })

theorem lapShown_ended (h : lapRead s.integ = 64 * 2 ^ 23) : lapShown s = setF (lapEnded s) pgDrone DRONE_STATUS_DATA_PROGRESS 0 := if_pos h

theorem lapEnded_facts (s : State) : (lapEnded s).integ.lapNext = [] ∧ (lapEnded s).integ.lapAt = s.ticks ∧
    getF (lapEnded s) pgDrone DRONE_LAPS_DATA_LAP = min ((s.ticks - s.integ.lapAt) / 800000000) 0xFFFF := by
  refine ⟨rfl, rfl, ?_⟩
  rw [lapEnded, getF_modInteg, getF_setF_same _ _ _ _ (by decide) (by decide)]
  exact Nat.mod_eq_of_lt (by simp only [DRONE_LAPS_DATA_LAP]; omega)

theorem switching_lapStepped (s : State) (ch : Nat) : switching (lapStepped s ch) = switching s := rfl

theorem dataLap (hup : alive s = true) (hq : Quiet s) (ch : Fin 64) (raw : List Byte) (owner : BlockOwner) {block : Nat}
    (hblock : block = tabGet 0 s.integ.lapNext ch) :
    let work := getF s pgDrone DRONE_CTRL_ENABLE ≠ 0 ∧ getF s pgDrone DRONE_CTRL_RATE ≠ 0 ∧ backgroundPaused s = false ∧ served s ch ∧ block < 2 ^ 23
    let read := ((List.range 64).map (fun c => if c = ch.val then block + 1 else tabGet 0 s.integ.lapNext c)).sum
    (¬work → Ignores (.droneBlockRead ch raw owner) s) ∧
    (work → (blockNow s ch block raw).clean = true →
      (read ≠ 64 * 2 ^ 23 → Does (.droneBlockRead ch raw owner) s (fun u => u.integ.lapNext = tabSet 0 s.integ.lapNext ch (block + 1) ∧
        u.integ.halted = s.integ.halted ∧ u.deep = s.deep ∧ (block + 1 ≤ 2 ^ 23 → read < 64 * 2 ^ 23 →
          getF u pgDrone DRONE_STATUS_DATA_PROGRESS = read * 1000 / (64 * 2 ^ 23)))) ∧
      (read = 64 * 2 ^ 23 → Does (.droneBlockRead ch raw owner) s (fun u => u.integ.lapNext = [] ∧ u.integ.lapAt = s.ticks ∧
        getF u pgDrone DRONE_STATUS_DATA_PROGRESS = 0 ∧
        getF u pgDrone DRONE_LAPS_DATA_LAP = min ((s.ticks - s.integ.lapAt) / 800000000) 0xFFFF))) := by
  subst hblock
  intro work read
  refine ⟨fun hno => ignores_onDie (exec_droneBlockRead s ch raw owner) hup hq (droneRead_idle hno), fun hwork hclean => ?_⟩
  have hkept : LapKept (lapStepped s ch) (dataLate (lapStepped s ch)) := lapKept_dataLate hq.switching
  have hread : lapRead (dataLate (lapStepped s ch)).integ = read := by
    rw [lapRead, hkept.lapNext]
    exact lapRead_lapStepped s ch
  have heq : droneRead s ch raw owner = lapShown (dataLate (lapStepped s ch)) := by
    rw [droneRead_works hwork, readBlock_lapStepped hclean]
  refine ⟨fun hgoing => ?_, fun hended => ?_⟩
  · obtain ⟨hshown, hprogress⟩ := lapShown_going (hread ▸ hgoing)
    refine does_onDie (exec_droneBlockRead s ch raw owner) hup heq ⟨?_, ?_, ?_, fun _ hlt => ?_⟩
    · exact hshown.lapNext.trans hkept.lapNext
    · exact hshown.halted.trans hkept.halted
    · exact hshown.deep.trans hkept.deep
    · rw [hprogress, hread]
      exact Nat.mod_eq_of_lt (by omega)
  · obtain ⟨hnext, hat, hlap⟩ := lapEnded_facts (dataLate (lapStepped s ch))
    refine does_onDie (exec_droneBlockRead s ch raw owner) hup (heq.trans (lapShown_ended (hread.trans hended))) ⟨?_, ?_, ?_, ?_⟩
    · rw [setF_integ, hnext]
    · rw [setF_integ, hat, hkept.ticks]
      rfl
    · rw [getF_setF_same _ _ _ _ (by decide) (by decide), Nat.zero_mod]
    · rw [getF_setF_other _ _ (by decide), hlap, hkept.ticks, hkept.lapAt]
      rfl

end

/-! ### Near-tier lines (Table 12.4) -/

section
variable {s : State}

theorem exec_nearReadComplete (s : State) (r : NearRegion) (bad : Bool) (imgs : RowImages) :
    exec (.nearReadComplete r bad imgs) s = onDie s (fun s => nearReadDone s r bad imgs) := rfl

theorem todo_quiet (hq : Quiet s) (t : Todo) : todo s t = { s with agenda := [t] } := by
  rw [todo, hq.agenda, List.nil_append]

/-- A ledger entry whose CHECK is off by one. -/
def spoiled (b : List Byte) : List Byte := setField b 0x1C 4 ((crc64 (b.take 0x1C) + 1) % 2 ^ 32)

theorem length_spoiled {b : List Byte} (h : b.length = 32) : (spoiled b).length = 32 := by
  rw [spoiled, length_setField _ (by omega), h]

theorem take_spoiled {b : List Byte} (h : b.length = 32) : (spoiled b).take 0x1C = b.take 0x1C := by
  rw [spoiled, setField_eq _ (by omega), List.append_assoc]
  exact List.take_left' (by rw [List.length_take, h]; rfl)

theorem entryOk_spoiled {b : List Byte} (h : b.length = 32) : entryOk (spoiled b) = false := by
  have hcheck : field (spoiled b) 0x1C 4 = (crc64 (b.take 0x1C) + 1) % 2 ^ 32 := by
    rw [spoiled, field_setField_same _ (by omega)]
    exact Nat.mod_mod_of_dvd _ (by norm_num)
  have hne : ¬field (spoiled b) 0x1C 4 = crc64 ((spoiled b).take 0x1C) % 2 ^ 32 := by
    rw [hcheck, take_spoiled h]
    omega
  rw [entryOk, decide_eq_false hne, Bool.false_and]

theorem nearReadDone_ledger (sl : Fin 16) (c : Fin 32) (e : Fin 4096) (imgs : RowImages) :
    nearReadDone s (.ledger sl c e) true imgs =
      nearWrite s (sl.val * 4194304 + c.val * 131072 + 32 * e.val) (spoiled (nearRead s (sl.val * 4194304 + c.val * 131072 + 32 * e.val) 32)) := rfl

theorem quiet_nearWrite (hq : Quiet s) (a : Nat) (bs : List Byte) : Quiet (nearWrite s a bs) := quiet_of_same hq rfl rfl rfl rfl rfl

/-- A before-image has left the push area. -/
def unpushed (s : State) (p : Push) : State := { s with pushes := s.pushes.erase p }

theorem quiet_unpushed (hq : Quiet s) (p : Push) : Quiet (unpushed s p) := quiet_of_same hq rfl rfl rfl rfl rfl

theorem nearReadDone_push {i : Nat} {p : Push} (h : s.pushes[i]? = some p) (imgs : RowImages) :
    nearReadDone s (.push i) true imgs = sweepMark (unpushed s p) p.fn p.ordinal indexAbsent := by
  simp only [nearReadDone, Bool.not_true, Bool.false_eq_true, if_false, h]
  rfl

theorem quiet_sweepMark (hq : Quiet s) (n ordinal v : Nat) : Quiet (sweepMark s n ordinal v) := quiet_modFn hq _ _ (fun _ => rfl) (fun _ => rfl)

theorem nearReads (hup : alive s = true) (hq : Quiet s) (r : NearRegion) (imgs : RowImages) :
    Ignores (.nearReadComplete r false imgs) s ∧
    (r = .window ∨ r = .page .spare ∨ r = .page .none → Ignores (.nearReadComplete r true imgs) s) ∧
    (∀ n, r = .landing n → Does (.nearReadComplete r true imgs) s (fun u => u = { s with agenda := [.integrity n 1] })) ∧
    (∀ n, r = .rowList n → Does (.nearReadComplete r true imgs) s (fun u => u = { s with agenda := [.integrity n 3] })) ∧
    (∀ sl c e, r = .ledger sl c e → Gives (.nearReadComplete r true imgs) s (fun t =>
      let a := sl.val * 4194304 + c.val * 131072 + 32 * e.val
      entryOk (nearRead t a 32) = false ∧ ∀ b, b < a ∨ a + 32 ≤ b → memRead t.near b = memRead s.near b)) ∧
    (∀ i p, r = .push i → s.pushes[i]? = some p → Gives (.nearReadComplete r true imgs) s (fun t => t.pushes = s.pushes.erase p)) := by
  have hexec := exec_nearReadComplete s r
  refine ⟨ignores_onDie (hexec false imgs) hup hq rfl, fun hnone => ?_, fun n hr => ?_, fun n hr => ?_, fun sl c e hr => ?_, fun i p hr hp => ?_⟩
  · refine ignores_onDie (hexec true imgs) hup hq ?_
    rcases hnone with rfl | rfl | rfl <;> rfl
  · subst hr
    exact does_onDie (hexec true imgs) hup (todo_quiet hq _) rfl
  · subst hr
    exact does_onDie (hexec true imgs) hup (todo_quiet hq _) rfl
  · subst hr
    have hlen : (spoiled (nearRead s (sl.val * 4194304 + c.val * 131072 + 32 * e.val) 32)).length = 32 :=
      length_spoiled (length_memReadN ..)
    refine gives_onDie (hexec true imgs) hup (nearReadDone_ledger sl c e imgs) (quiet_nearWrite hq ..) (by rw [nearWrite]) ⟨?_, fun b hb => ?_⟩
    · have hback := memReadN_writeN s.near (sl.val * 4194304 + c.val * 131072 + 32 * e.val)
        (spoiled (nearRead s (sl.val * 4194304 + c.val * 131072 + 32 * e.val) 32))
      rw [hlen] at hback
      rw [nearRead, nearWrite, hback]
      exact entryOk_spoiled (length_memReadN ..)
    · exact memRead_writeN_other _ (by rw [hlen]; exact hb)
  · subst hr
    exact gives_onDie (hexec true imgs) hup (nearReadDone_push hp imgs) (quiet_sweepMark (quiet_unpushed hq p) ..)
      (by rw [sweepMark, modFn, setFnSt, unpushed]) (by rw [sweepMark, modFn, setFnSt, unpushed])

/-! ### Erasure marks (R335) -/

theorem exec_erasureReencode (s : State) (n : Fin 64) (area : Fin 2) (gen row : Nat) (imgs : RowImages) :
    exec (.erasureReencode n area gen row imgs) s = onDie s (fun s => erasureReencode s n area gen row imgs) := rfl

/-- A pigeonhole of the row that this die holds has an erasure mark. -/
def erasureMarked (s : State) (n area gen row : Nat) : Prop :=
  ∃ g, grpOf (fnSt s n) = some g ∧ ∃ p, p < g.r ∧ heldHere (fnSt s n) (holeMember g row p) row = true ∧
    pmKind (heldSlot s n (holeMember g row p) area gen row) = 0xFF

/-- The row is encoded again now. -/
def erasureDue (s : State) (n area gen row : Nat) : Prop :=
  erasureMarked s n area gen row ∧ ((fnSt s n).groupDone = true ∨ (fnSt s n).passOn = false) ∧ rowReserved s n area gen row = false

theorem erasureMarked_iff {n area gen row : Nat} {g : GroupEntry} (hg : grpOf (fnSt s n) = some g) : erasureMarked s n area gen row ↔
    (List.range g.r).any (fun p => heldHere (fnSt s n) (holeMember g row p) row &&
      decide (pmKind (heldSlot s n (holeMember g row p) area gen row) = 0xFF)) = true := by
  simp only [erasureMarked, hg, Option.some.injEq, exists_eq_left', List.any_eq_true, List.mem_range, Bool.and_eq_true, decide_eq_true_eq]

theorem erasureReencode_due {n area gen row : Nat} (imgs : RowImages) (h : erasureDue s n area gen row) :
    erasureReencode s n area gen row imgs = (verifyAt s n area gen row imgs).state := by
  obtain ⟨hmarked, hrest⟩ := h
  obtain ⟨g, hg, -⟩ := id hmarked
  simp only [erasureReencode, hg]
  exact if_pos ⟨(erasureMarked_iff hg).mp hmarked, hrest⟩

theorem erasureReencode_idle {n area gen row : Nat} (imgs : RowImages) (h : ¬erasureDue s n area gen row) :
    erasureReencode s n area gen row imgs = s := by
  cases hg : grpOf (fnSt s n) with
  | none => simp only [erasureReencode, hg]
  | some g =>
    simp only [erasureReencode, hg]
    refine if_neg (fun hdue => h ?_)
    obtain ⟨hmarked, hrest⟩ := hdue
    exact ⟨(erasureMarked_iff hg).mpr hmarked, hrest⟩

theorem reencodes (hup : alive s = true) (hq : Quiet s) (n : Fin 64) (area : Fin 2) (gen row : Nat) (imgs : RowImages) :
    (erasureDue s n area gen row → Does (.erasureReencode n area gen row imgs) s (fun u => u = (verifyAt s n area gen row imgs).state)) ∧
    (¬erasureDue s n area gen row → Ignores (.erasureReencode n area gen row imgs) s) :=
  ⟨fun hdue => does_onDie (exec_erasureReencode s n area gen row imgs) hup (erasureReencode_due imgs hdue) rfl,
    fun hno => ignores_onDie (exec_erasureReencode s n area gen row imgs) hup hq (erasureReencode_idle imgs hno)⟩

end

/-! ### VERIFY_ROW (R62) -/

section
variable {s t u : State}

theorem exec_verifyRow (s : State) (n : Fin 64) (imgs : RowImages) : exec (.verifyRow n imgs) s = onDie s (fun s => verifyNext s n imgs) := rfl

/-- A row's verification added to a job. -/
def jobStepped (v : VerifyJob) (r : RowResult) : VerifyJob := { v with
  next := v.next + 1, left := v.left - 1, verified := v.verified + b2n (decide (v.left ≠ 0)), reencoded := v.reencoded + r.reencoded,
  decoded := v.decoded + r.decoded, lost := v.lost + b2n r.lost }

/-- The counts of a job, as its completion's DETAIL. -/
def jobDetail (v : VerifyJob) : Nat :=
  min v.verified 0xFFFF * 2 ^ 48 + min v.reencoded 0xFFFF * 2 ^ 32 + min v.decoded 0xFFFF * 2 ^ 16 + min v.lost 0xFFFF

theorem verifyNext_none {n : Nat} {imgs : RowImages} (h : (fnSt s n).verify = none) : verifyNext s n imgs = s := by
  simp only [verifyNext, h]

/-- The last row completes the command. -/
def jobEnded (s : State) (n : Nat) (v : VerifyJob) : State :=
  bgComplete (setFnF (modFn s n (fun x => { x with verify := none })) n FN_CODE_STATUS_VERIFYING 0) n 0x06 (if v.lost ≠ 0 then 8 else 0) (jobDetail v)

/-- A job goes on with its rows, or ends. -/
def jobKept (s : State) (n : Nat) (v : VerifyJob) : State :=
  let s := modFn s n (fun x => { x with verify := if v.left = 0 then none else some v })
  if v.left = 0 then
    bgComplete (setFnF s n FN_CODE_STATUS_VERIFYING 0) n 0x06 (if v.lost ≠ 0 then 8 else 0) (jobDetail v)
  else s

theorem jobKept_going {n : Nat} {v : VerifyJob} (h : v.left ≠ 0) : jobKept s n v = modFn s n (fun x => { x with verify := some v }) := by
  simp only [jobKept, if_neg h]

theorem jobKept_ended {n : Nat} {v : VerifyJob} (h : v.left = 0) : jobKept s n v = jobEnded s n v := by
  simp only [jobKept, if_pos h, jobEnded]

theorem verifyNext_some {n : Nat} {imgs : RowImages} {v : VerifyJob} (h : (fnSt s n).verify = some v) (hacts : actsRunning s n = true)
    (hhold : holding s = false) (hleft : v.left ≠ 0) (hwaits : verifyWaits s n v.area v.gen v.next = false) : verifyNext s n imgs =
      jobKept (verifyAt s n v.area v.gen v.next imgs).state n (jobStepped v (verifyAt s n v.area v.gen v.next imgs)) := by
  have hrow : (if v.left = 0 then ⟨s, 0, 0, false⟩ else verifyAt s n v.area v.gen v.next imgs : RowResult) = verifyAt s n v.area v.gen v.next imgs :=
    if_neg hleft
  rw [← hrow]
  simp only [verifyNext, h]
  rw [if_neg (by simp [hacts, hhold]), if_neg (by simp [hwaits])]
  rfl

/-- The job and its command are no longer kept. -/
def jobClosed (s : State) (n tag arg : Nat) : State :=
  modFn (setFnF (modFn s n (fun x => { x with verify := none })) n FN_CODE_STATUS_VERIFYING 0) n (fun x =>
    { x with bg := x.bg.erase ⟨6, tag, arg⟩ })

theorem edits_jobClosed (s : State) (n tag arg : Nat) : Edits s (jobClosed s n tag arg) n []
    { fnSt s n with verify := none, bg := (fnSt s n).bg.erase ⟨6, tag, arg⟩ } [pgFn n + 0x0CC] :=
  edits_modFn (edits_setFnF (edits_modFn (edits_refl s n) (fun x => { x with verify := none })) FN_CODE_STATUS_VERIFYING 0) _

theorem verifying_jobClosed (s : State) (n tag arg : Nat) : fnF (jobClosed s n tag arg) n FN_CODE_STATUS_VERIFYING = 0 := by
  rw [jobClosed, fnF_modFn, setFnF, fnF, getF_setF_same _ _ _ _ (by decide) (by decide), Nat.zero_mod]

theorem jobEnded_eq {n tag arg : Nat} {v : VerifyJob} (hbg : (fnSt s n).bg = [⟨6, tag, arg⟩]) : jobEnded s n v =
    complete (jobClosed s n tag arg) n tag 6 (if v.lost ≠ 0 then 8 else 0) (jobDetail v) := by
  have hfind : (fnSt (setFnF (modFn s n (fun x => { x with verify := none })) n FN_CODE_STATUS_VERIFYING 0) n).bg.find? (fun c => c.op = 6) =
      some ⟨6, tag, arg⟩ := by
    rw [fnSt, setFnF, setF_fns, ← fnSt, fnSt_modFn_same]
    simp [hbg]
  rw [jobEnded, bgComplete, hfind, jobClosed]

/-- The completion of a background command, behind the function's own changes. -/
theorem completes_edits {n tag op st d : Nat} {x : FnSt} {l : List Nat} (harmed : armed s n = true) (hhost : s.hostDown = false)
    (hstage : switching s = false) (h : Edits s t n [] x l) (hbox : ∀ a ∈ l, a ∉ boxWords n) :
    (complete t n tag op st d).posted = s.posted ++ [cplEntry s n ⟨tag, op, st, d⟩] ∧ fnSt (complete t n tag op st d) n = x ∧
      ∀ a, a ∉ completionWords n → wordAt (complete t n tag op st d) a = wordAt t a := by
  have hnot {a : Nat} (ha : a ∈ boxWords n) : a ∉ l := fun hl => hbox a hl ha
  have hstage' : switching t = false := by
    rw [switching, getF_of_edits h (hnot (by simp [boxWords, NVM_FW_STATUS_STAGE])), ← switching, hstage]
  have harmed' : armed t n = true := by
    rw [armed, fnF, getF_of_edits h (hnot (by simp [boxWords, FN_PB_CTRL_ARM])), ← fnF, ← armed, harmed]
  have hhost' : t.hostDown = false := by rw [h.frame]; exact hhost
  have hcomplete : complete t n tag op st d = cplWrite t n ⟨tag, op, st, d⟩ := by
    simp only [complete, hstage', harmed', if_true, Bool.false_eq_true, if_false]
  have htouches := touches_cplWrite hhost' n ⟨tag, op, st, d⟩
  have hposted : t.posted = s.posted := by rw [h.frame, List.append_nil]
  have hfns : (cplWrite t n ⟨tag, op, st, d⟩).fns = t.fns := by rw [htouches.1]
  rw [hcomplete]
  refine ⟨?_, ?_, htouches.2⟩
  · rw [htouches.1, cplEntry_of_edits h hbox, hposted]
  · rw [fnSt, hfns, ← fnSt, h.fn]

theorem verifies (hup : alive s = true) (hq : Quiet s) (n : Fin 64) (imgs : RowImages) :
    ((fnSt s n).verify = none → Ignores (.verifyRow n imgs) s) ∧
    (∀ v, (fnSt s n).verify = some v → actsRunning s n = true → holding s = false → v.left ≠ 0 → verifyWaits s n v.area v.gen v.next = false →
      let r := verifyAt s n v.area v.gen v.next imgs
      (v.left ≠ 1 → Does (.verifyRow n imgs) s (fun u => u.deep = r.state.deep ∧ (fnSt u n).verify = some { v with
        next := v.next + 1, left := v.left - 1, verified := v.verified + 1, reencoded := v.reencoded + r.reencoded,
        decoded := v.decoded + r.decoded, lost := v.lost + b2n r.lost })) ∧
      (∀ tag arg, v.left = 1 → r.state = s → (fnSt s n).bg = [⟨6, tag, arg⟩] → armed s n = true → s.hostDown = false →
        Does (.verifyRow n imgs) s (fun u => (fnSt u n).verify = none ∧ fnF u n FN_CODE_STATUS_VERIFYING = 0 ∧ (fnSt u n).bg = [] ∧
          u.posted = s.posted ++ [cplEntry s n ⟨tag, 6, if v.lost + b2n r.lost ≠ 0 then 8 else 0,
            min (v.verified + 1) 0xFFFF * 2 ^ 48 + min (v.reencoded + r.reencoded) 0xFFFF * 2 ^ 32 +
              min (v.decoded + r.decoded) 0xFFFF * 2 ^ 16 + min (v.lost + b2n r.lost) 0xFFFF⟩]))) := by
  refine ⟨fun hnone => ignores_onDie (exec_verifyRow s n imgs) hup hq (verifyNext_none hnone), fun v hv hacts hhold hleft hwaits => ?_⟩
  have heq := verifyNext_some (imgs := imgs) hv hacts hhold hleft hwaits
  intro r
  have hcount : v.verified + b2n (decide (v.left ≠ 0)) = v.verified + 1 := by rw [decide_eq_true hleft]; rfl
  refine ⟨fun hmore => ?_, fun tag arg hlast hstate hbg harmed hhost => ?_⟩
  · have hgoing : verifyNext s n imgs = modFn r.state n (fun x => { x with verify := some (jobStepped v r) }) :=
      heq.trans (jobKept_going (show v.left - 1 ≠ 0 by omega))
    refine does_onDie (exec_verifyRow s n imgs) hup hgoing ⟨?_, ?_⟩
    · rw [modFn, setFnSt]
    · rw [fnSt_modFn_same, jobStepped, hcount]
  · have hended : verifyNext s n imgs = jobEnded s n (jobStepped v r) := by
      rw [heq, jobKept_ended (show v.left - 1 = 0 by omega)]
      exact congrArg (fun z => jobEnded z n (jobStepped v r)) hstate
    have hbox : ∀ a ∈ [pgFn n.val + 0x0CC], a ∉ boxWords n.val := by
      simp only [forall_eq, boxWords, pgNvm, pgFn, List.mem_cons, List.not_mem_nil, or_false]
      omega
    obtain ⟨hposted, hfn, hwords⟩ := completes_edits (tag := tag) (op := 6) (st := if (jobStepped v r).lost ≠ 0 then 8 else 0)
      (d := jobDetail (jobStepped v r)) harmed hhost hq.switching (edits_jobClosed s n tag arg) hbox
    have hcode : pgFn n.val + FN_CODE_STATUS_VERIFYING.off ∉ completionWords n := by
      simp [completionWords, FN_CODE_STATUS_VERIFYING]
    refine does_onDie (exec_verifyRow s n imgs) hup (hended.trans (jobEnded_eq hbg)) ⟨?_, ?_, ?_, ?_⟩
    · rw [hfn]
    · exact (getF_of_words (hwords _ hcode)).trans (verifying_jobClosed ..)
    · rw [hfn, hbg, List.erase_cons_head]
    · rw [hposted, jobDetail, jobStepped, hcount]

end

/-! ### The parity lap (R345)

Coding a row writes slots, counts and records; neither the time nor the laps move. -/

section
variable {s t u : State}

/-- The time and what the die keeps of its integrity stay. -/
structure LapsStay (s t : State) : Prop where
  ticks : t.ticks = s.ticks
  integ : t.integ = s.integ

theorem lapsStay_refl (s : State) : LapsStay s s := ⟨rfl, rfl⟩

theorem lapsStay_trans (h : LapsStay s t) (h' : LapsStay t u) : LapsStay s u := ⟨h'.ticks.trans h.ticks, h'.integ.trans h.integ⟩

theorem lapsStay_ite (c : Prop) [Decidable c] (ht : LapsStay s t) (hu : LapsStay s u) : LapsStay s (if c then t else u) := by
  split
  · exact ht
  · exact hu

theorem lapsStay_foldl {α : Type} {f : State → α → State} (hf : ∀ s x, LapsStay s (f s x)) (l : List α) : ∀ s, LapsStay s (l.foldl f s) := by
  induction l with
  | nil => exact lapsStay_refl
  | cons x l ih => exact fun s => lapsStay_trans (hf s x) (ih (f s x))

theorem lapsStay_records (h : Records s t) : LapsStay s t := ⟨ticks_of_records h, (congrArg State.integ h.rest :)⟩

theorem lapsStay_setF (s : State) (pg : Nat) (f : Fld) (v : Nat) : LapsStay s (setF s pg f v) := ⟨setF_ticks .., setF_integ ..⟩

theorem lapsStay_modFn (s : State) (n : Nat) (f : FnSt → FnSt) : LapsStay s (modFn s n f) := ⟨rfl, rfl⟩

theorem lapsStay_slotWrite (s : State) (n area gen row : Nat) (bs : List Byte) : LapsStay s (slotWrite s n area gen row bs) := by
  unfold slotWrite
  split
  · exact lapsStay_refl s
  · exact ⟨rfl, rfl⟩

theorem lapsStay_deep (s : State) (d : Mem) : LapsStay s { s with deep := d } := ⟨rfl, rfl⟩

theorem lapsStay_heldWrite (s : State) (n m area gen j : Nat) (slot : List Byte) : LapsStay s (heldWrite s n m area gen j slot) := by
  unfold heldWrite
  extract_lets s1 s2 s3
  have hbefore : LapsStay s s1 := lapsStay_records (records_pushBefore s n m area gen j)
  have hslot : LapsStay s1 s2 := lapsStay_ite _ (lapsStay_slotWrite ..) (lapsStay_deep ..)
  have hfolded : LapsStay s3 (if area = 0 then foldStep s3 n m j slot else s3) :=
    lapsStay_ite _ (lapsStay_records (records_foldStep ..)) (lapsStay_refl s3)
  exact lapsStay_trans (lapsStay_trans hbefore hslot) (lapsStay_trans (lapsStay_records (records_mirrorNote ..)) hfolded)

theorem lapsStay_putHeld (s : State) (n m area gen j : Nat) (slot : List Byte) : LapsStay s (putHeld s n m area gen j slot) :=
  lapsStay_ite _ (lapsStay_heldWrite ..) (lapsStay_refl s)

theorem lapsStay_markUnrecoverable (s : State) (n area gen j : Nat) : LapsStay s (markUnrecoverable s n area gen j) :=
  lapsStay_trans (lapsStay_trans (lapsStay_trans (lapsStay_setF ..) (lapsStay_setF ..)) (lapsStay_trans (lapsStay_setF ..) (lapsStay_setF ..)))
    (lapsStay_records (records_postEvent ..))

theorem lapsStay_decodeRow (s : State) (n area gen j : Nat) (imgs : RowImages) (bad : List Nat) :
    LapsStay s (decodeRow s n area gen j imgs bad).state := by
  unfold decodeRow
  extract_lets x
  split
  · next mf g _ _ =>
    extract_lets v bound entry enters
    generalize decodeView v entry bound enters = r
    obtain ⟨res, fail⟩ := r
    have hfail : LapsStay s (if fail then flagF s (pgFn n) FN_CODE_STATUS_DIGEST_FAIL else s) := lapsStay_ite _ (lapsStay_setF ..) (lapsStay_refl s)
    cases res with
    | none => exact lapsStay_trans hfail (lapsStay_markUnrecoverable ..)
    | some d =>
      have hback := lapsStay_trans hfail (lapsStay_ite (d.mode = .back) (lapsStay_setF _ (pgFn n) FN_CODE_STATUS_ROLLED_BACK 1) (lapsStay_refl _))
      have hdata := lapsStay_trans hback (lapsStay_foldl (fun s r => lapsStay_putHeld s n ((j + r.1) % g.n) area gen j
        (decodedSlot x mf g x.epoch area j d r)) (d.roles.filter (fun r => heldHere x ((j + r.1) % g.n) j)) _)
      exact lapsStay_trans hdata (lapsStay_trans (lapsStay_foldl (fun _ _ => lapsStay_putHeld ..) _ _)
        (lapsStay_trans (lapsStay_setF ..) (lapsStay_setF ..)))
  · exact lapsStay_refl s

theorem lapsStay_rebuiltRow (s : State) (n area gen j : Nat) : LapsStay s (rebuiltRow s n area gen j) := by
  unfold rebuiltRow
  extract_lets x left s1 mode member s2
  have hleft : LapsStay s s1 := lapsStay_trans (lapsStay_modFn ..) (lapsStay_setF ..)
  refine lapsStay_ite _ (lapsStay_refl s) (lapsStay_ite _ ?_ hleft)
  exact lapsStay_trans (lapsStay_trans hleft (lapsStay_trans (lapsStay_trans (lapsStay_setF ..) (lapsStay_setF ..)) (lapsStay_setF ..)))
    (lapsStay_records (records_postEvent ..))

theorem lapsStay_rebuildRow (s : State) (n area gen j : Nat) (imgs : RowImages) (bad : List Nat) (demand : Bool) :
    LapsStay s (rebuildRow s n area gen j imgs bad demand).state := by
  unfold rebuildRow
  extract_lets own r s1
  have hdecoded : LapsStay s r.state := lapsStay_decodeRow ..
  exact lapsStay_trans (lapsStay_trans hdecoded (lapsStay_ite _ (lapsStay_refl _) (lapsStay_setF ..))) (lapsStay_rebuiltRow ..)

theorem lapsStay_verifyRow (s : State) (n area gen j : Nat) (imgs : RowImages) : LapsStay s (verifyRow s n area gen j imgs).state := by
  unfold Machine.verifyRow
  split
  · exact lapsStay_decodeRow ..
  · extract_lets x
    split
    · exact lapsStay_refl s
    · extract_lets bad s1
      have hholes : LapsStay s s1 := lapsStay_foldl (fun _ _ => lapsStay_putHeld ..) _ s
      exact lapsStay_trans hholes (lapsStay_setF ..)

theorem lapsStay_verifyAt (s : State) (n area gen j : Nat) (imgs : RowImages) : LapsStay s (verifyAt s n area gen j imgs).state := by
  unfold verifyAt
  split
  · exact lapsStay_verifyRow ..
  · exact lapsStay_rebuildRow ..

theorem exec_parityLapRow (s : State) (n : Fin 64) (imgs : RowImages) : exec (.parityLapRow n imgs) s = onDie s (fun s => parityRow s n imgs) := rfl

/-- The parity lap takes the function's rows. -/
def parityTakes (s : State) (n : Nat) : Prop :=
  getF s pgDrone DRONE_CTRL_PARITY ≠ 0 ∧ stateOf s n = 2 ∧ n ≠ 0 ∧ (fnSt s n).role = 1 ∧ parityPaused s n = false

theorem parityTakes_iff {n : Nat} (hn : n < 64) : parityTakes s n ↔
    ¬(getF s pgDrone DRONE_CTRL_PARITY = 0 ∨ (lapFns s).contains n = false ∨ parityPaused s n = true) := by
  have hfns : (lapFns s).contains n = true ↔ n ≠ 0 ∧ stateOf s n = 2 ∧ (fnSt s n).role = 1 := by
    simp [lapFns, hn, and_assoc]
  rw [not_or, not_or, Bool.not_eq_false, hfns, Bool.not_eq_true]
  unfold parityTakes
  tauto

theorem parityRow_idle {n : Nat} (hn : n < 64) (imgs : RowImages) (h : ¬parityTakes s n) : parityRow s n imgs = s := by
  rw [parityTakes_iff hn, not_not] at h
  unfold parityRow
  extract_lets x
  split
  · exact if_pos h
  · rfl

/-- A row of the lap is done. -/
def parityStepped (s : State) (n j : Nat) : State := modInteg s (fun q => { q with rowNext := tabSet 0 q.rowNext n (j + 1) })

/-- The parity lap is late. -/
def parityLate (s : State) : State :=
  let lim := getF s pgDrone DRONE_PARITY_PARITY_LIMIT
  let t := s.ticks - s.integ.rowsAt
  if lim ≠ 0 ∧ s.integ.rowsLate = false ∧ lim * 2880000000000 < t then
    postEvent (flagF (modInteg s (fun q => { q with rowsLate := true })) pgDrone DRONE_STATUS_PARITY_LAP_LATE) 0 0x0077
      ([1] ++ leBytes 4 (t / 48000000000))
  else s

/-- Rows of a function, and those that its lap has passed. -/
def parityRows (s : State) (k : Nat) : Nat := match (fnSt s k).manifest with | some m => m.stripeRows | none => 0
def parityDone (s : State) (k : Nat) : Nat := min (tabGet 0 s.integ.rowNext k) (parityRows s k)

/-- Some function has rows left. -/
def parityLeft (s : State) : Bool :=
  (lapFns s).any (fun k => match (fnSt s k).manifest, grpOf (fnSt s k) with
    | some m, some g => (List.range g.n).any (fun i => lapRow (fnSt s k) m g (tabGet 0 s.integ.rowNext k + i))
    | _, _ => false)

/-- The lap's progress, or its end after `t` ticks. -/
def parityShown (s : State) (t : Nat) : State :=
  if parityLeft s then
    setF s pgDrone DRONE_STATUS_PARITY_PROGRESS (((lapFns s).map (parityDone s)).sum * 1000 / max 1 ((lapFns s).map (parityRows s)).sum)
  else
    let s := setF s pgDrone DRONE_LAPS_PARITY_LAP (min (t / 48000000000) 0xFFFF)
    setF (modInteg s (fun q => { q with rowNext := [], rowsAt := s.ticks, rowsLate := false })) pgDrone DRONE_STATUS_PARITY_PROGRESS 0

theorem parityRow_takes {n i : Nat} {imgs : RowImages} {m : Manifest} {g : GroupEntry} (hn : n < 64) (h : parityTakes s n)
    (hm : (fnSt s n).manifest = some m) (hg : grpOf (fnSt s n) = some g)
    (hi : (List.range g.n).find? (fun i => lapRow (fnSt s n) m g (tabGet 0 s.integ.rowNext n + i)) = some i)
    (hwaits : verifyWaits s n 0 0 (tabGet 0 s.integ.rowNext n + i) = false) : parityRow s n imgs =
      (let r := parityStepped (verifyAt s n 0 0 (tabGet 0 s.integ.rowNext n + i) imgs).state n (tabGet 0 s.integ.rowNext n + i)
       parityShown (parityLate r) (r.ticks - r.integ.rowsAt)) := by
  unfold parityRow
  simp only [hm, hg]
  rw [if_neg ((parityTakes_iff hn).mp h)]
  simp only [hi, hwaits, Bool.false_eq_true, if_false]
  rfl

/-- What the lateness of the parity lap leaves alone. -/
structure RowsKept (s t : State) : Prop where
  rowNext : t.integ.rowNext = s.integ.rowNext
  ticks : t.ticks = s.ticks
  deep : t.deep = s.deep

theorem rowsKept_parityLate (s : State) : RowsKept s (parityLate s) := by
  unfold parityLate
  extract_lets lim t
  split
  · have hlate : RowsKept s (flagF (modInteg s (fun q => { q with rowsLate := true })) pgDrone DRONE_STATUS_PARITY_LAP_LATE) := by
      constructor
      · rw [flagF, setF_integ, modInteg]
      · rw [flagF, setF_ticks, modInteg]
      · rw [flagF, setF_deep, modInteg]
    have hrec := records_postEvent (flagF (modInteg s (fun q => { q with rowsLate := true })) pgDrone DRONE_STATUS_PARITY_LAP_LATE) 0 0x0077
      ([1] ++ leBytes 4 (t / 48000000000))
    have hstay := lapsStay_records hrec
    exact ⟨by rw [hstay.integ, hlate.rowNext], hstay.ticks.trans hlate.ticks, (deep_of_records hrec).trans hlate.deep⟩
  · exact ⟨rfl, rfl, rfl⟩

theorem parityShown_facts (s : State) (t : Nat) : (parityShown s t).deep = s.deep ∧
    ((parityShown s t).integ.rowNext = s.integ.rowNext ∨ ((parityShown s t).integ.rowNext = [] ∧ (parityShown s t).integ.rowsAt = s.ticks)) := by
  unfold parityShown
  split
  · exact ⟨setF_deep .., .inl (by rw [setF_integ])⟩
  · refine ⟨?_, .inr ⟨?_, ?_⟩⟩
    · rw [setF_deep, modInteg, setF_deep]
    · rw [setF_integ, modInteg]
    · rw [setF_integ, modInteg, setF_ticks]

theorem parityLap (hup : alive s = true) (hq : Quiet s) (n : Fin 64) (imgs : RowImages) :
    (getF s pgDrone DRONE_CTRL_PARITY = 0 ∨ stateOf s n ≠ 2 ∨ n = 0 ∨ (fnSt s n).role ≠ 1 ∨ parityPaused s n = true →
      Ignores (.parityLapRow n imgs) s) ∧
    (∀ m g i, getF s pgDrone DRONE_CTRL_PARITY ≠ 0 → stateOf s n = 2 → n ≠ 0 → (fnSt s n).role = 1 → parityPaused s n = false →
      (fnSt s n).manifest = some m → grpOf (fnSt s n) = some g →
      (List.range g.n).find? (fun i => lapRow (fnSt s n) m g (tabGet 0 s.integ.rowNext n + i)) = some i →
      let j := tabGet 0 s.integ.rowNext n + i
      verifyWaits s n 0 0 j = false → Does (.parityLapRow n imgs) s (fun u => u.deep = (verifyAt s n 0 0 j imgs).state.deep ∧
        (u.integ.rowNext = tabSet 0 s.integ.rowNext n (j + 1) ∨ (u.integ.rowNext = [] ∧ u.integ.rowsAt = s.ticks)))) := by
  refine ⟨fun hno => ignores_onDie (exec_parityLapRow s n imgs) hup hq (parityRow_idle n.isLt imgs ?_),
    fun m g i hon hstate hn hrole hgoes hm hg hi => ?_⟩
  · have hzero : n.val = 0 ↔ n = 0 := Fin.val_eq_zero_iff
    unfold parityTakes
    rw [ne_eq, ne_eq, hzero, ← Bool.not_eq_true]
    tauto
  · intro j hwaits
    have htakes : parityTakes s n := ⟨hon, hstate, fun h0 => hn (Fin.val_eq_zero_iff.mp h0), hrole, hgoes⟩
    have hstay := lapsStay_verifyAt s n 0 0 j imgs
    have hkept := rowsKept_parityLate (parityStepped (verifyAt s n 0 0 j imgs).state n j)
    refine does_onDie (exec_parityLapRow s n imgs) hup (parityRow_takes n.isLt htakes hm hg hi hwaits) ?_
    obtain ⟨hdeep, hrows⟩ := parityShown_facts (parityLate (parityStepped (verifyAt s n 0 0 j imgs).state n j))
      ((parityStepped (verifyAt s n 0 0 j imgs).state n j).ticks - (parityStepped (verifyAt s n 0 0 j imgs).state n j).integ.rowsAt)
    refine ⟨hdeep.trans (hkept.deep.trans ?_), hrows.imp (fun h => h.trans (hkept.rowNext.trans ?_))
      (fun ⟨hend, hat⟩ => ⟨hend, hat.trans (hkept.ticks.trans ?_)⟩)⟩
    · rw [parityStepped, modInteg]
    · rw [parityStepped, modInteg, hstay.integ]
    · rw [parityStepped, modInteg, hstay.ticks]

end

/-! ### DEEP_WRITE_COMPLETE (R77)

What follows a slot's write leaves the slot, and the writes that still wait. -/

section
variable {s t u : State} {n : Nat}

theorem exec_deepWriteComplete (s : State) (sl : Fin 16) : exec (.deepWriteComplete sl) s = onDie s (fun s => deepWriteComplete s sl) := rfl

/-- The slots of a function lie where they lay, and the deep tier and its waiting writes stay. -/
structure SlotsStay (n : Nat) (s t : State) : Prop where
  deep : t.deep = s.deep
  deepWrites : t.deepWrites = s.deepWrites
  self : (fnSt t n).self = (fnSt s n).self
  manifest : (fnSt t n).manifest = (fnSt s n).manifest

theorem slotsStay_refl (n : Nat) (s : State) : SlotsStay n s s := ⟨rfl, rfl, rfl, rfl⟩

theorem slotsStay_trans (h : SlotsStay n s t) (h' : SlotsStay n t u) : SlotsStay n s u :=
  ⟨h'.deep.trans h.deep, h'.deepWrites.trans h.deepWrites, h'.self.trans h.self, h'.manifest.trans h.manifest⟩

theorem slotsStay_ite (c : Prop) [Decidable c] (ht : SlotsStay n s t) (hu : SlotsStay n s u) : SlotsStay n s (if c then t else u) := by
  split
  · exact ht
  · exact hu

theorem deepWrites_of_records (h : Records s t) : t.deepWrites = s.deepWrites := (congrArg State.deepWrites h.rest :)

theorem slotsStay_records (h : Records s t) : SlotsStay n s t :=
  ⟨deep_of_records h, deepWrites_of_records h, self_of_records h n, manifest_of_records h n⟩

theorem slotsStay_of_fns (hdeep : t.deep = s.deep) (hwrites : t.deepWrites = s.deepWrites) (hfns : t.fns = s.fns) : SlotsStay n s t :=
  ⟨hdeep, hwrites, by rw [fnSt, hfns, fnSt], by rw [fnSt, hfns, fnSt]⟩

theorem slotsStay_modFn (s : State) (n : Nat) {f : FnSt → FnSt} (hself : ∀ x, (f x).self = x.self) (hm : ∀ x, (f x).manifest = x.manifest) :
    SlotsStay n s (modFn s n f) :=
  ⟨rfl, rfl, by rw [fnSt_modFn_same, hself], by rw [fnSt_modFn_same, hm]⟩

theorem slotsStay_putWork (s : State) (n : Nat) (w : RowWork) : SlotsStay n s (putWork s n w) := slotsStay_modFn s n (fun _ => rfl) (fun _ => rfl)

theorem slotsStay_rebuiltRow (s : State) (n area gen j : Nat) : SlotsStay n s (rebuiltRow s n area gen j) := by
  unfold rebuiltRow
  extract_lets x left s1 mode member s2
  have hmap := slotsStay_modFn s n (f := fun x => { x with unrebuilt := left }) (fun _ => rfl) (fun _ => rfl)
  have hleft : SlotsStay n s s1 := slotsStay_trans hmap (slotsStay_records (records_setF_fn ..))
  refine slotsStay_ite _ (slotsStay_refl n s) (slotsStay_ite _ ?_ hleft)
  have hended : Records s1 s2 := records_trans (records_trans (records_setF_fn ..) (records_setF_fn ..)) (records_setF_fn ..)
  exact slotsStay_trans hleft (slotsStay_records (records_trans hended (records_postEvent ..)))

theorem slotsStay_gradRelease (s : State) (n : Nat) (w : RowWork) : SlotsStay n s (gradRelease s n w) := by
  rw [gradRelease_cores]
  exact slotsStay_of_fns rfl rfl rfl

theorem slotsStay_gwriteDone (s : State) (n m j gen : Nat) : SlotsStay n s (gwriteDone s n m j gen) := by
  unfold gwriteDone
  split
  · exact slotsStay_refl n s
  · exact slotsStay_trans (slotsStay_trans (slotsStay_rebuiltRow ..) (slotsStay_putWork ..)) (slotsStay_gradRelease ..)

/-- A gradient row's record says that it is written. -/
theorem workAt_gwriteDone {m j : Nat} {v : RowWork} (h : workAt (fnSt s n) m 1 j = some v) (gen : Nat) :
    workAt (fnSt (gwriteDone s n m j gen) n) m 1 j = some { v with written := true } := by
  obtain ⟨hmember, harea, hrow⟩ := workAt_key h
  unfold gwriteDone
  rw [h]
  dsimp only
  rw [fnSt_gradRelease]
  exact workAt_putWork _ n hmember harea hrow

theorem slotsStay_digRecord (s : State) (n : Nat) (build : Nat → List Byte) : SlotsStay n s (digRecord s n build) := by
  unfold digRecord
  extract_lets x r s1
  have hnumbered : SlotsStay n s s1 := slotsStay_modFn s n (f := fun x => { x with digSeq := (x.digSeq + 1) % 2 ^ 32 }) (fun _ => rfl) (fun _ => rfl)
  have hlost : SlotsStay n s1 (addF s1 (pgFn n) FN_DIG_CTRL_LOST 1) := slotsStay_records (records_setF_fn ..)
  have hput : SlotsStay n s1 (digPut s1 n r) := slotsStay_records (records_trans (records_hostWrite ..) (records_setF_fn ..))
  have hkept := slotsStay_modFn s1 n (f := fun y => { y with digKept := y.digKept ++ [r] }) (fun _ => rfl) (fun _ => rfl)
  exact slotsStay_trans hnumbered (slotsStay_ite _ (slotsStay_ite _ hkept hlost) (slotsStay_ite _ hput hlost))

theorem deepWrites_ledgerFree (s : State) (i : Nat) : (ledgerFree s i).deepWrites = s.deepWrites := by
  unfold ledgerFree
  dsimp only
  split
  · simp only [ledgerUse, maxF, setF_deepWrites]
  · rfl

theorem slotsStay_ledgerFree (s : State) (n i : Nat) : SlotsStay n s (ledgerFree s i) :=
  slotsStay_of_fns (frees_ledgerFree s i).deep (deepWrites_ledgerFree s i) (frees_ledgerFree s i).fns

theorem slotsStay_dropWait (s : State) (n : Nat) (w : Wait) : SlotsStay n s (dropWait s w) := ⟨rfl, rfl, rfl, rfl⟩

theorem slotsStay_lwriteDone (s : State) (n m j : Nat) : SlotsStay n s (lwriteDone s n m j) := by
  unfold lwriteDone
  extract_lets x
  split
  · exact slotsStay_refl n s
  · next w _ =>
    extract_lets s1 s2 s3
    have hfreed : SlotsStay n s s1 := slotsStay_ledgerFree ..
    have hdropped : SlotsStay n s1 s2 := by
      simp only [s2]
      split
      · exact slotsStay_dropWait ..
      · exact slotsStay_refl n s1
    have hrecorded : SlotsStay n s2 s3 := slotsStay_ite _ (slotsStay_digRecord ..) (slotsStay_refl n s2)
    exact slotsStay_trans (slotsStay_trans hfreed hdropped) (slotsStay_trans hrecorded (slotsStay_putWork ..))

/-- A leaf's record says that it is written. -/
theorem workAt_lwriteDone {m j : Nat} {v : RowWork} (h : workAt (fnSt s n) m 0 j = some v) :
    workAt (fnSt (lwriteDone s n m j) n) m 0 j = some { v with written := true } := by
  obtain ⟨hmember, harea, hrow⟩ := workAt_key h
  unfold lwriteDone
  dsimp only
  rw [h]
  exact workAt_putWork _ n hmember harea hrow

theorem heldSlot_of_slotsStay (h : SlotsStay n s t) (m area gen j : Nat) : heldSlot t n m area gen j = heldSlot s n m area gen j :=
  heldSlot_of_fn h.self h.manifest h.deep

/-! #### The write itself -/

theorem slotAddr_of_self {m area gen j : Nat} {mf : Manifest} (h : (fnSt t n).self = (fnSt s n).self) :
    slotAddr t n m mf area gen j = slotAddr s n m mf area gen j := by
  rw [slotAddr, h, slotAddr]

/-- A slot of any member that this die holds is written where it lies. -/
theorem heldWrite_there {m area gen j : Nat} {mf : Manifest} (slot : List Byte) (hm : (fnSt s n).manifest = some mf) : ∃ t, Records s t ∧
    Records (deepWritten t (slotAddr s n m mf area gen j) slot) (heldWrite s n m area gen j slot) := by
  have hpush := records_pushBefore s n m area gen j
  have hself : (fnSt (pushBefore s n m area gen j) n).self = (fnSt s n).self := self_of_records hpush n
  have hm' : (fnSt (pushBefore s n m area gen j) n).manifest = some mf := (manifest_of_records hpush n).trans hm
  refine ⟨pushBefore s n m area gen j, hpush, ?_⟩
  have hwrite : (if (fnSt (pushBefore s n m area gen j) n).self = m then slotWrite (pushBefore s n m area gen j) n area gen j slot
      else { pushBefore s n m area gen j with deep := memWriteN (pushBefore s n m area gen j).deep (frameAddr n m area gen j) slot }) =
      deepWritten (pushBefore s n m area gen j) (slotAddr s n m mf area gen j) slot := by
    unfold slotWrite slotAddr
    rw [hm', hself]
    split <;> rfl
  unfold heldWrite
  dsimp only
  rw [hwrite]
  exact records_trans (records_mirrorNote ..) (records_ite _ (records_foldStep ..) (records_refl _))

theorem heldWrite_reads {m area gen j : Nat} {slot : List Byte} (hm : (fnSt s n).manifest ≠ none) (hlen : slot.length = 65536) :
    heldSlot (heldWrite s n m area gen j slot) n m area gen j = slot := by
  obtain ⟨mf, hm⟩ := Option.ne_none_iff_exists'.mp hm
  obtain ⟨t, hbefore, hafter⟩ := heldWrite_there (m := m) (area := area) (gen := gen) (j := j) slot hm
  have hm' : (fnSt (deepWritten t (slotAddr s n m mf area gen j) slot) n).manifest = some mf := (manifest_of_records hbefore n).trans hm
  have haddr : slotAddr (deepWritten t (slotAddr s n m mf area gen j) slot) n m mf area gen j = slotAddr s n m mf area gen j :=
    slotAddr_of_self (self_of_records hbefore n)
  rw [heldSlot_of_records hafter, heldSlot_at hm', haddr, deepWritten, ← hlen, memReadN_writeN]

theorem deepWrites_deepWritten (s : State) (a : Nat) (bs : List Byte) : (deepWritten s a bs).deepWrites = s.deepWrites := rfl

/-- A slot's write leaves the waiting writes and what the functions have to work. -/
theorem heldWrite_rest {m area gen j : Nat} (slot : List Byte) (hm : (fnSt s n).manifest ≠ none) :
    (heldWrite s n m area gen j slot).deepWrites = s.deepWrites ∧
      ∀ member a row, workAt (fnSt (heldWrite s n m area gen j slot) n) member a row = workAt (fnSt s n) member a row := by
  obtain ⟨mf, hm⟩ := Option.ne_none_iff_exists'.mp hm
  obtain ⟨t, hbefore, hafter⟩ := heldWrite_there (m := m) (area := area) (gen := gen) (j := j) slot hm
  refine ⟨?_, fun member a row => ?_⟩
  · rw [deepWrites_of_records hafter, deepWrites_deepWritten, deepWrites_of_records hbefore]
  · exact (workAt_of_records hafter n member a row).trans (workAt_of_records hbefore n member a row)

/-- A delayed write is taken from the list. -/
def undelayed (s : State) (d : DeepWrite) : State := { s with deepWrites := s.deepWrites.erase d }

theorem fnSt_undelayed (s : State) (d : DeepWrite) (n : Nat) : fnSt (undelayed s d) n = fnSt s n := rfl

/-- A delayed write is repeated. -/
def rewritten (s : State) (d : DeepWrite) : State :=
  slip (heldWrite (undelayed s d) d.fn d.member d.area d.gen d.row d.bytes) d.fn 0x0F d.slice 0xFF (if d.area = 0 then 1 else 0) d.row

theorem rewritten_facts {d : DeepWrite} (hm : (fnSt s d.fn).manifest ≠ none) (hlen : d.bytes.length = 65536) :
    (rewritten s d).deepWrites = s.deepWrites.erase d ∧ heldSlot (rewritten s d) d.fn d.member d.area d.gen d.row = d.bytes ∧
      ∀ member a row, workAt (fnSt (rewritten s d) d.fn) member a row = workAt (fnSt s d.fn) member a row := by
  have hm' : (fnSt (undelayed s d) d.fn).manifest ≠ none := by rwa [fnSt_undelayed]
  have hslip : Records (heldWrite (undelayed s d) d.fn d.member d.area d.gen d.row d.bytes) (rewritten s d) := records_slip ..
  obtain ⟨hwrites, hwork⟩ := heldWrite_rest (m := d.member) (area := d.area) (gen := d.gen) (j := d.row) d.bytes hm'
  refine ⟨?_, ?_, fun member a row => ?_⟩
  · rw [deepWrites_of_records hslip, hwrites, undelayed]
  · rw [heldSlot_of_records hslip, heldWrite_reads hm' hlen]
  · rw [workAt_of_records hslip, hwork, fnSt_undelayed]

theorem deepDone_data {d : DeepWrite} (h : d.isHole = false) : deepDone s d =
    if d.area = 1 then gwriteDone (rewritten s d) d.fn d.member d.row d.gen else lwriteDone (rewritten s d) d.fn d.member d.row := by
  simp only [deepDone, h, Bool.false_eq_true, if_false, rewritten, undelayed]

theorem deepDone_facts {d : DeepWrite} (hdata : d.isHole = false) (hm : (fnSt s d.fn).manifest ≠ none) (hlen : d.bytes.length = 65536) :
    (deepDone s d).deepWrites = s.deepWrites.erase d ∧ heldSlot (deepDone s d) d.fn d.member d.area d.gen d.row = d.bytes ∧
      ∀ v, workAt (fnSt s d.fn) d.member d.area d.row = some v → d.area ≤ 1 →
        workAt (fnSt (deepDone s d) d.fn) d.member d.area d.row = some { v with written := true } := by
  obtain ⟨hwrites, hslot, hwork⟩ := rewritten_facts hm hlen
  have hstay : SlotsStay d.fn (rewritten s d) (deepDone s d) := by
    rw [deepDone_data hdata]
    exact slotsStay_ite _ (slotsStay_gwriteDone ..) (slotsStay_lwriteDone ..)
  refine ⟨hstay.deepWrites.trans hwrites, (heldSlot_of_slotsStay hstay ..).trans hslot, fun v hv harea => ?_⟩
  rw [deepDone_data hdata]
  split
  · next h1 =>
    rw [h1] at hv ⊢
    exact workAt_gwriteDone ((hwork ..).trans hv) _
  · next h1 =>
    have h0 : d.area = 0 := by omega
    rw [h0] at hv ⊢
    exact workAt_lwriteDone ((hwork ..).trans hv)

theorem deepWriteComplete_idle {sl : Nat} (h : sliceHalted s sl = true ∨ ∀ d ∈ s.deepWrites, d.slice ≠ sl) : deepWriteComplete s sl = s := by
  unfold deepWriteComplete
  split
  · rfl
  · next hruns =>
    have hnone : s.deepWrites.find? (fun d => decide (d.slice = sl)) = none := by
      rw [List.find?_eq_none]
      exact fun d hd => by simpa using h.resolve_left hruns d hd
    rw [hnone]

theorem writesAgain (hup : alive s = true) (hq : Quiet s) (sl : Fin 16) :
    (sliceHalted s sl = true ∨ (∀ d ∈ s.deepWrites, d.slice ≠ sl.val) → Ignores (.deepWriteComplete sl) s) ∧
    (∀ d, sliceHalted s sl = false → s.deepWrites.find? (fun d => decide (d.slice = sl.val)) = some d → d.isHole = false → d.bytes.length = 65536 →
      (fnSt s d.fn).manifest ≠ none → Does (.deepWriteComplete sl) s (fun u => u.deepWrites = s.deepWrites.erase d ∧
        heldSlot u d.fn d.member d.area d.gen d.row = d.bytes ∧
        ∀ v, workAt (fnSt s d.fn) d.member d.area d.row = some v → d.area ≤ 1 →
          workAt (fnSt u d.fn) d.member d.area d.row = some { v with written := true })) := by
  refine ⟨fun hno => ignores_onDie (exec_deepWriteComplete s sl) hup hq (deepWriteComplete_idle hno), fun d hruns hd hdata hlen hm => ?_⟩
  have hdone : deepWriteComplete s sl = deepDone s d := by
    simp only [deepWriteComplete, hruns, hd, Bool.false_eq_true, if_false]
  exact does_onDie (exec_deepWriteComplete s sl) hup hdone (deepDone_facts hdata hm hlen)

end

/-! ### Failed channels and withdrawal (R331, R332, R348) -/

section
variable {s t u : State}

/-! #### The aborts of a withdrawal leave the channels' bits -/

/-- The channels' bits stay in every slice. -/
structure LinesStay (s t : State) : Prop where
  words : ∀ sl, sl < 16 → wordAt t (pgSlice sl + 0x05C) = wordAt s (pgSlice sl + 0x05C)

theorem linesStay_refl (s : State) : LinesStay s s := ⟨fun _ _ => rfl⟩

theorem linesStay_trans (h : LinesStay s t) (h' : LinesStay t u) : LinesStay s u := ⟨fun sl hsl => (h'.words sl hsl).trans (h.words sl hsl)⟩

theorem linesStay_ite (c : Prop) [Decidable c] (ht : LinesStay s t) (hu : LinesStay s u) : LinesStay s (if c then t else u) := by
  split
  · exact ht
  · exact hu

theorem linesStay_foldl {α : Type} {f : State → α → State} (hf : ∀ s x, LinesStay s (f s x)) (l : List α) : ∀ s, LinesStay s (l.foldl f s) := by
  induction l with
  | nil => exact linesStay_refl
  | cons x l ih => exact fun s => linesStay_trans (hf s x) (ih (f s x))

theorem linesStay_reports (h : Reports s t) : LinesStay s t := ⟨fun _ hsl => h.words _ (not_reportWord_slice hsl (by decide) (by decide))⟩

theorem linesStay_records (h : Records s t) : LinesStay s t := by
  refine ⟨fun sl hsl => h.words _ (not_or.mpr ⟨not_reportWord_slice hsl (by decide) (by decide), ?_⟩)⟩
  simp only [pgSlice, pgFloor, FLOOR_STATUS_PUSH_FULL]
  omega

theorem linesStay_setF_fn (s : State) (n : Nat) (f : Fld) (v : Nat) : LinesStay s (setF s (pgFn n) f v) := linesStay_reports (reports_setF_fn ..)

theorem linesStay_of_regs (hregs : t.regs = s.regs) (hvariant : t.variant = s.variant) : LinesStay s t :=
  ⟨fun _ _ => by rw [wordAt, wordAt, hregs, hvariant]⟩

theorem linesStay_dropCores (s : State) (n : Nat) : LinesStay s (dropCores s n) := linesStay_of_regs rfl rfl

theorem linesStay_modFn (s : State) (n : Nat) (f : FnSt → FnSt) : LinesStay s (modFn s n f) := ⟨fun _ _ => rfl⟩

theorem linesStay_todo (s : State) (d : Todo) : LinesStay s (todo s d) := ⟨fun _ _ => rfl⟩

theorem linesStay_sendFife (s : State) (n e : Nat) (form payload : List Byte) : LinesStay s (sendFife s n e form payload) := ⟨fun _ _ => rfl⟩

theorem linesStay_lineQueue (s : State) (kind slot seq : Nat) (frames : List Nat) : LinesStay s (lineQueue s kind slot seq frames) := ⟨fun _ _ => rfl⟩

theorem linesStay_lineDrop (s : State) (slot seq : Nat) : LinesStay s (lineDrop s slot seq) := ⟨fun _ _ => rfl⟩

theorem linesStay_setColl (s : State) (n off : Nat) (c : Coll) : LinesStay s (setColl s n off c) :=
  linesStay_trans (linesStay_modFn ..) (linesStay_setF_fn ..)

theorem linesStay_collCancel (s : State) (n off status : Nat) : LinesStay s (collCancel s n off status) :=
  linesStay_ite _ (linesStay_trans (linesStay_foldl (fun _ _ => linesStay_sendFife ..) _ s)
    (linesStay_trans (linesStay_lineDrop ..) (linesStay_setColl ..))) (linesStay_refl s)

theorem linesStay_cancelAll (s : State) (n : Nat) : LinesStay s (cancelAll s n) := by
  unfold cancelAll
  extract_lets soft s1 s2
  have hcancelled : LinesStay s s1 := linesStay_foldl (fun _ _ => linesStay_collCancel ..) _ s
  have hsoft : LinesStay s1 s2 := linesStay_ite _ (linesStay_reports (reports_bgComplete ..)) (linesStay_refl s1)
  have hpermute : LinesStay s2 (todo (bgComplete (modFn s2 n (fun x => { x with permuteSet := [] })) n 0x15 0x07 0) (.startCheck n)) :=
    linesStay_trans (linesStay_modFn ..) (linesStay_trans (linesStay_reports (reports_bgComplete ..)) (linesStay_todo ..))
  exact linesStay_trans (linesStay_trans hcancelled hsoft) (linesStay_ite _ (linesStay_refl s2) hpermute)

theorem linesStay_bugleSend (s : State) (n cause serial : Nat) (fromDie : Option Nat) (fromLine : Bool) :
    LinesStay s (bugleSend s n cause serial fromDie fromLine) := by
  unfold bugleSend
  extract_lets x onLine frame phase s1 nodes
  have hline : LinesStay s s1 := linesStay_ite _ (linesStay_refl s) (linesStay_foldl (fun _ _ => linesStay_lineQueue ..) _ s)
  split
  · exact hline
  · exact linesStay_trans hline (linesStay_foldl (fun _ _ => linesStay_sendFife ..) _ _)

theorem linesStay_migrationDrop (s : State) (n : Nat) : LinesStay s (migrationDrop s n) := by
  unfold migrationDrop
  split
  · exact linesStay_ite _ (linesStay_refl s) (linesStay_trans (linesStay_trans (linesStay_modFn ..) (linesStay_setF_fn ..))
      (linesStay_reports (reports_bgComplete ..)))
  · exact linesStay_refl s

theorem linesStay_dropHold (s : State) (n : Nat) : LinesStay s (dropHold s n) :=
  linesStay_trans (linesStay_modFn ..) (linesStay_trans (linesStay_setF_fn ..) (linesStay_setF_fn ..))

theorem linesStay_schedStop (s : State) (n : Nat) : LinesStay s (schedStop s n) :=
  linesStay_trans (linesStay_modFn ..) (linesStay_trans (linesStay_setF_fn ..) (linesStay_setF_fn ..))

/-- The pass abort of a die that aborts alone. -/
theorem linesStay_passAbort (s : State) (n : Nat) (group stops : Bool) : LinesStay s (passAbort s n group true stops) := by
  unfold passAbort
  extract_lets s1 s2 s3 s4 s5 s6 twin s7
  have hdropped : LinesStay s s1 := linesStay_migrationDrop ..
  have hshown : LinesStay s1 s3 := linesStay_trans (linesStay_trans (linesStay_trans (linesStay_setF_fn ..) (linesStay_setF_fn ..))
    (linesStay_setF_fn ..)) (linesStay_setF_fn ..)
  have hstopped : LinesStay s3 s5 := linesStay_trans (linesStay_modFn ..)
    (linesStay_trans (linesStay_dropCores ..) (linesStay_trans (linesStay_dropHold ..) (linesStay_schedStop ..)))
  have halone : LinesStay s5 s6 := by
    simp only [s6, if_true]
    exact linesStay_refl s5
  clear_value s6
  have hwaits : LinesStay s6 s7 := linesStay_of_regs rfl rfl
  exact linesStay_trans (linesStay_trans hdropped hshown) (linesStay_trans (linesStay_trans hstopped halone) (linesStay_trans hwaits (linesStay_trans (linesStay_modFn ..) (linesStay_todo ..))))

theorem linesStay_bugleAct (s : State) (n cause : Nat) : LinesStay s (bugleAct s n cause true) := by
  unfold bugleAct
  extract_lets serial s1 s2 s3 s4
  have hshown : LinesStay s s2 := linesStay_trans (linesStay_setF_fn ..) (linesStay_trans (linesStay_setF_fn ..) (linesStay_setF_fn ..))
  have hcancelled : LinesStay s2 s3 := linesStay_cancelAll ..
  have hcause : LinesStay s3 s4 := linesStay_ite _ (linesStay_setF_fn ..) (linesStay_ite _ (linesStay_setF_fn ..) (linesStay_refl s3))
  rw [Bool.or_true, if_pos rfl, Bool.or_true]
  exact linesStay_trans (linesStay_trans (linesStay_trans hshown hcancelled) hcause)
    (linesStay_trans (linesStay_trans (linesStay_setF_fn ..) (linesStay_modFn ..)) (linesStay_passAbort ..))

theorem linesStay_bugleSound (s : State) (n cause : Nat) : LinesStay s (bugleSound s n cause true) :=
  linesStay_ite _ (linesStay_refl s) (linesStay_trans (linesStay_bugleSend ..) (linesStay_bugleAct ..))

/-! #### Withdrawal -/

theorem exec_sequencerLockstep (s : State) : exec .sequencerLockstep s = onDie s (fun s => withdrawDie s 2 0) := rfl

theorem exec_channelTrainingFailure (s : State) (ch : Fin 64) : exec (.channelTrainingFailure ch) s = onDie s (fun s => channelFail s ch) := rfl

theorem withdrawDie_again {cause ch : Nat} (h : getF s pgGlobal GLOBAL_WITHDRAW_WITHDRAWN = 1) : withdrawDie s cause ch = s := if_pos h

/-- The die's running functions abort alone. -/
def abortsAlone (s : State) : State :=
  ((List.range 64).filter (fun n => decide (n ≠ 0) && decide (stateOf s n = 2))).foldl (fun s n =>
    bugleSound (setFnF s n FN_STATE_ABORT_CAUSE 8) n 2 true) s

/-- No function sends deltas any more. -/
def muted (s : State) : State := (List.range 64).foldl (fun s n => modFn s n (fun x => { x with mute := true })) s

/-- The withdrawal as the global page shows it. -/
def withdrawalShown (s : State) (cause ch : Nat) : State :=
  setF (setF (flagF s pgGlobal GLOBAL_WITHDRAW_WITHDRAWN) pgGlobal GLOBAL_WITHDRAW_CAUSE cause) pgGlobal GLOBAL_WITHDRAW_CHANNEL ch

/-- The withdrawal as it is reported. -/
def withdrawalReported (s : State) : State :=
  let w := leBytes 4 (wordAt s 0x04C).toNat
  let s := if getF s pgNvm NVM_FW_STATUS_STAGE = 6 then todo s (.trialFault 2) else s
  logWrite (postEvent s 0 0x0074 w) 7 w

theorem withdrawDie_eq {cause ch : Nat} (h : getF s pgGlobal GLOBAL_WITHDRAW_WITHDRAWN ≠ 1) :
    withdrawDie s cause ch = withdrawalReported (withdrawalShown (muted (abortsAlone s)) cause ch) := if_neg h

theorem records_logWrite (s : State) (code : Nat) (data : List Byte) : Records s (logWrite s code data) := by
  have hword : ∀ a ∈ [pgNvm + NVM_LOG_STATUS_NEXT.off], recordWord a := by unfold recordWord reportWord; decide
  have hwrapped : Records s (if (tabFind s.nvm.log (s.nvm.logSeq % logRecords)).isSome then flagF s pgNvm NVM_LOG_STATUS_WRAPPED else s) :=
    records_ite _ (records_of_touches (touches_setF ..) hword) (records_refl s)
  unfold logWrite
  extract_lets q i marked nvm logged
  have hlogged : Records s logged := records_trans hwrapped ⟨rfl, fun _ _ => rfl, fun _ => rfl⟩
  exact records_trans hlogged (records_of_touches (touches_setF ..) hword)

theorem records_todo (s : State) (d : Todo) : Records s (todo s d) := ⟨rfl, fun _ _ => rfl, fun _ => rfl⟩

theorem records_withdrawalReported (s : State) : Records s (withdrawalReported s) :=
  records_trans (records_ite _ (records_todo ..) (records_refl s)) (records_trans (records_postEvent ..) (records_logWrite ..))

theorem linesStay_abortsAlone (s : State) : LinesStay s (abortsAlone s) :=
  linesStay_foldl (fun _ _ => linesStay_trans (linesStay_setF_fn ..) (linesStay_bugleSound ..)) _ s

theorem linesStay_muted (s : State) : LinesStay s (muted s) := linesStay_foldl (fun _ _ => linesStay_modFn ..) _ s

theorem linesStay_setF_global (s : State) (f : Fld) (v : Nat) (hf : f.off = 0x04C) : LinesStay s (setF s pgGlobal f v) := by
  refine ⟨fun sl _ => wordAt_setWord_other s _ ?_⟩
  simp only [pgSlice, pgGlobal, hf]
  omega

theorem linesStay_withdrawDie (s : State) (cause ch : Nat) : LinesStay s (withdrawDie s cause ch) := by
  by_cases h : getF s pgGlobal GLOBAL_WITHDRAW_WITHDRAWN = 1
  · rw [withdrawDie_again h]
    exact linesStay_refl s
  · rw [withdrawDie_eq h]
    have hshown (t : State) : LinesStay t (withdrawalShown t cause ch) :=
      linesStay_trans (linesStay_trans (linesStay_setF_global _ _ _ rfl) (linesStay_setF_global _ _ _ rfl)) (linesStay_setF_global _ _ _ rfl)
    exact linesStay_trans (linesStay_trans (linesStay_abortsAlone s) (linesStay_muted _))
      (linesStay_trans (hshown _) (linesStay_records (records_withdrawalReported _)))

theorem chanBit_of_linesStay {f : Fld} {ch : Nat} (h : LinesStay s t) (hf : f ∈ lineFields) (hch : ch < 64) : chanBit t f ch = chanBit s f ch :=
  chanBit_of_word hf (h.words _ (by omega))

/-! #### What a withdrawal leaves -/

theorem abortsAlone_idle (h : ∀ k, 0 < k → k < 64 → stateOf s k ≠ 2) : abortsAlone s = s := by
  have hnone : (List.range 64).filter (fun n => decide (n ≠ 0) && decide (stateOf s n = 2)) = [] := by
    rw [List.filter_eq_nil_iff]
    intro k hk
    have hlt := List.mem_range.mp hk
    simp only [Bool.and_eq_true, decide_eq_true_eq, not_and]
    exact fun h0 => h k (by omega) hlt
  rw [abortsAlone, hnone]
  rfl

/-- Functions muted one after the other. -/
theorem mute_foldl (l : List Nat) : ∀ (s : State) (k : Nat),
    (fnSt (l.foldl (fun s n => modFn s n (fun x => { x with mute := true })) s) k).mute = (decide (k ∈ l) || (fnSt s k).mute) := by
  induction l with
  | nil => exact fun s k => by simp
  | cons n l ih =>
    intro s k
    rw [List.foldl_cons, ih]
    by_cases hk : k = n
    · rw [hk, fnSt_modFn_same]
      simp
    · rw [fnSt_modFn_other s _ hk]
      simp [hk]

theorem mute_muted (s : State) {k : Nat} (hk : k < 64) : (fnSt (muted s) k).mute = true := by
  rw [muted, mute_foldl, decide_eq_true (List.mem_range.mpr hk), Bool.true_or]

theorem withdrawn_shown (s : State) {cause ch : Nat} (hcause : cause < 8) (hch : ch < 64) (hmute : ∀ k, k < 64 → (fnSt s k).mute = true) :
    Withdrawn (withdrawalShown s cause ch) cause ch := by
  refine ⟨?_, ?_, ?_, fun k hk => ?_⟩
  · rw [withdrawalShown, getF_setF_disjoint _ _ _ (by rfl) (by decide) (by decide) (by decide),
      getF_setF_disjoint _ _ _ (by rfl) (by decide) (by decide) (by decide), flagF, getF_setF_same _ _ _ _ (by decide) (by decide)]
    rfl
  · rw [withdrawalShown, getF_setF_disjoint _ _ _ (by rfl) (by decide) (by decide) (by decide), getF_setF_same _ _ _ _ (by decide) (by decide)]
    exact Nat.mod_eq_of_lt hcause
  · rw [withdrawalShown, getF_setF_same _ _ _ _ (by decide) (by decide)]
    exact Nat.mod_eq_of_lt hch
  · rw [withdrawalShown, fnSt, setF_fns, setF_fns, flagF, setF_fns, ← fnSt]
    exact hmute k hk

theorem withdrawn_of_records (h : Records s t) {cause ch : Nat} (hs : Withdrawn s cause ch) : Withdrawn t cause ch := by
  obtain ⟨hflag, hcause, hch, hmute⟩ := hs
  have hword : wordAt t (pgGlobal + 0x04C) = wordAt s (pgGlobal + 0x04C) := h.words _ (by unfold recordWord reportWord; decide)
  refine ⟨(getF_of_words hword).trans hflag, (getF_of_words hword).trans hcause, (getF_of_words hword).trans hch, fun k hk => ?_⟩
  exact (congrArg FnSt.mute (h.fn k) :).trans (hmute k hk)

theorem withdrawDie_idle {cause ch : Nat} (hcause : cause < 8) (hch : ch < 64) (h : getF s pgGlobal GLOBAL_WITHDRAW_WITHDRAWN = 0)
    (hidle : ∀ k, 0 < k → k < 64 → stateOf s k ≠ 2) : Withdrawn (withdrawDie s cause ch) cause ch := by
  rw [withdrawDie_eq (by rw [h]; decide), abortsAlone_idle hidle]
  exact withdrawn_of_records (records_withdrawalReported _) (withdrawn_shown _ hcause hch (fun _ hk => mute_muted s hk))

theorem lockstep (hup : alive s = true) (hq : Quiet s) :
    (getF s pgGlobal GLOBAL_WITHDRAW_WITHDRAWN = 1 → Ignores .sequencerLockstep s) ∧
    (getF s pgGlobal GLOBAL_WITHDRAW_WITHDRAWN = 0 → (∀ k, 0 < k → k < 64 → stateOf s k ≠ 2) →
      Does .sequencerLockstep s (fun u => Withdrawn u 2 0)) :=
  ⟨fun hgone => ignores_onDie (exec_sequencerLockstep s) hup hq (withdrawDie_again hgone), fun hhere hidle =>
    does_onDie (exec_sequencerLockstep s) hup rfl (withdrawDie_idle (by decide) (by decide) hhere hidle)⟩

/-! #### A failed channel -/

/-- The marks of a failed channel. -/
def lineFailed (s : State) (ch : Nat) : State := setChan (setChan s SL_LINE_STATUS_FAILED ch true) SL_LINE_STATUS_HALTED ch true

/-- The failure is recorded up to the global page. -/
def failureShown (s : State) (ch : Nat) : State :=
  escalate (escalate (errSlice s HDR_ERR_SUMMARY_LINE (ch / 4)) (pgSlice (ch / 4)) (pgRegion (ch / 16))) (pgRegion (ch / 16)) pgGlobal

theorem channelFail_again {ch : Nat} (h : chanBit s SL_LINE_STATUS_FAILED ch = true) : channelFail s ch = s := if_pos (.inr h)

theorem channelFail_eq {ch : Nat} (hch : ch < 64) (h : chanBit s SL_LINE_STATUS_FAILED ch = false) :
    channelFail s ch = withdrawDie (failureShown (lineFailed s ch) ch) 1 ch := by
  have hcond : ¬(64 ≤ ch ∨ chanBit s SL_LINE_STATUS_FAILED ch = true) := by
    rw [h]
    simp
    omega
  exact if_neg hcond

theorem reports_failureShown (s : State) (ch : Nat) : Reports s (failureShown s ch) :=
  reports_trans (reports_errSlice _ _ rfl) (reports_trans (reports_escalate _ (pgSlice_mod _) (pgRegion_mod _)) (reports_escalate _ (pgRegion_mod _) rfl))

theorem lineFailed_bits (s : State) (ch : Nat) : chanBit (lineFailed s ch) SL_LINE_STATUS_FAILED ch = true ∧
    chanBit (lineFailed s ch) SL_LINE_STATUS_HALTED ch = true :=
  ⟨(chanBit_setChan_other (by decide) (by decide) (by decide) true).trans (chanBit_setChan (by decide) true), chanBit_setChan (by decide) true⟩

/-- A failure is recorded in the slice's, the region's and the global page. -/
theorem touches_failureShown (s : State) {ch : Nat} (hch : ch < 64) : ∃ l, Touches s (failureShown s ch) l ∧ ∀ a ∈ l, a < 0x20000 ∧ a ≠ 0x04C := by
  have hescalate (t : State) (lo hi : Nat) : Touches t (escalate t lo hi) _ := touches_trans (touches_errBit ..) (touches_errBit ..)
  refine ⟨_, touches_trans (touches_errSlice s HDR_ERR_SUMMARY_LINE (ch / 4)) (touches_trans (hescalate _ _ _) (hescalate _ _ _)), ?_⟩
  simp only [HDR_ERR_SUMMARY_LINE, HDR_INT_STATUS_ERROR, HDR_ERR_SUMMARY_ESCALATED_UP, HDR_ERR_SUMMARY_ESCALATED_IN, pgSlice, pgRegion, pgGlobal,
    List.cons_append, List.nil_append, List.forall_mem_cons]
  simp
  omega

theorem touches_lineFailed (s : State) {ch : Nat} (hch : ch < 64) : ∃ l, Touches s (lineFailed s ch) l ∧ ∀ a ∈ l, a < 0x20000 ∧ a ≠ 0x04C := by
  refine ⟨_, touches_trans (touches_setChan (by decide) true) (touches_setChan (by decide) true), ?_⟩
  simp [pgSlice]
  omega

theorem getF_of_low {l : List Nat} (h : Touches s t l) (hl : ∀ a ∈ l, a < 0x20000 ∧ a ≠ 0x04C) {pg : Nat} {f : Fld}
    (hf : 0x20000 ≤ pg + f.off ∨ pg + f.off = 0x04C) : getF t pg f = getF s pg f :=
  getF_of_touches h (fun hin => by have := hl _ hin; omega)

theorem fails (hup : alive s = true) (hq : Quiet s) (ch : Fin 64) :
    (chanBit s SL_LINE_STATUS_FAILED ch = true → Ignores (.channelTrainingFailure ch) s) ∧
    (chanBit s SL_LINE_STATUS_FAILED ch = false → Does (.channelTrainingFailure ch) s (fun u =>
      chanBit u SL_LINE_STATUS_FAILED ch = true ∧ chanBit u SL_LINE_STATUS_HALTED ch = true ∧
      (getF s pgGlobal GLOBAL_WITHDRAW_WITHDRAWN = 0 → (∀ k, 0 < k → k < 64 → stateOf s k ≠ 2) → Withdrawn u 1 ch))) := by
  refine ⟨fun hfailed => ignores_onDie (exec_channelTrainingFailure s ch) hup hq (channelFail_again hfailed), fun hserves => ?_⟩
  obtain ⟨hfailed, hhalted⟩ := lineFailed_bits s ch
  have hstay : LinesStay (lineFailed s ch) (withdrawDie (failureShown (lineFailed s ch) ch) 1 ch) :=
    linesStay_trans (linesStay_reports (reports_failureShown ..)) (linesStay_withdrawDie ..)
  refine does_onDie (exec_channelTrainingFailure s ch) hup (channelFail_eq ch.isLt hserves) ⟨?_, ?_, fun hhere hidle => ?_⟩
  · exact (chanBit_of_linesStay hstay (by decide) ch.isLt).trans hfailed
  · exact (chanBit_of_linesStay hstay (by decide) ch.isLt).trans hhalted
  · obtain ⟨l, hmarks, hl⟩ := touches_lineFailed s ch.isLt
    obtain ⟨m, hshown, hm⟩ := touches_failureShown (lineFailed s ch) ch.isLt
    refine withdrawDie_idle (by decide) ch.isLt ?_ (fun k hk hk64 => ?_)
    · rw [getF_of_low hshown hm (.inr rfl), getF_of_low hmarks hl (.inr rfl), hhere]
    · have hlow : 0x20000 ≤ pgFn k + FN_STATE_STATE.off := by unfold pgFn; omega
      have hstate : stateOf (failureShown (lineFailed s ch) ch) k = stateOf s k := by
        rw [stateOf, stateOf, fnF, fnF, getF_of_low hshown hm (.inl hlow), getF_of_low hmarks hl (.inl hlow)]
      rw [hstate]
      exact hidle k hk hk64

end

/-- Settles O55, by each command's equation: what it reads and writes of the blocks, the channels' bits, the remap tables and the laps. -/
theorem storedDataChecks : Obligations.StoredDataChecks := by
  intro s hup hq
  refine ⟨fun ch raw imgs => ?_, (lockstep hup hq).1, (lockstep hup hq).2, writesAgain hup hq, nearReads hup hq, fun n imgs => ?_⟩
  · obtain ⟨hidle, hresumes⟩ := resumes hup hq ch raw imgs
    obtain ⟨hagain, hfails⟩ := fails hup hq ch
    refine ⟨deepReads hup hq ch raw, hidle, hresumes, fun block => ?_, hagain, hfails, fun block owner hblock => dataLap hup hq ch raw owner hblock⟩
    obtain ⟨hclosed, hwritten⟩ := writesBack hup hq ch block
    exact ⟨hclosed, hwritten, hardFaults hup hq ch block raw⟩
  · obtain ⟨hnone, hrow⟩ := verifies hup hq n imgs
    exact ⟨fun area gen row => reencodes hup hq n area gen row imgs, hnone, hrow, parityLap hup hq n imgs⟩

end Sys2Proof.Proofs

/-!
SUPPORT and CLAIM. A drain that ends in the wrong state (R363, R365). A slice's page and a function's page are computed from an unbounded number,
so slice 17's LY_SL_MAILBAG_STATUS lies where function 1's LY_FN_STATE does, and a wheel image whose PLACE names slice 17 lets recovery
write one over the other. `Does` leaves open which state `u` the command's own effect leads to; `Unstopped` is what every state that `conclude`
makes of a DISABLED function 1 keeps, one lemma per function that `conclude` runs, under the function's own name.
-/

namespace Sys2Proof.Proofs

open Sys2Proof Sys2Proof.Machine Sys2Proof.Claims Sys2Proof.Laws

-- One theorem at a time: in threads of their own the many side conditions would take the memory of all of them together.
set_option Elab.async false

/-! ### The invariant -/

/-- Where function 1 reads STOPPED, its START_STATUS is 8 or more: of what a DISABLED function 1 can become before a command ends, only the
buffers of slice 17, 16 or more of them shown in its page, read so. -/
structure Unstopped (s : State) : Prop where
  status : stateOf s 1 = 1 → 8 ≤ fnF s 1 FN_STATE_START_STATUS

/-- A field that shares no bit with STATE and START_STATUS of a function's page. -/
def Aside (f : Fld) : Bool :=
  decide (f.lo ≤ f.hi) && decide (f.off < 4096) && (decide (f.off ≠ 0x044) || (decide (f.hi < 21) || (decide (25 < f.lo) && decide (f.hi < 30))))

theorem fldOf_lt (f : Fld) (w : Nat) : fldOf f w < 2 ^ (f.hi + 1 - f.lo) := Nat.mod_lt _ (Nat.two_pow_pos _)

/-- RESERVED_ROWS reads the buffers in reservation. -/
theorem getF_showBags_rows (s : State) (sl : Nat) : getF (showBags s sl) (pgSlice sl) SL_MAILBAG_STATUS_RESERVED_ROWS =
    (s.bags.filter (fun b => decide (b.slice = sl))).length % 64 := by
  rw [showBags, maxF, getF_setF_disjoint (f := SL_MAILBAG_STATUS_HIGH_WATER) _ _ _ (by rfl) (by decide) (by decide) (by decide),
    getF_setF_same _ _ _ _ (by decide) (by decide)]
  rfl

/-- HIGH_WATER reads no less than RESERVED_ROWS. -/
theorem getF_showBags_high (s : State) (sl : Nat) : (s.bags.filter (fun b => decide (b.slice = sl))).length % 64 ≤
    getF (showBags s sl) (pgSlice sl) SL_MAILBAG_STATUS_HIGH_WATER := by
  rw [showBags, maxF, getF_setF_same _ _ _ _ (by decide) (by decide)]
  generalize (s.bags.filter (fun b => decide (b.slice = sl))).length = k
  have hold := fldOf_lt SL_MAILBAG_STATUS_HIGH_WATER
    (wordAt (setF s (pgSlice sl) SL_MAILBAG_STATUS_RESERVED_ROWS k) (pgSlice sl + SL_MAILBAG_STATUS_HIGH_WATER.off)).toNat
  simp only [getF]
  generalize fldOf SL_MAILBAG_STATUS_HIGH_WATER
    (wordAt (setF s (pgSlice sl) SL_MAILBAG_STATUS_RESERVED_ROWS k) (pgSlice sl + SL_MAILBAG_STATUS_HIGH_WATER.off)).toNat = old at *
  simp only [SL_MAILBAG_STATUS_HIGH_WATER] at *
  omega

namespace Unstopped

/-- Whatever is not a register may change. -/
theorem upd {s : State} (h : Unstopped s)
    {pending deep near cores inForce fns seals ticks counter posted hostDown msi msiLast msiPend egress sent dlbUsed poisons waits
    resends requests bags held accs updates landPkts parked tc2Held landSeq loadWaits tokens deficit turn arbTick fnTurn fnDeficit
    agenda heldOnce lineOut deepWrites pushes ring twin watch ranks beatAt msgs puts marginWindows margins floor hold pfail line mon
    integ nvm pwr vfs latch rwl answer} :
    Unstopped { s with
      pending, deep, near, cores, inForce, fns, seals, ticks, counter, posted, hostDown, msi, msiLast, msiPend, egress, sent, dlbUsed,
      poisons, waits, resends, requests, bags, held, accs, updates, landPkts, parked, tc2Held, landSeq, loadWaits, tokens, deficit,
      turn, arbTick, fnTurn, fnDeficit, agenda, heldOnce, lineOut, deepWrites, pushes, ring, twin, watch, ranks, beatAt, msgs, puts,
      marginWindows, margins, floor, hold, pfail, line, mon, integ, nvm, pwr, vfs, latch, rwl, answer } :=
  ⟨h.status⟩

theorem of_fields {s t : State} (h : Unstopped s) (hstate : getF t (pgFn 1) FN_STATE_STATE = getF s (pgFn 1) FN_STATE_STATE)
    (hstart : getF t (pgFn 1) FN_STATE_START_STATUS = getF s (pgFn 1) FN_STATE_START_STATUS) : Unstopped t := by
  have hs := h.status
  simp only [stateOf, fnF, Nat.one_ne_zero, if_false] at hs
  exact ⟨by simpa only [stateOf, fnF, Nat.one_ne_zero, if_false, hstate, hstart] using hs⟩

theorem of_state {s : State} (hstate : stateOf s 1 ≠ 1) : Unstopped s := ⟨fun h => absurd h hstate⟩

theorem of_word {s t : State} (h : Unstopped s) (hword : wordAt t 0x21044 = wordAt s 0x21044) : Unstopped t :=
  h.of_fields (by simp only [getF, pgFn, FN_STATE_STATE]; rw [hword]) (by simp only [getF, pgFn, FN_STATE_START_STATUS]; rw [hword])

theorem branch {c : Prop} [Decidable c] {s t : State} (hs : Unstopped s) (ht : Unstopped t) : Unstopped (if c then s else t) := by
  split
  · exact hs
  · exact ht

theorem branch₁ {α : Type} {c : Prop} [Decidable c] {s t : State × α} (hs : Unstopped s.1) (ht : Unstopped t.1) :
    Unstopped (if c then s else t).1 := by
  split
  · exact hs
  · exact ht

theorem pair {α : Type} {p : State × α} {f : State → α → State} (hp : Unstopped p.1) (hf : ∀ t x, Unstopped t → Unstopped (f t x)) :
    Unstopped (match (generalizing := false) p with | (t, x) => f t x) := hf _ _ hp

theorem fold {α : Type} {s : State} {f : State → α → State} {l : List α} (h : Unstopped s) (hf : ∀ t x, Unstopped t → Unstopped (f t x)) :
    Unstopped (l.foldl f s) := by
  induction l generalizing s with
  | nil => exact h
  | cons x l ih => exact ih (hf s x h)

theorem some_mem {t : State} (h : Unstopped t) : ∀ u ∈ some t, Unstopped u := fun _ hu => Option.mem_some_iff.mp hu ▸ h

theorem none_mem : ∀ u ∈ (none : Option State), Unstopped u := fun _ hu => nomatch hu

variable {body bs bytes data e msg old payload : List Byte}
  {a addr area c cause ch code core cval detail die dst entry eraseBad flags fnThere fpa gen : Nat}
  {holder i id j kind layout len m member mode n o off op pg pos reason row : Nat}
  {sched seq serial sl slice slot stage stamp status subj tag target tc ticks type v vec : Nat}
  {alone fromLine load readable room sends toOff : Bool} {b : HostRead} {d : Landing} {f : VForm} {fails vals : List Nat}
  {fromDie via : Option Nat} {g : GroupEntry} {image : Option (List Byte)} {k : ActAt} {l : LeafRef} {owner : BlockOwner} {p : Packet}
  {r : CoreRun} {rows : RowSet} {s : State} {src : Source} {t : PutStage} {u : Upset} {w : Wait} {x : FnSt}

/-! #### Writes of registers -/

theorem setWord {w : Word} (h : Unstopped s) (hne : a ≠ 0x21044 := by decide) : Unstopped (setWord s a w) :=
  h.of_word (wordAt_setWord_other s w hne.symm)

/-- A field beside STATE and START_STATUS, on any page. -/
theorem setF {f : Fld} (h : Unstopped s) (hf : Aside f = true := by rfl)
    (hpg : pg % 4096 = 0 := by simp +decide [pgSlice_mod, pgRegion_mod, pgFn_mod]) : Unstopped (setF s pg f v) := by
  simp only [Aside, Bool.and_eq_true, Bool.or_eq_true, decide_eq_true_eq] at hf
  obtain ⟨⟨hlo, hoff⟩, hapart⟩ := hf
  by_cases hat : pg + f.off = 0x21044
  · have hf44 : f.off = 0x044 := by omega
    have hpg1 : pg = pgFn 1 := by simp only [pgFn]; omega
    subst hpg1
    have hfields := hapart.resolve_left (fun hne => hne hf44)
    exact h.of_fields (getF_setF_disjoint s _ v (by rw [hf44, FN_STATE_STATE]) hlo (by decide) (by simp only [FN_STATE_STATE]; omega))
      (getF_setF_disjoint s _ v (by rw [hf44, FN_STATE_START_STATUS]) hlo (by decide) (by simp only [FN_STATE_START_STATUS]; omega))
  · exact h.setWord hat

/-- A field of a page that is not function 1's, at the same offset. -/
theorem setFAt {f : Fld} (h : Unstopped s) (hne : pg + f.off ≠ 0x21044 := by decide) : Unstopped (Machine.setF s pg f v) := h.setWord hne

theorem flagF {f : Fld} (h : Unstopped s) (hf : Aside f = true := by rfl)
    (hpg : pg % 4096 = 0 := by simp +decide [pgSlice_mod, pgRegion_mod, pgFn_mod]) : Unstopped (flagF s pg f) := h.setF hf hpg

theorem addF {f : Fld} {k : Nat} (h : Unstopped s) (hf : Aside f = true := by rfl)
    (hpg : pg % 4096 = 0 := by simp +decide [pgSlice_mod, pgRegion_mod, pgFn_mod]) : Unstopped (addF s pg f k) := h.setF hf hpg

theorem maxF {f : Fld} (h : Unstopped s) (hf : Aside f = true := by rfl)
    (hpg : pg % 4096 = 0 := by simp +decide [pgSlice_mod, pgRegion_mod, pgFn_mod]) : Unstopped (maxF s pg f v) := h.setF hf hpg

theorem setFnF {f : Fld} (h : Unstopped s) (hf : Aside f = true := by rfl) : Unstopped (setFnF s n f v) := h.setF hf

/-- A field of the page of a function that is not function 1. -/
theorem setFnFOf {f : Fld} (h : Unstopped s) (hn : n ≠ 1) (hoff : f.off < 4096 := by decide) : Unstopped (Machine.setFnF s n f v) :=
  h.setFAt (by simp only [pgFn]; omega)

/-! #### The functions of the model that a command ends with -/

theorem sendPacket (h : Unstopped s) : Unstopped (sendPacket s p) := h.upd

theorem respond (h : Unstopped s) : Unstopped (respond s p type status bytes) := h.sendPacket

theorem rangeWrite (h : Unstopped s) : Unstopped (rangeWrite s n off bs) := h.upd

theorem emitWcAt {m : Manifest} {step : Nat} {w : Nat} (h : Unstopped s) : Unstopped (emitWcAt s n m l body step w) :=
  branch h (branch h.rangeWrite.rangeWrite h.rangeWrite)

theorem formerCopies (h : Unstopped s) : Unstopped (formerCopies s n m off len rows) := by
  fun_cases Machine.formerCopies
  · refine fold h.upd fun t j h => ?_
    split
    · split
      · exact h
      · split
        · exact branch h.emitWcAt h.emitWcAt.emitWcAt
        · exact h
    · exact h
  · exact h

theorem rangeLoad (h : Unstopped s) : Unstopped (rangeLoad s p via rows readable) := by
  fun_cases Machine.rangeLoad
  exacts [h.respond, h.respond, h.respond, h.respond, h.respond, h.upd, h.respond]

theorem answerWaits (h : Unstopped s) : Unstopped (answerWaits s) := fold h.upd (fun _ _ h => branch h.rangeLoad h.respond)

theorem modNvm {f : NvmSt → NvmSt} (h : Unstopped s) : Unstopped (modNvm s f) := h.upd

theorem logWrite (h : Unstopped s) : Unstopped (logWrite s code data) := ((branch h.flagF h).upd).setF

theorem fwStage (h : Unstopped s) : Unstopped (fwStage s stage slot) := branch h h.setFAt.logWrite

theorem hostWrite (h : Unstopped s) : Unstopped (hostWrite s n addr bs) := branch h h.upd

theorem msiRequest (h : Unstopped s) : Unstopped (msiRequest s n vec) := by
  fun_cases Machine.msiRequest <;> exact h.upd

theorem raiseFn {f : Fld} (h : Unstopped s) (hf : Aside f = true := by rfl) : Unstopped (raiseFn s n f) :=
  branch (h.flagF hf).msiRequest (h.flagF hf)

theorem cplWrite {c : Cpl} (h : Unstopped s) : Unstopped (cplWrite s n c) := h.hostWrite.setFnF.raiseFn

theorem setFnSt (h : Unstopped s) : Unstopped (setFnSt s n x) := h.upd

theorem modFn {f : FnSt → FnSt} (h : Unstopped s) : Unstopped (modFn s n f) := h.setFnSt

theorem complete (h : Unstopped s) : Unstopped (complete s n tag op status detail) := branch h.upd (branch h.cplWrite h.modFn)

theorem evWrite {e : Nat} (h : Unstopped s) : Unstopped (evWrite s n code e payload) :=
  branch h.modFn.addF.raiseFn (((fold h.modFn (fun _ _ h => h.hostWrite)).setFnF).raiseFn)

theorem evMarker (h : Unstopped s) : Unstopped (evMarker s n) := branch h.setFnF.evWrite h

theorem postEvent (h : Unstopped s) : Unstopped (postEvent s n code payload) :=
  branch h.upd (branch h.evMarker.evWrite h.evMarker.modFn.addF.raiseFn)

theorem sendFife {form : List Byte} (h : Unstopped s) : Unstopped (sendFife s n entry form payload) := h.sendPacket

theorem setColl {c : Coll} (h : Unstopped s) : Unstopped (setColl s n off c) := h.modFn.setFnF

theorem lineDrop (h : Unstopped s) : Unstopped (lineDrop s slot seq) := h.upd

theorem collEnd (h : Unstopped s) : Unstopped (collEnd s n off) := h.lineDrop.setColl

theorem collCancel (h : Unstopped s) : Unstopped (collCancel s n off status) := branch ((fold h (fun _ _ h => h.sendFife)).collEnd) h

theorem bgComplete (h : Unstopped s) : Unstopped (bgComplete s n op status detail) := by
  fun_cases Machine.bgComplete
  exacts [h, h.modFn.complete]

theorem todo {t : Todo} (h : Unstopped s) : Unstopped (todo s t) := h.upd

theorem cancelAll (h : Unstopped s) : Unstopped (cancelAll s n) :=
  branch (branch ((fold h (fun _ _ h => h.collCancel)).bgComplete) (fold h (fun _ _ h => h.collCancel)))
    ((((branch ((fold h (fun _ _ h => h.collCancel)).bgComplete) (fold h (fun _ _ h => h.collCancel))).modFn).bgComplete).todo)

theorem migrationDrop (h : Unstopped s) : Unstopped (migrationDrop s n) := by
  fun_cases Machine.migrationDrop
  exacts [h, h.modFn.setFnF.bgComplete, h]

theorem schedStop (h : Unstopped s) : Unstopped (schedStop s n) := h.modFn.setFnF.setFnF

theorem dropHold (h : Unstopped s) : Unstopped (dropHold s n) := h.modFn.setFnF.setFnF

theorem dropCores (h : Unstopped s) : Unstopped (dropCores s n) := h.upd

theorem sendCloses (h : Unstopped s) : Unstopped (sendCloses s n) := branch h (fold h (fun _ _ h => fold h (fun _ _ h => h.sendPacket)))

theorem putWait {old : Wait} {new : Wait} (h : Unstopped s) : Unstopped (putWait s old new) := h.upd

theorem raiseUnit {f : Fld} (h : Unstopped s) (hf : Aside f = true := by rfl)
    (hpg : pg % 4096 = 0 := by simp +decide [pgSlice_mod, pgRegion_mod, pgFn_mod]) :
    Unstopped (raiseUnit s pg f) := branch (h.flagF hf hpg).msiRequest (h.flagF hf hpg)

theorem errBit {f : Fld} (h : Unstopped s) (hf : Aside f = true := by rfl)
    (hpg : pg % 4096 = 0 := by simp +decide [pgSlice_mod, pgRegion_mod, pgFn_mod]) :
    Unstopped (errBit s f pg) := branch ((h.flagF hf hpg).raiseUnit rfl hpg) (h.flagF hf hpg)

theorem errSlice {f : Fld} (h : Unstopped s) (hf : Aside f = true := by rfl) : Unstopped (errSlice s f sl) :=
  ((h.errBit hf).errBit hf).errBit hf

theorem errUnit {f : Fld} (h : Unstopped s) (hf : Aside f = true := by rfl)
    (hpg : pg % 4096 = 0 := by simp +decide [pgSlice_mod, pgRegion_mod, pgFn_mod]) :
    Unstopped (errUnit s f pg) := branch (h.errBit hf) ((h.errBit hf hpg).errBit hf)

theorem sendReceipt {src : Nat} {areaB : Nat} {par : Nat} (h : Unstopped s) :
    Unstopped (sendReceipt s n dst src fnThere row stamp areaB holder par status tag) :=
  branch h ((branch (branch h h.addF) ((branch h h.addF).errUnit)).sendPacket)

theorem answerReceipt (h : Unstopped s) : Unstopped (answerReceipt s n p status) := h.sendReceipt

theorem notePoison (h : Unstopped s) : Unstopped (notePoison s sl) := branch h.addF.upd.errUnit.flagF.postEvent h.addF.upd.errUnit

theorem flushHold (h : Unstopped s) : Unstopped (flushHold s sl) := fold h.upd.errSlice (fun _ _ h => h.notePoison.answerReceipt)

theorem wordsAt (h : Unstopped s) (hbelow : a + 4 * n ≤ 0x21044) : Unstopped (wordsAt s a bs n) := by
  induction n generalizing s with
  | zero => exact h
  | succ n ih => exact ih (h.setWord (by omega)) (by omega)

theorem bin (h : Unstopped s) : Unstopped (bin s p cause slice) := by
  have hnext : getF s pgPort PORT_DLB_STATUS_NEXT < 64 := fldOf_lt PORT_DLB_STATUS_NEXT _
  unfold Machine.bin
  extract_lets first i entry used s₁ s₂ s₃ s₄ s₅ s₆
  have h₁ : Unstopped s₁ := h.wordsAt (by simp only [i]; simp only [pgPort] at hnext ⊢; omega)
  have h₃ : Unstopped s₃ := branch h₁.upd.flagF h₁.upd
  exact branch h₃.setF.addF.errUnit.postEvent h₃.setF.addF.errUnit

theorem poisoned (h : Unstopped s) : Unstopped (poisoned s sl n p) := h.notePoison.answerReceipt

/-- The rows in reservation overlay STATE and HIGH_WATER overlays START_STATUS, and HIGH_WATER is no less than the rows. -/
theorem showBags (h : Unstopped s) : Unstopped (showBags s sl) := by
  by_cases hpage : pgSlice sl = pgFn 1
  · refine ⟨fun hstate => ?_⟩
    have hrows := getF_showBags_rows s sl
    have hhigh := getF_showBags_high s sl
    rw [hpage] at hrows hhigh
    simp only [stateOf, fnF, Nat.one_ne_zero, if_false] at hstate ⊢
    generalize Machine.showBags s sl = t at *
    simp only [getF, fldOf, bits, SL_MAILBAG_STATUS_RESERVED_ROWS, SL_MAILBAG_STATUS_HIGH_WATER, FN_STATE_STATE, FN_STATE_START_STATUS] at *
    omega
  · have hne : pgSlice sl + 0x044 ≠ 0x21044 := by
      simp only [pgFn] at hpage
      omega
    exact (h.setFAt hne).setFAt hne

theorem release {p : Nat} (h : Unstopped s) : Unstopped (release s sl n area gen row p) := h.upd.showBags

theorem dropWait (h : Unstopped s) : Unstopped (dropWait s w) := h.upd

theorem waitSettled (h : Unstopped s) : Unstopped (waitSettled s w) := by
  fun_cases Machine.waitSettled
  exacts [h.dropWait, h, h.dropWait.todo, h.todo, h.dropWait.todo, h]

theorem nearWrite (h : Unstopped s) : Unstopped (nearWrite s a bs) := h.upd

theorem ledgerReceipt {p : Nat} (h : Unstopped s) : Unstopped (ledgerReceipt s w p) := by
  fun_cases Machine.ledgerReceipt
  exacts [h.nearWrite, h, h]

theorem applyWritten {p : Nat} (h : Unstopped s) : Unstopped (applyWritten s w holder p) := h.putWait.ledgerReceipt.waitSettled

theorem sendReceipts {b : Bag} (h : Unstopped s) : Unstopped (sendReceipts s b g) :=
  fold h (fun _ _ h => branch (by split; exacts [h.applyWritten, h]) h.sendReceipt)

theorem sealStray (h : Unstopped s) : Unstopped (sealStray s) := h.flagF.addF.errUnit

theorem setSeal {o : SealObj} (h : Unstopped s) : Unstopped (setSeal s i o) := h.upd

theorem sealArrive (h : Unstopped s) : Unstopped (sealArrive s i a) := branch h.sealStray (branch h.setSeal.todo h.setSeal)

theorem groupArrive (h : Unstopped s) : Unstopped (groupArrive s n) := by
  fun_cases Machine.groupArrive
  exacts [h.sealArrive, h, h]

theorem finishRow {b : Bag} (h : Unstopped s) : Unstopped (finishRow s b) := by
  fun_cases Machine.finishRow
  exacts [h, h.sendReceipts.release.modFn.groupArrive, h.sendReceipts.release.modFn]

theorem sweepMark {ordinal : Nat} (h : Unstopped s) : Unstopped (sweepMark s n ordinal v) := h.modFn

theorem devPut {r : List Byte} (h : Unstopped s) : Unstopped (devPut s n r) := h.hostWrite.setFnF

theorem devOverflow (h : Unstopped s) : Unstopped (devOverflow s n) := branch h.setFnSt.devPut h

theorem deviation {since : Nat} {skipped : Nat} (h : Unstopped s) :
    Unstopped (deviation s n cause slice core sched detail since pos skipped) := by
  unfold Machine.deviation
  extract_lets s₁ x r s₂ s₃ s₄
  have h₂ : Unstopped s₂ := h.devOverflow.setFnSt
  have h₄ : Unstopped s₄ := addF (branch h₂.addF h₂)
  exact branch (branch h₄.modFn h₄.addF.modFn) (branch h₄.devPut h₄.addF.modFn)

theorem slip (h : Unstopped s) : Unstopped (slip s n cause slice core sched detail) := h.deviation

theorem pushBefore (h : Unstopped s) : Unstopped (pushBefore s n m area gen j) := by
  fun_cases Machine.pushBefore
  exacts [h, h, h, h, h.sweepMark, h.sweepMark, (((branch ((branch h.slip h).flagF) (branch h.slip h)).upd).sweepMark).modFn]

theorem slotWrite (h : Unstopped s) : Unstopped (slotWrite s n area gen row bs) := by
  fun_cases Machine.slotWrite
  exacts [h, h.rangeWrite]

theorem mirrorNote (h : Unstopped s) : Unstopped (mirrorNote s n m area gen j) := by
  fun_cases Machine.mirrorNote
  exacts [h.modFn, h, h]

theorem foldStep {slot : List Byte} (h : Unstopped s) : Unstopped (foldStep s n m j slot) := branch h.setFnSt h

theorem heldWrite {slot : List Byte} (h : Unstopped s) : Unstopped (heldWrite s n m area gen j slot) := by
  refine branch (c := area = 0) (foldStep ?_) ?_
  all_goals exact mirrorNote (branch h.pushBefore.slotWrite h.pushBefore.upd)

theorem writeHole {b : Bag} (h : Unstopped s) : Unstopped (writeHole s b old) := by
  fun_cases Machine.writeHole
  exacts [h.heldWrite, h]

theorem rowProgress {b : Bag} (h : Unstopped s) : Unstopped (rowProgress s b) := by
  fun_cases Machine.rowProgress
  exacts [h.finishRow, h.writeHole.finishRow, h, h, h]

theorem putBag {b : Bag} (h : Unstopped s) : Unstopped (putBag s b) := h.upd

theorem foldInto {b : Bag} (h : Unstopped s) : Unstopped (foldInto s b p) := by
  fun_cases Machine.foldInto
  exacts [h.upd.addF, h.upd.putBag.rowProgress]

theorem countHeld (h : Unstopped s) : Unstopped (countHeld s sl p) := branch h h.addF.slip

theorem reserve {p : Nat} {decode : Bool} (h : Unstopped s) : ∀ t ∈ reserve s sl n area gen row p load decode, Unstopped t := by
  unfold Machine.reserve
  split
  · exact none_mem
  · exact some_mem h.upd.showBags

theorem admitFold (h : Unstopped s) : Unstopped (admitFold s sl n p) := by
  unfold Machine.admitFold
  dsimp only
  split
  · exact h.foldInto
  · refine branch h.answerReceipt (branch (branch h.upd h.countHeld.upd.answerReceipt) ?_)
    split
    next hreserve =>
      have hbag : Unstopped _ := reserve h _ (Option.mem_ite_none_left.mp hreserve).2
      split
      · exact hbag.foldInto
      · exact hbag
    · exact branch h.countHeld.upd h.countHeld.upd.answerReceipt

theorem recvCoding (h : Unstopped s) : Unstopped (recvCoding s p u) := by
  unfold Machine.recvCoding
  extract_lets sl n s₁ s₂ x placed
  have h₁ : Unstopped s₁ := branch h h.errSlice
  have h₂ : Unstopped s₂ := branch h₁.flushHold h₁
  split
  · exact h₂.bin
  · exact h₂.answerReceipt
  · exact branch h₂.poisoned h₂.admitFold

theorem localFolds {ps : List Packet} (h : Unstopped s) : Unstopped (localFolds s ps) := fold h (fun _ _ h => branch h.recvCoding h)

theorem errFn {f : Fld} (h : Unstopped s) (hf : Aside f = true := by rfl) : Unstopped (errFn s f n) := (h.errBit hf).errBit hf

theorem routeInvalid (h : Unstopped s) : Unstopped (routeInvalid s n id) := h.flagF.errFn.postEvent

theorem sendTo {k : Nat} {q : WaitHolder} (h : Unstopped s) : Unstopped (sendTo s w k n q) :=
  branch h (branch h.routeInvalid (branch h.sendPacket (branch h.sendPacket (fold h (fun _ _ h => h.sendPacket)))))

theorem sendWait (h : Unstopped s) : Unstopped (sendWait s w tc) := fold h.putWait (fun _ _ h => branch h (branch h.localFolds h.sendTo))

theorem drainSend (h : Unstopped s) : Unstopped (drainSend s n) := fold ((fold h (fun _ _ h => h.sendWait)).upd) (fun _ _ h => h.sendPacket)

theorem passAbort {group : Bool} {stops : Bool} (h : Unstopped s) : Unstopped (passAbort s n group alone stops) :=
  (((branch h.migrationDrop.flagF.addF.setFnF.setFnF.modFn.dropCores.dropHold.schedStop
    h.migrationDrop.flagF.addF.setFnF.setFnF.modFn.dropCores.dropHold.schedStop.drainSend.sendCloses).upd).modFn).todo

theorem abortOver (h : Unstopped s) : Unstopped (abortOver s n) := h.modFn

theorem showLines (h : Unstopped s) : Unstopped (showLines s sl) := h.setF

theorem showParking (h : Unstopped s) : Unstopped (showParking s n) := h.setFnF

theorem discardLanded (h : Unstopped s) : Unstopped (discardLanded s n) := ((fold h.upd (fun _ _ h => h.showLines)).modFn).showParking

theorem lineQueue {frames : List Nat} (h : Unstopped s) : Unstopped (lineQueue s kind slot seq frames) := h.upd

theorem sendVals {count : Nat} {value : Nat} (h : Unstopped s) : Unstopped (sendVals s n entry kind slot seq layout count status value vals) :=
  branch h.sendFife h.sendFife.sendFife

theorem collResult (h : Unstopped s) : Unstopped (collResult s n off status cval vals) :=
  branch ((fold h (fun _ _ h => h.sendVals)).lineQueue) ((fold h (fun _ _ h => h.sendVals)).todo)

theorem collCombine (h : Unstopped s) : Unstopped (collCombine s n off) := by
  fun_cases Machine.collCombine
  exacts [h, h.setColl.collResult, h.setColl.sendVals, h.setColl, h]

theorem collOpen (h : Unstopped s) : Unstopped (collOpen s n off layout vals) := branch h.todo (branch h.setColl.lineQueue h.setColl.collCombine)

theorem partialsCheck (h : Unstopped s) : Unstopped (partialsCheck s n) := branch h.modFn.collOpen h

theorem lockViolation (h : Unstopped s) : Unstopped (lockViolation s a) := ((((branch h.flagF h).setF).setF).raiseFn).errUnit

theorem sealArm {expected : Nat} (h : Unstopped s) : Unstopped (sealArm s n i expected) :=
  branch h.flagF.lockViolation.errUnit (branch h.setSeal.todo h.setSeal)

theorem armBuckets (h : Unstopped s) : Unstopped (armBuckets s n) := fold h (fun _ _ h => branch h.sealArm.sealArm h.sealArm)

theorem stepAbort (h : Unstopped s) : Unstopped (stepAbort s n) :=
  branch h.migrationDrop
    h.migrationDrop.discardLanded.flagF.modFn.schedStop.setFnF.setFnF.setFnF.setFnF.modFn.armBuckets.postEvent.partialsCheck

theorem bugleAct (h : Unstopped s) : Unstopped (bugleAct s n cause alone) := by
  unfold Machine.bugleAct
  extract_lets serial s₁ s₂ s₃ s₄
  have h₃ : Unstopped s₃ := h.setFnF.flagF.setFnF.cancelAll
  have h₄ : Unstopped s₄ := branch h₃.setFnF (branch h₃.setFnF h₃)
  exact branch h₄.setFnF.abortOver.passAbort h₄.stepAbort

theorem membStore {m : List Byte} (h : Unstopped s) : Unstopped (membStore s dst m) := branch h h.sendPacket

theorem membAck {m : List Byte} (h : Unstopped s) : Unstopped (membAck s n m status) := branch h h.membStore

theorem membSend {b : MembBody} (h : Unstopped s) : Unstopped (membSend s n dst b) := h.modFn.upd.membStore

theorem reportTo {e : Nat} (h : Unstopped s) : Unstopped (reportTo s n e) := h.membSend

theorem showRecord (h : Unstopped s) : Unstopped (showRecord s n) := h.setFnF.setFnF.setFnF.setFnF.setFnF.setFnF.setFnF.setFnF.setFnF.setFnF

theorem xferStart (h : Unstopped s) : Unstopped (xferStart s n mode subj target) := h.modFn.showRecord

theorem transferDrop (h : Unstopped s) : Unstopped (transferDrop s n) := by
  unfold Machine.transferDrop
  exact (branch h.upd.setFnF.setFnF.setFnF.setFnF h.upd).modFn

theorem modFloor {f : FloorSt → FloorSt} (h : Unstopped s) : Unstopped (modFloor s f) := h.upd

theorem freeOwned (h : Unstopped s) : Unstopped (freeOwned s id) := h.modFloor

theorem modSnap {g : SnapEnt → SnapEnt} (h : Unstopped s) : Unstopped (modSnap s id g) := h.modFloor

theorem showFloor (h : Unstopped s) : Unstopped (showFloor s) := h.setF.setF.setFAt.setFAt.setF

theorem showSnap (h : Unstopped s) : Unstopped (showSnap s n) := by
  fun_cases Machine.showSnap
  exacts [h, h.setFnF.setFnF.setFnF.setFnF.setFnF.setFnF, h.setFnF.setFnF.setFnF.setFnF.setFnF.setFnF]

theorem snapCommand {step : Nat} (h : Unstopped s) : Unstopped (snapCommand s n step status detail) := by
  fun_cases Machine.snapCommand
  exacts [h.modFn.bgComplete, h, h]

theorem sweepAbandon (h : Unstopped s) : Unstopped (sweepAbandon s n) := by
  fun_cases Machine.sweepAbandon
  exacts [h, h.modSnap.freeOwned.upd.modFloor.modFn.flagF.errFn.postEvent.snapCommand.showSnap.showFloor]

theorem setPend {l : List TwinPend} (h : Unstopped s) : Unstopped (setPend s l) := h.upd.setF

theorem twinOff (h : Unstopped s) : Unstopped (twinOff s) := h.addF.upd.setF.setPend

theorem twinDisarm (h : Unstopped s) : Unstopped (twinDisarm s n) := branch ((branch h.twinOff h).upd) h

theorem markUnrebuilt {old : FnSt} (h : Unstopped s) : Unstopped (markUnrebuilt s n old mode subj) :=
  branch h.modFn.setFnF h.modFn.setFnF.setFnF.setFnF.setFnF

theorem freeFrames {old new : FnSt} (h : Unstopped s) : Unstopped (freeFrames s n m old new) :=
  fold h fun _ _ h => branch h.upd h

theorem openIntake {attempt : Nat} (h : Unstopped s) : Unstopped (openIntake s n attempt) :=
  h.modFn.setFnF.setFnF.setFnF.schedStop.setFnF.armBuckets.partialsCheck

theorem takeOver {m : List Byte} {switch : Bool} (h : Unstopped s) : Unstopped (takeOver s n m switch) := by
  unfold Machine.takeOver
  extract_lets s₁ t s₂ s₃ s₄ s₅
  have h₃ : Unstopped s₃ := (fold h fun _ _ h => h.setColl).modFn.setFnF.setFnF
  exact branch h₃ (branch h₃.openIntake (branch h₃.openIntake.setFnF.modFn h₃.setFnF.setFnF.modFn.todo))

theorem showSuspects (h : Unstopped s) : Unstopped (showSuspects s) := fold h.setF (fun _ _ h => branch h h.setFnF)

theorem watchUpdate (h : Unstopped s) : Unstopped (watchUpdate s) := by
  unfold Machine.watchUpdate
  exact h.upd.setF.showSuspects

theorem collReform (h : Unstopped s) :
    Unstopped (collReform s n off) := branch (branch h.addF.lineDrop.setColl.collOpen h.addF.lineDrop.setColl) h

theorem reformAll {setChanged : Bool} (h : Unstopped s) : Unstopped (reformAll s n setChanged) := by
  unfold Machine.reformAll
  extract_lets s₁ aborts s₂ s₃
  have h₂ : Unstopped s₂ := branch h.collReform.collReform.collReform h.collReform
  have h₃ : Unstopped s₃ := h₂.collReform.collReform.collReform
  exact branch (branch h₃.collCancel.modFn.bgComplete.todo h₃) h₂

theorem bumpIntake (h : Unstopped s) : Unstopped (bumpIntake s n) := by
  fun_cases Machine.bumpIntake
  exacts [h, fold (fold h.modFn (fun _ _ h => h.release))
    (fun _ _ h => branch h.putWait.waitSettled (branch h.putWait.sendWait h.putWait))]

theorem bumpAct (h : Unstopped s) : Unstopped (bumpAct s n) := branch h (branch h.modFn.todo (branch h.todo h.bumpIntake))

theorem adoptNow {m : List Byte} (h : Unstopped s) : Unstopped (adoptNow s n m) := by
  unfold Machine.adoptNow
  extract_lets x mode subj
  split
  · exact h
  · generalize roleAfter s x m = roles
    obtain ⟨role, self⟩ := roles
    dsimp -zeta -zetaHave only
    extract_lets s₁ x' former ms sp staged ents s₂ s₃ s₄ s₅ taker s₆ s₇ s₈ fenced posted left told done shrunk full
      passed heard
    have h₂ : Unstopped s₂ := setFnSt (branch h h.twinDisarm.sweepAbandon)
    have h₅ : Unstopped s₅ := fold (markUnrebuilt (branch h₂.postEvent h₂)) fun _ _ h => branch h h.freeFrames
    have h₇ : Unstopped s₇ := watchUpdate (showRecord (branch h₅.takeOver h₅))
    have h₈ : Unstopped s₈ := branch h₇ h₇.reformAll
    have hposted : Unstopped posted := h₈.modFn.flagF.postEvent
    have hdone : Unstopped done := h₈.modFn.postEvent.bgComplete
    have hshrunk : Unstopped shrunk := branch h₈.postEvent h₈
    have hfull : Unstopped full := hshrunk.flagF.postEvent
    have hpassed : Unstopped passed := branch (branch hfull.todo hfull) (branch hshrunk hshrunk.bumpAct)
    have hheard : Unstopped heard := hpassed.modFn
    exact branch (branch hposted.todo hposted) (branch (branch hdone.todo hdone) (branch (branch hheard.modFn hheard.bgComplete) hpassed))

theorem adopt {m : List Byte} (h : Unstopped s) : Unstopped (adopt s n m) := by
  unfold Machine.adopt
  extract_lets s₁ s₂ s₃
  have h₁ : Unstopped s₁ := branch h h.transferDrop
  have h₂ : Unstopped s₂ := h₁.modFn.adoptNow
  have h₃ : Unstopped s₃ := branch h₂.todo h₂
  exact branch h₁.modFn (branch h₃.transferDrop.showRecord h₃)

theorem epochSend {b : MembBody} {dies : List Nat} (h : Unstopped s) : Unstopped (epochSend s n b dies) := fold h (fun _ _ h => h.membSend)

theorem bump (h : Unstopped s) : Unstopped (bump s n mode subj die) := h.adopt.modFn.epochSend

theorem keeperServe (h : Unstopped s) : Unstopped (keeperServe s n kind member die room).1 := by
  fun_cases Machine.keeperServe
  exacts [h.xferStart, h.xferStart, h, h.bump, h, h, h, h.xferStart, h.bump, h, h]

theorem keeperIdle (h : Unstopped s) : Unstopped (keeperIdle s n room) := by
  fun_cases Machine.keeperIdle
  exacts [h, h.modFn.keeperServe, h, h.xferStart, h, h]

theorem bumpCheck (h : Unstopped s) : Unstopped (bumpCheck s n) :=
  branch h (((branch ((branch h.modFn.todo h).bgComplete) (branch h.modFn.todo h)).todo).keeperIdle)

theorem recvMembAck {m : List Byte} (h : Unstopped s) : Unstopped (recvMembAck s n m) := by
  fun_cases Machine.recvMembAck
  exacts [h, h.upd.modFn.reportTo, h.upd.bumpCheck, h.upd.modFn.bgComplete, h.upd.bgComplete, h.upd]

theorem adoptLate {epoch : Nat} (h : Unstopped s) : Unstopped (adoptLate s n epoch) := by
  fun_cases Machine.adoptLate
  exacts [h.adopt, h, h]

theorem recvEpoch {m : List Byte} (h : Unstopped s) : Unstopped (recvEpoch s n m) :=
  branch h.membAck (branch (branch h.membAck.modFn h.membAck.adopt) h.membAck.modFn.membSend)

theorem recvConfirmReq {m : List Byte} (h : Unstopped s) : Unstopped (recvConfirmReq s n m) := (branch h.membAck.modFn h.membAck).membSend

theorem unconfirmed (h : Unstopped s) : Unstopped (unconfirmed s n m) := by
  unfold Machine.unconfirmed
  exact h.flagF.postEvent.modFn

theorem declareFailed (h : Unstopped s) : Unstopped (declareFailed s n m room) := by
  fun_cases Machine.declareFailed <;> exact h.bump

theorem recvConfirmRsp {m : List Byte} (h : Unstopped s) : Unstopped (recvConfirmRsp s n m room) := by
  fun_cases Machine.recvConfirmRsp
  exacts [h.membAck, h.membAck, h.membAck.unconfirmed, h.membAck.modFn.modFn.declareFailed, h.membAck.modFn]

theorem recvGseal {m : List Byte} (h : Unstopped s) : Unstopped (recvGseal s n m) := by
  unfold Machine.recvGseal
  exact h.membAck.modFn

theorem recvReport {m : List Byte} (h : Unstopped s) : Unstopped (recvReport s n m) := by
  fun_cases Machine.recvReport
  exacts [h.membAck.upd.membSend, h.membAck.upd, h.membAck.upd]

theorem switchTry (h : Unstopped s) : Unstopped (switchTry s n) := by
  fun_cases Machine.switchTry
  exacts [h, h.modFn.postEvent.epochSend, h]

theorem transferDoneAt (h : Unstopped s) : Unstopped (transferDoneAt s n member) := by
  fun_cases Machine.transferDoneAt
  exacts [h.modFn.switchTry, h]

theorem recvTransferDone {m : List Byte} (h : Unstopped s) : Unstopped (recvTransferDone s n m) := h.membAck.transferDoneAt

theorem recvRequest {m : List Byte} (h : Unstopped s) : Unstopped (recvRequest s n m room) :=
  branch h.membAck (branch h.keeperServe.membAck h.modFn.membAck)

theorem recvMemb (h : Unstopped s) : Unstopped (recvMemb s p kind room) := by
  unfold Machine.recvMemb
  split
  · exact h
  · extract_lets key s₁ nvm s₂ s₃
    have h₁ : Unstopped s₁ := branch h h.membAck
    have h₃ : Unstopped s₃ := branch h.modFn h.modFn.adoptLate
    exact branch h (branch (branch h h.membAck) (branch h₁.upd (branch h.recvMembAck (branch h.membAck
      (branch h₃.recvEpoch (branch h₃.recvConfirmReq (branch h₃.recvConfirmRsp (branch h₃.recvGseal (branch h₃.recvReport
        (branch h₃.recvTransferDone h₃.recvRequest))))))))))

theorem switchRelease (h : Unstopped s) : Unstopped (switchRelease s) := by
  unfold Machine.switchRelease
  exact (fold (fold (fold (fold h.modNvm (fun _ _ h => h.complete)) (fun _ _ h => h.postEvent)) (fun _ _ h => branch h.bugleAct h))
    (fun _ _ h => h.recvMemb)).modNvm

theorem showBoot (h : Unstopped s) : Unstopped (showBoot s) := h.setFAt.setFAt.setF.setF

theorem putBoot {b : BootRec} (h : Unstopped s) : Unstopped (putBoot s b) := h.modNvm.showBoot

theorem activationUndone (h : Unstopped s) : Unstopped (activationUndone s) := ((branch h.putBoot h).modNvm).bgComplete

theorem fwHoldCheck (h : Unstopped s) : Unstopped (fwHoldCheck s) :=
  branch (branch (branch (((branch h h.fwStage).modNvm).switchRelease) ((branch h h.fwStage).modNvm)) h) (branch h.activationUndone h)

theorem shadowCount (h : Unstopped s) : Unstopped (shadowCount s n) := branch (branch h h.setFnSt) (branch h.setFnSt h)

theorem shadowNotes (h : Unstopped s) : Unstopped (shadowNotes s) := fold h (fun _ _ h => branch h.shadowCount h)

theorem landArrive {k : LandPkt} (h : Unstopped s) : Unstopped (landArrive s k) := by
  fun_cases Machine.landArrive
  exacts [h, h.modFn.sealArrive]

theorem landProgress {fuel : Nat} (h : Unstopped s) : Unstopped (landProgress fuel s) := by
  fun_induction Machine.landProgress fuel s
  case case1 => exact h
  case case2 => exact h
  case case3 ih => exact ih (branch h.upd.landArrive h.upd)

theorem landBad (h : Unstopped s) : Unstopped (landBad s n id p d) := by
  fun_cases Machine.landBad
  exacts [h.addF.postEvent, h.addF.postEvent, h.addF.postEvent.upd.landProgress, h.addF.postEvent.sealArrive, h.addF.postEvent]

theorem landProbe {flagged : Bool} (h : Unstopped s) : Unstopped (landProbe s n flagged d) := by
  fun_cases Machine.landProbe
  exacts [h, h, h.addF, h.modFn.sealArrive, h.modFn]

theorem accAlloc (h : Unstopped s) : ∀ t ∈ accAlloc s n row, Unstopped t := by
  unfold Machine.accAlloc
  dsimp only
  split_ifs
  · exact some_mem h
  · exact some_mem h.upd.showLines
  · exact some_mem h.upd
  · exact none_mem

theorem accAllocAll {rs : List Nat} (h : Unstopped s) : ∀ t ∈ accAllocAll s n rs, Unstopped t := by
  fun_induction Machine.accAllocAll s n rs
  case case1 => exact some_mem h
  case case2 => exact none_mem
  case case3 hstep ih => exact ih (h.accAlloc _ hstep)

theorem queueUpd {u : LineUpd} (h : Unstopped s) : Unstopped (queueUpd s u) := ((branch h.addF h).maxF).upd

theorem landData (h : Unstopped s) : ∀ t ∈ landData s n id p d, Unstopped t := by
  unfold Machine.landData
  dsimp only
  split
  · split
    · split
      · exact none_mem
      · split
        · exact none_mem
        next halloc => exact some_mem (landProgress (upd (fold (h.accAllocAll _ halloc) fun _ _ h => h.queueUpd)))
    · exact none_mem
  · exact some_mem h

theorem landTry (h : Unstopped s) : ∀ t ∈ landTry s n id p, Unstopped t := by
  unfold Machine.landTry
  dsimp only
  split
  · exact none_mem
  · exact some_mem h.addF
  · exact some_mem h.addF
  · exact some_mem h.landBad
  · split
    · exact some_mem h.landProbe
    · exact h.landData

theorem replay {l : List Parked} (h : Unstopped s) : Unstopped (replay s n l) := by
  refine fold h fun t q h => ?_
  split
  · split
    next hland => exact h.upd.landTry _ hland
    · exact h
  · exact h

theorem tc2Flow (h : Unstopped s) : Unstopped (tc2Flow s) := h.setF

theorem park (h : Unstopped s) : Unstopped (park s n sl id p) := branch h.upd.showParking (((branch h h.flagF).upd).tc2Flow)

theorem retryHeld {l : List Parked} (h : Unstopped s) : Unstopped (retryHeld s l) := by
  refine fold h fun t q h => ?_
  dsimp only
  split
  next hland => exact h.upd.landTry _ hland
  · exact branch h.upd.park h

theorem parkReplay (h : Unstopped s) : Unstopped (parkReplay s n) := h.replay.showParking.retryHeld.tc2Flow

theorem probeFired {b : Nat} {e : IntakeEntry} (h : Unstopped s) : Unstopped (probeFired s n b e) := h.modFn

theorem probeSeals (h : Unstopped s) : Unstopped (probeSeals s i) :=
  fold h (fun _ _ h => branch (fold h (fun _ _ h => branch h.probeFired.parkReplay h)) h)

theorem heldProbes (h : Unstopped s) : Unstopped (heldProbes s) := fold h (fun _ _ h => (by split; exacts [h.probeSeals, h]))

theorem groupSealFired (h : Unstopped s) : Unstopped (groupSealFired s n i) := by
  fun_cases Machine.groupSealFired
  exacts [h.setFnF.collOpen, h, h]

theorem showRoute (h : Unstopped s) : Unstopped (showRoute s n) := h.setFnF.setFnF.setFnF.setFnF.setFnF

theorem routeSwitch (h : Unstopped s) : Unstopped (routeSwitch s n) := by
  fun_cases Machine.routeSwitch
  exacts [h, h.setFnSt]

theorem switchAtSeal (h : Unstopped s) : Unstopped (switchAtSeal s n i) := by
  fun_cases Machine.switchAtSeal
  exacts [h.routeSwitch.modFn.showRecord.watchUpdate.showRoute, h, h]

theorem onSeal (h : Unstopped s) : Unstopped (onSeal s i) := fold h.probeSeals.partialsCheck.groupSealFired (fun _ _ h => h.switchAtSeal)

theorem collFailed (h : Unstopped s) : Unstopped (collFailed s n off status cval vals) :=
  branch (branch h.collEnd.collOpen h.collEnd) (branch h.setColl.collReform
    (branch h.flagF.todo.errFn.collEnd (branch h.collEnd h.todo.collEnd)))

theorem collTake (h : Unstopped s) : Unstopped (collTake s n off status cval vals) := branch h.collEnd h.collFailed

theorem gradSealCheck (h : Unstopped s) : Unstopped (gradSealCheck s n) := branch ((branch h.modFn.setFnF h.modFn.setFnF.postEvent).todo) h

theorem scalarsClosed (h : Unstopped s) : Unstopped (scalarsClosed s n c vals) := h.modFn.setFnF.gradSealCheck

theorem stepArrive (h : Unstopped s) : Unstopped (stepArrive s n) := branch h.collOpen h

/-- The function reads neither STOPPED before nor after. -/
theorem setFnState {new : Nat} (hnew : new = 2 ∨ new = 3) (h : n ≠ 1 → Unstopped s) : Unstopped (setFnState s n new) := by
  unfold Machine.setFnState
  extract_lets old s₁ p
  have h₁ : Unstopped (Machine.setFnF s n FN_STATE_STATE new) := by
    by_cases hn : n = 1
    · refine of_state ?_
      rw [hn, stateOf, if_neg Nat.one_ne_zero, fnF, Machine.setFnF, getF_setF_same _ _ _ _ (by decide) (by decide)]
      rcases hnew with rfl | rfl <;> decide
    · exact (h hn).setFnFOf hn
  split
  next hsame =>
    by_cases hn : n = 1
    · refine of_state ?_
      subst hn
      simp only [old] at hsame
      omega
    · exact h hn
  · exact h₁.raiseFn.postEvent.postEvent

theorem sendReports (h : Unstopped s) : Unstopped (sendReports s n) := fold h (fun _ _ h => h.reportTo)

theorem twinTest (h : Unstopped s) : Unstopped (twinTest s n) := by
  fun_cases Machine.twinTest
  exacts [h, h.upd.setF, h.upd.flagF.raiseUnit]

theorem twinSend (h : Unstopped s) : Unstopped (twinSend s msg) := h.sendPacket

theorem twinEnter (h : Unstopped s) : Unstopped (twinEnter s n) := branch h.upd.twinSend.twinTest h

theorem showRates (h : Unstopped s) : Unstopped (showRates s) := h.setF.setF

theorem reshardEnd (h : Unstopped s) : Unstopped (reshardEnd s n) := branch h.modFn.openIntake h.modFn.todo

theorem planLoad {image : List Byte} (h : Unstopped s) : Unstopped (planLoad s n row stamp image) := by
  fun_cases Machine.planLoad
  exacts [h, h.upd.sendWait.todo, h.upd.sendWait]

theorem sendFree (h : Unstopped s) : Unstopped (sendFree s n row) := h.planLoad

theorem freesSend (h : Unstopped s) : Unstopped (freesSend s n) := by
  fun_cases Machine.freesSend
  exacts [h.reshardEnd, fold h (fun _ _ h => h.sendFree), h]

theorem modPlan {f : Plan → Plan} (h : Unstopped s) : Unstopped (modPlan s n f) := h.modFn

theorem reshardResume (h : Unstopped s) : Unstopped (reshardResume s n) := by
  fun_cases Machine.reshardResume
  exacts [h.modFn, h.modPlan.freesSend, h.freesSend, h]

theorem enterIntake (h : Unstopped s) : Unstopped (enterIntake s n c) := h.openIntake.modFn

theorem enterRunning (h : Unstopped s) : Unstopped (enterRunning s n c) := by
  unfold Machine.enterRunning
  extract_lets s₁ s₂ s₃ s₄
  have h₂ : Unstopped s₂ := setFnState (.inl rfl) fun hn => h.modFn.setFnFOf hn
  have h₄ : Unstopped s₄ := h₂.watchUpdate.showRates.twinEnter.sendReports.reshardResume
  exact branch h₄ (branch h₄.modFn h₄.enterIntake)

theorem loadPassClosed (h : Unstopped s) : Unstopped (loadPassClosed s n c) := by
  unfold Machine.loadPassClosed
  exact h.modFn.setFnF.enterRunning

theorem digPut {r : List Byte} (h : Unstopped s) : Unstopped (digPut s n r) := h.hostWrite.setFnF

theorem digRecord {build : Nat → List Byte} (h : Unstopped s) : Unstopped (digRecord s n build) :=
  branch (branch h.setFnSt.modFn h.setFnSt.addF) (branch h.setFnSt.digPut h.setFnSt.addF)

theorem stepRecord (h : Unstopped s) : Unstopped (stepRecord s n) := by
  unfold Machine.stepRecord
  exact h.modFn.setFnF.digRecord

theorem exactLost (h : Unstopped s) : Unstopped (exactLost s n) := branch h.postEvent h

theorem placementRecord (h : Unstopped s) : Unstopped (placementRecord s n) := by
  fun_cases Machine.placementRecord
  exacts [h.setFnF, h.setFnF.slip, h]

theorem showSeed (h : Unstopped s) : Unstopped (showSeed s n) := by
  fun_cases Machine.showSeed
  exacts [h, h.setFnF.setFnF.setFnF.setFnF]

theorem showStep (h : Unstopped s) : Unstopped (showStep s n) := h.setFnF.setFnF.setFnF.setFnF.showSeed

theorem migrationSeal (h : Unstopped s) : Unstopped (migrationSeal s n) := by
  fun_cases Machine.migrationSeal
  exacts [h.modFn.setFnF.bgComplete, h, h]

theorem governor (h : Unstopped s) : Unstopped (governor s) := branch h.modFloor.showFloor h.modFloor.showFloor.flagF.errUnit.postEvent

theorem snapSkipped {step : Nat} (h : Unstopped s) : Unstopped (snapSkipped s n step) := h.flagF.addF.errFn.postEvent

theorem setBand {b : Nat} {e : BandEnt} (h : Unstopped s) : Unstopped (setBand s b e) := h.modFloor

theorem blockFails {b : Nat} {pageToo : Bool} (h : Unstopped s) : Unstopped (blockFails s b pos pageToo) :=
  branch h.setBand.addF.errUnit.modFloor h.setBand.addF.errUnit

theorem storePage (h : Unstopped s) : Unstopped (storePage s fpa data) := h.modFloor

theorem progPage {b fuel : Nat} (h : Unstopped s) : Unstopped (progPage fails s b data fuel).1 := by
  fun_induction Machine.progPage fails s b data fuel
  case case1 => exact h
  case case2 => exact h
  case case3 ih => exact ih h.setBand.blockFails
  case case4 => exact h.setBand.storePage

theorem openBandRaw {b : Nat} {owner : Nat} (h : Unstopped s) : Unstopped (openBandRaw fails eraseBad s b kind owner) :=
  (fold h.modFloor.setBand (fun _ _ h => h.blockFails)).progPage

theorem catalogTry {flags fuel : Nat} (h : Unstopped s) : Unstopped (catalogTry fails flags fuel s) := by
  fun_induction Machine.catalogTry fails flags fuel s
  case case1 => exact h
  case case2 ih => exact ih h.modFloor.openBandRaw
  case case3 ih => exact ih h.setBand.blockFails
  case case4 => exact fold h.setBand.modFloor fun _ _ h => h.storePage

theorem takeResume (h : Unstopped s) : Unstopped (takeResume s reason stage) := fold h (fun _ _ h => (by split; exacts [h, h.modFloor]))

theorem writeCatalog {flags reason : Nat} (h : Unstopped s) : Unstopped (writeCatalog fails s flags reason stage) := by
  unfold Machine.writeCatalog
  split
  · exact h
  · exact showFloor (modFloor (catalogTry h.takeResume))

theorem newCatalog (h : Unstopped s) : Unstopped (newCatalog fails s) := h.writeCatalog

theorem retire (h : Unstopped s) : Unstopped (retire s id) := h.modSnap.freeOwned

theorem makeRoom {need fuel : Nat} (h : Unstopped s) : Unstopped (makeRoom n need fuel s) := by
  fun_induction Machine.makeRoom n need fuel s
  case case3 ih => exact ih h.retire.newCatalog
  all_goals exact h

theorem addSnap {e : SnapEnt} (h : Unstopped s) : ∀ t ∈ addSnap s e, Unstopped t := by
  unfold Machine.addSnap
  dsimp only
  split
  · exact some_mem h.modFloor
  · split
    · exact some_mem h.modFloor
    · exact none_mem

theorem snapshotBegin {step c : Nat} (h : Unstopped s) : Unstopped (snapshotBegin s n step c).1 := by
  fun_cases Machine.snapshotBegin
  case case1 => exact h
  case case2 => exact h.snapSkipped
  case case3 => exact h.makeRoom.snapSkipped
  case case4 => exact h.makeRoom.snapSkipped
  case case5 hadd _ _ => exact showSnap (modFn (modFloor (h.makeRoom.addSnap _ hadd)))

theorem snapshotDue {step : Nat} (h : Unstopped s) : Unstopped (snapshotDue s n step c) := by
  unfold Machine.snapshotDue
  refine branch h.modFn (branch (pair (snapshotBegin (branch h.modFn.governor h.modFn)) fun t b
    ht => branch (branch ht.modFn ht.modFn.bgComplete) ht) ?_)
  split
  · exact branch (bgComplete (modFn (branch h.modFn.governor h.modFn))) (branch h.modFn.governor h.modFn)
  · exact branch h.modFn.governor h.modFn

theorem fwConfirm (h : Unstopped s) : Unstopped (fwConfirm s) := by
  fun_cases Machine.fwConfirm
  exacts [h, h.putBoot.setF.fwStage]

theorem fwStepSeal (h : Unstopped s) : Unstopped (fwStepSeal s) := branch h.modNvm (branch (branch h.addF.fwConfirm h.addF) h)

theorem adoptSwitch {step : Nat} (h : Unstopped s) : Unstopped (adoptSwitch s n step) := by
  fun_cases Machine.adoptSwitch
  exacts [h.adopt, h, h]

theorem flushBag {b : Bag} (h : Unstopped s) : Unstopped (flushBag s b) := release (branch (branch h (by split; exacts [h.writeHole, h])) h.addF)

theorem flushSlice (h : Unstopped s) : Unstopped (flushSlice s n sl) := by
  unfold Machine.flushSlice
  exact (fold ((fold h (fun _ _ h => h.flushBag)).upd) (fun _ _ h => h.bin)).modFn

theorem drainActs (h : Unstopped s) : Unstopped (drainActs s n sends) :=
  (((((((fold (branch h.dropCores.dropHold.schedStop.drainSend.sendCloses h.dropCores.dropHold.schedStop)
    (fun _ _ h => branch h h.flushSlice)).discardLanded).upd).modFn).setFnF).setFnF).setFnF).showParking

theorem drainBegin {reset : Bool} (h : Unstopped s) : Unstopped (drainBegin s n reset toOff sends) :=
  (setFnState (.inr rfl) fun _ => h.twinDisarm.sweepAbandon.setFnF.setFnF.modFn.setFnF).drainActs.showRates

theorem drainStop (h : Unstopped s) : Unstopped (drainStop s n) := branch h.drainBegin h

theorem stopAtSeal {t : Nat} (h : Unstopped s) : Unstopped (stopAtSeal s n t) := by
  fun_cases Machine.stopAtSeal
  exacts [drainStop (by dsimp +zetaDelta only; split; exacts [h.bgComplete, h]), h, h]

theorem reshardBegin {sealed : Nat} (h : Unstopped s) : Unstopped (reshardBegin s n sealed) := by
  fun_cases Machine.reshardBegin
  exacts [h, h.modFn.collOpen]

theorem intakeNext (h : Unstopped s) : Unstopped (intakeNext s n) := branch h.modFn.openIntake h

theorem stepSeal (h : Unstopped s) : Unstopped (stepSeal s n c) := by
  unfold Machine.stepSeal
  extract_lets t s₁ s₂ s₃ s₄ s₅ s₆ s₇ s₈ s₉
  have h₅ : Unstopped s₅ := h.placementRecord.exactLost.stepRecord.modFn.setFnF.setFnF.schedStop.setFnF.showStep.migrationSeal.switchAtSeal
  have h₈ : Unstopped s₈ := h₅.snapshotDue.adoptSwitch.fwStepSeal.stopAtSeal
  have h₉ : Unstopped s₉ := h₈.intakeNext
  exact branch h₈ (branch h₈.reshardBegin (branch h₉.switchTry h₉))

theorem recoveryStart (h : Unstopped s) : Unstopped (recoveryStart s n) := h.setFnF.setFnF

theorem abortClosed (h : Unstopped s) : Unstopped (abortClosed s n) := branch h (branch h.upd h.recoveryStart)

theorem resumed (h : Unstopped s) : Unstopped (resumed s n c) := branch h.abortOver.setFnF.todo h.abortOver.modFn.setFnF

theorem dropColls (h : Unstopped s) : Unstopped (dropColls s n) := fold h (fun _ _ h => h.collCancel)

theorem sealDisarmAll (h : Unstopped s) : Unstopped (sealDisarmAll s n) := h.upd

theorem endRestart (h : Unstopped s) (hstarting : isStarting s n = true) : Unstopped (endRestart s n status) := by
  have hn : n ≠ 1 := by
    rintro rfl
    simp only [isStarting, Bool.and_eq_true, decide_eq_true_eq] at hstarting
    have hstart := h.status hstarting.1
    omega
  exact setFnFOf ((((fold h.dropColls.upd (fun _ _ h => h.showBags)).sealDisarmAll).modFn).setFnF) hn

theorem startClosed (h : Unstopped s) : Unstopped (startClosed s n c vals) := by
  unfold Machine.startClosed
  split
  · exact h
  next hstarting =>
    rw [Bool.not_eq_true, Bool.not_eq_false'] at hstarting
    exact branch (h.endRestart hstarting) (branch h.enterRunning h.modFn)

theorem putsCheck (h : Unstopped s) : Unstopped (putsCheck s n) := by
  fun_cases Machine.putsCheck
  exacts [h.modPlan.collOpen, h, h]

theorem sendPuts (h : Unstopped s) : Unstopped (sendPuts s n) := by
  fun_cases Machine.sendPuts
  exacts [h, fold h.modPlan (fun _ _ h => (by split; exacts [h, fold h.upd (fun _ _ h => h.sendTo)])), h]

theorem showManifest (h : Unstopped s) : Unstopped (showManifest s n) := by
  fun_cases Machine.showManifest
  exacts [h, h.setFnF.setFnF.setFnF.setFnF, h.setFnF.setFnF.setFnF.setFnF.setFnF.setFnF.setFnF.setFnF.setFnF]

theorem reshardSwitch (h : Unstopped s) : Unstopped (reshardSwitch s n) := by
  fun_cases Machine.reshardSwitch
  exacts [h.modFn.showManifest.bgComplete.reshardEnd, h.modFn.showManifest.freesSend, h]

theorem permuteClosed (h : Unstopped s) : Unstopped (permuteClosed s n c) := by
  fun_cases Machine.permuteClosed
  exacts [h.modPlan.sendPuts.putsCheck, h.reshardSwitch, h, h]

theorem softwareClosed (h : Unstopped s) : Unstopped (softwareClosed s n c layout vals) := by
  fun_cases Machine.softwareClosed
  exacts [(branch h h.hostWrite).bgComplete, h]

theorem collClosed (h : Unstopped s) : Unstopped (collClosed s n off c layout vals) :=
  branch h.scalarsClosed (branch (branch h.modFn h.modFn.setFnF.stepArrive)
    (branch (branch h.loadPassClosed h.stepSeal) (branch h.abortClosed
    (branch (branch h.resumed h) (branch h.startClosed (branch h.permuteClosed h.softwareClosed))))))

theorem bugleSend (h : Unstopped s) : Unstopped (bugleSend s n cause serial fromDie fromLine) := by
  fun_cases Machine.bugleSend
  exacts [branch h (fold h (fun _ _ h => h.lineQueue)), fold (branch h (fold h (fun _ _ h => h.lineQueue))) (fun _ _ h => h.sendFife)]

theorem bugleSound (h : Unstopped s) : Unstopped (bugleSound s n cause alone) := branch h h.bugleSend.bugleAct

theorem startConflict (h : Unstopped s) : Unstopped (startConflict s n) := by
  unfold Machine.startConflict
  split
  next hstarting => exact h.endRestart hstarting
  · exact h

theorem collEnded (h : Unstopped s) : Unstopped (collEnded s n off status) :=
  branch (branch h.flagF.postEvent.errFn.bugleSound (branch h.flagF.postEvent.errFn.bgComplete h.flagF.postEvent.errFn))
    (branch (branch h.startConflict (branch h.bgComplete h)) h)

theorem onColl (h : Unstopped s) : Unstopped (onColl s n off status c vals) :=
  branch (branch h.collTake.collClosed h.collTake) (branch h h.collEnded)

theorem integrityAbort (h : Unstopped s) : Unstopped (integrityAbort s n cause) :=
  branch h (((branch h.flagF.setFnF.setFnF.errFn h.flagF.setFnF.setFnF).postEvent).bugleSound)

theorem cancelRestart (h : Unstopped s) : Unstopped (cancelRestart s n) := by
  unfold Machine.cancelRestart
  split
  next hstarting => exact h.endRestart hstarting
  · exact h

theorem fnAbort (h : Unstopped s) : Unstopped (fnAbort s n cause) :=
  branch h.bugleSound (branch h.bugleSound (branch h.setFnF.cancelAll.setFnF.abortOver.passAbort h.setFnF.cancelRestart))

theorem groupAbort (h : Unstopped s) : Unstopped (groupAbort s n) := branch h.passAbort h

theorem withdrawDie (h : Unstopped s) : Unstopped (withdrawDie s cause ch) :=
  branch h (((branch (((((fold (fold h (fun _ _ h => h.setFnF.bugleSound)) (fun _ _ h => h.modFn)).flagF).setF).setF).todo)
    ((((fold (fold h (fun _ _ h => h.setFnF.bugleSound)) (fun _ _ h => h.modFn)).flagF).setF).setF)).postEvent).logWrite)

theorem rolledBack (h : Unstopped s) : Unstopped (rolledBack s) := h.flagF.errUnit

theorem logRollback (h : Unstopped s) : Unstopped (logRollback s slot reason) := h.logWrite

theorem rejectTrial {t : Nat} (h : Unstopped s) : Unstopped (rejectTrial s t reason) := h.putBoot.logRollback

theorem trialFault (h : Unstopped s) : Unstopped (trialFault s reason) := by
  fun_cases Machine.trialFault
  exacts [h, h, h.rejectTrial.rolledBack.setF.fwStage.modNvm, h.rejectTrial.rolledBack.setF.fwStage]

theorem drainCheck (h : Unstopped s) : Unstopped (drainCheck s n) :=
  branch h (branch (((fold h (fun _ _ h => branch h.flushSlice h)).modFn).collOpen) (fold h (fun _ _ h => branch h.flushSlice h)))

theorem setChan {f : Fld} {v : Bool} (h : Unstopped s) (hf : Aside f = true := by rfl) : Unstopped (setChan s f ch v) := h.setF hf

theorem escalate {lower : Nat} {upper : Nat} (h : Unstopped s) (hlower : lower % 4096 = 0 := by simp +decide [pgSlice_mod, pgRegion_mod])
    (hupper : upper % 4096 = 0 := by simp +decide [pgSlice_mod, pgRegion_mod]) : Unstopped (escalate s lower upper) :=
  (h.errBit rfl hlower).errBit rfl hupper

theorem channelFail (h : Unstopped s) : Unstopped (channelFail s ch) := branch h h.setChan.setChan.errSlice.escalate.escalate.withdrawDie

theorem sendGseal (h : Unstopped s) : Unstopped (sendGseal s n) := fold h.modFn (fun _ _ h => branch h h.membSend)

theorem modReload {f : Reload → Reload} (h : Unstopped s) : Unstopped (modReload s n f) := h.modFn

theorem loadEmit {m : Manifest} {slot : List Byte} (h : Unstopped s) : Unstopped (loadEmit s n m l slot) := branch h.emitWcAt h

theorem reloadReceipt (h : Unstopped s) : Unstopped (reloadReceipt s n t) := branch h h.sendReceipt

theorem reloadWrite (h : Unstopped s) : Unstopped (reloadWrite s n t) :=
  reloadReceipt (by split; exacts [(by split; exacts [h.modReload.heldWrite.loadEmit, h.modReload]), h.modReload])

theorem reloadProgress (h : Unstopped s) : Unstopped (reloadProgress s n) := by
  unfold Machine.reloadProgress
  refine branch h ?_
  extract_lets done s₁
  have h₁ : Unstopped s₁ := fold h fun t w h => by
    dsimp only
    split
    · exact h.dropWait.reloadWrite
    · exact h.dropWait
  split
  · exact h₁
  · exact branch h₁.bgComplete h₁

theorem reshardAbandon (h : Unstopped s) : Unstopped (reshardAbandon s n) := by
  fun_cases Machine.reshardAbandon
  exacts [h, h, h.upd.modFn.freesSend]

theorem permuteWrite (h : Unstopped s) : Unstopped (permuteWrite s n t) := by
  fun_cases Machine.permuteWrite
  exacts [modPlan (sendReceipt (by dsimp +zetaDelta only; split; exacts [h.heldWrite, h])), h]

theorem reshardCheck (h : Unstopped s) : Unstopped (reshardCheck s n) := by
  unfold Machine.reshardCheck
  split
  · exact h
  · extract_lets done s₁ s₂
    have h₁ : Unstopped s₁ := fold h fun _ _ h => by
      split
      · exact h.dropWait.permuteWrite
      · exact h
    have h₂ : Unstopped s₂ := fold h fun _ _ h => branch h.dropWait.heldWrite.modPlan h
    refine branch (branch h.reshardAbandon h₁.putsCheck) ?_
    split
    · exact branch (reshardEnd (branch h₂.bgComplete h₂)) h₂
    · exact h₂

theorem loadSettle (h : Unstopped s) : Unstopped (loadSettle s w) := by
  fun_cases Machine.loadSettle
  exacts [groupArrive
    (branch h.dropWait
    (by split; exacts [h.dropWait, (by split; exacts [h.dropWait.heldWrite.loadEmit, branch h.dropWait.loadEmit h.dropWait])])),
    h.dropWait]

theorem loadProgress (h : Unstopped s) : Unstopped (loadProgress s n) :=
  branch h (fold ((fold h (fun _ _ h => h.loadSettle)).modFn) (fun _ _ h => h.complete))

theorem copyCheck (h : Unstopped s) : Unstopped (copyCheck s n) := by
  fun_cases Machine.copyCheck
  exacts [h, h.modFn.setFnF.transferDoneAt, h.modFn.setFnF.membSend, h.modFn.setFnF, h]

theorem evacRequest (h : Unstopped s) : Unstopped (evacRequest s n room) := by
  fun_cases Machine.evacRequest
  exacts [h, h.modFn.keeperServe, h.modFn.keeperServe.modFn.bgComplete, h.modFn.modFn, h.modFn.membSend, h.modFn]

theorem reportEvacuation (h : Unstopped s) : Unstopped (reportEvacuation s) := fold h.postEvent (fun _ _ h => branch h.evacRequest h)

/-- FN0's page is cleared; function 1's is another. -/
theorem clearPage (h : Unstopped s) : Unstopped (clearPage s (pgFn 0)) :=
  h.of_word (congrArg (fun o => o.getD (resetWord s.variant 0x21044)) (tabFind_filter fun _ => rfl))

theorem resetFn (h : Unstopped s) : Unstopped (resetFn s n toOff) :=
  branch (((fold h (fun _ _ h => h.complete)).modFn).clearPage)
    (branch h.cancelRestart.drainBegin (branch h.bugleSend.drainBegin (branch h.addF.modFn h)))

theorem changeAgain (h : Unstopped s) : Unstopped (changeAgain s n) := by
  fun_cases Machine.changeAgain
  exacts [h, h.upd.modFn, h.upd.modFn.declareFailed, h.upd.modFn.bump, h.upd.modFn.bumpCheck]

theorem runTodo {t : Todo} (h : Unstopped s) : Unstopped (runTodo s t) := by
  fun_cases Machine.runTodo
  exacts [h.onSeal, h.onColl, h.gradSealCheck, h, h.bugleSound, h.integrityAbort, h.fnAbort, h.drainStop, h.groupAbort, h.withdrawDie,
    h.trialFault, h.drainCheck, h.partialsCheck.gradSealCheck, h.channelFail, h.sendGseal, h.loadProgress.reshardCheck.reloadProgress,
    h.stepArrive, h.copyCheck.putsCheck.reloadProgress, h.reportEvacuation, h.resetFn, h.collOpen, h.changeAgain]

theorem runAgenda {fuel : Nat} (h : Unstopped s) : Unstopped (runAgenda fuel s) := by
  fun_induction Machine.runAgenda fuel s
  case case3 ih => exact ih h.upd.runTodo
  all_goals exact h

theorem settle (h : Unstopped s) : Unstopped (settle s) := by
  unfold Machine.settle
  exact shadowNotes (branch (heldProbes (fwHoldCheck h)) (runAgenda (fwHoldCheck h)))

theorem conclude {t : State} (h : Unstopped t) : Unstopped (conclude s t) := h.settle.answerWaits.upd

end Unstopped

/-! ### A drain whose recovery writes over the page of its function -/

/-- A group of one data member and one pigeonhole holder, of one row. -/
def pairManifest : Manifest := ⟨0, 0, 0, 0, 1, 0, 0, 0, 0, 0, [⟨0, 1, 1, 0, 0, 0, 0, 0⟩], [], [], []⟩

/-- A wheel image that places the rows on slice 17, whose page is that of function 1. -/
def farWheel : WheelImage := ⟨12, 0, 0, 0, 0, 0, 0, 0, 0, 0, 0, 1, [17], [], [], []⟩

/-- Function 1 in a drain, this die the holder of its row. -/
def drainingHolder : FnSt :=
  { manifest := some pairManifest, wheel := some farWheel, role := 1, self := 1, members := [⟨true, 0, []⟩, ⟨true, 0, []⟩],
    drain := some ⟨false, 0⟩ }

/-- Function 1 is DRAINING with target DISABLED, and the intent ledger holds an entry of its row. -/
def drainsToDisabled : State :=
  setFnSt { State.reset with
    regs := [(0xE040, 1), (0xE058, 0x10000000), (0x21044, 0xE0000000)], pwr := { phase := 2 },
    near := memWriteN [] 0 (intentEntry 1 0 5 0 0) } 1 drainingHolder

theorem quiet_drainsToDisabled : Quiet drainsToDisabled :=
  ⟨by decide +kernel, by decide +kernel, by decide +kernel, by decide +kernel, by decide +kernel, by decide +kernel⟩

/-- The command ends with function 1 STOPPED and a START_STATUS below 8. -/
def endsStopped (o : Out) : Bool :=
  match o with
  | .next t => decide (stateOf t 1 = 1) && decide (fnF t 1 FN_STATE_START_STATUS < 8)
  | _ => false

theorem not_unstopped_of_endsStopped {t : State} (h : endsStopped (.next t) = true) : ¬ Unstopped t := by
  simp only [endsStopped, Bool.and_eq_true, decide_eq_true_eq] at h
  exact fun hkept => absurd (hkept.status h.1) (by omega)

-- The checksum of a slot's postmark is a fold over its 248 bytes.
set_option maxRecDepth 1000 in
/-- The reservation for decoding the row is shown in slice 17's page and so clears TARGET. -/
theorem drainComplete_endsStopped : endsStopped (exec (.drainComplete 1 []) drainsToDisabled) = true := by decide +kernel

/-- No state in which function 1 is DISABLED ends as the command does. -/
theorem not_does_drainComplete : ¬ Does (.drainComplete 1 []) drainsToDisabled (fun u => stateOf u 1 = 0) := by
  rintro ⟨u, hexec, hdisabled⟩
  have hends := drainComplete_endsStopped
  rw [hexec] at hends
  refine not_unstopped_of_endsStopped hends (Unstopped.conclude (Unstopped.of_state ?_))
  rw [hdisabled]
  exact Nat.zero_ne_one

/-- Refutes O41: a wheel image may place a row on slice 17, whose page lies where function 1's does. The recovery of a drain with target
DISABLED then shows the row's reservation over TARGET, and the function ends STOPPED. -/
theorem not_functionsStartStopAndDrain : ¬ Obligations.FunctionsStartStopAndDrain := by
  unfold Obligations.FunctionsStartStopAndDrain
  intro hall
  have hclauses := (hall drainsToDisabled .mf 1).2 (by decide +kernel) quiet_drainsToDisabled
  obtain ⟨-, -, -, -, hcomplete, -⟩ := hclauses
  obtain ⟨u, hexec, hstate, -⟩ := hcomplete (by decide) (by decide +kernel) (by decide +kernel) (by decide +kernel) []
  have htarget : fnF drainsToDisabled (1 : Fin 64) FN_STATE_TARGET = 1 := by decide +kernel
  rw [if_pos htarget] at hstate
  exact not_does_drainComplete ⟨u, hexec, hstate⟩

end Sys2Proof.Proofs
